-- ==== Sys2Proof/Word.lean ====
section
/-! DEFINITION. The bit-vector types of the Q20 and the names for their widths. -/

namespace Sys2Proof

/-- One byte of a packet, a buffer or an SPI transaction (00 R7). -/
abbrev Byte := BitVec 8

/-- A 32-bit register word of the SPI map (11 R268). -/
abbrev Word32 := BitVec 32

/-- A notice (11 R280) and a result-queue entry (06 R156). -/
abbrev Word64 := BitVec 64

/-- The Meridian count (01 R14). -/
abbrev Count48 := BitVec 48

end Sys2Proof
end

