-- ==== Sys2Proof/Syntax.lean ====
section
/-! DEFINITION. The steps of the Q20: one constructor of Instr per row of spec/opcode_table.json, with the row's operands.
An operand is what reaches the step from outside the block: a packet, a frame, an SPI transaction, a pin level, a reading. -/

namespace Sys2Proof

/-- The four islands (01 R9). -/
inductive Island where
  | mgmt | loop | meas | aon
  deriving DecidableEq, Repr

/-- The parties that may own a lock or an ownership word, in the fixed priority of 11 R275 and R293. -/
inductive Party where
  | mgmt | loop | meas | host | aon
  deriving DecidableEq, Repr

/-- A write of an ownership word by another party in the reference cycle of a command's own write (11 R275). -/
structure OwnWrite where
  who : Party
  own : BitVec 2
  gen : BitVec 6
  deriving DecidableEq, Repr

/-- The host's write of an ownership word: the generation it gives, and what other parties write to that word in the same reference cycle
(11 R274, R275). -/
structure OwnAsk where
  gen : BitVec 6
  others : List OwnWrite
  deriving DecidableEq, Repr

/-- A read of a lock: the party that reads, and the others that request it in the same reference cycle (11 R292, R293). -/
structure LockAsk where
  who : Party
  others : List Party
  deriving DecidableEq, Repr

/-- The two ports of the line modem (09 R209). -/
inductive Port where
  | loop | spur
  deriving DecidableEq, Repr

/-- The rails that SUP_RAIL watches, with the causes of 13 Table 13-2. -/
inductive Rail where
  | vcore | vana | vrefo
  deriving DecidableEq, Repr

/-- The payload modes of 09 Table 9-1. -/
inductive Mode where
  | robust | standard | fast
  deriving DecidableEq, Repr

/-- What a checked access finds, an injection left aside (13 R334). -/
inductive ErrKind where
  | none | single | double
  deriving DecidableEq, Repr

/-- A command packet as the interpreter reads it (12 Table 12-1), with the notice it came by (11 Table 11-11).
`sender` is the fabric address behind a session or a broadcast (12 R305); the local host has none. -/
structure Packet where
  src : Byte
  sender : BitVec 12
  buf : BitVec 6
  nbLen : Nat
  tag : Byte
  flags : Byte
  plen : Nat
  rsvd : BitVec 16
  params : List Byte
  deriving DecidableEq, Repr

/-- A crossing token that passes from one island to another at a tick boundary (01 Table 1-4): an alarm command, a detector report, a
loop update on its way to AON, a loop feed, an apply token, a token of the tap drain, a buffer to publish, a trace token, the
notice of an internal mailbox and its acknowledge. -/
inductive Token where
  | alarm | dacHold | feed | measApply | loopApply | lineApply | tapDrain | relay
  | report (i : Island)
  | trace (i : Island)
  | notice (mb : Nat)
  | ack (mb : Nat)
  deriving DecidableEq, Repr

/-- A token that carries a real parity error, or none (13 R334). -/
structure Crossing where
  tok : Token
  err : Bool
  deriving DecidableEq, Repr

/-- The pins and comparators that AON samples at a tick boundary (02 R33, R45; 03 R48; 16 R385), and the heartbeats that the
watchdogs saw in the tick before (13 Table 13-2; bit 0 MGMT, 1 LOOP, 2 MEAS, 3 AON); and the buffer-ready flag of each slice at
the end of the tick before (05 Table 5-2); and the crossing tokens that carry a real parity error (13 Table 13-2). -/
structure TickIn where
  blank : Bool
  rstN : Bool
  gpio : BitVec 3
  loopBelow85 : Bool
  loopBelow86 : Bool
  buckBelow70 : Bool
  vresBelow90 : Bool
  vresBelow110 : Bool
  vioBelow25 : Bool
  beats : BitVec 4
  bufReady : BitVec 4
  crossings : List Crossing
  deriving DecidableEq, Repr

/-- One 64-tick supply reading in mV (03 R47), with VIO (16 R385) and the rail and temperature monitors (13 R320). -/
structure SupplyRead where
  loopIn : Nat
  auxIn : Nat
  vres : Nat
  vio : Nat
  tempHigh : Bool
  rails : BitVec 3
  deriving DecidableEq, Repr

/-- What the device measured over the last evaluation interval, in uA: the VIO current, its own draw, and the loop current at
LSNS, which differs from the commanded one in compliance only (03 R52, R53, R58). -/
structure EvalIn where
  vioUa : Nat
  drawUa : Nat
  senseUa : Nat
  deriving DecidableEq, Repr

/-- What a slice hands over for one conversion (05 R97, R101, R102): the 18-bit code, the PGA overload flag, the sign of
the input difference, and the redundancy verdict. -/
structure Conv where
  code : BitVec 18
  overload : Bool
  negative : Bool
  disagree : Bool
  deriving DecidableEq, Repr

/-- What a qualification delivers: its 16 conversions, and whether the reference buffer was ready at the end of the cold wake
(05 R112, R118). -/
structure QualIn where
  convs : List Conv
  bufReady : Bool
  deriving DecidableEq, Repr

/-- What Sextant's modulator delivers of a window (05 R121): its code against the own bandgap, for REF_SEL = 0; and the integrals
of the input, at the channel's gain, and of REFP - REFN, for REF_SEL = 1. -/
structure SxIn where
  code : BitVec 20
  iIn : Int
  iRef : Int
  deriving DecidableEq, Repr

/-- A complex value of the receiver's transform (09 R216). -/
structure Cplx where
  re : Int
  im : Int
  deriving DecidableEq, Repr

/-- One FSK octet as the receiver slices it (09 R236): its 11 bits, the start bit first and lowest; the whole bit times of idle
line before its start bit; and the count of the tick in which its start bit began. -/
structure FskOctet where
  bits : BitVec 11
  idle : Nat
  start : Count48
  deriving DecidableEq, Repr

/-- A frame (09 Table 9-5, 10 R240) with its payload and its mode. -/
structure Frame where
  dest : BitVec 12
  src : BitVec 12
  typ : BitVec 4
  hop : BitVec 3
  len : BitVec 9
  seq : Byte
  payload : List Byte
  mode : Mode
  deriving DecidableEq, Repr

/-- An access that a detector of 13 Table 13-2 checks: the detector, its cause, the SRC_ID of the island in which the
condition arises, and what the access finds. -/
structure Access where
  det : BitVec 6
  cause : BitVec 16
  island : Byte
  err : ErrKind
  deriving DecidableEq, Repr

/-- The steps, in the order of spec/opcode_table.json. -/
inductive Instr where
  /-- DEV_IDENTIFY (R347): Command returning the device ID, revisions, UID, committed address and the hash of the identity public key. -/
  | devIdentify (p : Packet)
  /-- DEV_STATUS (R146): Command returning the device status summary and clearing the reported SEQ_OVERRUN bits in the same reply. -/
  | devStatus (p : Packet)
  /-- DEV_RESET_ISLAND (R329): Command resetting MGMT, LOOP or MEAS, with the island fenced and its detectors shadowed (ORIGIN 0xFE). -/
  | devResetIsland (p : Packet)
  /-- ALM_WRITE (R308): Command checking all entries and then writing almanac fields according to their L, P or S apply attribute. -/
  | almWrite (p : Packet)
  /-- ALM_READ (R307): Command returning field values from the shadow or committed almanac copy. -/
  | almRead (p : Packet)
  /-- ALM_APPLY (R309): Command checking and compiling the whole shadow, committing it and posting apply tokens. -/
  | almApply (p : Packet)
  /-- ALM_CHECK (R309): Command running the full almanac checks and compilation without changing anything, returning the compile record. -/
  | almCheck (p : Packet)
  /-- ALM_SAVE (R312): Command writing the committed almanac over the older NVM copy, with a sequence number and digest. -/
  | almSave (p : Packet)
  /-- SEQ_START (R136): Command starting stopped sequences at the first round start at least 2 ticks after MEAS receives it. -/
  | seqStart (p : Packet)
  /-- SEQ_STOP (R136): Command stopping running sequences at the end of the current round. -/
  | seqStop (p : Packet)
  /-- SEQ_TRIGGER (R144): Command triggering triggered sequences at the boundary at which MEAS consumes its token. -/
  | seqTrigger (p : Packet)
  /-- QUEUE_BIND (R161): Command writing and committing one stream's fields, after the mask and buffer-range overlap checks. -/
  | queueBind (p : Packet)
  /-- SLICE_RETIRE (R117): Command retiring a slice at a round start under a repacked map. -/
  | sliceRetire (p : Packet)
  /-- SLICE_RESTORE (R118): Command starting the qualification of a retired slice. -/
  | sliceRestore (p : Packet)
  /-- LIN_LOAD (R170): Command writing one channel's shadow table, from a full table or from a ROM set. -/
  | linLoad (p : Packet)
  /-- LIN_SWAP (R171): Command scheduling the exchange of active and shadow tables for a channel mask at tick X'. -/
  | linSwap (p : Packet)
  /-- LIN_READ (R180): Command returning a channel's latest linearised value, its status, its stamp and a table. -/
  | linRead (p : Packet)
  /-- VAR_READ (R180): Command returning the values, statuses and stamps of the selected derived variables. -/
  | varRead (p : Packet)
  /-- LOOP_SET_FIXED (R196): Command setting a fixed loop current held in AON, optionally with the user trim bypassed. -/
  | loopSetFixed (p : Packet)
  /-- LOOP_RELEASE (R196): Command ending the fixed current so that the source below takes over through the limiter. -/
  | loopRelease (p : Packet)
  /-- LOOP_TRIM (R203): Command accepting a measured 4 mA or 20 mA trim point, or resetting the trim, and saving it. -/
  | loopTrim (p : Packet)
  /-- LOOP_STATUS (R207): Command returning the loop state word, the four codes, the damped PV and the trims. -/
  | loopStatus (p : Packet)
  /-- FAB_ASSIGN (R251): Command giving the device with the named UID a new fabric address at the next idle line. -/
  | fabAssign (p : Packet)
  /-- FAB_BEARING_WRITE (R253): Command writing bearing table entries, which take effect at the next idle line. -/
  | fabBearingWrite (p : Packet)
  /-- FAB_BEARING_READ (R253): Command returning the 64 bearing entries. -/
  | fabBearingRead (p : Packet)
  /-- FAB_SESSIONS (R249): Command returning the partner session table. -/
  | fabSessions (p : Packet)
  /-- FAB_NOISE_FLOOR (R230): Command returning a port's group noise powers and the age of the last update. -/
  | fabNoiseFloor (p : Packet)
  /-- FAB_TIME_READ (R257): FAB_TIME operation 0, returning the fabric time state, error, count and event. -/
  | fabTimeRead (p : Packet)
  /-- FAB_TIME_SET_EVENT (R260): FAB_TIME operation 1, setting or replacing the fabric time event. -/
  | fabTimeSetEvent (p : Packet)
  /-- FAB_TIME_CLEAR_EVENT (R260): FAB_TIME operation 2, clearing the fabric time event. -/
  | fabTimeClearEvent (p : Packet)
  /-- FAB_TIME_SET_COUNT (R16): FAB_TIME operation 3, an explicit time set at a tick boundary, refused while LOCKED. -/
  | fabTimeSetCount (p : Packet)
  /-- FAB_PUBLISH_SLOTS (R242): Command writing and committing PUB_DEST and the four publish slots after checking them. -/
  | fabPublishSlots (p : Packet)
  /-- FSK_PASS (R238): Command queuing octets for FSK transmission once carrier detect is off. -/
  | fskPass (p : Packet)
  /-- FLT_READ_LOG (R337): Command returning entries from the AON fault log or from the NVM snapshot. -/
  | fltReadLog (p : Packet)
  /-- FLT_ACK (R337): Command acknowledging every open fault of a detector and withdrawing its alarms. -/
  | fltAck (p : Packet)
  /-- FLT_INJECT (R332): Command arming an injectable detector for a count of accesses. -/
  | fltInject (p : Packet)
  /-- FLT_CLEAR (R337): Command removing entries that are not open, clearing FATAL_SEEN, and optionally invalidating the snapshot. -/
  | fltClear (p : Packet)
  /-- SEC_ATTEST (R348): Command capturing the attestation record at the next boundary and signing it with the identity key. -/
  | secAttest (p : Packet)
  /-- SEC_CERT_READ (R347): Command returning the device certificate, read by continuation. -/
  | secCertRead (p : Packet)
  /-- UPD_BEGIN (R353): Signed command opening an update session and setting the inactive slot to WRITING. -/
  | updBegin (p : Packet)
  /-- UPD_CHUNK (R354): Command writing image bytes into the session slot and each page to NVM once the page is complete. -/
  | updChunk (p : Packet)
  /-- UPD_VERIFY (R355): Command checking an image's header, anti-rollback version, body digest and signatures, and marking it verified. -/
  | updVerify (p : Packet)
  /-- UPD_ACTIVATE (R356): Signed command scheduling the activation of a verified slot at tick X'. -/
  | updActivate (p : Packet)
  /-- SEC_GRANT (R306): Signed command writing, replacing or removing grant table entries and saving the table. -/
  | secGrant (p : Packet)
  /-- UPD_VERSION_INFO (R352): Command returning the slot and version information of every island. -/
  | updVersionInfo (p : Packet)
  /-- OBS_COUNTERS (R379): Command returning a range of observation counters captured at one boundary. -/
  | obsCounters (p : Packet)
  /-- OBS_TRACE_SELECT (R377): Command writing the trace class mask, effective at the boundary at which AON consumes it. -/
  | obsTraceSelect (p : Packet)
  /-- OBS_ENERGY (R56): Command returning the energy status, voltages, currents, costs and reservations. -/
  | obsEnergy (p : Packet)
  /-- REG_READ (R44): M16 command reading M16 bus registers 0x00-0x3F. -/
  | regRead (p : Packet)
  /-- REG_WRITE (R313): M16 command writing bus registers, committing their almanac fields as R311 gives. -/
  | regWrite (p : Packet)
  /-- START_CONV (R313): M16 command carried out as SEQ_START. -/
  | startConv (p : Packet)
  /-- STOP_CONV (R313): M16 command carried out as SEQ_STOP. -/
  | stopConv (p : Packet)
  /-- TRIG_CONV (R313): M16 command carried out as SEQ_TRIGGER. -/
  | trigConv (p : Packet)
  /-- READ_CHANNEL (R313): M16 command carried out as LIN_READ. -/
  | readChannel (p : Packet)
  /-- READ_PV (R313): M16 command carried out as VAR_READ. -/
  | readPv (p : Packet)
  /-- LOOP_FIX (R313): M16 command carried out as LOOP_SET_FIXED. -/
  | loopFix (p : Packet)
  /-- LOOP_FREE (R313): M16 command carried out as LOOP_RELEASE. -/
  | loopFree (p : Packet)
  /-- LOOP_TRIM_ZERO (R313): M16 command carried out as the LOOP_TRIM 4 mA point. -/
  | loopTrimZero (p : Packet)
  /-- LOOP_TRIM_SPAN (R313): M16 command carried out as the LOOP_TRIM 20 mA point. -/
  | loopTrimSpan (p : Packet)
  /-- CAL_WRITE (R363): M16 command replacing the slices' factory calibration constants in NVM. -/
  | calWrite (p : Packet)
  /-- CAL_READ (R313): M16 command reading the calibration constants. -/
  | calRead (p : Packet)
  /-- SAVE_CONFIG (R313): M16 command carried out as ALM_SAVE. -/
  | saveConfig (p : Packet)
  /-- IDENTIFY (R313): M16 command carried out as DEV_IDENTIFY. -/
  | identify (p : Packet)
  /-- STATUS (R313): M16 command carried out as DEV_STATUS. -/
  | status (p : Packet)
  /-- COMMAND_FRAGMENT (R302): A packet with MORE set that starts or extends a parameter assembly. -/
  | commandFragment (op : BitVec 16) (p : Packet)
  /-- CONTINUATION_READ (R303): A packet with CONT set that returns kept results from an offset. -/
  | continuationRead (op : BitVec 16) (p : Packet)
  /-- ASSEMBLY_DISCARD (R302): An assembly is discarded after 5,000,000 ticks without a fragment. -/
  | assemblyDiscard (src : Byte)
  /-- OUTSTANDING_COMPLETION (R299): An outstanding command completes when the island event it waits for is reported, and its reply is posted. -/
  | outstandingCompletion (op : BitVec 16)
  /-- SPI_WRITE (R265): Committed SPI write to window or register bytes that have no row of their own, carried out whole or not at all. -/
  | spiWrite (bytes : List Byte) (whole : Bool)
  /-- BUFFER_CLAIM (R274): Host ownership-word write moving a FREE buffer to HOST if the generation matches. -/
  | bufferClaim (n : Fin 64) (ask : OwnAsk)
  /-- BUFFER_RELEASE (R274): Host ownership-word write moving a HOST buffer to FREE if the generation matches. -/
  | bufferRelease (n : Fin 64) (ask : OwnAsk)
  /-- MB0_POST (R282): Committed 8-byte write of MB0_NOTICE that stamps the notice, moves the buffer to DEVICE and posts it to MGMT. -/
  | mb0Post (notice : Word64)
  /-- MB1_ACK_ACCEPTED (R284): Host write of MB1_ACK with ACCEPTED, keeping the buffer HOST-owned. -/
  | mb1AckAccepted
  /-- MB1_ACK_BAD_NOTICE (R284): Host write of MB1_ACK with BAD_NOTICE, returning the buffer to DEVICE. -/
  | mb1AckBadNotice
  /-- MB0_ACK_READ (R281): Host read of MB0_ACK whose DONE bit clears on commit. -/
  | mb0AckRead (commit : Bool)
  /-- DOORBELL_CLEAR (R285): Host write of ones to HOST_DB clearing doorbell bits and possibly releasing HIRQ_N. -/
  | doorbellClear (ones : Word32)
  /-- LOCK_ACQUIRE (R292): Read of a lock register that acquires a free lock or returns its owner. -/
  | lockAcquire (n : Fin 8) (ask : LockAsk) (commit : Bool)
  /-- LOCK_RELEASE (R292): Write of 0x00 by the owner releasing a lock. -/
  | lockRelease (n : Fin 8) (who : Party) (value : Word32)
  /-- QUEUE_READ (R273): Direct read of result-queue entries, removed only when the read is committed. -/
  | queueRead (addr : BitVec 16) (len : Nat) (commit : Bool)
  /-- MB0_NOTICE_CONSUME (R299): MGMT takes a notice from MB0 into its command queue. -/
  | mb0NoticeConsume
  /-- MB_ACKNOWLEDGE (R281): A receiver's acknowledge takes effect for the sender at the next boundary and rings the acknowledge doorbell. -/
  | mbAcknowledge (mb : Fin 8)
  /-- MB_TIMEOUT (R286): A held MB0 notice not taken within 1,000 ticks is withdrawn and the buffer returned to HOST. -/
  | mbTimeout (mb : Fin 8)
  /-- CROSS (R290): Both mailboxes of a pair stay pending for more than 500 ticks, raising the CROSS fault. -/
  | cross (pair : Fin 4)
  /-- AON_POWER_UP (R63): LOOP_IN passes 4.5 V and the regulator, AON, the buck converter and the crystal start. -/
  | aonPowerUp (testEn : Bool)
  /-- CRYSTAL_START (R63): The first Meridian boundary after the crystal has started: the counter starts at zero. -/
  | crystalStart
  /-- AON_POWER_ON_RESET (R65): LOOP_IN falls below 4.2 V and every island stops. -/
  | aonPowerOnReset
  /-- BOOT_VERIFY (R63): The boot ROM completes the MGMT image verification, FAULT_N is released and start-up continues. -/
  | bootVerify (activeOk : Bool) (otherOk : Bool)
  /-- RST_N_ASSERT (R64): RST_N is accepted low: islands are reset, the output returns to start-up, and locks and ownership words are cleared. -/
  | rstNAssert
  /-- RST_N_RELEASE (R64): RST_N is accepted high: TEST_EN is sampled and start-up resumes. -/
  | rstNRelease (testEn : Bool)
  /-- TICK_BOUNDARY (R14): The Meridian increments and the per-tick comparators, slew limiter and shaper are evaluated. -/
  | tickBoundary (i : TickIn)
  /-- SUPPLY_READING (R47): The 64-tick measurement of LOOP_IN, AUX_IN and VRES. -/
  | supplyReading (r : SupplyRead)
  /-- EVALUATION_BOUNDARY (R55): Every 512 ticks, the averages are updated and season, auxiliary-supply and release decisions are made. -/
  | evaluationBoundary (e : EvalIn)
  /-- BOOST_REQUEST (R394): In AUTUMN, MGMT requests a 500-tick clock boost that is admitted as a heavy task. -/
  | boostRequest
  /-- LOOP_LOW_STOP (R65): LOOP_IN below 8.5 V and VRES below 9.0 V at 8 consecutive boundaries stops MEAS. -/
  | loopLowStop
  /-- BUCK_UNDERVOLTAGE_STOP (R65): Buck input below 7.0 V at 2 consecutive boundaries stops LOOP and MGMT logic. -/
  | buckUndervoltageStop
  /-- BROWNOUT_RECOVERY (R65): LOOP_IN average recovers at an evaluation boundary and the stopped islands are released. -/
  | brownoutRecovery
  /-- VIO_SHORT (R385): VIO reads below 2.5 V at 8 consecutive readings, raising SUP_VIO. -/
  | vioShort
  /-- COMPLIANCE_ENTER (R205): Headroom below 0.4 V at 4 boundaries enters COMPLY and reports LOOP_COMPLIANCE. -/
  | complianceEnter
  /-- COMPLIANCE_CLEAR (R205): Headroom of at least 0.5 V at 64 consecutive boundaries returns to IN_REG. -/
  | complianceClear
  /-- MISWIRE_FOLD (R206): Condition C at 391 consecutive readings enters FOLDED and reports MISWIRE. -/
  | miswireFold
  /-- MISWIRE_RETRY (R206): After 2 s in FOLDED, foldback ends and the state becomes RETRY. -/
  | miswireRetry
  /-- MISWIRE_CLEAR (R206): Condition C fails at 391 consecutive readings in RETRY, giving NORMAL. -/
  | miswireClear
  /-- CLOCK_LOSS (R367): No reference edge for 1 µs switches to the internal oscillator and raises CLK_REF. -/
  | clockLoss
  /-- CLOCK_RESTORE (R367): After 4.096 ms of good crystal, the reference switches back to the crystal. -/
  | clockRestore
  /-- BLANK_FREEZE (R88): BLANK is accepted high and the round freezes under DEFER. -/
  | blankFreeze
  /-- BLANK_RESUME (R89): BLANK is accepted low and the resume preamble runs. -/
  | blankResume
  /-- BLANK_STUCK (R92): BLANK stays high for BLANK_CAP ticks: blanking ends and the fault is raised. -/
  | blankStuck
  /-- GPIO_TRIGGER (R144): A qualified rising edge on a GPIO pin triggers a triggered sequence. -/
  | gpioTrigger (pin : Fin 3)
  /-- TRIGGER_WINDOW_START (R145): The commit tick of a selected run window arrives and the window runs. -/
  | triggerWindowStart (q : Fin 4)
  /-- TRIGGER_WINDOW_END (R146): A running window ends, and any held trigger selects the next window. -/
  | triggerWindowEnd (q : Fin 4)
  /-- ROUND_START (R131): A schedule round starts; round-start apply points, sequence starts and stops, and map changes take effect. -/
  | roundStart
  /-- ROUND_ALIGNMENT (R261): At the alignment tick, the round is shortened, lengthened or held to match fabric time. -/
  | roundAlignment
  /-- SLOT_CONVERSION (R97): A slice switches over, wakes, acquires and converts one slot. -/
  | slotConversion (sl : Fin 4) (c : Conv)
  /-- RAW_SAMPLE_CORRECTION (R102): The next tick, the conversion is checked, corrected and clamped and enters the filter path. -/
  | rawSampleCorrection
  /-- LINEARISATION (R174): Results committed in the previous tick are linearised. -/
  | linearisation
  /-- CALIBRATION_CONVERSION (R104): A calibration position fires and converts P, N, U or D. -/
  | calibrationConversion (sl : Fin 4) (c : Conv)
  /-- BREAK_CHECK (R85): A sensor-break check slot fires and its conversion is compared with the last raw sample. -/
  | breakCheck (sl : Fin 4) (c : Conv)
  /-- SLICE_CHECK_FAIL (R112): A slice fails its self-check, the fault is raised and the slice is fenced. -/
  | sliceCheckFail (sl : Fin 4)
  /-- FALLBACK_MAP_SWITCH (R114): MEAS switches to the failed slice's fallback map at a round start. -/
  | fallbackMapSwitch
  /-- FAILURE_MAP_COMPILE (R116): After a second slice failure, MGMT compiles and posts a map for the remaining slices. -/
  | failureMapCompile
  /-- QUALIFICATION_END (R118): The restore qualification completes, passing or failing the slice. -/
  | qualificationEnd (given : QualIn)
  /-- SEXTANT_COMPARISON (R124): A Sextant channel window ends and is compared, not compared, or failed. -/
  | sextantComparison (i : SxIn) (overload : Bool)
  /-- SEXTANT_REFERENCE_WINDOW (R127): A REF_MAIN or REF_CAL window ends and is compared with its factory code. -/
  | sextantReferenceWindow (sx20 : BitVec 20)
  /-- LIN_SWAP_EFFECT (R171): At X', the active and shadow tables of the mask are exchanged. -/
  | linSwapEffect
  /-- TAP_DRAIN (R369): Entries committed in a tick reach MGMT and are filed into streams. -/
  | tapDrain
  /-- STREAM_FLUSH (R163): QS_FLUSH ticks after its first entry, a partly filled buffer is handed over. -/
  | streamFlush (st : Fin 4)
  /-- LOOP_UPDATE (R187): LOOP consumes a feed, checks it, classifies PV, damps, maps, selects the source and loads the code. -/
  | loopUpdate (parityOk : Bool)
  /-- HOLD_UPDATE (R199): Every 500 ticks during a hold, a code-preserving update serves as a loop apply point. -/
  | holdUpdate
  /-- INTERRUPTION (R197): No loop update by tick D, so AON declares an interruption. -/
  | interruption
  /-- HOLD_LIMIT_EXPIRY (R198): The hold count reaches HOLD_LIMIT and the software alarm comes into force. -/
  | holdLimitExpiry
  /-- FEED_REPLAY (R201): At LOOP release, the recorded feeds are processed in order, 3 ticks each. -/
  | feedReplay
  /-- ENERGY_BLOCK (R224): A 32-tick detector block closes and is judged as qualifying or not. -/
  | energyBlock (pt : Port) (ys : List Int)
  /-- SYNC (R225): A confirmed correlation peak declares sync. The operand is the band-passed samples from the window's first
  position on, the look-back included. -/
  | sync (pt : Port) (ys : List Int)
  /-- QUALIFIER_WINDOW_END (R225): A window ends without sync and counts ENERGY_NOQUAL. -/
  | qualifierWindowEnd (pt : Port)
  /-- MODE_DECISION (R216): After TRN1, the mode is decided and the channel taps are estimated. -/
  | modeDecision (pt : Port) (y0 : List Cplx) (y1 : List Cplx)
  /-- SYMBOL_DEMOD (R217): A complete symbol is demodulated into LLRs, with phase tracking. -/
  | symbolDemod (pt : Port) (y : List Cplx)
  /-- HEADER_VERDICT (R226): The header is decoded and judged correct or a false sync. -/
  | headerVerdict (pt : Port)
  /-- CODEWORD_DECODE (R222): An LDPC codeword is decoded in 448 ticks. -/
  | codewordDecode
  /-- MUTE_END (R226): 64 ticks after the port's last transmit sample, the receiver returns to IDLE. -/
  | muteEnd (pt : Port)
  /-- NOISE_FLOOR_UPDATE (R230): After 64 idle symbols, the group noise powers are updated. -/
  | noiseFloorUpdate (pt : Port) (powers : List (List Nat))
  /-- PACKET_TRANSMIT_START (R231): A port starts a packet, with the loop-port amplitude fixed, or refuses it for low current. -/
  | packetTransmitStart (pt : Port)
  /-- IDLE_LINE_APPLY (R234): Pending modem, fabric or bearing fields take effect at the first idle-line boundary. -/
  | idleLineApply
  /-- FSK_CARRIER_ON (R236): FSK carrier detect turns on after 4 bit times above the threshold. -/
  | fskCarrierOn
  /-- FSK_CARRIER_OFF (R237): Carrier detect turns off and the FSK buffer is handed to the host. -/
  | fskCarrierOff
  /-- FSK_OCTET_RECEIVE (R237): An FSK octet is received and stored, or dropped. -/
  | fskOctetReceive (o : FskOctet)
  /-- FSK_TRANSMIT_START (R238): Once carrier detect is off, the device sends the FSK_PASS octets. -/
  | fskTransmitStart
  /-- FSK_PASS_TIMEOUT (R238): Carrier detect stays on for 1 s and FSK_PASS completes as busy. -/
  | fskPassTimeout
  /-- CMD_FRAME (R244): A consumed CMD frame is copied into a fabric buffer and posted on MB2. -/
  | cmdFrame (pt : Port) (f : Frame)
  /-- POLL_FRAME (R245): A consumed POLL frame schedules a reply with the session's current reply. -/
  | pollFrame (pt : Port) (f : Frame)
  /-- SWEEP_FRAME (R250): A consumed SWEEP whose prefix matches draws a random reply slot. -/
  | sweepFrame (pt : Port) (f : Frame) (a8 : Nat)
  /-- BEACON_ACCEPT (R257): An accepted beacon slews, sets or locks fabric time. -/
  | beaconAccept (pt : Port) (f : Frame) (a8 : Nat)
  /-- BEACON_TIMEOUT (R257): FAB_BCN_TIMEOUT ticks pass without a beacon and the state becomes UNLOCKED. -/
  | beaconTimeout
  /-- BEACON_RELAY (R258): A routing device starts a relayed beacon at its fixed latency, or drops it. -/
  | beaconRelay
  /-- TIME_EVENT_FIRE (R260): The fabric time event fires and triggers the sequences with SQ_TRIG = 1. -/
  | timeEventFire
  /-- DEVICE_FRAME_RECEIVE (R252): A device frame is received and checked for a duplicate address. -/
  | deviceFrameReceive (pt : Port) (f : Frame)
  /-- FRAME_FORWARD (R254): A routing device queues, keeps or drops a received frame by its bearings. -/
  | frameForward (pt : Port) (f : Frame)
  /-- FORWARD_TRANSMIT (R243): A queued forwarded frame starts once the exit port is idle. -/
  | forwardTransmit (pt : Port)
  /-- REPLY_TURNAROUND (R245): At D + 1,000 ticks, the REPLY starts with the result or ST_PENDING. -/
  | replyTurnaround (ses : Fin 16)
  /-- SWEEP_REPLY_SLOT (R250): The SWEEP_REPLY starts in its drawn slot. -/
  | sweepReplySlot
  /-- PUBLISH_SLOT (R246): A due publish slot transmits the earliest waiting stream buffer, or skips. -/
  | publishSlot (n : Fin 4)
  /-- SESSION_CLOSE (R248): A session idle for 10 s closes and discards its current reply. -/
  | sessionClose (ses : Fin 16)
  /-- FAULT_REPORT (R315): AON consumes detector reports and classifies, logs, escalates and reacts. -/
  | faultReport (accs : List Access)
  /-- WATCHDOG_EXPIRY (R320): An island heartbeat is missing for its watchdog count and a report is raised. -/
  | watchdogExpiry (isl : Island)
  /-- CLOCK_OUT_OF_LOCK (R320): An island clock is out of lock or range for 2 ticks. -/
  | clockOutOfLock (isl : Island)
  /-- TEMP_HIGH (R320): The junction reads above 110 °C at 8 consecutive readings. -/
  | tempHigh
  /-- SUP_RAIL (R320): An internal rail is out of limits at 2 consecutive readings. -/
  | supRail (rail : Rail)
  /-- GRACE_EXPIRY (R318): A CONT fault's grace window ends unacknowledged and its reaction is carried out. -/
  | graceExpiry
  /-- AUTO_ACK (R317): The firmware acknowledges a CORR or CONT fault and orders its reaction. -/
  | autoAck (det : BitVec 6)
  /-- FAULT_N_RELEASE (R325): FAULT_N is released at a boundary once no fault is open and the 500-tick minimum has passed. -/
  | faultNRelease
  /-- SNAPSHOT_WRITE (R338): AON writes a FATAL fault record to the NVM snapshot. -/
  | snapshotWrite
  /-- INJECTION_ARM (R332): AON arms a detector for injection at the boundary at which it consumes the request. -/
  | injectionArm
  /-- SHADOW_END (R331): A reaction shadow ends and persisting conditions report again. -/
  | shadowEnd (isl : Island) (holding : List Access)
  /-- ISLAND_RESET_RELEASE (R339): A restarting island's reset is released and its image is loaded and checked. -/
  | islandResetRelease (isl : Island) (digestOk : Bool)
  /-- ISLAND_UP (R339): A restarted island sets its UP bit and resumes service. -/
  | islandUp (isl : Island)
  /-- ACTIVATION (R357): At X', AON makes the READY slot active in TRIAL and resets the island. -/
  | activation (isl : Island)
  /-- TRIAL_COMMIT (R359): 1 s after UP without a reset, the trial slot commits and the anti-rollback fuses are blown. -/
  | trialCommit (isl : Island)
  /-- TRIAL_REVERT (R360): A fault reset or a missed UP during TRIAL restarts from the other slot and marks the trial FAILED. -/
  | trialRevert (isl : Island)
  /-- UPD_SESSION_TIMEOUT (R353): An update session closes after 10 s without a command from its owner. -/
  | updSessionTimeout
  /-- TRACE_SYNC (R375): The trace formatter emits a SYNC message every 512 ticks, after a slew or time set, and on resumption. -/
  | traceSync
  /-- PACKET_TRANSMIT_END (R245): A port sends the last sample of a packet: LOOP sets a transmitted REPLY or PUBLISH buffer FREE, the port
  stops transmitting and the MUTED and deferred-reply timings start. -/
  | packetTransmitEnd (pt : Port)
  /-- ISLAND_REQUEST_TIMEOUT (R300): An island that has not acknowledged a command's request within 5,000 ticks ends the command with ST_TIMEOUT. -/
  | islandRequestTimeout (op : BitVec 16)
  /-- OEM_DIGEST_FUSE (R346): Through the authenticated factory test interface, the device fuses the OEM key digest if every active image
  carries a valid OEM signature, or refuses. -/
  | oemDigestFuse (digest : List Byte) (auth : Bool)
  deriving DecidableEq, Repr

end Sys2Proof
end

