-- ==== Sys2Proof/Decode.lean ====
section
/-! DEFINITION. The step that a word spells. No row of spec/opcode_table.json gives bits, so no word spells a step: packets,
frames and SPI transactions are read by the meanings themselves (Machine/Interp.lean, Machine/Fabric.lean, Machine/Spi.lean). -/

namespace Sys2Proof

/-- No row of the table gives bits. -/
def decodeTableWord (_nbits _w : Nat) : Option Instr := none

end Sys2Proof
end

