-- ==== Sys2Proof/Config.lean ====
section
/-! DEFINITION. What an implementation or a die fixes and the spec does not state: constants without a body, so that no proof
can see their value. Each has a row in notes/assumptions. -/

namespace Sys2Proof.Config

open Sys2Proof

/-- A fresh free value of `w` bits: the `n`-th that the machine draws (State.free is the count). -/
opaque freeBits : (w : Nat) → Nat → BitVec w

/-- The factory UID of the die (11 Table 11-7). -/
opaque uid : BitVec 64

/-- Silicon revision of the die (11 Table 11-7). -/
opaque siRev : Byte

/-- Boot ROM revision (11 Table 11-7). -/
opaque romRev : Byte

/-- The 32-byte identity seed that the die drew at factory test (14 R347). -/
opaque identitySeed : List Byte

/-- The seed of the vendor root key pair (14 R345), and the fresh bytes with which it signed the die's certificate (14 R347). -/
opaque vendorSeed : List Byte
opaque certRandom : List Byte

/-- CT_DATE and CT_SERIAL of the die's certificate (14 Table 14-2). -/
opaque certDate : Nat
opaque certSerial : Nat

/-- What the programming station wrote into the identity partition's OEM data (14 Table 14-3). -/
opaque oemData : List Byte

/-- The OEM public key by which the factory images carry a signature, if they carry one, and whether its digest is fused at delivery (14
R345, R346). -/
opaque oemKey : Option (List Byte)
opaque oemFused : Bool

/-- The ROM coefficient sets (07 R169): LT_EXP and the 24 coefficients of a set. -/
opaque romSet : Nat → Int × List Int

/-- How far the value of a ROM set's polynomial lies from the temperature that the set's standard gives for an input u and a
cold-junction term t, both Q0.31, in degC, where no bound of 07 Table 7-2 holds it. -/
opaque romDeviation : Nat → Int → Int → ℚ

/-- The factory calibration block as stored at test (05 R102, 14 R349). -/
opaque factoryCal : List Byte

/-- fgain and foff of a slice at a gain, as a calibration block in the factory format holds them (05 R102, 12 Table 12-21). -/
opaque calGain : List Byte → Nat → Nat → Int
opaque calOff : List Byte → Nat → Nat → Int

/-- Factory starting values of the background coefficients of a slice: off_acc, gain_acc, skew_acc (05 R107). -/
opaque factoryCoef : Nat → Int × Int × Int

/-- The stored code C_CAL of +V_CAL (05 R103). -/
opaque cCal : Int

/-- m_gain of 05 R105 for a p and an n whose quotient is not stated: p = n, or a quotient that no int32 holds. -/
opaque mGainOpen : Int → Int → Int

/-- The int64 that 07 R183 goes on from when its sum is one that no int64 holds. -/
opaque varOpen : Int → BitVec 64

/-- sx20 of 05 R121 for integrals whose quotient is not stated: I_ref not above 0, or a quotient that no 20-bit code holds. -/
opaque sxOpen : Int → Int → BitVec 20

/-- The factory-recorded Sextant code of a reference window: 0 REF_MAIN, 1 REF_CAL (05 R127). -/
opaque sxRecorded : Nat → Int

/-- The DAC factory trim (08 Trims): the code that the DAC converts for a user-trimmed code. -/
opaque factoryTrim : Int → Int

/-- The M16 byte layouts (00 R3, 02 R44, 12 R313): the native parameters of an M16 command, whether a parameter length is its own, its
result bytes for a native status and native result, the almanac fields that a register write names and the bytes that it puts into which
of the 64 registers, the levels that it gives to the output bits of GPO0 and GPO1, and the calibration block that CAL_WRITE leaves of an
old one. -/
opaque m16Params : Nat → List Byte → List Byte
opaque m16Length : Nat → Nat → Bool
opaque m16Results : Nat → Nat → List Byte → List Byte
opaque m16Fields : List Byte → List (Nat × Int)
opaque m16RegBytes : List Byte → List (Nat × Byte)
opaque m16Gpo : Nat → List Byte → Option Bool
opaque m16CalBlock : List Byte → List Byte → List Byte

/-- The pages that an M16 command writes to NVM, for its declared cost (12 R313). -/
opaque m16Pages : Nat → List Byte → Nat

/-- The prototype filter of the fixed polyphase interpolator of ratio 125/32 (09 R211), by its place in 1/125 of a receive
sample. -/
opaque interp : Int → Int

/-- Where the die's FSK injection lies within its 5 % (09 R236); only its remainder modulo 501 counts. -/
opaque fskTrim : Nat

/-- The magnitude of a soft value of 09 R217 where the packet's factor is not stated: taps or group powers that give no finite
one. -/
opaque llrOpen : Int → Nat

/-- The estimate of 09 R217's common phase ramp from the 64 products of a symbol's transform outputs with the conjugates of what the taps
and the hard decisions give: the phase at sub-carrier 0 and the slope for one sub-carrier, in 1/65,536 turn. -/
opaque rampOf : List Cplx → Int × Int

/-- The header bits that the decoder of 09 R219 finds when the hard decisions are no codeword, from the 128 soft values. -/
opaque headerDecode : List Int → BitVec 64

/-- The factory firmware images at test: digest, IH_VERSION, IH_ARITH by island code (14 R352). -/
opaque factoryImage : Nat → List Byte × Nat × Nat

/-- The anti-rollback value of an island at delivery (14 R345). -/
opaque factoryFuses : Nat → Nat

/-- The stored forms of the user trim record and of the retired-slice record (14 R349). -/
opaque trimStored : Int → Int → List Byte
opaque retiredStored : Nat → List Byte

end Sys2Proof.Config
end

