-- ==== Sys2Proof/Machine/Bits.lean ====
section
/-! DEFINITION. Bytes, byte order, integer rounding and saturation, checks (CRC-8, CRC-16, CRC-32) and SHA3-256. -/

namespace Sys2Proof.Machine

/-- Little-endian bytes of a number (00 R7): `n` bytes, least significant first. -/
def leBytes : Nat → Nat → List Byte
  | 0, _ => []
  | n + 1, v => BitVec.ofNat 8 v :: leBytes n (v / 256)

/-- The number that little-endian bytes hold (00 R7). -/
def leVal : List Byte → Nat
  | [] => 0
  | b :: bs => b.toNat + 256 * leVal bs

/-- The number held by `n` bytes of a block from an offset; bytes beyond its end count as zero. -/
def leAt (bs : List Byte) (off n : Nat) : Nat := leVal ((bs.drop off).take n)

/-- One byte of a block; zero beyond its end. -/
def byteAt (bs : List Byte) (off : Nat) : Byte := (bs.drop off).headD 0

/-- `n` zero bytes (00 R8). -/
def zeros (n : Nat) : List Byte := List.replicate n 0

/-- A list of bytes cut or filled with zeros to `n` bytes. -/
def padTo (n : Nat) (bs : List Byte) : List Byte := bs.take n ++ zeros (n - bs.length)

/-- Whether every byte is zero (00 R8). -/
def allZero (bs : List Byte) : Bool := bs.all (· == 0)

/-- Bits of a bit string, least significant first, as a number. -/
def bitsVal : List Bool → Nat
  | [] => 0
  | b :: bs => b.toNat + 2 * bitsVal bs

/-- The `n` low bits of a number, least significant first. -/
def natBits : Nat → Nat → List Bool
  | 0, _ => []
  | n + 1, v => (v % 2 == 1) :: natBits n (v / 2)

/-- The bits of bytes, each least significant bit first. -/
def byteBits (bs : List Byte) : List Bool := bs.flatMap fun b => natBits 8 b.toNat

/-- The two's-complement reading of the low `w` bits of a number (00 Notation). -/
def signed (w : Nat) (v : Nat) : Int :=
  let m := v % 2 ^ w
  if m < 2 ^ (w - 1) then (m : Int) else (m : Int) - (2 ^ w : Nat)

/-- The low `w` bits of an integer as a number. -/
def unsignedOf (w : Nat) (v : Int) : Nat := (v % ((2 ^ w : Nat) : Int)).toNat

/-- An integer wrapped to 64 bits, two's complement (06 R150). -/
def wrap64 (v : Int) : Int := signed 64 (unsignedOf 64 v)

/-- Arithmetic shift right, toward minus infinity (00 R8, Notation). -/
def asr (a : Int) (n : Nat) : Int := a / ((2 ^ n : Nat) : Int)

/-- Shift left. -/
def asl (a : Int) (n : Nat) : Int := a * ((2 ^ n : Nat) : Int)

/-- floor_div of 05 R109, for a positive divisor. -/
def floorDiv (a : Int) (b : Nat) : Int := a / (b : Int)

/-- ceil_div of 03 R49. -/
def ceilDiv (a b : Nat) : Nat := (a + b - 1) / b

/-- Clamp to a closed range. -/
def clampI (lo hi v : Int) : Int := if v < lo then lo else if hi < v then hi else v

/-- Clamp to the range of a `w`-bit signed integer, and whether the clamp acted (07 R166). -/
def satS (w : Nat) (v : Int) : Int × Bool :=
  let hi : Int := ((2 ^ (w - 1) : Nat) : Int) - 1
  let lo : Int := - ((2 ^ (w - 1) : Nat) : Int)
  if v < lo then (lo, true) else if hi < v then (hi, true) else (v, false)

/-- Whether a value fits `w` signed bits. -/
def fitsS (w : Nat) (v : Int) : Bool := !(satS w v).2

/-- Integer square root by bits, `fuel` bits of result (07 R183: the largest r with r*r <= n). -/
def isqrtAux : Nat → Nat → Nat → Nat
  | 0, r, _ => r
  | k + 1, r, n =>
    let r' := r + 2 ^ k
    isqrtAux k (if r' * r' ≤ n then r' else r) n

/-- The largest r of at most 32 bits with r*r at most n (07 R183). -/
def isqrt (n : Nat) : Nat := isqrtAux 32 0 n

/-- One step of a CRC that takes bits most significant first. -/
def crcBitMsb (w poly : Nat) (c : Nat) (b : Bool) : Nat :=
  let top := c / 2 ^ (w - 1) % 2
  let c' := (c * 2) % 2 ^ w
  if (top == 1) != b then Nat.xor c' poly else c'

/-- A CRC over bytes, each most significant bit first, no reflection. -/
def crcMsb (w poly init : Nat) (bs : List Byte) : Nat :=
  bs.foldl (fun c b => (natBits 8 b.toNat).reverse.foldl (crcBitMsb w poly) c) init

/-- CRC-8 of the SPI port (11 R264). -/
def crc8 (bs : List Byte) : Byte := BitVec.ofNat 8 (crcMsb 8 0x2F 0xFF bs)

/-- CRC-16 of the frame header (09 R218). -/
def crc16 (bs : List Byte) : BitVec 16 := BitVec.ofNat 16 (crcMsb 16 0x1021 0xFFFF bs)

/-- One step of the reflected CRC-32. -/
def crc32Bit (c : Nat) (b : Bool) : Nat :=
  if (c % 2 == 1) != b then Nat.xor (c / 2) 0xEDB88320 else c / 2

/-- CRC-32 of IEEE 802.3 (07 Table 7-1, 09 R221, 13 R338). -/
def crc32 (bs : List Byte) : Nat :=
  Nat.xor (bs.foldl (fun c b => (natBits 8 b.toNat).foldl crc32Bit c) 0xFFFFFFFF) 0xFFFFFFFF

/-- The feedback register of the round constants of FIPS 202 (14 R344): its byte after one more step, x^8 + x^6 + x^5 + x^4 + 1. -/
def sha3Feedback (r : BitVec 8) : BitVec 8 := (r <<< 1) ^^^ (if r.msb then 0x71#8 else 0#8)

/-- A round constant from the register at the round's start, and the register after it: step `j` of seven gives bit 2^j - 1. -/
def sha3Constant (r : BitVec 8) : BitVec 64 × BitVec 8 :=
  (List.range 7).foldl (fun acc j =>
    (if acc.2.getLsbD 0 then acc.1 ^^^ BitVec.twoPow 64 (2 ^ j - 1) else acc.1, sha3Feedback acc.2)) (0#64, r)

/-- Where the lane at place `i` (column i mod 5, sheet row i / 5) goes: column y, row 2x + 3y (14 R344: FIPS 202, pi). -/
def sha3Move (i : Nat) : Nat := i / 5 + 5 * ((2 * (i % 5) + 3 * (i / 5)) % 5)

/-- Rho and pi together: from place `i` on, the `t`-th lane of the walk over the 24 lanes off the origin turns by t(t + 1)/2 and
goes where pi sends it, which is the next place of the walk. -/
def sha3Walk (src : List (BitVec 64)) : Nat → Nat → Nat → List (BitVec 64) → List (BitVec 64)
  | 0, _, _, out => out
  | n + 1, t, i, out =>
    let k := sha3Move i
    sha3Walk src n (t + 1) k (out.set k ((src.getD i 0).rotateLeft (t * (t + 1) / 2 % 64)))

/-- The five lanes of row `y`, each with the chi of its two neighbours to the right. -/
def sha3Chi (row : List (BitVec 64)) : List (BitVec 64) :=
  match row with
  | [p, q, r, s, t] => [p ^^^ (~~~q &&& r), q ^^^ (~~~r &&& s), r ^^^ (~~~s &&& t), s ^^^ (~~~t &&& p), t ^^^ (~~~p &&& q)]
  | _ => row

/-- The parity of each column of a state of five rows. -/
def sha3Parity (a : List (BitVec 64)) : List (BitVec 64) :=
  (List.range 5).map fun x => (List.range 5).foldl (fun p y => p ^^^ a.getD (x + 5 * y) 0) 0

/-- One round: theta, rho with pi, chi row by row, and the round constant on the origin. -/
def sha3Round (acc : List (BitVec 64) × BitVec 8) : List (BitVec 64) × BitVec 8 :=
  let (rc, r) := sha3Constant acc.2
  let par := sha3Parity acc.1
  let mixed := acc.1.zipIdx.map fun (v, i) => v ^^^ par.getD ((i + 4) % 5) 0 ^^^ (par.getD ((i % 5 + 1) % 5) 0).rotateLeft 1
  let moved := sha3Walk mixed 24 1 1 mixed
  let rows := (List.range 5).flatMap fun y => sha3Chi ((moved.drop (5 * y)).take 5)
  (rows.modify 0 (· ^^^ rc), r)

/-- The permutation: 24 rounds, the register starting at 1. -/
def sha3Permute (a : List (BitVec 64)) : List (BitVec 64) := (Nat.repeat sha3Round 24 (a, 1#8)).1

/-- Take in `n` blocks of `rate` bytes: each block's words go onto the first lanes, and the state is permuted. -/
def spongeAbsorb (rate : Nat) : Nat → List (BitVec 64) → List Byte → List (BitVec 64)
  | 0, a, _ => a
  | n + 1, a, bs =>
    spongeAbsorb rate n
      (sha3Permute (a.zipIdx.map fun (v, i) => if i < rate / 8 then v ^^^ BitVec.ofNat 64 (leAt bs (8 * i) 8) else v)) (bs.drop rate)

/-- Give out `n` blocks of `rate` bytes. -/
def spongeSqueeze (rate : Nat) : Nat → List (BitVec 64) → List Byte
  | 0, _ => []
  | n + 1, a => (a.take (rate / 8)).flatMap (fun l => leBytes 8 l.toNat) ++ spongeSqueeze rate n (sha3Permute a)

/-- `len` bytes of the sponge of FIPS 202 over a byte string: floor(S / rate) + 1 blocks, the padding from the byte `first` to 0x80. -/
def sponge (rate first : Nat) (bs : List Byte) (len : Nat) : List Byte :=
  let n := bs.length / rate + 1
  let padLen := rate * n - bs.length
  let pad : List Byte := if padLen = 1 then [BitVec.ofNat 8 (first + 0x80)] else BitVec.ofNat 8 first :: zeros (padLen - 2) ++ [0x80]
  (spongeSqueeze rate (ceilDiv len rate) (spongeAbsorb rate n (List.replicate 25 0) (bs ++ pad))).take len

/-- SHA3-256 of a byte string (14 R344, FIPS 202): floor(S / 136) + 1 blocks (14 R364). -/
def sha3 (bs : List Byte) : List Byte := sponge 136 0x06 bs 32

/-- The first `len` bytes of SHAKE128 and of SHAKE256 over a byte string (14 R344: FIPS 202, FIPS 204). -/
def shake128 (bs : List Byte) (len : Nat) : List Byte := sponge 168 0x1F bs len
def shake256 (bs : List Byte) (len : Nat) : List Byte := sponge 136 0x1F bs len

/-- The IEEE 754 single nearest to v x 2^-16, ties to even, as its 32 bits (07 R185). -/
def toFloat32 (v : Int) : Nat :=
  if v = 0 then 0 else
    let sgn := if v < 0 then 0x80000000 else 0
    let m := v.natAbs
    let e := Nat.log2 m
    -- value = m * 2^-16, with 2^e <= m < 2^(e+1)
    let sig :=
      if e ≤ 23 then m * 2 ^ (23 - e)
      else
        let sh := e - 23
        let q := m / 2 ^ sh
        let r := m % 2 ^ sh
        let half := 2 ^ (sh - 1)
        if half < r ∨ (r = half ∧ q % 2 = 1) then q + 1 else q
    let (sig, e) := if sig = 2 ^ 24 then (2 ^ 23, e + 1) else (sig, e)
    sgn + (e + 127 - 16) * 2 ^ 23 + (sig - 2 ^ 23)

end Sys2Proof.Machine
end

