-- ==== Sys2Proof/Machine/Fields.lean ====
section
/-! DEFINITION. The almanac: field identifiers (12 R307, Table 12-8), ranges, defaults and apply attributes of every field
(02 Table 2-9, 03 Table 3-4, 04 Table 4-2, 05 Tables 5-4 and 5-8, 06 Tables 6-1, 6-2, 6-5, 6-10, 07 Tables 7-5 and 7-7,
08 Table 8-2, 09 Table 9-11, 10 Tables 10-3 and 10-7, 13 Table 13-3), and an almanac copy as its fields that differ from
their defaults. -/

namespace Sys2Proof.Machine

/-- The apply attributes of 00 R2. -/
inductive Apply where
  | live | pending | stop
  deriving DecidableEq, Repr

/-- The apply points of 01 R23: a schedule round, for a measurement field or for a stream field that MGMT holds itself, a loop
update, an idle line; `none` for a field that MGMT or AON applies at once. -/
inductive Kind where
  | none | meas | stream | loop | line
  deriving DecidableEq, Repr

/-- One row of a field table. `lo`, `hi` bound the range; `ok` is the rest of it (reserved codes). -/
structure FieldRow where
  width : Nat
  neg : Bool
  lo : Int
  hi : Int
  dflt : Int
  apply : Apply
  kind : Kind
  deriving DecidableEq, Repr

/-- An unsigned field. -/
def uField (width lo hi dflt : Nat) (apply : Apply) (kind : Kind) : FieldRow :=
  ⟨width, false, lo, hi, dflt, apply, kind⟩

/-- A signed field. -/
def sField (width : Nat) (lo hi dflt : Int) (apply : Apply) (kind : Kind) : FieldRow :=
  ⟨width, true, lo, hi, dflt, apply, kind⟩

/-- The identifier of a field: block, instance, field number (12 R307). -/
def fid (block inst fld : Nat) : Nat := block * 2048 + inst * 64 + fld

/-- Block 0x00, the rows of 03 Table 3-4. -/
def energyRows : List FieldRow :=
  [uField 1 0 1 0 .stop .meas, uField 10 0 1000 1000 .pending .meas, uField 8 47 220 100 .pending .meas,
   uField 2 0 3 3 .live .none]

/-- Block 0x01: BLANK_EN, BLANK_POLICY, BLANK_CAP, SX_ON, SX_REF_THR, SX_Q, ROUND_LEN, PRIMARY, QUEUE_MODE, Q_IRQ_LVL. -/
def frontRows : List FieldRow :=
  [uField 1 0 1 1 .pending .meas, uField 1 0 1 0 .pending .meas, uField 14 1 10000 1000 .pending .meas,
   uField 1 0 1 0 .pending .meas, uField 10 10 1000 300 .pending .meas, uField 1 0 1 0 .pending .meas,
   uField 14 64 8192 5000 .stop .meas, uField 2 0 3 0 .stop .meas, uField 1 0 1 0 .stop .meas,
   uField 9 1 511 64 .live .none]

/-- Block 0x02, fields 0 to 28 of channel n (12 Table 12-8). -/
def channelRows (n : Nat) : List FieldRow :=
  [uField 1 0 1 0 .pending .meas, uField 5 0 0x1B n .pending .meas, uField 5 0 0x15 0x15 .pending .meas,
   uField 1 0 1 0 .pending .meas, uField 3 0 7 0 .pending .meas, uField 6 0 32 4 .pending .meas,
   uField 1 0 1 0 .pending .meas, uField 2 0 3 0 .pending .meas, uField 3 0 7 7 .pending .meas,
   uField 3 0 7 7 .pending .meas, uField 3 0 7 7 .pending .meas, uField 8 1 255 50 .pending .meas,
   uField 8 1 255 11 .pending .meas, uField 8 0 255 0 .pending .meas, uField 8 1 255 64 .pending .meas,
   uField 8 1 255 32 .pending .meas, sField 16 (-32768) 32767 (-32768) .live .none,
   sField 16 (-32768) 32767 32767 .live .none,
   uField 1 0 1 0 .pending .meas, uField 1 0 1 0 .pending .meas, uField 14 10 10000 500 .pending .meas,
   uField 13 125 8000 500 .pending .meas, uField 13 8 4096 64 .pending .meas, uField 1 0 1 0 .pending .meas,
   uField 2 0 3 0 .pending .meas, uField 1 0 1 1 .pending .meas, uField 1 0 1 0 .pending .meas,
   uField 3 0 7 0 .pending .meas, uField 3 0 7 7 .pending .meas]

/-- Block 0x03, SQ_LEN, SQ_KIND, SQ_REP, SQ_PRIO, SQ_TRIG, SQ_AUTO (06 Table 6-2). -/
def sequenceRows : List FieldRow :=
  [uField 7 0 64 0 .pending .meas, uField 1 0 1 0 .stop .meas, uField 7 1 64 1 .pending .meas,
   uField 2 0 3 0 .pending .meas, uField 3 0 4 0 .pending .meas, uField 1 0 1 1 .pending .meas]

/-- Block 0x05, the rows of 06 Table 6-10. -/
def streamRows : List FieldRow :=
  [uField 20 0 0xFFFFF 0 .pending .stream, uField 1 0 1 0 .pending .stream, uField 6 0 63 0 .pending .stream,
   uField 5 0 16 0 .pending .stream, uField 20 1 1000000 50000 .pending .stream]

/-- Block 0x06, the fields of variable v (07 Table 7-7). -/
def variableRows (v : Nat) : List FieldRow :=
  [uField 1 (if v = 0 then 1 else 0) 1 (if v = 0 then 1 else 0) .pending .meas, uField 2 0 3 0 .pending .meas,
   uField 5 0 31 0 .pending .meas, uField 5 0 31 31 .pending .meas,
   uField 5 0 31 31 .pending .meas, uField 5 0 31 31 .pending .meas,
   sField 32 (-2147483648) 2147483647 0x00800000 .pending .meas,
   sField 32 (-2147483648) 2147483647 0x00800000 .pending .meas,
   sField 32 (-2147483648) 2147483647 0x00800000 .pending .meas,
   sField 32 (-2147483648) 2147483647 0x00800000 .pending .meas,
   sField 32 (-2147483648) 2147483647 0 .pending .meas, uField 20 0 0xFFFFF 0 .pending .meas,
   uField 5 1 20 1 .pending .meas, uField 1 0 1 0 .pending .meas, uField 31 0 2147483647 0 .pending .meas]

/-- Block 0x07, the rows of 08 Table 8-2. -/
def loopRows : List FieldRow :=
  [uField 1 0 1 0 .pending .loop, sField 32 (-2147483648) 2147483647 0 .pending .loop,
   sField 32 (-2147483648) 2147483647 0x00640000 .pending .loop, uField 24 0 16000000 0 .pending .loop,
   uField 18 34001 40000 38000 .pending .loop, uField 18 200000 229999 205000 .pending .loop,
   uField 18 34000 39999 35500 .pending .loop, uField 18 200001 230000 225000 .pending .loop,
   uField 1 0 1 0 .pending .loop, uField 2 0 2 0 .pending .loop, uField 1 0 1 0 .pending .loop,
   uField 23 3000 5000000 500000 .pending .loop, uField 10 1 1000 20 .pending .loop, uField 1 0 1 1 .pending .loop]

/-- Block 0x08, the rows of 09 Table 9-11. -/
def modemRows : List FieldRow :=
  [uField 1 0 1 1 .pending .line, uField 1 0 1 0 .pending .line, uField 2 0 2 1 .pending .line,
   uField 4 1 8 4 .pending .line, uField 2 0 3 2 .pending .line, uField 5 3 20 9 .pending .line,
   uField 7 25 95 60 .pending .line, uField 1 0 1 1 .pending .line, sField 16 (-400) 0 (-160) .pending .line,
   uField 1 0 1 0 .pending .line, uField 6 0 63 62 .pending .line, uField 3 2 4 2 .pending .line]

/-- Block 0x09: FAB_ADDR, FAB_ROUTE_EN, FAB_TIME_ROOT, FAB_BCN_TIMEOUT, FAB_BUF_FIRST, FAB_BUF_COUNT, PUB_DEST, FAB_ALIGN,
FAB_ALIGN_PHASE (10 Table 10-3). -/
def fabricRows : List FieldRow :=
  [uField 12 0 0xFFE 0 .pending .line, uField 1 0 1 0 .pending .line, uField 6 0 63 0 .pending .line,
   uField 23 500000 5000000 2500000 .pending .line, uField 6 0 63 48 .pending .line, uField 5 4 16 8 .pending .line,
   uField 12 0 0xFFF 0 .pending .line, uField 1 0 1 0 .pending .meas, uField 13 0 8191 0 .pending .meas]

/-- Block 0x0A: PUB_PERIODn, PUB_PHASEn, PUB_MODEn (10 Table 10-3). -/
def publishRows : List FieldRow :=
  [uField 24 0 16000000 0 .pending .line, uField 24 0 16777215 0 .pending .line, uField 2 0 2 1 .pending .line]

/-- One detector of 13 Table 13-2: default class, allowed classes, default FR_REACT, injectable. -/
structure DetRow where
  cls : Nat
  clsLo : Nat
  clsHi : Nat
  react : Nat
  inj : Bool
  deriving DecidableEq, Repr

/-- The detectors of 13 Table 13-2; `none` for a reserved ID (13 R320). -/
def detRow (d : Nat) : Option DetRow :=
  if d = 0x00 ∨ d = 0x02 ∨ d = 0x04 ∨ d = 0x06 then some ⟨0, 0, 1, 0x01, true⟩
  else if d = 0x01 ∨ d = 0x03 ∨ d = 0x05 ∨ d = 0x07 then some ⟨1, 1, 2, 0x01, true⟩
  else if d = 0x08 then some ⟨0, 0, 1, 0x00, true⟩
  else if d = 0x09 then some ⟨1, 1, 2, 0x00, true⟩
  else if 0x0A ≤ d ∧ d ≤ 0x0D then some ⟨1, 1, 2, 0x01, true⟩
  else if d = 0x0E then some ⟨2, 2, 2, 0x21, true⟩
  else if d = 0x10 then some ⟨1, 0, 2, 0x00, false⟩
  else if 0x11 ≤ d ∧ d ≤ 0x13 then some ⟨1, 1, 2, 0x01, false⟩
  else if d = 0x14 then some ⟨1, 1, 2, 0x00, false⟩
  else if d = 0x15 then some ⟨1, 1, 1, 0x20, false⟩
  else if d = 0x16 then some ⟨1, 0, 1, 0x00, false⟩
  else if d = 0x17 then some ⟨1, 1, 2, 0x01, false⟩
  else if 0x18 ≤ d ∧ d ≤ 0x1B then some ⟨1, 1, 2, 0x01, false⟩
  else if d = 0x1C then some ⟨1, 0, 1, 0x00, false⟩
  else if d = 0x1D then some ⟨2, 1, 2, 0x20, false⟩
  else if d = 0x1E then some ⟨1, 0, 2, 0x01, false⟩
  else if d = 0x1F then some ⟨0, 0, 1, 0x00, false⟩
  else if d = 0x20 then some ⟨1, 1, 2, 0x00, false⟩
  else if d = 0x21 then some ⟨1, 0, 2, 0x00, false⟩
  else if d = 0x22 then some ⟨1, 0, 1, 0x00, false⟩
  else if d = 0x23 then some ⟨0, 0, 1, 0x00, false⟩
  else if d = 0x24 then some ⟨1, 0, 1, 0x00, false⟩
  else none

/-- Block 0x0C (13 R321, Table 13-3): instance 0 FR_CLASS, 1 FR_REACT, 2 FR_ACK of detector n; instance 3 field 0 FLT_GRACE. -/
def faultRow (inst fld : Nat) : Option FieldRow :=
  if inst = 3 then
    if fld = 0 then some (uField 10 50 750 500 .live .none) else none
  else match detRow fld with
    | none => none
    | some d =>
      if inst = 0 then some (uField 2 d.clsLo d.clsHi d.cls .live .none)
      else if inst = 1 then some (uField 6 0 63 d.react .live .none)
      else if inst = 2 then some (uField 1 0 1 0 .live .none)
      else none

/-- The field that an identifier names, `none` when it is unassigned (12 R307). -/
def fieldRow (id : Nat) : Option FieldRow :=
  let block := id / 2048
  let inst := id / 64 % 32
  let fld := id % 64
  if 65536 ≤ id then none
  else if block = 0x00 then (if inst = 0 then energyRows[fld]? else none)
  else if block = 0x01 then (if inst = 0 then frontRows[fld]? else none)
  else if block = 0x02 then (if inst < 20 then (channelRows inst)[fld]? else none)
  else if block = 0x03 then (if inst < 4 then sequenceRows[fld]? else none)
  else if block = 0x04 then (if inst < 4 then some (uField 5 0 19 0 .pending .meas) else none)
  else if block = 0x05 then (if inst < 4 then streamRows[fld]? else none)
  else if block = 0x06 then (if inst < 8 then (variableRows inst)[fld]? else none)
  else if block = 0x07 then (if inst = 0 then loopRows[fld]? else none)
  else if block = 0x08 then (if inst = 0 then modemRows[fld]? else none)
  else if block = 0x09 then (if inst = 0 then fabricRows[fld]? else none)
  else if block = 0x0A then (if inst < 4 then publishRows[fld]? else none)
  else if block = 0x0B then (if inst = 0 then some (uField 8 0 2 0 .pending .line) else none)
  else if block = 0x0C then faultRow inst fld
  else if block = 0x0D then (if inst = 0 ∧ fld < 6 then some (uField 1 0 1 0 .live .none) else none)
  else none

/-- Codes inside a field's numeric bounds that are reserved all the same: POS 0x16 and 0x17, EXC_* 4 to 6, VAR_CHk 20 to 30,
QS_BUF_COUNT 1, FAB_ADDR node 63, PUB_PERIODn 1 to 3,374 (04 Table 4-1, Table 4-2; 06 Table 6-10; 07 Table 7-7;
10 Table 10-3). -/
def reservedCode (id : Nat) (v : Int) : Bool :=
  let block := id / 2048
  let fld := id % 64
  (block == 0x02 && fld == 1 && (v == 0x16 || v == 0x17)) ||
  (block == 0x02 && (fld == 8 || fld == 9 || fld == 10) && (4 ≤ v && v ≤ 6)) ||
  (block == 0x06 && (2 ≤ fld && fld ≤ 5) && (20 ≤ v && v ≤ 30)) ||
  (block == 0x05 && fld == 3 && v == 1) ||
  (block == 0x09 && fld == 0 && v % 64 == 63) ||
  (block == 0x0A && fld == 0 && (1 ≤ v && v ≤ 3374))

/-- A value as it travels: 4 bytes, sign- or zero-extended (12 R307). -/
def fieldBytes (v : Int) : List Byte := leBytes 4 (unsignedOf 32 v)

/-- The value of 4 travelling bytes for a field; `none` when the unused bits are not the extension, or the value is out of
range or reserved (04 R68, 12 R307). -/
def fieldOfWire (id : Nat) (w : Nat) : Option Int :=
  match fieldRow id with
  | none => none
  | some r =>
    let v : Int := if r.neg then signed 32 w else (w : Int)
    if r.lo ≤ v ∧ v ≤ r.hi ∧ !reservedCode id v then some v else none

/-- One almanac copy: the fields that differ from their defaults, identifiers strictly rising. -/
structure Alm where
  vals : List (Nat × Int)
  deriving DecidableEq, Repr

/-- Every field at its default. -/
def Alm.default : Alm := ⟨[]⟩

/-- The default of a field; 0 for an unassigned identifier. -/
def fieldDefault (id : Nat) : Int := match fieldRow id with
  | some r => r.dflt
  | none => 0

/-- The value that an association list holds for a key. -/
def assocGet : List (Nat × Int) → Nat → Option Int
  | [], _ => none
  | (k, v) :: l, id => if k = id then some v else assocGet l id

/-- Insert into an association list sorted by key. -/
def assocPut : List (Nat × Int) → Nat → Int → List (Nat × Int)
  | [], id, v => [(id, v)]
  | (k, w) :: l, id, v =>
    if id < k then (id, v) :: (k, w) :: l
    else if id = k then (id, v) :: l
    else (k, w) :: assocPut l id v

/-- The value of a field. -/
def Alm.val (a : Alm) (id : Nat) : Int := (assocGet a.vals id).getD (fieldDefault id)

/-- Write one field; a default value is not listed. -/
def Alm.set (a : Alm) (id : Nat) (v : Int) : Alm :=
  if v = fieldDefault id then ⟨a.vals.filter fun e => e.1 ≠ id⟩ else ⟨assocPut a.vals id v⟩

/-- The canonical form of an almanac copy. -/
def Alm.wf (a : Alm) : Bool :=
  decide (a.vals.Pairwise fun x y => x.1 < y.1) && a.vals.all fun e => e.2 ≠ fieldDefault e.1

/-- An unsigned field's value. -/
def Alm.nat (a : Alm) (id : Nat) : Nat := (a.val id).toNat

/-- A one-bit field. -/
def Alm.bit (a : Alm) (id : Nat) : Bool := a.val id == 1

/-- The fields of one apply kind, those of `b`, in place of those of `a` (01 R23: the fields of one kind take effect
together). -/
def Alm.takeKind (a b : Alm) (k : Kind) : Alm :=
  let isK := fun e : Nat × Int => match fieldRow e.1 with
    | some r => r.kind == k
    | none => false
  ⟨(b.vals.filter isK).foldl (fun l e => assocPut l e.1 e.2) (a.vals.filter fun e => !isK e)⟩

/-- Whether two copies differ in a field of one kind. -/
def Alm.differKind (a b : Alm) (k : Kind) : Bool :=
  let isK := fun e : Nat × Int => match fieldRow e.1 with
    | some r => r.kind == k
    | none => false
  a.vals.filter isK != b.vals.filter isK

/-! Named fields (03 Table 3-4, 04 Table 4-2 and so on). -/

def Alm.supplyAux (a : Alm) : Bool := a.bit (fid 0 0 0)
def Alm.vioLoad (a : Alm) : Nat := a.nat (fid 0 0 1)
def Alm.resvCap (a : Alm) : Nat := a.nat (fid 0 0 2)
def Alm.mgmtFmax (a : Alm) : Nat := a.nat (fid 0 0 3)
def Alm.blankEn (a : Alm) : Bool := a.bit (fid 1 0 0)
def Alm.blankSkip (a : Alm) : Bool := a.bit (fid 1 0 1)
def Alm.blankCap (a : Alm) : Nat := a.nat (fid 1 0 2)
def Alm.sxOn (a : Alm) : Bool := a.bit (fid 1 0 3)
def Alm.sxRefThr (a : Alm) : Nat := a.nat (fid 1 0 4)
def Alm.sxQ (a : Alm) : Bool := a.bit (fid 1 0 5)
def Alm.roundLen (a : Alm) : Nat := a.nat (fid 1 0 6)
def Alm.primary (a : Alm) : Nat := a.nat (fid 1 0 7)
def Alm.queueStream (a : Alm) : Bool := a.bit (fid 1 0 8)
def Alm.qIrqLvl (a : Alm) : Nat := a.nat (fid 1 0 9)
def Alm.chEn (a : Alm) (c : Nat) : Bool := a.bit (fid 2 c 0)
def Alm.pos (a : Alm) (c : Nat) : Nat := a.nat (fid 2 c 1)
def Alm.neg (a : Alm) (c : Nat) : Nat := a.nat (fid 2 c 2)
def Alm.refSel (a : Alm) (c : Nat) : Bool := a.bit (fid 2 c 3)
def Alm.gain (a : Alm) (c : Nat) : Nat := a.nat (fid 2 c 4)
def Alm.disch (a : Alm) (c : Nat) : Nat := a.nat (fid 2 c 5)
def Alm.excVolt (a : Alm) (c : Nat) : Bool := a.bit (fid 2 c 6)
def Alm.excMode (a : Alm) (c : Nat) : Nat := a.nat (fid 2 c 7)
def Alm.excA (a : Alm) (c : Nat) : Nat := a.nat (fid 2 c 8)
def Alm.excB (a : Alm) (c : Nat) : Nat := a.nat (fid 2 c 9)
def Alm.excR (a : Alm) (c : Nat) : Nat := a.nat (fid 2 c 10)
def Alm.excLevel (a : Alm) (c : Nat) : Nat := a.nat (fid 2 c 11)
def Alm.excLead (a : Alm) (c : Nat) : Nat := a.nat (fid 2 c 12)
def Alm.brkInt (a : Alm) (c : Nat) : Nat := a.nat (fid 2 c 13)
def Alm.brkDwell (a : Alm) (c : Nat) : Nat := a.nat (fid 2 c 14)
def Alm.brkThr (a : Alm) (c : Nat) : Nat := a.nat (fid 2 c 15)
def Alm.rngLo (a : Alm) (c : Nat) : Int := a.val (fid 2 c 16)
def Alm.rngHi (a : Alm) (c : Nat) : Int := a.val (fid 2 c 17)
def Alm.ilv (a : Alm) (c : Nat) : Bool := a.bit (fid 2 c 18)
def Alm.sxEn (a : Alm) (c : Nat) : Bool := a.bit (fid 2 c 19)
def Alm.sxThr (a : Alm) (c : Nat) : Nat := a.nat (fid 2 c 20)
def Alm.sxWin (a : Alm) (c : Nat) : Nat := a.nat (fid 2 c 21)
def Alm.fOsr (a : Alm) (c : Nat) : Nat := a.nat (fid 2 c 22)
def Alm.fFir (a : Alm) (c : Nat) : Bool := a.bit (fid 2 c 23)
def Alm.fNotch (a : Alm) (c : Nat) : Nat := a.nat (fid 2 c 24)
def Alm.qEn (a : Alm) (c : Nat) : Bool := a.bit (fid 2 c 25)
def Alm.arEn (a : Alm) (c : Nat) : Bool := a.bit (fid 2 c 26)
def Alm.arGmin (a : Alm) (c : Nat) : Nat := a.nat (fid 2 c 27)
def Alm.arGmax (a : Alm) (c : Nat) : Nat := a.nat (fid 2 c 28)
def Alm.sqLen (a : Alm) (q : Nat) : Nat := a.nat (fid 3 q 0)
def Alm.sqTriggered (a : Alm) (q : Nat) : Bool := a.bit (fid 3 q 1)
def Alm.sqRep (a : Alm) (q : Nat) : Nat := a.nat (fid 3 q 2)
def Alm.sqPrio (a : Alm) (q : Nat) : Nat := a.nat (fid 3 q 3)
def Alm.sqTrig (a : Alm) (q : Nat) : Nat := a.nat (fid 3 q 4)
def Alm.sqAuto (a : Alm) (q : Nat) : Bool := a.bit (fid 3 q 5)
def Alm.sqSlot (a : Alm) (q n : Nat) : Nat := a.nat (fid 4 q n)
def Alm.qsChmask (a : Alm) (s : Nat) : Nat := a.nat (fid 5 s 0)
def Alm.qsFabric (a : Alm) (s : Nat) : Bool := a.bit (fid 5 s 1)
def Alm.qsBufFirst (a : Alm) (s : Nat) : Nat := a.nat (fid 5 s 2)
def Alm.qsBufCount (a : Alm) (s : Nat) : Nat := a.nat (fid 5 s 3)
def Alm.qsFlush (a : Alm) (s : Nat) : Nat := a.nat (fid 5 s 4)
def Alm.varEn (a : Alm) (v : Nat) : Bool := a.bit (fid 6 v 0)
def Alm.varOp (a : Alm) (v : Nat) : Nat := a.nat (fid 6 v 1)
def Alm.varCh (a : Alm) (v k : Nat) : Nat := a.nat (fid 6 v (2 + k))
def Alm.varCoef (a : Alm) (v k : Nat) : Int := a.val (fid 6 v (6 + k))
def Alm.varOffset (a : Alm) (v : Nat) : Int := a.val (fid 6 v 10)
def Alm.varSet (a : Alm) (v : Nat) : Nat := a.nat (fid 6 v 11)
def Alm.varMinvalid (a : Alm) (v : Nat) : Nat := a.nat (fid 6 v 12)
def Alm.varSqrt (a : Alm) (v : Nat) : Bool := a.bit (fid 6 v 13)
def Alm.varCutoff (a : Alm) (v : Nat) : Int := a.val (fid 6 v 14)
def Alm.multidrop (a : Alm) : Bool := a.bit (fid 7 0 0)
def Alm.lrv (a : Alm) : Int := a.val (fid 7 0 1)
def Alm.urv (a : Alm) : Int := a.val (fid 7 0 2)
def Alm.dampTau (a : Alm) : Nat := a.nat (fid 7 0 3)
def Alm.satLo (a : Alm) : Int := a.val (fid 7 0 4)
def Alm.satHi (a : Alm) : Int := a.val (fid 7 0 5)
def Alm.almLo (a : Alm) : Int := a.val (fid 7 0 6)
def Alm.almHi (a : Alm) : Int := a.val (fid 7 0 7)
def Alm.almDirHigh (a : Alm) : Bool := a.bit (fid 7 0 8)
def Alm.pvFail (a : Alm) : Nat := a.nat (fid 7 0 9)
def Alm.holdTrack (a : Alm) : Bool := a.bit (fid 7 0 10)
def Alm.holdLimit (a : Alm) : Nat := a.nat (fid 7 0 11)
def Alm.slew (a : Alm) : Int := a.val (fid 7 0 12)
def Alm.mwEn (a : Alm) : Bool := a.bit (fid 7 0 13)
def Alm.mdmLoopEn (a : Alm) : Bool := a.bit (fid 8 0 0)
def Alm.mdmSpurEn (a : Alm) : Bool := a.bit (fid 8 0 1)
def Alm.mdmTxMode (a : Alm) : Nat := a.nat (fid 8 0 2)
def Alm.mdmTxLevel (a : Alm) : Nat := a.nat (fid 8 0 3)
def Alm.mdmSpurLevel (a : Alm) : Nat := a.nat (fid 8 0 4)
def Alm.mdmEnMargin (a : Alm) : Nat := a.nat (fid 8 0 5)
def Alm.mdmQThr (a : Alm) : Nat := a.nat (fid 8 0 6)
def Alm.mdmCapture (a : Alm) : Bool := a.bit (fid 8 0 7)
def Alm.mdmFloorInit (a : Alm) : Int := a.val (fid 8 0 8)
def Alm.fskEn (a : Alm) : Bool := a.bit (fid 8 0 9)
def Alm.fskBufFirst (a : Alm) : Nat := a.nat (fid 8 0 10)
def Alm.fskBufCount (a : Alm) : Nat := a.nat (fid 8 0 11)
def Alm.fabAddr (a : Alm) : Nat := a.nat (fid 9 0 0)
def Alm.fabRouteEn (a : Alm) : Bool := a.bit (fid 9 0 1)
def Alm.fabTimeRoot (a : Alm) : Nat := a.nat (fid 9 0 2)
def Alm.fabBcnTimeout (a : Alm) : Nat := a.nat (fid 9 0 3)
def Alm.fabBufFirst (a : Alm) : Nat := a.nat (fid 9 0 4)
def Alm.fabBufCount (a : Alm) : Nat := a.nat (fid 9 0 5)
def Alm.pubDest (a : Alm) : Nat := a.nat (fid 9 0 6)
def Alm.fabAlign (a : Alm) : Bool := a.bit (fid 9 0 7)
def Alm.fabAlignPhase (a : Alm) : Nat := a.nat (fid 9 0 8)
def Alm.pubPeriod (a : Alm) (n : Nat) : Nat := a.nat (fid 10 n 0)
def Alm.pubPhase (a : Alm) (n : Nat) : Nat := a.nat (fid 10 n 1)
def Alm.pubMode (a : Alm) (n : Nat) : Nat := a.nat (fid 10 n 2)
def Alm.bearing (a : Alm) (seg : Nat) : Nat := a.nat (fid 11 0 seg)
def Alm.frClass (a : Alm) (d : Nat) : Nat := a.nat (fid 12 0 d)
def Alm.frReact (a : Alm) (d : Nat) : Nat := a.nat (fid 12 1 d)
def Alm.frAckHost (a : Alm) (d : Nat) : Bool := a.bit (fid 12 2 d)
def Alm.fltGrace (a : Alm) : Nat := a.nat (fid 12 3 0)
def Alm.gpioDir (a : Alm) (n : Nat) : Bool := a.bit (fid 13 0 n)
def Alm.gpioOut (a : Alm) (n : Nat) : Bool := a.bit (fid 13 0 (3 + n))

/-- The PGA gain exponent in use without autoranging; an internal code converts at gain 1 (04 R66). -/
def Alm.fixedGain (a : Alm) (c : Nat) : Nat := if 0x18 ≤ a.pos c then 0 else a.gain c

/-- The excitation mode in use; an internal code has none (04 R66). -/
def Alm.excModeInUse (a : Alm) (c : Nat) : Nat := if 0x18 ≤ a.pos c then 0 else a.excMode c

/-- Whether the channel's excitation is gated, with or without reversal (04 R77). -/
def Alm.gated (a : Alm) (c : Nat) : Bool := 2 ≤ a.excModeInUse c

/-- Every assigned identifier in ascending order (14 R349). -/
def assignedIds : List Nat := (List.range 0x7000).filter fun id => (fieldRow id).isSome

/-- The buffers of a range in ring order (11 R395). -/
def bufRange (first count : Nat) : List Nat := (List.range count).map fun i => (first + i) % 64

/-- The buffers of stream `s` (06 R161). -/
def Alm.streamRange (a : Alm) (s : Nat) : List Nat := bufRange (a.qsBufFirst s) (a.qsBufCount s)

/-- Whether two buffer ranges share a buffer (11 R395). -/
def overlap (x y : List Nat) : Bool := x.any fun b => y.contains b

end Sys2Proof.Machine
end

