-- ==== Sys2Proof/Machine/Mldsa.lean ====
section
/-! DEFINITION. ML-DSA-44 (14 R344: FIPS 204, pure, with an empty context string): the key pair of a seed, hedged signing, and
verification. Polynomials are lists of 256 coefficients modulo q, and products are taken at the 256 odd powers of the root of unity. -/

namespace Sys2Proof.Machine.Mldsa

open Sys2Proof Sys2Proof.Machine

/-! ## Arithmetic modulo q -/

/-- The modulus. -/
def q : Nat := 8380417

/-- A polynomial of the ring, by its coefficients from X^0 on, or by its values at the 256 roots. -/
abbrev Poly := List Nat

/-- An integer modulo q. -/
def residue (v : Int) : Nat := (v % (q : Int)).toNat

/-- The representative of a residue in -m/2 < r <= m/2. -/
def centred (m v : Nat) : Int := if 2 * (v % m) ≤ m then ((v % m : Nat) : Int) else ((v % m : Nat) : Int) - m

/-- The largest magnitude of the centred coefficients. -/
def norm (p : Poly) : Nat := (p.map fun c => (centred q c).natAbs).foldl max 0

/-- Coefficient by coefficient: sum, difference, product. -/
def add (x y : Poly) : Poly := List.zipWith (fun u v => (u + v) % q) x y
def sub (x y : Poly) : Poly := List.zipWith (fun u v => (u + (q - v % q)) % q) x y
def mulAt (x y : Poly) : Poly := List.zipWith (fun u v => u * v % q) x y

/-- Powers of the 512-th root of unity 1753. -/
def root (e : Nat) : Nat := 1753 ^ (e % 512) % q

/-- The value of a polynomial at a point. -/
def eval (p : Poly) (x : Nat) : Nat := p.foldr (fun c acc => (c + x * acc) % q) 0

/-- A byte-sized number with its bits in reverse. -/
def rev8 (i : Nat) : Nat := bitsVal (natBits 8 i).reverse

/-- The values at the odd powers of the root, in the order of FIPS 204. -/
def ntt (p : Poly) : Poly := (List.range 256).map fun i => eval p (root (2 * rev8 i + 1))

/-- The polynomial with given values there; 8347681 is the inverse of 256. -/
def intt (v : Poly) : Poly :=
  let w := (List.range 256).map fun i => v.getD (rev8 i) 0
  (List.range 256).map fun j => 8347681 * (root (512 - j) * eval w (root (1024 - 2 * j)) % q) % q

/-- A row, or a matrix, of values times a vector of values. -/
def dot (r v : List Poly) : Poly := (List.zipWith mulAt r v).foldl add (List.replicate 256 0)
def apply (m : List (List Poly)) (v : List Poly) : List Poly := m.map fun r => dot r v

/-! ## Rounding -/

/-- Power2Round with d = 13: the high part and the low part. -/
def power2Round (r : Nat) : Nat × Int :=
  let r0 := centred 8192 r
  ((((r : Int) - r0) / 8192).toNat, r0)

/-- gamma1 and gamma2. -/
def gamma1 : Nat := 131072
def gamma2 : Nat := 95232

/-- Decompose with twice gamma2. -/
def decompose (r : Nat) : Nat × Int :=
  let r0 := centred (2 * gamma2) r
  if (r : Int) - r0 = q - 1 then (0, r0 - 1) else ((((r : Int) - r0) / (2 * gamma2 : Nat)).toNat, r0)

/-- UseHint. -/
def useHint (h : Bool) (r : Nat) : Nat :=
  let (r1, r0) := decompose r
  if !h then r1 else if 0 < r0 then (r1 + 1) % 44 else (r1 + 43) % 44

/-! ## Packing -/

/-- Bytes of bits, least significant first. -/
def bitsBytes (n : Nat) (bits : List Bool) : List Byte := (List.range n).map fun i => BitVec.ofNat 8 (bitsVal ((bits.drop (8 * i)).take 8))

/-- 256 coefficients of `w` bits each as bytes, and back. -/
def pack (w : Nat) (p : Poly) : List Byte := bitsBytes (32 * w) (p.flatMap (natBits w))
def unpack (w : Nat) (bs : List Byte) : Poly :=
  let bits := byteBits bs
  (List.range 256).map fun i => bitsVal ((bits.drop (w * i)).take w)

/-- Coefficients around zero, packed as their distance below `top`, and back. -/
def packSigned (w top : Nat) (p : Poly) : List Byte := pack w (p.map fun c => ((top : Int) - centred q c).toNat)
def unpackSigned (w top : Nat) (bs : List Byte) : Poly := (unpack w bs).map fun v => residue ((top : Int) - v)

/-- The parts of `n` bytes each of a byte string, `k` of them. -/
def parts (n k : Nat) (bs : List Byte) : List (List Byte) := (List.range k).map fun i => (bs.drop (n * i)).take n

/-! ## Sampling

DESIGN CHOICE (notes/assumptions/96): each rejection sampling reads a bounded part of its stream, which falls short with a negligible
probability; a coefficient that it does not give is 0. -/

/-- The first 256 values that a stream gives, by chunks of `n` bytes. -/
def sampled (n : Nat) (f : List Byte → List Nat) : Nat → List Byte → Poly → Poly
  | 0, _, acc => (acc ++ List.replicate 256 0).take 256
  | k + 1, bs, acc => sampled n f k (bs.drop n) (if acc.length < 256 then acc ++ f (bs.take n) else acc)

/-- An entry of the matrix: three bytes give a number of 23 bits, which counts when it lies below q. -/
def rejNtt (seed : List Byte) : Poly :=
  sampled 3 (fun b => if leAt b 0 3 % 8388608 < q then [leAt b 0 3 % 8388608] else []) 298 (shake128 seed 894) []

/-- The matrix: its entry of row r and column s. -/
def expandA (rho : List Byte) : List (List Poly) :=
  (List.range 4).map fun r => (List.range 4).map fun s => rejNtt (rho ++ leBytes 1 s ++ leBytes 1 r)

/-- A short polynomial: each half of a byte below 15 gives 2 less its remainder by 5. -/
def rejBounded (seed : List Byte) : Poly :=
  let one (v : Nat) : List Nat := if v < 15 then [residue (2 - ((v % 5 : Nat) : Int))] else []
  sampled 1 (fun b => one (leAt b 0 1 % 16) ++ one (leAt b 0 1 / 16)) 481 (shake256 seed 481) []

/-- The secret vectors, one after the other. -/
def expandS (rho : List Byte) : List Poly × List Poly :=
  let p (i : Nat) : Poly := rejBounded (rho ++ leBytes 2 i)
  ((List.range 4).map p, (List.range 4).map fun i => p (4 + i))

/-- The mask of an iteration. -/
def expandMask (rho : List Byte) (k : Nat) : List Poly :=
  (List.range 4).map fun i => unpackSigned 18 gamma1 (shake256 (rho ++ leBytes 2 (k + i)) 576)

/-- The places of a challenge, from the place `i` on: the next byte not above `i` names the place whose coefficient moves to `i`. -/
def ballPlaces (i : Nat) (signs : List Bool) : List Byte → Poly → Poly
  | [], c => c
  | b :: bs, c =>
    if 256 ≤ i then c
    else if b.toNat ≤ i then
      ballPlaces (i + 1) signs.tail bs ((c.set i (c.getD b.toNat 0)).set b.toNat (if signs.headD false then q - 1 else 1))
    else ballPlaces i signs bs c

/-- The challenge: 39 coefficients of magnitude 1. -/
def sampleInBall (seed : List Byte) : Poly :=
  let bs := shake256 seed 221
  ballPlaces 217 (byteBits (bs.take 8)) (bs.drop 8) (List.replicate 256 0)

/-! ## Keys -/

/-- What a seed gives: rho, the secret key K, and the secret vectors. -/
structure Secret where
  rho : List Byte
  key : List Byte
  s1 : List Poly
  s2 : List Poly
  deriving DecidableEq, Repr

/-- The expansion of a seed of 32 bytes. -/
def Secret.ofSeed (seed : List Byte) : Secret :=
  let x := shake256 (seed ++ [4, 4]) 128
  let (s1, s2) := expandS ((x.drop 32).take 64)
  ⟨x.take 32, x.drop 96, s1, s2⟩

/-- t = A s1 + s2 of a key pair. -/
def Secret.t (k : Secret) : List Poly := List.zipWith add ((apply (expandA k.rho) (k.s1.map ntt)).map intt) k.s2

/-- The public key of 1,312 bytes. -/
def Secret.publicKey (k : Secret) : List Byte := k.rho ++ k.t.flatMap fun p => pack 10 (p.map fun c => (power2Round c).1)

/-- The public key of a seed (14 R347). -/
def publicKey (seed : List Byte) : List Byte := (Secret.ofSeed seed).publicKey

/-! ## Signing -/

/-- The message with an empty context string. -/
def framed (msg : List Byte) : List Byte := [0, 0] ++ msg

/-- The 84 bytes of the hints: their places, polynomial by polynomial, and how many the polynomials hold so far. -/
def packHints (h : List (List Bool)) : List Byte :=
  let places := h.map fun p => (List.range 256).filter fun i => p.getD i false
  let ends := (List.range 4).map fun i => ((places.take (i + 1)).map List.length).sum
  padTo 80 (places.flatten.map (BitVec.ofNat 8)) ++ ends.map (BitVec.ofNat 8)

/-- One iteration of signing at the mask `y`: the signature, or none when it is rejected. -/
def Secret.attempt (k : Secret) (a : List (List Poly)) (mu : List Byte) (y : List Poly) : Option (List Byte) :=
  let w := (apply a (y.map ntt)).map intt
  let seed := shake256 (mu ++ w.flatMap fun p => pack 6 (p.map fun c => (decompose c).1)) 32
  let c := ntt (sampleInBall seed)
  let times (v : List Poly) : List Poly := v.map fun p => intt (mulAt c (ntt p))
  let z := List.zipWith add y (times k.s1)
  let r := List.zipWith sub w (times k.s2)
  let low := (r.flatten.map fun c => (decompose c).2.natAbs).foldl max 0
  let t0 := times (k.t.map fun p => p.map fun c => residue (power2Round c).2)
  let h := List.zipWith (fun u v => List.zipWith (fun x y => (decompose ((x + y) % q)).1 != (decompose x).1) u v) r t0
  let ones := (h.flatten.filter (·)).length
  if gamma1 - 78 ≤ (z.map norm).foldl max 0 || gamma2 - 78 ≤ low || gamma2 ≤ (t0.map norm).foldl max 0 || decide (80 < ones) then none
  else some (seed ++ z.flatMap (packSigned 18 gamma1) ++ packHints h)

/-- Iterations from the `n`-th on, at most `fuel` of them: the signature and how many iterations there were. -/
def Secret.iterate (k : Secret) (a : List (List Poly)) (mu rho : List Byte) : Nat → Nat → Option (List Byte) × Nat
  | 0, n => (none, n)
  | fuel + 1, n => match k.attempt a mu (expandMask rho (4 * n)) with
    | some sig => (some sig, n + 1)
    | none => Secret.iterate k a mu rho fuel (n + 1)

/-- Hedged signing of a message with the key pair of a seed and 32 fresh bytes: the signature of 2,420 bytes and the iterations, of
which the device makes at most 64 (14 R344, R350). -/
def sign (seed msg rnd : List Byte) : Option (List Byte) × Nat :=
  let k := Secret.ofSeed seed
  let mu := shake256 (shake256 k.publicKey 64 ++ framed msg) 64
  k.iterate (expandA k.rho) mu (shake256 (k.key ++ rnd ++ mu) 64) 64 0

/-! ## Verification -/

/-- The hints of a signature's 84 bytes; none where they are not in the one form that packing gives. -/
def unpackHints (bs : List Byte) : Option (List (List Bool)) :=
  let ends := (bs.drop 80).map BitVec.toNat
  let starts := 0 :: ends
  let places := bs.take 80
  let of (i : Nat) : List Nat := ((places.take (ends.getD i 0)).drop (starts.getD i 0)).map BitVec.toNat
  let ordered := (List.range 4).all fun i => decide (starts.getD i 0 ≤ ends.getD i 0 ∧ ends.getD i 0 ≤ 80)
  let rising (l : List Nat) : Bool := (List.zip l l.tail).all fun p => decide (p.1 < p.2)
  if ordered && (List.range 4).all (fun i => rising (of i)) && allZero (places.drop (ends.getD 3 0)) then
    some ((List.range 4).map fun i => (List.range 256).map fun j => (of i).contains j)
  else none

/-- Verification of a signature on a message by a public key (14 R344). -/
def verify (pk msg sig : List Byte) : Bool :=
  let rho := pk.take 32
  let t1 := (parts 320 4 (pk.drop 32)).map (unpack 10)
  let seed := sig.take 32
  let z := (parts 576 4 (sig.drop 32)).map (unpackSigned 18 gamma1)
  let mu := shake256 (shake256 pk 64 ++ framed msg) 64
  let c := ntt (sampleInBall seed)
  let az := apply (expandA rho) (z.map ntt)
  let ct := t1.map fun p => mulAt c (ntt (p.map fun v => v * 8192 % q))
  let w := (List.zipWith sub az ct).map intt
  match unpackHints (sig.drop 2336) with
  | none => false
  | some h =>
    let w1 := List.zipWith (fun u v => List.zipWith useHint u v) h w
    decide (pk.length = 1312 ∧ sig.length = 2420) && decide ((z.map norm).foldl max 0 < gamma1 - 78) &&
    seed == shake256 (mu ++ w1.flatMap (pack 6)) 32

end Sys2Proof.Machine.Mldsa
end

