-- ==== Sys2Proof/Machine/Blocks.lean ====
section
/-! DEFINITION. The parts of the state, one structure per block of the device, each with its value after an AON power-on
reset. A docstring names the rule of the spec that gives the machine the field. -/

namespace Sys2Proof.Machine

/-- One value per island (01 R9). -/
structure Quad (α : Type) where
  mgmt : α
  loop : α
  meas : α
  aon : α
  deriving DecidableEq, Repr

/-- The same value for every island. -/
def Quad.all {α : Type} (x : α) : Quad α := ⟨x, x, x, x⟩

/-- One island's value. -/
def Quad.at {α : Type} (q : Quad α) : Island → α
  | .mgmt => q.mgmt
  | .loop => q.loop
  | .meas => q.meas
  | .aon => q.aon

/-- Replace one island's value. -/
def Quad.put {α : Type} (q : Quad α) (i : Island) (x : α) : Quad α :=
  match i with
  | .mgmt => { q with mgmt := x }
  | .loop => { q with loop := x }
  | .meas => { q with meas := x }
  | .aon => { q with aon := x }

/-- One value per modem port (09 R209). -/
structure Pair (α : Type) where
  loop : α
  spur : α
  deriving DecidableEq, Repr

/-- One port's value. -/
def Pair.at {α : Type} (q : Pair α) : Port → α
  | .loop => q.loop
  | .spur => q.spur

/-- Replace one port's value. -/
def Pair.put {α : Type} (q : Pair α) (p : Port) (x : α) : Pair α :=
  match p with
  | .loop => { q with loop := x }
  | .spur => { q with spur := x }

/-! ## Time and pins -/

/-- The timebase (01 R14, R16; 15 R367). -/
structure Clock where
  /-- The AON domain is supplied (03 R63, R65). -/
  powered : Bool
  /-- The Meridian runs: the crystal has started (03 Table 3-10). -/
  running : Bool
  /-- The internal oscillator supplies the reference (15 R367). -/
  onInternal : Bool
  /-- The crystal was lost while running and has not returned: the condition of CLK_REF (01 R29, 13 Table 13-2). -/
  lost : Bool
  /-- The timing-independence guarantee holds (01 R29): false from a loss of the crystal to the first round started after
  its return. -/
  guarantee : Bool
  /-- The last boundary at which an activation broke 01 R26 and R27: they hold on each side of it (14 R361). -/
  broken : Option Nat
  /-- Tick boundaries since AON power-up (09 R224). -/
  tick : Nat
  /-- The Meridian count (01 R14), and the count of the tick before. -/
  meridian : Count48
  prev : Count48
  /-- A beacon slew that waits for the next boundary: +1 or -1 (01 R16). -/
  slew : Option Bool
  /-- An explicit time set that waits for the next boundary (01 R16). -/
  timeSet : Option Count48
  deriving DecidableEq, Repr

def Clock.reset : Clock := ⟨false, false, false, false, true, none, 0, 0, 0, none, none⟩

/-- A pin behind the two-reading filter of 02 R33: the last reading and the accepted level. -/
structure Filtered where
  last : Bool
  level : Bool
  deriving DecidableEq, Repr

/-- A trigger pin (06 R144): its accepted level, the last reading, the readings in a row, and whether a rising edge was
accepted at the last boundary. -/
structure TrigPin where
  level : Bool
  last : Bool
  edge : Bool
  deriving DecidableEq, Repr

/-- What an EXC pin delivers (04 R75, R76): a sourced or sunk current in units of 10 uA from one of the channel's two current
cells, the excitation voltage of a code 1 to 3, a closed return switch to AGND, or 2.500 V of the return driver. -/
inductive PinDrive where
  | off
  | source (tenUa cell : Nat)
  | sink (tenUa cell : Nat)
  | volt (code : Nat)
  | ground
  | drive25
  deriving DecidableEq, Repr

/-- Pins (02 Table 2-2). -/
structure Pins where
  blank : Filtered
  rstN : Filtered
  /-- RST_N is accepted low and the device is held by it (03 R64). -/
  inReset : Bool
  /-- TEST_EN as sampled at power-up or at the release of RST_N (02 R34). -/
  testMode : Bool
  /-- GPIO levels at the last boundary (02 R45, GPIO_IN). -/
  gpioIn : BitVec 3
  trig0 : TrigPin
  trig1 : TrigPin
  trig2 : TrigPin
  /-- Levels that GPIO outputs drive; `none` for an input (02 R45). -/
  gpioDrive : List (Option Bool)
  /-- FAULT_N is low (13 R325). -/
  faultLow : Bool
  /-- Active pins among EXC0 to EXC3 (04 R76, R77), and what each of the four delivers (04 R75, R76). -/
  exc : BitVec 4
  excDrive : Vector PinDrive 4
  /-- The pins of each firing break check in its dwell: 1 uA is sourced into the first and sunk from the second (04 R85). -/
  brk : List (Nat × Nat)
  /-- Islands that have started since power-up: until then their pins keep the states of 02 Table 2-2 (02 R31). -/
  started : Quad Bool
  /-- What TRC_D0 carries in this slot and whether TRC_D1 marks it (15 R372). -/
  trcWord : Word32
  trcMark : Bool
  deriving DecidableEq, Repr

def Pins.reset : Pins :=
  { blank := ⟨false, false⟩, rstN := ⟨true, true⟩, inReset := false, testMode := false, gpioIn := 0,
    trig0 := ⟨false, false, false⟩, trig1 := ⟨false, false, false⟩, trig2 := ⟨false, false, false⟩,
    gpioDrive := [none, none, none], faultLow := true, exc := 0, excDrive := Vector.replicate 4 .off, brk := []
    started := Quad.all false, trcWord := 0, trcMark := false }

/-! ## Energy -/

/-- The energy seasons, with the codes of 03 Table 3-8. -/
inductive Season where
  | summer | autumn | winter | spring
  deriving DecidableEq, Repr

/-- The buck converter's input (03 R47). -/
inductive BuckIn where
  | loopIn | resv | auxIn
  deriving DecidableEq, Repr

/-- The governor and its supply monitors (03). -/
structure Energy where
  season : Season
  /-- AUX of 03 R60. -/
  aux : Bool
  charging : Bool
  buck : BuckIn
  /-- A heavy task's, a boost's or an image re-hash's extra draw comes from RESV (03 R47, R54). -/
  extra : Bool
  /-- A heavy task's engines run in their low-power mode (03 R54). -/
  lowPower : Bool
  /-- VIO is on: it comes up with VMAIN and goes off with the supply (02 R32). -/
  vioOn : Bool
  /-- VIO's current limit is that of the lower row of 16 Table 16-3, 80 uA, and not 1.35 mA (16 R385). -/
  vioFold : Bool
  /-- MGMT clock: 0 = 8, 1 = 16, 2 = 32, 3 = 64 MHz (03 Table 3-8). -/
  freq : Nat
  /-- The ticks of the last reading and of the last evaluation boundary (03 R47). -/
  readAt : Option Nat
  evalAt : Option Nat
  /-- The last 8 readings in mV, newest first (03 R47). -/
  loopReads : List Nat
  auxReads : List Nat
  resReads : List Nat
  /-- The averages of the last evaluation boundary in mV (03 R47). -/
  loopAvg : Nat
  auxAvg : Nat
  resAvg : Nat
  /-- The comparators of 03 R48, as taken at the last boundary. -/
  below85 : Bool
  below86 : Bool
  buck70 : Bool
  vres90 : Bool
  vres110 : Bool
  /-- Boundaries in a row with LOOP_IN below 8.5 V and VRES below 9.0 V; 9 from the boundary after the eighth (03 Table 3-11). -/
  lowCount : Nat
  /-- Boundaries in a row with the buck input below 7.0 V; 3 from the boundary after the second (03 Table 3-11). -/
  buckCount : Nat
  /-- AUX changes at the next boundary (03 R60). -/
  auxNext : Option Bool
  /-- A season change by comparator waits for the next boundary (03 R55). -/
  toWinter : Bool
  /-- VIO supply readings in a row below 2.5 V, and whether they count yet (16 R385). -/
  vioCount : Nat
  vioArmed : Bool
  /-- Readings in a row with the junction above 110 C, and with a rail out of limits (13 Table 13-2). -/
  tempCount : Nat
  railCount : List Nat
  /-- The last evaluation interval: VIO current, own draw, the charger's input current and what the pass transistor carries in
  uA, charging power in uW (03 R46, R52, R53, R58). -/
  vioUa : Nat
  drawUa : Nat
  chargeUa : Nat
  passUa : Nat
  chargeUw : Nat
  /-- Declared costs of admitted commands still running, by opcode; of a boost by 0xFFFE; of the writes that commit an island's
  activation by 0x10000 plus its SRC_ID (03 R57). -/
  reserved : List (Nat × Nat)
  /-- The tick at which an admitted boost ends (03 R394). -/
  boostEnd : Option Nat
  /-- The tick at which the next boost request may be made (03 R394). -/
  boostNext : Nat
  /-- The energy register as last updated (03 R56). -/
  register : Word32
  /-- Sequences stopped for AUX_LOST, to restart when AUX returns (03 R62). -/
  auxStopped : BitVec 4
  /-- The stop of 03 R62 is in force. -/
  auxLost : Bool
  /-- Costs compiled for the committed almanac (03 R61, 12 Table 12-20). -/
  cost : Nat
  costLoop : Nat
  deriving DecidableEq, Repr

def Energy.reset : Energy :=
  { season := .winter, aux := false, charging := false, buck := .loopIn, extra := false,
    lowPower := false, vioOn := false, vioFold := true, freq := 0, readAt := none, evalAt := none,
    loopReads := [], auxReads := [], resReads := [], loopAvg := 0, auxAvg := 0, resAvg := 0,
    below85 := false, below86 := false, buck70 := false, vres90 := false, vres110 := false,
    lowCount := 0, buckCount := 0, auxNext := none, toWinter := false, vioCount := 0, vioArmed := false, tempCount := 0,
    railCount := [0, 0, 0], vioUa := 0, drawUa := 0, chargeUa := 0, passUa := 0, chargeUw := 0, reserved := [], boostEnd := none,
    boostNext := 0, register := 0x00000002, auxStopped := 0, auxLost := false, cost := 0, costLoop := 0 }

/-! ## Slot map and schedule round -/

/-- What a position of the slot map is for (06 R138 to R142). `half` is 1 for the second slot of a reversal pair; `idx` is
the raw sample's index within its round (06 R153); `seq`, `run` name the sequence and run that placed it. -/
inductive PosKind where
  | slot (ch half idx seq run : Nat)
  | cal
  | check (ch : Nat)
  deriving DecidableEq, Repr

/-- One position: its round position and slice. -/
structure Pos where
  t : Nat
  sl : Nat
  kind : PosKind
  deriving DecidableEq, Repr

/-- A compiled slot map with the figures of the compile record (06 R138, 12 Table 12-9). -/
structure SlotMap where
  len : Nat
  slices : List Nat
  pos : List Pos
  rep : List Nat
  nConv : Nat
  nCold : Nat
  w : Nat
  duMax : Nat
  g : Nat
  cost : Nat
  costLoop : Nat
  /-- The lengths of the rings around which it was compiled: with FAB_ALIGN also a tick less and a tick more (10 R262). -/
  rings : List Nat
  deriving DecidableEq, Repr

/-- The map of a device that runs no almanac: no position. -/
def SlotMap.empty (len : Nat) : SlotMap :=
  ⟨len, [0, 1, 2, 3], [], [1, 1, 1, 1], 0, 0, 20, len, 32, 11200, 11200, [len]⟩

/-- The freeze and resume states of a round (04 R88, R89). -/
inductive Freeze where
  | run
  | frozen (pA : Nat)
  | preamble (pA left : Nat)
  deriving DecidableEq, Repr

/-- The schedule round (06 R131, 13 R340). -/
structure Round where
  /-- The round clock runs. -/
  on : Bool
  count : Nat
  /-- Position of the current tick. -/
  pos : Nat
  /-- The current boundary begins a round. -/
  due : Bool
  freeze : Freeze
  /-- Idle or held ticks that follow the last position before the next round (10 R261). -/
  idle : Nat
  /-- The tick of the last round start. -/
  begun : Option Nat
  /-- The tick of a MEAS start or rejoin (06 R137, 13 R340). -/
  startAt : Option Nat
  /-- Positions that have passed since then (06 R131, R137). -/
  passed : Nat
  /-- The idle ticks are a hold of 10 R261: a freeze at position 0 with its preamble. -/
  held : Bool
  /-- The ticks at which freezes began since MEAS started, newest first (04 R90). -/
  freezes : List Nat
  /-- Junction-skipped positions of this round (06 R148). -/
  skipped : List (Nat × Nat)
  /-- Ticks for which BLANK has been accepted high, and whether BLANK is ignored (04 R92). -/
  blankTicks : Nat
  blankIgnored : Bool
  deriving DecidableEq, Repr

def Round.reset : Round :=
  ⟨false, 0, 0, false, .run, 0, none, none, 0, false, [], [], 0, false⟩

/-- Trigger states of 06 Table 6-4; a window is its index in the round, and the tick of its start when it runs. -/
inductive TrigState where
  | idle
  | armed (window : Nat)
  | running (window : Nat)
  | runningPending (window : Nat)
  deriving DecidableEq, Repr

/-- A sequence (06 R136, R146). -/
structure Seq where
  running : Bool
  /-- A start waits: the earliest tick whose round start may carry it (06 R136). -/
  startFrom : Option Nat
  /-- A stop waits: the earliest tick whose round start may carry it out (06 R136). -/
  stopFrom : Option Nat
  trig : TrigState
  /-- SEQ_OVERRUN (06 R146). -/
  overrun : Bool
  /-- The boundary of the last trigger and what became of it: triggers of one boundary count as one (06 R144). -/
  trigAt : Option (Nat × Nat)
  /-- Round starts that still lie between the running window's commit tick and its round, and whether the tick of its last position
  has ended (06 R145). -/
  laps : Nat
  ended : Bool
  deriving DecidableEq, Repr

def Seq.reset : Seq := ⟨false, none, none, .idle, false, none, 0, false⟩

/-! ## Converter slices -/

/-- A conversion of the current tick, waiting for its correction (05 R97). -/
structure Taken where
  sl : Nat
  kind : PosKind
  conv : Conv
  gain : Nat
  /-- Its number among the slice's conversions (05 Table 5-5). -/
  nth : Nat
  deriving DecidableEq, Repr

/-- How a position of the tick before was handled: converted, or filled by the channel's previous sample. -/
inductive Fill where
  | conv (c : Conv)
  | reuse
  deriving DecidableEq, Repr

/-- A position of the tick before, as the correction finds it: sampling tick, Meridian stamp, round count and n_c of its
round, the gain in use, the number of its conversion on the slice. -/
structure Sampled where
  sl : Nat
  kind : PosKind
  fill : Fill
  gain : Nat
  tick : Nat
  stamp : Count48
  round : Nat
  nc : Nat
  nth : Nat
  deriving DecidableEq, Repr

/-- Where a slice's reference inputs lead: the internal reference, REFP and REFN, or the two exchanged (04 R69, R79). -/
inductive RefIn where
  | internal | external | exchanged
  deriving DecidableEq, Repr

/-- A slice's router path at a boundary (04 R72): every switch open, the sampling node shorted to mid-reference, a slot's inputs
connected (positive and negative), an internal input against the internal reference (04 R66), or a calibration input (05 R103). -/
inductive Path where
  | opened
  | shorted
  | inputs (pos neg : Nat) (ref : RefIn)
  | inner (code : Nat)
  | cal (input : Nat)
  deriving DecidableEq, Repr

/-- A slice's supply in a tick (05 R98 to R100): asleep, its reference buffer powered alone, or awake for a position. -/
inductive SlicePower where
  | asleep | buffer | awake
  deriving DecidableEq, Repr

/-- A converter slice (05 R96 to R113). -/
structure Slice where
  offAcc : Int
  gainAcc : Int
  skewAcc : Int
  /-- The coefficients before the last update, and the sampling tick from which the new ones apply (05 R106). -/
  old : Option (Int × Int × Int × Nat)
  /-- Conversions since the last calibration, its tick, and the place in P, N, U, D (05 R104). -/
  since : Nat
  lastCal : Nat
  phase : Nat
  latestP : Option Int
  latestU : Option Int
  /-- Offset/gain and skew measurements rejected in a row (05 Table 5-5). -/
  rejOg : Nat
  rejSkew : Nat
  /-- Conversions counted, and the count at the last redundancy failure (05 Table 5-5). -/
  convs : Nat
  lastErr : Option Nat
  /-- The tick of the last position that woke the slice, sampled or not (05 R99, R104; 06 R136). -/
  lastConv : Nat
  /-- The extended discharge is armed (04 R83). -/
  ext : Bool
  /-- The first slot under a new map takes a warm wake (05 R100). -/
  warm : Bool
  /-- The self-check failed in this tick: its cause (05 R112). -/
  failed : Option Nat
  /-- Fenced from this tick on (05 R113). -/
  fence : Option Nat
  retired : Bool
  /-- The router path at this boundary, and D of its last switch-over in MEAS cycles (04 R72, R83). -/
  path : Path
  disch : Nat
  /-- The position that the slice last played or replayed: the predecessor of its next slot (04 R74). -/
  lastKind : Option PosKind
  power : SlicePower
  deriving DecidableEq, Repr

def Slice.fresh (n : Nat) : Slice :=
  let (o, g, k) := Config.factoryCoef n
  ⟨o, g, k, none, 0, 0, 0, none, none, 0, 0, 0, none, 0, false, false, none, none, false, .opened, 0, none, .asleep⟩

/-! ## Channels -/

/-- A raw sample that a channel keeps: its code, the gain exponent it was taken at, its OVR. -/
structure RawRef where
  x : Int
  gain : Nat
  /-- The gain exponent to whose scale `x` stands: the gain it was taken at, or AR_GMAX for z_last (13 R340). -/
  scale : Nat
  ovr : Bool
  deriving DecidableEq, Repr

/-- One entry of a deskew history (05 R109), with the skew that its slice applies to it (05 R106). -/
structure DeskewEntry where
  x : Int
  ovr : Bool
  sl : Nat
  skew : Int
  stamp : Count48
  tick : Nat
  defer : Bool
  round : Nat
  idx : Nat
  nc : Nat
  deriving DecidableEq, Repr

/-- A channel's filter path and sensor status (04 R79 to R94, 06 R150 to R155, 07 R166 to R180). -/
structure Chan where
  i1 : Int
  i2 : Int
  i3 : Int
  d1 : Int
  d2 : Int
  d3 : Int
  /-- Compensator and notch histories, newest first. -/
  zh : List Int
  nh : List Int
  /-- Flushed and not yet fed (06 R155). -/
  flushed : Bool
  settle : Nat
  /-- Latest raw samples of normal and reversed polarity since the last flush (04 R91, 05 R113). -/
  prevNorm : Option RawRef
  prevRev : Option RawRef
  /-- Latest normal-polarity raw sample for the break check, with its gain (04 R85, 07 R178). -/
  checkRef : Option (Int × Nat)
  /-- First half of a reversal pair, and whether it was reused (04 R79). -/
  half : Option (RawRef × Bool)
  deskew : List DeskewEntry
  /-- OVR and DEFER of the samples since the previous result; the tick of the decimation period's first sample. -/
  ovrAcc : Bool
  deferAcc : Bool
  first : Option Nat
  /-- The channel must be flushed at its next conversion (06 R136). -/
  restart : Bool
  /-- Gain in use, gain of the last result, a gain change that waits (its tick), results since a change (07 R176). -/
  gain : Nat
  resGain : Nat
  pendGain : Option (Nat × Nat)
  awaitRchg : Bool
  sinceChg : Nat
  /-- Failing and passing checks in a row (04 R86). -/
  brkFail : Nat
  brkPass : Nat
  sensorOpen : Bool
  sensorRange : Bool
  /-- XFAIL in force, and one that waits with its tick (05 R126). -/
  xfail : Bool
  xfailNext : Option (Bool × Nat)
  /-- Last result before scaling, for the preload store (13 R340). -/
  zLast : Int
  /-- Round count and index of the last decimation boundary (13 R340). -/
  lastBound : Nat × Nat
  /-- Latest linearised value, its status word, its stamp, and whether there is one (07 R180). -/
  lin : Int
  linStatus : BitVec 16
  linStamp : Count48
  hasLin : Bool
  /-- The linearised value of an earlier tick, for R167, with its status and whether there is one. -/
  linPrev : Int
  linPrevStatus : BitVec 16
  hasPrev : Bool
  linTick : Nat
  deriving DecidableEq, Repr

def Chan.reset : Chan :=
  { i1 := 0, i2 := 0, i3 := 0, d1 := 0, d2 := 0, d3 := 0, zh := [], nh := [], flushed := true, settle := 0,
    prevNorm := none, prevRev := none, checkRef := none, half := none, deskew := [], ovrAcc := false,
    deferAcc := false, first := none, restart := false, gain := 0, resGain := 0,
    pendGain := none, awaitRchg := false, sinceChg := 4, brkFail := 0, brkPass := 0, sensorOpen := false,
    sensorRange := false, xfail := false, xfailNext := none, zLast := 0, lastBound := (0, 0), lin := 0,
    linStatus := 0x0002, linStamp := 0, hasLin := false, linPrev := 0, linPrevStatus := 0x0002,
    hasPrev := false, linTick := 0 }

/-- A derived variable (07 R180 to R184). -/
structure Var where
  value : Int
  status : BitVec 16
  stamp : Count48
  /-- Value and stamp while last valid (07 R184). -/
  lastValid : Option (Int × Count48)
  deriving DecidableEq, Repr

def Var.reset : Var := ⟨0, 0x0002, 0, none⟩

/-- A queue entry (06 Table 6-8) with the full stamp and the tick of its commit (15 R369). -/
structure QEntry where
  value : BitVec 24
  chan : BitVec 5
  tags : Byte
  stamp : Count48
  commit : Nat
  deriving DecidableEq, Repr

/-- A main result on its way to the linearisation engine (07 R174). -/
structure Result where
  chan : Nat
  res : Int
  gain : Nat
  tags : Byte
  stamp : Count48
  /-- The tick in which it emerged. -/
  tick : Nat
  /-- Its last raw sample's tick. -/
  sampleTick : Nat
  /-- Stands for a closing position of the primary cycle. -/
  closing : Bool
  /-- The round and the place in it of its last raw sample, which name the run of the primary cycle (06 R135, R153). -/
  run : Nat × Nat
  deriving DecidableEq, Repr

/-- A Sextant window (05 R122 to R125): item 0-19 a channel, 20 REF_MAIN, 21 REF_CAL; its first and last ticks; the sum,
count and disqualifying events of the main samples in it. -/
structure SxWindow where
  item : Nat
  first : Nat
  /-- Ticks of the window still to come, and its last tick once it has ended. -/
  left : Nat
  last : Nat
  lastStamp : Count48
  sum : Int
  count : Nat
  spoiled : Bool
  deriving DecidableEq, Repr

/-- What Sextant's integrator takes in a tick (05 R121, R123, R127): nothing; a channel's inputs at its gain, exchanged or not; REFP
and REFN, exchanged or not; or a reference window's source. -/
inductive SxDrive where
  | off
  | input (ch : Nat) (exchanged : Bool)
  | ref (ch : Nat) (exchanged : Bool)
  | window (item : Nat)
  deriving DecidableEq, Repr

/-- A loop feed token (01 R19): PV, its status word and stamp, and the tick it was posted in. -/
structure Feed where
  pv : Int
  status : BitVec 16
  stamp : Count48
  posted : Nat
  deriving DecidableEq, Repr

/-- A slice's coefficients in the preload store (05 R107). -/
structure PreCoef where
  off : Int
  gain : Int
  skew : Int
  since : Nat
  lastCal : Nat
  phase : Nat
  deriving DecidableEq, Repr

/-- A channel's entry in the preload store (07 R175, 13 R340): gain, results since a change, the last result before
scaling, compensator and notch histories, last decimation boundary. -/
structure PreChan where
  gain : Nat
  sinceChg : Nat
  zLast : Int
  zh : List Int
  nh : List Int
  bound : Nat × Nat
  deriving DecidableEq, Repr

/-- The AON preload store (05 R107, R122; 07 R173, R175; 13 R340). -/
structure Preload where
  coef : List PreCoef
  tables : List (List Byte)
  chans : List PreChan
  sxItem : Nat
  deriving DecidableEq, Repr

def Preload.reset : Preload := ⟨[], [], [], 0⟩

/-- A pending LIN_SWAP (07 R171, R172). -/
structure Swap where
  mask : BitVec 20
  at_ : Nat
  save : Bool
  deriving DecidableEq, Repr

/-- A slice retirement or restoration under way (05 R117, R118): a retirement and its map with the tick from which a round
start may carry it; a restoration before its qualification, in it since a tick, and passed with its map and that map's
fallback maps. -/
inductive SliceJob where
  | retire (sl : Nat) (map : SlotMap) (from_ : Nat)
  | restore (sl : Nat) (from_ : Nat)
  | qualify (sl : Nat) (since : Nat)
  | qualified (sl : Nat) (map : SlotMap) (fallback : List SlotMap) (from_ : Nat)
  deriving DecidableEq, Repr

/-- The measurement island (04 to 07). -/
structure Meas where
  round : Round
  /-- The map in force, and the fallback maps of slices 0 to 3 (05 R114). -/
  map : SlotMap
  /-- The tick of the last change of maps, with the map and the fields before that round start (06 R148). -/
  prior : Option (Nat × SlotMap × Alm)
  fallback : List SlotMap
  seqs : Vector Seq 4
  slices : Vector Slice 4
  chans : Vector Chan 20
  vars : Vector Var 8
  /-- Active and shadow tables, 112 bytes each (07 R165). -/
  tables : Vector (List Byte) 20
  shadowTables : Vector (List Byte) 20
  taken : List Taken
  sampled : List Sampled
  results : List Result
  /-- Sextant entries that wait for tick E+2 (05 R128). -/
  sxEntries : List (QEntry × Nat)
  queue : List QEntry
  qovf : Bool
  /-- The tick whose commits rang or may ring DB_QUEUE (06 R160, 15 R369). -/
  qRing : Option Nat
  /-- The item of the Sextant rotation whose window is next or runs (05 R122). -/
  sxItem : Nat
  sxWindow : Option SxWindow
  /-- The next window may start at this round position (05 R122). -/
  sxNext : Nat
  swap : Option Swap
  job : Option SliceJob
  /-- The slice whose fallback map is due, and the tick its fence began (05 R114). -/
  fallbackDue : Option (Nat × Nat)
  /-- A map compiled after a second failure (05 R116): the tick MEAS received it. -/
  failMap : Option (SlotMap × Nat)
  /-- MGMT is to compile a map after a second failure, with its slice. -/
  failCompile : Option Nat
  /-- The calibration block in use, loaded at MEAS start (05 R102, 14 R363). -/
  cal : List Byte
  /-- The closing runs that are not complete: the round and run of each, and its channels linearised so far (06 R135, 07 R182). -/
  closingSeen : List ((Nat × Nat) × List Nat)
  /-- The tick in which a result of a closing run was last linearised (07 R171). -/
  closeAt : Option Nat
  /-- The channels whose firing break check has its dwell in this tick (04 R85, 05 R125). -/
  dwell : List Nat
  /-- What Sextant integrates in this tick (05 R121, R123). -/
  sxDrive : SxDrive
  preload : Preload
  deriving DecidableEq, Repr

/-- The measurement island before its first start: the factory coefficients and calibration block, no position to sample. -/
def Meas.reset : Meas :=
  { round := Round.reset, map := SlotMap.empty 5000, prior := none, fallback := [], seqs := Vector.replicate 4 Seq.reset,
    slices := Vector.ofFn fun n => Slice.fresh n.val, chans := Vector.replicate 20 Chan.reset,
    vars := Vector.replicate 8 Var.reset, tables := Vector.replicate 20 (zeros 112),
    shadowTables := Vector.replicate 20 (zeros 112), taken := [], sampled := [], results := [], sxEntries := [],
    queue := [], qovf := false, qRing := none, sxItem := 0, sxWindow := none, sxNext := 0, swap := none,
    job := none, fallbackDue := none, failMap := none, failCompile := none, cal := Config.factoryCal,
    closingSeen := [], closeAt := none, dwell := [], sxDrive := .off, preload := Preload.reset }

/-! ## Loop output -/

/-- The classes of a PV (08 R187), a failed one by what PV_FAIL makes of it. -/
inductive PvClass where
  | usable | settling | failAlarm | failHold
  deriving DecidableEq, Repr

/-- What a loop update brings to AON (08 Table 8-1): the feed it ran on, its class, the mapped code, the damping state y and
SAT. -/
structure Update where
  feed : Feed
  cls : PvClass
  code : Int
  y : Int
  sat : Bool
  /-- The tick A+5 for which it counts (08 R197, R200, R201). -/
  u : Nat
  deriving DecidableEq, Repr

/-- A change of the commanded code's sources that takes effect at a later boundary (08 Table 8-1, R192). -/
inductive CodeAct where
  | update (u : Update)
  | hwAlarm (on : Bool)
  | auxAlarm (on : Bool)
  | fix (code : Int) (untrimmed : Bool)
  | release
  | multidrop (on : Bool)
  deriving DecidableEq, Repr

/-- A scheduled change. -/
structure CodeEv where
  at_ : Nat
  act : CodeAct
  deriving DecidableEq, Repr

/-- Compliance states (08 Table 8-5) with their counts. -/
inductive Comply where
  | inReg
  | dip (n : Nat)
  | comply (good : Nat)
  deriving DecidableEq, Repr

/-- Mis-wiring states (08 R206) with their counts of readings and ticks. -/
inductive Miswire where
  | normal (hits : Nat)
  | folded (since : Nat)
  | retry (hits misses : Nat)
  deriving DecidableEq, Repr

/-- The loop output (08), its AON part and the LOOP island's damping. -/
structure LoopOut where
  /-- Commanded, limited, shaped and trimmed codes (08 R186). -/
  cmd : Int
  lim : Int
  shaped : Int
  trim : Int
  /-- Limited codes of the boundaries before, newest first, and the value of all older ones (08 R193). -/
  hist : List Int
  fill : Int
  /-- OUT_SRC in control (08 Table 8-4). -/
  src : Nat
  /-- Sources in force as AON holds them (08 R191). -/
  hwAlarm : Bool
  auxAlarm : Bool
  swAlarm : Bool
  fixed : Option (Int × Bool)
  startup : Bool
  multidrop : Bool
  /-- Hold in control of a settling, stopped or failed PV, apart from an interruption (08 R200). -/
  holding : Bool
  normal : Int
  sched : List CodeEv
  /-- The source at the boundary before (08 R194). -/
  prevSrc : Nat
  /-- c_last, U_last, c_prev, U_prev and how many usable updates there were since start-up (08 R200). -/
  cLast : Int
  uLast : Nat
  cPrev : Int
  uPrev : Nat
  usable : Nat
  sat : Bool
  /-- The damping state y in Q15.40 that AON holds, and whether there is one (08 R188, R189). -/
  y : Int
  yValid : Bool
  /-- The damping state in LOOP, ahead of AON's by the updates on their way (08 Table 8-1). -/
  yl : Int
  ylValid : Bool
  /-- Tick A+5 of the last loop update, whether there was one since start-up, tick A of it (08 R197, R199). -/
  uUpd : Nat
  hadUpdate : Bool
  lastA : Nat
  /-- Delta-u_max and G in force, the larger of old and new for the first interval after a map change, and the tick of that
  change (08 R197). -/
  duMax : Nat
  g : Nat
  duFrom : Nat
  interrupted : Bool
  /-- D of the interruption in force (08 R197). -/
  dTick : Nat
  /-- A failed PV is held under PV_FAIL = HOLD (08 R198). -/
  failHold : Bool
  holdCount : Nat
  holdLim : Bool
  comply : Comply
  miswire : Miswire
  /-- User trim (08 R202). -/
  m4 : Int
  m20 : Int
  trimGain : Int
  /-- The feed that waits for LOOP, and AON's feed record of the last 128 (08 R201). -/
  feed : Option Feed
  record : List Feed
  /-- The recorded feeds that a replay has still to process, oldest first, whether it runs, and when the next one is due
  (08 R201). -/
  todo : List Feed
  replaying : Bool
  replayNext : Nat
  /-- Replayed updates before the last one (08 R201). -/
  skipped : List Update
  deriving DecidableEq, Repr

def LoopOut.reset : LoopOut :=
  { cmd := 35000, lim := 35000, shaped := 35000, trim := 35000, hist := [], fill := 35000, src := 0,
    hwAlarm := false, auxAlarm := false, swAlarm := false, fixed := none, startup := true, multidrop := false,
    holding := false, normal := 35000, sched := [], prevSrc := 0, cLast := 35000, uLast := 0, cPrev := 35000,
    uPrev := 0, usable := 0, sat := false, y := 0, yValid := false, yl := 0, ylValid := false, uUpd := 0,
    hadUpdate := false, lastA := 0, duMax := 0, g := 32, duFrom := 0, interrupted := false, dTick := 0, failHold := false,
    holdCount := 0, holdLim := false, comply := .inReg, miswire := .normal 0, m4 := 40000, m20 := 200000,
    trimGain := 2 ^ 22, feed := none, record := [], todo := [], replaying := false, replayNext := 0, skipped := [] }

/-! ## Shared window -/

/-- Buffer owners (11 Table 11-8). -/
inductive Own where
  | free | host | device
  deriving DecidableEq, Repr

/-- An ownership word (11 Table 11-8). -/
structure OwnWord where
  own : Own
  gen : BitVec 6
  last : Byte
  deriving DecidableEq, Repr

def OwnWord.reset : OwnWord := ⟨.free, 0, 0⟩

/-- A reply that waits for its mailbox (12 R297): source, buffer, packet bytes. -/
structure ReplyOut where
  src : Byte
  buf : BitVec 6
  bytes : List Byte
  deriving DecidableEq, Repr

/-- What the firmware puts behind a notice between islands: the spec gives the 64 bits of the notice (11 Table 11-11) and the
request's effect, not the form in which the vendor firmware hands its operands over (notes/assumptions/74). -/
inductive Req where
  /-- The buffer says all: MB0, MB1, MB2. -/
  | packet
  /-- MB3: a fabric reply, a fixed current, its release, octets for the FSK layer. -/
  | reply (r : ReplyOut)
  | fix (code : Int) (untrimmed : Bool)
  | release
  | fskPass (octets : List Byte)
  /-- MB4: SEQ_START, SEQ_STOP or SEQ_TRIGGER of a mask; a slice out of or into service; a table swap. -/
  | seqs (op mask : Nat)
  | retire (sl : Nat) (map : SlotMap)
  | restore (sl : Nat)
  | swap (mask : BitVec 20) (x : Nat) (save : Bool)
  /-- MB7: an acknowledgement, an injection, a clearing of the log, a trace mask, an island's reset, a pending activation. -/
  | ack (det : BitVec 6) (host : Bool)
  | inject (det : BitVec 6) (n : Nat)
  | clearLog (scope : Nat)
  | traceMask (m : Word32)
  | resetIsland (i : Island)
  | activate (i : Island)
  /-- MB5 and MB6: the event that an outstanding command waits for, with its status and results (12 R299). -/
  | event (op status : Nat) (res : List Byte)
  | islandUp (i : Island)
  deriving DecidableEq, Repr

/-- A mailbox with its acknowledge and status registers (11 Tables 11-11, 11-12). -/
structure Mailbox where
  notice : Word64
  /-- What the notice asks for. -/
  req : Req
  pending : Bool
  held : Bool
  timeout : Bool
  cross : Bool
  busy : Bool
  posts : Byte
  done : Bool
  rcode : Byte
  ackSrc : Byte
  /-- The tick of the post, or of MGMT's going down if that came later (11 R286). -/
  since : Nat
  /-- An acknowledge that takes effect at the next boundary: return code, identity, tick of the write (11 R281). -/
  ack : Option (Byte × Byte × Nat)
  /-- The notice, or its acknowledge, was discarded on its way with bad parity: nothing follows from it (13 R333). -/
  lost : Bool
  deriving DecidableEq, Repr

def Mailbox.reset : Mailbox := ⟨0, .packet, false, false, false, false, false, 0, false, 0, 0, 0, none, false⟩

/-- The SPI status bits that the last transaction left (11 Table 11-4). -/
structure SpiStatus where
  prevOk : Bool
  crcErr : Bool
  addrRsvd : Bool
  ownErr : Bool
  postErr : Bool
  frameErr : Bool
  deriving DecidableEq, Repr

def SpiStatus.reset : SpiStatus := ⟨false, false, false, false, false, false⟩

/-- The shared window and its registers (11). -/
structure Window where
  /-- Buffers WB0 to WB63: cells that differ from zero (11 R269). -/
  mem : List Host.Cell
  own : Vector OwnWord 64
  mb : Vector Mailbox 8
  /-- Since when both mailboxes of a pair are pending, and whether CROSS was raised for it (11 R290). -/
  crossSince : List (Option Nat)
  crossRaised : List Bool
  db : Word32
  dbMask : Word32
  locks : Vector Byte 8
  /-- What the last read of a lock gave each island (11 R292). -/
  lockVal : Quad Byte
  /-- Doorbells and masks of the internal endpoints (11 R285). -/
  idb : Quad Word32
  idbMask : Quad Word32
  /-- Buffers of posted replies that the host has turned back with BAD_NOTICE (11 R284, R289). -/
  turned : List Nat
  /-- Posts in the outgoing registers of their senders, earliest first: mailbox, notice, request (01 R18). -/
  posts : List (Nat × Word64 × Req)
  status : SpiStatus
  /-- The bytes that the device drove on HMISO in the last transaction (11 Tables 11-1, 11-2). -/
  out : List Byte
  deriving DecidableEq, Repr

def Window.reset : Window :=
  { mem := [], own := Vector.replicate 64 OwnWord.reset, mb := Vector.replicate 8 Mailbox.reset,
    crossSince := [none, none, none, none], crossRaised := [false, false, false, false],
    db := 0, dbMask := 0x00003803, locks := Vector.replicate 8 0, lockVal := Quad.all 0, idb := Quad.all 0,
    idbMask := Quad.all 0, turned := [], posts := [], status := SpiStatus.reset, out := [] }

/-! ## MGMT -/

/-- A command in MGMT's queue: its notice's source, the fabric sender's address, its buffer and length (12 R299). -/
structure QueuedCmd where
  src : Byte
  sender : BitVec 12
  buf : BitVec 6
  nbLen : Nat
  deriving DecidableEq, Repr

/-- An outstanding command (12 R299): its opcode and packet, when it posted its request and to which island, whether the
island has acknowledged it, and the status and results once the event has been reported. -/
structure Outst where
  op : Nat
  pkt : Packet
  /-- It came through the window and MGMT's queue (12 R299). -/
  via : Bool
  since : Nat
  need : Option Island
  /-- The tick in which the island took the request (12 R300). -/
  got : Option Nat
  /-- Result bytes that the request already fixed. -/
  res : List Byte
  done : Option (Nat × List Byte)
  deriving DecidableEq, Repr

/-- A parameter assembly of one sender (12 R302). -/
structure Assembly where
  src : Byte
  op : Nat
  tag : Byte
  bytes : List Byte
  last : Nat
  deriving DecidableEq, Repr

/-- Results kept for continuation (12 R303). -/
structure Kept where
  src : Byte
  op : Nat
  tag : Byte
  bytes : List Byte
  status : Nat
  deriving DecidableEq, Repr

/-- An update session (14 R353, R354): island, owner (source and address), announced length and version, the tick of the
last command, bytes received of pages not yet written, pages written. -/
structure UpdSession where
  island : Island
  ownerSrc : Byte
  owner : BitVec 12
  len : Nat
  version : Nat
  last : Nat
  parts : List Host.Cell
  written : List Nat
  deriving DecidableEq, Repr

/-- A stream's filling state (06 R162, R163). -/
structure Stream where
  /-- Buffer being filled, with its entries and the tick of its first entry's commit. -/
  buf : Option Nat
  entries : List QEntry
  firstTick : Nat
  ring : Nat
  seqNo : Nat
  drops : Nat
  /-- Drops counted in the buffer being filled. -/
  bufDrops : Nat
  /-- The fields of 06 Table 6-10 by which the last buffer was opened (06 R161). -/
  fields : List Int
  deriving DecidableEq, Repr

def Stream.reset : Stream := ⟨none, [], 0, 0, 0, 0, 0, []⟩

/-- A SEC_ATTEST that the interpreter is running (14 R348, R350): the nonce, the tick of admission, and, once the record has been
captured and the signing has begun, what it will answer and the MGMT cycles left. -/
structure Attest where
  nonce : List Byte
  since : Nat
  out : Option (Nat × List Byte)
  left : Nat
  deriving DecidableEq, Repr

/-- A posted almanac apply token: the committed copy it carries, the tick of posting, and the map it brings (01 R23). -/
structure ApplyTok where
  alm : Alm
  posted : Nat
  map : Option (SlotMap × List SlotMap)
  /-- Its apply point has passed while MEAS was down (13 R340). -/
  missed : Bool
  deriving DecidableEq, Repr

/-- The command interpreter and the almanac (12). -/
structure Mgmt where
  queue : List QueuedCmd
  outst : List Outst
  replies : List ReplyOut
  /-- Events that LOOP has reported and MGMT takes at the next boundary: opcode, status, results, tick (12 R299). -/
  events : List (Nat × Nat × List Byte × Nat)
  /-- The last reply packet built, whoever it is for (12 R297). -/
  lastReply : List Byte
  /-- What the 64 M16 bus registers hold (02 R44): bytes, kept over a restart of MGMT (notes/assumptions/67). -/
  m16Regs : Vector Byte 64
  assemblies : List Assembly
  kept : List Kept
  grants : List (BitVec 12 × BitVec 16)
  upd : Option UpdSession
  attest : Option Attest
  /-- The inactive slot of an island is marked verified (14 R355). -/
  verified : Quad Bool
  streams : Vector Stream 4
  /-- The tick of the tap drain's last token, and earlier stream fields, oldest first: each row's fields are those of the
  entries committed before its tick (06 R161). -/
  drained : Option Nat
  oldStreams : List (Nat × Alm)
  shadow : Alm
  committed : Alm
  /-- The fields in force: L fields at once, P fields from their apply points (00 R2). -/
  inForce : Alm
  /-- The almanac of this start is still to be loaded (03 Table 3-10). -/
  toLoad : Bool
  pendMeas : Option ApplyTok
  /-- The loop token of the almanac that MGMT loaded at start-up (08 R192), and that of a later ALM_APPLY. -/
  startLoop : Option ApplyTok
  pendLoop : Option ApplyTok
  pendLine : Option ApplyTok
  deriving DecidableEq, Repr

def Mgmt.reset : Mgmt :=
  { queue := [], outst := [], replies := [], events := [], lastReply := []
    m16Regs := Vector.replicate 64 0, assemblies := [], kept := [], grants := [],
    upd := none, attest := none, verified := Quad.all false, streams := Vector.replicate 4 Stream.reset, drained := none,
    oldStreams := [], shadow := Alm.default,
    committed := Alm.default, inForce := Alm.default, toLoad := false, pendMeas := none, startLoop := none, pendLoop := none, pendLine := none }

/-! ## Islands and faults -/

/-- Where start-up stands (03 Table 3-10): no supply, waiting for the evaluation boundary B, verifying the MGMT image,
in ROM recovery, verified. -/
inductive Boot where
  | off | wait | verify | recovery | done
  deriving DecidableEq, Repr

/-- An island's run state (11, 13 R329 to R339). -/
structure Isl where
  /-- UP (11 Table 11-7). -/
  up : Bool
  /-- In reset or stopped: fenced. -/
  down : Bool
  /-- The reaction's boundary R of a restart under way (13 R339). -/
  resetAt : Option Nat
  /-- The reset has been released and the image checked. -/
  released : Bool
  /-- At this start MGMT has compared the image with the digest of its activation (03 Table 3-10). -/
  checked : Bool
  /-- The AON core runs its NVM firmware, after the ROM's of a power-up (03 Table 3-10). -/
  nvmFw : Bool
  /-- Stopped by R65, to be released at a recovery. -/
  stopped : Bool
  /-- The reset is a stop of R65, which no fault reaction asserted (03 R65, 14 R360). -/
  supply : Bool
  /-- An IMAGE fault leaves the island down (13 Table 13-2). -/
  dead : Bool
  /-- The shadow: in force, its end if known, its ORIGIN (13 R330). -/
  shadow : Bool
  shadowEnd : Option Nat
  origin : Byte
  /-- The tick of the last heartbeat, and whether the watchdog reported its absence (13 Table 13-2). -/
  lastBeat : Nat
  wdtFired : Bool
  /-- UP was set at this tick (14 R359). -/
  upAt : Nat
  /-- The first tick at which a waiting activation may be carried out after a shadow (14 R358). -/
  readyFrom : Nat
  /-- The tick of the last activation: a fault reaction of the same boundary is no revert (14 R358). -/
  actAt : Option Nat
  /-- Words of the island's SRAM that a double-bit error has struck: an access ends in a bus error and delivers no data, until
  the island is restarted (01 R12). -/
  lostWords : List (BitVec 16)
  deriving DecidableEq, Repr

def Isl.down0 : Isl := ⟨false, true, none, false, false, false, false, false, false, false, none, 0xFF, 0, false, 0, 0, none, []⟩
def Isl.aon0 : Isl := ⟨true, false, none, false, false, false, false, false, false, false, none, 0xFF, 0, false, 0, 0, none, []⟩

/-- A detector report (13 R314); `aon` for a detector in AON. -/
structure Report where
  det : BitVec 6
  cause : BitVec 16
  island : Byte
  inj : Bool
  real : Bool
  /-- The class that an injected access gives it (13 R334). -/
  atLeast : Nat
  posted : Nat
  /-- The detection tick's Meridian count. -/
  stamp : Count48
  aon : Bool
  deriving DecidableEq, Repr

/-- A log entry (13 Table 13-7). -/
structure LogEntry where
  det : BitVec 6
  cls : Nat
  cfg : Nat
  inj : Bool
  real : Bool
  conseq : Bool
  escalated : Bool
  acked : Bool
  reacted : Bool
  alarm : Bool
  count : Nat
  tick : Count48
  cause : BitVec 16
  origin : Byte
  island : Byte
  lseq : BitVec 16
  deriving DecidableEq, Repr

/-- A fault that the collector holds open (13 R316 to R325). -/
structure Open where
  det : BitVec 6
  cause : BitVec 16
  island : Byte
  cls : Nat
  react : Nat
  host : Bool
  acked : Bool
  reacted : Bool
  /-- The alarm that its reaction commanded is in force; the low alarm of SUP_AUX is (13 R324). -/
  alarm : Bool
  aux : Bool
  /-- The grace window's end. -/
  grace : Option Nat
  /-- The tick of its consuming boundary. -/
  at_ : Nat
  lseq : BitVec 16
  deriving DecidableEq, Repr

/-- The fault collector (13). -/
structure Faults where
  reports : List Report
  opens : List Open
  log : List LogEntry
  fatalSeen : Bool
  lseq : BitVec 16
  /-- FAULT_N stays low until this tick at least (13 R325). -/
  lowUntil : Nat
  /-- FAULT_N is held low until the MGMT image is verified (13 R325). -/
  bootHold : Bool
  /-- Detectors armed for injection with the accesses left, and requests that AON has taken (13 R332). -/
  armed : List (BitVec 6 × Nat)
  armReq : List (BitVec 6 × Nat × Nat)
  /-- FATAL entries that wait for their snapshot record (13 R338). -/
  snapWait : List LogEntry
  /-- Acknowledgements that AON has taken: the detector, whether it is an FLT_ACK, and the tick (13 R317). -/
  acks : List (BitVec 6 × Bool × Nat)
  /-- Islands whose reset a command has asked for (12 Table 12-12, 13 R329). -/
  resetReq : List Island
  /-- FLT_CLEARs that AON has taken: their scopes (13 R337). -/
  clears : List Nat
  /-- Islands whose UP ends a command: AON reports it on MB6 (11 R286, 12 R299). -/
  owed : List Island
  deriving DecidableEq, Repr

def Faults.reset : Faults :=
  { reports := [], opens := [], log := [], fatalSeen := false, lseq := 0, lowUntil := 0, bootHold := true,
    armed := [], armReq := [], snapWait := [], acks := [], resetReq := [], clears := [], owed := [] }

/-! ## Modem, FSK and fabric -/

/-- Receiver states (09 Table 9-8). -/
inductive RxState where
  | idle | qualify | synced | payload | muted
  deriving DecidableEq, Repr

/-- A codeword that waits for the decoder (09 R222, R223): its LLRs, its rate's mode, the tick it was ready, whether it is
the packet's last, the packet's header, and the boundary at which the codeword's last symbol completed. -/
structure CodeJob where
  port : Port
  mode : Mode
  llrs : List Int
  ready : Nat
  last : Bool
  hdr : Frame
  complete : Nat
  deriving DecidableEq, Repr

/-- A frame that a port is to send or sends (09 R231, 10 R243). -/
structure TxJob where
  frame : Frame
  /-- The boundary it is to start at. -/
  at_ : Nat
  /-- Rank of 10 Table 10-4, and what it is for: the session of a REPLY, the window buffer of a REPLY or PUBLISH. -/
  rank : Nat
  ses : Option Nat
  buf : Option Nat
  deriving DecidableEq, Repr

/-- One port of the line modem (09). -/
structure PortSt where
  rx : RxState
  /-- The qualifier window: opening boundary, present end, latest end, in units of 1/125 receive sample since power-up, of
  which a tick has 64 * 125 / 125 = 64 (09 R210, R225). -/
  winOpen : Nat
  winEnd : Nat
  winMax : Nat
  /-- The boundary at which the last judged block closed (09 R224). -/
  blkTick : Option Nat
  /-- Means of the last two blocks, newest first, and the sum of the two at sync, which is 2 x E_sync (09 R226). -/
  blocks : List Int
  eSync : Int
  /-- Blocks in a row at least 4 x E_sync (09 R228). -/
  strong : Nat
  /-- The peak n* in samples, the mode and the taps doubled (09 R216). -/
  nStar : Nat
  mode : Mode
  taps : List Cplx
  /-- The slope of the phase ramps that the taps have followed since the window's last move, in 1/65,536 turn for a sub-carrier
  (09 R217). -/
  drift : Int
  /-- The packet's factor of the soft values, fixed at TRN1, as a fraction (09 R217). -/
  scale : Nat × Nat
  /-- The boundary at which the DSP segment under way for this port ends (09 R223). -/
  seg : Option Nat
  /-- LLRs of header symbols and of the payload so far; symbols demodulated since TRN1. -/
  hdrLlr : List Int
  llrs : List Int
  syms : Nat
  /-- The header received; bits decoded so far; codewords of the payload still to come, and its symbols. -/
  hdr : Option Frame
  bits : List Bool
  cwLeft : Nat
  paySyms : Nat
  /-- Group noise powers, none until the first update, and those that take effect at the next boundary with the tick of their
  update; the tick of the last update in effect (09 R230). -/
  pg : List Nat
  pgNext : Option (Nat × List Nat)
  floorTick : Option Nat
  /-- Since when the port has been quiet, and the idle symbols since the last update of the floor (09 R229). -/
  quiet : Option Nat
  idleSyms : Nat
  /-- Frames requested, and the frame being sent with its symbols as values on sub-carriers 16 to 79, the tick of its end and
  the rms amplitude: 50 uA steps on the loop port, mV on the spur port (09 R211, R231, R233). -/
  txReq : List TxJob
  tx : Option TxJob
  txSyms : List (List Cplx)
  txStart : Nat
  txEnd : Nat
  amp : Nat
  /-- The limits of a multi-carrier sample at this boundary, and the two samples that the transmit DAC takes in this tick, the
  FSK injection included: DAC codes of 2.5 uA on the loop port, mV on the spur port (09 R210, R231, R233, R236). -/
  clipLo : Int
  clipHi : Int
  dac : Int × Int
  /-- The tick of the last transmit sample (09 R226). -/
  lastTx : Nat
  /-- The start boundaries for which a first symbol's synthesis has been put on the DSP core (09 R223). -/
  synthed : List Nat
  deriving DecidableEq, Repr

def PortSt.reset : PortSt :=
  { rx := .idle, winOpen := 0, winEnd := 0, winMax := 0, blkTick := none, blocks := [], eSync := 0, strong := 0, nStar := 0,
    mode := .robust, taps := [], drift := 0, scale := (0, 0), seg := none, hdrLlr := [], llrs := [], syms := 0, hdr := none, bits := [], cwLeft := 0, paySyms := 0,
    pg := [], pgNext := none, floorTick := none, quiet := none, idleSyms := 0, txReq := [], tx := none, txSyms := [],
    txStart := 0, txEnd := 0, amp := 0, clipLo := 0, clipHi := 0, dac := (0, 0), lastTx := 0, synthed := [] }

/-- The legacy FSK layer (09 R236 to R238). -/
structure Fsk where
  cd : Bool
  /-- Since when carrier detect is on, or off. -/
  cdTick : Nat
  /-- Octets to send, with the tick FSK_PASS started waiting. -/
  tx : Option (List Byte × Nat)
  /-- The transmission under way (09 R238): its bits, the framed octets between two bit times of 1; the boundary at which it
  began and the tick at which it ends; and the phase of the tone at the present boundary in 1/1,000,000 cycle (09 R236). -/
  send : List Bool
  sendStart : Nat
  sendEnd : Option Nat
  phase : Nat
  /-- The receiver is muted since its own transmission (09 R237). -/
  muted : Bool
  /-- Buffer being filled, octet and status pairs, stamp of the first octet. -/
  buf : Option Nat
  octets : List (Byte × Byte)
  stamp : Count48
  ring : Nat
  drops : Nat
  bufDrops : Nat
  deriving DecidableEq, Repr

def Fsk.reset : Fsk :=
  { cd := false, cdTick := 0, tx := none, send := [], sendStart := 0, sendEnd := none, phase := 0, muted := false, buf := none,
    octets := [], stamp := 0, ring := 0, drops := 0, bufDrops := 0 }

/-- A reply that is due (10 R245): its boundary D + 1,000, SEQ and port; whether it carries the current reply whenever that
came; a reply packet that replaces it. -/
structure Due where
  at_ : Nat
  seq : Byte
  port : Port
  poll : Bool
  fixed : Option (List Byte)
  deriving DecidableEq, Repr

/-- A partner session (10 R248, R249). -/
structure Session where
  opened : Bool
  addr : BitVec 12
  /-- SEQ of the last accepted CMD. -/
  seq : Option Byte
  running : Bool
  /-- The current reply packet, and the tick in which it reached LOOP. -/
  cur : Option (List Byte)
  curAt : Nat
  /-- The tick of the last consumed CMD or POLL. -/
  last : Nat
  due : Option Due
  /-- Opcode and tag of the running command, for ST_PENDING. -/
  op : Nat
  tag : Byte
  /-- The window buffer of a reply that LOOP has not sent yet. -/
  buf : Option Nat
  /-- SEQ, current reply and its tick before the CMD whose MB2 post is under way (11 R288). -/
  before : Option (Option Byte × Option (List Byte) × Nat)
  deriving DecidableEq, Repr

def Session.reset : Session := ⟨false, 0, none, false, none, 0, 0, none, 0, 0, none, none⟩

/-- A frame that the modem delivered (09 R226): its port, the tick D of its check, and which parts of its handling are still
to come: as an endpoint (10 R239 to R257), and as a routing device (10 R254). -/
structure Delivered where
  port : Port
  frame : Frame
  at_ : Nat
  here : Bool
  route : Bool
  deriving DecidableEq, Repr

/-- A frame that waits for its exit port (10 R254). -/
structure FwdItem where
  frame : Frame
  delivered : Nat
  deriving DecidableEq, Repr

/-- The fabric (10). -/
structure Fabric where
  sessions : Vector Session 16
  dup : Bool
  /-- An accepted FAB_ASSIGN waits for the idle line (10 R251, R252). -/
  assigned : Bool
  locked : Bool
  hop : BitVec 3
  /-- Last e of 10 R257 in 1/8 tick. -/
  err : Int
  /-- The tick of the last accepted beacon. -/
  bcnTick : Option Nat
  /-- SEQ and tick of beacons accepted in the last 500,000 ticks (10 R256). -/
  bcnSeqs : List (Byte × Nat)
  event : Option Count48
  /-- A relay that waits: its start boundary, no sooner than 200 ticks after its receipt, and frame (10 R258, 09 R232). -/
  relay : Option (Nat × Port × Frame)
  /-- The SWEEP_REPLYs that wait, one for each SWEEP answered (10 R250). -/
  sweep : List (Nat × Port × Frame)
  fwd : Pair (List FwdItem)
  /-- Frames delivered by the modem and not yet handled (09 R226). -/
  delivered : List Delivered
  pubSeq : Byte
  /-- Buffers to publish in MGMT's outgoing register of the relay channel, earliest first, with the ticks of their posts
  (01 R18, Table 1-4). -/
  relayOut : List (Nat × Nat)
  /-- Stream buffers that reached LOOP, earliest first, with the ticks they came in (10 R246). -/
  pubQueue : List (Nat × Nat)
  /-- Window buffers that LOOP held when it went down and sets FREE at its UP (11 R289, notes/assumptions/92). -/
  lost : List Nat
  /-- The count at which each publish slot was last served (10 R246). -/
  pubDone : List (Option Nat)
  /-- CMDs that wait for MB2, with their senders (10 R244, 01 R18). -/
  mb2Wait : List (Word64 × BitVec 12)
  /-- The source address of the last broadcast CMD that LOOP posted without a session (10 R244). -/
  bcastFrom : BitVec 12
  /-- MB3 replies that wait for LOOP (11 R288). -/
  mb3Wait : List ReplyOut
  deriving DecidableEq, Repr

def Fabric.reset : Fabric :=
  { sessions := Vector.replicate 16 Session.reset, dup := false, assigned := false, locked := false, hop := 0, err := 0,
    bcnTick := none, bcnSeqs := [], event := none, relay := none, sweep := [], fwd := ⟨[], []⟩,
    delivered := [], pubSeq := 0, relayOut := [], pubQueue := [], lost := [], pubDone := [none, none, none, none], mb2Wait := [],
    bcastFrom := 0, mb3Wait := [] }

/-! ## NVM and fuses -/

/-- Slot states (14 Table 14-6). -/
inductive SlotState where
  | empty | writing | ready | trial | committed | failed
  deriving DecidableEq, Repr

/-- What a slot directory records of a slot (14 Table 14-6). -/
structure SlotInfo where
  st : SlotState
  digest : List Byte
  version : Nat
  arith : Nat
  deriving DecidableEq, Repr

def SlotInfo.empty : SlotInfo := ⟨.empty, [], 0, 0⟩

/-- An island's slot directory (14 Table 14-6): slots A and B, which is active, the activation tick of a READY slot, and
whether the inactive slot held a committed image before (14 R358). -/
structure SlotDir where
  a : SlotInfo
  b : SlotInfo
  activeB : Bool
  actTick : Option Nat
  wasCommitted : Bool
  deriving DecidableEq, Repr

/-- A record that is written alternately into two pages: what each page holds, with its sequence number, from which the other one differs
by 1 (14 R347). A step is a whole write, so a page's CRC-32 is wrong exactly where the page holds wrong bits (Nvm.bad). -/
structure Alternate (α : Type) where
  a : Option (Nat × α)
  b : Option (Nat × α)
  deriving DecidableEq, Repr

/-- The higher sequence number. -/
def Alternate.seq {α : Type} (x : Alternate α) : Nat := max ((x.a.map (·.1)).getD 0) ((x.b.map (·.1)).getD 0)

/-- Whether the next write goes to the second page: it holds the older record, or none. -/
def Alternate.second {α : Type} (x : Alternate α) : Bool := decide ((x.b.map (·.1)).getD 0 < (x.a.map (·.1)).getD 0)

/-- The record after a write: the older page takes it with the next number. -/
def Alternate.put {α : Type} (x : Alternate α) (v : α) : Alternate α :=
  if x.second then { x with b := some (x.seq + 1, v) } else { x with a := some (x.seq + 1, v) }

/-- The record in force: that with the higher sequence number among the pages with a correct CRC (14 R347). -/
def Alternate.load {α : Type} (x : Alternate α) (okA okB : Bool) : Option α :=
  match (if okA then x.a else none), (if okB then x.b else none) with
  | some u, some v => some (if u.1 < v.1 then v.2 else u.2)
  | some u, none => some u.2
  | none, v => v.map (·.2)

/-- A saved almanac copy: its sequence number, the almanac, and its SHA3-256 digest (12 R312). -/
structure AlmCopy where
  seq : Nat
  alm : Alm
  digest : List Byte
  deriving DecidableEq, Repr

/-- The partitions of the NVM (01 Table 1-3); slot and copy B for `true`. -/
inductive NvmArea where
  | image (i : Island) (b : Bool)
  | aonSig (b : Bool)
  | alm (b : Bool)
  | cal | identity | snapshot | logs | reserved
  deriving DecidableEq, Repr

/-- The pages of 256 bytes of a partition (01 Table 1-3). -/
def NvmArea.pages : NvmArea → Nat
  | .image .mgmt _ => 768
  | .image .loop _ => 256
  | .image .meas _ => 32
  | .image .aon _ => 16
  | .aonSig _ => 32
  | .alm _ => 64
  | .cal => 256
  | .identity => 32
  | .snapshot => 16
  | .logs => 512
  | .reserved => 944

/-- A partition's first page. DESIGN CHOICE (notes/assumptions/90): the partitions follow one another in the table's order. -/
def NvmArea.first : NvmArea → Nat
  | .image .mgmt b => 768 * b.toNat
  | .image .loop b => 1536 + 256 * b.toNat
  | .image .meas b => 2048 + 32 * b.toNat
  | .image .aon b => 2112 + 16 * b.toNat
  | .aonSig b => 2144 + 32 * b.toNat
  | .alm b => 2208 + 64 * b.toNat
  | .cal => 2336
  | .identity => 2592
  | .snapshot => 2624
  | .logs => 2640
  | .reserved => 3152

/-- All the pages of a partition. -/
def NvmArea.all (p : NvmArea) : List Nat := List.range' p.first p.pages

/-- The pages of the identity partition (14 Table 14-3): the certificate, the seed, and the two of each slot directory, of the signature
counters and of the grant table. -/
def certPages : List Nat := List.range' NvmArea.identity.first 15
def seedPage : Nat := NvmArea.identity.first + 15
def dirPages (i : Island) : Nat × Nat :=
  let p := NvmArea.identity.first + 16 + 2 * (match i with
    | .mgmt => 0
    | .loop => 1
    | .meas => 2
    | .aon => 3)
  (p, p + 1)
def ctrPages : Nat × Nat := (NvmArea.identity.first + 24, NvmArea.identity.first + 25)
def grantPages : Nat × Nat := (NvmArea.identity.first + 26, NvmArea.identity.first + 27)

/-- The pages of the calibration partition: those of the saved tables, two for each channel (14 R362), and the ones before them. DESIGN
CHOICE (notes/assumptions/90): the tables stand at its end. -/
def calPages : List Nat := NvmArea.cal.all.take 216
def tablePages (c : Nat) : Nat × Nat := (NvmArea.cal.first + 216 + 2 * c, NvmArea.cal.first + 217 + 2 * c)

/-- The NVM and the fuses (01 Table 1-3, 12 R312, 14). -/
structure Nvm where
  /-- The identity partition: the device certificate, the seed, which no command reads, and the OEM data (14 R347, Table 14-3). -/
  cert : List Byte
  seed : List Byte
  oemData : List Byte
  /-- The slot directories in force, and their records in the identity partition (14 R352). -/
  dirs : Quad SlotDir
  dirRecs : Quad (Alternate SlotDir)
  /-- Image bytes of slots A and B of each island (14 R351). -/
  imgA : Quad (List Host.Cell)
  imgB : Quad (List Host.Cell)
  fuses : Quad Nat
  oem : Option (List Byte)
  /-- Last accepted signature counters, vendor and OEM (12 R304), and their records (14 Table 14-3). -/
  ctrVendor : Nat
  ctrOem : Nat
  ctrRecs : Alternate (Nat × Nat)
  /-- The two almanac copies (12 R312). -/
  almA : Option AlmCopy
  almB : Option AlmCopy
  /-- The saved tables of each channel with TR_SEQ (14 R362). -/
  tables : List (Alternate (List Byte))
  trim : Int × Int
  retired : BitVec 4
  calBlock : List Byte
  /-- The grant table (12 R306) and its records (14 Table 14-3). -/
  grants : List (BitVec 12 × BitVec 16)
  grantRecs : Alternate (List (BitVec 12 × BitVec 16))
  /-- The fatal-fault snapshot: valid records with their sequence numbers, newest first, and the last number (13 R338). -/
  snap : List (Nat × LogEntry)
  snapSeq : Nat
  /-- The fault history in the log partition: entries with their pages, newest first, and the page that the wear levelling takes
  next (01 R13). -/
  history : List (Nat × LogEntry)
  histNext : Nat
  /-- Pages that hold a word with more than one wrong bit: a read of one is uncorrectable until it is written again
  (13 Table 13-2). -/
  bad : List Nat
  deriving DecidableEq, Repr

/-- The directory of an island at delivery: the factory image in slot A, committed. -/
def SlotDir.factory (code : Nat) : SlotDir :=
  let (d, v, ar) := Config.factoryImage code
  ⟨⟨.committed, d, v, ar⟩, SlotInfo.empty, false, none, false⟩

/-- The vendor root public key, and its digest fused in the boot ROM (14 R345). -/
def vendorKey : List Byte := Mldsa.publicKey Config.vendorSeed
def vendorDigest : List Byte := sha3 vendorKey

/-- Bytes 0 to 1,375 of the device certificate (14 Table 14-2). -/
def certBody : List Byte :=
  leBytes 2 1 ++ leBytes 2 3796 ++ leBytes 8 Config.uid.toNat ++ leBytes 4 0x0E0C0020 ++ [Config.siRev, Config.romRev] ++ zeros 2 ++
  leBytes 4 Config.certDate ++ leBytes 4 Config.certSerial ++ vendorDigest ++ zeros 4 ++ padTo 1312 (Mldsa.publicKey Config.identitySeed)

/-- The device certificate: the vendor root key signs its first 1,376 bytes (14 R347, Table 14-2). -/
def factoryCert : List Byte := certBody ++ padTo 2420 ((Mldsa.sign Config.vendorSeed certBody Config.certRandom).1.getD [])

/-- A record written once, at delivery. -/
def Alternate.first {α : Type} (v : α) : Alternate α := ⟨some (1, v), none⟩

def Nvm.reset : Nvm :=
  { cert := factoryCert, seed := Config.identitySeed, oemData := Config.oemData,
    dirRecs := ⟨.first (SlotDir.factory 0x10), .first (SlotDir.factory 0x20), .first (SlotDir.factory 0x30), .first (SlotDir.factory 0x40)⟩,
    ctrRecs := .first (0, 0), grantRecs := .first [],
    dirs := ⟨SlotDir.factory 0x10, SlotDir.factory 0x20, SlotDir.factory 0x30, SlotDir.factory 0x40⟩,
    imgA := Quad.all [], imgB := Quad.all [],
    fuses := ⟨min 63 (Config.factoryFuses 0x10), min 63 (Config.factoryFuses 0x20), min 63 (Config.factoryFuses 0x30),
      min 63 (Config.factoryFuses 0x40)⟩,
    oem := if Config.oemFused then Config.oemKey.map sha3 else none, ctrVendor := 0, ctrOem := 0, almA := none, almB := none,
    tables := List.replicate 20 ⟨none, none⟩, trim := (40000, 200000), retired := 0, calBlock := Config.factoryCal,
    grants := [], snap := [], snapSeq := 0, history := [], histNext := 0, bad := [] }

/-- Pages that are written hold good words again. -/
def Nvm.wrote (n : Nvm) (pages : List Nat) : Nvm := { n with bad := n.bad.filter fun g => !pages.contains g }

/-- A directory changes: the working copy and, with the next DR_SEQ, the older of its pages (14 R347, R352). -/
def Nvm.putDir (n : Nvm) (i : Island) (d : SlotDir) : Nvm :=
  let r := n.dirRecs.at i
  { n.wrote [if r.second then (dirPages i).2 else (dirPages i).1] with dirs := n.dirs.put i d, dirRecs := n.dirRecs.put i (r.put d) }

/-- A signature counter is stored: of the OEM key for `oem`, else of the vendor root key (12 R304). -/
def Nvm.putCounter (n : Nvm) (oem : Bool) (ctr : Nat) : Nvm :=
  let v := if oem then (n.ctrVendor, ctr) else (ctr, n.ctrOem)
  { n.wrote [if n.ctrRecs.second then ctrPages.2 else ctrPages.1] with ctrVendor := v.1, ctrOem := v.2, ctrRecs := n.ctrRecs.put v }

/-- The grant table is saved (12 R306). -/
def Nvm.putGrants (n : Nvm) (g : List (BitVec 12 × BitVec 16)) : Nvm :=
  { n.wrote [if n.grantRecs.second then grantPages.2 else grantPages.1] with grants := g, grantRecs := n.grantRecs.put g }

/-- Which of two pages can be read: one that holds wrong bits has no correct CRC. -/
def Nvm.loadRec {α : Type} (n : Nvm) (r : Alternate α) (p : Nat × Nat) : Option α :=
  r.load (!n.bad.contains p.1) (!n.bad.contains p.2)

/-- What AON finds in the identity partition at its power-up (14 R347); an activation is pending no more (notes/assumptions/64). DESIGN
CHOICE (notes/assumptions/97): where neither page can be read the directory, counters or grants stay as they were. -/
def Nvm.loadIdentity (n : Nvm) : Nvm :=
  let dir (i : Island) : SlotDir := (n.loadRec (n.dirRecs.at i) (dirPages i)).getD (n.dirs.at i)
  let off (i : Island) : SlotDir := { dir i with actTick := none }
  let c := (n.loadRec n.ctrRecs ctrPages).getD (n.ctrVendor, n.ctrOem)
  { n with
    dirs := ⟨off .mgmt, off .loop, off .meas, off .aon⟩, ctrVendor := c.1, ctrOem := c.2
    grants := (n.loadRec n.grantRecs grantPages).getD n.grants }

/-- The bytes of DR_SLOT_A or DR_SLOT_B, and codes of slot states (14 Table 14-6). -/
def SlotState.code : SlotState → Nat
  | .empty => 0
  | .writing => 1
  | .ready => 2
  | .trial => 3
  | .committed => 4
  | .failed => 5
def SlotInfo.record (x : SlotInfo) : List Byte := padTo 32 x.digest ++ leBytes 4 x.version ++ leBytes 1 x.arith ++ zeros 3

/-- A slot directory's page (14 Table 14-6): `code` is the island's. -/
def SlotDir.record (d : SlotDir) (code seq : Nat) : List Byte :=
  let bs := leBytes 2 seq ++ leBytes 1 code ++ leBytes 1 d.activeB.toNat ++ leBytes 1 d.a.st.code ++ leBytes 1 d.b.st.code ++ zeros 2 ++
    leBytes 6 (d.actTick.getD 0) ++ zeros 2 ++ d.a.record ++ d.b.record ++ zeros 156
  bs ++ leBytes 4 (crc32 bs)

/-- A saved table's page (14 Table 14-7). -/
def tableRecord (c seq : Nat) (t : List Byte) : List Byte :=
  let bs := padTo 112 t ++ leBytes 4 seq ++ leBytes 1 c ++ zeros 135
  bs ++ leBytes 4 (crc32 bs)

/-- The log partition takes an entry: one page each, page after page around all of its 512 (01 R13, notes/assumptions/90). -/
def Nvm.logFault (n : Nvm) (e : LogEntry) : Nvm :=
  { n.wrote [NvmArea.logs.first + n.histNext] with
    history := ((n.histNext, e) :: n.history).take NvmArea.logs.pages, histNext := (n.histNext + 1) % NvmArea.logs.pages }

/-- A byte of the reserved area reads as zero (01 Table 1-3). -/
def Nvm.reservedByte (_ : Nvm) (_ : Nat) : Byte := 0

/-! ## Observation -/

/-- The observation counters, in the order of 15 Table 15-8. -/
inductive Ctr where
  | qdrop | qunbound | trigLost | blankDeferrals | roundResync | sarErr | calReject | sxNocmp | sxFail | rangeChg
  | linSat | energyDefer | fltCorr | fltConseq | fltLogLost | updRevert | ownViol | spiCrcErr | spiFrameErr
  | mbTimeout | cmdDone | trcDrop | energyNoqualL | falseSyncL | captureAbortL | rxOkL | rxCrcFailL | rxAbandonL
  | energyNoqualS | falseSyncS | captureAbortS | rxOkS | rxCrcFailS | rxAbandonS | txPktL | txPktS | txLowcur
  | frameBad | fabRxfull | pubSkip | bcnLate | sessBusy | fwdNobearing | fwdHops | fwdQfull | timeSet | fskOctets
  | fskDrops
  deriving DecidableEq, Repr

/-- A trace message on its way to the formatter (15 R373, R374): its type and its words. -/
structure TraceMsg where
  typ : Nat
  words : List Word32
  deriving DecidableEq, Repr

/-- Trace formatter and counters (15). -/
structure Obs where
  /-- The counters as they stand, and as they stood at the last two boundaries (15 R379). -/
  live : Vector Nat 48
  at1 : Vector Nat 48
  at2 : Vector Nat 48
  mask : Word32
  /-- A mask that is on its way to AON (15 R377). -/
  maskNext : Option Word32
  /-- The trace channels: at most the token that crosses at the next boundary and one in the outgoing register (01 R18). -/
  chan : Quad (List TraceMsg)
  /-- The messages consumed at the last boundary, which the FIFO takes in before the next slot. -/
  inbox : List TraceMsg
  /-- The 32-word FIFO, as whole messages. -/
  fifo : List (List Word32)
  /-- Words of the message being sent. -/
  sending : List Word32
  /-- The present slot carries no word (15 R372). -/
  slotFree : Bool
  /-- Messages lost since the last DROP, and what waits: a DROP, a SYNC (15 R375, R376). -/
  lost : Nat
  dropDue : Bool
  syncDue : Bool
  /-- Slots of the last SYNC and the last DROP. -/
  lastSync : Option Nat
  lastDrop : Option Nat
  /-- Trace is on (15 R376). -/
  on : Bool
  deriving DecidableEq, Repr

def Obs.reset : Obs :=
  { live := Vector.replicate 48 0, at1 := Vector.replicate 48 0, at2 := Vector.replicate 48 0,
    mask := 0x0000061E, maskNext := none, chan := Quad.all [], inbox := [], fifo := [], sending := [], slotFree := true, lost := 0, dropDue := false,
    syncDue := false, lastSync := none, lastDrop := none, on := false }

end Sys2Proof.Machine
end

