-- ==== Sys2Proof/Machine/State.lean ====
section
/-! DEFINITION. The state of the Q20: every register, queue, counter, pin and mode that the spec gives the device, the queue
of waiting steps, and the reasons a step can stop. -/

namespace Sys2Proof.Machine

open Sys2Proof

/-- Why a step could fault. The spec turns every wrong input of this device into a status, a report or a discarded write, so
no meaning raises a fault. -/
inductive Fault where
  /-- Raised by no step. Safe: a machine that never raises it loses no behaviour. -/
  | noneRaised
  deriving DecidableEq, Repr

/-- Why a step could be refused. -/
inductive Refusal where
  /-- Raised by an arm of exec whose step has no meaning yet. Safe: the machine stops where the device goes on. -/
  | notModelled (mnemonic : String)
  deriving DecidableEq, Repr

/-- The device. -/
structure State where
  /-- Steps that wait, first in, first out (the model's own). -/
  pending : List Instr
  /-- Free values drawn so far (the model's own; see Config.freeBits). -/
  free : Nat
  clock : Clock
  pins : Pins
  energy : Energy
  meas : Meas
  loop : LoopOut
  win : Window
  mgmt : Mgmt
  isl : Quad Isl
  /-- READY of the SPI status byte: MGMT runs its verified image and takes posts (11 Table 11-4, R286; 03 Table 3-10). -/
  ready : Bool
  boot : Boot
  faults : Faults
  ports : Pair PortSt
  /-- Codewords that wait for the one decoder, first ready first (09 R222). -/
  decoder : List CodeJob
  /-- The tick at which the decoder is free (09 R223). -/
  decFree : Nat
  /-- The tick at which the DSP core is free (09 R223). -/
  dspFree : Nat
  fsk : Fsk
  fab : Fabric
  nvm : Nvm
  obs : Obs
  deriving DecidableEq, Repr

/-- The device before the supply rises: AON unpowered, every field at the value of an AON power-on reset. -/
def State.reset : State :=
  { pending := [], free := 0, clock := Clock.reset, pins := Pins.reset, energy := Energy.reset, meas := Meas.reset,
    loop := LoopOut.reset, win := Window.reset, mgmt := Mgmt.reset,
    isl := ⟨Isl.down0, Isl.down0, Isl.down0, Isl.down0⟩, ready := false, boot := .off, faults := Faults.reset,
    ports := ⟨PortSt.reset, PortSt.reset⟩, decoder := [], decFree := 0, dspFree := 0, fsk := Fsk.reset, fab := Fabric.reset, nvm := Nvm.reset,
    obs := Obs.reset }

end Sys2Proof.Machine
end

