-- ==== Sys2Proof/Machine/Flags.lean ====
section
/-! DEFINITION. Status words and flags: the energy register (03 Table 3-8), the reserve (03 R53), the identity and status
block (11 Table 11-7), the SPI status byte (11 Table 11-4) and HIRQ_N (11 R285). -/

namespace Sys2Proof.Machine

open Sys2Proof

/-- The tick that the last boundary began, counted from power-up. -/
def State.now (s : State) : Nat := s.clock.tick

/-- Bit `n` of a number as 0 or 1. -/
def b2n (b : Bool) : Nat := if b then 1 else 0

/-- The code of a season (03 Table 3-8). -/
def Season.code : Season → Nat
  | .summer => 0
  | .autumn => 1
  | .winter => 2
  | .spring => 3

/-- The SRC_ID of an island (11 Table 11-11). -/
def srcOf : Island → Byte
  | .mgmt => 0x10
  | .loop => 0x20
  | .meas => 0x30
  | .aon => 0x40

/-- The island of a SRC_ID. -/
def islandOf (b : Nat) : Option Island :=
  if b = 0x10 then some .mgmt
  else if b = 0x20 then some .loop
  else if b = 0x30 then some .meas
  else if b = 0x40 then some .aon
  else none

/-- reserve_uj of 03 R53. -/
def reserveUj (cUf vMv floorMv : Nat) : Nat :=
  if vMv ≤ floorMv then 0 else cUf * (vMv * vMv - floorMv * floorMv) / 2000000

/-- Declared costs of the admitted commands still running, with an admitted boost (03 R57). -/
def Energy.reservedUj (e : Energy) : Nat := (e.reserved.map (·.2)).sum

/-- The averaged reserve above 11 V, less the outstanding reservations, in uJ (03 R53, Table 3-8). -/
def State.reserveLeft (s : State) : Nat :=
  reserveUj s.mgmt.inForce.resvCap s.energy.resAvg 11000 - s.energy.reservedUj

/-- RESERVE of the energy register, in units of 10 uJ (03 Table 3-8). -/
def State.reserveField (s : State) : Nat := min (s.reserveLeft / 10) 65535

/-- The energy register as the state gives it now (03 Table 3-8). -/
def State.energyWord (s : State) : Word32 :=
  BitVec.ofNat 32 (s.energy.season.code + 4 * b2n s.energy.aux + 8 * b2n s.energy.charging +
    16 * b2n (decide (s.energy.resAvg ≤ 9000)) + 32 * s.energy.freq + 256 * min (s.energy.resAvg / 100) 255 +
    65536 * s.reserveField)

/-- The registers of 0x4318 are updated at each evaluation boundary and at each season change (03 R56). -/
def State.updateRegister (s : State) : State := { s with energy := { s.energy with register := s.energyWord } }

/-- Whether a CONT fault is unacknowledged (11 Table 11-7). -/
def Faults.contOpen (f : Faults) : Bool := f.opens.any fun o => o.cls == 1 && !o.acked

/-- LAST_DET and LAST_CLASS: those of the newest log entry, zero with an empty log (11 Table 11-7). -/
def Faults.last (f : Faults) : Nat × Nat :=
  match f.log with
  | [] => (0, 0)
  | e :: _ => (e.det.toNat, e.cls % 4)

/-- The fault summary at 0x431C (11 Table 11-7). -/
def State.faultSummary (s : State) : Word32 :=
  BitVec.ofNat 32 (b2n s.pins.faultLow + 2 * b2n s.faults.contOpen + 4 * b2n s.faults.fatalSeen +
    256 * s.faults.last.1 + 16384 * s.faults.last.2 + 65536 * s.faults.log.length)

/-- The entries that have reached the direct read port (11 R273). -/
def State.qReady (s : State) : List QEntry := s.meas.queue.filter fun e => decide (e.commit < s.now)

/-- Q_OCC (11 Table 11-7). -/
def State.qOcc (s : State) : Nat := s.qReady.length

/-- The status word at 0x4320 (11 Table 11-7). -/
def State.statusWord (s : State) : Word32 :=
  BitVec.ofNat 32 (b2n s.meas.qovf + 2 * b2n s.fab.dup + 4 * b2n s.fab.locked + 8 * b2n s.isl.mgmt.up +
    16 * b2n s.isl.loop.up + 32 * b2n s.isl.meas.up + 64 * s.pins.gpioIn.toNat)

/-- HIRQ_N is low (11 R285). -/
def Window.irq (w : Window) : Bool := (w.db &&& w.dbMask) != 0

/-- HIRQ_N is asserted: the pin is released until MGMT has started and while RST_N is low (02 R31, 11 R285). -/
def State.hirqLow (s : State) : Bool := s.win.irq && s.pins.started.mgmt && !s.pins.inReset

/-- The SPI status byte (11 Table 11-4). -/
def State.spiStatusByte (s : State) : Byte :=
  let t := s.win.status
  BitVec.ofNat 8 (b2n t.prevOk + 2 * b2n t.crcErr + 4 * b2n t.addrRsvd + 8 * b2n t.ownErr + 16 * b2n t.postErr +
    32 * b2n t.frameErr + 64 * b2n s.hirqLow + 128 * b2n s.ready)

/-- Code of a buffer owner (11 Table 11-8). -/
def Own.code : Own → Nat
  | .free => 0
  | .host => 1
  | .device => 2

/-- The ownership word (11 Table 11-8). -/
def OwnWord.word (o : OwnWord) : Word32 := BitVec.ofNat 32 (o.own.code + 4 * o.gen.toNat + 256 * o.last.toNat)

/-- ACK of a mailbox (11 Table 11-12). -/
def Mailbox.ackWord (m : Mailbox) : Word32 :=
  BitVec.ofNat 32 (b2n m.done + 256 * m.rcode.toNat + 65536 * m.ackSrc.toNat)

/-- STAT of a mailbox (11 Table 11-12). -/
def Mailbox.statWord (m : Mailbox) : Word32 :=
  BitVec.ofNat 32 (b2n m.pending + 2 * b2n m.held + 4 * b2n m.timeout + 8 * b2n m.cross + 16 * b2n m.busy +
    256 * m.posts.toNat)

/-- NB_BUF, NB_LEN, NB_SRC, NB_OPHINT and NB_TAG of a notice (11 Table 11-11). -/
def nbBuf (n : Word64) : Nat := n.toNat % 64
def nbLen (n : Word64) : Nat := n.toNat / 256 % 512
def nbSrc (n : Word64) : Nat := n.toNat / 16777216 % 256
def nbHint (n : Word64) : Nat := n.toNat / 4294967296 % 65536
def nbTag (n : Word64) : Nat := n.toNat / 281474976710656 % 256

/-- A notice (11 Table 11-11). -/
def mkNotice (buf len src hint tag : Nat) : Word64 :=
  BitVec.ofNat 64 (buf % 64 + 256 * (len % 512) + 16777216 * (src % 256) + 4294967296 * (hint % 65536) +
    281474976710656 * (tag % 256))

/-- Whether the island is running and can take a request (11 R286, 13 R329). -/
def State.upAt (s : State) (i : Island) : Bool := (s.isl.at i).up && !(s.isl.at i).down

/-- Whether MGMT runs its firmware (11 R286). -/
def State.mgmtUp (s : State) : Bool := s.clock.powered && s.upAt .mgmt

/-- Whether LOOP runs its firmware. -/
def State.loopUp (s : State) : Bool := s.clock.powered && s.upAt .loop

/-- Whether MEAS runs its firmware. -/
def State.measUp (s : State) : Bool := s.clock.powered && s.upAt .meas

/-- Whether the fabric operates: the crystal supplies the reference and a modem port is enabled (01 R29, 09 R209). -/
def State.fabricOn (s : State) : Bool := s.loopUp && !s.clock.onInternal

/-- Whether the alarm in force stands at ALM_HI (08 Table 8-4, R396). -/
def State.alarmHi (s : State) : Bool :=
  let l := s.loop
  let hi := s.mgmt.inForce.almDirHigh
  if l.hwAlarm then hi else if l.auxAlarm then false else l.swAlarm && hi

/-- COMPLY and MISWIRE of the loop state word (08 R205, R206). -/
def LoopOut.complying (l : LoopOut) : Bool := match l.comply with
  | .comply _ => true
  | _ => false
def LoopOut.miswired (l : LoopOut) : Bool := match l.miswire with
  | .normal _ => false
  | _ => true

/-- The fold of 08 R206 is in force. -/
def LoopOut.isFolded (l : LoopOut) : Bool := match l.miswire with
  | .folded _ => true
  | _ => false

/-- A fixed current bypasses the user trim (08 R196). -/
def LoopOut.untrimmed (l : LoopOut) : Bool := match l.fixed with
  | some (_, u) => u
  | none => false

/-- The loop state word (08 Table 8-6). -/
def State.loopWord (s : State) : Nat :=
  let l := s.loop
  l.src + 16 * b2n s.alarmHi + 32 * b2n l.sat + 64 * b2n l.complying + 128 * b2n l.miswired + 256 * b2n l.holdLim +
    512 * b2n l.untrimmed + 1024 * b2n l.interrupted

/-- The low 27 bits of a count, as a queue entry carries it (01 Table 1-7, 06 Table 6-8). -/
def stamp27 (c : Count48) : Nat := c.toNat % 134217728

end Sys2Proof.Machine
end

