-- ==== Sys2Proof/Machine/Ops.lean ====
section
/-! DEFINITION. The named operations over memory, window buffers, ownership words, mailboxes, doorbells, counters, fault
reports, trace messages and free values. -/

namespace Sys2Proof.Machine

open Sys2Proof

/-! ## Memory: cells in canonical form -/

/-- The byte at an address; an unlisted address reads zero (notes/assumptions/4). -/
def cellRead : List Host.Cell → Nat → Byte
  | [], _ => 0
  | (a, v) :: l, k => if a = k then v else cellRead l k

/-- Write one byte and keep the form: addresses strictly rising, no cell equal to zero. -/
def cellWrite : List Host.Cell → Nat → Byte → List Host.Cell
  | [], k, v => if v = 0 then [] else [(k, v)]
  | (a, w) :: l, k, v =>
    if k < a then (if v = 0 then (a, w) :: l else (k, v) :: (a, w) :: l)
    else if k = a then (if v = 0 then l else (k, v) :: l)
    else (a, w) :: cellWrite l k v

/-- The canonical form: addresses strictly rising, no zero byte listed. -/
def Memory.wf (m : List Host.Cell) : Bool :=
  decide (m.Pairwise fun x y => x.1 < y.1) && m.all fun c => c.2 ≠ 0

/-- Write bytes at ascending addresses. -/
def cellsWrite : List Host.Cell → Nat → List Byte → List Host.Cell
  | m, _, [] => m
  | m, a, b :: bs => cellsWrite (cellWrite m a b) (a + 1) bs

/-- `n` bytes from an address. -/
def cellsRead (m : List Host.Cell) (a n : Nat) : List Byte := (List.range n).map fun i => cellRead m (a + i)

/-! ## Plain updates of the parts of State -/

def State.setWin (s : State) (w : Window) : State := { s with win := w }
def State.setMgmt (s : State) (m : Mgmt) : State := { s with mgmt := m }
def State.setMeas (s : State) (m : Meas) : State := { s with meas := m }
def State.setLoop (s : State) (l : LoopOut) : State := { s with loop := l }
def State.setFab (s : State) (f : Fabric) : State := { s with fab := f }
def State.setFaults (s : State) (f : Faults) : State := { s with faults := f }
def State.setEnergy (s : State) (e : Energy) : State := { s with energy := e }
def State.setObs (s : State) (o : Obs) : State := { s with obs := o }
def State.setNvm (s : State) (n : Nvm) : State := { s with nvm := n }
def State.setPort (s : State) (p : Port) (x : PortSt) : State := { s with ports := s.ports.put p x }
def State.setIsl (s : State) (i : Island) (x : Isl) : State := { s with isl := s.isl.put i x }
def State.setPins (s : State) (p : Pins) : State := { s with pins := p }

/-- Draw a fresh free value of `w` bits (State.free is the count). -/
def State.draw (s : State) (w : Nat) : BitVec w × State := (Config.freeBits w s.free, { s with free := s.free + 1 })

/-! ## Observation counters (15 R379) -/

/-- The number of a counter in 15 Table 15-8. -/
def Ctr.idx : Ctr → Nat
  | .qdrop => 0 | .qunbound => 1 | .trigLost => 2 | .blankDeferrals => 3 | .roundResync => 4 | .sarErr => 5
  | .calReject => 6 | .sxNocmp => 7 | .sxFail => 8 | .rangeChg => 9 | .linSat => 10 | .energyDefer => 11
  | .fltCorr => 12 | .fltConseq => 13 | .fltLogLost => 14 | .updRevert => 15 | .ownViol => 16 | .spiCrcErr => 17
  | .spiFrameErr => 18 | .mbTimeout => 19 | .cmdDone => 20 | .trcDrop => 21 | .energyNoqualL => 22 | .falseSyncL => 23
  | .captureAbortL => 24 | .rxOkL => 25 | .rxCrcFailL => 26 | .rxAbandonL => 27 | .energyNoqualS => 28
  | .falseSyncS => 29 | .captureAbortS => 30 | .rxOkS => 31 | .rxCrcFailS => 32 | .rxAbandonS => 33 | .txPktL => 34
  | .txPktS => 35 | .txLowcur => 36 | .frameBad => 37 | .fabRxfull => 38 | .pubSkip => 39 | .bcnLate => 40
  | .sessBusy => 41 | .fwdNobearing => 42 | .fwdHops => 43 | .fwdQfull => 44 | .timeSet => 45 | .fskOctets => 46
  | .fskDrops => 47

/-- The counters whose events are AON's (15 R379): fault records, trial reverts and trace. -/
def aonCounter (n : Nat) : Bool := n = 12 || n = 13 || n = 14 || n = 15 || n = 21

/-- Count `n` events; a counter stays at 0xFFFFFFFF (15 R379). -/
def Obs.count (o : Obs) (c : Ctr) (n : Nat) : Obs :=
  { o with live := o.live.setIfInBounds c.idx (min (o.live.getD c.idx 0 + n) 0xFFFFFFFF) }

/-- Count `n` events. -/
def State.countN (s : State) (c : Ctr) (n : Nat) : State := s.setObs (s.obs.count c n)

/-- Count one event. -/
def State.count (s : State) (c : Ctr) : State := s.countN c 1

/-- What a capture at the last boundary holds for a counter (11 R272, 15 R379). -/
def Obs.capture (o : Obs) (n : Nat) : Nat := if aonCounter n then o.at1.getD n 0 else o.at2.getD n 0

/-! ## Trace messages (15 R372 to R374) -/

/-- The first word of a message (15 Table 15-5). -/
def traceHead (typ len : Nat) (stamp : Count48) (hdr : Nat) : Word32 :=
  BitVec.ofNat 32 (typ % 16 * 268435456 + (len - 1) % 4 * 67108864 + stamp.toNat % 1024 * 65536 + hdr % 65536)

/-- Count a lost message of an enabled class (15 R374, R376). -/
def State.traceLost (s : State) (typ : Nat) : State :=
  if (s.obs.mask.getLsbD typ) then
    (s.setObs { s.obs with lost := s.obs.lost + 1, dropDue := true }).count .trcDrop
  else s

/-- An island posts a message on its trace channel: one token and one in the outgoing register; a third is lost
(15 R374, 01 R18). -/
def State.emit (s : State) (i : Island) (typ hdr : Nat) (more : List Nat) : State :=
  let q := s.obs.chan.at i
  let m : TraceMsg := ⟨typ, traceHead typ (more.length + 1) s.clock.meridian hdr :: more.map (BitVec.ofNat 32)⟩
  if q.length < 2 then s.setObs { s.obs with chan := s.obs.chan.put i (q ++ [m]) } else s.traceLost typ

/-- The ENERGY message (15 Table 15-6). -/
def State.emitEnergy (s : State) : State :=
  s.emit .aon 4 (s.energy.season.code + 4 * s.energy.freq + 16 * b2n s.energy.aux +
    32 * b2n (decide (s.energy.resAvg ≤ 9000)) + 256 * min (s.energy.resAvg / 100) 255) []

/-- The ISLAND message: event 0 reset asserted, 1 released, 2 UP, 3 shadow end, 4 TRIAL, 5 commit, 6 revert. -/
def State.emitIsland (s : State) (i : Island) (ev : Nat) : State := s.emit .aon 0xA ((srcOf i).toNat + 256 * ev) []

/-- The MAILBOX message (15 Table 15-6). -/
def State.emitMailbox (s : State) (mb : Nat) (ack held refused : Bool) (src : Nat) (n : Word64) (code : Nat) : State :=
  s.emit .mgmt 7 (mb + 8 * b2n ack + 16 * b2n held + 32 * b2n refused + 256 * src)
    [nbBuf n + 256 * (if ack then code else nbTag n) + 65536 * nbHint n]

/-- The COMMAND message (15 Table 15-6): start or completion. -/
def State.emitCommand (s : State) (completion : Bool) (src op tag status : Nat) : State :=
  s.emit .mgmt 8 (b2n completion + 256 * src) [op + 65536 * tag + 16777216 * (status % 256)]

/-- The APPLY message (15 Table 15-6): 0 measurement, 1 loop, 2 modem or fabric, 3 table swap. -/
def State.emitApply (s : State) (i : Island) (kind round : Nat) : State := s.emit i 9 kind [round]

/-- The SEQUENCE message (15 Table 15-6). -/
def State.emitSeq (s : State) (q ev : Nat) : State := s.emit .meas 0xD (q + 4 * ev) []

/-- The SLICE message (15 Table 15-6). -/
def State.emitSlice (s : State) (sl ev : Nat) (w : Int) : State := s.emit .meas 0xE (sl + 4 * ev) [unsignedOf 32 w]

/-- The RESULT message (15 Table 15-6). -/
def State.emitResult (s : State) (e : QEntry) (dropped : Bool) : State :=
  s.emit .meas 6 (e.tags.toNat + 256 * e.chan.toNat + 8192 * b2n dropped) [e.value.toNat, stamp27 e.stamp]

/-! ## Doorbells (11 R285) -/

/-- Set a bit of HOST_DB. -/
def State.ring (s : State) (bit : Nat) : State := s.setWin { s.win with db := s.win.db ||| BitVec.twoPow 32 bit }

/-! ## Fault reports (13 R314) -/

/-- The detectors in AON: watchdogs, clock, supply and temperature monitors, compliance, mis-wiring (13 R314). -/
def aonDet (d : Nat) : Bool := (0x10 ≤ d && d ≤ 0x1C) || d == 0x23 || d == 0x24

/-- A detector posts a report (13 R314). -/
def State.report (s : State) (det cause : Nat) (isl : Byte) : State :=
  s.setFaults { s.faults with reports := s.faults.reports ++
    [{ det := BitVec.ofNat 6 det, cause := BitVec.ofNat 16 cause, island := isl, inj := false, real := false, atLeast := 0,
       posted := s.now, stamp := s.clock.meridian, aon := aonDet det }] }

/-! ## Buffers and ownership words (11 R274 to R277) -/

/-- The ownership word of a buffer. -/
def Window.ownAt (w : Window) (n : Nat) : OwnWord := w.own.getD n OwnWord.reset

/-- Change the owner: GEN advances, LAST_SRC records the party (11 R274). -/
def Window.setOwner (w : Window) (n : Nat) (o : Own) (src : Byte) : Window :=
  { w with own := w.own.setIfInBounds n ⟨o, (w.ownAt n).gen + 1, src⟩ }

/-- Change the owner of a buffer. -/
def State.setOwner (s : State) (n : Nat) (o : Own) (src : Byte) : State := s.setWin (s.win.setOwner n o src)

/-- The first address of a buffer (11 Table 11-6). -/
def bufAddr (n : Nat) : Nat := n * 256

/-- `len` bytes of a buffer. -/
def State.bufRead (s : State) (n len : Nat) : List Byte := cellsRead s.win.mem (bufAddr n) len

/-- Write bytes at an address of the window. -/
def State.winWrite (s : State) (a : Nat) (bs : List Byte) : State :=
  s.setWin { s.win with mem := cellsWrite s.win.mem a bs }

/-- A write by an island into a buffer: carried out when the device owns it, else discarded, counted and reported
(11 R277). -/
def State.devWrite (s : State) (n : Nat) (bs : List Byte) (writer : Byte) : State :=
  if (s.win.ownAt n).own = .device then s.winWrite (bufAddr n) bs
  else (s.count .ownViol).report 0x1E writer.toNat writer

/-! ## Mailboxes (11 R280 to R290) -/

/-- A mailbox. -/
def Window.mbAt (w : Window) (k : Nat) : Mailbox := w.mb.getD k Mailbox.reset

/-- Replace a mailbox. -/
def Window.setMb (w : Window) (k : Nat) (m : Mailbox) : Window := { w with mb := w.mb.setIfInBounds k m }

/-- A notice that its receiver has not taken and can still take. -/
def Mailbox.untaken (m : Mailbox) : Bool := m.pending && m.ack.isNone && !m.lost

/-- A notice that its sender finds unacknowledged (11 R289): none has been written, or it was lost on its way. -/
def Mailbox.unanswered (m : Mailbox) : Bool := m.pending && (m.ack.isNone || m.lost)

/-- The pair of a mailbox, and its other mailbox (11 R290). -/
def mbMate (k : Nat) : Nat := if k % 2 = 0 then k + 1 else k - 1

/-- A post changes PENDING: both mailboxes of a pair pending starts the count of 11 R290. -/
def Window.noteCross (w : Window) (k now : Nat) : Window :=
  let p := k / 2
  if (w.mbAt k).pending && (w.mbAt (mbMate k)).pending then
    { w with crossSince := w.crossSince.set p (match w.crossSince.getD p none with
        | some t => some t
        | none => some now) }
  else { w with crossSince := w.crossSince.set p none, crossRaised := w.crossRaised.set p false }

/-- The sender of a mailbox; `none` for the local host (01 Table 1-4, 11 R286, R287). -/
def mbFrom (k : Nat) : Option Island :=
  if k = 0 then none else if k = 2 then some .loop else if k = 5 then some .meas else if k = 6 then some .aon else some .mgmt

/-- The receiver of a mailbox; `none` for the local host. -/
def mbTo (k : Nat) : Option Island :=
  if k = 1 then none else if k = 3 then some .loop else if k = 4 then some .meas else if k = 7 then some .aon else some .mgmt

/-- Set or clear a bit of an internal endpoint's doorbell (11 R285). The bits are the vendor firmware's affair; the model's are
bit k for a notice on MBk and bit 8 + k for its acknowledge (notes/assumptions/75). -/
def Window.dbSet (w : Window) (i : Option Island) (bit : Nat) (on : Bool) : Window :=
  match i with
  | none => w
  | some i =>
    let d := w.idb.at i
    { w with idb := w.idb.put i (if on then d ||| BitVec.twoPow 32 bit else d &&& ~~~ BitVec.twoPow 32 bit) }

/-- A post that the mailbox accepts: the notice, PENDING, POSTS and the receiver's doorbell (11 R282, R285). -/
def State.postMb (s : State) (k : Nat) (n : Word64) (held : Bool) (r : Req := .packet) : State :=
  let m := s.win.mbAt k
  let m' := { m with
    notice := n, req := r, pending := true, held := held, posts := m.posts + 1, since := s.now, ack := none, lost := false }
  let w := (((s.win.setMb k m').noteCross k s.now).dbSet (mbFrom k) (8 + k) false).dbSet (mbTo k) k true
  (s.setWin w).emitMailbox k false held false (nbSrc n) n 0

/-- MGMT has work (03 R394): a notice waits in its queue, in MB0 or in MB2, an island's event ends a command, a fault interrupt
or a restart step waits. A command that this model runs takes no time of its own. -/
def State.mgmtWork (s : State) : Bool :=
  let waits (k : Nat) : Bool := (s.win.mbAt k).untaken
  !s.mgmt.queue.isEmpty || waits 0 || waits 2 || (s.mgmt.outst.any fun o => o.done.isSome) || s.mgmt.attest.isSome ||
  (s.faults.opens.any fun o => !o.host && !o.acked) || s.upAt .mgmt && !s.ready

/-- MGMT is down for 11 R286, or idle with its clock gated: a post to it is held. -/
def State.mgmtAsleep (s : State) : Bool := !s.ready || !s.mgmtWork

/-- The notice of a request between islands (11 Table 11-11). -/
def reqNotice (k op : Nat) (r : Req) : Word64 :=
  let src := ((mbFrom k).map srcOf).getD 0x01
  match r with
  | .reply r => mkNotice r.buf.toNat r.bytes.length src.toNat (leAt r.bytes 0 2) (leAt r.bytes 2 1)
  | _ => mkNotice 0 0 src.toNat op 0

/-- Whether an internal mailbox takes a post: its receiver runs, or it is MB6, which holds one (11 R286, R287). -/
def State.reqUp (s : State) (k : Nat) : Bool :=
  match mbTo k with
  | some i => s.upAt i || k == 6
  | none => true

/-- An island posts a request on an internal mailbox. A post to an island that is down fails, but for AON's on MB6 (11 R286,
R287); one that meets a pending notice waits in the sender's outgoing register (01 R18). -/
def State.postReq (s : State) (k op : Nat) (r : Req) : State :=
  if !s.reqUp k then s
  else if (s.win.mbAt k).pending || s.win.posts.any (·.1 == k) then
    s.setWin { s.win with posts := s.win.posts ++ [(k, reqNotice k op r, r)] }
  else s.postMb k (reqNotice k op r) (k == 6 && s.mgmtAsleep) r

/-- The M16 command that is carried out as a native one (12 R313). -/
def m16Twin (op : Nat) : Nat :=
  if op = 0x0201 then 0x0F10 else if op = 0x0202 then 0x0F11 else if op = 0x0203 then 0x0F12
  else if op = 0x0401 then 0x0F30 else if op = 0x0402 then 0x0F31 else op

/-- The native opcode of the outstanding command that a request between islands serves (12 R299). -/
def Req.native : Req → Option Nat
  | .fix _ _ => some 0x0401
  | .release => some 0x0402
  | .fskPass _ => some 0x0508
  | .seqs op _ => some op
  | .retire _ _ => some 0x0205
  | .restore _ => some 0x0206
  | .swap _ _ _ => some 0x0302
  | .resetIsland _ => some 0x0003
  | .activate _ => some 0x0706
  | _ => none

/-- An outstanding command whose request no island has taken yet, of a native opcode or its M16 twin (12 R300, R313). -/
def Outst.waitsFor (o : Outst) (op : Nat) : Bool := (o.op == op || o.op == m16Twin op) && o.got.isNone && o.done.isNone

/-- The first command that waits for a request's receiver ends with a status. -/
def Mgmt.failFirst (m : Mgmt) (op status : Nat) : Mgmt :=
  match m.outst.findIdx? (·.waitsFor op) with
  | none => m
  | some i => { m with outst := m.outst.modify i fun o => { o with done := some (status, []) } }

/-- A post out of an outgoing register meets an island that is down (11 R287, R288): a fabric reply is kept and posted again, and the
command that any other request serves ends with ST_ISLAND_DOWN (12 R300). -/
def State.failPost (s : State) (r : Req) : State :=
  match r with
  | .reply x => s.setFab { s.fab with mb3Wait := s.fab.mb3Wait ++ [x] }
  | r => match r.native with
    | some op => s.setMgmt (s.mgmt.failFirst op 0x0030)
    | none => s

/-- The first waiting post of a mailbox enters it once it is free; it counts as made in this tick (01 R18). Posts to an island that is
down by then fail (11 R287). -/
def State.postWaiting (s : State) (k : Nat) : State :=
  if (s.win.mbAt k).pending then s
  else if !s.reqUp k then
    ((s.win.posts.filter (·.1 == k)).map (·.2.2)).foldl State.failPost
      (s.setWin { s.win with posts := s.win.posts.filter (·.1 != k) })
  else match s.win.posts.find? (·.1 == k) with
    | none => s
    | some e =>
      (s.setWin { s.win with posts := s.win.posts.eraseP (·.1 == k) }).postMb k e.2.1 (k == 6 && s.mgmtAsleep) e.2.2

/-- The requests on their way to an island: in its mailbox and not taken, or in the outgoing register. -/
def Window.coming (w : Window) (k : Nat) : List Req :=
  (if (w.mbAt k).untaken then [(w.mbAt k).req] else []) ++ (w.posts.filter fun e => e.1 == k).map fun e => e.2.2

/-- Whether such a request is on its way. -/
def Window.onWay (w : Window) (k : Nat) (p : Req → Bool) : Bool := (w.coming k).any p

/-- A list without the `n`-th element of those that pass a test. -/
def dropNth {α : Type} (p : α → Bool) : Nat → List α → List α
  | _, [] => []
  | n, x :: xs => if p x then (match n with
      | 0 => xs
      | n + 1 => x :: dropNth p n xs) else x :: dropNth p n xs

/-- A partner session by its NB_SRC (11 Table 11-11). -/
def sessionOf (src : Byte) : Option Nat := if 0x80 ≤ src.toNat ∧ src.toNat ≤ 0x8F then some (src.toNat - 0x80) else none

/-- One partner session. -/
def Fabric.sess (f : Fabric) (n : Nat) : Session := f.sessions.getD n Session.reset

/-- Replace a session. -/
def Fabric.setSess (f : Fabric) (n : Nat) (x : Session) : Fabric := { f with sessions := f.sessions.setIfInBounds n x }

/-- An acknowledge takes effect for the sender: DONE, RCODE, ACK_SRC and PENDING change and its doorbell rings together
(11 R281). -/
def State.ackEffect (s : State) (k : Nat) (code src : Byte) : State :=
  let m := s.win.mbAt k
  let m' := { m with
    done := true, rcode := code, ackSrc := src, pending := false, held := false, ack := none, lost := false }
  let s := s.setWin (((s.win.setMb k m').noteCross k s.now).dbSet (mbFrom k) (8 + k) true)
  let s := if k = 0 then s.ring 1 else s
  s.emitMailbox k true false false src.toNat m.notice code.toNat

/-- The receiver takes a notice and writes its acknowledge, which takes effect at the next boundary (11 R281, R285). -/
def State.takeReq (s : State) (k : Nat) (code : Byte) : State :=
  let src := ((mbTo k).map srcOf).getD 0x01
  s.setWin ((s.win.setMb k { s.win.mbAt k with held := false, ack := some (code, src, s.now) }).dbSet (mbTo k) k false)

/-- The notice of a mailbox is withdrawn (11 R289). -/
def State.withdraw (s : State) (k : Nat) : State :=
  let m := s.win.mbAt k
  s.setWin ((s.win.setMb k { m with pending := false, held := false, ack := none, lost := false }).noteCross k s.now)

/-- The `n`-th request of a native opcode that no island has taken is withdrawn from its mailbox or outgoing register: its command has
ended, and takes no effect (00 R3, 12 R300). -/
def State.withdrawReq (s : State) (op n : Nat) : State :=
  let mine (r : Req) : Bool := r.native == some op
  let k := if op = 0x0003 ∨ op = 0x0706 then 7 else if op / 256 = 2 ∨ op / 256 = 3 then 4 else 3
  let m := s.win.mbAt k
  let here := m.unanswered && mine m.req
  if here ∧ n = 0 then
    let t := s.withdraw k
    t.setWin (t.win.dbSet (mbTo k) k false)
  else s.setWin { s.win with posts := dropNth (fun e => e.1 == k && mine e.2.2) (n - b2n here) s.win.posts }

end Sys2Proof.Machine
end

