-- ==== Sys2Proof/Machine/Restart.lean ====
section
/-! DEFINITION. Putting an island into reset (01 R11, 13 R322, R329): its fence, its shadow, and what of its own state is
lost; and which detectors a shadow covers (13 R330). -/

namespace Sys2Proof.Machine

open Sys2Proof

/-- The island that a detector watches; a cause decides for IMAGE and WINDOW_OWN (13 Table 13-2). -/
def watched (det cause : Nat) : Option Island :=
  if det = 0x00 ∨ det = 0x01 ∨ det = 0x08 ∨ det = 0x09 ∨ det = 0x0A ∨ det = 0x0E ∨ det = 0x13 ∨ det = 0x1A then some .mgmt
  else if det = 0x02 ∨ det = 0x03 ∨ det = 0x0B ∨ det = 0x12 ∨ det = 0x19 then some .loop
  else if det = 0x04 ∨ det = 0x05 ∨ det = 0x0C ∨ det = 0x11 ∨ det = 0x17 ∨ det = 0x18 ∨ det = 0x20 ∨ det = 0x21 ∨ det = 0x22
    then some .meas
  else if det = 0x1D ∨ det = 0x1E then islandOf cause
  else some .aon

/-- The islands at the two ends of a BUS_PAR report's transfer: the sender by detector, the receiver by cause (13 Table 13-2). -/
def busEnds (det cause : Nat) : List Island :=
  if 0x0A ≤ det ∧ det ≤ 0x0D then
    [if det = 0x0A then .mgmt else if det = 0x0B then .loop else if det = 0x0C then .meas else .aon] ++ (islandOf cause).toList
  else []

/-- The islands of a mailbox pair (11 R280, 01 Table 1-4). -/
def pairEnds (pair : Nat) : List Island :=
  if pair = 0 then [.mgmt] else if pair = 1 then [.loop, .mgmt] else if pair = 2 then [.mgmt, .meas] else [.aon, .mgmt]

/-- Whether a reset of an island shadows a report of this detector and cause (13 R330). The IMAGE of a restart is raised all the same: the
island stays down, so that its shadow would never end and the persisting fault would be lost (13 R331, R339; DEDUCED,
notes/assumptions/48). -/
def shadows (i : Island) (det cause : Nat) : Bool :=
  (det != 0x1D && watched det cause == some i) || (busEnds det cause).contains i || (det == 0x1F && (pairEnds cause).contains i)

/-- Whether an island's shadow lasts: from its reset until 64 ticks after UP (13 R330). -/
def Isl.shadowed (x : Isl) (now : Nat) : Bool := x.shadow && x.shadowEnd.all fun t => decide (now < t)

/-- The shadow that covers a report, as the ORIGIN that it gives; `none` when no shadow does (13 R330). -/
def State.shadowOf (s : State) (det cause : Nat) : Option Byte :=
  ([Island.meas, .loop, .mgmt, .aon].find? fun i => (s.isl.at i).shadowed s.now && shadows i det cause).map fun i => (s.isl.at i).origin

/-- What the preload store holds of the channels (07 R175, 13 R340). -/
def Meas.preloadNow (m : Meas) : Preload :=
  { m.preload with
    tables := m.tables.toList
    chans := m.chans.toList.map fun c => ⟨c.gain, c.sinceChg, c.zLast, c.zh, c.nh, c.lastBound⟩
    sxItem := m.sxItem }

/-- The round clock at a MEAS reset: a freeze or preamble ends, and positions count on from p_A (13 R340). -/
def Round.atReset (r : Round) : Round :=
  match r.freeze with
  | .frozen p => { r with freeze := .run, pos := p }
  | .preamble p _ => { r with freeze := .run, pos := p }
  | _ => r

/-- Posts that still wait in an island's outgoing registers are lost with it. -/
def Window.dropPosts (w : Window) (i : Island) : Window := { w with posts := w.posts.filter fun e => mbFrom e.1 ≠ some i }

/-- An outstanding command whose request an island's reset cuts short ends with ST_ISLAND_DOWN: a table swap (07 R172), an
FSK_PASS that LOOP has not sent, a fixed current or release that AON has not taken (notes/assumptions/78). -/
def Mgmt.cancel (m : Mgmt) (op : Nat) : Mgmt :=
  { m with outst := m.outst.map fun o => if o.op = op ∧ o.done = none then { o with done := some (0x0030, []) } else o }

/-- The commands of a fixed current that LOOP has taken, native and M16. -/
def Mgmt.cancelFix (m : Mgmt) : Mgmt :=
  { m with outst := m.outst.map fun o =>
      if (o.op = 0x0401 ∨ o.op = 0x0402 ∨ o.op = 0x0F30 ∨ o.op = 0x0F31) ∧ o.got.isSome ∧ o.done = none then
        { o with done := some (0x0030, []) }
      else o }

/-- DESIGN CHOICE (notes/assumptions/85): a qualification that a MEAS reset cuts short begins anew at a later round start; R118 does
not say what becomes of it. -/
def SliceJob.cut (j : SliceJob) : SliceJob :=
  match j with
  | .qualify sl _ => .restore sl 0
  | j => j

/-- MEAS goes down: tokens, windows and staged results are lost, switches open, excitation off, Sextant stops; the AON
preload store keeps what it holds (13 Table 13-5, R340). -/
def State.fenceMeas (s : State) : State :=
  let m := s.meas
  let coming := s.win.onWay 4 fun r => match r with
    | .swap _ _ _ => true
    | _ => false
  let s := if m.swap.isSome || coming then s.setMgmt (s.mgmt.cancel 0x0302) else s
  let s := (s.setPins { s.pins with exc := 0, excDrive := Vector.replicate 4 .off, brk := [] }).setWin (s.win.dropPosts .meas)
  s.setMeas { m with
    preload := m.preloadNow, round := m.round.atReset, taken := [], sampled := [], results := [], sxEntries := [],
    queue := [], qovf := false, qRing := none, sxWindow := none, swap := none, closingSeen := [], closeAt := none, dwell := [],
    sxDrive := .off, slices := m.slices.map fun x => { x with path := .opened, lastKind := none, power := .asleep }
    job := m.job.map SliceJob.cut }

/-- A port that is silent: what it receives or sends is lost, its noise floor stays (13 Table 13-5, R341). -/
def PortSt.silent (p : PortSt) : PortSt :=
  { p with
    rx := .idle, blkTick := none, blocks := [], strong := 0, taps := [], hdrLlr := [], llrs := [], syms := 0, hdr := none,
    bits := [], cwLeft := 0, paySyms := 0, quiet := none, idleSyms := 0, txReq := [], tx := none, txSyms := [], amp := 0,
    seg := none, clipLo := 0, clipHi := 0, dac := (0, 0), synthed := [] }

/-- The feeds that the record holds: the most recent 128 (08 R201). -/
def lastFeeds (fs : List Feed) : List Feed := fs.drop (fs.length - 128)

/-- A CMD whose notice a LOOP reset withdraws is not recorded as accepted (11 R289, 10 R249). -/
def State.unaccept (s : State) (w : Word64) : State :=
  match sessionOf (BitVec.ofNat 8 (nbSrc w)) with
  | none => s
  | some n => s.setFab (s.fab.setSess n { s.fab.sess n with running := false, seq := none, cur := none, due := none })

/-- What LOOP keeps in its own memory and does not mirror in AON: the FSK receive ring, the buffers to publish and their counts,
the CMDs that wait for MB2. It is lost with a reset; the buffers of those CMDs, whose notices nobody has acknowledged, are set FREE at UP,
and the window keeps the others (01 R11, 11 R279, R289; 13 R341; DESIGN CHOICE, notes/assumptions/92). -/
def State.forgetLoop (s : State) : State :=
  let bufs := s.fab.mb2Wait.map fun w => nbBuf w.1
  let s := s.fab.mb2Wait.foldl (fun s w => s.unaccept w.1) s
  { s with
    fsk := { s.fsk with
      cd := false, tx := none, send := [], sendEnd := none, muted := false, buf := none, octets := [], ring := 0, drops := 0
      bufDrops := 0 }
    fab := { s.fab with
      relay := none, sweep := [], fwd := ⟨[], []⟩, delivered := [], pubQueue := [], pubSeq := 0, pubDone := [none, none, none, none]
      mb2Wait := [], lost := s.fab.lost ++ bufs, sessions := s.fab.sessions.map fun x => { x with due := none } } }

/-- LOOP goes down: both ports silent, receptions and jobs lost, an update that AON has not yet taken lost; AON holds the
code and the feed record (08 R201, 13 Table 13-5, R341). -/
def State.fenceLoop (s : State) : State :=
  let lost : CodeEv → Bool := fun e => match e.act with
    | .update _ => decide (s.now + 3 ≤ e.at_)
    | _ => false
  let held (e : CodeEv) : Bool := match e.act with
    | .fix _ _ => decide (s.now + 3 ≤ e.at_)
    | .release => decide (s.now + 3 ≤ e.at_)
    | _ => false
  let feeds := (s.loop.sched.filter lost).filterMap fun e => match e.act with
    | .update u => some u.feed
    | _ => none
  let s := if s.fsk.tx.isSome then s.setMgmt (s.mgmt.cancel 0x0508) else s
  let s := if s.loop.sched.any held then s.setMgmt s.mgmt.cancelFix else s
  -- the last update of a replay that AON has taken brings the ones before it
  let stays := s.loop.sched.any fun e => !lost e && match e.act with
    | .update _ => true
    | _ => false
  let again := if stays then [] else s.loop.skipped.map (·.feed)
  let s := s.forgetLoop
  { s with
    win := s.win.dropPosts .loop
    ports := ⟨s.ports.loop.silent, s.ports.spur.silent⟩
    decoder := [], decFree := 0, dspFree := 0
    loop := { s.loop with
      feed := none, replaying := false, sched := s.loop.sched.filter (fun e => !lost e && !held e)
      skipped := if stays then s.loop.skipped else []
      todo := lastFeeds (again ++ feeds ++ s.loop.todo ++ s.loop.feed.toList) } }

/-- MGMT goes down: READY clears, a notice that MGMT has not taken is held, commands without a posted reply, assemblies,
kept results and the update session end, and the shadow copy returns to the committed one (11 R286, 12 R301 to R303,
14 R353). -/
def State.fenceMgmt (s : State) : State :=
  let hold (w : Window) (k : Nat) : Window :=
    let m := w.mbAt k
    if m.untaken then w.setMb k { m with held := true, since := s.now } else w
  { s with
    ready := false
    win := (hold (hold s.win 0) 6).dropPosts .mgmt
    energy := { s.energy with reserved := s.energy.reserved.filter fun e => 0x10000 ≤ e.1 }
    mgmt := { s.mgmt with
      queue := [], outst := [], replies := [], events := [], assemblies := [], kept := [], upd := none, attest := none
      verified := Quad.all false, shadow := s.mgmt.committed, streams := Vector.replicate 4 Stream.reset }
    fab := { s.fab with relayOut := [] } }

/-- The AON core goes down: trace stops, and its pins go low; AON hardware runs on (13 Table 13-5, 15 R376). -/
def State.fenceAon (s : State) : State :=
  ((s.setObs { s.obs with on := false }).setPins { s.pins with trcWord := 0, trcMark := false }).setWin (s.win.dropPosts .aon)

/-- An island's fence (13 Table 13-5). -/
def State.fence (s : State) : Island → State
  | .meas => s.fenceMeas
  | .loop => s.fenceLoop
  | .mgmt => s.fenceMgmt
  | .aon => s.fenceAon

/-- An island's reset asserts at the present boundary; an island that is already down neither restarts again nor lengthens
its shadow (13 R322). A fault reaction at the boundary of the island's activation gives the shadow its detector as ORIGIN (14 R358).
`stop` is a stop under R65, which no release follows by itself. -/
def State.assertReset (s : State) (i : Island) (origin : Byte) (stop : Bool) : State :=
  let x := s.isl.at i
  if x.down && !x.dead then
    (if x.actAt = some s.now ∧ x.resetAt = some s.now ∧ origin.toNat < 0x40 then s.setIsl i { x with origin := origin } else s)
  else
    let x' : Isl := { x with
      up := false, down := true, resetAt := if stop then none else some s.now, released := false, checked := false, stopped := stop, supply := stop,
      shadow := true, shadowEnd := none, origin := origin, dead := false,
      wdtFired := false }
    ((s.fence i).setIsl i x').emitIsland i 0

/-- A command asks for an island's reset; it asserts at the next boundary with the ORIGIN of a command (13 R329, R330). -/
def State.askReset (s : State) (i : Island) : State :=
  s.setFaults { s.faults with resetReq := s.faults.resetReq ++ [i] }

/-- The resets that commands asked for assert (13 R329). -/
def State.takeResets (s : State) : State :=
  s.faults.resetReq.foldl (fun s i => s.assertReset i 0xFE false) (s.setFaults { s.faults with resetReq := [] })

/-- The islands that FR_REACT resets (13 Table 13-4). -/
def reactIslands (react det cause : Nat) : List Island :=
  (if react % 2 = 1 then (watched det cause).toList else []) ++
  (if react / 2 % 2 = 1 then [.meas] else []) ++ (if react / 4 % 2 = 1 then [.loop] else []) ++
  (if react / 8 % 2 = 1 then [.mgmt] else []) ++ (if react / 16 % 2 = 1 then [.aon] else [])

/-- The resets of a reaction assert together (13 R322). -/
def State.carryResets (s : State) (react det cause : Nat) : State :=
  (reactIslands react det cause).foldl (fun s i => s.assertReset i (BitVec.ofNat 8 det) false) s

end Sys2Proof.Machine
end

