-- ==== Sys2Proof/Machine/Collector.lean ====
section
/-! DEFINITION. The fault collector (13): from checked accesses to reports, from reports to faults, classes, escalation, the
log, reactions and alarms. -/

namespace Sys2Proof.Machine

open Sys2Proof

/-- The class at which a detector's faults are handled before escalation; some causes fix it (13 R316, Table 13-2). -/
def State.classOf (s : State) (det cause : Nat) : Nat :=
  if det = 0x20 ∧ cause % 256 = 5 then 2
  else if det = 0x23 ∧ cause = 1 then 0
  else s.mgmt.inForce.frClass det

/-- FLAGS of a log entry (13 Table 13-7). -/
def LogEntry.flags (e : LogEntry) : Nat :=
  b2n e.inj + 2 * b2n e.real + 4 * b2n e.conseq + 8 * b2n e.escalated + 16 * b2n e.acked + 32 * b2n e.reacted + 64 * b2n e.alarm

/-- A log entry as 16 bytes (13 Table 13-7). -/
def LogEntry.bytes (e : LogEntry) : List Byte :=
  leBytes 1 e.det.toNat ++ leBytes 1 (e.cls + 4 * e.cfg) ++ leBytes 1 e.flags ++ leBytes 1 e.count ++ leBytes 6 e.tick.toNat ++
  leBytes 2 e.cause.toNat ++ [e.origin, e.island] ++ leBytes 2 e.lseq.toNat

/-- Whether the collector still holds a fault of this log entry open (13 R325, R336). -/
def Faults.isOpen (f : Faults) (e : LogEntry) : Bool := f.opens.any fun o => o.lseq == e.lseq

/-- The oldest element that satisfies a test, removed; lists are newest first. -/
def dropOldest (p : LogEntry → Bool) (l : List LogEntry) : Option (List LogEntry) :=
  match l.reverse.findIdx? p with
  | none => none
  | some i => some (l.reverse.eraseIdx i).reverse

/-- Make room in a full log: the oldest entry neither open nor unacknowledged, else the oldest CORR entry, else the oldest
(13 R336). -/
def Faults.evict (f : Faults) : List LogEntry :=
  match dropOldest (fun e => !f.isOpen e && e.acked) f.log with
  | some l => l
  | none =>
    match dropOldest (fun e => e.cls == 0) f.log with
    | some l => l
    | none => f.log.dropLast

/-- Put a new entry at index 0 of the log and into the fault history, and ring DB_FAULT (01 R13, 13 R325, R335, R336). -/
def State.logEntry (s : State) (e : LogEntry) : State :=
  let s := s.setNvm (s.nvm.logFault { e with lseq := s.faults.lseq })
  let full := decide (16 ≤ s.faults.log.length)
  let l := if full then s.faults.evict else s.faults.log
  let s := if full then s.count .fltLogLost else s
  (s.setFaults { s.faults with log := { e with lseq := s.faults.lseq } :: l, lseq := s.faults.lseq + 1 }).ring 9

/-- Change the log entry with a sequence number. -/
def Faults.editLog (f : Faults) (n : BitVec 16) (g : LogEntry → LogEntry) : Faults :=
  { f with log := f.log.map fun e => if e.lseq = n then g e else e }

/-- The FAULT message (15 Table 15-6). -/
def State.emitFault (s : State) (e : LogEntry) : State :=
  s.emit .aon 3 (e.det.toNat * 1024 + e.cls * 256 + e.flags) [e.cause.toNat * 65536 + e.island.toNat * 256 + e.origin.toNat]

/-- Schedule a change of the commanded code's sources (08 Table 8-1). -/
def State.schedule (s : State) (t : Nat) (a : CodeAct) : State :=
  s.setLoop { s.loop with sched := s.loop.sched ++ [⟨t, a⟩] }

/-- The collector commands the loop alarm in the tick that boundary b begins; the commanded code changes at b + 5
(13 R323). -/
def State.commandAlarm (s : State) : State := s.schedule (s.now + 5) (.hwAlarm true)

/-- An alarm that no fault's reaction commands any more is withdrawn (13 R324). -/
def State.settleAlarm (s : State) : State :=
  if s.faults.opens.any (·.alarm) then s else s.schedule (s.now + 5) (.hwAlarm false)

/-- A fault leaves the open ones when it is acknowledged and no alarm of it is in force (13 R325). -/
def Faults.prune (f : Faults) : Faults := { f with opens := f.opens.filter fun o => !o.acked || o.alarm || o.aux }

/-- ALARM of a log entry: an alarm that it commanded is in force (13 Table 13-7). -/
def Faults.alarmed (f : Faults) (n : BitVec 16) : Bool := f.opens.any fun o => o.lseq == n && (o.alarm || o.aux)

/-- ALARM of every log entry follows the open faults (13 Table 13-7). -/
def Faults.showAlarms (f : Faults) : Faults := { f with log := f.log.map fun e => { e with alarm := f.alarmed e.lseq } }

/-- FAULT_N goes low, for at least 500 ticks (13 R325). -/
def State.faultLow (s : State) : State :=
  (s.setPins { s.pins with faultLow := true }).setFaults { s.faults with lowUntil := s.now + 500 }

/-- A fault on its way through the collector. -/
structure Fault0 where
  det : Nat
  cause : Nat
  island : Byte
  inj : Bool
  real : Bool
  atLeast : Nat
  count : Nat
  stamp : Count48
  deriving DecidableEq, Repr

/-- Carry out the reaction of an open fault: its resets, and the alarm when `alarm` holds; mark it REACTED (13 R318, R322). -/
def State.carryOut (s : State) (n : BitVec 16) (det cause react : Nat) (alarm : Bool) : State :=
  let s := s.carryResets react det cause
  let mark (o : Open) : Open := if o.lseq = n ∧ o.det.toNat = det then { o with
    reacted := true, grace := none, alarm := o.alarm || alarm } else o
  let s := s.setFaults ({ s.faults with opens := s.faults.opens.map mark }.editLog n fun e => { e with reacted := true }).showAlarms
  if alarm then s.commandAlarm else s

/-- Whether bit 5 of an open fault's reaction commands the alarm: that of SUP_AUX commands none (13 Table 13-4, R324). -/
def reactAlarm (o : Open) : Bool := o.react.testBit 5 && o.det != 0x15

/-- A FATAL fault's resets close a CONT window whose own resets they include; the FATAL's alarm meets its alarm bit
(13 R327). -/
def State.closeWindows (s : State) (isls : List Island) : State :=
  let hit (o : Open) : Bool := o.cls == 1 && !o.acked && o.grace.isSome &&
    (reactIslands o.react o.det.toNat o.cause.toNat).all isls.contains
  let close (o : Open) : Open :=
    if hit o then { o with reacted := true, grace := none, alarm := o.alarm || reactAlarm o } else o
  let f := { s.faults with opens := s.faults.opens.map close }
  s.setFaults ((s.faults.opens.filter hit).foldl (fun f o => f.editLog o.lseq fun e => { e with reacted := true }) f).showAlarms

/-- A fault that is not shadowed, at its final class: the open record and what its class brings (13 Table 13-1). A FATAL one commands the
alarm whatever its detector, the low alarm of SUP_AUX beside (13 R319, R324; DEDUCED, notes/assumptions/48). -/
def State.raise (s : State) (f : Fault0) (cls : Nat) (n : BitVec 16) : State :=
  let alm := s.mgmt.inForce
  let react := alm.frReact f.det
  let o : Open := {
    det := BitVec.ofNat 6 f.det, cause := BitVec.ofNat 16 f.cause, island := f.island, cls := cls,
    react := react, host := alm.frAckHost f.det || cls == 2, acked := false, reacted := false, alarm := false, aux := f.det == 0x15,
    grace := if cls = 1 then some (s.now + alm.fltGrace) else none, at_ := s.now, lseq := n }
  let s := s.setFaults { s.faults with opens := s.faults.opens ++ [o] }
  let s := if cls = 0 then s.count .fltCorr else s.faultLow
  let s :=
    -- the low alarm of SUP_AUX is commanded at the consuming boundary, whatever the class or FR_REACT (13 R324)
    if f.det = 0x15 then (s.setFaults s.faults.showAlarms).schedule (s.now + 5) (.auxAlarm true) else s
  if cls = 2 then
    let s := s.closeWindows (reactIslands react f.det f.cause)
    let s := s.carryOut n f.det f.cause react true
    match s.faults.log.find? fun e => e.lseq == n with
    | some e => s.setFaults { s.faults with snapWait := s.faults.snapWait ++ [e] }
    | none => s
  else s

/-- FATAL_SEEN is set by each FATAL fault that is logged, a CONSEQUENTIAL one too (11 R271, Table 11-7). -/
def State.fatalLogged (s : State) (cls : Nat) : State := if cls = 2 then s.setFaults { s.faults with fatalSeen := true } else s

/-- Handle one fault completely: shadow, escalation, coalescing, log, class (13 R315, R326, R328, R330). -/
def State.handleFault (s : State) (f : Fault0) : State :=
  let cfg := max (s.classOf f.det f.cause) f.atLeast
  let shadow := s.shadowOf f.det f.cause
  let conseq := shadow.isSome
  let rival (c : Nat) : Option Open := if conseq || 2 ≤ c then none else s.faults.opens.find? fun o => o.cls == c && !o.acked
  let first := rival cfg
  -- a CORR raised to CONT is a second CONT where one is unacknowledged (13 R326)
  let second := if first.isSome then rival (cfg + 1) else none
  let older := second.or first
  let cls := cfg + b2n first.isSome + b2n second.isSome
  let e : LogEntry := {
    det := BitVec.ofNat 6 f.det, cls := cls, cfg := s.classOf f.det f.cause, inj := f.inj, real := f.real,
    conseq := conseq, escalated := older.isSome, acked := conseq, reacted := false, alarm := false,
    count := min f.count 255, tick := f.stamp, cause := BitVec.ofNat 16 f.cause,
    origin := match shadow with
      | some o => o
      | none => match older with
        | some o => BitVec.ofNat 8 o.det.toNat
        | none => 0xFF,
    island := f.island, lseq := s.faults.lseq }
  let s := if conseq then s.count .fltConseq else s
  let same : Option LogEntry := match s.faults.log with
    | [] => none
    | t :: _ =>
      if older.isNone && t.det == e.det && t.cause == e.cause && t.island == e.island && t.inj == e.inj && t.real == e.real &&
        t.conseq == e.conseq then some t else none
  match same with
  | some t =>
    let more (x : LogEntry) : LogEntry := { x with count := min (x.count + f.count) 255, acked := conseq && x.acked }
    let s := ((s.setFaults (s.faults.editLog t.lseq more)).emitFault (more t)).fatalLogged t.cls
    if conseq then s else (s.ring 9).raise f t.cls t.lseq
  | none =>
    let n := s.faults.lseq
    let s := ((s.logEntry e).emitFault e).fatalLogged cls
    if conseq then s else s.raise f cls n

/-- Reports of one detector consumed at one boundary form a single fault, with the lowest cause and their number
(13 R315). -/
def foldReports : List Report → List Fault0
  | [] => []
  | r :: rs =>
    let acc := foldReports rs
    match acc.find? fun f => f.det == r.det.toNat with
    | none => { det := r.det.toNat, cause := r.cause.toNat, island := r.island, inj := r.inj, real := r.real,
                atLeast := r.atLeast, count := 1, stamp := r.stamp } :: acc
    | some _ => acc.map fun f =>
      if f.det = r.det.toNat then
        let low := decide (r.cause.toNat ≤ f.cause)
        { f with
          cause := min f.cause r.cause.toNat, island := if low then r.island else f.island, inj := f.inj || r.inj,
          real := f.real || r.real, atLeast := max f.atLeast r.atLeast, count := f.count + 1, stamp := r.stamp }
      else f

/-- The order in which faults of one boundary are handled: descending class, ascending detector (13 R315). -/
def State.faultBefore (s : State) (a b : Fault0) : Bool :=
  let ca := max (s.classOf a.det a.cause) a.atLeast
  let cb := max (s.classOf b.det b.cause) b.atLeast
  decide (cb < ca) || (ca == cb && decide (a.det ≤ b.det))

/-- Insert into a list sorted by a test. -/
def insertBy {α : Type} (le : α → α → Bool) (x : α) : List α → List α
  | [] => [x]
  | y :: ys => if le x y then x :: y :: ys else y :: insertBy le x ys

/-- Sort by a test, stably for a test that accepts equals. -/
def sortBy {α : Type} (le : α → α → Bool) (l : List α) : List α := l.foldr (insertBy le) []

/-- The island whose fault channel a report takes: the receiver for BUS_PAR, MGMT for what the window finds, else the island that its
detector watches (13 R314, Table 13-2). -/
def reporter (det cause : Nat) : Island :=
  if 0x0A ≤ det ∧ det ≤ 0x0D then (islandOf cause).getD .aon
  else if det = 0x1E ∨ det = 0x1F then .mgmt
  else (watched det cause).getD .aon

/-- Whether a report crosses from an island to AON, and from which (13 R314). -/
def Report.from (r : Report) : Option Island :=
  if r.aon then none else match reporter r.det.toNat r.cause.toNat with
    | .aon => none
    | i => some i

/-- The reports that AON consumes at the present boundary, those on the fault channel of an island one in each tick, and the reports
that wait (13 R314, 01 R18). -/
def dueOf (now : Nat) : List Island → List Report → List Report × List Report
  | _, [] => ([], [])
  | used, r :: rs =>
    let due := r.aon || decide (r.posted < now)
    match r.from with
    | none => let (d, w) := dueOf now used rs; if due then (r :: d, w) else (d, r :: w)
    | some i =>
      if due && !used.contains i then let (d, w) := dueOf now (i :: used) rs; (r :: d, w)
      else let (d, w) := dueOf now used rs; (d, r :: w)

/-- The reports that AON consumes at the present boundary (13 R314). -/
def State.dueReports (s : State) : List Report := (dueOf s.now [] s.faults.reports).1

/-- A second report on a channel counts as posted in the next tick (01 R18). -/
def State.waitingReports (s : State) : List Report :=
  (dueOf s.now [] s.faults.reports).2.map fun r => { r with posted := s.now, stamp := s.clock.meridian }

/-- Consume the due reports (13 R315). -/
def State.collect (s : State) : State :=
  let due := s.dueReports
  let s := s.setFaults { s.faults with reports := s.waitingReports }
  (sortBy s.faultBefore (foldReports due)).foldl State.handleFault s

/-! ## Checked accesses and injection (13 R332 to R334) -/

/-- The count of accesses for which a detector is armed. -/
def Faults.armedFor (f : Faults) (d : Nat) : Nat :=
  match f.armed.find? fun a => a.1.toNat == d with
  | some a => a.2
  | none => 0

/-- Use up one armed access. -/
def Faults.useArmed (f : Faults) (d : Nat) : Faults :=
  { f with armed := (f.armed.map fun a => if a.1.toNat = d then (a.1, a.2 - 1) else a).filter fun a => a.2 ≠ 0 }

/-- Arm a detector; a second request replaces the count (13 R332). -/
def Faults.arm (f : Faults) (d : BitVec 6) (n : Nat) : Faults :=
  { f with armed := (f.armed.filter fun a => a.1 ≠ d) ++ [(d, n)] }

/-- The detector of a single-bit and of a double-bit error of the memory that a detector checks (13 Table 13-2). -/
def eccPair (d : Nat) : Option (Nat × Nat) := if d ≤ 0x09 then some (d / 2 * 2, d / 2 * 2 + 1) else none

/-- A report about an access of the tick before. -/
def State.accReport (s : State) (a : Access) (d : Nat) (inj real : Bool) (atLeast : Nat) : State :=
  s.setFaults { s.faults with reports := s.faults.reports ++
    [{ det := BitVec.ofNat 6 d, cause := a.cause, island := a.island, inj := inj, real := real, atLeast := atLeast,
       posted := s.now - 1, stamp := s.clock.prev, aon := aonDet d }] }

/-- A lost word of MGMT's SRAM that lies in the shared window: its bytes are no longer good data, so each is a free value until it is
written again (01 R12, R279; where the window lies and how wide a word is: notes/assumptions/29). -/
def State.loseWindowWord (s : State) (w : Nat) : State :=
  if w < 4096 then (s.draw 32).2.winWrite (4 * w) (leBytes 4 (s.draw 32).1.toNat) else s

/-- What a double-bit error leaves: the NVM page, or the word of the island's SRAM, that delivers no data (01 R12,
13 Table 13-2). -/
def State.struck (s : State) (a : Access) : State :=
  let hit (i : Island) : State :=
    let x := s.isl.at i
    s.setIsl i { x with lostWords := a.cause :: x.lostWords.filter (· ≠ a.cause) }
  match a.err, a.det.toNat / 2 with
  | .double, 0 => (hit .mgmt).loseWindowWord a.cause.toNat
  | .double, 1 => hit .loop
  | .double, 2 => hit .meas
  | .double, 3 => hit .aon
  | .double, 4 => s.setNvm { s.nvm with bad := a.cause.toNat :: s.nvm.bad.filter (· ≠ a.cause.toNat) }
  | _, _ => s

/-- One checked access of the tick before: what it finds, and an injection that is armed for it (13 R332, R334). -/
def State.checkAccess (s : State) (a : Access) : State :=
  let s := s.struck a
  let c := a.cause.toNat
  let usable (d : Nat) : Bool := decide (0 < s.faults.armedFor d) && (s.shadowOf d c).isNone
  match eccPair a.det.toNat with
  | some (one, two) =>
    let real : Option Nat := match a.err with
      | .none => none
      | .single => some one
      | .double => some two
    let armed := if usable two then some two else if usable one then some one else none
    match armed, real with
    | none, none => s
    | none, some r => s.accReport a r false false 0
    | some d, none => (s.setFaults (s.faults.useArmed d)).accReport a d true false 0
    | some d, some r =>
      (s.setFaults (s.faults.useArmed d)).accReport a d true true (max (s.classOf d c) (s.classOf r c))
  | none =>
    let d := a.det.toNat
    let inj := match detRow d with
      | some r => r.inj && usable d
      | none => false
    if inj then (s.setFaults (s.faults.useArmed d)).accReport a d true (a.err != .none) 0
    else if a.err != .none && (detRow d).isSome then s.accReport a d false false 0
    else s

/-- A read of NVM pages by a command, one access for each page: whether it delivers their data. A page with an uncorrectable word, or an
armed injection of one, ends it; an injected single-bit error is corrected. Each is reported (13 R332 to R334, Table 13-2). -/
def State.nvmRead (s : State) (pages : List Nat) : State × Bool :=
  let report (s : State) (d page : Nat) (inj real : Bool) (atLeast : Nat) : State :=
    s.setFaults { s.faults with reports := s.faults.reports ++
      [{ det := BitVec.ofNat 6 d, cause := BitVec.ofNat 16 page, island := 0x10, inj := inj, real := real, atLeast := atLeast,
         posted := s.now, stamp := s.clock.meridian, aon := aonDet d }] }
  match pages with
  | [] => (s, true)
  | g :: gs =>
    let usable (d : Nat) : Bool := decide (0 < s.faults.armedFor d) && (s.shadowOf d g).isNone
    let used (d : Nat) : State := s.setFaults (s.faults.useArmed d)
    let bad := s.nvm.bad.contains g
    let worst := max (s.classOf 8 g) (s.classOf 9 g)
    if usable 9 then (report (used 9) 9 g true bad 0, false)
    else if usable 8 then
      if bad then (report (used 8) 8 g true true worst, false) else (report (used 8) 8 g true false 0).nvmRead gs
    else if bad then (report s 9 g false false 0, false)
    else s.nvmRead gs

/-- The BUS_PAR detector of the island that sends (13 Table 13-2). -/
def busParDet : Island → Nat
  | .mgmt => 0x0A
  | .loop => 0x0B
  | .meas => 0x0C
  | .aon => 0x0D

/-- Whether an injected parity error is armed, and not shadowed, for what one island sends to another (13 R332). -/
def State.parityArmed (s : State) (sender receiver : Island) : Bool :=
  let d := busParDet sender
  decide (0 < s.faults.armedFor d) && (s.shadowOf d (srcOf receiver).toNat).isNone

/-- The receiver finds bad parity in a tick; an armed access is used up, and carries a real error as well where `real`
(13 R333, R334). -/
def State.parityErrorAt (s : State) (sender receiver : Island) (real : Bool) (posted : Nat) (stamp : Count48) : State :=
  let d := busParDet sender
  let inj := s.parityArmed sender receiver
  let s := if inj then s.setFaults (s.faults.useArmed d) else s
  s.setFaults { s.faults with reports := s.faults.reports ++
    [{ det := BitVec.ofNat 6 d, cause := BitVec.ofNat 16 (srcOf receiver).toNat, island := srcOf sender, inj := inj,
       real := inj && real, atLeast := 0, posted := posted, stamp := stamp, aon := aonDet d }] }

/-- The receiver finds bad parity in the present tick. -/
def State.parityError (s : State) (sender receiver : Island) (real : Bool) : State :=
  s.parityErrorAt sender receiver real s.now s.clock.meridian

/-- LOOP's relay writes bytes into a window buffer: an access of BUS_PAR_LOOP that MGMT checks, discarded where it is armed
(13 R332, R333, Table 13-6). -/
def State.relayWrite (s : State) (n : Nat) (bs : List Byte) : State :=
  if s.parityArmed .loop .mgmt then s.parityError .loop .mgmt false else s.devWrite n bs 0x20

/-- All the accesses of the tick before. -/
def State.checkAccesses (s : State) (as : List Access) : State := as.foldl State.checkAccess s

end Sys2Proof.Machine
end

