-- ==== Sys2Proof/Machine/Interp.lean ====
section
/-! DEFINITION. The command interpreter (12): delivery of a packet, the checks of R298 in their order, energy admission and
deferral (03 R57, R58), signatures (R304), rights (R305, R306), fragments and continuation (R302, R303), replies (R297) and
outstanding commands (R299). -/

namespace Sys2Proof.Machine

open Sys2Proof

/-! ## Status codes (12 Table 12-3) -/

def stOk : Nat := 0x0000
def stPending : Nat := 0x0001
def stBadOpcode : Nat := 0x0010
def stBadLength : Nat := 0x0011
def stBadParam : Nat := 0x0012
def stNotPermitted : Nat := 0x0013
def stBusy : Nat := 0x0014
def stStopOnly : Nat := 0x0015
def stInfeasible : Nat := 0x0016
def stOverBudget : Nat := 0x0017
def stEnergyDeferred : Nat := 0x0018
def stAuthFail : Nat := 0x0020
def stRollback : Nat := 0x0021
def stImageBad : Nat := 0x0022
def stIslandDown : Nat := 0x0030
def stTimeout : Nat := 0x0031
def stNoRoute : Nat := 0x0040
def stInternal : Nat := 0x00FF

/-! ## Opcodes and rights -/

/-- Every assigned opcode with the right bit that it needs; `none` for a command with a rule of its own (12 Tables 12-12 to
12-19, 12-21). -/
def opcodeRights : List (Nat × Option Nat) :=
  [(0x0001, some 0), (0x0002, some 0), (0x0003, some 5), (0x0101, some 1), (0x0102, some 0), (0x0103, some 1), (0x0104, some 0),
   (0x0105, some 1), (0x0201, some 2), (0x0202, some 2), (0x0203, some 2), (0x0204, some 1), (0x0205, some 5), (0x0206, some 5),
   (0x0301, some 1), (0x0302, some 1), (0x0303, some 0), (0x0304, some 0), (0x0401, some 3), (0x0402, some 3), (0x0403, some 3),
   (0x0404, some 0), (0x0501, none), (0x0502, some 4), (0x0503, some 0), (0x0504, some 0), (0x0505, some 0), (0x0506, none),
   (0x0507, some 1), (0x0508, some 2)] ++
  [(0x0601, some 0), (0x0602, some 2), (0x0603, some 5), (0x0604, some 2), (0x0701, some 0), (0x0702, some 0), (0x0703, some 6),
   (0x0704, some 6), (0x0705, some 6), (0x0706, some 6), (0x0707, none), (0x0708, some 0), (0x0801, some 0), (0x0802, some 2),
   (0x0803, some 0), (0x0F01, some 0), (0x0F02, some 1), (0x0F10, some 2), (0x0F11, some 2), (0x0F12, some 2), (0x0F20, some 0),
   (0x0F21, some 0), (0x0F30, some 3), (0x0F31, some 3), (0x0F32, some 3), (0x0F33, some 3), (0x0F40, some 5), (0x0F41, some 0),
   (0x0F50, some 1), (0x0F60, some 0), (0x0F61, some 0)]

/-- Whether an opcode is assigned (12 R298, R313). -/
def assignedOp (op : Nat) : Bool := opcodeRights.any fun e => e.1 == op

/-- The commands that may be fragmented (12 R302). -/
def fragmentable (op : Nat) : Bool := op == 0x0707 || op == 0x0703 || op == 0x0706 || op == 0x0603

/-- The rights of a fabric address: its grant entry, else the defaults of 12 Table 12-7 (12 R306). -/
def State.addrRights (s : State) (a : BitVec 12) : Nat :=
  match s.mgmt.grants.find? fun g => g.1 == a with
  | some g => g.2.toNat
  | none =>
    let own := a.toNat / 64 == s.mgmt.inForce.fabAddr / 64 && (a.toNat % 64 == 0 || a.toNat % 64 == 63)
    if own then 0x0F else 0x01

/-- The rights of a packet's sender; the local host holds every right (12 R305). -/
def State.rights (s : State) (p : Packet) : Nat := if p.src = 0x01 then 0x7FFF else s.addrRights p.sender

/-- Whether the sender holds a right. -/
def State.hasRight (s : State) (p : Packet) (bit : Nat) : Bool := (s.rights p).testBit bit

/-- FLAGS of a packet (12 Table 12-1). -/
def pktMore (p : Packet) : Bool := p.flags.getLsbD 0
def pktSigned (p : Packet) : Bool := p.flags.getLsbD 1
def pktCont (p : Packet) : Bool := p.flags.getLsbD 2

/-! ## Replies (12 R297, R303) -/

/-- A reply packet (12 Table 12-2). -/
def replyBytes (op tag status src total : Nat) (more : Bool) (res : List Byte) : List Byte :=
  leBytes 2 (op % 32768 + 32768) ++ leBytes 1 tag ++ leBytes 1 (b2n more) ++ leBytes 2 res.length ++ leBytes 2 status ++
  leBytes 1 src ++ leBytes 1 0 ++ leBytes 2 total ++ res

/-- The reply that carries the first 244 result bytes (12 R303). -/
def firstReply (op tag status src : Nat) (res : List Byte) : List Byte :=
  replyBytes op tag status src res.length (decide (244 < res.length)) (res.take 244)

/-- Post a reply on MB1: its bytes into the buffer, the buffer to HOST, DB_MB1 (11 R284, 12 R297). -/
def State.postReply (s : State) (buf : Nat) (bytes : List Byte) : State :=
  if (s.win.ownAt buf).own = .device then
    let s := s.winWrite (bufAddr buf) bytes
    let s := s.setOwner buf .host 0x10
    let s := s.postMb 1 (mkNotice buf bytes.length 0x10 (leAt bytes 0 2) (leAt bytes 2 1)) false
    s.ring 0
  else s.devWrite buf bytes 0x10

/-- The next waiting reply leaves when MB1 is free (11 R290, R291). -/
def State.postNext (s : State) : State :=
  if (s.win.mbAt 1).pending then s
  else match s.mgmt.replies with
    | [] => s
    | r :: rs => (s.setMgmt { s.mgmt with replies := rs }).postReply r.buf.toNat r.bytes

/-- LOOP sets a window buffer FREE (10 R245). -/
def State.freeBuf (s : State) (b : Nat) : State := if (s.win.ownAt b).own = .device then s.setOwner b .free 0x20 else s

/-- LOOP takes the reply of a session's command: it is the current reply from this boundary on (10 R245, R249). -/
def State.gotReply (s : State) (n : Nat) (r : ReplyOut) : State :=
  let x := s.fab.sess n
  let s := match x.buf with
    | some b => if b = r.buf.toNat then s else s.freeBuf b
    | none => s
  if x.opened then
    s.setFab (s.fab.setSess n { x with cur := some r.bytes, curAt := s.now, running := false, buf := some r.buf.toNat })
  else s.freeBuf r.buf.toNat

/-- The reply of a session's command goes to LOOP on MB3; while LOOP is down MGMT keeps it (11 R288, 12 R297). -/
def State.fabricReply (s : State) (r : ReplyOut) : State :=
  let s := if (s.win.ownAt r.buf.toNat).own = .device then s.winWrite (bufAddr r.buf.toNat) r.bytes else s
  if s.loopUp then s.postReq 3 0 (.reply r) else s.setFab { s.fab with mb3Wait := s.fab.mb3Wait ++ [r] }

/-- Send a reply by the way its command came (12 R297). A packet that did not come through the window gets its reply there
only if the device owns the buffer (notes/assumptions/11). A broadcast's reply is never sent, and its buffer becomes FREE
(10 R244). -/
def State.sendReply (s : State) (via : Bool) (p : Packet) (bytes : List Byte) : State :=
  let s := s.setMgmt { s.mgmt with lastReply := bytes }
  let r : ReplyOut := ⟨p.src, p.buf, bytes⟩
  match sessionOf p.src with
  | some _ => s.fabricReply r
  | none =>
    if p.src = 0x01 ∧ (via ∨ (s.win.ownAt p.buf.toNat).own = .device) then
      (s.setMgmt { s.mgmt with replies := s.mgmt.replies ++ [r] }).postNext
    else if p.src = 0x90 ∧ via then s.freeBuf p.buf.toNat
    else s

/-- Complete a command: it is counted, its result is kept for continuation when it exceeds 244 bytes, and its reply leaves
(12 R297, R299, R303; 15 Table 15-8). -/
def State.finish (s : State) (op : Nat) (via : Bool) (p : Packet) (status : Nat) (res : List Byte) : State :=
  let s := s.count .cmdDone
  let s := s.emitCommand true p.src.toNat op p.tag.toNat status
  let kept := s.mgmt.kept.filter fun k => k.src ≠ p.src
  let s := s.setMgmt { s.mgmt with
    kept := if 244 < res.length then kept ++ [⟨p.src, op, p.tag, res, status⟩] else kept }
  s.sendReply via p (firstReply op p.tag.toNat status p.src.toNat res)

/-- The reservation of the outstanding command of an opcode ends with it (03 R57, 12 R299). -/
def State.unreserve (s : State) (op : Nat) : State :=
  s.setEnergy { s.energy with reserved := s.energy.reserved.filter fun e => e.1 ≠ op }

/-! ## Delivery (11 R296, 12 R299) -/

/-- The packet that a queued notice's buffer holds, and its opcode (12 Table 12-1). -/
def State.packetOf (s : State) (q : QueuedCmd) : Nat × Packet :=
  let bs := s.bufRead q.buf.toNat 256
  let plen := leAt bs 4 2
  (leAt bs 0 2, ⟨q.src, q.sender, q.buf, q.nbLen, byteAt bs 2, byteAt bs 3, plen, BitVec.ofNat 16 (leAt bs 6 2),
    (bs.drop 8).take plen⟩)

/-- The interpreter takes a command: MGMT serves, and no attestation is being signed, for commands start one at a time and SEC_ATTEST is
none of those that become outstanding (12 R299, 14 R350). -/
def State.takes (s : State) : Bool := s.mgmtUp && s.ready && !s.mgmt.outst.any fun o => o.op == 0x0701

/-- Start a command: the head of MGMT's queue must be this packet; with an empty queue the packet is delivered as it stands.
`none` when MGMT takes no command or another one is first. -/
def State.take (s : State) (op : Nat) (p : Packet) : Option (State × Bool) :=
  if s.takes then
    match s.mgmt.queue with
    | [] => some (s, false)
    | q :: qs => if s.packetOf q = (op, p) then some (s.setMgmt { s.mgmt with queue := qs }, true) else none
  else none

/-- An update command of the session's owner, carried out or refused, keeps the session from closing (14 R353). -/
def UpdSession.owns (u : UpdSession) (p : Packet) : Bool :=
  if p.src = 0x01 then u.ownerSrc == 0x01 else u.ownerSrc != 0x01 && u.owner == p.sender
def State.touchUpd (s : State) (p : Packet) : State :=
  s.setMgmt { s.mgmt with upd := s.mgmt.upd.map fun u => if u.owns p then { u with last := s.now } else u }

/-- The update commands (12 Table 12-18): UPD_BEGIN, UPD_CHUNK, UPD_VERIFY, UPD_ACTIVATE and UPD_VERSION_INFO. -/
def updateOp (op : Nat) : Bool := op == 0x0703 || op == 0x0704 || op == 0x0705 || op == 0x0706 || op == 0x0708

/-- One of the update commands counts for its session from its start, whatever becomes of it (14 R353, notes/assumptions/49). -/
def State.started (s : State) (op : Nat) (p : Packet) : State := if updateOp op then s.touchUpd p else s

/-- A command starts: its COMMAND message (15 Table 15-6). -/
def State.begin (s : State) (op : Nat) (p : Packet) : State := (s.emitCommand false p.src.toNat op p.tag.toNat 0).started op p

/-- A packet at the head of the queue whose opcode is unassigned is answered with ST_BAD_OPCODE (12 R298). -/
def State.settle : Nat → State → State
  | 0, s => s
  | n + 1, s =>
    match s.mgmt.queue with
    | [] => s
    | q :: qs =>
      let (op, p) := s.packetOf q
      if assignedOp op || s.mgmt.outst.any fun o => o.op == 0x0701 then s
      else
        let s := (s.setMgmt { s.mgmt with queue := qs }).emitCommand false p.src.toNat op p.tag.toNat 0
        State.settle n (s.finish op true p stBadOpcode [])

/-! ## Energy admission (03 R57, R58) -/

/-- Whether the governor admits a declared cost now (03 R57, Table 3-7, R61). -/
def State.admits (s : State) (cost : Nat) : Bool :=
  if cost = 0 ∨ s.energy.aux then true
  else match s.energy.season with
    | .summer => true
    | .autumn => decide (cost ≤ 10 * s.reserveField)
    | .winter => false
    | .spring => false

/-- The charger's present ceiling in mV (03 Table 3-1, R53). -/
def Energy.ceiling (e : Energy) : Nat := if e.aux then 16000 else min 16000 (2 * e.loopAvg - 1000)

/-- The ticks that a deferred sender is told to wait (03 R58). DESIGN CHOICE (notes/assumptions/91): the missing energy is taken in whole
uJ, of the reserve rounded down and of SPRING's rounded up, before it is turned into ticks. -/
def State.deferTicks (s : State) (cost : Nat) : Nat :=
  let e := s.energy
  let cap := s.mgmt.inForce.resvCap
  let need := ceilDiv cost 10 * 10
  if !e.charging || e.chargeUw == 0 || e.season == .winter then 0xFFFFFFFF
  else if reserveUj cap e.ceiling 11000 - e.reservedUj < cost then 0xFFFFFFFF
  else
    let lack := need - s.reserveLeft
    let lackSpring := if e.season = .spring then
      (if 12000 ≤ e.resAvg then 0 else ceilDiv (cap * (12000 * 12000 - e.resAvg * e.resAvg)) 2000000) else 0
    min (ceilDiv (max lack lackSpring * 1000000) (2 * e.chargeUw)) 0xFFFFFFFE

/-! ## Signatures (12 R304) -/

/-- Bytes of a signature trailer (12 Table 12-6). -/
def trailerLen : Nat := 2432

/-- The bytes of an island's active slot (14 R352). -/
def State.activeMem (s : State) (i : Island) : List Host.Cell :=
  if (s.nvm.dirs.at i).activeB then s.nvm.imgB.at i else s.nvm.imgA.at i

/-- Whether the image in a slot is the one that the directory names: its header's digest is the one recorded at the activation, and its
body's is the header's (13 R339, 14 R349, R357, Table 14-5). Of a factory image, whose bytes the spec does not give, `asRead` says it. -/
def SlotInfo.imageOk (x : SlotInfo) (m : List Host.Cell) (asRead : Bool) : Bool :=
  let h := cellsRead m 0 64
  asRead && (m.isEmpty || (decide (sha3 h = padTo 32 x.digest) && decide (sha3 (cellsRead m 64 (leAt h 12 4)) = (h.drop 16).take 32)))

/-- The arithmetic level of the image that an island runs, where it is another one than the factory image's, whose arithmetic is that of
the spec's rules (14 R361, notes/assumptions/95). -/
def State.newLevel (s : State) (i : Island) : Option Nat :=
  let d := s.nvm.dirs.at i
  let v := (if d.activeB then d.b else d.a).arith
  if (s.activeMem i).isEmpty || v == (Config.factoryImage (srcOf i).toNat).2.2 then none else some v

/-- The comparison of an island's active image with its directory record (13 R339). -/
def State.digestOk (s : State) (i : Island) (asRead : Bool) : Bool :=
  let d := s.nvm.dirs.at i
  (if d.activeB then d.b else d.a).imageOk (s.activeMem i) asRead

/-- A signature entry of the image in a slot: key ID, public key, signature over the header (14 Table 14-5). -/
def imageEntry (m : List Host.Cell) (k : Nat) : List Byte := cellsRead m (64 + leAt (cellsRead m 0 64) 12 4 + 3736 * k) 3736
def entryKey (e : List Byte) : List Byte := (e.drop 4).take 1312

/-- The public key of an image's signature entry. The bytes of a factory image are not given: it carries the vendor's entry, and an OEM's
where Config.oemKey names one (14 R345, R346). -/
def imageKey (m : List Host.Cell) (k : Nat) : Option (List Byte) :=
  if m.isEmpty then (if k = 0 then some vendorKey else if k = 1 then Config.oemKey else none)
  else if k < leAt (cellsRead m 0 64) 6 1 then some (entryKey (imageEntry m k))
  else none

/-- The fused digest of a key ID (14 R345). -/
def State.anchor (s : State) (k : Nat) : List Byte := if k = 0 then vendorDigest else s.nvm.oem.getD []

/-- An entry's key has the fused digest of its ID, and its signature over the header verifies (14 R345, R355). -/
def State.entryOk (s : State) (m : List Host.Cell) (k : Nat) : Bool :=
  let e := imageEntry m k
  sha3 (entryKey e) == s.anchor k && Mldsa.verify (entryKey e) (cellsRead m 0 64) ((e.drop 1316).take 2420)

/-- Signature entries that an image needs (14 R346, R355). -/
def Nvm.nsig (n : Nvm) : Nat := if n.oem.isSome then 2 else 1

/-- What the boot ROM verifies of the image in a slot: its digests, and an entry of each key that is fused (03 Table 3-10, 14 R345, R346).
Of a factory image `asRead` says it. -/
def State.bootVerifies (s : State) (x : SlotInfo) (m : List Host.Cell) (asRead : Bool) : Bool :=
  x.imageOk m asRead && (m.isEmpty || (List.range s.nvm.nsig).all fun k =>
    decide (k < leAt (cellsRead m 0 64) 6 1) && leAt (imageEntry m k) 0 1 == k && s.entryOk m k)

/-- The public key that MGMT holds for a key ID: the one that it verified in its boot image (14 R345). -/
def State.heldKey (s : State) (k : Nat) : List Byte := (imageKey (s.activeMem .mgmt) k).getD []

/-- Check a trailer and store its counter: the key in use, the counter above the last accepted one, the signature over UID,
opcode and parameters up to byte 11 of the trailer (12 R304, 14 R346). -/
def State.checkSignature (s : State) (op : Nat) (params : List Byte) : Option State :=
  let n := params.length - trailerLen
  let tr := params.drop n
  let ctr := leAt tr 0 8
  let key := leAt tr 8 1
  let msg := leBytes 8 Config.uid.toNat ++ leBytes 2 op ++ params.take (n + 12)
  let keyOk := if s.nvm.oem.isSome then key == 1 else key == 0
  let last := if key = 0 then s.nvm.ctrVendor else s.nvm.ctrOem
  if keyOk && allZero ((tr.drop 9).take 3) && decide (last < ctr) &&
      Mldsa.verify (s.heldKey key) msg ((tr.drop 12).take 2420) then
    some (s.setNvm (s.nvm.putCounter (key != 0) ctr))
  else none

/-! ## M16 results (00 R3, 12 R313) -/

/-- The statuses of native rules that refuse an M16 command: energy deferral, an island that is down or does not answer, and the
stop-only rule (00 R3). -/
def m16Refuses (status : Nat) : Bool :=
  status == stEnergyDeferred || status == stIslandDown || status == stTimeout || status == stStopOnly

/-- The status and results of an M16 command for a native status and result: a refusal carries no M16 bytes; every other outcome
is the M16's own result code, in its bytes (00 R3, 12 R313, notes/assumptions/9). -/
def m16Answer (op status : Nat) (res : List Byte) : Nat × List Byte :=
  if m16Refuses status then (status, []) else (stOk, Config.m16Results op status res)

/-! ## The shell that runs a command -/

/-- What the interpreter checks of an opcode before its own rules: opcode, parameter lengths without a trailer, whether the
counts that the parameters state agree with their length, who may send it, whether it may and must be signed, its declared cost,
the islands that it needs, the NVM pages that it reads, whether it waits for an island's event, and whether it is an M16
command. -/
structure Cmd where
  op : Nat
  len : Nat → Bool
  fits : List Byte → Bool
  right : State → Packet → Bool
  signable : Bool
  mustSign : Byte → Bool
  cost : State → List Byte → Nat
  needs : State → List Byte → List Island
  reads : State → List Byte → List Nat
  waits : Bool
  m16 : Bool

/-- What an opcode's own rules give: a status with results; an outstanding command that waits for an island, with the results
that its request fixes; a command that occupies the interpreter until it is done; or a reply followed by the reset of an island. -/
inductive Done where
  | done (s : State) (status : Nat) (res : List Byte)
  | wait (s : State) (isl : Option Island) (res : List Byte)
  | busy (s : State)
  | reset (s : State) (isl : Island)

/-- The right that an opcode's table row names (12 R305). -/
def rightOf (op : Nat) (s : State) (p : Packet) : Bool :=
  match opcodeRights.find? fun e => e.1 == op with
  | some (_, some b) => s.hasRight p b
  | _ => true

/-- A command without signature, cost or island: the common case. -/
def plainCmd (op : Nat) (len : Nat → Bool) : Cmd :=
  { op := op, len := len, fits := fun _ => true, right := rightOf op, signable := false, mustSign := fun _ => false, cost := fun _ _ => 0,
    needs := fun _ _ => [], reads := fun _ _ => [], waits := false, m16 := false }

/-- A continuation read (12 R303). -/
def State.continuation (s : State) (op : Nat) (via : Bool) (p : Packet) : State :=
  let answer (st : Nat) (total : Nat) (more : Bool) (res : List Byte) : State :=
    s.sendReply via p (replyBytes op p.tag.toNat st p.src.toNat total more res)
  if p.plen ≠ 2 then answer stBadLength 0 false []
  else if !rightOf op s p then answer stNotPermitted 0 false []
  else match s.mgmt.kept.find? fun k => k.src == p.src && k.op == op && k.tag == p.tag with
    | none => answer stBadParam 0 false []
    | some k =>
      let off := leAt p.params 0 2
      if k.bytes.length ≤ off then answer stBadParam 0 false []
      else answer k.status k.bytes.length (decide (off + 244 < k.bytes.length)) ((k.bytes.drop off).take 244)

/-- A packet with MORE set: it starts or extends its sender's assembly; a broadcast sender has no store (12 R302,
notes/assumptions/76). -/
def State.fragment (s : State) (op : Nat) (via : Bool) (p : Packet) : State :=
  if !fragmentable op || p.src == 0x90 then s.finish op via p stBadLength []
  else
    let others := s.mgmt.assemblies.filter fun a => a.src ≠ p.src
    let old := match s.mgmt.assemblies.find? fun a => a.src == p.src && a.op == op && a.tag == p.tag with
      | some a => a.bytes
      | none => []
    let bytes := old ++ p.params
    if 4096 < bytes.length then (s.setMgmt { s.mgmt with assemblies := others }).finish op via p stBadLength []
    else
      let s := s.setMgmt { s.mgmt with assemblies := others ++ [⟨p.src, op, p.tag, bytes, s.now⟩] }
      s.sendReply via p (firstReply op p.tag.toNat stOk p.src.toNat (leBytes 2 bytes.length))

/-- The parameters of a command, with those of its sender's assembly before them when it completes one (12 R302). -/
def State.assembled (s : State) (op : Nat) (p : Packet) : State × List Byte :=
  match s.mgmt.assemblies.find? fun a => a.src == p.src && a.op == op && a.tag == p.tag with
  | some a => (s.setMgmt { s.mgmt with assemblies := s.mgmt.assemblies.filter fun x => x.src ≠ p.src }, a.bytes ++ p.params)
  | none => (s, p.params)

/-- Checks 1 and 2 of 12 R298 on the packet itself: reserved header fields, lengths (12 R296). -/
def headerStatus (p : Packet) : Option Nat :=
  if p.flags.toNat / 8 ≠ 0 ∨ p.rsvd ≠ 0 then some stBadOpcode
  else if 248 < p.plen ∨ p.params.length ≠ p.plen ∨ p.nbLen ≠ 8 + p.plen then some stBadLength
  else none

/-- Checks 3 to 6 of 12 R298, R300 and the one outstanding command of an opcode (12 R299): the state after them, or the
status and results of the first that fails. -/
def State.admitCmd (s : State) (c : Cmd) (p : Packet) (params : List Byte) : Except (State × Nat × List Byte) State :=
  let long := c.signable && decide (trailerLen ≤ params.length) && c.len (params.length - trailerLen)
  let trailer := pktSigned p && long
  let body := if long then params.take (params.length - trailerLen) else params
  if !(c.len params.length || long) || !c.fits body then .error (s, stBadLength, [])
  else if !c.right s p then .error (s, stNotPermitted, [])
  else if c.mustSign p.src && !trailer then .error (s, stAuthFail, [])
  else if c.signable && (pktSigned p && !long || !pktSigned p && long) then .error (s, stBadLength, [])
  else if !s.admits (c.cost s body) then
    .error (s.count .energyDefer, stEnergyDeferred, if c.m16 then [] else leBytes 4 (s.deferTicks (c.cost s body)))
  else
    match (if trailer then s.checkSignature c.op params else some s) with
    | none => .error (s, stAuthFail, [])
    | some s =>
      if (c.needs s body).any fun i => !s.upAt i then .error (s, stIslandDown, [])
      else if c.waits && s.mgmt.outst.any fun o => o.op == c.op then
        .error (s, if c.m16 then m16Answer c.op stBusy [] else (stBusy, []))
      else .ok s

/-- A command that has not completed: its declared cost stays reserved, but for what its own rules have reserved beyond its reply
(12 R299, 03 R57); `got` is the tick in which its request was taken. -/
def State.outstanding (s s' : State) (c : Cmd) (via : Bool) (p : Packet) (cost : Nat) (isl : Option Island) (got : Option Nat)
    (res : List Byte) : State :=
  let moved := s'.energy.reservedUj - s.energy.reservedUj
  let s' := s'.setEnergy { s'.energy with
    reserved := if cost = 0 ∨ s.energy.aux then s'.energy.reserved else s'.energy.reserved ++ [(c.op, cost - moved)] }
  s'.setMgmt { s'.mgmt with outst := s'.mgmt.outst ++ [⟨c.op, p, via, s.now, isl, got, res, none⟩] }

/-- Run a command's own rules and complete it or make it outstanding (12 R299, 03 R57). -/
def State.complete (s : State) (c : Cmd) (via : Bool) (p : Packet) (cost : Nat) : Done → State
  | .done s' status res => s'.finish c.op via p status res
  | .wait s' isl res => s.outstanding s' c via p cost isl none res
  | .busy s' => s.outstanding s' c via p cost none (some s.now) []
  | .reset s' isl => (s'.finish c.op via p stOk []).postReq 7 c.op (.resetIsland isl)

/-- A command whose NVM read is uncorrectable fails with ST_INTERNAL (13 Table 13-2). -/
def State.internal (s : State) (c : Cmd) : Done :=
  if c.m16 then .done s (m16Answer c.op stInternal []).1 (m16Answer c.op stInternal []).2 else .done s stInternal []

/-- The parameters without a trailer. -/
def Cmd.body (c : Cmd) (params : List Byte) : List Byte :=
  if c.signable && decide (trailerLen ≤ params.length) && c.len (params.length - trailerLen) then
    params.take (params.length - trailerLen)
  else params

/-- A command, delivered: the checks of 12 R298 in their order, then its own rules. A packet with both MORE and CONT is a
fragment, since R302 says of MORE what it does on every opcode (notes/assumptions/76). -/
def State.runTaken (s : State) (c : Cmd) (via : Bool) (p : Packet) (own : State → Packet → List Byte → Done) : State :=
  let s := s.begin c.op p
  match headerStatus p with
  | some st => s.finish c.op via p st []
  | none =>
    if pktMore p then s.fragment c.op via p
    else if pktCont p then s.continuation c.op via p
    else
      let (s, params) := s.assembled c.op p
      if 4096 < params.length then s.finish c.op via p stBadLength []
      else match s.admitCmd c p params with
        | .error (s, st, res) => s.finish c.op via p st res
        | .ok s =>
          let body := c.body params
          let (t, good) := s.nvmRead (c.reads s body)
          t.complete c via { p with params := params } (c.cost s body) (if good then own t p body else t.internal c)

/-- A command row: the step comes about when its packet is first in MGMT's queue, or reaches an empty queue. -/
def State.runCmd (s : State) (c : Cmd) (p : Packet) (own : State → Packet → List Byte → Done) : State :=
  match s.take c.op p with
  | none => s
  | some (s, via) => (s.runTaken c via p own).settle 4

/-- The event that an outstanding command waits for is reported, with its result bytes (12 R299). -/
def State.outstDone (s : State) (op status : Nat) (res : List Byte) : State :=
  let mark (o : Outst) : Outst := if o.op = op ∧ o.done = none then { o with done := some (status, res) } else o
  s.setMgmt { s.mgmt with outst := s.mgmt.outst.map mark }

/-- The outstanding command of an opcode (12 R299). -/
def State.outstOf (s : State) (op : Nat) : Option Outst := s.mgmt.outst.find? fun o => o.op == op && o.done.isNone

end Sys2Proof.Machine
end

