-- ==== Sys2Proof/Machine/Compile.lean ====
section
/-! DEFINITION. The almanac compiler (06 R138 to R143, R148, R151, R152; 03 R49, R50; 05 R114; 08 R197; 10 R262) and the
checks of 12 R309. -/

namespace Sys2Proof.Machine

open Sys2Proof

/-! ## Rings, slots and spacing -/

/-- The lengths of the rings around which the rules hold: with FAB_ALIGN also a tick less and a tick more (10 R262). -/
def Alm.rings (a : Alm) : List Nat :=
  if a.fabAlign then [a.roundLen, a.roundLen - 1, a.roundLen + 1] else [a.roundLen]

/-- The minimum spacing before a switch-over slot (04 Table 4-6): the smallest n with 64 n > 15 + 16 + D_w. -/
def minSpacing (disch : Nat) : Nat := (31 + max (8 * disch) 128) / 64 + 1

/-- Channel and polarity that a position leaves connected; a calibration or a check leaves none (04 R74, R85; 05 R104). -/
def PosKind.path : PosKind → Option (Nat × Nat)
  | .slot ch half _ _ _ => some (ch, half)
  | .cal => none
  | .check _ => none

/-- The channel of a position. -/
def PosKind.chan : PosKind → Option Nat
  | .slot ch _ _ _ _ => some ch
  | .cal => none
  | .check ch => some ch

/-- DISCH of a position; a calibration has the value of DISCH = 16 (05 R104). -/
def Alm.dischOf (a : Alm) (k : PosKind) : Nat := match k.chan with
  | some c => a.disch c
  | none => 16

/-- Ticks that a position needs after the one before it on its slice (04 R73, R74). -/
def Alm.spacing (a : Alm) (prev next : PosKind) : Nat :=
  if prev.path.isSome && prev.path == next.path then 1 else minSpacing (a.dischOf next)

/-- Ticks from one round position to the next around a ring. -/
def gapOn (len x y : Nat) : Nat := if (y + len - x) % len = 0 then len else (y + len - x) % len

/-- The position with the least value of a measure. -/
def leastBy (f : Pos → Nat) : List Pos → Option Pos
  | [] => none
  | p :: ps => match leastBy f ps with
    | none => some p
    | some q => if f p ≤ f q then some p else some q

/-- Spacing along a chain of positions around a ring. -/
def Alm.chainOk (a : Alm) (len : Nat) : List Pos → Bool
  | p :: q :: rest => decide (a.spacing p.kind q.kind ≤ gapOn len p.t q.t) && Alm.chainOk a len (q :: rest)
  | _ => true

/-- The spacing rules against the nearest positions on both sides of new positions on one slice (06 R139 rule 2). -/
def Alm.spacingOk (a : Alm) (placed new : List Pos) (sl len : Nat) : Bool :=
  let there := placed.filter fun p => p.sl = sl
  match new.head?, new.getLast? with
  | some x, some y =>
    match leastBy (fun p => gapOn len p.t x.t) there, leastBy (fun p => gapOn len y.t p.t) there with
    | some p, some q => a.chainOk len (p :: new ++ [q])
    | _, _ => a.chainOk len (new ++ [x])
  | _, _ => true

/-! ## Excitation (04 R76 to R80) -/

/-- One active interval of one EXC pin: where it starts and how long it lasts; kind, role, polarity and pin level (04 R78);
the current that it delivers in uA and whether it drives a voltage (04 R80); and the current cell that serves it, which two
sources exchange in reversed polarity (04 R79). -/
structure PinUse where
  pin : Nat
  start : Nat
  len : Nat
  volt : Bool
  ret : Bool
  rev : Bool
  level : Nat
  ua : Nat
  drives : Bool
  cell : Nat
  deriving DecidableEq, Repr

/-- The pins of a channel's excitation in one polarity, over an interval (04 R76, R78, R80). -/
def Alm.pinUses (a : Alm) (c : Nat) (rev : Bool) (start len : Nat) : List PinUse :=
  if a.excModeInUse c = 0 then []
  else
    let v := a.excVolt c
    let srcs := [a.excA c, a.excB c].filter (· < 4)
    let lvl := a.excLevel c
    let rlvl := if v then lvl else lvl * srcs.length
    srcs.zipIdx.map (fun (p, i) => ⟨p, start, len, v, false, rev, lvl, if v || rev then 0 else 10 * lvl, v && !rev,
      if rev && srcs.length = 2 then 1 - i else i⟩) ++
    (if a.excR c < 4 then [⟨a.excR c, start, len, v, true, rev, rlvl, if v || !rev then 0 else 10 * rlvl, v && rev, 0⟩] else [])

/-- The intervals of the continuous channels: every tick (04 R77, 06 R136). -/
def Alm.continuousUses (a : Alm) (len : Nat) : List PinUse :=
  (List.range 20).flatMap fun c => if a.chEn c && a.excModeInUse c == 1 then a.pinUses c false 0 len else []

/-- The intervals of a position: from EXC_LEAD ticks before it to its end; the second half of a pair is reversed
(04 R77, R79, R85). -/
def Alm.posUses (a : Alm) (len : Nat) (p : Pos) : List PinUse :=
  match p.kind.chan with
  | none => []
  | some c =>
    if a.gated c then
      let rev := match p.kind with
        | .slot _ half _ _ _ => half == 1
        | _ => false
      a.pinUses c rev ((p.t + 5 * len - a.excLead c) % len) (a.excLead c + 1)
    else []

/-- Whether two intervals hold one pin at one tick with a different kind, role, polarity or level (04 R78). -/
def PinUse.clash (len : Nat) (x y : PinUse) : Bool :=
  x.pin == y.pin && (x.volt != y.volt || x.ret != y.ret || x.rev != y.rev || x.level != y.level) &&
  (decide ((y.start + len - x.start) % len < x.len) || decide ((x.start + len - y.start) % len < y.len))

/-- The excitation rule over the new positions' intervals (06 R139 rule 5). -/
def Alm.excOk (a : Alm) (placed new : List Pos) (len : Nat) : Bool :=
  let us := new.flatMap (a.posUses len)
  let all := a.continuousUses len ++ placed.flatMap (a.posUses len) ++ us
  us.all fun u => all.all fun w => !u.clash len w

/-- The continuous channels do not clash among themselves (04 R78). -/
def Alm.continuousOk (a : Alm) : Bool :=
  let us := a.continuousUses a.roundLen
  us.all fun u => us.all fun w => !u.clash a.roundLen w

/-! ## Placement (06 R138 to R142) -/

/-- Whether new positions on one slice fit under rules 1, 2 and 5 of 06 R139, around every ring; nothing is placed at the
alignment tick (10 R262). -/
def Alm.newOk (a : Alm) (placed new : List Pos) (sl : Nat) : Bool :=
  new.all (fun n => !(placed.any fun p => p.sl = sl && p.t = n.t) && !(a.fabAlign && n.t == a.roundLen - 1)) &&
  a.rings.all fun len => a.spacingOk placed new sl len && a.excOk placed new len

/-- The slice that a channel's positions are on. -/
def homeOf (placed : List Pos) (c : Nat) : Option Nat :=
  (placed.find? fun p => match p.kind with
    | .slot ch _ _ _ _ => ch == c
    | _ => false).map (·.sl)

/-- The positions of one entry of a run at a tick and slice: one slot, or the two of a pair (06 R139 rule 4). -/
def Alm.entryPos (a : Alm) (c t sl q r : Nat) : List Pos :=
  if a.excModeInUse c = 3 then
    [⟨t, sl, .slot c 0 0 q r⟩, ⟨t + a.excLead c + 1, sl, .slot c 1 0 q r⟩]
  else [⟨t, sl, .slot c 0 0 q r⟩]

/-- Whether a slot of channel `c` fits at tick `t` of a run span that ends at `t1` on slice `sl` (06 R139). -/
def Alm.fits (a : Alm) (placed : List Pos) (c t t1 sl q r : Nat) : Bool :=
  let new := a.entryPos c t sl q r
  let last := match new.getLast? with
    | some p => p.t
    | none => t
  decide (last ≤ t1) &&
  !(placed.any fun p => p.sl = sl && t < p.t && p.t < last) &&
  (a.ilv c || (match homeOf placed c with
    | some h => h == sl
    | none => true)) &&
  a.newOk placed new sl

/-- The first tick of a span and then the lowest slice at which a test holds (06 R138 `place`). -/
def firstFit (ok : Nat → Nat → Bool) (slices : List Nat) : Nat → Nat → Option (Nat × Nat)
  | 0, _ => none
  | n + 1, t => match slices.find? (ok t) with
    | some s => some (t, s)
    | none => firstFit ok slices n (t + 1)

/-- Place one entry of a run (06 R138 `place`). -/
def Alm.placeEntry (a : Alm) (slices : List Nat) (q r t0 t1 : Nat) (placed : List Pos) (c : Nat) : Option (List Pos) :=
  (firstFit (fun t s => a.fits placed c t t1 s q r) slices (t1 + 1 - t0) t0).map fun (t, s) => placed ++ a.entryPos c t s q r

/-- Fold a placement that may fail over a list. -/
def foldPlace {α : Type} (f : List Pos → α → Option (List Pos)) : List α → List Pos → Option (List Pos)
  | [], placed => some placed
  | x :: xs, placed => match f placed x with
    | none => none
    | some p => foldPlace f xs p

/-- The entries of a sequence (06 R133). -/
def Alm.entries (a : Alm) (q : Nat) : List Nat := (List.range (a.sqLen q)).map (a.sqSlot q)

/-- Place every run of a sequence (06 R138). A channel with ILV = 1 has been placed before (06 R141). -/
def Alm.placeSeq (a : Alm) (slices : List Nat) (rep : List Nat) (placed : List Pos) (q : Nat) : Option (List Pos) :=
  let n := rep.getD q 1
  let t := a.roundLen
  foldPlace (fun pl r =>
    foldPlace (fun pl c => a.placeEntry slices q r (r * t / n) ((r + 1) * t / n - 1) pl c)
      ((a.entries q).filter fun c => !a.ilv c) pl) (List.range n) placed

/-- The placement order of the sequences (06 R138). -/
def Alm.placeOrder (a : Alm) : List Nat :=
  let rest := (List.range 4).filter (· ≠ a.primary)
  let le := fun x y => decide (a.sqPrio x < a.sqPrio y ∨ (a.sqPrio x = a.sqPrio y ∧ x ≤ y))
  a.primary :: sortBy le (rest.filter fun q => !a.sqTriggered q) ++ sortBy le (rest.filter a.sqTriggered)

/-- Nominal calibration positions, in the order in which they are placed (06 R140). -/
def nominalCal (t : Nat) (k : List (Nat × Nat)) : List (Nat × Nat) :=
  sortBy (fun x y => decide (x.1 < y.1 ∨ (x.1 = y.1 ∧ x.2 ≤ y.2)))
    (k.flatMap fun (s, n) => (List.range n).map fun i => (i * t / n + t / (2 * n) + s, s))

/-- Place one calibration position (06 R140). -/
def Alm.placeCal (a : Alm) (placed : List Pos) (n : Nat × Nat) : Option (List Pos) :=
  let t := a.roundLen
  let free := fun d => let u := (n.1 + d) % t
    !(placed.any fun p => p.t = u && (p.sl = n.2 || p.kind == .cal)) && !(a.fabAlign && u == t - 1)
  ((List.range t).find? free).map fun d => placed ++ [⟨(n.1 + d) % t, n.2, .cal⟩]

/-- How often a sequence lists a channel. -/
def Alm.listed (a : Alm) (q c : Nat) : Nat := ((a.entries q).filter (· = c)).length

/-- Conversions per round that the sequences ask of a channel (06 R141, R152). -/
def Alm.wanted (a : Alm) (rep : List Nat) (c : Nat) : Nat :=
  ((List.range 4).map fun q => rep.getD q 1 * a.listed q c).sum

/-- Place the conversions of a channel with ILV = 1 from a given start (06 R141). -/
def Alm.placeIlvFrom (a : Alm) (slices : List Nat) (c q t0 d n each : Nat) (placed : List Pos) : Option (List Pos) :=
  foldPlaceIdx placed none n 0
where
  foldPlaceIdx (pl : List Pos) (prev : Option Nat) : Nat → Nat → Option (List Pos)
    | 0, _ => some pl
    | m + 1, i =>
      let t := (t0 + i * d) % a.roundLen
      let ok := fun s => a.newOk pl [⟨t, s, .slot c 0 0 q (i / max each 1)⟩] s
      let order := (match prev with
        | some s => [s]
        | none => []) ++ slices
      match order.find? ok with
      | none => none
      | some s => foldPlaceIdx (pl ++ [⟨t, s, .slot c 0 0 q (i / max each 1)⟩]) (some s) m (i + 1)

/-- Place a channel with ILV = 1 (06 R141); an enabled one fits no map with FAB_ALIGN, listed or not (10 R262). -/
def Alm.placeIlv (a : Alm) (slices rep : List Nat) (placed : List Pos) (c : Nat) : Option (List Pos) :=
  let n := a.wanted rep c
  let t := a.roundLen
  if a.fabAlign && a.chEn c then none
  else if n = 0 then some placed
  else if t % n != 0 then none
  else
    let q := ((List.range 4).find? fun q => decide (0 < a.listed q c)).getD 0
    match firstFit (fun t s => a.newOk placed [⟨t, s, .slot c 0 0 q 0⟩] s) slices t 0 with
    | none => none
    | some (t0, _) => a.placeIlvFrom slices c q t0 (t / n) n (a.listed q c) placed

/-- The pins that a channel connects (04 R66, R85). -/
def Alm.connects (a : Alm) (c : Nat) : List Nat := if 0x18 ≤ a.pos c then [] else [a.pos c, a.neg c]

/-- Whether a channel's pins meet another's. -/
def Alm.sharePins (a : Alm) (c d : Nat) : Bool := (a.connects c).any fun p => (a.connects d).contains p

/-- Whether tick `t` lies in the dwell of a check of channel `c` at tick `s` around a ring (04 R85). -/
def Alm.inDwell (a : Alm) (len c s t : Nat) : Bool := decide ((s + len - t) % len ≤ a.brkDwell c)

/-- The dwell rule for a check slot of channel `c` at tick `t` (04 R85). -/
def Alm.dwellOk (a : Alm) (placed : List Pos) (c t len : Nat) : Bool :=
  decide (a.brkDwell c < len) &&
  placed.all fun p => match p.kind with
    | .cal => true
    | .slot d _ _ _ _ => !(a.sharePins c d && a.inDwell len c t p.t)
    | .check d => !(a.sharePins c d && (a.inDwell len c t p.t || a.inDwell len d p.t t))

/-- The slices on which a channel's conversions are placed. -/
def homesOf (placed : List Pos) (c : Nat) : List Nat :=
  (placed.filterMap fun p => match p.kind with
    | .slot ch _ _ _ _ => if ch = c then some p.sl else none
    | _ => none).eraseDups

/-- Place the check slot of a channel: on its own slice, or, for a channel that the map interleaves, on the lowest slice that
meets the rules (06 R142, 05 R108). DESIGN CHOICE (notes/assumptions/79): a channel that no sequence lists has no slice, and gets
no check slot. -/
def Alm.placeCheck (a : Alm) (slices : List Nat) (placed : List Pos) (c : Nat) : Option (List Pos) :=
  match homesOf placed c with
  | [] => some placed
  | hs =>
    let ok := fun t s => a.newOk placed [⟨t, s, .check c⟩] s && a.rings.all fun len => a.dwellOk placed c t len
    let try1 := fun s => firstFit ok [s] a.roundLen 0
    match (if 1 < hs.length then slices else hs).findSome? try1 with
    | none => none
    | some (t, s) => some (placed ++ [⟨t, s, .check c⟩])

/-- One pass of the build with `k` calibration positions per slice (06 R138). DESIGN CHOICE (notes/assumptions/79): several
channels with ILV = 1, and the check slots of several channels, are placed in ascending channel number; the spec states no order
among them. -/
def Alm.placeAll (a : Alm) (slices rep : List Nat) (k : List (Nat × Nat)) : Option (List Pos) :=
  match foldPlace a.placeCal (nominalCal a.roundLen k) [] with
  | none => none
  | some pl =>
    match foldPlace (a.placeIlv slices rep) ((List.range 20).filter a.ilv) pl with
    | none => none
    | some pl =>
      match foldPlace (a.placeSeq slices rep) a.placeOrder pl with
      | none => none
      | some pl => foldPlace (a.placeCheck slices) ((List.range 20).filter fun c => a.chEn c && 0 < a.brkInt c) pl

/-- Channel and check slots on a slice (06 R138). -/
def slotsOn (pl : List Pos) (s : Nat) : Nat := (pl.filter fun p => p.sl = s && p.kind != .cal).length

/-- The build: `k` grows until it is enough (06 R138, 05 R104). -/
def Alm.build (a : Alm) (slices rep : List Nat) : Nat → List (Nat × Nat) → Option (List Pos)
  | 0, _ => none
  | n + 1, k => match a.placeAll slices rep k with
    | none => none
    | some pl =>
      let k' := k.map fun (s, x) => (s, max x (max 1 (ceilDiv (slotsOn pl s) 255)))
      if k' = k then some pl else Alm.build a slices rep n k'

/-! ## Figures of a map -/

/-- Order of positions: round position, then slice. -/
def posLe (x y : Pos) : Bool := decide (x.t < y.t ∨ (x.t = y.t ∧ x.sl ≤ y.sl))

/-- Number the raw samples of each channel within the round (06 R153). -/
def numberPos (sorted : List Pos) : List Pos :=
  sorted.map fun p => match p.kind with
    | .slot c h _ q r =>
      let before := sorted.filter fun x => match x.kind with
        | .slot c' h' _ _ _ => c' == c && h' == h && decide (x.t < p.t)
        | _ => false
      { p with kind := .slot c h before.length q r }
    | _ => p

/-- The compiled conversions per round of a channel, a pair once (06 R152). -/
def SlotMap.nc (m : SlotMap) (c : Nat) : Nat :=
  (m.pos.filter fun p => match p.kind with
    | .slot ch half _ _ _ => ch == c && half == 0
    | _ => false).length

/-- The slices that convert a channel; more than one makes it interleaved (05 R108). -/
def SlotMap.slicesOf (m : SlotMap) (c : Nat) : List Nat :=
  m.slices.filter fun s => m.pos.any fun p => p.sl == s && (match p.kind with
    | .slot ch _ _ _ _ => ch == c
    | _ => false)

/-- Whether the map interleaves a channel (05 R108). -/
def SlotMap.interleaved (m : SlotMap) (c : Nat) : Bool := decide (1 < (m.slicesOf c).length)

/-- Cold wakes: a gap of more than 500 ticks before a position in some ring (05 R99, 10 R262). -/
def Alm.coldWakes (a : Alm) (slices : List Nat) (pl : List Pos) : Nat :=
  (pl.filter fun p => slices.contains p.sl &&
    a.rings.any fun len => match leastBy (fun x => gapOn len x.t p.t) (pl.filter fun x => x.sl = p.sl && x.t ≠ p.t) with
      | some x => decide (501 < gapOn len x.t p.t)
      | none => decide (501 < len)).length

/-- Length of the union of half-open intervals, sorted by start, given the end so far. -/
def unionLen : Nat → List (Nat × Nat) → Nat
  | _, [] => 0
  | e, (s, t) :: rest => (if t ≤ e then 0 else t - max s e) + unionLen (max e t) rest

/-- Ticks of a round that cyclic intervals cover. -/
def ticksOf (len : Nat) (us : List PinUse) : Nat :=
  let cut := us.flatMap fun u =>
    if len ≤ u.len then [(0, len)]
    else if u.start + u.len ≤ len then [(u.start, u.start + u.len)]
    else [(u.start, len), (0, u.start + u.len - len)]
  unionLen 0 (sortBy (fun x y => decide (x.1 ≤ y.1)) cut)

/-- The excitation terms of the static cost: per pin the current that it delivers times its ticks, and its ticks as a
voltage source (03 R49, 04 R78, R80). -/
def Alm.excCost (a : Alm) (pl : List Pos) : Nat :=
  let t := a.roundLen
  let us := a.continuousUses t ++ pl.flatMap (a.posUses t)
  ((List.range 4).map fun pin =>
    let mine := us.filter fun u => u.pin = pin
    let levels := (mine.map (·.ua)).eraseDups.filter (· ≠ 0)
    let i := (levels.map fun l => l * ticksOf t (mine.filter fun u => u.ua = l)).sum
    let v := ticksOf t (mine.filter (·.drives))
    ceilDiv (3375 * i) (1000 * t) + ceilDiv (13500 * v) t).sum

/-- Channels that the positions convert. -/
def activeChans (pl : List Pos) : List Nat :=
  (List.range 20).filter fun c => pl.any fun p => match p.kind with
    | .slot ch _ _ _ _ => ch == c
    | _ => false

/-- Conversions of a channel, a pair once. -/
def convsOf (pl : List Pos) (c : Nat) : Nat :=
  (pl.filter fun p => match p.kind with
    | .slot ch half _ _ _ => ch == c && half == 0
    | _ => false).length

/-- N_conv: a pair counts twice, a check once (04 R80). -/
def convCount (pl : List Pos) : Nat := (pl.filter fun p => p.kind != .cal).length

/-- The static cost (03 R49), in loop mode when `loop` holds. -/
def Alm.staticCost (a : Alm) (slices : List Nat) (pl : List Pos) (loop : Bool) : Nat :=
  let t := a.roundLen
  let act := activeChans pl
  let e := (act.map fun c => ceilDiv (convsOf pl c * 500000) (t * a.fOsr c)).sum
  5200 + (if a.supplyAux && !loop then 8500 else 3400) + 2600 + ceilDiv (6000 * convCount pl) t +
  ceilDiv (30000 * a.coldWakes slices pl) t + (if a.sxOn then 600 else 0) +
  (act.map fun c => if a.fNotch c = 0 then 90 else 110).sum + ceilDiv (3 * e) 5 +
  40 * ((List.range 8).filter a.varEn).length + a.excCost pl + ceilDiv (4125 * a.vioLoad) 1000 +
  (if a.mdmLoopEn then 3000 else 0) + (if a.mdmSpurEn then 1100 else 0) + (if a.fskEn then 400 else 0)

/-- The budget of 03 R50. -/
def Alm.budgetOk (a : Alm) (slices : List Nat) (pl : List Pos) : Bool :=
  let c := a.staticCost slices pl false
  if a.supplyAux then decide (c ≤ 250000 ∧ 500 * convCount pl ≤ 2000 * a.roundLen)
  else decide (c ≤ 28050 ∧ 500 * convCount pl ≤ 320 * a.roundLen)

/-- W of 04 R89. -/
def Alm.preambleOf (a : Alm) (pl : List Pos) : Nat :=
  (activeChans pl).foldl (fun w c => if a.gated c then max w (1 + a.excLead c) else w) 20

/-- The latest sampling tick of a primary run, relative to its round; for an interleaved channel that of x[n+4]
(06 R135, 05 R109). -/
def Alm.lastOfRun (a : Alm) (pl : List Pos) (run : Nat) : Nat :=
  (pl.filterMap fun p => match p.kind with
    | .slot c _ _ q r =>
      if q = a.primary ∧ r = run then
        let many := decide (1 < ((pl.filter fun x => match x.kind with
          | .slot c' _ _ _ _ => c' == c
          | _ => false).map (·.sl)).eraseDups.length)
        some (p.t + if many then 4 * (a.roundLen / max 1 (convsOf pl c)) else 0)
      else none
    | _ => none).foldl max 0

/-- Delta-u_max (08 R197): the largest interval between the last raw samples of consecutive closing runs, which lie F_OSR
runs apart (06 R135, R153). -/
def Alm.duMaxOf (a : Alm) (rep : List Nat) (pl : List Pos) : Nat :=
  match a.entries a.primary with
  | [] => 0
  | c :: _ =>
    let n := a.fOsr c
    let k := rep.getD a.primary 1
    let last := (List.range k).map (a.lastOfRun pl)
    (a.rings.flatMap fun len => (List.range k).map fun i =>
      let g := n - 1 + n * i
      ((g + n) / k * len + last.getD ((g + n) % k) 0) - (g / k * len + last.getD (g % k) 0)).foldl max 0

/-- G of 08 R197. -/
def Alm.graceOf (a : Alm) (w : Nat) : Nat := 32 + if a.blankEn then a.blankCap + w else 0

/-- A map of placed positions with its figures. -/
def Alm.finishMap (a : Alm) (slices rep : List Nat) (pl : List Pos) : SlotMap :=
  let w := a.preambleOf pl
  { len := a.roundLen, slices := slices, pos := numberPos (sortBy posLe pl), rep := rep, nConv := convCount pl,
    nCold := a.coldWakes slices pl, w := w, duMax := a.duMaxOf rep pl, g := a.graceOf w,
    cost := a.staticCost slices pl false, costLoop := a.staticCost slices pl true, rings := a.rings }

/-- The length M of the notch of a channel (06 R151): `none` when no M fits. -/
def Alm.notchLen (a : Alm) (c nc : Nat) : Option Nat :=
  let f := a.fNotch c
  if f = 0 then some 1
  else
    let num := nc * 500000
    let den := a.roundLen * a.fOsr c * (if f = 1 then 50 else if f = 2 then 60 else 10)
    if num % den = 0 ∧ 2 ≤ num / den then some (num / den)
    else if num ≠ 0 ∧ den % num = 0 then some 1
    else none

/-- Output rates and notches (06 R151, R152). -/
def Alm.ratesOk (a : Alm) (pl : List Pos) : Bool :=
  let act := activeChans pl
  let num := fun c => convsOf pl c * 500000
  let den := fun c => a.roundLen * a.fOsr c
  act.all (fun c => decide (den c ≤ num c) && (a.notchLen c (convsOf pl c)).isSome) &&
  (if a.supplyAux then
    let fast := act.filter fun c => decide (1000 * den c < num c)
    decide (fast.length ≤ 1) && fast.all fun c => decide (num c ≤ 50000 * den c)
  else act.all fun c => decide (num c ≤ 1000 * den c))

/-- Channels that Sextant checks (05 R120). -/
def Alm.sxChans (a : Alm) : List Nat := (List.range 20).filter fun c => a.sxOn && a.chEn c && a.sxEn c

/-- A gated channel that Sextant checks needs EXC_LEAD of at least 4 (05 R123). -/
def Alm.sxLeadBad (a : Alm) : Option Nat := a.sxChans.find? fun c => a.gated c && decide (a.excLead c < 4)

/-! ## Compilation (12 R309, 05 R114, 06 R143) -/

/-- A failed check: its status and FAILED_FIELD (12 Table 12-9). -/
abbrev CompFail := Nat × Nat

/-- Why a map was not built: a failure that lowering rates may mend, or the HOLD_LIMIT row (05 R114); with the placed map and
its figures where placement succeeded. -/
inductive MapFail where
  | lower (f : CompFail) (m : Option SlotMap)
  | hold (f : CompFail) (m : SlotMap)
  deriving DecidableEq, Repr, Inhabited

/-- The failure that a map's failure stands for, and the placed map. -/
def MapFail.fail : MapFail → CompFail × Option SlotMap
  | .lower f m => (f, m)
  | .hold f m => (f, some m)

end Sys2Proof.Machine

/-- The map, or the failure, that MGMT's compiler gives at an arithmetic level other than the factory image's (14 R361): the almanac, the
slices, the rates, and whether the HOLD_LIMIT row applies. -/
opaque Sys2Proof.Config.levelMap : Nat → Sys2Proof.Machine.Alm → List Nat → List Nat → Bool →
    Except Sys2Proof.Machine.MapFail Sys2Proof.Machine.SlotMap

namespace Sys2Proof.Machine

open Sys2Proof

/-- HOLD_LIMIT (08 Table 8-2). -/
def holdLimitId : Nat := fid 7 0 11

/-- Steps 2 and 3 of 12 R309 on one set of slices and rates; `hold` says whether the HOLD_LIMIT row applies (08 R190). `lv` is another
arithmetic level of MGMT's image than the factory's: the spec does not say which map it gives (14 R361). -/
def Alm.makeMap (a : Alm) (lv : Option Nat) (slices rep : List Nat) (hold : Bool) : Except MapFail SlotMap :=
  match lv with
  | some v => Config.levelMap v a slices rep hold
  | none =>
  if !a.continuousOk then .error (.lower (stInfeasible, 0xFFFE) none)
  else match a.build slices rep 80 (slices.map fun s => (s, 1)) with
    | none => .error (.lower (stInfeasible, 0xFFFE) none)
    | some pl =>
      let m := a.finishMap slices rep pl
      if !a.ratesOk pl then .error (.lower (stInfeasible, 0xFFFE) (some m))
      else if hold && decide (a.holdLimit < m.duMax + 3000) then .error (.hold (stInfeasible, holdLimitId) m)
      else if !a.budgetOk slices pl then .error (.lower (stOverBudget, 0xFFFE) (some m))
      else .ok m

/-- Whether a sequence's channels would keep 1 S/s after its rate is halved (06 R143 rule 2). -/
def Alm.keepsRate (a : Alm) (rep : List Nat) (q : Nat) : Bool :=
  let rep' := rep.set q (rep.getD q 1 / 2)
  (a.entries q).all fun c => decide (a.roundLen * a.fOsr c ≤ a.wanted rep' c * 500000)

/-- The sequence whose rate is lowered next (06 R143 rules 1 and 2). DESIGN CHOICE (notes/assumptions/102): an unused sequence
(SQ_LEN = 0), whose rate no map shows, is never lowered. -/
def Alm.toLower (a : Alm) (rep : List Nat) : Option Nat :=
  let able := (List.range 4).filter fun q =>
    q ≠ a.primary && 0 < a.sqLen q && 1 < rep.getD q 1 && a.keepsRate rep q
  able.foldl (fun best q => match best with
    | none => some q
    | some b => if a.sqPrio b ≤ a.sqPrio q then some q else some b) none

/-- A map for fewer slices, its rates lowered until it fits (06 R143). DESIGN CHOICE (notes/assumptions/79): a lowered map that
then fails the output rates or notches of R151 and R152 is lowered further, as one that fails to fit is. -/
def Alm.reducedMap (a : Alm) (lv : Option Nat) (slices : List Nat) (hold : Bool) : Nat → List Nat → Except MapFail SlotMap
  | 0, _ => .error (.lower (stInfeasible, 0xFFFE) none)
  | n + 1, rep => match a.makeMap lv slices rep hold with
    | .ok m => .ok m
    | .error (.hold f m) => .error (.hold f m)
    | .error (.lower f m) => match a.toLower rep with
      | none => .error (.lower f m)
      | some q => Alm.reducedMap a lv slices hold n (rep.set q (rep.getD q 1 / 2))

/-- The almanac's own rates. -/
def Alm.reps (a : Alm) : List Nat := (List.range 4).map a.sqRep

/-- The reduced map from the almanac's rates. -/
def Alm.lowered (a : Alm) (lv : Option Nat) (slices : List Nat) (hold : Bool) : Except MapFail SlotMap :=
  a.reducedMap lv slices hold 32 a.reps

/-- FAILED_FIELD of a map that cannot be built: the HOLD_LIMIT row names HOLD_LIMIT (12 R309). -/
def MapFail.field : MapFail → Nat
  | .hold _ _ => holdLimitId
  | .lower _ _ => 0xFFFE

/-- The fallback maps of slices 0 to 3, or FAILED_FIELD of the first that cannot be built (05 R114, 12 R309). -/
def Alm.fallbacks (a : Alm) (lv : Option Nat) : Except Nat (List SlotMap) :=
  (List.range 4).foldr (fun s acc => match a.lowered lv ((List.range 4).filter (· ≠ s)) true, acc with
    | .ok x, .ok l => .ok (x :: l)
    | .ok _, .error f => .error f
    | .error e, _ => .error e.field) (.ok [])

/-! ## Field-set checks (12 R309 step 1) -/

/-- One check: whether it fails, its status and its field. -/
abbrev Check := Bool × Nat × Nat

/-- The first failing check. -/
def firstFail (l : List Check) : Option CompFail := (l.find? (·.1)).map (·.2)

/-- The temperature source that a table names (07 R168). -/
def tableSource (t : List Byte) : Option Nat :=
  if leAt t 0 1 = 1 ∧ leAt t 2 1 < 20 then some (leAt t 2 1) else none

/-- The channel masks of a table swap that is pending: MEAS holds it, or it is on its way to MEAS (07 R171). -/
def State.swapMasks (s : State) : List (BitVec 20) :=
  (s.meas.swap.map (·.mask)).toList ++ (s.win.coming 4).filterMap fun r => match r with
    | .swap mask _ _ => some mask
    | _ => none

/-- Channels that the active tables name as sources and, while a swap is pending, those of the tables that will be active
(07 R168). -/
def State.sources (s : State) : List Nat :=
  s.meas.tables.toList.filterMap tableSource ++
  s.swapMasks.flatMap fun mask => ((List.range 20).filter fun c => mask.getLsbD c).filterMap fun c =>
    tableSource (s.meas.shadowTables.toList.getD c [])

/-- Set checks of one channel (04 Table 4-3; 05 R108, R120; 07 R168, R175). DESIGN CHOICE (notes/assumptions/80): within one
instance the conditions stand in the order of the spec's tables, since 12 R309 orders blocks and instances only. -/
def Alm.channelChecks (a : Alm) (sources : List Nat) (c : Nat) : List Check :=
  if !a.chEn c then [(sources.contains c, stBadParam, fid 2 c 0)]
  else
    let int := decide (0x18 ≤ a.pos c)
    let mode := a.excModeInUse c
    let x := a.excA c
    let y := a.excB c
    let r := a.excR c
    let nsrc := ([x, y].filter (· < 4)).length
    (if int then [] else
      [(a.neg c == a.pos c, stBadParam, fid 2 c 1),
       (mode != 0 && x == 7, stBadParam, fid 2 c 7),
       (a.excVolt c && (y != 7 || !(1 ≤ a.excLevel c && a.excLevel c ≤ 3)), stBadParam, fid 2 c 6),
       (mode == 3 && r == 7, stBadParam, fid 2 c 7),
       (x != 7 && (x == y || x == r), stBadParam, fid 2 c 8),
       (y != 7 && y == r, stBadParam, fid 2 c 9),
       (mode == 3 && !a.excVolt c && decide (255 < a.excLevel c * nsrc), stBadParam, fid 2 c 6)]) ++
    [(a.ilv c && mode == 3, stBadParam, fid 2 c 7),
     (a.sxOn && a.sxEn c && int, stBadParam, fid 2 c 1),
     (a.sxOn && a.sxEn c && decide (a.roundLen < a.sxWin c + 4), stInfeasible, fid 2 c 21),
     (a.arEn c && int, stBadParam, fid 2 c 1),
     (a.arEn c && !(a.arGmin c ≤ a.gain c && a.gain c ≤ a.arGmax c), stBadParam, fid 2 c 4),
     (a.arEn c && a.ilv c, stBadParam, fid 2 c 18)]

/-- Channels of the primary cycle (06 R133). -/
def Alm.primaryChans (a : Alm) : List Nat := a.entries a.primary

/-- A primary channel whose F_OSR is not that of the lowest-numbered primary channel (06 R134, 12 R309). -/
def Alm.osrDiffers (a : Alm) (c : Nat) : Bool :=
  a.primaryChans.contains c && match (List.range 20).find? a.primaryChans.contains with
    | some l => a.fOsr c != a.fOsr l
    | none => false

/-- Whether entry j of sequence q is the second or a later listing of its channel, in ascending sequence and entry. -/
def Alm.repeated (a : Alm) (q j c : Nat) : Bool :=
  (List.range q).any (fun x => decide (0 < a.listed x c)) || ((a.entries q).take j).contains c

/-- Sequences that list a channel. -/
def Alm.seqsOf (a : Alm) (c : Nat) : List Nat := (List.range 4).filter fun q => decide (0 < a.listed q c)

/-- The GPIO pin that a triggered sequence in use names (06 Table 6-2). -/
def Alm.trigPin (a : Alm) (q : Nat) : Option Nat :=
  if a.sqTriggered q && 0 < a.sqLen q && 2 ≤ a.sqTrig q then some (a.sqTrig q - 2) else none

/-- Set checks of one sequence: it is the primary cycle and unused or triggered, or its SQ_TRIG names an output pin (06 Table
6-3, 02 R45). -/
def Alm.sequenceChecks (a : Alm) (q : Nat) : List Check :=
  let prim := a.primary == q
  [(prim && a.sqLen q == 0, stBadParam, fid 3 q 0), (prim && a.sqTriggered q, stBadParam, fid 3 q 1),
   ((match a.trigPin q with
     | some n => a.gpioDir n
     | none => false), stBadParam, fid 3 q 4)]

/-- Set checks of one entry: a disabled channel; a primary channel that is listed again; a channel with ILV = 1 in a triggered
sequence or in a second one (06 Table 6-3, 12 R309). -/
def Alm.slotChecks (a : Alm) (q j c : Nat) : List Check :=
  let f := fid 4 q j
  [(!a.chEn c, stBadParam, f), (a.primaryChans.contains c && a.repeated q j c, stBadParam, f),
   (a.ilv c && (a.sqTriggered q || (List.range q).any fun x => decide (0 < a.listed x c)), stBadParam, f)]

/-- Set checks of the entries of one sequence. -/
def Alm.entryChecks (a : Alm) (q : Nat) : List Check := (a.entries q).zipIdx.flatMap fun (c, j) => a.slotChecks q j c

/-- Streams that are on (06 R161). -/
def Alm.streamOn (a : Alm) (s : Nat) : Bool := a.qsBufCount s != 0

/-- Set checks of the streams (06 R161). -/
def Alm.streamChecks (a : Alm) : List Check :=
  (List.range 4).flatMap fun s =>
    let before := (List.range s).filter a.streamOn
    [(a.streamOn s && before.any (fun r => (a.qsChmask s) &&& (a.qsChmask r) != 0), stBadParam, fid 5 s 0),
     (a.streamOn s && before.any (fun r => overlap (a.streamRange s) (a.streamRange r)), stBadParam, fid 5 s 2)]

/-- The members of a variable (07 R181). -/
def Alm.members (a : Alm) (v : Nat) : List Nat :=
  if a.varOp v = 0 then ((List.range 4).map (a.varCh v)).filter (· < 20)
  else (List.range 20).filter fun c => (a.varSet v).testBit c

/-- Set checks of a variable (07 R181). -/
def Alm.variableChecks (a : Alm) (v : Nat) : List Check :=
  if !a.varEn v then []
  else
    let ms := a.members v
    let bad := fun (f : Nat → Bool) => if a.varOp v = 0
      then (List.range 4).map fun k => (decide (a.varCh v k < 20) && f (a.varCh v k), stBadParam, fid 6 v (2 + k))
      else [(ms.any f, stBadParam, fid 6 v 11)]
    bad (fun c => !a.chEn c) ++
    [(a.varOp v == 0 && ms.isEmpty, stBadParam, fid 6 v 1),
     (a.varOp v != 0 && (ms.isEmpty || decide (ms.length < a.varMinvalid v)), stBadParam, fid 6 v 1)] ++
    (if v = 0 then bad fun c => !a.primaryChans.contains c else [])

/-- Set checks of the loop (08 Table 8-3). -/
def Alm.loopChecks (a : Alm) : List Check :=
  [(a.urv == a.lrv, stBadParam, fid 7 0 1), (decide (a.satLo ≤ a.almLo), stBadParam, fid 7 0 4),
   (decide (a.almHi ≤ a.satHi), stBadParam, fid 7 0 5)]

/-- The buffers of the FSK layer (09 R234). -/
def Alm.fskRange (a : Alm) : List Nat := bufRange a.fskBufFirst a.fskBufCount

/-- The buffers of the fabric (10 R242). -/
def Alm.fabRange (a : Alm) : List Nat := bufRange a.fabBufFirst a.fabBufCount

/-- Whether a range meets that of a stream that is on. -/
def Alm.meetsStream (a : Alm) (r : List Nat) : Bool := (List.range 4).any fun s => a.streamOn s && overlap r (a.streamRange s)

/-- Set checks of the modem (09 R234). -/
def Alm.modemChecks (a : Alm) : List Check :=
  [(a.fskEn && decide (5 < a.mdmTxLevel), stBadParam, fid 8 0 3), (a.meetsStream a.fskRange, stBadParam, fid 8 0 10)]

/-- The shortest publish period of a mode (10 R242). -/
def pubMin (mode : Nat) : Nat := if mode = 0 then 328500 else if mode = 1 then 85500 else 34875

/-- Set checks of one publish slot (10 R242). -/
def publishChecks (n period phase mode : Nat) : List Check :=
  [(period != 0 && decide (period < pubMin mode), stBadParam, fid 10 n 0),
   (period != 0 && decide (period ≤ phase), stBadParam, fid 10 n 0)]

/-- Set checks of the fabric (10 R242). -/
def Alm.fabricChecks (a : Alm) : List Check :=
  [(a.fabAddr % 64 == 63, stBadParam, fid 9 0 0),
   (a.fabRouteEn && !a.mdmSpurEn, stBadParam, fid 9 0 1),
   (a.meetsStream a.fabRange || overlap a.fabRange a.fskRange, stBadParam, fid 9 0 4),
   (decide (a.roundLen ≤ a.fabAlignPhase), stBadParam, fid 9 0 8)] ++
  (List.range 4).flatMap fun n => publishChecks n (a.pubPeriod n) (a.pubPhase n) (a.pubMode n)

/-- Every set check, in ascending block and instance: channels 2, sequences 3, entries 4, streams 5, variables 6, loop 7, modem
8, fabric 9 and 10 (12 R309 step 1). -/
def Alm.setChecks (a : Alm) (sources : List Nat) : List Check :=
  (List.range 20).flatMap (fun c => a.channelChecks sources c ++ [(a.osrDiffers c, stBadParam, fid 2 c 22)]) ++
  (List.range 4).flatMap a.sequenceChecks ++ (List.range 4).flatMap a.entryChecks ++ a.streamChecks ++
  (List.range 8).flatMap a.variableChecks ++ a.loopChecks ++ a.modemChecks ++ a.fabricChecks

/-- The slices in service (05 R119). -/
def Meas.inService (m : Meas) : List Nat := (List.range 4).filter fun n => !(m.slices.toList[n]?.map (·.retired)).getD false

/-- The whole check and compilation of an almanac (12 R309): the map and its fallback maps, or the first failure. The map
condition of 05 R123 names the lowest of the fields that it relates. A failure after placement comes with the placed map. -/
def Alm.compile (a : Alm) (lv : Option Nat) (slices sources : List Nat) : Except (CompFail × Option SlotMap) (SlotMap × List SlotMap) :=
  match firstFail (a.setChecks sources) with
  | some f => .error (f, none)
  | none =>
    match a.sxLeadBad with
    | some c => .error ((stInfeasible, fid 2 c 7), none)
    | none =>
      match a.makeMap lv slices a.reps true with
      | .error f => .error f.fail
      | .ok m =>
        if slices.length = 4 then match a.fallbacks lv with
          | .ok fs => .ok (m, fs)
          | .error f => .error ((stInfeasible, f), some m)
        else .ok (m, [])

/-! ## Junction of two maps (06 R148) -/

/-- New-map positions whose preparation conflicts with the old map along the straight line: spacing on the slice, or
excitation before the boundary. -/
def junctionSkips (old : SlotMap) (oldAlm : Alm) (new : SlotMap) (a : Alm) : List (Nat × Nat) :=
  (new.pos.filter fun p =>
    let mine := old.pos.filter fun x => x.sl = p.sl
    let near := leastBy (fun x => old.len - x.t) mine
    let tight := match near with
      | some x => decide (p.t + old.len - x.t < a.spacing x.kind p.kind)
      | none => false
    -- excitation of the old map's positions, cut at their own round's start, in ticks before the boundary
    let oldUses := oldAlm.continuousUses old.len ++ old.pos.flatMap fun x =>
      (oldAlm.posUses old.len { x with t := x.t }).map fun u =>
        if x.t < oldAlm.excLead (x.kind.chan.getD 0) then { u with start := 0, len := x.t + 1 } else u
    let lead := match p.kind.chan with
      | some c => if a.gated c then a.excLead c else 0
      | none => 0
    let early := if p.t < lead then
      (a.posUses new.len p).map fun u => { u with start := old.len - min old.len (lead - p.t), len := min old.len (lead - p.t) }
      else []
    let clash := early.any fun u => oldUses.any fun w => u.pin == w.pin &&
      (u.volt != w.volt || u.ret != w.ret || u.rev != w.rev || u.level != w.level) &&
      decide (u.start < w.start + w.len) && decide (w.start < u.start + u.len)
    tight || clash).map fun p => (p.t, p.sl)

end Sys2Proof.Machine
end

