-- ==== Sys2Proof/Machine/FaultSteps.lean ====
section
/-! DEFINITION. The steps of the fault collector (13): reports, watchdogs and monitors, grace windows, acknowledgement,
FAULT_N, the snapshot, injection, the end of a shadow. -/

namespace Sys2Proof.Machine

open Sys2Proof

/-- The outcomes of this machine's steps. -/
abbrev Ans : Type := Host.Outcome State Fault Refusal

/-- A step whose own condition is `c`: its effect when the condition holds, else no change (notes/assumptions/3). -/
def stepIf (c : Bool) (s t : State) : Ans := .next (if c then t else s)

/-- AON consumes the reports that are due, those of the accesses of the tick before among them (13 R314, R315). -/
def execFaultReport (accs : List Access) (s : State) : Ans :=
  stepIf s.clock.powered s (s.checkAccesses accs).collect

/-- The watchdog counts of 13 Table 13-2. -/
def watchdogTicks : Island → Nat
  | .meas => 64
  | .loop => 200
  | .mgmt => 5000
  | .aon => 50000

/-- The watchdog detectors of 13 Table 13-2. -/
def watchdogDet : Island → Nat
  | .meas => 0x18
  | .loop => 0x19
  | .mgmt => 0x1A
  | .aon => 0x1B

/-- A running island's heartbeat is missing for its watchdog count (13 Table 13-2). -/
def execWatchdogExpiry (isl : Island) (s : State) : Ans :=
  let x := s.isl.at isl
  stepIf (s.clock.powered && x.up && !x.wdtFired && decide (watchdogTicks isl ≤ s.now - x.lastBeat)) s
    ((s.setIsl isl { x with wdtFired := true }).report (watchdogDet isl) 0 (srcOf isl))

/-- An island clock is out of lock or range for 2 ticks (13 Table 13-2); AON has no such detector. -/
def execClockOutOfLock (isl : Island) (s : State) : Ans :=
  match isl with
  | .meas => stepIf s.clock.powered s (s.report 0x11 0 0x30)
  | .loop => stepIf s.clock.powered s (s.report 0x12 0 0x20)
  | .mgmt => stepIf s.clock.powered s (s.report 0x13 0 0x10)
  | .aon => .next s

/-- The junction reads above 110 C at 8 consecutive readings (13 Table 13-2); a count of 9 marks it as reported. -/
def execTempHigh (s : State) : Ans :=
  stepIf (s.clock.powered && s.energy.tempCount == 8) s
    ((s.setEnergy { s.energy with tempCount := 9 }).report 0x1C 0 0x40)

/-- The cause of a rail (13 Table 13-2). -/
def railCode : Rail → Nat
  | .vcore => 0
  | .vana => 1
  | .vrefo => 2

/-- A rail is out of limits at 2 consecutive readings (13 Table 13-2); a count of 3 marks it as reported. -/
def execSupRail (rail : Rail) (s : State) : Ans :=
  let n := railCode rail
  stepIf (s.clock.powered && s.energy.railCount.getD n 0 == 2) s
    ((s.setEnergy { s.energy with railCount := s.energy.railCount.set n 3 }).report 0x17 n 0x30)

/-- VIO reads below 2.5 V at 8 consecutive readings (16 R385); a count of 9 marks it as reported. -/
def execVioShort (s : State) : Ans :=
  stepIf (s.clock.powered && s.energy.vioCount == 8) s
    ((s.setEnergy { s.energy with vioCount := 9 }).report 0x16 1 0x40)

/-- The open CONT faults whose grace window ends now or before (13 R318). -/
def State.graceDue (s : State) : List Open :=
  s.faults.opens.filter fun o => !o.acked && !o.reacted &&
    match o.grace with
    | some g => decide (g ≤ s.now)
    | none => false

/-- At the end of a grace window the reaction of an unacknowledged fault is carried out (13 R318). -/
def State.endWindows (s : State) : State :=
  s.graceDue.foldl (fun s o => s.carryOut o.lseq o.det.toNat o.cause.toNat o.react (reactAlarm o)) s

/-- Set ACKED on the log entries of faults. -/
def Faults.ackLog (f : Faults) (ns : List (BitVec 16)) : Faults :=
  ns.foldl (fun f n => f.editLog n fun e => { e with acked := true }) f

/-- The firmware acknowledges the AUTO faults of a detector and orders the reaction of a CONT one (13 R317). -/
def State.autoAck (s : State) (det : Nat) : State :=
  let hit (o : Open) : Bool := o.det.toNat == det && !o.host && !o.acked && decide (o.cls < 2)
  let os := s.faults.opens.filter hit
  let f := { s.faults with opens := s.faults.opens.map fun o => if hit o then { o with acked := true } else o }
  let s := s.setFaults (f.ackLog (os.map (·.lseq)))
  let s := (os.filter fun o => o.cls == 1 && !o.reacted).foldl
    (fun s o => s.carryOut o.lseq det o.cause.toNat o.react (reactAlarm o)) s
  s.setFaults s.faults.prune

/-- FLT_ACK of a detector: every open fault acknowledged, its alarms withdrawn, the reaction of a HOST fault in its window
cancelled and that of an AUTO one ordered without its alarm (13 R317, R324, R337). -/
def State.hostAck (s : State) (det : Nat) : State :=
  let hit (o : Open) : Bool := o.det.toNat == det
  let os := s.faults.opens.filter hit
  let wasAlarm := os.any (·.alarm)
  let order := os.filter fun o => o.cls == 1 && !o.host && !o.acked && !o.reacted
  let clear (o : Open) : Open := if hit o then { o with acked := true, grace := none, alarm := false } else o
  let f := { s.faults with opens := s.faults.opens.map clear }
  let s := s.setFaults (f.ackLog (os.map (·.lseq))).showAlarms
  let s := order.foldl (fun s o => s.carryOut o.lseq det o.cause.toNat o.react false) s
  let s := s.setFaults s.faults.prune
  if wasAlarm then s.settleAlarm else s

/-- Grarvathal acknowledges on MB7 while MGMT runs (13 R317). -/
def execAutoAck (det : BitVec 6) (s : State) : Ans := stepIf s.mgmtUp s (s.postReq 7 0x0602 (.ack det false))

/-- FLT_CLEAR: entries that are not open go, FATAL_SEEN clears, scope 1 invalidates the snapshot (13 R337). -/
def State.clearLog (s : State) (scope : Nat) : State :=
  let f := s.faults
  let s := s.setFaults { f with log := f.log.filter f.isOpen, fatalSeen := false }
  if scope = 1 then s.setNvm { s.nvm with snap := [] } else s

/-- AON acts on the acknowledgements and clearings that it has taken from MB7, after the reports and the windows that end at the
boundary (13 R315, R317, R318, R337). -/
def State.takeAcks (s : State) : State :=
  let t := s.faults.acks.foldl (fun s a => if a.2.1 then s.hostAck a.1.toNat else s.autoAck a.1.toNat)
    (s.setFaults { s.faults with acks := [] })
  t.faults.clears.foldl State.clearLog (t.setFaults { t.faults with clears := [] })

/-- What remains for the collector at a boundary after its reports. -/
def State.endCollect (s : State) : State := s.endWindows.takeAcks

/-- GRACE_EXPIRY: the windows that end at this boundary, then the acknowledgements (13 R315, R318). -/
def execGraceExpiry (s : State) : Ans := stepIf s.clock.powered s s.endCollect

/-- FAULT_N may go high: the MGMT image is verified, no CONT or FATAL fault is open, the minimum has passed (13 R325). -/
def State.faultNFree (s : State) : Bool :=
  !s.faults.bootHold && !s.pins.inReset && decide (s.faults.lowUntil ≤ s.now) && !(s.faults.opens.any fun o => decide (1 ≤ o.cls))

/-- FAULT_N goes high if it may. -/
def State.freeFaultN (s : State) : State := if s.faultNFree then s.setPins { s.pins with faultLow := false } else s

/-- FAULT_N is released at a boundary, after its acknowledgements, once no CONT or FATAL fault is open and its minimum has
passed (13 R325). -/
def execFaultNRelease (s : State) : Ans :=
  stepIf s.clock.powered s (if s.endCollect.pins.faultLow then s.endCollect.freeFaultN else s.endCollect)

/-- AON writes the record of the first waiting FATAL fault to the snapshot's ring of 128 places (13 R338). -/
def execSnapshotWrite (s : State) : Ans :=
  match s.faults.snapWait with
  | [] => .next s
  | e :: es =>
    let n := s.nvm.snapSeq + 1
    stepIf s.clock.powered s
      ((s.setFaults { s.faults with snapWait := es }).setNvm
        { s.nvm.wrote [NvmArea.snapshot.first + n % 128 / 8] with snap := ((n, e) :: s.nvm.snap).take 128, snapSeq := n })

/-- A 32-byte snapshot record (13 R338). -/
def snapRecord (n : Nat) (e : LogEntry) : List Byte :=
  let b := e.bytes ++ leBytes 4 n ++ zeros 8
  b ++ leBytes 4 (crc32 b)

/-- The injection requests that AON has taken arm their detectors (13 R332). -/
def State.armDue (s : State) : State :=
  s.setFaults (s.faults.armReq.foldl (fun f r => f.arm r.1 r.2.1) { s.faults with armReq := [] })

/-- INJECTION_ARM: at the boundary at which AON consumes the request (13 R332). -/
def execInjectionArm (s : State) : Ans := stepIf s.clock.powered s s.armDue

/-- The conditions of detectors that State itself holds, as detector, cause and island: the crystal lost, LOOP_LOW, AUX_LOST,
VIO_OVER and VIO_SHORT, a rail out of limits, the temperature, crossed waits, a stuck BLANK, compliance, the fold
(13 Table 13-2, R331). -/
def State.conditions (s : State) : List (Nat × Nat × Byte) :=
  let e := s.energy
  let on (c : Bool) (d n : Nat) (i : Byte) : List (Nat × Nat × Byte) := if c then [(d, n, i)] else []
  let crossed (p : Nat) : Bool := s.win.crossRaised.getD p false
  on s.clock.lost 0x10 0 0x40 ++ on (e.lowCount == 9) 0x14 0 0x40 ++ on e.auxLost 0x15 0 0x40 ++
  on (decide (s.mgmt.inForce.vioLoad + 50 < e.vioUa)) 0x16 0 0x40 ++ on (e.vioCount == 9) 0x16 1 0x40 ++
  ((List.range 3).flatMap fun n => on (e.railCount.getD n 0 == 3) 0x17 n 0x30) ++ on (e.tempCount == 9) 0x1C 0 0x40 ++
  ((List.range 4).flatMap fun p => on (crossed p) 0x1F p 0x40) ++ on s.meas.round.blankIgnored 0x22 0 0x30 ++
  on s.loop.complying 0x23 0 0x40 ++ on s.loop.isFolded 0x24 0 0x40

/-- The detectors whose conditions State holds. -/
def condDets : List Nat := [0x10, 0x14, 0x15, 0x16, 0x17, 0x1C, 0x1F, 0x22, 0x23, 0x24]

/-- A shadow ends 64 ticks after UP; each shadowed detector whose condition still holds reports again: those whose conditions State
holds, and of the others those that the operand names (13 R330, R331). -/
def execShadowEnd (isl : Island) (holding : List Access) (s : State) : Ans :=
  let x := s.isl.at isl
  let due := match x.shadowEnd with
    | some t => decide (t ≤ s.now)
    | none => false
  let x' : Isl := { x with shadow := false, shadowEnd := none, origin := 0xFF, wdtFired := false, readyFrom := s.now + 64 }
  let s' := (s.setIsl isl x').emitIsland isl 3
  let named := (holding.filter fun a => a.err != .none && !condDets.contains a.det.toNat).map fun a =>
    (a.det.toNat, a.cause.toNat, a.island)
  let again := (s.conditions ++ named).filter fun c => shadows isl c.1 c.2.1
  stepIf (s.clock.powered && x.shadow && due) s (again.foldl (fun s c => s.report c.1 c.2.1 c.2.2) s')

end Sys2Proof.Machine
end

