-- ==== Sys2Proof/Machine/Spi.lean ====
section
/-! DEFINITION. The SPI port (11): transactions, the address map, ownership words, MB0 and MB1 on the host's side, doorbells,
locks and the direct queue port. -/

namespace Sys2Proof.Machine

open Sys2Proof

/-- A queue entry as 64 bits (06 Table 6-8). -/
def QEntry.word (e : QEntry) : Nat :=
  e.value.toNat * 1099511627776 + e.chan.toNat * 34359738368 + e.tags.toNat * 134217728 + stamp27 e.stamp

/-- Flags that a transaction leaves in the status byte (11 Table 11-4). -/
structure SpiFlags where
  crc : Bool
  rsvd : Bool
  own : Bool
  post : Bool
  frame : Bool
  deriving DecidableEq, Repr

def SpiFlags.none : SpiFlags := ⟨false, false, false, false, false⟩
def SpiFlags.or (a b : SpiFlags) : SpiFlags :=
  ⟨a.crc || b.crc, a.rsvd || b.rsvd, a.own || b.own, a.post || b.post, a.frame || b.frame⟩
def SpiFlags.frameErr : SpiFlags := ⟨false, false, false, false, true⟩
def SpiFlags.crcErr : SpiFlags := ⟨true, false, false, false, false⟩
def SpiFlags.rsvdErr : SpiFlags := ⟨false, true, false, false, false⟩

/-- The end of a transaction: the next status byte, and the counters of damaged transactions (11 R267, 15 Table 15-8). -/
def State.spiEnd (s : State) (f : SpiFlags) : State :=
  let ok := !(f.crc || f.frame || f.own || f.post)
  let s := s.setWin { s.win with status := ⟨ok, f.crc, f.rsvd, f.own, f.post, f.frame⟩ }
  let s := if f.crc then s.count .spiCrcErr else s
  if f.frame then s.count .spiFrameErr else s

/-- Whether the port takes transactions: the device is supplied and RST_N is not held low (02 R31). -/
def State.spiOn (s : State) : Bool := s.clock.powered && !s.pins.inReset

/-! ## What the device drives on HMISO (11 Tables 11-1, 11-2) -/

/-- LENC of a data length (11 Table 11-3); 8 for a length that no code gives. -/
def lenCode (n : Nat) : Nat := [1, 2, 4, 8, 16, 32, 64, 256].findIdx (· == n)

/-- The bytes on HMISO: none until MGMT has started (02 R31), zeros beyond what the tables give, `n` bytes clocked. -/
def State.drive (s : State) (bs : List Byte) (n : Nat) : State :=
  s.setWin { s.win with out := if s.pins.started.mgmt then (bs ++ zeros n).take n else [] }

/-- HMISO of a read at an address: status byte, three zeros, the data, the data CRC or, of a refused header, its complement
(11 R266). -/
def State.readOut (s : State) (cmd a : Nat) (data : List Byte) (sound : Bool) : List Byte :=
  let crc := crc8 (BitVec.ofNat 8 cmd :: BitVec.ofNat 8 (a / 256) :: BitVec.ofNat 8 a :: data)
  s.spiStatusByte :: zeros 3 ++ data ++ [if sound then crc else ~~~ crc, 0]

/-- HMISO of a write: the status byte, then zeros. -/
def State.driveWrite (s : State) (n : Nat) : State := s.drive [s.spiStatusByte] n

/-- HMISO of a row that is a write of one register word or, for MB0_NOTICE, of two. -/
def State.wordWrite (s : State) (words : Nat) : State := s.driveWrite (4 * words + 4)

/-! ## Ownership words (11 R274) -/

/-- The transitions of 11 Table 11-9 that the local host makes: claim and release. -/
def hostTransition (old new : Own) : Bool :=
  match old, new with
  | .free, .host => true
  | .host, .free => true
  | _, _ => false

/-- The host's conditional change of an ownership word; whether it takes effect (11 R274). -/
def State.hostOwn (s : State) (n : Nat) (own : Option Own) (gen : BitVec 6) : State × Bool :=
  let w := s.win.ownAt n
  match own with
  | none => (s, false)
  | some o => if w.gen = gen ∧ hostTransition w.own o then (s.setOwner n o 0x01, true) else (s, false)

/-- The transitions of 11 Table 11-9 that the device's islands make by a write. -/
def deviceTransition (old new : Own) : Bool :=
  match old, new with
  | .free, .device => true
  | .device, .free => true
  | .device, .host => true
  | _, _ => false

/-- OWN of a written word; 0b11 is reserved. -/
def ownOfCode (c : Nat) : Option Own :=
  if c = 0 then some .free else if c = 1 then some .host else if c = 2 then some .device else none

/-! ## MB0, MB1, doorbells, locks (11 R282 to R285, R292, R294) -/

/-- The SRC_ID of a party (11 Table 11-11). -/
def partySrc : Party → Byte
  | .mgmt => 0x10
  | .loop => 0x20
  | .meas => 0x30
  | .host => 0x01
  | .aon => 0x40

/-- The fixed priority of 11 R275 and R293. -/
def partyOrder : List Party := [.mgmt, .loop, .meas, .host, .aon]

/-- An island's conditional change of an ownership word (11 R274). -/
def State.islandOwn (s : State) (n : Nat) (w : OwnWrite) : State :=
  match ownOfCode w.own.toNat with
  | none => s
  | some o =>
    if (s.win.ownAt n).gen = w.gen ∧ deviceTransition (s.win.ownAt n).own o then s.setOwner n o (partySrc w.who) else s

/-- The writes of one ownership word in one reference cycle: the islands before the host in priority, the host's, the others,
each judged against the word as the ones before leave it (11 R275). -/
def State.ownCycle (s : State) (n : Nat) (own : Option Own) (gen : BitVec 6) (others : List OwnWrite) : State × Bool :=
  let of (s : State) (ps : List Party) : State :=
    (ps.flatMap fun p => others.filter (·.who == p)).foldl (fun s w => s.islandOwn n w) s
  let (s, ok) := (of s (partyOrder.take 3)).hostOwn n own gen
  (of s (partyOrder.drop 4), ok)

/-- Note whether a DEVICE-owned buffer holds a reply that the host turned back (11 R284, R289). -/
def State.turn (s : State) (b : Nat) (on : Bool) : State :=
  let rest := s.win.turned.filter (· != b)
  s.setWin { s.win with turned := if on then b :: rest else rest }

/-- A post to MB0: accepted only if nothing is pending and the buffer is HOST-owned (11 R282, R283, R286). DESIGN CHOICE
(notes/assumptions/108): a refused post that fails on both counts sets BUSY and not OWN_ERR. -/
def State.hostPost (s : State) (w : Word64) : State × SpiFlags :=
  let m := s.win.mbAt 0
  let n := mkNotice (nbBuf w) (nbLen w) 0x01 (nbHint w) (nbTag w)
  if m.pending then
    ((s.setWin (s.win.setMb 0 { m with busy := true })).emitMailbox 0 false false true 0x01 n 0, ⟨false, false, false, true, false⟩)
  else if (s.win.ownAt (nbBuf w)).own ≠ .host then
    (s.emitMailbox 0 false false true 0x01 n 0, ⟨false, false, true, true, false⟩)
  else (((s.setOwner (nbBuf w) .device 0x01).turn (nbBuf w) false).postMb 0 n s.mgmtAsleep, SpiFlags.none)

/-- The host's acknowledge of MB1 (11 R284); the read-only ACK_SRC of the word is ignored (11 R268). -/
def State.hostMb1Ack (s : State) (v : Nat) : State × SpiFlags :=
  let m := s.win.mbAt 1
  let code := v / 256 % 256
  if !m.pending || v % 256 ≠ 1 || 16777216 ≤ v || 2 ≤ code then (s, ⟨false, false, false, true, false⟩)
  else
    let s := s.ackEffect 1 (BitVec.ofNat 8 code) 0x01
    let s := if code = 1 then (s.setOwner (nbBuf m.notice) .device 0x01).turn (nbBuf m.notice) true else s
    (s.postNext, SpiFlags.none)

/-- Write ones to HOST_DB (11 R285). -/
def State.dbClear (s : State) (ones : Word32) : State := s.setWin { s.win with db := s.win.db &&& ~~~ ones }

/-- A lock register. -/
def Window.lockAt (w : Window) (n : Nat) : Byte := w.locks.getD n 0

/-- Which locks a party's read acquires: the host never LK1 to LK3 (11 R294). -/
def mayLock (n : Nat) (who : Party) : Bool :=
  match who with
  | .host => !(1 ≤ n && n ≤ 3)
  | _ => true

/-- A read of a lock: a free one becomes the reader's when the read stands (11 R292, R266); the value read. -/
def State.lockRead (s : State) (n : Nat) (who : Party) (commit : Bool) : State × Byte :=
  let v := s.win.lockAt n
  if v = 0 ∧ mayLock n who ∧ commit then (s.setWin { s.win with locks := s.win.locks.setIfInBounds n (partySrc who) }, v)
  else (s, v)

/-- The island of a party. -/
def partyIsland : Party → Option Island
  | .mgmt => some .mgmt
  | .loop => some .loop
  | .meas => some .meas
  | .host => none
  | .aon => some .aon

/-- An island's read of a lock, with the value that it gets (11 R292). -/
def State.islandLock (s : State) (n : Nat) (who : Party) : State :=
  match partyIsland who with
  | none => s
  | some i =>
    let (s, v) := s.lockRead n who true
    s.setWin { s.win with lockVal := s.win.lockVal.put i v }

/-- Whether a party asks for the lock in this reference cycle. -/
def asksLock (a : LockAsk) (p : Party) : Bool := p == a.who || a.others.contains p

/-- The islands among the requesters of one reference cycle, in the fixed priority (11 R293). -/
def State.lockCycle (s : State) (n : Nat) (ask : LockAsk) (ps : List Party) : State :=
  (ps.filter (asksLock ask)).foldl (fun s p => s.islandLock n p) s

/-- A write of a lock: LK_OWNER 0x00 by the owner releases it; whether it did. The reserved bits are ignored (11 R268,
R292). -/
def State.lockWrite (s : State) (n : Nat) (who : Party) (v : Word32) : State × Bool :=
  if v.toNat % 256 = 0 ∧ s.win.lockAt n = partySrc who then
    (s.setWin { s.win with locks := s.win.locks.setIfInBounds n 0 }, true)
  else (s, false)

/-- Remove the first entries of the result queue; QOVF clears at 256 entries or fewer (06 R159, R160). -/
def Meas.qDrop (m : Meas) (k : Nat) : Meas :=
  let q := m.queue.drop k
  { m with queue := q, qovf := m.qovf && decide (256 < q.length) }

/-- DONE of MB0_ACK clears when the read stands (11 R281, R266). -/
def State.ackReadClear (s : State) (commit : Bool) : State :=
  if commit then s.setWin (s.win.setMb 0 { s.win.mbAt 0 with done := false }) else s

/-! ## The address map (11 Table 11-6) -/

/-- A register word's value for a read without side effects; `none` at a reserved address. -/
def State.regWord (s : State) (a : Nat) : Option Word32 :=
  let w := s.win
  if 0x4000 ≤ a ∧ a < 0x4100 then some (w.ownAt ((a - 0x4000) / 4)).word
  else if a = 0x4100 then some (BitVec.ofNat 32 (w.mbAt 0).notice.toNat)
  else if a = 0x4104 then some (BitVec.ofNat 32 ((w.mbAt 0).notice.toNat / 4294967296))
  else if a = 0x4108 then some (w.mbAt 0).ackWord
  else if a = 0x410C then some (w.mbAt 0).statWord
  else if a = 0x4110 then some (BitVec.ofNat 32 (w.mbAt 1).notice.toNat)
  else if a = 0x4114 then some (BitVec.ofNat 32 ((w.mbAt 1).notice.toNat / 4294967296))
  else if a = 0x4118 then some 0
  else if a = 0x411C then some (w.mbAt 1).statWord
  else if a = 0x4180 then some w.db
  else if a = 0x4184 then some w.dbMask
  else if 0x4200 ≤ a ∧ a < 0x4220 then some (BitVec.ofNat 32 (w.lockAt ((a - 0x4200) / 4)).toNat)
  else if a = 0x4300 then some 0x0E0C0020
  else if a = 0x4304 then some (BitVec.ofNat 32 (Config.siRev.toNat + 256 * Config.romRev.toNat))
  else if a = 0x4308 then some (BitVec.ofNat 32 Config.uid.toNat)
  else if a = 0x430C then some (BitVec.ofNat 32 (Config.uid.toNat / 4294967296))
  else if a = 0x4310 then some (BitVec.ofNat 32 s.clock.meridian.toNat)
  else if a = 0x4314 then some (BitVec.ofNat 32 (s.clock.meridian.toNat / 4294967296))
  else if a = 0x4318 then some s.energy.register
  else if a = 0x431C then some s.faultSummary
  else if a = 0x4320 then some s.statusWord
  else if a = 0x4324 then some (BitVec.ofNat 32 s.qOcc)
  else if 0x4400 ≤ a ∧ a < 0x44C0 then some (BitVec.ofNat 32 (s.obs.capture ((a - 0x4400) / 4)))
  else none

/-- The entry word that a read at the queue port finds at a place; all ones beyond the entries selected, and in STREAM mode
(11 R273). -/
def State.portWord (s : State) (base k a : Nat) : Nat :=
  let i := (a - base) / 8
  if i < k then (match s.qReady[i]? with
    | some e => e.word
    | none => 0xFFFFFFFFFFFFFFFF)
  else 0xFFFFFFFFFFFFFFFF

/-- One byte of the address space for a read of a transaction that starts at `base` and selects `k` queue entries; `none` at a
reserved address. -/
def State.readByte (s : State) (base k a : Nat) : Option Byte :=
  if a < 0x4000 then some (cellRead s.win.mem a)
  else if a < 0x4600 then (s.regWord (a / 4 * 4)).map fun w => BitVec.ofNat 8 (w.toNat / 256 ^ (a % 4))
  else if a < 0x4700 then some (BitVec.ofNat 8 (s.portWord base k a / 256 ^ (a % 8)))
  else none

/-- Whether a transaction touches the registers. -/
def touchesRegs (a n : Nat) : Bool := decide (a < 0x4600 ∧ 0x4000 < a + n)

/-- Whether a transaction breaks the rule of whole aligned words (11 R268). -/
def badAlign (a n : Nat) : Bool := touchesRegs a n && !(a % 4 == 0 && n % 4 == 0)

/-- Whether a read breaks the rules of the queue port (11 R273). -/
def badPort (a n : Nat) : Bool := decide (0x4600 ≤ a ∧ a < 0x4700) && !(a % 8 == 0 && n % 8 == 0)

/-- The queue entries that a read selects (11 R273). -/
def State.selects (s : State) (a n : Nat) : Nat :=
  if 0x4600 ≤ a ∧ a < 0x4700 ∧ s.mgmt.inForce.queueStream = false then min (min n (0x4700 - a) / 8) s.qOcc else 0

/-- The actions of a read that stand when it is committed: locks, the queue, MB0_ACK (11 R266). -/
def State.readActions (s : State) (a n : Nat) (commit : Bool) : State :=
  let k := s.selects a n
  let covers (x : Nat) : Bool := decide (a ≤ x ∧ x < a + n)
  let s := (List.range 8).foldl (fun s i => if covers (0x4200 + 4 * i) then (s.lockRead i .host commit).1 else s) s
  let s := if covers 0x4108 then s.ackReadClear commit else s
  if commit && k != 0 then s.setMeas (s.meas.qDrop k) else s

/-- A read of `n` bytes whose header is sound: data, actions, status; `len` bytes are clocked (11 R266 to R268). -/
def State.spiRead (s : State) (a n len : Nat) (commit : Bool) (count : Bool) : State :=
  let k := s.selects a n
  let bs := (List.range n).map fun i => s.readByte a k (a + i)
  let data := bs.map fun b => b.getD 0
  let rsvd := bs.any fun b => b.isNone
  let out := s.readOut (128 + 16 * lenCode n) a data true
  let s := s.readActions a n (commit && count)
  (s.drive out len).spiEnd ⟨count && !commit, rsvd, false, false, !count⟩

/-- A read whose header is refused: zeros and the complement of the CRC (11 R266). -/
def State.spiReadRefused (s : State) (cmd a n len : Nat) (f : SpiFlags) : State :=
  (s.drive (s.readOut cmd a (zeros n) false) len).spiEnd f

/-- Write one register word; the flags that it sets (11 R268). The bits of a HOST_DB word are cleared before the write's other effects,
for a bit that one of them sets in the same cycle stays set (11 R285). -/
def State.writeWord (s : State) (a : Nat) (v : Nat) : State × SpiFlags :=
  if 0x4000 ≤ a ∧ a < 0x4100 then
    let (s, ok) := s.hostOwn ((a - 0x4000) / 4) (ownOfCode (v % 4)) (BitVec.ofNat 6 (v / 4))
    (s, ⟨false, false, !ok, false, false⟩)
  else if a = 0x410C ∨ a = 0x411C then
    let k := (a - 0x410C) / 16
    let m := s.win.mbAt k
    (s.setWin (s.win.setMb k { m with
      timeout := m.timeout && !v.testBit 2, cross := m.cross && !v.testBit 3, busy := m.busy && !v.testBit 4 }), SpiFlags.none)
  else if a = 0x4118 then s.hostMb1Ack v
  else if a = 0x4180 then (s, SpiFlags.none)
  else if a = 0x4184 then (s.setWin { s.win with dbMask := BitVec.ofNat 32 (v % 16384) }, SpiFlags.none)
  else if 0x4200 ≤ a ∧ a < 0x4220 then
    let (s, ok) := s.lockWrite ((a - 0x4200) / 4) .host (BitVec.ofNat 32 v)
    (s, if ok then SpiFlags.none else SpiFlags.rsvdErr)
  else (s, SpiFlags.rsvdErr)

/-- The register words of a write, in ascending order; MB0_NOTICE is written as a whole (11 R282). -/
def State.writeWords : Nat → State → Nat → List Byte → State × SpiFlags
  | 0, s, _, _ => (s, SpiFlags.none)
  | n + 1, s, a, bs =>
    if a = 0x4100 then
      let (s, f) := s.hostPost (BitVec.ofNat 64 (leAt bs 0 8))
      let (s, g) := State.writeWords n s (a + 4) (bs.drop 4)
      (s, f.or g)
    else if a = 0x4104 then State.writeWords n s (a + 4) (bs.drop 4)
    else
      let (s, f) := s.writeWord a (leAt bs 0 4)
      let (s, g) := State.writeWords n s (a + 4) (bs.drop 4)
      (s, f.or g)

/-- The buffers that a write of `n` bytes at `a` touches. -/
def touchedBufs (a n : Nat) : List Nat := (List.range 64).filter fun b => decide (a < b * 256 + 256 ∧ b * 256 < a + n)

/-- A write of whole data (11 R265, R268, R277): either nothing is carried out, or everything. -/
def State.spiWrite (s : State) (a : Nat) (bs : List Byte) : State :=
  let n := bs.length
  let half := decide ((a ≤ 0x4103 ∧ 0x4100 < a + n) ∨ (a ≤ 0x4107 ∧ 0x4104 < a + n)) && !decide (a ≤ 0x4100 ∧ 0x4108 ≤ a + n)
  if badAlign a n || half then s.spiEnd SpiFlags.frameErr
  else if (touchedBufs a n).any fun b => (s.win.ownAt b).own != .host then
    (s.count .ownViol).spiEnd ⟨false, false, true, false, false⟩
  else
    let inWin := bs.take (0x4000 - a)
    let s := if a < 0x4000 then s.winWrite a inWin else s
    let ra := max a 0x4000
    let regs := (bs.drop (0x4000 - a)).take (0x4600 - ra)
    let s := if ra ≤ 0x4180 ∧ 0x4180 < ra + regs.length then s.dbClear (BitVec.ofNat 32 (leAt regs (0x4180 - ra) 4)) else s
    let (s, f) := State.writeWords (regs.length / 4) s ra regs
    s.spiEnd (f.or ⟨false, decide (0x4600 < a + n), false, false, false⟩)

/-- N of a command byte (11 Table 11-3). -/
def spiLen (c : Nat) : Nat := let k := c / 16 % 8; if k = 7 then 256 else 2 ^ k

/-- A transaction as the host's bytes (11 Tables 11-1, 11-2); `whole` when HCS_N did not rise inside a byte. -/
def State.spiTransaction (s : State) (bytes : List Byte) (whole : Bool) : State :=
  match bytes with
  | [] => (s.drive [] 0).spiEnd SpiFlags.frameErr
  | c :: rest =>
    let n := spiLen c.toNat
    let a := (byteAt rest 0).toNat * 256 + (byteAt rest 1).toNat
    let rsvdBits := decide (c.toNat % 16 ≠ 0)
    if c.toNat < 128 then
      let s := s.driveWrite bytes.length
      if bytes.length ≠ n + 4 || !whole then s.spiEnd SpiFlags.frameErr
      else
        let crcBad := crc8 (bytes.take (n + 3)) != byteAt bytes (n + 3)
        if crcBad || rsvdBits then s.spiEnd ⟨crcBad, false, false, false, rsvdBits⟩
        else s.spiWrite a ((bytes.drop 3).take n)
    else if bytes.length < 4 then (s.driveWrite bytes.length).spiEnd SpiFlags.frameErr
    else if crc8 (bytes.take 3) ≠ byteAt bytes 3 then s.spiReadRefused c.toNat a n bytes.length SpiFlags.crcErr
    else if rsvdBits || badAlign a n || badPort a n then s.spiReadRefused c.toNat a n bytes.length SpiFlags.frameErr
    else
      let count := decide (bytes.length = n + 6) && whole
      let data := (List.range n).map fun i => (s.readByte a (s.selects a n) (a + i)).getD 0
      s.spiRead a n bytes.length (byteAt bytes (n + 5) == crc8 (bytes.take 3 ++ data)) count

/-! ## The steps -/

/-- A transaction whose bytes are given whole (11 R263 to R268, R277). -/
def execSpiWrite (bytes : List Byte) (whole : Bool) (s : State) : Ans :=
  stepIf s.spiOn s (s.spiTransaction bytes whole)

/-- The host claims a FREE buffer, other parties writing the same word in the same reference cycle or none (11 R274,
R275). -/
def execBufferClaim (n : Fin 64) (ask : OwnAsk) (s : State) : Ans :=
  let (t, ok) := (s.wordWrite 1).ownCycle n.val (some .host) ask.gen ask.others
  stepIf s.spiOn s (t.spiEnd ⟨false, false, !ok, false, false⟩)

/-- The host releases its buffer (11 R274, R275). -/
def execBufferRelease (n : Fin 64) (ask : OwnAsk) (s : State) : Ans :=
  let (t, ok) := (s.wordWrite 1).ownCycle n.val (some .free) ask.gen ask.others
  stepIf s.spiOn s (t.spiEnd ⟨false, false, !ok, false, false⟩)

/-- The committed write of MB0_NOTICE (11 R282, R283). -/
def execMb0Post (notice : Word64) (s : State) : Ans :=
  let (t, f) := (s.wordWrite 2).hostPost notice
  stepIf s.spiOn s (t.spiEnd f)

/-- MB1_ACK with DONE and ACCEPTED (11 R284). -/
def execMb1AckAccepted (s : State) : Ans :=
  let (t, f) := (s.wordWrite 1).hostMb1Ack 0x0001
  stepIf s.spiOn s (t.spiEnd f)

/-- MB1_ACK with DONE and BAD_NOTICE (11 R284). -/
def execMb1AckBadNotice (s : State) : Ans :=
  let (t, f) := (s.wordWrite 1).hostMb1Ack 0x0101
  stepIf s.spiOn s (t.spiEnd f)

/-- A read of MB0_ACK; DONE clears when it is committed (11 R281, R266). -/
def execMb0AckRead (commit : Bool) (s : State) : Ans :=
  stepIf s.spiOn s (s.spiRead 0x4108 4 10 commit true)

/-- A write of ones to HOST_DB (11 R285). -/
def execDoorbellClear (ones : Word32) (s : State) : Ans :=
  stepIf s.spiOn s (((s.wordWrite 1).dbClear ones).spiEnd SpiFlags.none)

/-- Reads of a lock by the parties that request it in one reference cycle (11 R292 to R294). AON comes after the host in the priority: it
finds the lock taken by a host read, which may yet be undone (11 R266, notes/assumptions/107). -/
def execLockAcquire (n : Fin 8) (ask : LockAsk) (commit : Bool) (s : State) : Ans :=
  let k := n.val
  let t := s.lockCycle k ask (partyOrder.take 3)
  if asksLock ask .host && s.spiOn then
    let taken := t.win.lockAt k == 0 && mayLock k .host
    let u := t.spiRead (0x4200 + 4 * k) 4 10 commit true
    .next (if !asksLock ask .aon then u
      else if taken then u.setWin { u.win with lockVal := u.win.lockVal.put .aon 0x01 }
      else u.islandLock k .aon)
  else stepIf s.clock.powered s (t.lockCycle k ask [.aon])

/-- A write of a lock by any party (11 R292). -/
def execLockRelease (n : Fin 8) (who : Party) (value : Word32) (s : State) : Ans :=
  let (t, ok) := s.lockWrite n.val who value
  match who with
  | .host => stepIf s.spiOn s ((t.drive [s.spiStatusByte] 8).spiEnd (if ok then SpiFlags.none else SpiFlags.rsvdErr))
  | _ => stepIf s.clock.powered s t

/-- A read at the queue port; the entries are removed only when it is committed (11 R273, R266). -/
def execQueueRead (addr : BitVec 16) (len : Nat) (commit : Bool) (s : State) : Ans :=
  let a := addr.toNat
  let ok := decide (0x4600 ≤ a ∧ a < 0x4700 ∧ lenCode len < 8)
  stepIf (s.spiOn && ok) s
    (if badPort a len then s.spiReadRefused (128 + 16 * lenCode len) a len (len + 6) SpiFlags.frameErr
     else s.spiRead a len (len + 6) commit true)

end Sys2Proof.Machine
end

