-- ==== Sys2Proof/Machine/Mail.lean ====
section
/-! DEFINITION. MGMT's side of the mailboxes (11 R281, R286, R290; 12 R299): taking notices, acknowledges, the timeout of a
held post, crossed waits; and the steps of command packets that are not commands (12 R299 to R303). -/

namespace Sys2Proof.Machine

open Sys2Proof

/-- Entries of the command queue in use: commands that wait, are outstanding, or whose reply has not left (11 Crossed waits). -/
def State.queueUse (s : State) : Nat :=
  s.mgmt.queue.length + (s.mgmt.outst.filter (·.via)).length + s.mgmt.replies.length

/-- A notice that MGMT may take now: posted in an earlier tick and not yet answered (01 R17). -/
def State.takeable (s : State) (k : Nat) : Bool :=
  let m := s.win.mbAt k
  m.untaken && decide (m.since < s.now)

/-- MGMT takes a notice: NB_LEN of 1 to 256, a buffer on its side that holds what the hint names, else the acknowledge
says so (11 Table 11-12). -/
def State.takeNotice (s : State) (k : Nat) (sender : BitVec 12) : State :=
  let m := s.win.mbAt k
  let ack (s : State) (code : Byte) : State := s.takeReq k code
  let b := nbBuf m.notice
  let len := nbLen m.notice
  if (s.win.ownAt b).own ≠ .device then ack s 0x02
  else if len = 0 ∨ 256 < len ∨ leAt (s.bufRead b 2) 0 2 ≠ nbHint m.notice then
    let s := ack s 0x01
    if k = 0 then s.setOwner b .host 0x10 else s.setOwner b .free 0x10
  else
    let q : QueuedCmd := ⟨BitVec.ofNat 8 (nbSrc m.notice), sender, BitVec.ofNat 6 b, len⟩
    let s := ack s 0x00
    (s.setMgmt { s.mgmt with queue := s.mgmt.queue ++ [q] }).settle 4

/-- The fabric address behind an MB2 notice: its session's partner, or the sender that LOOP recorded for a broadcast
(10 R244, 12 R305). -/
def State.noticeSender (s : State) (w : Word64) : BitVec 12 :=
  match sessionOf (BitVec.ofNat 8 (nbSrc w)) with
  | some n => (s.fab.sess n).addr
  | none => s.fab.bcastFrom

/-- Whether MB0's notice comes before MB2's: a held one is the first after a start (11 R286), then the earlier post, and MB0
first among the notices of one tick (12 R299). -/
def State.mb0First (s : State) : Bool :=
  s.takeable 0 && (!s.takeable 2 || (s.win.mbAt 0).held || decide ((s.win.mbAt 0).since ≤ (s.win.mbAt 2).since))

/-- MGMT takes the notice that reached it first while its queue of 4 has room (12 R299, 11 Crossed waits). -/
def execMb0NoticeConsume (s : State) : Ans :=
  let room := s.mgmtUp && s.ready && decide (s.queueUse < 4)
  if s.mb0First then stepIf room s (s.takeNotice 0 0)
  else stepIf (room && s.takeable 2) s (s.takeNotice 2 (s.noticeSender (s.win.mbAt 2).notice))

/-! ## Posts of LOOP on MB2 (10 R244, 11 R287, R288) -/

/-- MGMT is not there to take a notice (11 R286, R287). -/
def State.mgmtDown (s : State) : Bool := !(s.mgmtUp && s.ready)

/-- A CMD's post to MB2 has failed: its buffer is FREE, its SEQ is not recorded and what the session held stands again, and the
answer is ST_ISLAND_DOWN (11 R288, 10 R249). -/
def State.postFailed (s : State) (w : Word64) : State :=
  let s := s.freeBuf (nbBuf w)
  match sessionOf (BitVec.ofNat 8 (nbSrc w)) with
  | none => s
  | some n =>
    let x := s.fab.sess n
    let bytes := replyBytes x.op x.tag.toNat stIslandDown (0x80 + n) 0 false []
    let (seq, cur, at_) := x.before.getD (none, none, 0)
    s.setFab (s.fab.setSess n { x with
      running := false, seq := seq, cur := cur, curAt := at_, before := none
      due := x.due.map fun d => { d with fixed := some bytes } })

/-- LOOP posts the first waiting CMD on MB2 when it is free; a post while MGMT is down fails, and a LOOP that is down posts nothing
(10 R244, 11 R287). -/
def State.postMb2 (s : State) : State :=
  match s.fab.mb2Wait with
  | [] => s
  | (w, a) :: ws =>
    let t := s.setFab { s.fab with mb2Wait := ws }
    if !s.loopUp then s
    else if s.mgmtDown then t.postFailed w
    else if (s.win.mbAt 2).pending then s
    else
      let t := if nbSrc w = 0x90 then t.setFab { t.fab with bcastFrom := a } else t
      t.postMb 2 w false

/-- A mailbox that an acknowledge has freed takes its next post (01 R18, 11 R291). -/
def State.afterAck (s : State) (k : Nat) : State := if k = 2 then s.postMb2 else s.postWaiting k

/-- An acknowledge written in an earlier tick takes effect for the sender (11 R281). -/
def execMbAcknowledge (mb : Fin 8) (s : State) : Ans :=
  match (s.win.mbAt mb.val).ack with
  | some (code, src, t) =>
    stepIf (s.clock.powered && !(s.win.mbAt mb.val).lost && decide (t < s.now)) s ((s.ackEffect mb.val code src).afterAck mb.val)
  | none => .next s

/-- Acknowledges between islands that no step of an earlier boundary let take effect do so now. -/
def State.lateAcks (s : State) : State :=
  (List.range 8).foldl (fun s k => match (s.win.mbAt k).ack with
    | some (code, src, t) => if 2 ≤ k ∧ t + 1 < s.now ∧ !(s.win.mbAt k).lost then (s.ackEffect k code src).afterAck k else s
    | none => s) s

/-- MB_TIMEOUT of a held post: 1,000 ticks while MGMT is down (11 R286). -/
def execMbTimeout (mb : Fin 8) (s : State) : Ans :=
  let k := mb.val
  let m := s.win.mbAt k
  let due := s.clock.powered && !s.ready && (k == 0 || k == 6) && m.pending && m.held && decide (1000 ≤ s.now - m.since)
  let t := s.ackEffect k 0x03 0x40
  let t := t.setWin (t.win.setMb k { t.win.mbAt k with timeout := true })
  let t := if k = 0 then (t.setOwner (nbBuf m.notice) .host 0x40).ring 11 else t
  stepIf due s (t.count .mbTimeout)

/-- CROSS: both mailboxes of a pair pending for more than 500 ticks (11 R290). -/
def execCross (pair : Fin 4) (s : State) : Ans :=
  let p := pair.val
  let due := match s.win.crossSince.getD p none with
    | some t => decide (500 < s.now - t)
    | none => false
  let both := (s.win.mbAt (2 * p)).pending && (s.win.mbAt (2 * p + 1)).pending
  let w := s.win.setMb (2 * p) { s.win.mbAt (2 * p) with cross := true }
  let w := w.setMb (2 * p + 1) { w.mbAt (2 * p + 1) with cross := true }
  let t := s.setWin { w with crossRaised := w.crossRaised.set p true }
  let t := t.report 0x1F p 0x40
  let t := if p = 0 then t.ring 12 else t
  stepIf (s.clock.powered && due && both && !s.win.crossRaised.getD p false) s t

/-- A packet with MORE set, of whatever opcode (12 R302). -/
def execCommandFragment (op : BitVec 16) (p : Packet) (s : State) : Ans :=
  if pktMore p then
    match s.take op.toNat p with
    | none => .next s
    | some (t, via) =>
      let t := t.begin op.toNat p
      .next ((match headerStatus p with
        | some st => t.finish op.toNat via p st []
        | none => t.fragment op.toNat via p).settle 4)
  else .next s

/-- A packet with CONT set (12 R303). -/
def execContinuationRead (op : BitVec 16) (p : Packet) (s : State) : Ans :=
  if pktCont p && !pktMore p then
    match s.take op.toNat p with
    | none => .next s
    | some (t, via) =>
      .next ((match headerStatus p with
        | some st => t.finish op.toNat via p st []
        | none => t.continuation op.toNat via p).settle 4)
  else .next s

/-- An assembly ends after 5,000,000 ticks without a fragment (12 R302). -/
def execAssemblyDiscard (src : Byte) (s : State) : Ans :=
  .next (s.setMgmt { s.mgmt with
    assemblies := s.mgmt.assemblies.filter fun a => !(a.src == src && decide (5000000 ≤ s.now - a.last)) })

/-- An outstanding command whose island has reported its event completes, and its reply is posted (12 R299). -/
def execOutstandingCompletion (op : BitVec 16) (s : State) : Ans :=
  match s.mgmt.outst.find? fun o => o.op == op.toNat && o.done.isSome with
  | some o =>
    let t := s.setMgmt { s.mgmt with outst := s.mgmt.outst.filter fun x => x.op ≠ op.toNat }
    let (st, res) := o.done.getD (0, [])
    stepIf s.mgmtUp s (((t.unreserve o.op).finish o.op o.via o.pkt st res).settle 4)
  | none => .next s

/-- The native opcode behind a command: its own, or that of its M16 twin (12 R313). -/
def nativeOf (op : Nat) : Nat := ([0x0201, 0x0202, 0x0203, 0x0401, 0x0402].find? fun n => m16Twin n == op).getD op

/-- Commands before one in the order of their requests that wait for the same kind of request. -/
def Mgmt.before (m : Mgmt) (op : Nat) : Nat :=
  ((m.outst.takeWhile (·.op != op)).filter (·.waitsFor (nativeOf op))).length

/-- An island that has not acknowledged a request within 5,000 ticks ends the command with ST_TIMEOUT; the request is withdrawn, so
that the command takes no effect later (12 R300, 00 R3). -/
def execIslandRequestTimeout (op : BitVec 16) (s : State) : Ans :=
  match s.mgmt.outst.find? fun o => o.op == op.toNat && o.got.isNone && o.done.isNone with
  | some o =>
    let t := s.withdrawReq (nativeOf o.op) (s.mgmt.before o.op)
    let t := t.setMgmt { t.mgmt with outst := t.mgmt.outst.filter fun x => x.op ≠ op.toNat }
    stepIf (s.mgmtUp && decide (5000 ≤ s.now - o.since)) s (((t.unreserve o.op).finish o.op o.via o.pkt stTimeout []).settle 4)
  | none => .next s

end Sys2Proof.Machine
end

