-- ==== Sys2Proof/Machine/Device.lean ====
section
/-! DEFINITION. Commands of the device, fault and observation groups (12 Tables 12-12, 12-19): DEV_*, FLT_*, OBS_*. -/

namespace Sys2Proof.Machine

open Sys2Proof

/-- Reserved parameter bytes that are not zero make a parameter invalid (00 R8, 12 Table 12-3). -/
def rsvdZero (ps : List Byte) (off n : Nat) : Bool := allZero ((ps.drop off).take n)

/-! ## DEV_IDENTIFY, DEV_STATUS, DEV_RESET_ISLAND -/

/-- Results of DEV_IDENTIFY (12 Table 12-13). -/
def State.identifyBytes (s : State) : List Byte :=
  leBytes 4 0x0E0C0020 ++ [Config.siRev, Config.romRev] ++ zeros 2 ++ leBytes 8 Config.uid.toNat ++
  leBytes 2 s.mgmt.committed.fabAddr ++ zeros 2 ++ sha3 ((s.nvm.cert.drop 64).take 1312)

/-- DEV_IDENTIFY (14 R347). -/
def State.runIdentify (s : State) (c : Cmd) (p : Packet) : State := s.runCmd c p fun s _ _ => .done s stOk s.identifyBytes

/-- Bits of four sequences as a number. -/
def seqMask (m : Meas) (f : Seq → Bool) : Nat :=
  (List.range 4).foldl (fun a q => a + 2 ^ q * b2n (f (m.seqs.getD q Seq.reset))) 0

/-- The retired slices as a mask (05 R119). -/
def Meas.retiredMask (m : Meas) : Nat :=
  (List.range 4).foldl (fun a n => a + 2 ^ n * b2n ((m.slices.toList[n]?.map (·.retired)).getD false)) 0

/-- The byte string of an almanac: every assigned identifier, ascending, with its value (14 R349). -/
def Alm.bytes (a : Alm) : List Byte := assignedIds.flatMap fun id => leBytes 2 id ++ fieldBytes (a.val id)

/-- The digest of a saved copy. PRESUMED (notes/assumptions/81): it covers the sequence number and the almanac's bytes. -/
def almDigest (seq : Nat) (a : Alm) : List Byte := sha3 (leBytes 4 seq ++ a.bytes)

/-- Whether a saved copy is valid: its digest is that of what it holds (12 R312). -/
def AlmCopy.valid (c : AlmCopy) : Bool := c.digest == almDigest c.seq c.alm

/-- A copy that is there, readable and valid (12 R312, 13 Table 13-2). -/
def Nvm.almCopy (n : Nvm) (b : Bool) : Option AlmCopy :=
  (if b then n.almB else n.almA).filter fun c => c.valid && !((NvmArea.alm b).all.any n.bad.contains)

/-- The sequence number of a copy, else 0. -/
def copySeq (c : Option AlmCopy) : Nat := match c with
  | some c => c.seq
  | none => 0

/-- The newest valid saved almanac (12 R312). -/
def Nvm.newestAlm (n : Nvm) : Option AlmCopy :=
  if copySeq (n.almCopy false) < copySeq (n.almCopy true) then n.almCopy true else n.almCopy false

/-- A slice retirement or restoration, or a table swap, that MEAS holds or that is on its way to it. -/
def State.jobPending (s : State) : Bool :=
  s.meas.job.isSome || s.win.onWay 4 fun r => match r with
    | .retire _ _ => true
    | .restore _ => true
    | _ => false
def State.swapPending (s : State) : Bool :=
  s.meas.swap.isSome || s.win.onWay 4 fun r => match r with
    | .swap _ _ _ => true
    | _ => false

/-- PEND of DEV_STATUS (12 Table 12-14). -/
def State.pendBits (s : State) : Nat :=
  let m := s.mgmt
  b2n m.pendMeas.isSome + 2 * b2n (m.startLoop.isSome || m.pendLoop.isSome) + 4 * b2n m.pendLine.isSome + 8 * b2n s.swapPending +
  16 * b2n s.jobPending + 32 * b2n m.upd.isSome + 64 * b2n (m.shadow != m.committed) +
  128 * b2n (m.committed != (match s.nvm.newestAlm with
    | some a => a.alm
    | none => Alm.default))

/-- Results of DEV_STATUS (12 Table 12-14). -/
def State.statusBytes (s : State) : List Byte :=
  leBytes 2 (seqMask s.meas (·.running) + 16 * seqMask s.meas (·.overrun) + 256 * s.meas.retiredMask + 4096 * b2n s.meas.qovf +
    8192 * b2n s.fab.dup + 16384 * b2n s.fab.locked + 32768 * b2n s.energy.aux) ++
  leBytes 1 (b2n s.isl.mgmt.up + 2 * b2n s.isl.loop.up + 4 * b2n s.isl.meas.up + 8 * b2n s.isl.aon.up) ++
  leBytes 1 s.energy.season.code ++ leBytes 2 s.pendBits ++ leBytes 2 s.loopWord ++ leBytes 4 s.meas.round.count ++
  (s.meas.map.rep.flatMap fun r => leBytes 1 r) ++ leBytes 4 s.faultSummary.toNat ++ leBytes 2 s.qOcc ++ zeros 2 ++
  leBytes 6 s.clock.meridian.toNat ++ zeros 2

/-- The reply clears the SEQ_OVERRUN bits that it reports (06 R146). -/
def State.clearOverrun (s : State) : State :=
  s.setMeas { s.meas with seqs := s.meas.seqs.map fun q => { q with overrun := false } }

/-- DEV_STATUS (12 Table 12-14). -/
def State.runStatus (s : State) (c : Cmd) (p : Packet) : State :=
  s.runCmd c p fun s _ _ => .done s.clearOverrun stOk s.statusBytes

def execDevIdentify (p : Packet) (s : State) : Ans := .next (s.runIdentify (plainCmd 0x0001 (· == 0)) p)

def execDevStatus (p : Packet) (s : State) : Ans := .next (s.runStatus (plainCmd 0x0002 (· == 0)) p)

/-- DEV_RESET_ISLAND (13 R329): MGMT replies and restarts; LOOP and MEAS restart and the command waits for UP. -/
def execDevResetIsland (p : Packet) (s : State) : Ans :=
  .next (s.runCmd { plainCmd 0x0003 (· == 4) with needs := fun _ _ => [.aon], waits := true } p fun s _ ps =>
    if !rsvdZero ps 1 3 then .done s stBadParam []
    else match islandOf (leAt ps 0 1) with
      | none => .done s stBadParam []
      | some .aon => .done s stNotPermitted []
      | some .mgmt => .reset s .mgmt
      | some i => .wait (s.postReq 7 0x0003 (.resetIsland i)) none [])

/-! ## FLT_* -/

/-- Entries that a log source holds, newest first, as 16 bytes each (13 R335, R338). -/
def State.logBytes (s : State) (src : Nat) : List (List Byte) :=
  if src = 0 then s.faults.log.map LogEntry.bytes else (s.nvm.snap.take 8).map fun r => r.2.bytes

/-- FLT_READ_LOG (13 R337). -/
def execFltReadLog (p : Packet) (s : State) : Ans :=
  let c : Cmd := { plainCmd 0x0601 (· == 4) with reads := fun _ ps => if leAt ps 0 1 = 1 then NvmArea.snapshot.all else [] }
  .next (s.runCmd c p fun s _ ps =>
    let src := leAt ps 0 1
    let first := leAt ps 1 1
    let n := leAt ps 2 1
    if 1 < src ∨ n = 0 ∨ 15 < n ∨ !rsvdZero ps 3 1 then .done s stBadParam []
    else
      let held := s.logBytes src
      .done s stOk (leBytes 1 held.length ++ zeros 3 ++ ((held.drop first).take n).flatten))

/-- A command that posts a request to AON on MB7, which fails while the AON core is down (11 R287). -/
def aonCmd (op : Nat) (len : Nat → Bool) : Cmd := { plainCmd op len with needs := fun _ _ => [.aon] }

/-- FLT_ACK (13 R317, R324, R337). -/
def execFltAck (p : Packet) (s : State) : Ans :=
  .next (s.runCmd (aonCmd 0x0602 (· == 4)) p fun s _ ps =>
    let d := leAt ps 0 1
    if !rsvdZero ps 1 3 || !(s.faults.opens.any fun o => o.det.toNat == d) then .done s stBadParam []
    else .done (s.postReq 7 0x0602 (.ack (BitVec.ofNat 6 d) true)) stOk [])

/-- FLT_INJECT (13 R332): a signature is needed from a fabric sender only (12 Table 12-5). -/
def execFltInject (p : Packet) (s : State) : Ans :=
  let c : Cmd := { aonCmd 0x0603 (· == 4) with
    signable := true, mustSign := fun src => src != 0x01, cost := fun _ _ => if pktSigned p then 306 else 0 }
  .next (s.runCmd c p fun s _ ps =>
    let d := leAt ps 0 1
    let n := leAt ps 1 1
    let inj := match detRow d with
      | some r => r.inj
      | none => false
    if !inj || n == 0 || !rsvdZero ps 2 2 then .done s stBadParam []
    else .done (s.postReq 7 0x0603 (.inject (BitVec.ofNat 6 d) n)) stOk [])

/-- FLT_CLEAR (13 R337): AON clears its log at the boundary at which it consumes the request. -/
def execFltClear (p : Packet) (s : State) : Ans :=
  let c : Cmd := { aonCmd 0x0604 (· == 4) with cost := fun _ ps => if leAt ps 0 1 = 1 then 6 else 0 }
  .next (s.runCmd c p fun s _ ps =>
    let scope := leAt ps 0 1
    if 1 < scope ∨ !rsvdZero ps 1 3 then .done s stBadParam []
    else .done (s.postReq 7 0x0604 (.clearLog scope)) stOk [])

/-! ## OBS_* -/

/-- OBS_COUNTERS (15 R379): one capture of a range of counters. -/
def execObsCounters (p : Packet) (s : State) : Ans :=
  .next (s.runCmd (plainCmd 0x0801 (· == 4)) p fun s _ ps =>
    let first := leAt ps 0 1
    let n := leAt ps 1 1
    if n = 0 ∨ 48 < n ∨ 48 < first + n ∨ !rsvdZero ps 2 2 then .done s stBadParam []
    else .done s stOk (leBytes 6 s.clock.meridian.toNat ++ zeros 2 ++
      (List.range n).flatMap fun i => leBytes 4 (s.obs.capture (first + i))))

/-- OBS_TRACE_SELECT (15 R377): the mask takes effect at the boundary at which AON consumes it. -/
def execObsTraceSelect (p : Packet) (s : State) : Ans :=
  .next (s.runCmd (aonCmd 0x0802 (· == 4)) p fun s _ ps =>
    let v := leAt ps 0 4
    if v % 2 = 1 ∨ 32768 ≤ v then .done s stBadParam []
    else
      let old := (s.obs.maskNext.getD s.obs.mask).toNat
      let m := BitVec.ofNat 32 v ||| 6
      .done ((s.setObs { s.obs with maskNext := some m }).postReq 7 0x0802 (.traceMask m)) stOk (leBytes 4 old))

/-- OBS_ENERGY (03 R56, 12 Table 12-20). -/
def execObsEnergy (p : Packet) (s : State) : Ans :=
  .next (s.runCmd (plainCmd 0x0803 (· == 0)) p fun s _ _ =>
    let e := s.energy
    .done s stOk (leBytes 4 e.register.toNat ++ leBytes 2 (min e.loopAvg 65535) ++ leBytes 2 (min e.auxAvg 65535) ++
      leBytes 2 (min e.resAvg 65535) ++ leBytes 2 (min e.vioUa 65535) ++ leBytes 2 (min e.drawUa 65535) ++ zeros 2 ++
      leBytes 4 e.cost ++ leBytes 4 e.costLoop ++ leBytes 4 e.chargeUw ++ leBytes 4 e.reservedUj))

end Sys2Proof.Machine
end

