-- ==== Sys2Proof/Machine/Almanac.lean ====
section
/-! DEFINITION. The almanac commands (12 R307 to R312): ALM_WRITE, ALM_READ, ALM_APPLY, ALM_CHECK, ALM_SAVE, and QUEUE_BIND
(06 R161). -/

namespace Sys2Proof.Machine

open Sys2Proof

/-! ## Rounds to come -/

/-- Ticks from the present boundary to the next round start, as the round stands (06 R131, 04 R89). -/
def Round.toNext (r : Round) (len w : Nat) : Nat :=
  match r.freeze with
  | .run => (if r.due then 0 else max 1 (len - r.pos)) + r.idle
  | .preamble p left => left + (len - p) + r.idle
  | .frozen p => w + (len - p) + r.idle

/-- The count of the round after the present one (06 R131). -/
def Round.nextCount (r : Round) : Nat := if r.on then r.count + 1 else r.count

/-- The count of the first round that starts at or after a tick, as the round stands. -/
def State.roundFrom (s : State) (t : Nat) : Nat :=
  let r := s.meas.round
  if !r.on || decide (t ≤ s.now + r.toNext s.meas.map.len s.meas.map.w) then r.nextCount else r.nextCount + 1

/-! ## Rules that the commands share -/

/-- LK0 in the host's hands turns fabric sessions away (11 R294, 12 R310). -/
def State.almLocked (s : State) (p : Packet) : Bool := s.win.lockAt 0 == 0x01 && p.src != 0x01

/-- Whether the block of a stop-only field runs (12 R308). -/
def State.stopBlocked (s : State) (id : Nat) : Bool :=
  match fieldRow id with
  | some r =>
    r.apply == .stop &&
    (if id / 2048 = 3 then (s.meas.seqs.toList[id / 64 % 32]?.map (·.running)).getD false
     else s.meas.seqs.toList.any (·.running))
  | none => false

/-- Every field in which two copies differ. -/
def Alm.diff (a b : Alm) : List Nat :=
  ((a.vals.map (·.1)) ++ (b.vals.map (·.1))).eraseDups.filter fun id => a.val id ≠ b.val id

/-- The compile record (12 Table 12-9). -/
def SlotMap.record (m : SlotMap) (jskip field round : Nat) : List Byte :=
  leBytes 4 m.cost ++ leBytes 4 m.costLoop ++ leBytes 4 m.nConv ++ leBytes 2 m.nCold ++ leBytes 2 m.w ++ leBytes 4 m.duMax ++
  leBytes 4 m.g ++ leBytes 2 jskip ++ leBytes 2 field ++ (m.rep.flatMap fun r => leBytes 1 r) ++ leBytes 4 round ++ zeros 4

/-- The checks of ALM_CHECK and ALM_APPLY on the shadow (12 R309, R310): the stop-only row, then R309's order. -/
def State.checkShadow (s : State) : Except (CompFail × Option SlotMap) (SlotMap × List SlotMap) :=
  match ((s.mgmt.committed.diff s.mgmt.shadow).filter s.stopBlocked).min? with
  | some id => .error ((stStopOnly, id), none)
  | none => s.mgmt.shadow.compile (s.newLevel .mgmt) s.meas.inService s.sources

/-- Junction-skipped positions of a map that would follow the one in force (06 R148). -/
def State.jskips (s : State) (m : SlotMap) (a : Alm) : Nat :=
  (junctionSkips s.meas.map s.mgmt.inForce m a).length

/-- The record of a failed check (12 R309): FAILED_FIELD; the figures of the placed map where the check failed after placement,
free values where there is no map; and a free APPLY_ROUND, which ALM_CHECK has as 0. -/
def State.failRecord (s : State) (field : Nat) (map : Option SlotMap) (apply : Bool) : State × List Byte :=
  let (y, s) := s.draw 32
  let round := if apply then y.toNat else 0
  match map with
  | some m => (s, m.record (s.jskips m s.mgmt.shadow) field round)
  | none =>
    let (x, s) := s.draw 208
    let (r, s) := s.draw 32
    (s, leBytes 26 x.toNat ++ leBytes 2 field ++ leBytes 4 r.toNat ++ leBytes 4 round ++ zeros 4)

/-- The tick from which a round start may carry a measurement token posted now: MEAS receives it at the next boundary, and
the round starts at least 2 ticks later (12 R309, 01 R17). -/
def State.tokenFrom (s : State) : Nat := s.now + 3

/-- Post apply tokens for the kinds in which the committed copy differs from the fields in force, or in which a token waits
(01 R23, 12 R309, R310). A measurement token carries its map; without one none is posted. -/
def State.postTokens (s : State) (map : Option (SlotMap × List SlotMap)) : State :=
  let m := s.mgmt
  let c := m.committed
  let put (old : Option ApplyTok) (k : Kind) (map : Option (SlotMap × List SlotMap)) : Option ApplyTok :=
    if old.isSome || m.inForce.differKind c k then some ⟨c, s.now, map, false⟩ else old
  s.setMgmt { m with
    pendMeas := if map.isSome then put m.pendMeas .meas map else m.pendMeas,
    pendLoop := put m.pendLoop .loop none, pendLine := put m.pendLine .line none }

/-- Write one field into the shadow and, for an L field, into the committed copy and into force (12 R308, 00 R2). -/
def Mgmt.writeField (m : Mgmt) (id : Nat) (v : Int) : Mgmt :=
  match fieldRow id with
  | some r =>
    if r.apply = .live then
      { m with shadow := m.shadow.set id v, committed := m.committed.set id v, inForce := m.inForce.set id v }
    else { m with shadow := m.shadow.set id v }
  | none => m

/-! ## ALM_WRITE -/

/-- The entries of ALM_WRITE: identifier and 4-byte value. -/
def almEntries : Nat → List Byte → List (Nat × Nat)
  | 0, _ => []
  | n + 1, bs => (leAt bs 0 2, leAt bs 2 4) :: almEntries n (bs.drop 6)

/-- An output direction for a pin that a triggered sequence of the committed copy names (02 R45). -/
def State.trigPinTaken (s : State) (id : Nat) (v : Int) : Bool :=
  id / 2048 == 0x0D && decide (id % 64 < 3) && v == 1 &&
  (List.range 4).any fun q => s.mgmt.committed.trigPin q == some (id % 64)

/-- The shadow with the values of the entries that name a field and lie in its range. -/
def Alm.withEntries (a : Alm) (es : List (Nat × Nat)) : Alm :=
  es.foldl (fun a e => match fieldOfWire e.1 e.2 with
    | some v => a.set e.1 v
    | none => a) a

/-- Whether the shadow with the new values breaks the budget of 03 R50; a shadow that no map can carry has no cost to
check. -/
def State.overBudget (s : State) (a : Alm) : Bool :=
  match a.build s.meas.inService a.reps 80 (s.meas.inService.map fun n => (n, 1)) with
  | some pl => !a.budgetOk s.meas.inService pl
  | none => false

/-- The status of one entry by the checks that hold for every write of a field; `none` when it passes (12 R308). -/
def State.fieldStatus (s : State) (dear : Bool) (e : Nat × Nat) : Option Nat :=
  match fieldOfWire e.1 e.2 with
  | none => some stBadParam
  | some _ =>
    if s.stopBlocked e.1 then some stStopOnly
    else if dear && e.1 / 2048 == 0 then some stOverBudget
    else none

/-- The status of one entry of ALM_WRITE; `none` when it passes (12 R308, 02 R45). -/
def State.entryStatus (s : State) (dear : Bool) (e : Nat × Nat) : Option Nat :=
  match fieldOfWire e.1 e.2 with
  | none => some stBadParam
  | some v => if s.trigPinTaken e.1 v then some stBadParam else s.fieldStatus dear e

/-- Check and write the entries of ALM_WRITE: the index of the first failing entry with its status, or the state with all
written (12 R308). -/
def State.writeEntries (s : State) (es : List (Nat × Nat)) : Except (Nat × Nat) State :=
  let dear := (es.any fun e => e.1 / 2048 == 0) && s.overBudget (s.mgmt.shadow.withEntries es)
  match es.zipIdx.findSome? fun (e, i) => (s.entryStatus dear e).map fun st => (i, st) with
  | some f => .error f
  | none => .ok (s.setMgmt (es.foldl (fun m e => match fieldOfWire e.1 e.2 with
      | some v => m.writeField e.1 v
      | none => m) s.mgmt))

/-- A field whose write needs FABRIC besides CONFIG: the bearing block and FAB_ADDR (12 R305). -/
def bearingOrAddr (id : Nat) : Bool := id / 2048 == 0x0B || id == fid 9 0 0

/-- DUP_ADDR clears (10 R252). -/
def State.clearDup (s : State) : State := s.setFab { s.fab with dup := false }

/-- ALM_WRITE (12 R305, R308); a write of FAB_ADDR by the local host clears DUP_ADDR (10 R252). -/
def execAlmWrite (p : Packet) (s : State) : Ans :=
  .next (s.runCmd { plainCmd 0x0101 (fun l => 2 ≤ l && (l - 2) % 6 == 0) with fits := fun ps => ps.length == 2 + 6 * leAt ps 0 2 } p
    fun s p ps =>
    let n := leAt ps 0 2
    let es := almEntries n (ps.drop 2)
    if (es.any fun e => bearingOrAddr e.1) && !s.hasRight p 4 then .done s stNotPermitted []
    else if s.almLocked p then .done s stBusy []
    else if n = 0 then .done s stBadParam (leBytes 2 0)
    else match s.writeEntries es with
      | .error (i, st) => .done s st (leBytes 2 i)
      | .ok t => .done (if p.src = 0x01 ∧ (es.any fun e => e.1 == fid 9 0 0) then t.clearDup else t) stOk (leBytes 2 0xFFFF))

/-! ## ALM_READ -/

/-- The identifiers that ALM_READ names. -/
def readIds : Nat → List Byte → List Nat
  | 0, _ => []
  | n + 1, bs => leAt bs 0 2 :: readIds n (bs.drop 2)

/-- ALM_READ (12 R307). -/
def execAlmRead (p : Packet) (s : State) : Ans :=
  .next (s.runCmd { plainCmd 0x0102 (fun l => 4 ≤ l && l % 2 == 0) with fits := fun ps => ps.length == 4 + 2 * leAt ps 2 2 } p
    fun s _ ps =>
    let copy := leAt ps 0 1
    let n := leAt ps 2 2
    let ids := readIds n (ps.drop 4)
    if 1 < copy ∨ !rsvdZero ps 1 1 ∨ n = 0 ∨ 60 < n ∨ (ids.any fun id => (fieldRow id).isNone) then .done s stBadParam []
    else
      let a := if copy = 0 then s.mgmt.shadow else s.mgmt.committed
      .done s stOk (leBytes 2 n ++ zeros 2 ++ ids.flatMap fun id => fieldBytes (a.val id)))

/-! ## ALM_CHECK, ALM_APPLY, ALM_SAVE -/

/-- ALM_CHECK (12 R309): nothing changes. -/
def execAlmCheck (p : Packet) (s : State) : Ans :=
  .next (s.runCmd (plainCmd 0x0104 (· == 0)) p fun s _ _ =>
    match s.checkShadow with
    | .error ((st, f), m) => let (s, r) := s.failRecord f m false; .done s st r
    | .ok (m, _) => .done s stOk (m.record (s.jskips m s.mgmt.shadow) 0xFFFF 0))

/-- Islands that ALM_APPLY needs: MEAS for measurement fields, LOOP for loop, modem and fabric fields that change
(12 R300). -/
def State.applyNeeds (s : State) : List Island :=
  let m := s.mgmt
  (if m.committed.differKind m.shadow .meas then [Island.meas] else []) ++
  (if m.committed.differKind m.shadow .loop || m.committed.differKind m.shadow .line then [Island.loop] else [])

/-- Whether a retirement, a restoration or a compilation after a failure is under way (12 Table 12-10). -/
def State.mapBusy (s : State) : Bool :=
  s.meas.job.isSome || s.meas.failCompile.isSome || s.meas.failMap.isSome || s.jobPending

/-- Commit the shadow and post the tokens (12 R309). -/
def State.commitShadow (s : State) (m : SlotMap) (fs : List SlotMap) : State :=
  let s := s.setMgmt { s.mgmt with committed := s.mgmt.shadow }
  (s.setEnergy { s.energy with cost := m.cost, costLoop := m.costLoop }).postTokens (some (m, fs))

/-- ALM_APPLY (12 R309, R310). -/
def execAlmApply (p : Packet) (s : State) : Ans :=
  let c : Cmd := { plainCmd 0x0103 (· == 0) with needs := fun s _ => s.applyNeeds }
  .next (s.runCmd c p fun s p _ =>
    if s.almLocked p || s.mapBusy then .done s stBusy []
    else match s.checkShadow with
      | .error ((st, f), m) => let (s, r) := s.failRecord f m true; .done s st r
      | .ok (m, fs) =>
        let rec_ := m.record (s.jskips m s.mgmt.shadow) 0xFFFF (s.roundFrom s.tokenFrom)
        .done (s.commitShadow m fs) stOk rec_)

/-- Save an almanac over the older NVM copy, with the next sequence number and its digest; a copy that is not valid counts as
the older (12 R312). -/
def Nvm.saveAlm (n : Nvm) (a : Alm) : Nvm × Nat :=
  let x := copySeq (n.almCopy false)
  let y := copySeq (n.almCopy true)
  let k := max x y + 1
  let c : AlmCopy := ⟨k, a, almDigest k a⟩
  (if x ≤ y then { n.wrote (NvmArea.alm false).all with almA := some c } else { n.wrote (NvmArea.alm true).all with almB := some c }, k)

/-- ALM_SAVE's own rules, for its M16 name too (12 R312, R313). -/
def State.almSave (s : State) (p : Packet) : State × Nat × List Byte :=
  if s.almLocked p then (s, stBusy, [])
  else
    let (n, k) := s.nvm.saveAlm s.mgmt.committed
    (s.setNvm n, stOk, leBytes 4 k)

/-- ALM_SAVE (12 R312). -/
def execAlmSave (p : Packet) (s : State) : Ans :=
  let c : Cmd := { plainCmd 0x0105 (· == 0) with cost := fun _ _ => 150 }
  .next (s.runCmd c p fun s p _ => let (s, st, r) := s.almSave p; .done s st r)

/-! ## QUEUE_BIND -/

/-- Write fields into the shadow and the committed copy alone (12 R311). -/
def Mgmt.bindFields (m : Mgmt) (fs : List (Nat × Int)) : Mgmt :=
  { m with
    shadow := fs.foldl (fun a f => a.set f.1 f.2) m.shadow, committed := fs.foldl (fun a f => a.set f.1 f.2) m.committed }

/-- QUEUE_BIND (06 R161, 12 R311): the stream's fields take effect in MGMT at the next round start (01 R23). -/
def execQueueBind (p : Packet) (s : State) : Ans :=
  let c : Cmd := { plainCmd 0x0204 (· == 16) with needs := fun _ _ => [.meas] }
  .next (s.runCmd c p fun s _ ps =>
    let k := leAt ps 0 1
    let fs : List (Nat × Nat) :=
      [(fid 5 k 0, leAt ps 4 4), (fid 5 k 1, leAt ps 8 1), (fid 5 k 2, leAt ps 9 1), (fid 5 k 3, leAt ps 10 1),
       (fid 5 k 4, leAt ps 12 4)]
    if 3 < k ∨ !rsvdZero ps 1 3 ∨ !rsvdZero ps 11 1 ∨ (fs.any fun f => (fieldOfWire f.1 f.2).isNone) then .done s stBadParam []
    else
      let m := s.mgmt.bindFields (fs.map fun f => (f.1, (f.2 : Int)))
      if (firstFail m.committed.streamChecks).isSome then .done s stBadParam []
      else .done (s.setMgmt m) stOk [])

end Sys2Proof.Machine
end

