-- ==== Sys2Proof/Machine/Sequence.lean ====
section
/-! DEFINITION. Sequences and triggers (06 R136, R144 to R147): SEQ_START, SEQ_STOP, SEQ_TRIGGER, GPIO triggers and trigger
windows. -/

namespace Sys2Proof.Machine

open Sys2Proof

/-! ## Windows (06 R145) -/

/-- A sequence of MEAS. -/
def Meas.seq (m : Meas) (q : Nat) : Seq := m.seqs.toList.getD q Seq.reset

/-- Replace a sequence. -/
def Meas.setSeq (m : Meas) (q : Nat) (x : Seq) : Meas := { m with seqs := m.seqs.setIfInBounds q x }

/-- The positions of one run of a sequence. -/
def SlotMap.runPos (m : SlotMap) (q k : Nat) : List Pos :=
  m.pos.filter fun p => match p.kind with
    | .slot _ _ _ q' r => q' == q && r == k
    | _ => false

/-- Whether the map gives a position a cold wake: cold in any of its rings (05 R99, 10 R262). -/
def SlotMap.cold (m : SlotMap) (p : Pos) : Bool :=
  m.rings.any fun len => match leastBy (fun x => gapOn len x.t p.t) (m.pos.filter fun x => x.sl = p.sl && x.t ≠ p.t) with
    | some x => decide (501 < gapOn len x.t p.t)
    | none => decide (501 < len)

/-- Ticks of preparation before a position (06 R145). -/
def SlotMap.prepOf (m : SlotMap) (a : Alm) (p : Pos) : Nat :=
  max (match p.kind.chan with
    | some c => if a.gated c then a.excLead c else 1
    | none => 1) (if m.cold p then 20 else 1)

/-- A window's commit tick C_k relative to the start of its round (06 R145); `none` for a window without positions. -/
def SlotMap.commitAt (m : SlotMap) (a : Alm) (q k : Nat) : Option Int :=
  ((m.runPos q k).map fun p => (p.t : Int) - m.prepOf a p).min?

/-- The round position of a window's commit tick, around the ring, and the round starts from it to its round: a lead can be longer
than the round (06 R145). -/
def SlotMap.commitPos (m : SlotMap) (a : Alm) (q k : Nat) : Option Nat := (m.commitAt a q k).map fun t => (t % (m.len : Int)).toNat
def SlotMap.commitLaps (m : SlotMap) (a : Alm) (q k : Nat) : Nat := match m.commitAt a q k with
  | some t => (-(t / (m.len : Int))).toNat
  | none => 0

/-- The round position of a window's last position (06 R145). -/
def SlotMap.lastPos (m : SlotMap) (q k : Nat) : Option Nat := ((m.runPos q k).map (·.t)).max?

/-- A round start passes for a running window whose lead is longer than the round (06 R145). -/
def Seq.lap (x : Seq) : Seq := { x with laps := x.laps - 1 }

/-- A sequence as the `j`-th round start from now will find it: a running window of an earlier round is over by then (06 R145). -/
def Seq.afterLaps (x : Seq) (j : Nat) : Seq :=
  match x.trig with
  | .running _ => if x.laps < j then { x with trig := .idle } else { x with laps := x.laps - j }
  | .runningPending _ => if x.laps < j then { x with trig := .idle } else { x with laps := x.laps - j }
  | _ => x

/-- The window that a trigger accepted at a round position selects: the first whose commit tick is still to come, in ring
order (06 R145). -/
def SlotMap.selectWindow (m : SlotMap) (a : Alm) (q pos : Nat) : Option Nat :=
  let ks := (List.range (m.rep.getD q 1)).filterMap fun k => (m.commitPos a q k).map fun c => ((c + m.len - pos % m.len) % m.len, k)
  (ks.foldl (fun best x => match best with
    | none => some x
    | some b => if x.1 < b.1 then some x else some b) none).map (·.2)

/-- The round position of the current tick; p_A while the round is frozen or replays (04 R88, R89). -/
def Round.at (r : Round) : Nat :=
  match r.freeze with
  | .frozen p => p
  | .preamble p _ => p
  | _ => r.pos

/-! ## Triggers (06 R146, R147) -/

/-- What became of a trigger: 0 armed, 1 held, 2 dropped (12 Table 12-15). -/
def Seq.trigger (x : Seq) (window : Option Nat) : Seq × Nat :=
  if !x.running then ({ x with overrun := true }, 2)
  else match x.trig, window with
    | .idle, some k => ({ x with trig := .armed k }, 0)
    | .running k, _ => ({ x with trig := .runningPending k }, 1)
    | _, _ => ({ x with overrun := true }, 2)

/-- A trigger of one sequence is accepted at the present boundary; a dropped one is counted (06 R146). A further trigger of the
same boundary is the same one (06 R144). -/
def State.trigger (s : State) (q : Nat) : State × Nat :=
  let m := s.meas
  let fresh : State × Nat :=
    let (x, out) := (m.seq q).trigger (m.map.selectWindow s.mgmt.inForce q m.round.at)
    let s := s.setMeas (m.setSeq q { x with trigAt := some (s.now, out) })
    if out = 2 then ((s.count .trigLost).emitSeq q 3, out) else (s.emitSeq q (out + 1), out)
  match (m.seq q).trigAt with
  | some (t, out) => if t = s.now then (s, out) else fresh
  | none => fresh

/-- Armed and held triggers of a sequence are discarded and counted (06 R147). -/
def State.discardTriggers (s : State) (q : Nat) : State :=
  let m := s.meas
  let x := m.seq q
  match x.trig with
  | .armed _ => (s.setMeas (m.setSeq q { x with trig := .idle })).count .trigLost
  | .runningPending k => (s.setMeas (m.setSeq q { x with trig := .running k })).count .trigLost
  | _ => s

/-- The sequences of a mask. -/
def maskSeqs (mask : Nat) : List Nat := (List.range 4).filter mask.testBit

/-! ## SEQ_START, SEQ_STOP, SEQ_TRIGGER -/

/-- A mask of sequences with its reserved bytes (12 Table 12-15). -/
def badMask (ps : List Byte) : Bool := leAt ps 0 1 == 0 || decide (15 < leAt ps 0 1) || !rsvdZero ps 1 3

/-- AUX_IN is lost and the loop cannot carry the almanac (03 R62, Table 3-3). -/
def State.auxBlocked (s : State) : Bool :=
  let m := s.meas.map
  s.mgmt.inForce.supplyAux && !s.energy.aux && (decide (28050 < m.costLoop) || decide (320 * m.len < 500 * m.nConv))

/-- SEQ_START's own rules (06 R136). -/
def State.seqStart (s : State) (ps : List Byte) : Done :=
  let qs := maskSeqs (leAt ps 0 1)
  if badMask ps || qs.any (fun q => s.mgmt.committed.sqLen q == 0) then .done s stBadParam []
  else if s.auxBlocked then .done s stOverBudget []
  else .wait (s.postReq 4 0x0201 (.seqs 0x0201 (leAt ps 0 1))) (some .meas) (ps.take 1)

/-- SEQ_STOP's own rules (06 R136). -/
def State.seqStop (s : State) (ps : List Byte) : Done :=
  if badMask ps then .done s stBadParam []
  else .wait (s.postReq 4 0x0202 (.seqs 0x0202 (leAt ps 0 1))) (some .meas) (ps.take 1)

/-- SEQ_TRIGGER's own rules (06 R144). -/
def State.seqTrigger (s : State) (ps : List Byte) : Done :=
  if badMask ps || (maskSeqs (leAt ps 0 1)).any (fun q => !s.mgmt.inForce.sqTriggered q) then .done s stBadParam []
  else .wait (s.postReq 4 0x0203 (.seqs 0x0203 (leAt ps 0 1))) (some .meas) (ps.take 1)

/-- The shell of a command that needs MEAS and waits for its event (12 R299, R300). -/
def measCmd (op : Nat) (len : Nat → Bool) : Cmd := { plainCmd op len with needs := fun _ _ => [.meas], waits := true }

def execSeqStart (p : Packet) (s : State) : Ans := .next (s.runCmd (measCmd 0x0201 (· == 4)) p fun s _ ps => s.seqStart ps)

def execSeqStop (p : Packet) (s : State) : Ans := .next (s.runCmd (measCmd 0x0202 (· == 4)) p fun s _ ps => s.seqStop ps)

def execSeqTrigger (p : Packet) (s : State) : Ans := .next (s.runCmd (measCmd 0x0203 (· == 4)) p fun s _ ps => s.seqTrigger ps)

/-! ## GPIO triggers -/

/-- The trigger filter of a pin (02 R33, 06 R144). -/
def Pins.trig (p : Pins) (n : Fin 3) : TrigPin := if n = 0 then p.trig0 else if n = 1 then p.trig1 else p.trig2

/-- GPIO_TRIGGER: a rising edge accepted at this boundary triggers every triggered sequence whose SQ_TRIG names the pin
(06 R144). DESIGN CHOICE (notes/assumptions/101): a pin or a time event that triggers an unused sequence (SQ_LEN = 0) is not counted. -/
def execGpioTrigger (pin : Fin 3) (s : State) : Ans :=
  let a := s.mgmt.inForce
  let qs := (List.range 4).filter fun q => a.sqTriggered q && 0 < a.sqLen q && a.sqTrig q == pin.val + 2
  let used : Pins → Pins := fun p =>
    if pin = 0 then { p with trig0 := { p.trig0 with edge := false } }
    else if pin = 1 then { p with trig1 := { p.trig1 with edge := false } }
    else { p with trig2 := { p.trig2 with edge := false } }
  stepIf (s.measUp && (s.pins.trig pin).edge) s (qs.foldl (fun s q => (s.trigger q).1) (s.setPins (used s.pins)))

/-- Whether positions pass: the round runs and is neither frozen nor replaying. -/
def Round.passing (r : Round) : Bool := r.on && (match r.freeze with
  | .run => true
  | _ => false)

end Sys2Proof.Machine
end

