-- ==== Sys2Proof/Machine/Filter.lean ====
section
/-! DEFINITION. A channel's filter path (06 R149 to R158): reversal pairs (04 R79), deskew (05 R109), decimator, compensator,
notch, autorange scaling (07 R178), tags, flush and settling. -/

namespace Sys2Proof.Machine

open Sys2Proof

/-- A channel of MEAS. -/
def Meas.chan (m : Meas) (c : Nat) : Chan := m.chans.toList.getD c Chan.reset

/-- Replace a channel. -/
def Meas.setChan (m : Meas) (c : Nat) (x : Chan) : Meas := { m with chans := m.chans.setIfInBounds c x }

/-- The largest and the smallest 24-bit code (05 R111). -/
def codeMax : Int := 0x7FFFFF
def codeMin : Int := -0x800000

/-- The clamp code of a sign (04 R79, R81). -/
def clampOfSign (negative : Bool) : Int := if negative then codeMin else codeMax

/-- FIR compensator coefficients h[0] to h[15] (06 Table 6-6). -/
def firCoef : List Int :=
  let h : List Int := [2114, -7301, 16872, -33415, 61248, -114907, 262331, 4007362]
  h ++ h.reverse

/-- M of a channel's notch in the map in force (06 R151). -/
def Alm.notchOf (a : Alm) (c nc : Nat) : Nat := (a.notchLen c nc).getD 1

/-! ## Flush (06 R155) -/

/-- Clear a channel's filter state; an autoranging channel starts again at GAIN (06 R155, 07 R175). DESIGN CHOICE (notes/assumptions/98):
the OVR, the DEFER and the first tick of the samples since the last result go with it. -/
def Chan.flush (x : Chan) (a : Alm) (c : Nat) : Chan :=
  { x with
    i1 := 0, i2 := 0, i3 := 0, d1 := 0, d2 := 0, d3 := 0, zh := [], nh := [], flushed := true, settle := 0,
    prevNorm := none, prevRev := none, deskew := [], ovrAcc := false, deferAcc := false, first := none,
    restart := false, gain := a.fixedGain c, pendGain := none, awaitRchg := false, sinceChg := 4 }

/-- Results that carry SETTLE after a flush whose first sample is, or is not, the first of a decimation period (06 R155). -/
def settleCount (firstOfPeriod fir : Bool) (m : Nat) : Nat := (if firstOfPeriod then 2 else 3) + 15 * b2n fir + (m - 1)

/-! ## One sample into the decimator (06 R150) -/

/-- A raw sample at the decimator: its code and gain, its tags, where and when it was taken, and its place in the round. -/
structure Feedin where
  x : Int
  gain : Nat
  /-- The gain exponent to whose scale `x` stands. -/
  scale : Nat
  ovr : Bool
  defer : Bool
  sl : Nat
  stamp : Count48
  tick : Nat
  round : Nat
  idx : Nat
  nc : Nat
  /-- The sampling tick of the raw sample that brought it (05 R109: x[n+4]). -/
  lastTick : Nat
  deriving DecidableEq, Repr

/-- The integrators take one sample (06 R150). -/
def Chan.integrate (c : Chan) (x : Int) : Chan :=
  let i1 := wrap64 (c.i1 + x)
  let i2 := wrap64 (c.i2 + i1)
  { c with i1 := i1, i2 := i2, i3 := wrap64 (c.i3 + i2) }

/-- The combs at a decimation boundary (06 R150): the new state and z. -/
def Chan.decimate (c : Chan) (n : Nat) : Chan × Int :=
  let c1 := wrap64 (c.i3 - c.d1)
  let c2 := wrap64 (c1 - c.d2)
  let c3 := wrap64 (c2 - c.d3)
  ({ c with d1 := c.i3, d2 := c1, d3 := c2 }, floorDiv c3 (n * n * n))

/-- Shift a stored value from one gain exponent to another (07 R178). -/
def regain (from_ to_ : Nat) (v : Int) : Int := if from_ < to_ then asl v (to_ - from_) else asr v (from_ - to_)

/-- The compensator (06 R150): the output, and whether it clamped. -/
def firOut (zh : List Int) : Int × Bool :=
  let acc := ((firCoef.zip zh).map fun (h, z) => h * z).sum
  let y := asr acc 23
  (clampI codeMin codeMax y, decide (y < codeMin ∨ codeMax < y))

/-- A result leaves the chain: scaling to the gain of its last sample, compensator, notch, tags (06 R150, R151, R157;
07 R178). `xfail` is the plausibility tag in force. -/
def Chan.emit (c : Chan) (a : Alm) (ch : Nat) (f : Feedin) (z : Int) (xfail : Bool) : Chan × Int × Nat :=
  let go := f.gain
  let gp := c.resGain
  let zs := if a.arEn ch then asr z (a.arGmax ch - go) else z
  let zo := clampI codeMin codeMax zs
  let clampZ := decide (zs < codeMin ∨ codeMax < zs)
  let rchg := a.arEn ch && go != gp
  let zh := if rchg then c.zh.map (regain gp go) else c.zh
  let nh := if rchg then c.nh.map (regain gp go) else c.nh
  let zh := if a.fFir ch then (zo :: zh).take 16 else zh
  let (y, clampF) := if a.fFir ch then firOut zh else (zo, false)
  let m := a.notchOf ch f.nc
  let nh := if 1 < m then (y :: nh).take m else nh
  let res := if 1 < m then floorDiv nh.sum m else y
  let tags := b2n (c.ovrAcc || clampZ || clampF) + 2 * b2n (decide (0 < c.settle)) + 4 * b2n c.deferAcc + 8 * b2n rchg +
    16 * b2n xfail + 64 * f.sl
  ({ c with
    zh := zh, nh := nh, settle := c.settle - 1, ovrAcc := false, deferAcc := false, first := none, zLast := z,
    resGain := go, lastBound := (f.round, f.idx) }, res, tags)

/-- Whether a freeze lies between the first sample of the period and this one (04 R90). -/
def straddles (freezes : List Nat) (first tick : Nat) : Bool := freezes.any fun t => decide (first < t) && decide (t ≤ tick)

/-- The latest XFAIL decision that applies to a result emitted now (05 R126). -/
def Chan.xfailAt (c : Chan) (now : Nat) : Chan :=
  match c.xfailNext with
  | some (b, t) => if t ≤ now then { c with xfail := b, xfailNext := none } else c
  | none => c

/-- A sample enters the decimator; at a decimation boundary a result emerges (06 R150, R153). -/
def Chan.feed (c : Chan) (a : Alm) (ch : Nat) (f : Feedin) (freezes : List Nat) (now : Nat) : Chan × Option Result :=
  let n := a.fOsr ch
  let c := c.xfailAt now
  let g := f.round * f.nc + f.idx
  let c := if c.flushed then
    { c with flushed := false, settle := settleCount (decide (g % n = 0)) (a.fFir ch) (a.notchOf ch f.nc) } else c
  let first := c.first.getD f.tick
  let c := { c with
    ovrAcc := c.ovrAcc || f.ovr, deferAcc := c.deferAcc || f.defer || straddles freezes first f.tick, first := some first }
  let c := c.integrate (if a.arEn ch then asl f.x (a.arGmax ch - f.scale) else f.x)
  if (g + 1) % n = 0 then
    let (c, z) := c.decimate n
    let (c, res, tags) := c.emit a ch f z c.xfail
    (c, some ⟨ch, res, if a.arEn ch then f.gain else a.fixedGain ch, BitVec.ofNat 8 tags, f.stamp, now, f.lastTick, false, (f.round, f.idx)⟩)
  else (c, none)

/-! ## Deskew (05 R109) -/

/-- The deskewed value of the middle of nine entries, newest first, with its OVR. -/
def deskewMid (es : List DeskewEntry) (dt : Nat) : Option (DeskewEntry × Int × Bool) :=
  match es with
  | [p4, p3, p2, p1, e, m1, m2, m3, m4] =>
    if es.any (·.ovr) then some (e, e.x, e.ovr)
    else
      let dq := 26214 * (p1.x - m1.x) - 6554 * (p2.x - m2.x) + 1248 * (p3.x - m3.x) - 117 * (p4.x - m4.x)
      let y := e.x - floorDiv (e.skew * dq) (dt * 200000 * 32768)
      some (e, clampI codeMin codeMax y, decide (y < codeMin ∨ codeMax < y))
  | _ => none

/-- A new raw sample joins the history; the first after a flush stands for the samples before it too (05 R109). -/
def pushDeskew (es : List DeskewEntry) (e : DeskewEntry) : List DeskewEntry :=
  if es.isEmpty then List.replicate 5 e else (e :: es).take 9

end Sys2Proof.Machine
end

