-- ==== Sys2Proof/Machine/Security.lean ====
section
/-! DEFINITION. Identity, attestation and live update (14): SEC_* and UPD_* commands, activation, trial, and the OEM digest. -/

namespace Sys2Proof.Machine

open Sys2Proof

/-! ## Slots (14 R351, R352) -/

/-- The active and the inactive slot of a directory. -/
def SlotDir.active (d : SlotDir) : SlotInfo := if d.activeB then d.b else d.a
def SlotDir.inactive (d : SlotDir) : SlotInfo := if d.activeB then d.a else d.b

/-- Replace the active or the inactive slot's record. -/
def SlotDir.setActive (d : SlotDir) (x : SlotInfo) : SlotDir := if d.activeB then { d with b := x } else { d with a := x }
def SlotDir.setInactive (d : SlotDir) (x : SlotInfo) : SlotDir := if d.activeB then { d with a := x } else { d with b := x }

/-- Replace an island's directory, in the next of its pages. -/
def State.setDir (s : State) (i : Island) (d : SlotDir) : State := s.setNvm (s.nvm.putDir i d)

/-- The bytes of the inactive slot, and its replacement. -/
def State.inactiveMem (s : State) (i : Island) : List Host.Cell :=
  if (s.nvm.dirs.at i).activeB then s.nvm.imgA.at i else s.nvm.imgB.at i
def State.setInactiveMem (s : State) (i : Island) (m : List Host.Cell) : State :=
  if (s.nvm.dirs.at i).activeB then s.setNvm { s.nvm with imgA := s.nvm.imgA.put i m }
  else s.setNvm { s.nvm with imgB := s.nvm.imgB.put i m }

/-- The NVM page of page g of an image in a slot: an AON image's signatures lie in an area of their own from 4 KB on (14 R351). -/
def imagePage (i : Island) (b : Bool) (g : Nat) : List Nat :=
  if i = .aon ∧ 16 ≤ g then [(NvmArea.aonSig b).first + (g - 16)] else [(NvmArea.image i b).first + g]

/-- The largest image length of an island: its slot, or for AON the 12 KB range that `nsig` signatures leave (14 R351, R353). -/
def maxImage (i : Island) (nsig : Nat) : Nat :=
  match i with
  | .mgmt => 196608
  | .loop => 65536
  | .meas => 8192
  | .aon => 4096 + 3736 * nsig

/-- IH_VERSION[31:26] (14 Table 14-5). -/
def secVersion (v : Nat) : Nat := v / 67108864

/-- Whether an activation of the island is pending (14 R356). -/
def State.actPending (s : State) (i : Island) : Bool := (s.nvm.dirs.at i).actTick.isSome

/-- A modular distance between two Meridian counts, as a signed number: how far `x` lies ahead of `now`. -/
def ahead (x now : Nat) : Int := signed 48 ((x + 281474976710656 - now % 281474976710656) % 281474976710656)

/-- The first tick at or after both X and the tick of receipt plus 2; X = 0 is as soon as possible (07 R171, 14 R356). -/
def effectTick (x now : Nat) : Nat :=
  if x ≠ 0 ∧ (2 : Int) ≤ ahead x now then x else (now + 2) % 281474976710656

/-- Whether the Meridian has reached a count. -/
def State.reached (s : State) (x : Nat) : Bool := decide (ahead x s.clock.meridian.toNat ≤ 0)

/-! ## Attestation (14 R348 to R350) -/

/-- AT_IMG of one island (14 Table 14-4). -/
def imgBytes (d : SlotDir) : List Byte :=
  padTo 32 d.active.digest ++ leBytes 4 d.active.version ++ leBytes 1 d.active.arith ++ leBytes 1 (b2n d.activeB) ++
  leBytes 1 d.active.st.code ++ [0]

/-- The attestation record, captured from the present state (14 Table 14-4, R349). -/
def State.attestRecord (s : State) (nonce : List Byte) : List Byte :=
  let d := s.nvm.dirs
  let pending := s.actPending .mgmt || s.actPending .loop || s.actPending .meas || s.actPending .aon
  let flags := b2n s.nvm.oem.isSome + 2 * s.meas.retiredMask + 32 * b2n s.mgmt.upd.isSome + 64 * b2n pending
  let logs := s.faults.log.flatMap LogEntry.bytes
  leBytes 2 1 ++ leBytes 2 348 ++ leBytes 8 Config.uid.toNat ++ leBytes 6 s.clock.meridian.toNat ++ leBytes 2 flags ++
  nonce ++ (imgBytes d.mgmt ++ imgBytes d.loop ++ imgBytes d.meas ++ imgBytes d.aon) ++ sha3 s.mgmt.committed.bytes ++
  sha3 (s.nvm.calBlock ++ Config.trimStored s.nvm.trim.1 s.nvm.trim.2 ++ Config.retiredStored s.nvm.retired.toNat) ++
  sha3 (s.meas.tables.toList.flatten) ++ sha3 (padTo 256 logs) ++
  leBytes 2 (match s.faults.log with
    | [] => 0
    | e :: _ => e.lseq.toNat) ++ zeros 6

/-- MGMT cycles of one iteration of signing (14 Table 14-8), and those of a tick at a clock frequency code (03 Table 3-7). -/
def signCycles : Nat := 260000
def tickCycles (freq : Nat) : Nat := 16 * 2 ^ freq

/-- The record is captured, and its digest signed with the identity key and 32 fresh bytes: what the command will answer, and the cycles
that the iterations take (14 R344, R348, R350). -/
def State.capture (s : State) (a : Attest) : State :=
  let r := s.attestRecord a.nonce
  let (rnd, s) := s.draw 256
  let (sig, n) := Mldsa.sign s.nvm.seed (sha3 r) (leBytes 32 rnd.toNat)
  let out := match sig with
    | some x => (stOk, r ++ x)
    | none => (stInternal, [])
  s.setMgmt { s.mgmt with attest := some { a with out := some out, left := signCycles * n } }

/-- An attestation as a tick ends: the state in force in the tick that the first boundary after its admission began is captured; from then
on each tick of MGMT takes its cycles off, and the command's event comes with the last (14 R348, R350). -/
def State.attestTick (s : State) : State :=
  match s.mgmt.attest with
  | none => s
  | some a =>
    if !s.mgmtUp then s
    else match a.out with
      | none => if a.since < s.now then s.capture a else s
      | some (st, res) =>
        let n := tickCycles s.energy.freq
        if a.left ≤ n then (s.setMgmt { s.mgmt with attest := none }).outstDone 0x0701 st res
        else s.setMgmt { s.mgmt with attest := some { a with left := a.left - n } }

/-- SEC_ATTEST: admitted, it occupies the interpreter until its signature stands (14 R348, R350; 12 R299). -/
def execSecAttest (p : Packet) (s : State) : Ans :=
  let c : Cmd := { plainCmd 0x0701 (· == 32) with cost := fun _ _ => 1100, reads := fun _ _ => [seedPage] }
  .next (s.runCmd c p fun s _ ps => .busy (s.setMgmt { s.mgmt with attest := some ⟨ps, s.now, none, 0⟩ }))

/-- SEC_CERT_READ (14 R347, Table 14-2). -/
def execSecCertRead (p : Packet) (s : State) : Ans :=
  .next (s.runCmd { plainCmd 0x0702 (· == 0) with reads := fun _ _ => certPages } p fun s _ _ => .done s stOk s.nvm.cert)

/-! ## SEC_GRANT (12 R306) -/

/-- Write, replace or remove one entry of the grant table. -/
def putGrant (g : List (BitVec 12 × BitVec 16)) (a : BitVec 12) (r : BitVec 16) : List (BitVec 12 × BitVec 16) :=
  if r.getLsbD 15 then g.filter fun e => e.1 ≠ a
  else if g.any fun e => e.1 == a then g.map fun e => if e.1 = a then (a, r) else e
  else g ++ [(a, r)]

/-- The entries of a SEC_GRANT packet; `none` when an address or a rights mask has a reserved bit. -/
def grantEntries : Nat → List Byte → Option (List (BitVec 12 × BitVec 16))
  | 0, _ => some []
  | n + 1, bs =>
    let a := leAt bs 0 2
    let r := leAt bs 2 2
    if 4096 ≤ a ∨ r / 128 % 256 ≠ 0 then none
    else (grantEntries n (bs.drop 4)).map fun l => (BitVec.ofNat 12 a, BitVec.ofNat 16 r) :: l

/-- SEC_GRANT (12 R304, R306). -/
def execSecGrant (p : Packet) (s : State) : Ans :=
  let c : Cmd := { plainCmd 0x0707 (fun n => 8 ≤ n && n % 4 == 0 && n ≤ 68) with
    fits := fun ps => ps.length == 4 + 4 * leAt ps 0 1, signable := true, mustSign := fun _ => true, cost := fun _ _ => 312 }
  .next (s.runCmd c p fun s _ ps =>
    if !rsvdZero ps 1 3 then .done s stBadParam []
    else match grantEntries (leAt ps 0 1) (ps.drop 4) with
      | none => .done s stBadParam []
      | some es =>
        let g := es.foldl (fun g e => putGrant g e.1 e.2) s.mgmt.grants
        if 32 < g.length then .done s stInfeasible []
        else .done ((s.setMgmt { s.mgmt with grants := g }).setNvm (s.nvm.putGrants g)) stOk (leBytes 1 g.length ++ zeros 3))

/-! ## Update commands (14 R353 to R356) -/

/-- UPD_BEGIN (14 R353). -/
def execUpdBegin (p : Packet) (s : State) : Ans :=
  let c : Cmd := { plainCmd 0x0703 (· == 12) with signable := true, mustSign := fun _ => true, cost := fun _ _ => 312 }
  .next (s.runCmd c p fun s p ps =>
    let len := leAt ps 4 4
    let ver := leAt ps 8 4
    match islandOf (leAt ps 0 1) with
    | none => .done s stBadParam []
    | some i =>
      let n := s.nvm.nsig
      if !rsvdZero ps 1 3 ∨ len < 64 + 3736 * n ∨ maxImage i n < len then .done s stBadParam []
      else if secVersion ver < s.nvm.fuses.at i then .done s stRollback []
      else if (match s.mgmt.upd with
          | some u => !u.owns p
          | none => false) || s.actPending i then .done s stBusy []
      else
        let d := s.nvm.dirs.at i
        let s := s.setDir i (d.setInactive ⟨.writing, [], 0, 0⟩)
        let s := s.setMgmt { s.mgmt with
          upd := some ⟨i, p.src, p.sender, len, ver, s.now, [], []⟩, verified := s.mgmt.verified.put i false }
        .done s stOk (leBytes 1 (b2n (!d.activeB)) ++ zeros 3))

/-- Put received bytes into the page store; unlike memory it keeps bytes of zero, for completeness is what counts. -/
def partPut : List Host.Cell → Nat → Byte → List Host.Cell
  | [], k, v => [(k, v)]
  | (a, w) :: l, k, v => if k < a then (k, v) :: (a, w) :: l else if k = a then (k, v) :: l else (a, w) :: partPut l k v

/-- Several bytes into the page store. -/
def partsPut : List Host.Cell → Nat → List Byte → List Host.Cell
  | m, _, [] => m
  | m, a, b :: bs => partsPut (partPut m a b) (a + 1) bs

/-- Bytes that page `g` of an image of `len` bytes holds. -/
def pageLen (len g : Nat) : Nat := min 256 (len - 256 * g)

/-- Whether every byte of a page has been received (14 R354). -/
def pageFull (parts : List Host.Cell) (len g : Nat) : Bool :=
  decide ((parts.filter fun c => c.1 / 256 == g).length = pageLen len g)

/-- The pages partly received. -/
def partPages (parts : List Host.Cell) : List Nat := (parts.map fun c => c.1 / 256).dedup

/-- The page store after a chunk, the pages that it completes, and the pages left in part (14 R354). -/
def UpdSession.chunk (u : UpdSession) (off : Nat) (bs : List Byte) : List Host.Cell × List Nat × List Nat :=
  let parts := partsPut u.parts off bs
  let full := (partPages parts).filter (pageFull parts u.len)
  (parts, full, (partPages parts).filter fun g => !full.contains g)

/-- UPD_CHUNK (14 R354). -/
def execUpdChunk (p : Packet) (s : State) : Ans :=
  let pages : State → List Byte → Nat := fun s ps => match s.mgmt.upd with
    | some u => (u.chunk (leAt ps 0 4) (ps.drop 4)).2.1.length
    | none => 0
  let c : Cmd := { plainCmd 0x0704 (fun n => 5 ≤ n && n ≤ 244) with cost := fun s ps => 6 * pages s ps }
  .next (s.runCmd c p fun s p ps =>
    match s.mgmt.upd with
    | none => .done s stNotPermitted []
    | some u =>
      let off := leAt ps 0 4
      let bs := ps.drop 4
      let (parts, full, part) := u.chunk off bs
      if !u.owns p then .done s stNotPermitted []
      else if u.len < off + bs.length then .done s stBadParam []
      else if 16 < part.length then .done s stBusy []
      else
        let done := parts.filter fun c => full.contains (c.1 / 256)
        let mem := done.foldl (fun m c => cellWrite m c.1 c.2) (s.inactiveMem u.island)
        let s := s.setInactiveMem u.island mem
        let s := s.setNvm (s.nvm.wrote (full.flatMap (imagePage u.island !(s.nvm.dirs.at u.island).activeB)))
        .done (s.setMgmt { s.mgmt with
          upd := some { u with
            parts := parts.filter fun c => !full.contains (c.1 / 256), written := (u.written ++ full).dedup } })
          stOk [])

/-- The header of the image in an island's inactive slot (14 Table 14-5). -/
def State.header (s : State) (i : Island) : List Byte := cellsRead (s.inactiveMem i) 0 64

/-- One signature entry of the image in the inactive slot: whether its key ID is in place, and whether its key's digest is the fused one
and its signature over the header verifies (14 R355, Table 14-5). -/
def State.sigEntryOk (s : State) (i : Island) (k : Nat) : Bool × Bool :=
  let e := imageEntry (s.inactiveMem i) k
  (leAt e 0 1 == k && rsvdZero e 1 3, s.entryOk (s.inactiveMem i) k)

/-- The checks of UPD_VERIFY in their order: the status of the first that fails, or `none` (14 R355). -/
def State.imageStatus (s : State) (i : Island) (len version : Option Nat) : Option Nat :=
  let h := s.header i
  let n := leAt h 6 1
  let body := leAt h 12 4
  let total := 64 + body + 3736 * n
  let es := (List.range n).map (s.sigEntryOk i)
  let fits := decide (total ≤ maxImage i n) && (i != .aon || decide (64 + body ≤ 4096))
  let headerOk := leAt h 0 4 == 0x49514C45 && leAt h 4 1 == (srcOf i).toNat && leAt h 5 1 == 1 && n == s.nvm.nsig && fits &&
    (len.all (· == total)) && (version.all (· == leAt h 8 4)) && es.all (·.1) &&
    decide (leAt h 48 1 ≤ Config.romRev.toNat) && decide (leAt h 49 1 ≤ Config.siRev.toNat) && rsvdZero h 50 14
  if !headerOk then some stImageBad
  else if secVersion (leAt h 8 4) < s.nvm.fuses.at i then some stRollback
  else if sha3 (cellsRead (s.inactiveMem i) 64 body) ≠ (h.drop 16).take 32 then some stImageBad
  else if es.all (·.2) then none
  else some stImageBad

/-- IH_NSIG of the image in an island's inactive slot (14 Table 14-5). -/
def State.imageSigs (s : State) (i : Island) : Nat := leAt (s.header i) 6 1

/-- The length that UPD_VERIFY declares: that of the session, or that of the image in the slot (14 Table 14-9). -/
def State.verifyLen (s : State) (i : Island) : Nat :=
  match s.mgmt.upd with
  | some u => if u.island = i then u.len else 64 + leAt (s.header i) 12 4 + 3736 * s.imageSigs i
  | none => 64 + leAt (s.header i) 12 4 + 3736 * s.imageSigs i

/-- UPD_VERIFY (14 R355). -/
def execUpdVerify (p : Packet) (s : State) : Ans :=
  let c : Cmd := { plainCmd 0x0705 (· == 4) with
    cost := fun s ps => match islandOf (leAt ps 0 1) with
      | some i => 300 * s.imageSigs i + ceilDiv (s.verifyLen i) 10240
      | none => 0
    reads := fun s ps => match islandOf (leAt ps 0 1) with
      | some i => (List.range (ceilDiv (s.verifyLen i) 256)).flatMap (imagePage i !(s.nvm.dirs.at i).activeB)
      | none => [] }
  .next (s.runCmd c p fun s p ps =>
    match islandOf (leAt ps 0 1) with
    | none => .done s stBadParam []
    | some i =>
      if !rsvdZero ps 1 3 then .done s stBadParam []
      else
        let own := s.mgmt.upd.filter fun u => u.island == i
        let foreign := match s.mgmt.upd with
          | some u => !u.owns p
          | none => false
        let st := (s.nvm.dirs.at i).inactive.st
        let ready := match own with
          | some u => decide ((List.range (ceilDiv u.len 256)).all u.written.contains)
          | none => st == .committed || st == .failed
        if foreign || !ready then .done s stNotPermitted []
        else match s.imageStatus i (own.map (·.len)) (own.map (·.version)) with
          | some st => .done s st []
          | none =>
            let h := s.header i
            .done (s.setMgmt { s.mgmt with verified := s.mgmt.verified.put i true }) stOk (sha3 h ++ leBytes 4 (leAt h 8 4)))

/-- The anti-rollback fuses that a commit of the image in the inactive slot blows (14 R359). -/
def State.fusesToBlow (s : State) (i : Island) : Nat := secVersion (leAt (s.header i) 8 4) - s.nvm.fuses.at i

/-- The key under which the writes of an island's commit are reserved (03 R57). -/
def commitKey (i : Island) : Nat := 0x10000 + (srcOf i).toNat

/-- UPD_ACTIVATE (14 R356, R358): MGMT's reply comes before the restart, the others wait for UP. -/
def execUpdActivate (p : Packet) (s : State) : Ans :=
  let c : Cmd := { plainCmd 0x0706 (· == 8) with
    signable := true, mustSign := fun _ => true, needs := fun _ _ => [.aon], waits := true,
    cost := fun s ps => match islandOf (leAt ps 0 1) with
      | some i => 318 + s.fusesToBlow i
      | none => 318 }
  .next (s.runCmd c p fun s _ ps =>
    let x := leAt ps 2 6
    let now := s.clock.meridian.toNat
    match islandOf (leAt ps 0 1) with
    | none => .done s stBadParam []
    | some i =>
      if !rsvdZero ps 1 1 then .done s stBadParam []
      else if s.actPending i then .done s stBusy []
      else if !s.mgmt.verified.at i then .done s stNotPermitted []
      else if x ≠ 0 ∧ (2147483648 : Int) < ahead x now then .done s stBadParam []
      else
        let x' := effectTick x now
        let d := s.nvm.dirs.at i
        let h := s.header i
        let info : SlotInfo := ⟨.ready, sha3 h, leAt h 8 4, leAt h 7 1⟩
        let s := s.setDir i { d.setInactive info with actTick := some x', wasCommitted := d.inactive.st == .committed }
        let s := s.setMgmt { s.mgmt with upd := s.mgmt.upd.filter fun u => u.island != i }
        let s := if s.energy.aux then s
          else s.setEnergy { s.energy with reserved := s.energy.reserved ++ [(commitKey i, 6 + s.fusesToBlow i)] }
        let s := s.postReq 7 0x0706 (.activate i)
        if i = .mgmt then .done s stOk (leBytes 6 x') else .wait s none (leBytes 6 x'))

/-- UPD_VERSION_INFO (14 R352). -/
def execUpdVersionInfo (p : Packet) (s : State) : Ans :=
  .next (s.runCmd (plainCmd 0x0708 (· == 0)) p fun s _ _ =>
    let one (i : Island) : List Byte :=
      let d := s.nvm.dirs.at i
      let open_ := match s.mgmt.upd with
        | some u => u.island == i
        | none => false
      leBytes 1 (b2n d.activeB) ++
      leBytes 1 (b2n open_ + 2 * b2n d.actTick.isSome + 4 * b2n (d.active.st == .trial) + 8 * b2n (d.inactive.st == .committed)) ++
      leBytes 2 (s.nvm.fuses.at i) ++ leBytes 4 d.a.version ++ leBytes 4 d.b.version
    .done s stOk (one .mgmt ++ one .loop ++ one .meas ++ one .aon))

/-! ## Activation, trial, session timeout, OEM digest -/

/-- At X' the READY slot becomes active in TRIAL, the mark of its verification is used up, and the island restarts; one that is down
then waits until 64 ticks after its shadow's end (14 R357, R358). -/
def execActivation (isl : Island) (s : State) : Ans :=
  let d := s.nvm.dirs.at isl
  let x := s.isl.at isl
  let due := match d.actTick with
    | some t => s.reached t
    | none => false
  -- a fault reaction of this very boundary has just reset the island: it restarts once, from the new slot
  let sameBoundary := x.down && x.resetAt == some s.now && decide (x.origin.toNat < 0x40) && !x.supply
  let onTime := !x.down && match d.actTick with
    | some t => decide (0 < ahead t s.clock.prev.toNat)
    | none => false
  let free := !x.shadow && !x.down && decide (x.readyFrom ≤ s.now)
  let d' : SlotDir := { (d.setInactive { d.inactive with st := .trial }) with activeB := !d.activeB, actTick := none }
  let t := ((s.setDir isl d').setIsl isl { x with actAt := some s.now }).emitIsland isl 4
  let late : Outst → Outst := fun o =>
    if o.op = 0x0706 ∧ islandOf (leAt o.pkt.params 0 1) = some isl ∧ o.done = none then
      { o with res := leBytes 6 s.clock.meridian.toNat } else o
  let t := t.setMgmt { t.mgmt with outst := t.mgmt.outst.map late, verified := t.mgmt.verified.put isl false }
  -- 01 R26 and R27 hold on each side of this boundary only (14 R361)
  let t := if (isl == .meas || isl == .loop) && d.active.arith != d.inactive.arith then
    { t with clock := { t.clock with broken := some s.now } } else t
  stepIf (s.clock.powered && due && (sameBoundary || onTime || free)) s (t.assertReset isl 0xFE false)

/-- The reservation of a commit's writes ends (03 R57). -/
def State.releaseCommit (s : State) (i : Island) : State :=
  s.setEnergy { s.energy with reserved := s.energy.reserved.filter fun e => e.1 ≠ commitKey i }

/-- A trial slot commits 500,000 ticks after UP (14 R359). -/
def execTrialCommit (isl : Island) (s : State) : Ans :=
  let d := s.nvm.dirs.at isl
  let x := s.isl.at isl
  let t := s.setDir isl (d.setActive { d.active with st := .committed })
  let t := t.setNvm { t.nvm with
    fuses := t.nvm.fuses.put isl (min 63 (max (t.nvm.fuses.at isl) (secVersion d.active.version))) }
  stepIf (s.clock.powered && d.active.st == .trial && x.up && decide (500000 ≤ s.now - x.upAt)) s
    ((t.emitIsland isl 5).releaseCommit isl)

/-- The limit of Table 13-8 for UP, in ticks after R. -/
def State.upLimit (s : State) : Island → Nat
  | .meas => 500
  | .loop => 1100
  | .mgmt => if 8800 < s.energy.resReads.headD 0 then 900 else 2966
  | .aon => 100

/-- The inactive slot of an island counts as verified no more (14 R355). -/
def State.unverify (s : State) (i : Island) : State := s.setMgmt { s.mgmt with verified := s.mgmt.verified.put i false }

/-- A trial ends in a revert: a fault reaction other than IMAGE has reset the island, or UP has missed its limit; the island
restarts from its other slot (14 R360). -/
def execTrialRevert (isl : Island) (s : State) : Ans :=
  let d := s.nvm.dirs.at isl
  let x := s.isl.at isl
  let faultReset := x.down && decide (x.origin.toNat < 0x40) && x.origin != 0x1D && !x.supply && x.resetAt != x.actAt
  let late := x.down && (match x.resetAt with
    | some r => decide (s.upLimit isl ≤ s.now - r)
    | none => false)
  let d' : SlotDir := { (d.setActive { d.active with st := .failed }) with activeB := !d.activeB }
  let t := (s.setDir isl d').setIsl isl { x with
    released := false, resetAt := if faultReset && !late then x.resetAt else some s.now }
  stepIf (s.clock.powered && d.active.st == .trial && !x.dead && (faultReset || late)) s
    (((t.count .updRevert).emitIsland isl 6).releaseCommit isl |>.unverify isl)

/-- An update session closes after 5,000,000 ticks without a command of its owner (14 R353). -/
def execUpdSessionTimeout (s : State) : Ans :=
  match s.mgmt.upd with
  | some u => stepIf (decide (5000000 ≤ s.now - u.last)) s (s.setMgmt { s.mgmt with upd := none })
  | none => .next s

/-- Whether the active image of an island carries a valid OEM signature by the key with a digest (14 R346). -/
def State.oemSigned (s : State) (digest : List Byte) (i : Island) : Bool :=
  let m := s.activeMem i
  let e := imageEntry m 1
  (imageKey m 1).any fun k => sha3 k == digest &&
    (m.isEmpty || (leAt e 0 1 == 1 && Mldsa.verify k (cellsRead m 0 64) ((e.drop 1316).take 2420)))

/-- The OEM digest is fused through the factory test interface, which test mode and an authentication open, or the device refuses
(02 R34, 14 R346). -/
def execOemDigestFuse (digest : List Byte) (auth : Bool) (s : State) : Ans :=
  let ok := s.clock.powered && s.pins.testMode && auth && s.nvm.oem.isNone && decide (digest.length = 32) &&
    [Island.mgmt, .loop, .meas, .aon].all (s.oemSigned digest)
  stepIf ok s (s.setNvm { s.nvm with oem := some digest })

end Sys2Proof.Machine
end

