-- ==== Sys2Proof/Machine/Convert.lean ====
section
/-! DEFINITION. Conversions and their correction (05 R97 to R107, R112, R113; 04 R79 to R87, R91): SLOT_CONVERSION,
CALIBRATION_CONVERSION, BREAK_CHECK, RAW_SAMPLE_CORRECTION, SLICE_CHECK_FAIL. -/

namespace Sys2Proof.Machine

open Sys2Proof

/-! ## Which positions convert -/

/-- A slice of MEAS. -/
def Meas.slice (m : Meas) (n : Nat) : Slice := m.slices.toList.getD n (Slice.fresh n)

/-- Replace a slice. -/
def Meas.setSlice (m : Meas) (n : Nat) (x : Slice) : Meas := { m with slices := m.slices.setIfInBounds n x }

/-- Whether a slice is fenced at a tick (05 R113). -/
def Slice.fencedAt (x : Slice) (now : Nat) : Bool := match x.fence with
  | some t => decide (t ≤ now)
  | none => false

/-- Whether a sequence's position is active: the sequence runs, and for a triggered one its window does (06 R136, R147). -/
def Meas.seqActive (m : Meas) (a : Alm) (q run : Nat) : Bool :=
  let x := m.seq q
  x.running && (!a.sqTriggered q || x.laps == 0 && (match x.trig with
    | .running k => k == run
    | .runningPending k => k == run
    | _ => false))

/-- Whether a position is one that the schedule samples or fills: its sequence is active (06 R136). -/
def Meas.posActive (m : Meas) (a : Alm) (k : PosKind) : Bool := match k with
  | .slot _ _ _ q r => m.seqActive a q r
  | _ => true

/-- BLANK is accepted high and honoured (04 R88, R91, R92). -/
def State.blanked (s : State) : Bool := s.mgmt.inForce.blankEn && s.pins.blank.level && !s.meas.round.blankIgnored

/-- A slot in an accepted interval under SKIP is not sampled (04 R91). -/
def State.skipping (s : State) : Bool := s.blanked && s.mgmt.inForce.blankSkip

/-- Ticks of preparation that a start or rejoin must leave before a position (06 R137). -/
def startPrep (a : Alm) (k : PosKind) : Nat := max 20 (match k.chan with
  | some c => if a.gated c then a.excLead c else 1
  | none => 1)

/-- A position too soon after a MEAS start or rejoin: too few positions have passed since (06 R137, 13 R340). -/
def Round.tooSoon (r : Round) (a : Alm) (k : PosKind) : Bool := r.startAt.isSome && decide (r.passed < startPrep a k)


/-- Whether a position of the current tick converts: positions pass, its slice is in service and not fenced, and neither a
start, a junction nor SKIP keeps it from sampling. -/
def State.converts (s : State) (p : Pos) : Bool :=
  let m := s.meas
  s.measUp && m.round.passing && p.t == m.round.pos && m.posActive s.mgmt.inForce p.kind &&
  !(m.slice p.sl).fencedAt s.now && !m.round.tooSoon s.mgmt.inForce p.kind &&
  !m.round.skipped.contains (p.t, p.sl) && !s.skipping && !(m.taken.any fun t => t.sl == p.sl)

/-- The position of the current tick on a slice that satisfies a test and converts. -/
def State.posNow (s : State) (sl : Nat) (f : PosKind → Bool) : Option Pos :=
  s.meas.map.pos.find? fun p => p.sl == sl && f p.kind && s.converts p

/-- The gain exponent that a channel converts with now, and the channel after a waiting change took effect (07 R177): both
halves of a pair share one gain. -/
def Chan.gainNow (c : Chan) (a : Alm) (ch half now : Nat) : Chan × Nat :=
  if a.arEn ch then
    match c.pendGain with
    | some (g, t) => if t ≤ now ∧ half = 0 then ({ c with gain := g, pendGain := none }, g) else (c, c.gain)
    | none => (c, c.gain)
  else (c, a.fixedGain ch)

/-- Whether a position needs a switch-over on its slice: not one of the same channel and polarity as the slice's last (04 R74). -/
def Slice.switches (x : Slice) (k : PosKind) : Bool := k.path.isNone || x.lastKind.bind PosKind.path != k.path

/-- A slice converts a position in the current tick (05 R97): the conversion waits for its correction, the slice's counts
advance. -/
def State.takeConv (s : State) (p : Pos) (c : Conv) (gain : Nat) : State :=
  let m := s.meas
  let x := m.slice p.sl
  let x := { x with convs := x.convs + 1, since := if p.kind == .cal then 0 else x.since + 1 }
  s.setMeas { (m.setSlice p.sl x) with taken := m.taken ++ [⟨p.sl, p.kind, c, gain, x.convs⟩] }

/-- A gain change of its channel spoils the Sextant window in progress (05 R125). -/
def Meas.sxGain (m : Meas) (ch : Nat) (changed : Bool) : Meas :=
  { m with sxWindow := m.sxWindow.map fun w => if w.item = ch ∧ 0 < w.left then { w with spoiled := w.spoiled || changed } else w }

/-- Whether a slice's calibration position fires (05 R104). -/
def Slice.calDue (x : Slice) (now : Nat) : Bool := decide (255 ≤ x.since) || decide (500000 < now - x.lastCal)

/-- CALIBRATION_CONVERSION (05 R104): P, N, U and D in turn. -/
def execCalibrationConversion (sl : Fin 4) (c : Conv) (s : State) : Ans :=
  match s.posNow sl.val (· == .cal) with
  | some p =>
    stepIf ((s.meas.slice sl.val).calDue s.now) s
      (let t := s.takeConv p c 0
       t.setMeas (t.meas.setSlice sl.val { t.meas.slice sl.val with lastCal := s.now }))
  | none => .next s

/-- BREAK_CHECK (04 R85): the check slot fires in rounds whose count is a multiple of BRK_INT. -/
def execBreakCheck (sl : Fin 4) (c : Conv) (s : State) : Ans :=
  match s.posNow sl.val fun k => match k with
    | .check _ => true
    | _ => false with
  | some p =>
    match p.kind with
    | .check ch =>
      let k := s.mgmt.inForce.brkInt ch
      let (x, g) := (s.meas.chan ch).gainNow s.mgmt.inForce ch 0 s.now
      stepIf (k != 0 && s.meas.round.count % k == 0) s ((s.setMeas (s.meas.setChan ch x)).takeConv p c g)
    | _ => .next s
  | none => .next s

/-! ## Correction (05 R101, R102) -/

/-- The coefficients that a slice applies to a conversion sampled at a tick (05 R106). -/
def Slice.coefAt (x : Slice) (tick : Nat) : Int × Int × Int :=
  match x.old with
  | some (o, g, k, t) => if tick < t then (o, g, k) else (x.offAcc, x.gainAcc, x.skewAcc)
  | none => (x.offAcc, x.gainAcc, x.skewAcc)

/-- The clamp code that a conversion takes with OVR: that of its provisional sign when its decisions disagree, that of the input
difference when the PGA reports overload (05 R101, 04 R81). DESIGN CHOICE (notes/assumptions/83): of a conversion with both, the
provisional sign. -/
def convClamp (c : Conv) : Option Int :=
  if c.disagree then some (clampOfSign (decide (signed 18 c.code.toNat < 0)))
  else if c.overload then some (clampOfSign c.negative)
  else none

/-- The corrected 24-bit code and its OVR (05 R101, R102; 04 R81). A conversion that both disagrees and overloads takes the sign that
convClamp gives (notes/assumptions/83). -/
def Slice.correct (x : Slice) (cal : List Byte) (sl gain tick : Nat) (c : Conv) : Int × Bool :=
  let r := signed 18 c.code.toNat
  let (off, g, _) := x.coefAt tick
  let v := asl r 6
  let v := v - asr off 3
  let v := asr (v * asr g 3) 23
  let v := asr (v * Config.calGain cal sl gain) 23
  let v := v - Config.calOff cal sl gain
  match convClamp c with
  | some k => (k, true)
  | none => if codeMax < v then (codeMax, true)
  else if v < codeMin then (codeMin, true)
  else (v, false)

/-- Whether a redundancy failure in the `nth` conversion of a slice is the second within 256 consecutive ones (05 Table 5-5). -/
def errAgain (lastErr : Option Nat) (nth : Nat) : Bool := match lastErr with
  | some n => decide (nth < n + 256)
  | none => false

/-- Whether a conversion carries OVR (04 R81; 05 R101, R102). -/
def Slice.overrange (x : Slice) (cal : List Byte) (t : Taken) (tick : Nat) : Bool :=
  if t.kind == .cal then (convClamp t.conv).isSome else (x.correct cal t.sl t.gain tick t.conv).2

/-- A redundancy failure of a slice's `nth` conversion: counted; two within 256 consecutive conversions of the slice fail it (05 R101,
Table 5-5). -/
def State.sarCheck (s : State) (sl nth : Nat) (c : Conv) : State :=
  if c.disagree then
    let x := s.meas.slice sl
    let x := { x with lastErr := some nth, failed := if errAgain x.lastErr nth then some 3 else x.failed }
    (s.setMeas (s.meas.setSlice sl x)).count .sarErr
  else s

/-! ## Calibration (05 R105 to R107) -/

/-- Whether an offset/gain measurement is within its limits (05 Table 5-3). -/
def Slice.ogOk (x : Slice) (mOff mGain : Int) : Bool × Bool :=
  (decide (mOff.natAbs ≤ 4096) && decide ((mOff - asr x.offAcc 3).natAbs ≤ 256),
   decide ((mGain - 0x800000).natAbs ≤ 41943) && decide ((mGain - asr x.gainAcc 3).natAbs ≤ 1678))

/-- Whether a skew measurement is within its limits (05 Table 5-3). -/
def Slice.skewOk (x : Slice) (mSkew : Int) : Bool :=
  decide (mSkew.natAbs ≤ 800) && decide ((asr mSkew 3 - asr x.skewAcc 3).natAbs ≤ 20)

/-- The preload store holds a slice's values at each update (05 R107). -/
def Meas.storeCoef (m : Meas) : Meas :=
  { m with preload := { m.preload with
      coef := m.slices.toList.map fun x => ⟨x.offAcc, x.gainAcc, x.skewAcc, x.since, x.lastCal, x.phase⟩ } }

/-- m_gain of 05 R105. The spec states no quotient for p = n, and none for a quotient that no int32 holds: a free function of the two
(01 R22, R26). -/
def mGainOf (p n : Int) : Int :=
  let q := (2 * Config.cCal * 8388608).tdiv (p - n)
  if p = n ∨ fitsS 32 q = false then Config.mGainOpen p n else q

/-- After an N conversion: offset and gain (05 R105). -/
def State.calOffGain (s : State) (sl tick : Nat) (p n : Int) : State :=
  let mOff := asr (p + n) 1
  let mGain := mGainOf p n
  let x := s.meas.slice sl
  let (okO, okG) := x.ogOk mOff mGain
  if okO && okG then
    let y := { x with
      offAcc := x.offAcc + asr (asl mOff 3 - x.offAcc) 3, gainAcc := x.gainAcc + asr (asl mGain 3 - x.gainAcc) 3,
      old := some (x.offAcc, x.gainAcc, x.skewAcc, tick + 2), rejOg := 0 }
    (s.setMeas (s.meas.setSlice sl y).storeCoef).emitSlice sl 0 mOff
  else
    let y := { x with rejOg := x.rejOg + 1, failed := if 1 ≤ x.rejOg then some 1 else x.failed }
    ((s.setMeas (s.meas.setSlice sl y)).count .calReject).emitSlice sl 1 (if okG then mOff else mGain)

/-- m_skew of 05 R105. -/
def skewOf (u d : Int) : Int := asr (asr (u - d) 1 * 15625) 16

/-- After a D conversion: skew (05 R105). -/
def State.calSkew (s : State) (sl tick : Nat) (u d : Int) : State :=
  let k := skewOf u d
  let x := s.meas.slice sl
  if x.skewOk k then
    let y := { x with
      skewAcc := x.skewAcc + asr (k - x.skewAcc) 3, old := some (x.offAcc, x.gainAcc, x.skewAcc, tick + 2), rejSkew := 0 }
    (s.setMeas (s.meas.setSlice sl y).storeCoef).emitSlice sl 0 k
  else
    let y := { x with rejSkew := x.rejSkew + 1, failed := if 1 ≤ x.rejSkew then some 2 else x.failed }
    ((s.setMeas (s.meas.setSlice sl y)).count .calReject).emitSlice sl 1 k

/-- The code that a calibration takes from a conversion: uncorrected, or its clamp code (05 R101, R105; 04 R81). -/
def convCode (c : Conv) : Int := (convClamp c).getD (asl (signed 18 c.code.toNat) 6)

/-- A calibration conversion is evaluated in the tick after it: the input is the next of P, N, U, D (05 R104, R105). -/
def State.calibrate (s : State) (sl tick : Nat) (c : Conv) : State :=
  let v := convCode c
  let x := s.meas.slice sl
  let put (y : Slice) : State := s.setMeas (s.meas.setSlice sl { y with phase := (x.phase + 1) % 4 })
  let s' := if x.phase % 4 = 0 then put { x with latestP := some v }
    else if x.phase % 4 = 1 then (match x.latestP with
      | some p => (put x).calOffGain sl tick p v
      | none => put x)
    else if x.phase % 4 = 2 then put { x with latestU := some v }
    else (match x.latestU with
      | some u => (put x).calSkew sl tick u v
      | none => put x)
  s'.setMeas s'.meas.storeCoef

/-! ## Sensor checks (04 R85 to R87) -/

/-- Two failing checks in a row set SENSOR_OPEN, two passing ones clear it (04 R86). -/
def Chan.brk (c : Chan) (fail : Bool) : Chan :=
  if fail then { c with brkFail := c.brkFail + 1, brkPass := 0, sensorOpen := c.sensorOpen || decide (1 ≤ c.brkFail) }
  else { c with brkPass := c.brkPass + 1, brkFail := 0, sensorOpen := c.sensorOpen && !decide (1 ≤ c.brkPass) }

/-- A break check is compared with the channel's latest normal-polarity raw sample, brought to the check's gain (04 R85,
R86; 07 R178); with no such sample it is neither a pass nor a fail. -/
def Chan.breakCheck (c : Chan) (a : Alm) (ch gain : Nat) (x : Int) (ovr : Bool) : Chan :=
  match c.checkRef with
  | none => if ovr then c.brk true else c
  | some (r, g) => c.brk (ovr || decide ((a.brkThr ch : Int) * 65536 < (x - regain g gain r).natAbs))

/-- SENSOR_RANGE follows each channel result (04 R87). -/
def Chan.rangeCheck (c : Chan) (a : Alm) (ch : Nat) (res : Int) : Chan :=
  let u := asr res 8
  { c with sensorRange := decide (u < a.rngLo ch ∨ a.rngHi ch < u) }

/-! ## Sextant's share of the main samples (05 R124, R125) -/

/-- A sample of the window's channel joins the window, or spoils it. DESIGN CHOICE (notes/assumptions/84): a deskewed sample whose
sampling tick lies in the last four intervals of the window has not emerged when the comparison runs (05 R109, R124), and is left
out of the mean. -/
def SxWindow.addSample (w : SxWindow) (ch tick : Nat) (x : Int) (bad : Bool) : SxWindow :=
  if w.item = ch ∧ w.first ≤ tick ∧ (0 < w.left ∨ tick ≤ w.last) then
    { w with sum := w.sum + x, count := w.count + 1, spoiled := w.spoiled || bad }
  else w

/-- A raw sample with OVR, a skipped slot or a reused value at a tick of the window spoils it, whether its deskewed sample has emerged
or not (05 R125). -/
def Meas.sxSpoil (m : Meas) (ch tick : Nat) (bad : Bool) : Meas :=
  { m with sxWindow := m.sxWindow.map fun w =>
      if w.item = ch ∧ w.first ≤ tick ∧ (0 < w.left ∨ tick ≤ w.last) then { w with spoiled := w.spoiled || bad } else w }

/-- The window in progress takes a sample. -/
def Meas.sxSample (m : Meas) (ch tick : Nat) (x : Int) (bad : Bool) : Meas :=
  { m with sxWindow := m.sxWindow.map fun w => w.addSample ch tick x bad }

/-! ## From the conversion to the queue -/

/-- The previous raw sample of a polarity, or zero when the filter has had none since its last flush (04 R91, 05 R113). -/
def Chan.reuse (c : Chan) (half : Nat) : RawRef := ((if half = 1 then c.prevRev else c.prevNorm).getD ⟨0, c.gain, c.gain, false⟩)

/-- A channel's new raw sample is remembered for its polarity, and for the break check (04 R85, R91). -/
def Chan.remember (c : Chan) (half : Nat) (r : RawRef) : Chan :=
  if half = 1 then { c with prevRev := some r } else { c with prevNorm := some r, checkRef := some (r.x, r.gain) }

/-- Whether a result closes a period of the primary cycle (06 R135). -/
def Alm.isPrimary (a : Alm) (ch : Nat) : Bool := a.primaryChans.contains ch

/-- A sample that has passed pairing and deskew: Sextant's window and the decimator take it. -/
def State.feedChan (s : State) (ch : Nat) (f : Feedin) : State :=
  let m := s.meas.sxSample ch f.tick f.x f.ovr
  let a := s.mgmt.inForce
  let (c, r) := (m.chan ch).feed a ch f m.round.freezes s.now
  match r with
  | none => s.setMeas (m.setChan ch c)
  | some r =>
    let r := { r with closing := a.isPrimary ch }
    s.setMeas { (m.setChan ch (c.rangeCheck a ch r.res)) with results := m.results ++ [r] }

/-- The sum of a pair's two codes and the gain exponent to whose scale it stands. DESIGN CHOICE (notes/assumptions/94): the halves stand
at different gains only where one is a reused value (04 R91) of an autoranging channel; both are then brought to the higher gain, as
07 R178 brings raw samples to AR_GMAX, and the pair counts as taken at the gain of its second half. -/
def pairSum (h r : RawRef) : Int × Nat :=
  let g := max h.scale r.scale
  (regain h.scale g h.x + regain r.scale g r.x, g)

/-- A raw sample, converted or reused, enters its channel's path (04 R79; 05 R97, R109). A pair's sample stands at S2. DESIGN CHOICE
(notes/assumptions/99): a freeze between the halves of the first pair of a decimation period gives no DEFER (04 R90), since the pair's
sample is the period's first raw sample and is taken at S2, after it. -/
def State.enter (s : State) (p : Sampled) (ch half idx : Nat) (r : RawRef) (reused : Bool) : State :=
  let a := s.mgmt.inForce
  let c := s.meas.chan ch
  let c := if reused then c else c.remember half r
  let s := s.setMeas ((s.meas.setChan ch c).sxSpoil ch p.tick (r.ovr || reused))
  let f : Feedin := ⟨r.x, r.gain, r.scale, r.ovr, reused, p.sl, p.stamp, p.tick, p.round, idx, p.nc, p.tick⟩
  if a.excModeInUse ch = 3 then
    if half = 0 then s.setMeas (s.meas.setChan ch { c with half := some (r, reused) })
    else
      let (h, hr) := c.half.getD (c.reuse 0, true)
      let s := s.setMeas (s.meas.setChan ch { c with half := none })
      let (sum, g) := pairSum h r
      let ovr := h.ovr || r.ovr
      s.feedChan ch { f with
        x := if ovr then clampOfSign (decide (sum < 0)) else asr sum 1, scale := g, ovr := ovr, defer := reused || hr }
  else if s.meas.map.interleaved ch then
    let (_, _, k) := (s.meas.slice p.sl).coefAt p.tick
    let e : DeskewEntry := ⟨r.x, r.ovr, p.sl, asr k 3, p.stamp, p.tick, reused, p.round, idx, p.nc⟩
    let es := pushDeskew c.deskew e
    let s := s.setMeas (s.meas.setChan ch { c with deskew := es })
    match deskewMid es (s.meas.map.len / max 1 p.nc) with
    | none => s
    | some (d, y, ovr) => s.feedChan ch ⟨y, r.gain, r.scale, ovr, d.defer, d.sl, d.stamp, d.tick, d.round, d.idx, d.nc, p.tick⟩
  else s.feedChan ch f

/-- One position of the tick before (05 R97, R102). -/
def State.correctOne (s : State) (p : Sampled) : State :=
  match p.kind, p.fill with
  | .slot ch half idx _ _, .conv c =>
    let (x, ovr) := (s.meas.slice p.sl).correct s.meas.cal p.sl p.gain p.tick c
    (s.sarCheck p.sl p.nth c).enter p ch half idx ⟨x, p.gain, p.gain, ovr⟩ false
  | .slot ch half idx _ _, .reuse => s.enter p ch half idx ((s.meas.chan ch).reuse half) true
  | .check ch, .conv c =>
    let (x, ovr) := (s.meas.slice p.sl).correct s.meas.cal p.sl p.gain p.tick c
    let s := s.sarCheck p.sl p.nth c
    s.setMeas (s.meas.setChan ch ((s.meas.chan ch).breakCheck s.mgmt.inForce ch p.gain x ovr))
  | .cal, .conv c => (s.sarCheck p.sl p.nth c).calibrate p.sl p.tick c
  | _, .reuse => s

/-- The queue entry of a main result (06 Table 6-8). -/
def Result.entry (r : Result) (now : Nat) : QEntry :=
  ⟨BitVec.ofInt 24 r.res, BitVec.ofNat 5 r.chan, r.tags, r.stamp, now⟩

/-- Commit order: ascending stamp, then channel, then main before Sextant (06 R158). -/
def commitLe (x y : QEntry) : Bool :=
  let src (e : QEntry) : Nat := b2n (e.tags.getLsbD 5)
  let d := ahead y.stamp.toNat x.stamp.toNat
  decide (0 < d) || (decide (d = 0) && (decide (x.chan.toNat < y.chan.toNat) ||
    (x.chan == y.chan && decide (src x ≤ src y))))

/-- Commit one entry, or drop it from a full queue; a commit that brings the occupancy to Q_IRQ_LVL is to ring DB_QUEUE
(06 R159, R160; 15 R369). -/
def State.commit (s : State) (e : QEntry) : State :=
  let m := s.meas
  if m.queue.length < 512 then
    let m := { m with
      queue := m.queue ++ [e],
      qRing := if m.queue.length + 1 = s.mgmt.inForce.qIrqLvl then some e.commit else m.qRing }
    (s.setMeas m).emitResult e false
  else ((s.setMeas { m with qovf := true }).count .qdrop).emitResult e true

/-- Commit the entries of one tick in order (06 R158). -/
def State.commitAll (s : State) (es : List QEntry) : State := (sortBy commitLe es).foldl State.commit s

/-- The results of the tick, in commit order (06 R158, 07 R174). -/
def resultLe (now : Nat) (x y : Result) : Bool := commitLe (x.entry now) (y.entry now)

/-- Correct everything that the tick before sampled, and commit the results that emerge with the Sextant entries of this
tick (05 R102, 06 R158). -/
def State.correct (s : State) : State :=
  let old := s.meas.results
  let ps := s.meas.sampled
  let s := s.setMeas { s.meas with sampled := [], results := [] }
  let s := ps.foldl State.correctOne s
  let new := sortBy (resultLe s.now) s.meas.results
  let due := s.meas.sxEntries.filter fun e => decide (e.2 ≤ s.now)
  let s := s.setMeas { s.meas with
    results := old ++ new, sxEntries := s.meas.sxEntries.filter fun e => decide (s.now < e.2) }
  s.commitAll ((new.filter fun r => s.mgmt.inForce.qEn r.chan).map (fun r => r.entry s.now) ++
    due.map fun e => { e.1 with commit := s.now })

/-- RAW_SAMPLE_CORRECTION (05 R97, R102). -/
def execRawSampleCorrection (s : State) : Ans := stepIf s.measUp s s.correct

/-! ## SLOT_CONVERSION -/

/-- A channel that starts converting again after a stop is flushed at this conversion: what earlier ticks sampled is corrected first, and
the conversion is taken at GAIN (06 R136, R155; 07 R175). -/
def State.freshen (s : State) (ch : Nat) : State :=
  if (s.meas.chan ch).restart then
    let s := s.correct
    s.setMeas ((s.meas.setChan ch ((s.meas.chan ch).flush s.mgmt.inForce ch)).sxGain ch
      (s.mgmt.inForce.fixedGain ch != (s.meas.chan ch).gain))
  else s

/-- SLOT_CONVERSION (05 R97). -/
def execSlotConversion (sl : Fin 4) (c : Conv) (s : State) : Ans :=
  match s.posNow sl.val fun k => match k with
    | .slot _ _ _ _ _ => true
    | _ => false with
  | some p =>
    match p.kind with
    | .slot ch half _ _ _ =>
      let s := s.freshen ch
      let (x, g) := (s.meas.chan ch).gainNow s.mgmt.inForce ch half s.now
      let m := (s.meas.setChan ch x).sxGain ch (x.gain != (s.meas.chan ch).gain)
      .next ((s.setMeas m).takeConv p c g)
    | _ => .next s
  | none => .next s

/-! ## A slice fails its self-check (05 R112 to R114, R119) -/

/-- The slice's report is posted in the tick of detection; the fence holds from the next boundary; its fallback map is due,
or MGMT must compile a map when a slice is retired already; AON and NVM record the slice (05 R112 to R114, R116, R119). -/
def State.failSlice (s : State) (sl cause : Nat) : State :=
  let m := s.meas
  let first := m.inService.length == 4 && m.fallback.length == 4
  let x := { m.slice sl with failed := none, fence := some (s.now + 1), retired := true }
  let m := m.setSlice sl x
  let m := if first then { m with fallbackDue := some (sl, s.now + 1) } else { m with failCompile := some sl }
  let s := (s.setMeas m).setNvm { s.nvm with retired := s.nvm.retired ||| BitVec.twoPow 4 sl }
  (s.report 0x20 (cause + 256 * sl) 0x30).emitSlice sl 2 (cause + 256 * sl)

/-- SLICE_CHECK_FAIL (05 R112). -/
def execSliceCheckFail (sl : Fin 4) (s : State) : Ans :=
  match (s.meas.slice sl.val).failed with
  | some cause => stepIf (s.measUp && !(s.meas.slice sl.val).fence.isSome) s (s.failSlice sl.val cause)
  | none => .next s

end Sys2Proof.Machine
end

