-- ==== Sys2Proof/Machine/Streams.lean ====
section
/-! DEFINITION. The tap drain and the streams (06 R160 to R163, 15 R369): TAP_DRAIN, STREAM_FLUSH. -/

namespace Sys2Proof.Machine

open Sys2Proof

/-- A stream's filling state. -/
def Mgmt.stream (m : Mgmt) (k : Nat) : Stream := m.streams.toList.getD k Stream.reset

/-- Replace a stream's filling state. -/
def Mgmt.setStream (m : Mgmt) (k : Nat) (x : Stream) : Mgmt := { m with streams := m.streams.setIfInBounds k x }

/-- The bytes of a stream buffer that its entries fill (06 Table 6-11). -/
def Stream.bytes (x : Stream) (k : Nat) : List Byte :=
  leBytes 1 k ++ leBytes 1 x.entries.length ++ leBytes 2 x.seqNo ++
  leBytes 6 (match x.entries with
    | [] => 0
    | e :: _ => e.stamp.toNat) ++ zeros 2 ++ leBytes 4 x.bufDrops ++ x.entries.flatMap fun e => leBytes 8 e.word

/-- The fields of Table 6-10 of a stream, and QS_DEST and QS_FLUSH among those by which its buffer was opened (06 R161). -/
def Alm.streamFields (a : Alm) (k : Nat) : List Int := (List.range 5).map fun f => a.val (fid 5 k f)
def Stream.fabric (x : Stream) : Bool := x.fields.getD 1 0 == 1
def Stream.flush (x : Stream) : Nat := (x.fields.getD 4 0).toNat

/-- Hand a filled or partly filled buffer over: to the host with the stream's doorbell, or to LOOP for publishing
(06 R163). -/
def State.handOver (s : State) (k : Nat) : State :=
  let x := s.mgmt.stream k
  match x.buf with
  | none => s
  | some b =>
    let s := s.devWrite b (x.bytes k) 0x10
    let s := s.setMgmt (s.mgmt.setStream k { x with buf := none, entries := [], seqNo := (x.seqNo + 1) % 65536, bufDrops := 0 })
    if x.fabric then s.setFab { s.fab with relayOut := s.fab.relayOut ++ [(b, s.now)] }
    else (s.setOwner b .host 0x10).ring (3 + k)

/-- The stream fields that an entry goes by: those in force when it was committed (06 R161). -/
def Mgmt.fieldsOf (m : Mgmt) (e : QEntry) : Alm :=
  match m.oldStreams.find? fun o => decide (e.commit < o.1) with
  | some o => o.2
  | none => m.inForce

/-- The stream takes the next buffer of its ring for a first entry when that buffer is FREE; a range other than that of the buffer before
starts at its first (06 R163, R395; 11 R274). -/
def State.openBuffer (s : State) (k : Nat) (e : QEntry) : State :=
  let x := s.mgmt.stream k
  let r := (s.mgmt.fieldsOf e).streamRange k
  let fs := (s.mgmt.fieldsOf e).streamFields k
  let at_ := if x.fields.getD 2 0 = fs.getD 2 0 ∧ x.fields.getD 3 0 = fs.getD 3 0 then x.ring else 0
  let b := r.getD (at_ % max 1 r.length) 0
  if (s.win.ownAt b).own = .free then
    (s.setOwner b .device 0x10).setMgmt (s.mgmt.setStream k { x with
      buf := some b, entries := [e], firstTick := e.commit, ring := (at_ + 1) % max 1 r.length, drops := 0,
      bufDrops := x.drops, fields := fs })
  else s.setMgmt (s.mgmt.setStream k { x with drops := min (x.drops + 1) 0xFFFFFFFF })

/-- File one entry into a stream's buffer; a buffer with 30 entries is handed over, as is one that was opened by other fields than the
entry goes by (06 R161, R163). -/
def State.fileInto (s : State) (k : Nat) (e : QEntry) : State :=
  let x := s.mgmt.stream k
  match x.buf with
  | none => s.openBuffer k e
  | some _ =>
    if x.fields ≠ (s.mgmt.fieldsOf e).streamFields k then (s.handOver k).openBuffer k e
    else
    let s := s.setMgmt (s.mgmt.setStream k { x with entries := x.entries ++ [e] })
    if x.entries.length + 1 < 30 then s else s.handOver k

/-- The stream that is on and whose mask holds a channel (06 R161). -/
def Alm.streamOf (a : Alm) (ch : Nat) : Option Nat := (List.range 4).find? fun k => a.streamOn k && (a.qsChmask k).testBit ch

/-- One entry reaches MGMT (06 R161). -/
def State.fileEntry (s : State) (e : QEntry) : State :=
  match (s.mgmt.fieldsOf e).streamOf e.chan.toNat with
  | none => s.count .qunbound
  | some k => s.fileInto k e

/-- The token of the tap drain that crosses at the present boundary, one in each tick: the entries of the earliest tick that the
queue holds (01 R18, 06 R161). -/
def State.drainToken (s : State) : List QEntry :=
  if s.mgmt.inForce.queueStream && s.mgmtUp && s.mgmt.drained != some s.now then
    match s.qReady with
    | [] => []
    | e :: es => e :: es.takeWhile (·.commit == e.commit)
  else []

/-- The token of the tap drain leaves the queue. -/
def State.passDrain (s : State) : State :=
  (s.setMeas (s.meas.qDrop s.drainToken.length)).setMgmt { s.mgmt with drained := some s.now }

/-- The tap drain: DB_QUEUE for the commits of an earlier tick, and under STREAM one token, the entries of the earliest tick
that the queue holds, passes to MGMT's streams (06 R160, R161; 15 R369; 01 R18). -/
def State.tapDrain (s : State) : State :=
  let s := match s.meas.qRing with
    | some t => if t < s.now then (s.ring 2).setMeas { s.meas with qRing := none } else s
    | none => s
  if s.mgmt.inForce.queueStream && s.mgmtUp && s.mgmt.drained != some s.now then
    match s.qReady with
    | [] => s.setMgmt { s.mgmt with oldStreams := [] }
    | _ => s.drainToken.foldl State.fileEntry s.passDrain
  else s

/-- TAP_DRAIN (15 R369). -/
def execTapDrain (s : State) : Ans := stepIf s.clock.powered s s.tapDrain

/-- STREAM_FLUSH: QS_FLUSH ticks after its first entry's commit, by the fields of that entry (06 R161, R163). -/
def execStreamFlush (st : Fin 4) (s : State) : Ans :=
  let x := s.mgmt.stream st.val
  stepIf (s.mgmtUp && x.buf.isSome && decide (x.flush ≤ s.now - x.firstTick)) s (s.handOver st.val)

/-- The stream fields, which MGMT holds itself, take effect at a round start; partly filled buffers of changed streams are
handed over first, and entries committed before go by the old fields (06 R161, 01 R23). -/
def State.takeStreams (s : State) : State :=
  let old := s.mgmt.inForce
  let new := old.takeKind s.mgmt.committed .stream
  let changed (k : Nat) : Bool := old.streamFields k != new.streamFields k
  if old == new || !s.mgmtUp then s
  else
    let s := (List.range 4).foldl (fun s k => if changed k then s.handOver k else s) s.tapDrain
    s.setMgmt { s.mgmt with inForce := new, oldStreams := s.mgmt.oldStreams ++ [(s.now, old)] }

end Sys2Proof.Machine
end

