-- ==== Sys2Proof/Machine/Coding.lean ====
section
/-! DEFINITION. The line modem's signal and codes (09): patterns, mapping, the header and its convolutional code, the LDPC
codes and their decoder, the symbols of a packet, and the soft values of a received symbol. -/

namespace Sys2Proof

open Sys2Proof.Machine

/-! ## Patterns and modes (09 R212 to R215) -/

/-- The sign for sub-carrier 16 + i in a pattern of four words (09 Table 9-3). -/
def patSign (ws : List Nat) (i : Nat) : Int := if (ws.getD (i / 16) 0).testBit (i % 16) then -1 else 1

/-- P, the qualifier pattern. -/
def patP (i : Nat) : Int := patSign [0xB4E1, 0x6A5C, 0x2D93, 0xF0A7] i

/-- T, the training pattern. -/
def patT (i : Nat) : Int := patSign [0x5C3A, 0x91E6, 0xC74B, 0x0ED9] i

/-- The spreading factor of a mode (09 Table 9-1). -/
def Mode.spread : Mode → Nat
  | .robust => 8
  | .standard => 4
  | .fast => 2

/-- Data symbols per symbol (09 Table 9-1). -/
def Mode.dataSyms (m : Mode) : Nat := 64 / m.spread

/-- Coded bits per symbol (09 Table 9-1). -/
def Mode.bitsPer : Mode → Nat
  | .robust => 8
  | .standard => 32
  | .fast => 64

/-- Information bits of a codeword (09 Table 9-6). -/
def Mode.infoBits : Mode → Nat
  | .robust => 576
  | .standard => 576
  | .fast => 768

/-- Symbols of a codeword (09 R214). -/
def Mode.cwSyms (m : Mode) : Nat := 1152 / m.bitsPer

/-- The chip sequence of a spreading factor (09 Table 9-2). -/
def chips : Nat → List Int
  | 8 => [1, 1, -1, 1, 1, 1, -1, -1]
  | 4 => [1, 1, 1, -1]
  | _ => [1, -1]

/-- A chip of a mode. -/
def Mode.chip (m : Mode) (n : Nat) : Int := (chips m.spread).getD (n % m.spread) 1

/-- Codewords of a payload of `len` bytes (09 R214). -/
def Mode.codewords (m : Mode) (len : Nat) : Nat := if len = 0 then 0 else ceilDiv (8 * (len + 4)) m.infoBits

/-- Payload symbols (09 R214). -/
def Mode.paySyms (m : Mode) (len : Nat) : Nat := m.codewords len * m.cwSyms

/-- Airtime in half ticks: 1,125 for each symbol (09 R214). -/
def airHalf (m : Mode) (len : Nat) : Nat := (6 + m.paySyms len) * 1125

/-- Airtime in ticks; packets have an even number of symbols. -/
def airtime (m : Mode) (len : Nat) : Nat := airHalf m len / 2

/-- The mode of a code (09 Table 9-11). -/
def modeOfCode (n : Nat) : Mode := if n = 0 then .robust else if n = 1 then .standard else .fast

/-! ## Header (09 R218, R219) -/

/-- Header bits [47:0] of a frame (09 Table 9-5). -/
def headerLow (f : Frame) : Nat :=
  f.dest.toNat + 4096 * f.src.toNat + 16777216 * f.typ.toNat + 268435456 * f.hop.toNat + 2147483648 * f.len.toNat +
  1099511627776 * f.seq.toNat

/-- HCRC over header bytes 0 to 5 (09 R218). -/
def headerCrc (low : Nat) : Nat := (crc16 (leBytes 6 low)).toNat

/-- The header word (09 Table 9-5). -/
def headerWord (f : Frame) : Nat := headerLow f + 281474976710656 * headerCrc (headerLow f)

/-- The frame that a header word announces, without its payload; `none` for a wrong HCRC or a LEN above 256 (09 R218, R226). -/
def headerFrame (w : Nat) (mode : Mode) : Option Frame :=
  let f : Frame := {
    dest := BitVec.ofNat 12 w, src := BitVec.ofNat 12 (w / 4096), typ := BitVec.ofNat 4 (w / 16777216)
    hop := BitVec.ofNat 3 (w / 268435456), len := BitVec.ofNat 9 (w / 2147483648)
    seq := BitVec.ofNat 8 (w / 1099511627776), payload := [], mode := mode }
  if headerCrc (w % 281474976710656) = w / 281474976710656 % 65536 ∧ f.len.toNat ≤ 256 then some f else none

/-- Parity of the products of a tail-biting bit string at `i` and the delays of a generator. -/
def tailParity (u : List Bool) (i : Nat) (delays : List Nat) : Bool :=
  delays.foldl (fun a d => a != u.getD ((i + 64 - d) % 64) false) false

/-- The 128 coded bits of a header: 2i from g0 = 1011011, 2i + 1 from g1 = 1111001 (09 R219). -/
def headerCode (w : Nat) : List Bool :=
  let u := natBits 64 w
  (List.range 64).flatMap fun i => [tailParity u i [0, 2, 3, 5, 6], tailParity u i [0, 1, 2, 3, 6]]

/-- Sub-carrier 16 + this carries a coded header bit (09 R219). -/
def headerCarrier (n : Nat) : Nat := (29 * (n / 2) + 32 * (n % 2)) % 64

/-- The header word whose code a string of 128 bits is, if it is one: the inverse filter of the two generators, checked by
coding again. -/
def headerUncode (c : List Bool) : Option Nat :=
  let at0 (i : Nat) : Bool := c.getD (2 * (i % 64)) false
  let at1 (i : Nat) : Bool := c.getD (2 * (i % 64) + 1) false
  let bit (i : Nat) : Bool :=
    ([2, 4].foldl (fun a d => a != at0 (i + 64 - d)) false) != ([0, 1, 2, 3, 4].foldl (fun a d => a != at1 (i + 64 - d)) false)
  let w := bitsVal ((List.range 64).map bit)
  if headerCode w = c then some w else none

/-! ## LDPC (09 R220 to R222) -/

/-- Rows of the base matrix (09 Table 9-6). -/
def Mode.baseRows : Mode → Nat
  | .robust => 12
  | .standard => 12
  | .fast => 8

/-- The entry of the base matrix: its shift, `none` when empty (09 Table 9-6). -/
def Mode.entry (m : Mode) (i j : Nat) : Option Nat :=
  let mb := m.baseRows
  let kb := 24 - mb
  if j < kb then
    if mb = 12 then
      (if [0, 3, 7].contains ((j + 24 - i) % 12) then some ((11 * i + 17 * j + 5) % 48) else none)
    else (if [0, 2, 5].contains ((j + 16 - i) % 8) then some ((13 * i + 7 * j + 3) % 48) else none)
  else if j = kb then
    (if i = 0 ∨ i + 1 = mb then some 1 else if i = mb / 2 then some 0 else none)
  else (if i + 1 = j - kb ∨ i = j - kb then some 0 else none)

/-- The columns of a base row with their shifts. -/
def Mode.row (m : Mode) (i : Nat) : List (Nat × Nat) := (List.range 24).filterMap fun j => (m.entry i j).map fun s => (j, s)

/-- A block of 48 bits under a shift: row r takes bit (r + s) mod 48 (09 R220). -/
def rotBlock (b : List Bool) (s : Nat) : List Bool := (List.range 48).map fun r => b.getD ((r + s) % 48) false

/-- Bitwise sum of two blocks. -/
def xorBlock (x y : List Bool) : List Bool := (x.zip y).map fun p => p.1 != p.2

/-- A block of zeros. -/
def zeroBlock : List Bool := List.replicate 48 false

/-- Block `j` of a bit string. -/
def blockAt (bs : List Bool) (j : Nat) : List Bool :=
  let b := (bs.drop (48 * j)).take 48
  b ++ List.replicate (48 - b.length) false

/-- The sum of the information part of base row `i` (09 R221). -/
def Mode.syndrome (m : Mode) (info : List Bool) (i : Nat) : List Bool :=
  ((m.row i).filter fun e => e.1 < 24 - m.baseRows).foldl (fun a e => xorBlock a (rotBlock (blockAt info e.1) e.2)) zeroBlock

/-- The parity blocks p_1 … p_(mb-1) by back-substitution: `k` still to come, `i` the row to read (09 R221). -/
def Mode.parities (m : Mode) (info p0 : List Bool) : Nat → Nat → List Bool → List (List Bool)
  | 0, _, _ => []
  | k + 1, i, prev =>
    let own := if i = 0 then rotBlock p0 1 else if i = m.baseRows / 2 then p0 else zeroBlock
    let p := xorBlock (xorBlock (m.syndrome info i) own) prev
    p :: m.parities info p0 k (i + 1) p

/-- The codeword of k information bits (09 R221). -/
def Mode.encode (m : Mode) (info : List Bool) : List Bool :=
  let p0 := (List.range m.baseRows).foldl (fun a i => xorBlock a (m.syndrome info i)) zeroBlock
  info ++ p0 ++ (m.parities info p0 (m.baseRows - 1) 0 zeroBlock).flatten

/-- Saturate a posterior to 8 bits (09 R222). -/
def sat127 (v : Int) : Int := clampI (-127) 127 v

/-- The check-to-variable message of an edge from the other edges' values (09 R222). -/
def checkMsg (others : List Int) : Int :=
  let mag := others.foldl (fun a q => min a q.natAbs) 127
  let sgn : Int := others.foldl (fun a q => if q < 0 then -a else a) 1
  sgn * ((min mag 31 - 1 : Nat) : Int)

/-- The posteriors and the check-to-variable messages; a message is kept by layer, row and column. -/
structure Bp where
  post : Array Int
  msg : Array Int
  deriving DecidableEq, Repr

/-- One row of a layer (09 R222). -/
def Bp.row (b : Bp) (layer r : Nat) (cols : List (Nat × Nat)) : Bp :=
  let var (e : Nat × Nat) : Nat := 48 * e.1 + (r + e.2) % 48
  let idx (e : Nat × Nat) : Nat := (layer * 48 + r) * 24 + e.1
  let qs := cols.map fun e => (e, sat127 (b.post.getD (var e) 0 - b.msg.getD (idx e) 0))
  qs.foldl (fun b x =>
    let out := checkMsg ((qs.filter fun y => y.1.1 ≠ x.1.1).map (·.2))
    { post := b.post.setIfInBounds (var x.1) (sat127 (x.2 + out)), msg := b.msg.setIfInBounds (idx x.1) out }) b

/-- One layer: its 48 rows touch disjoint variables (09 R222). -/
def Bp.layer (m : Mode) (b : Bp) (layer : Nat) : Bp :=
  (List.range 48).foldl (fun b r => b.row layer r (m.row layer)) b

/-- One iteration over the layers in ascending order (09 R222). -/
def Bp.iter (m : Mode) (b : Bp) : Bp := (List.range m.baseRows).foldl (Bp.layer m) b

/-- `n` iterations. -/
def Bp.iters (m : Mode) : Nat → Bp → Bp
  | 0, b => b
  | n + 1, b => Bp.iters m n (b.iter m)

/-- The 1,152 decoded bits after exactly 12 iterations (09 R222). -/
def Mode.decode (m : Mode) (llrs : List Int) : List Bool :=
  let b := Bp.iters m 12 ⟨(llrs ++ List.replicate (1152 - llrs.length) 0).toArray, Array.replicate (12 * 48 * 24) 0⟩
  (b.post.toList.take 1152).map fun v => decide (v < 0)

/-! ## Payload bits (09 R214, R221) -/

/-- The first `n` bytes that a bit string spells. -/
def bitsBytes : Nat → List Bool → List Byte
  | 0, _ => []
  | n + 1, bs => BitVec.ofNat 8 (bitsVal (bs.take 8)) :: bitsBytes n (bs.drop 8)

/-- The payload with its CRC-32, least significant byte first (09 R221). -/
def withCrc (ps : List Byte) : List Byte := ps ++ leBytes 4 (crc32 ps)

/-- The codewords of a payload, the last filled with zero bits (09 R214). -/
def Mode.codeBits (m : Mode) (ps : List Byte) : List Bool :=
  let bits := byteBits (withCrc ps)
  let n := m.codewords ps.length
  let all := bits ++ List.replicate (n * m.infoBits - bits.length) false
  (List.range n).flatMap fun i => m.encode ((all.drop (i * m.infoBits)).take m.infoBits)

/-! ## Symbols (09 R213, R215, R219) -/

/-- A real multiple. -/
def Cplx.scale (k : Int) (z : Cplx) : Cplx := ⟨k * z.re, k * z.im⟩

/-- The sum, the product, the conjugate and the square of the magnitude. -/
def Cplx.add (x y : Cplx) : Cplx := ⟨x.re + y.re, x.im + y.im⟩
def Cplx.mul (x y : Cplx) : Cplx := ⟨x.re * y.re - x.im * y.im, x.re * y.im + x.im * y.re⟩
def Cplx.conj (x : Cplx) : Cplx := ⟨x.re, -x.im⟩
def Cplx.normSq (x : Cplx) : Nat := (x.re * x.re + x.im * x.im).toNat

/-- The value of a bit, 1 - 2b. -/
def bitSign (b : Bool) : Int := if b then -1 else 1

/-- The mode rotation (09 R215). -/
def Mode.mu : Mode → Cplx
  | .robust => ⟨1, 0⟩
  | .standard => ⟨-1, 0⟩
  | .fast => ⟨0, 1⟩

/-- Two bits (QPSK) or one (BPSK) as a data value; a QPSK value stands for itself divided by the square root of 2
(09 R213). -/
def Mode.dataValue (m : Mode) (bs : List Bool) (n : Nat) : Cplx :=
  match m with
  | .robust => ⟨bitSign (bs.getD n false), 0⟩
  | _ => ⟨bitSign (bs.getD (2 * n) false), bitSign (bs.getD (2 * n + 1) false)⟩

/-- A payload symbol: sub-carrier 16 + i carries chip c = i / D of data symbol m = i mod D (09 R213). -/
def Mode.symbol (m : Mode) (bs : List Bool) : List Cplx :=
  let d := m.dataSyms
  (List.range 64).map fun i => (m.dataValue bs (i % d)).scale (patT i * m.chip (i % d + i / d))

/-- Header symbol h (09 R219). -/
def headerSymbol (c : List Bool) (h : Nat) : List Cplx :=
  (List.range 64).map fun i =>
    let n := ((List.range 64).map fun k => 2 * k + h).find? fun n => headerCarrier n == i
    match n with
    | some n => ⟨patT i * bitSign (c.getD n false), 0⟩
    | none => ⟨0, 0⟩

/-- All the symbols of a packet, in order (09 R214). -/
def packetSymbols (f : Frame) : List (List Cplx) :=
  let m := f.mode
  let det := (List.range 64).map fun i => (⟨patP i, 0⟩ : Cplx)
  let trn0 := (List.range 64).map fun i => (⟨patT i, 0⟩ : Cplx)
  let trn1 := (List.range 64).map fun i => m.mu.scale (patT i)
  let hc := headerCode (headerWord f)
  let bits := if f.payload = [] then [] else m.codeBits f.payload
  [det, det, trn0, trn1, headerSymbol hc 0, headerSymbol hc 1] ++
  (List.range (m.paySyms f.payload.length)).map fun j => m.symbol ((bits.drop (j * m.bitsPer)).take m.bitsPer)

/-! ## Mode decision and soft values (09 R216, R217) -/

/-- S of 09 R216. -/
def corrSum (y0 y1 : List Cplx) : Cplx := (y0.zip y1).foldl (fun a p => a.add (p.1.conj.mul p.2)) ⟨0, 0⟩

/-- The mode whose rotation has the largest Re(S conj(mu)), the earlier one on a tie (09 R216). -/
def decideMode (y0 y1 : List Cplx) : Mode :=
  let s := corrSum y0 y1
  let m (x : Mode) : Int := (s.mul x.mu.conj).re
  if m .standard ≤ m .robust ∧ m .fast ≤ m .robust then .robust
  else if m .fast ≤ m .standard then .standard
  else .fast

/-- The taps, doubled (09 R216). -/
def tapsOf (mode : Mode) (y0 y1 : List Cplx) : List Cplx :=
  ((y0.zip y1).zip (List.range 64)).map fun p => (p.1.1.add (mode.mu.conj.mul p.1.2)).scale (patT p.2)

/-- The product of the group noise powers other than that of sub-carrier 16 + i. -/
def othersPg (pg : List Nat) (i : Nat) : Int := (((pg.eraseIdx (i / 8)).foldl (· * ·) 1 : Nat) : Int)

/-- conj(H) Y / sigma^2 of sub-carrier 16 + i over the product of all group powers (09 R217). -/
def weighted (taps y : List Cplx) (pg : List Nat) (i : Nat) : Cplx :=
  (((taps.getD i ⟨0, 0⟩).conj.mul (y.getD i ⟨0, 0⟩)).scale (othersPg pg i))

/-- The packet's factor, fixed at TRN1 (09 R217). The chips of a data symbol in ROBUST lie one in each floor group, so a
noise-free chip set of the mean tap power p gives LLR = 2 p times the sum of 1 / sigma_g^2, which the factor takes to 16. With
doubled taps and the group powers of 64 symbols that is 2,048 x this fraction for the metrics below. -/
def llrScale (taps : List Cplx) (pg : List Nat) : Nat × Nat :=
  (pg.foldl (· * ·) 1,
    (taps.map Cplx.normSq).sum * ((List.range 8).map fun g => (othersPg pg (8 * g)).toNat).sum)

/-- The nearest integer to a / b, or to a / (b sqrt 2) for QPSK, saturated to 31 (09 R217): the numbers from 1 to 31 whose lower
rounding bound is reached. -/
def softMag (mode : Mode) (a b : Nat) : Nat :=
  let top := if mode = .robust then 4 * a * a else 2 * a * a
  (List.range 31).countP fun n => decide ((2 * n + 1) * (2 * n + 1) * b * b ≤ top)

/-- A soft value: the sign of the metric, its magnitude under the packet's factor, rounded and saturated to 31 (09 R217). A
half is rounded away from 0 (DESIGN CHOICE, notes/assumptions/87). -/
def softValue (mode : Mode) (scale : Nat × Nat) (pg : List Nat) (metric : Int) : Int :=
  let b := scale.2 * pg.foldl (· * ·) 1
  let mag : Int := if b = 0 then ((min 31 (Config.llrOpen metric) : Nat) : Int)
    else (softMag mode (2048 * metric.natAbs * scale.1) b : Int)
  if metric < 0 then -mag else mag

/-- The combined value z_m (09 R217). -/
def Mode.combine (m : Mode) (taps y : List Cplx) (pg : List Nat) (k : Nat) : Cplx :=
  let d := m.dataSyms
  (List.range m.spread).foldl (fun a c =>
    let i := k + d * c
    a.add ((weighted taps y pg i).scale (m.chip (k + c) * patT i))) ⟨0, 0⟩

/-- The soft values of a payload symbol, in the order of its coded bits (09 R213, R217). -/
def Mode.demod (m : Mode) (scale : Nat × Nat) (taps y : List Cplx) (pg : List Nat) : List Int :=
  (List.range m.dataSyms).flatMap fun k =>
    let z := m.combine taps y pg k
    match m with
    | .robust => [softValue m scale pg z.re]
    | _ => [softValue m scale pg z.re, softValue m scale pg z.im]

/-- The hard decisions of a payload symbol, in the order of its coded bits (09 R217). -/
def Mode.hard (m : Mode) (taps y : List Cplx) (pg : List Nat) : List Bool :=
  (List.range m.dataSyms).flatMap fun k =>
    let z := m.combine taps y pg k
    match m with
    | .robust => [decide (z.re < 0)]
    | _ => [decide (z.re < 0), decide (z.im < 0)]

/-- The transform outputs of a payload symbol against what the taps and its hard decisions give: their phases hold the common phase
ramp (09 R217). -/
def Mode.products (m : Mode) (taps y : List Cplx) (pg : List Nat) : List Cplx :=
  (y.zip (taps.zip (m.symbol (m.hard taps y pg)))).map fun p => p.1.mul (p.2.1.mul p.2.2).conj

/-- The metrics of header symbol h, by coded bit 2k + h; their signs are the hard decisions (09 R217, R219). -/
def headerDemod (taps y : List Cplx) (pg : List Nat) (h : Nat) : List Int :=
  (List.range 64).map fun k =>
    let i := headerCarrier (2 * k + h)
    (weighted taps y pg i).re * patT i

/-! ## The transform (09 R211, R225) -/

/-- cos(2 pi n / 256) for n = 0 to 64, the nearest integers to 2^30 times it. R211 names the 256-point transform and no number format:
the scale is the model's (DESIGN CHOICE, notes/assumptions/88). -/
def cosTable : List Int :=
  [1073741824, 1073418433, 1072448455, 1070832474, 1068571464, 1065666786, 1062120190, 1057933813, 1053110176, 1047652185, 1041563127, 1034846671, 1027506862] ++
  [1019548121, 1010975242, 1001793390, 992008094, 981625251, 970651112, 959092290, 946955747, 934248793, 920979082, 907154608, 892783698, 877875009] ++
  [862437520, 846480531, 830013654, 813046808, 795590213, 777654384, 759250125, 740388522, 721080937, 701339000, 681174602, 660599890, 639627258] ++
  [618269338, 596538995, 574449320, 552013618, 529245404, 506158392, 482766489, 459083786, 435124548, 410903207, 386434353, 361732726, 336813204] ++
  [311690799, 286380643, 260897982, 235258165, 209476638, 183568930, 157550647, 131437462, 105245103, 78989349, 52686014, 26350943, 0]

/-- cos and sin of 2 pi n / 256, times 2^30. -/
def cosAt (n : Nat) : Int :=
  let k := n % 256
  if k ≤ 64 then cosTable.getD k 0
  else if k ≤ 128 then -cosTable.getD (128 - k) 0
  else if k ≤ 192 then -cosTable.getD (k - 128) 0
  else cosTable.getD (256 - k) 0
def sinAt (n : Nat) : Int := cosAt (n + 192)

/-- exp(2 pi j m / 65,536) times 2^30: a step of the table and a series for the rest of the angle. -/
def turn (m : Int) : Cplx :=
  let k := (m % 65536).toNat
  let a : Int := ((k % 256 * 6746518852 / 65536 : Nat) : Int)
  let c := 1073741824 - asr (a * a) 31 + floorDiv (a * a * a * a) (24 * 2 ^ 90)
  let s := a - floorDiv (a * a * a) (6 * 2 ^ 60)
  let z := (⟨cosAt (k / 256), sinAt (k / 256)⟩ : Cplx).mul ⟨c, s⟩
  ⟨asr z.re 30, asr z.im 30⟩

/-- Sample n of the 256-point inverse transform with Hermitian extension of the values on sub-carriers 16 to 79: twice the real
part of each value turned by its sub-carrier (09 R211 steps 1 and 2). -/
def hermitian (vals : List Cplx) (n : Nat) : Int :=
  2 * (vals.zipIdx.map fun (z, i) => z.re * cosAt ((16 + i) * n) - z.im * sinAt ((16 + i) * n)).sum

/-- Sample n of the 288 of a symbol: the guard repeats its last 32 (09 R211 step 3). -/
def guarded (vals : List Cplx) (n : Nat) : Int := hermitian vals ((n + 224) % 256)

/-- Transmit sample o of the 1,125 of a symbol: the interpolator over its 288 samples (09 R211 step 4). A transmit sample is 32
of the 125 parts of a receive sample on. -/
def resampled (vals : List Cplx) (o : Nat) : Int :=
  ((List.range 288).map fun n => guarded vals n * Config.interp (32 * (o : Int) - 125 * (n : Int))).sum

/-- The taps turned by a phase ramp, in 1/65,536 turn: its phase at sub-carrier 0 and its slope (09 R217). -/
def turnTaps (phase slope : Int) (taps : List Cplx) : List Cplx :=
  taps.zipIdx.map fun (h, i) =>
    let z := h.mul (turn (phase + slope * (16 + (i : Int))))
    ⟨asr z.re 30, asr z.im 30⟩

/-- The window's move for the slope that has gathered since its last one: a slope of 256 is one sample of drift, and a drift of more than
half a sample moves the window by one (09 R217). A signal that comes later turns the sub-carriers back. -/
def windowMove (drift : Int) : Int := if 128 < drift then -1 else if drift < -128 then 1 else 0

/-- Transmit sample magnitudes: the nearest integer, up to `top`, to a x / rms, where `sq` is the sum of the squares of the 1,125 samples
of the symbol (09 R231, R233; nearest: DESIGN CHOICE, notes/assumptions/88). -/
def rmsMag (a top : Nat) (x : Int) (sq : Nat) : Nat :=
  if sq = 0 then 0
  else (List.range top).countP fun n => decide ((2 * n + 1) * (2 * n + 1) * sq ≤ 4 * a * a * (x.natAbs * x.natAbs) * 1125)

/-- The real transform part of DET0, and its Hilbert transform (09 R225). -/
def det0 (i : Nat) : Int := hermitian ((List.range 64).map fun k => ⟨patP k, 0⟩) i
def det0Hilbert (i : Nat) : Int := hermitian ((List.range 64).map fun k => ⟨0, -patP k⟩) i

/-- The DET0 pattern in time with its Hilbert transform, and its energy E_d. -/
def det0Pairs : List (Int × Int) := (List.range 256).map fun i => (det0 i, det0Hilbert i)
def det0Energy : Nat := (det0Pairs.map fun p => p.1.natAbs * p.1.natAbs).sum

/-- One qualifier position: |c(n)|^2 and E_y(n) x E_d (09 R225). -/
structure Corr where
  n : Nat
  c2 : Nat
  e : Nat
  deriving DecidableEq, Repr

/-- The position n over its 256 samples (09 R225 step 1). -/
def corrOf (n : Nat) (ys : List Int) : Corr :=
  let ps := ys.zip det0Pairs
  let c : Cplx := ⟨(ps.map fun p => p.1 * p.2.1).sum, (ps.map fun p => p.1 * p.2.2).sum⟩
  ⟨n, c.normSq, (ys.map fun y => y.natAbs * y.natAbs).sum * det0Energy⟩

/-- The positions from n on that samples hold whole (09 R225 step 1). -/
def corrs : Nat → Nat → List Int → List Corr
  | 0, _, _ => []
  | k + 1, n, ys => if ys.length < 256 then [] else corrOf n (ys.take 256) :: corrs k (n + 1) (ys.drop 1)

/-- The metrics of the two header symbols interleaved into coded-bit order. -/
def interleave : List Int → List Int → List Int
  | x :: xs, y :: ys => x :: y :: interleave xs ys
  | xs, [] => xs
  | [], ys => ys

end Sys2Proof
end

