-- ==== Sys2Proof/Machine/Notices.lean ====
section
/-! DEFINITION. The requests that pass between the islands on MB3 to MB7 (11 R280 to R291, 01 R17, R20): what each receiver does
at the boundary at which it takes a notice, and the events that end outstanding commands (12 R299). -/

namespace Sys2Proof.Machine

open Sys2Proof

/-- The island has taken the request of an outstanding command: the first of its opcode, or of its M16 twin, that still waits
(12 R300, R313). -/
def State.gotReq (s : State) (op : Nat) : State :=
  match s.mgmt.outst.findIdx? (·.waitsFor op) with
  | none => s
  | some i => s.setMgmt { s.mgmt with outst := s.mgmt.outst.modify i fun o => { o with got := some s.now } }

/-- The outstanding commands of an opcode and its M16 twin whose request was taken at least `lag` ticks ago. -/
def State.takenBy (s : State) (op lag : Nat) : List Outst :=
  s.mgmt.outst.filter fun o => (o.op == op || o.op == m16Twin op) && o.done.isNone && match o.got with
    | some t => decide (t + lag ≤ s.now)
    | none => false

/-- The status and results of an outstanding command for its event: in the M16 form when it is an M16 command (12 R313). -/
def Outst.answer (o : Outst) (op status : Nat) (res : List Byte) : Nat × List Byte :=
  if o.op = op then (status, res) else m16Answer o.op status res

/-- MEAS reports an event to MGMT on MB5, to each outstanding command that waits for it (11 R287, 12 R299, R313). -/
def State.measEvent (s : State) (op lag status : Nat) (res : List Byte) : State :=
  (s.takenBy op lag).foldl (fun s o =>
    let (st, r) := o.answer op status res
    s.postReq 5 o.op (.event o.op st r)) s

/-- LOOP reports an event to MGMT. The spec names no notice for it, since those of MB2 carry the identity of a session
(11 R280): the model hands it over at the next boundary without one (notes/assumptions/77). -/
def State.loopEvent (s : State) (op status : Nat) (res : List Byte) : State :=
  s.setMgmt { s.mgmt with
    events := s.mgmt.events ++ (s.takenBy op 0).map fun o =>
      let (st, r) := o.answer op status res
      (o.op, st, r, s.now) }

/-! ## What each island does with a request -/

/-- A pending alarm, fix or reply for LOOP: a fixed current or its release changes the code at A + 4 (08 R192). -/
def State.loopReq (s : State) : Req → State
  | .reply r => match sessionOf r.src with
    | some n => s.gotReply n r
    | none => s
  | .fix c u => (s.gotReq 0x0401).schedule (s.now + 4) (.fix c u)
  | .release => (s.gotReq 0x0402).schedule (s.now + 4) .release
  | .fskPass os => let t := s.gotReq 0x0508; { t with fsk := { t.fsk with tx := some (os, t.now) } }
  | _ => s

/-- A SEQ_TRIGGER's notice: every sequence of its mask takes a trigger, and the results are known (06 R144, 12 Table 12-15). The
result byte of a sequence outside the mask is not stated. -/
def State.trigReq (s : State) (mask : Nat) : State :=
  let (s, rs) := (List.range 4).foldl (fun (acc : State × List Byte) q =>
    if mask.testBit q then let (s, r) := acc.1.trigger q; (s, acc.2 ++ leBytes 1 r)
    else let (x, s) := acc.1.draw 8; (s, acc.2 ++ [x])) (s, [])
  let t := s.gotReq 0x0203
  t.measEvent 0x0203 0 stOk (leBytes 6 t.clock.meridian.toNat ++ rs ++ zeros 2)

/-- A request for MEAS: a start at a round start at least 2 ticks later, a stop at a later round start, a trigger, a slice out
of or into service, a swap (05 R117, R118; 06 R136, R144; 07 R171). -/
def State.measReq (s : State) : Req → State
  | .seqs op mask =>
    let upd (f : Seq → Seq) : State :=
      (s.setMeas ((maskSeqs mask).foldl (fun m q => m.setSeq q (f (m.seq q))) s.meas)).gotReq op
    if op = 0x0201 then upd fun x => { x with startFrom := some (x.startFrom.getD (s.now + 2)) }
    else if op = 0x0202 then upd fun x => { x with stopFrom := some (x.stopFrom.getD (s.now + 1)) }
    else s.trigReq mask
  | .retire sl m => (s.setMeas { s.meas with job := some (.retire sl m (s.now + 2)) }).gotReq 0x0205
  | .restore sl => (s.setMeas { s.meas with job := some (.restore sl (s.now + 1)) }).gotReq 0x0206
  | .swap mask x save =>
    if (s.outstOf 0x0302).isSome then
      (s.setMeas { s.meas with swap := some ⟨mask, effectTick x s.clock.meridian.toNat, save⟩ }).gotReq 0x0302
    else s
  | _ => s

/-- AON is to report an island's UP, but for MGMT's, which ends no command (12 R299, 14 R356). -/
def State.owe (s : State) (i : Island) : State :=
  if i = .mgmt then s else s.setFaults { s.faults with owed := s.faults.owed ++ [i] }

/-- A request for AON; the collector acts on an acknowledgement, a clearing or an injection after the reports of the boundary
(13 R315, R317, R332, R337; 15 R377). -/
def State.aonReq (s : State) : Req → State
  | .ack d h => s.setFaults { s.faults with acks := s.faults.acks ++ [(d, h, s.now)] }
  | .inject d n => s.setFaults { s.faults with armReq := s.faults.armReq ++ [(d, n, s.now)] }
  | .clearLog scope => s.setFaults { s.faults with clears := s.faults.clears ++ [scope] }
  | .traceMask m => s.setObs { s.obs with mask := m, maskNext := if s.obs.maskNext = some m then none else s.obs.maskNext }
  | .resetIsland i => ((s.gotReq 0x0003).owe i).askReset i
  | .activate i => (s.gotReq 0x0706).owe i
  | _ => s

/-- Commands that wait for an island's UP are reported (12 R299, 14 R356). -/
def State.reportUp (s : State) (i : Island) : State :=
  let mine (o : Outst) : Bool := o.done.isNone && islandOf (leAt o.pkt.params 0 1) == some i
  let mark (o : Outst) : Outst :=
    if mine o && o.op == 0x0003 then { o with done := some (stOk, []) }
    else if mine o && o.op == 0x0706 then { o with done := some (stOk, o.res) }
    else o
  s.setMgmt { s.mgmt with outst := s.mgmt.outst.map mark }

/-- A notice for MGMT from MEAS or AON: the event that an outstanding command waits for (12 R299). -/
def State.mgmtReq (s : State) : Req → State
  | .event op status res => s.outstDone op status res
  | .islandUp i => s.reportUp i
  | _ => s

/-! ## Taking notices at a boundary (01 R17, R20; 11 R281) -/

/-- An island takes the notice of one of its mailboxes that was posted in an earlier tick; it acknowledges in the same tick. -/
def State.takeMb (s : State) (k : Nat) (up : Bool) (act : State → Req → State) : State :=
  let m := s.win.mbAt k
  if up && m.untaken && decide (m.since < s.now) then act (s.takeReq k 0x00) m.req else s

/-- MEAS takes MB4's notice. -/
def State.takeMb4 (s : State) : State := s.takeMb 4 s.measUp State.measReq

/-- LOOP's events of earlier ticks reach MGMT. -/
def State.takeEvents (s : State) : State :=
  if s.mgmtUp && s.ready then
    let due := s.mgmt.events.filter fun e => decide (e.2.2.2 < s.now)
    due.foldl (fun s e => s.outstDone e.1 e.2.1 e.2.2.1)
      (s.setMgmt { s.mgmt with events := s.mgmt.events.filter fun e => !decide (e.2.2.2 < s.now) })
  else s

/-- The notices of a boundary, in ascending mailbox number at each island. A boundary that begins a round leaves MB4's notice to
the round start, behind the apply token of the same boundary (01 R20). -/
def State.takeNotices (s : State) : State :=
  let s := s.takeMb 3 s.loopUp State.loopReq
  let s := if s.measUp && s.meas.round.on && s.meas.round.due then s else s.takeMb4
  let s := (s.takeMb 5 (s.mgmtUp && s.ready) State.mgmtReq).takeEvents
  (s.takeMb 6 (s.mgmtUp && s.ready) State.mgmtReq).takeMb 7 (s.clock.powered && s.upAt .aon) State.aonReq

end Sys2Proof.Machine
end

