-- ==== Sys2Proof/Machine/Output.lean ====
section
/-! DEFINITION. The loop output's selection (08 R191, R200, R396) and the stages after the commanded code (08 R193, R194, R202). -/

namespace Sys2Proof.Machine

open Sys2Proof

/-! ## Selection (08 R191, R200, R396) -/

/-- Whether the primary cycle runs (06 R136). -/
def State.primaryRuns (s : State) : Bool := (s.meas.seq s.mgmt.inForce.primary).running

/-- track of 08 R200. -/
def LoopOut.track (l : LoopOut) (a : Alm) (t : Nat) : Int :=
  let k : Int := ((min (t - l.dTick) 3000 : Nat) : Int)
  clampI a.satLo a.satHi (l.cLast + floorDiv ((l.cLast - l.cPrev) * k) (l.uLast - l.uPrev))

/-- The level of an alarm (08 R396). -/
def alarmLevel (a : Alm) (hi : Bool) : Int := if hi then a.almHi else a.almLo

/-- OUT_SRC and the code of the highest source in force (08 Table 8-4). -/
def State.selectCode (s : State) : Nat × Int :=
  let a := s.mgmt.inForce
  let l := s.loop
  let below : Nat × Int :=
    if l.multidrop then (7, 40000)
    else if l.hwAlarm then (6, alarmLevel a a.almDirHigh)
    else if l.auxAlarm then (6, a.almLo)
    else if l.swAlarm then (5, alarmLevel a a.almDirHigh)
    else match l.fixed with
      | some (c, _) => (4, c)
      | none =>
        if l.startup then (0, 35000)
        else if l.holding || !s.primaryRuns then (2, l.cLast)
        else if l.interrupted then
          if a.holdTrack && l.usable == 2 then (3, l.track a s.now) else (2, l.cLast)
        else (1, l.normal)
  match l.miswire with
  | .folded _ => (8, min 36000 below.2)
  | _ => below

/-! ## The stages after the commanded code (08 R193, R194, R202) -/

/-- C(n, 2). -/
def choose2 (n : Int) : Int := if n < 2 then 0 else n * (n - 1) / 2

/-- The weight w[k] of the shaper, k = 0 to 1533 (08 R193). -/
def shapeWeight (k : Nat) : Int :=
  choose2 ((k : Int) + 2) - 3 * choose2 ((k : Int) - 510) + 3 * choose2 ((k : Int) - 1022)

/-- The weighted sum of a history's differences from its fill, from weight `k` on. -/
def shapeSum (fill : Int) : Nat → List Int → Int
  | _, [] => 0
  | k, x :: xs => shapeWeight k * (x - fill) + shapeSum fill (k + 1) xs

/-- The shaped code of the limited codes, newest first, all older ones equal to `fill` (08 R193). -/
def shape (fill : Int) (lims : List Int) : Int := asr (134217728 * fill + shapeSum fill 0 lims) 27

/-- Drop from the end what equals the fill. -/
def trimFill (fill : Int) (l : List Int) : List Int := (l.reverse.dropWhile (· == fill)).reverse

/-- The limited code of the boundary before joins the history of 1,533. -/
def LoopOut.push (l : LoopOut) : LoopOut :=
  let h := (l.lim :: l.hist).take 1533
  let fill := if h.length = 1533 then h.getLastD l.fill else l.fill
  { l with hist := trimFill fill h, fill := fill }

/-- user_trim of 08 R202. -/
def LoopOut.userTrim (l : LoopOut) (c : Int) : Int :=
  if l.untrimmed then c else 40000 + asr ((c - l.m4) * l.trimGain) 22

/-- The commanded code and source as selected, and the codes after it; the limiter starts from the limited code of the
boundary before, which heads the history (08 R193, R194). -/
def LoopOut.stages (l : LoopOut) (src : Nat) (c : Int) (slew : Int) : LoopOut :=
  let prev := l.hist.headD l.fill
  let bypass := src != l.prevSrc && (src == 5 || src == 6 || src == 8)
  let lim := if bypass then c else if prev < c then min c (prev + slew) else max c (prev - slew)
  let shaped := shape l.fill (lim :: l.hist)
  { l with src := src, cmd := c, lim := lim, shaped := shaped, trim := Config.factoryTrim (l.userTrim shaped) }

/-- Every stage at once at a code (08 R194). -/
def LoopOut.setAll (l : LoopOut) (src : Nat) (c : Int) : LoopOut :=
  { l with
    src := src, prevSrc := src, cmd := c, lim := c, hist := [], fill := c, shaped := c, trim := Config.factoryTrim (l.userTrim c) }

/-- Select and run the stages at the present boundary; a stopped primary cycle ends an interruption (08 R191, R197). -/
def State.refreshLoop (s : State) : State :=
  let s := if s.primaryRuns then s else s.setLoop { s.loop with interrupted := false }
  let (src, c) := s.selectCode
  s.setLoop (s.loop.stages src c s.mgmt.inForce.slew)

/-- The LOOP message when the code, the source or a state of the loop word changed (15 Table 15-6). -/
def State.loopTrace (s : State) (old : LoopOut) : State :=
  let l := s.loop
  let changed := (l.cmd != old.cmd && !(l.src == 3 && old.src == 3)) || l.src != old.src || l.complying != old.complying ||
    l.miswired != old.miswired || l.interrupted != old.interrupted
  if changed then
    s.emit .aon 5 (l.src + 16 * b2n l.sat + 32 * b2n l.complying + 64 * b2n l.miswired + 128 * b2n l.interrupted +
      256 * b2n l.holdLim) [unsignedOf 18 l.cmd, unsignedOf 18 l.shaped]
  else s

end Sys2Proof.Machine
end

