-- ==== Sys2Proof/Machine/Apply.lean ====
section
/-! DEFINITION. What takes effect at a round start (01 R23, 06 R131): new fields and maps, retirements and restorations, sequence
starts and stops. -/

namespace Sys2Proof.Machine

open Sys2Proof

/-! ## A new map and new fields at a round start -/

/-- Fields 6 to 12 of a channel are its excitation (04 R94); 22 to 24 are its filter (06 R149). -/
def Alm.chanDiffers (old new : Alm) (c : Nat) : Bool :=
  ([6, 7, 8, 9, 10, 11, 12] ++ [22, 23, 24]).any fun f => old.val (fid 2 c f) != new.val (fid 2 c f)

/-- Whether the change of fields and map flushes a channel: its excitation, interleaving, filter fields or n_c (06 R155). -/
def flushes (old new : Alm) (m m' : SlotMap) (c : Nat) : Bool :=
  old.chanDiffers new c || m.interleaved c != m'.interleaved c || m.nc c != m'.nc c

/-- A channel at the change: flushed where R155 says so; one whose autoranging is switched on starts at GAIN with no decision under way,
while the gain of its previous result stands (07 R175, R176, R178). DESIGN CHOICE (notes/assumptions/94): an apply that changes AR_GMIN,
AR_GMAX or GAIN without a flush keeps the gain in use, one that waits, and the filter state. -/
def Chan.atChange (x : Chan) (old new : Alm) (m m' : SlotMap) (c : Nat) : Chan :=
  let x := if flushes old new m m' c then x.flush new c else x
  if new.arEn c && !old.arEn c then { x with gain := new.fixedGain c, pendGain := none, awaitRchg := false, sinceChg := 4 } else x

/-- Whether an apply changes SQ_LEN, an SQ_SLOT field, used or not, SQ_REP or SQ_TRIG of a triggered sequence (06 R147). -/
def Alm.windowsDiffer (old new : Alm) (q : Nat) : Bool :=
  old.sqTriggered q && (old.sqLen q != new.sqLen q || (List.range 64).any (fun j => old.sqSlot q j != new.sqSlot q j) ||
    old.sqRep q != new.sqRep q || old.sqTrig q != new.sqTrig q)

/-- A window that runs at a change of maps completes there when its last position has passed, or when the new map has no position of it
(06 R145, R147). -/
def State.finishWindows (s : State) (m' : SlotMap) (new : Alm) : State :=
  (List.range 4).foldl (fun s q =>
    let x := s.meas.seq q
    let done (k : Nat) : Bool := x.ended || (m'.runPos q k).isEmpty
    let x := { x with ended := false }
    match x.trig with
    | .running k => if done k then s.setMeas (s.meas.setSeq q { x with trig := .idle }) else s
    | .runningPending k =>
      let next := match m'.selectWindow new q 0 with
        | some w => TrigState.armed w
        | none => .idle
      if done k then s.setMeas (s.meas.setSeq q { x with trig := next }) else s
    | _ => s) s

/-- The Sextant rotation after an apply: at the lowest checked channel when the set of channels with SX_EN changes
(05 R122). -/
def sxAfter (old new : Alm) (item : Nat) : Nat :=
  let set (a : Alm) := (List.range 20).filter a.sxEn
  if set old == set new then item else (set new).headD 20

/-- The map and the fields that played before the present round start (06 R148). -/
def State.before (s : State) : SlotMap × Alm :=
  match s.meas.prior with
  | some (t, m, a) => if t = s.now then (m, a) else (s.meas.map, s.mgmt.inForce)
  | none => (s.meas.map, s.mgmt.inForce)

/-- The junction between the map that played before this round start and the one in force now: its conflicts are junction-skipped in
this round (06 R148). -/
def State.junction (s : State) : State :=
  match s.meas.prior with
  | some (t, m, a) =>
    if t = s.now then
      let skips := junctionSkips m a s.meas.map s.mgmt.inForce
      let new := skips.filter fun p => !s.meas.round.skipped.contains p
      new.foldl (fun s _ => s.emitSeq 0 7) (s.setMeas { s.meas with round := { s.meas.round with skipped := skips } })
    else s
  | none => s

/-- New fields and a new map take effect at a round start (05 R115; 06 R147, R155; 08 R197). DESIGN CHOICE
(notes/assumptions/79): a trigger that is armed for a window which a map with lowered rates no longer has stays armed, and drops
every later trigger of its sequence; R146 and R147 name no way out of it but a stop or an apply. -/
def State.changeMap (s : State) (new : Alm) (m' : SlotMap) (fbs : List SlotMap) : State :=
  let old := s.mgmt.inForce
  let m := s.meas
  let was := s.before
  let s := (((List.range 4).filter (old.windowsDiffer new)).foldl State.discardTriggers s).finishWindows m' new
  let s := s.setMgmt { s.mgmt with inForce := new }
  let s := s.setLoop { s.loop with duMax := max s.loop.duMax m'.duMax, g := m'.g, duFrom := s.now }
  let s := s.setEnergy { s.energy with cost := m'.cost, costLoop := m'.costLoop }
  s.setMeas { s.meas with
    map := m', prior := some (s.now, was), fallback := fbs, sxItem := sxAfter old new m.sxItem,
    chans := Vector.ofFn fun c => (m.chan c.val).atChange old new m.map m' c.val,
    slices := s.meas.slices.map fun x => { x with warm := true } }

/-- New fields alone: the map stays, but flushes and triggers follow the fields (06 R147, R155). -/
def State.changeFields (s : State) (new : Alm) : State :=
  let old := s.mgmt.inForce
  let m := s.meas
  let s := ((List.range 4).filter (old.windowsDiffer new)).foldl State.discardTriggers s
  (s.setMgmt { s.mgmt with inForce := new }).setMeas { s.meas with
    sxItem := sxAfter old new m.sxItem, chans := Vector.ofFn fun c => (m.chan c.val).atChange old new m.map m.map c.val }

/-! ## Parts of ROUND_START -/

/-- The measurement token takes effect when MEAS received it at least 2 ticks before (01 R23, 12 R309). A map that names a
slice which has failed since gives way to that slice's fallback map, or MGMT compiles a map for the slices left
(05 R114, R116). -/
def State.takeMeasToken (s : State) : State :=
  match s.mgmt.pendMeas with
  | none => s
  | some t =>
    if s.now < t.posted + 3 then s
    else
      let new := s.mgmt.inForce.takeKind t.alm .meas
      let s := s.setMgmt { s.mgmt with pendMeas := none }
      let s := match t.map with
        | none => s.changeFields new
        | some (m, fs) =>
          let gone := m.slices.filter fun n => (s.meas.slice n).retired
          match gone, fs with
          | [], _ => s.changeMap new m fs
          | [n], [_, _, _, _] => (s.changeMap new (fs.getD n m) []).emitSlice n 3 s.meas.round.count
          | n :: _, _ =>
            let t := s.changeMap new m []
            t.setMeas { t.meas with failCompile := some n }
      s.emitApply .meas 0 s.meas.round.count

/-- Record whether a slice is retired, in AON and in NVM (05 R119). -/
def State.setRetired (s : State) (sl : Nat) (r : Bool) : State :=
  let bit := BitVec.twoPow 4 sl
  (s.setMeas (s.meas.setSlice sl { s.meas.slice sl with retired := r, fence := none, failed := none })).setNvm { s.nvm with
    retired := if r then s.nvm.retired ||| bit else s.nvm.retired &&& ~~~ bit }

/-- A retirement or restoration reaches its round start (05 R117, R118). -/
def State.roundJob (s : State) : State :=
  let count := leBytes 4 s.meas.round.count
  match s.meas.job with
  | some (.retire sl m f) =>
    if f ≤ s.now then
      let s := (s.setRetired sl true).changeMap s.mgmt.inForce m []
      let s := (s.setMeas { s.meas with job := none }).emitSlice sl 4 s.meas.round.count
      s.measEvent 0x0205 0 stOk count
    else s
  | some (.restore sl f) =>
    if f ≤ s.now then s.setMeas { s.meas with job := some (.qualify sl s.now) } else s
  | some (.qualified sl m fs f) =>
    if f ≤ s.now then
      let s := (s.setRetired sl false).changeMap s.mgmt.inForce m fs
      let s := (s.setMeas { s.meas with job := none }).emitSlice sl 5 s.meas.round.count
      s.measEvent 0x0206 0 stOk count
    else s
  | _ => s

/-- A map that MGMT compiled after a second failure takes effect (05 R116). -/
def State.takeFailMap (s : State) : State :=
  match s.meas.failMap with
  | some (m, t) =>
    if t < s.now then
      let s := s.changeMap s.mgmt.inForce m []
      s.setMeas { s.meas with failMap := none }
    else s
  | none => s

/-- Whether a channel belongs to no running sequence. -/
def Meas.idleChan (m : Meas) (a : Alm) (c : Nat) : Bool := (a.seqsOf c).all fun q => !(m.seq q).running

/-- A sequence stops; its armed and held triggers are discarded and counted; a channel left without a running sequence is
flushed at its next conversion; an interruption ends when the primary cycle stops (06 R136, R147; 08 R197). -/
def State.stopSeq (s : State) (q : Nat) : State :=
  let s := s.discardTriggers q
  let s := if q = s.mgmt.inForce.primary then s.setLoop { s.loop with interrupted := false } else s
  let m := s.meas.setSeq q { s.meas.seq q with running := false, stopFrom := none, trig := .idle }
  s.setMeas { m with chans := Vector.ofFn fun c =>
    let x := m.chan c.val
    { x with restart := x.restart || ((s.mgmt.inForce.seqsOf c.val).contains q && m.idleChan s.mgmt.inForce c.val) } }

/-- A sequence starts (06 R136). -/
def State.startSeq (s : State) (q : Nat) : State :=
  s.setMeas (s.meas.setSeq q { s.meas.seq q with running := true, startFrom := none })

/-- Whether a waiting start or stop is due. -/
def dueBy (t : Option Nat) (now : Nat) : Bool := match t with
  | some t => decide (t ≤ now)
  | none => false

/-- Stops and then starts of the round start, with the reports to their commands (06 R136). -/
def State.roundSeqs (s : State) (count : Nat) : State :=
  let stops := (List.range 4).filter fun q => dueBy (s.meas.seq q).stopFrom s.now
  let s := (stops.filter fun q => (s.meas.seq q).running).foldl State.stopSeq s
  let s := stops.foldl (fun s q => s.setMeas (s.meas.setSeq q { s.meas.seq q with stopFrom := none })) s
  let s := s.measEvent 0x0202 1 stOk (leBytes 4 (count - 1))
  let was := (s.meas.seq s.mgmt.inForce.primary).running
  let starts := (List.range 4).filter fun q => dueBy (s.meas.seq q).startFrom s.now && 0 < s.mgmt.inForce.sqLen q
  let s := starts.foldl State.startSeq s
  let s := if !was && (s.meas.seq s.mgmt.inForce.primary).running then s.setLoop { s.loop with uUpd := s.now } else s
  s.measEvent 0x0201 2 stOk (leBytes 4 count)

/-- With SUPPLY_MODE = AUX, AUX_IN lost or absent and a loop cost that fails, every sequence stops, and SUP_AUX is raised once
(03 R62). -/
def State.auxCheck (s : State) : State :=
  if s.auxBlocked then
    let on := (List.range 4).filter fun q => (s.meas.seq q).running || (s.meas.seq q).startFrom.isSome
    let mask := on.foldl (fun m q => m ||| BitVec.twoPow 4 q) s.energy.auxStopped
    let s' := on.foldl (fun s q =>
      let s := if (s.meas.seq q).running then s.stopSeq q else s
      s.setMeas (s.meas.setSeq q { s.meas.seq q with startFrom := none })) s
    let s' := s'.setEnergy { s'.energy with auxStopped := mask, auxLost := true }
    if s.energy.auxLost then s' else s'.report 0x15 0 0x40
  else s.setEnergy { s.energy with auxLost := false }

end Sys2Proof.Machine
end

