-- ==== Sys2Proof/Machine/Routing.lean ====
section
/-! DEFINITION. What the sequencer drives tick by tick (04 R72 to R79, R85, R88, R89; 05 R98 to R100, R112, R123): the positions
that are played now and soon, the excitation pins, the break checks' sources, the slices' router paths and supplies, Sextant's
inputs. -/

namespace Sys2Proof.Machine

open Sys2Proof

/-! ## The positions ahead -/

/-- Ticks from the present boundary to the next round start while the round runs or replays its preamble. -/
def Round.untilNext (r : Round) (len : Nat) : Nat :=
  match r.freeze with
  | .preamble p left => left + (len - p) + r.idle
  | _ => max 1 (len - r.pos) + r.idle

/-- The state as the next round start will leave it, as far as MEAS knows now: its count, map, fields and running sequences. The
excitation leads, dwells, switch-overs and wakes of that round's first positions begin before it (04 R72, R77, R85; 05 R99). -/
def State.nextView (s : State) : State :=
  let r := s.meas.round
  let v := { s with clock := { s.clock with tick := s.now + r.untilNext s.meas.map.len } }
  let v := v.setMeas { v.meas with round := { r with count := r.nextCount }, seqs := v.meas.seqs.map (·.afterLaps 1) }
  let v := ((v.takeMeasToken).roundJob.takeFailMap.roundSeqs r.nextCount).auxCheck
  match v.meas.fallbackDue with
  | some (sl, t) =>
    let fb := v.meas.fallback.getD sl v.meas.map
    if t + 2 ≤ v.now && fb.slices.all (fun n => !(v.meas.slice n).retired) then v.changeMap v.mgmt.inForce fb [] else v
  | none => v

/-- The longest lead or dwell, in ticks (04 R77, R85): a round start farther away casts nothing before it. -/
def reach : Nat := 256

/-- The round position that is played now, by the round or by a preamble that replays; `none` while it is frozen, idle or in the
frozen part of a hold (04 R88, R89; 10 R261). -/
def Round.playing (r : Round) (len w : Nat) : Option Nat :=
  if !r.on then none
  else match r.freeze with
    | .run =>
      if r.pos < len then some r.pos
      else if r.held && decide (r.untilNext len ≤ w) then some ((len + len - r.untilNext len) % len)
      else none
    | .preamble p left => some ((p + (left + 1) * len - left) % len)
    | .frozen _ => none

/-- Ticks to a position's tick from the one that is played: within the round while it runs; in a preamble those that it still replays,
around the ring, and then the rest of the round (04 R89). -/
def Round.ahead (r : Round) (len t : Nat) (p : Pos) : Option Nat :=
  match r.freeze with
  | .run => if t ≤ p.t then some (p.t - t) else none
  | .preamble pA left =>
    let d := (p.t + len - t) % len
    if d < left then some d else if pA ≤ p.t then some (left + (p.t - pA)) else none
  | .frozen _ => none

/-- Whether the coming round's first positions may have begun to be prepared: it is near, and neither a freeze nor the frozen part of a
hold stands before it. -/
def Round.nears (r : Round) (len w : Nat) : Bool :=
  r.on && !r.due && (match r.freeze with
    | .frozen _ => false
    | _ => true) && decide (r.untilNext len ≤ reach) && (!r.held || decide (r.untilNext len ≤ w))

/-- The view of a round `j` rounds after the next one (06 R145). -/
def State.laterView (v : State) (j : Nat) : State :=
  v.setMeas { v.meas with
    round := { v.meas.round with count := v.meas.round.count + j }, seqs := v.meas.seqs.map (·.afterLaps j) }

/-- The positions of the rounds that begin within reach, from one that begins in `first` ticks on; a lead can be longer than a round
(04 R77, 06 R145). -/
def State.roundsAhead (v : State) (first : Nat) : List (State × Pos × Nat) :=
  let len := max 1 v.meas.map.len
  (List.range ((reach - first) / len + 1)).flatMap fun j =>
    let u := if j = 0 then v else v.laterView j
    v.meas.map.pos.map fun p => (u, p, p.t + first + j * len)

/-- The positions to come with the state that they belong to and the ticks until they are played: those of the present round or
ring, and those of the next rounds when they are near. -/
def State.coming (s : State) : List (State × Pos × Nat) :=
  let r := s.meas.round
  let m := s.meas.map
  let here := match r.playing m.len m.w with
    | none => []
    | some t => m.pos.filterMap fun p => (r.ahead m.len t p).map fun d => (s, p, d)
  if r.nears m.len m.w then
    here ++ s.nextView.roundsAhead (r.untilNext m.len)
  else here

/-! ## Excitation and break checks (04 R75 to R79, R85) -/

/-- A position whose gated excitation the sequencer drives: its sequence is active, or its check slot fires (04 R77, R85;
06 R136). -/
def State.drives (s : State) (p : Pos) : Bool :=
  match p.kind with
  | .check ch =>
    let k := s.mgmt.inForce.brkInt ch
    k != 0 && s.meas.round.count % k == 0
  | k => s.meas.posActive s.mgmt.inForce k

/-- The pins that a position to come holds active now: its lead has begun (04 R77, R79). -/
def leadUses (e : State × Pos × Nat) : List PinUse :=
  let a := e.1.mgmt.inForce
  match e.2.1.kind.chan with
  | some c => if e.1.drives e.2.1 && decide (e.2.2 ≤ a.excLead c) then a.posUses e.1.meas.map.len e.2.1 else []
  | none => []

/-- What a pin delivers for a use of it (04 R76, R79). -/
def PinUse.drive (u : PinUse) : PinDrive :=
  if u.volt then (if u.ret == u.rev then .volt u.level else .ground)
  else if u.ret then (if u.rev then .drive25 else .ground)
  else if u.rev then .sink u.level u.cell
  else .source u.level u.cell

/-- The channel whose firing check has its dwell in this tick, with the pins that its fields for that round name (04 R85). -/
def dwellChan (e : State × Pos × Nat) : Option (Nat × Nat × Nat) :=
  match e.2.1.kind with
  | .check c =>
    let a := e.1.mgmt.inForce
    if e.1.drives e.2.1 && decide (e.2.2 ≤ a.brkDwell c) then some (c, a.pos c, a.neg c) else none
  | _ => none

/-- The pins that the sequencer holds active, with what they deliver: continuous channels always, gated ones by their positions
(04 R76, R77, R88). -/
def State.excUses (s : State) (soon : List (State × Pos × Nat)) : List PinUse :=
  if s.measUp then s.mgmt.inForce.continuousUses s.meas.map.len ++ soon.flatMap leadUses else []

/-- The mask of active EXC pins. -/
def excMask (us : List PinUse) : BitVec 4 := us.foldl (fun m u => m ||| BitVec.twoPow 4 u.pin) 0

/-- What each EXC pin delivers; one that no slot needs is high-impedance (04 R76). -/
def excDrives (us : List PinUse) : Vector PinDrive 4 :=
  Vector.ofFn fun n => match us.find? fun u => u.pin == n.val with
    | some u => u.drive
    | none => .off

/-- The active pins among EXC0 to EXC3 at the present boundary. -/
def State.excNow (s : State) : BitVec 4 := excMask (s.excUses s.coming)

/-! ## Router paths and supplies of the slices (04 R72, R74, R79, R83; 05 R98 to R100) -/

/-- Where a slot's reference inputs lead (04 R69, R79). -/
def Alm.refIn (a : Alm) (c : Nat) (rev : Bool) : RefIn :=
  if !a.refSel c then .internal else if rev then .exchanged else .external

/-- The path of a channel's inputs, exchanged or not; an internal code stands alone (04 R66, R79). -/
def Alm.inPath (a : Alm) (c : Nat) (rev : Bool) : Path :=
  if 0x18 ≤ a.pos c then .inner (a.pos c)
  else if rev then .inputs (a.neg c) (a.pos c) (a.refIn c true)
  else .inputs (a.pos c) (a.neg c) (a.refIn c false)

/-- The path that a position connects: for the second slot of a reversal pair with POS and NEG exchanged (04 R72, R79, R85;
05 R104). -/
def Alm.pathOf (a : Alm) (phase : Nat) (k : PosKind) : Path :=
  match k with
  | .slot c half _ _ _ => a.inPath c (half == 1)
  | .check c => a.inPath c false
  | .cal => .cal (phase % 4)

/-- D of the switch-over before a position, in MEAS cycles (04 R72, R83; 05 R104). -/
def Slice.switchD (x : Slice) (a : Alm) (k : PosKind) : Nat :=
  let d := match k.chan with
    | some c => 8 * a.disch c
    | none => 128
  if x.ext then max d 128 else d

/-- The path at a boundary that lies `n` ticks before the sampling tick of a position that needs a switch-over: cycle -64 (n - 1)
of the tick before that one (04 R72). -/
def pathBefore (n d : Nat) (old new : Path) : Path :=
  if n = 0 then new
  else if 49 + 64 * (n - 1) ≤ d then .shorted
  else if d = 48 + 64 * (n - 1) then .opened
  else old

/-- The next position to be played on a slice that is in service, with its state and the ticks until then. -/
def nextOn (soon : List (State × Pos × Nat)) (sl : Nat) : Option (State × Pos × Nat) :=
  (soon.filter fun e => e.2.1.sl == sl).foldl (fun b e => match b with
    | none => some e
    | some x => if e.2.2 < x.2.2 then some e else some x) none

/-- Whether the wake before a position sampled at a tick is cold: never the first under a new map, also one still to come; else by the
map, the first on its slice after a MEAS start, or one after a freeze in which the slice slept more than 500 ticks (05 R99, R100). -/
def State.coldAt (v : State) (x : Slice) (p : Pos) (tick : Nat) : Bool :=
  let r := v.meas.round
  !x.warm && !(v.meas.slice p.sl).warm && (v.meas.map.cold p || (match r.startAt with
    | some t => decide (x.lastConv < t)
    | none => false) ||
  (r.freezes.any fun t => decide (x.lastConv < t)) && decide (501 < tick - x.lastConv))

/-- A slice's supply in the tick that begins: awake for a position; its reference buffer powered through a cold wake, from a new map
to its first slot, and from a MEAS start; else asleep (05 R98 to R100, 06 R137). -/
def State.powerOf (s : State) (x : Slice) (next : Option (State × Pos × Nat)) : SlicePower :=
  let started := match s.meas.round.startAt with
    | some t => decide (x.lastConv < t)
    | none => false
  match next with
  | some (v, p, n) =>
    if n = 0 then .awake
    else if x.warm || started || (decide (n ≤ 20) && v.coldAt x p (s.now + n)) then .buffer
    else .asleep
  | none => if x.warm || started then .buffer else .asleep

/-- The path at a boundary `n` ticks before a position, and D of the switch-over that has begun. -/
def Slice.towards (x : Slice) (n d : Nat) (new : Path) : Slice :=
  { x with path := pathBefore n d x.path new, disch := if n ≤ 4 then d else x.disch }

/-- A retired slice in its qualification, `o` ticks after it began: a cold wake of 20 ticks, then P, N, U and D four times, 16 ticks
apart, each with a switch-over; the reference buffer stays on between them (05 R118). -/
def Slice.inQual (x : Slice) (o : Nat) : Slice :=
  let j := if o < 20 then 0 else (o - 20 + 15) / 16
  let k := 20 + 16 * j - o
  if 16 ≤ j then { x with path := .opened, power := .buffer }
  else { x.towards k 128 (.cal (j % 4)) with power := if k = 0 then .awake else .buffer }

/-- A slice out of service at the present boundary: its switches open and asleep, but for a qualification and, after one that has
passed, its reference buffer until the map switch (05 R113, R118). -/
def State.routeRetired (s : State) (n : Nat) : Slice :=
  let x := s.meas.slice n
  let off : Slice := { x with path := .opened, power := .asleep }
  match s.meas.job with
  | some (.qualify sl t) => if sl = n then x.inQual (s.now - t) else off
  | some (.qualified sl _ _ _) => if sl = n then { off with power := .buffer } else off
  | _ => off

/-- A slice at the present boundary: its path and supply. A freeze abandons a switch-over that has begun (04 R88, 05 R113). -/
def State.routeSlice (s : State) (soon : List (State × Pos × Nat)) (n : Nat) : Slice :=
  let x := s.meas.slice n
  if x.retired || x.fencedAt s.now then s.routeRetired n
  else
    let next := nextOn soon n
    let x := { x with power := s.powerOf x next }
    match next with
    | some (v, p, k) =>
      let new := v.mgmt.inForce.pathOf x.phase p.kind
      if x.switches p.kind then x.towards k (x.switchD v.mgmt.inForce p.kind) new
      else if k = 0 then { x with path := new } else x
    | none => if x.path = .shorted then { x with path := .opened } else x

/-- A cold wake whose buffer-ready flag is not set at the end of tick S-2 fails its slice; this boundary begins tick S-1 (05 Table
5-2, R112). A position that a start keeps from sampling is no slot of the slice yet. -/
def State.bufferCheck (s : State) (ready : BitVec 4) : State :=
  let soon := s.coming
  (List.range 4).foldl (fun s n =>
    let x := s.meas.slice n
    match nextOn (soon.filter fun e => e.2.2 == 1) n with
    | some (v, p, _) =>
      let early := s.meas.round.startAt.isSome && decide (s.meas.round.passed + 1 < startPrep v.mgmt.inForce p.kind)
      if !x.retired && x.fence.isNone && !early && v.coldAt x p (s.now + 1) && !ready.getLsbD n then
        s.setMeas (s.meas.setSlice n { x with failed := some 4 })
      else s
    | none => s) s

/-- The position that a slice has played in the tick that ends. -/
def State.played (s : State) (sl : Nat) : Option Pos :=
  let m := s.meas
  m.map.pos.find? fun p => s.measUp && m.round.passing && p.sl == sl && p.t == m.round.pos &&
    !m.round.tooSoon s.mgmt.inForce p.kind && !m.round.skipped.contains (p.t, p.sl)

/-- The position that a slice's router has connected in the tick that ends: played, or replayed in a preamble (04 R72, R89). -/
def State.routed (s : State) (sl : Nat) : Option PosKind :=
  let m := s.meas
  match m.round.playing m.map.len m.map.w with
  | some t => if s.measUp then (m.map.pos.find? fun p => p.sl == sl && p.t == t).map (·.kind) else none
  | none => none

/-- Whether a slice's conversion of the tick that ends carries OVR. -/
def State.tookOver (s : State) (sl : Nat) : Bool :=
  s.meas.taken.any fun t => t.sl == sl && (s.meas.slice sl).overrange s.meas.cal t s.now

/-- A slice at the end of a tick: a conversion with OVR arms the extended discharge for its next switch-over, which may begin in the
tick that comes (04 R72, R83). -/
def State.visitSlice (s : State) (sl : Nat) : Slice :=
  let x := s.meas.slice sl
  let y := match s.played sl with
    | some p => if x.fencedAt s.now then x
      else { x with warm := false, lastConv := s.now, ext := x.ext && (s.skipping || !x.switches p.kind) || s.tookOver sl }
    | none => x
  match s.routed sl with
  | some k => { y with lastKind := some k }
  | none => y

/-- The positions of the tick that ends have woken their slices, sampled or not: it counts for the wakes, a new map's first slot has
come, and a switch-over that was carried out has used up an extended discharge, which a slot skipped under SKIP does not
(04 R83, 05 R99, R100, R104; 06 R136). -/
def State.visit (s : State) : State :=
  s.setMeas { s.meas with slices := Vector.ofFn fun n => s.visitSlice n.val }

/-! ## Sextant's inputs (05 R121, R123, R127) -/

/-- What Sextant integrates in the tick that begins: the window's channel, for a gated one only from S-3 to S of its slots in the window,
exchanged while the polarity is reversed; REFP - REFN in every second tick of the window with REF_SEL = 1, the input first (DESIGN
CHOICE, notes/assumptions/100); or a reference window. Nothing while the round stands or replays (04 R88, 05 R122). -/
def State.sxInput (s : State) (soon : List (State × Pos × Nat)) : SxDrive :=
  let a := s.mgmt.inForce
  match s.meas.sxWindow with
  | none => .off
  | some w =>
    if w.left = 0 || !s.meas.round.passing || decide (s.meas.map.len ≤ s.meas.round.pos) then .off
    else if 20 ≤ w.item then .window w.item
    else
      let slot := soon.find? fun e => decide (e.2.2 ≤ 3) && decide (e.2.2 < w.left) && e.1.drives e.2.1 && (match e.2.1.kind with
        | .slot c _ _ _ _ => c == w.item
        | _ => false)
      let rev := slot.any fun e => match e.2.1.kind with
        | .slot _ half _ _ _ => half == 1
        | _ => false
      if a.gated w.item && slot.isNone then .off
      else if a.refSel w.item && (a.sxWin w.item - w.left) % 2 == 1 then .ref w.item rev
      else .input w.item rev

/-! ## All that the sequencer drives -/

/-- The sequencer drives the excitation pins, the break checks' sources, the slices' paths and supplies and Sextant's inputs; with
MEAS down all of them are off (04 R72 to R88; 05 R98, R123; 13 Table 13-5). -/
def State.driveExc (s : State) : State :=
  let soon := if s.measUp then s.coming else []
  let us := s.excUses soon
  let dwell := (soon.filterMap dwellChan).eraseDups
  let t := s.setPins { s.pins with
    exc := excMask us, excDrive := excDrives us
    brk := (dwell.filter fun c => decide (c.2.1 < 0x18)).map (·.2) }
  if s.measUp then
    t.setMeas { s.meas with
      dwell := (dwell.map (·.1)).eraseDups, sxDrive := s.sxInput soon, slices := Vector.ofFn fun n => s.routeSlice soon n.val }
  else t

end Sys2Proof.Machine
end

