-- ==== Sys2Proof/Machine/Rounds.lean ====
section
/-! DEFINITION. Schedule rounds (06 R131): ROUND_START with its apply points, FALLBACK_MAP_SWITCH (05 R114), ROUND_ALIGNMENT
(10 R261) and blanking (04 R88 to R93). -/

namespace Sys2Proof.Machine

open Sys2Proof

/-! ## ROUND_START -/

/-- The round counter and clock at a round start (06 R131). -/
def Round.start (r : Round) (now : Nat) : Round :=
  { r with due := false, pos := 0, count := if r.begun.isSome then r.count + 1 else r.count, begun := some now }

/-- A round start that MEAS executes: the last samples of the round before under its settings, then the apply points, map
changes, stops and starts (01 R20, R23, R29; 06 R131, R136; 12 Table 12-10). -/
def State.startRound (s : State) : State :=
  let s := s.correct.takeStreams
  let s := s.setMeas { s.meas with round := s.meas.round.start s.now, sxNext := 2, seqs := s.meas.seqs.map Seq.lap }
  let count := s.meas.round.count
  ((((s.takeMeasToken).roundJob.takeFailMap.roundSeqs count).auxCheck.junction).emitSeq 0 0).takeMb4

/-- A measurement token whose apply point passes while MEAS is down (13 R340). -/
def State.missToken (s : State) : State :=
  s.setMgmt { s.mgmt with pendMeas := s.mgmt.pendMeas.map fun t => { t with missed := t.missed || decide (t.posted + 3 ≤ s.now) } }

/-- The guarantee resumes at a round start on the crystal (01 R29). -/
def State.regain (s : State) : State :=
  if s.clock.onInternal then s else { s with clock := { s.clock with guarantee := true } }

/-- ROUND_START (06 R131): the loop's source follows the stops and starts at the same boundary (08 R197); AON keeps the clock and the
count while MEAS is down (13 R340). -/
def execRoundStart (s : State) : Ans :=
  let r := s.meas.round
  stepIf (s.clock.powered && r.on && r.due) s
    (if s.measUp then (s.startRound.driveExc.refreshLoop).loopTrace s.loop
      else (s.setMeas { s.meas with round := r.start s.now }).missToken.takeStreams).regain

/-- FALLBACK_MAP_SWITCH: at a round start at least 2 ticks after the fence began (05 R114, R115). -/
def execFallbackMapSwitch (s : State) : Ans :=
  let m := s.meas
  match m.fallbackDue with
  | some (sl, t) =>
    let atStart := m.round.due || m.round.begun == some s.now
    let fb := m.fallback.getD sl m.map
    let usable := fb.slices.all fun n => !(m.slice n).retired
    let u := s.correct
    let u := if usable then (u.changeMap u.mgmt.inForce fb []).junction.emitSlice sl 3 u.meas.round.count
      else u.setMeas { u.meas with failCompile := some sl }
    let u := u.setMeas ({ u.meas with fallbackDue := none, fallback := [] }.setSlice sl
      { u.meas.slice sl with fence := if usable then none else (u.meas.slice sl).fence })
    stepIf (s.measUp && m.round.on && atStart && decide (t + 2 ≤ s.now)) s u.driveExc
  | none => .next s

/-! ## Trigger windows (06 R145, R146) -/

/-- TRIGGER_WINDOW_START: the commit tick of the selected window arrives (06 Table 6-4); a lead that begins with it turns
its pins on at this boundary (04 R77). -/
def execTriggerWindowStart (q : Fin 4) (s : State) : Ans :=
  let m := s.meas
  let x := m.seq q.val
  match x.trig with
  | .armed k =>
    stepIf (s.measUp && m.round.passing && !m.round.due && m.map.commitPos s.mgmt.inForce q.val k == some m.round.pos) s
      (s.setMeas (m.setSeq q.val { x with
        trig := .running k, laps := m.map.commitLaps s.mgmt.inForce q.val k, ended := false })).driveExc
  | _ => .next s

/-- TRIGGER_WINDOW_END: the tick of the window's last position has ended; a held trigger selects the next window
(06 Table 6-4). -/
def execTriggerWindowEnd (q : Fin 4) (s : State) : Ans :=
  let m := s.meas
  let x := m.seq q.val
  match x.trig with
  | .running _ => stepIf (s.measUp && x.ended) s (s.setMeas (m.setSeq q.val { x with trig := .idle, ended := false }))
  | .runningPending _ =>
    let next := match m.map.selectWindow s.mgmt.inForce q.val m.round.pos with
      | some w => TrigState.armed w
      | none => .idle
    stepIf (s.measUp && x.ended) s (s.setMeas (m.setSeq q.val { x with trig := next, ended := false }))
  | _ => .next s

/-! ## Alignment with fabric time (10 R261) -/

/-- e of 10 R261: (c + 1 - phase) mod T, read in -T/2 < e <= T/2. -/
def alignErr (c phase t : Nat) : Int :=
  let e := (((c + 1 : Nat) : Int) - phase) % (t : Int)
  if (t : Int) < 2 * e then e - t else e

/-- The hold of 10 R261: ticks until the count is the phase modulo T, with room for the preamble. -/
def alignHold (c phase t w : Nat) : Nat :=
  let h := (((phase : Int) - c - 1) % (t : Int)).toNat
  if h < w then h + t else h

/-- The round after the alignment tick's decision: a hold is a freeze at position 0 of the round to come, with the preamble as its
last ticks (10 R261). -/
def Round.align (r : Round) (e : Int) (hold now : Nat) : Round :=
  if e = 0 then r
  else if e = 1 then { r with pos := 0, due := true, skipped := [] }
  else if e = -1 then { r with idle := 1 }
  else { r with idle := hold, held := true, freezes := (now + 1) :: r.freezes }

/-- ROUND_ALIGNMENT: at the boundary that begins round position T - 1 (10 R261). -/
def execRoundAlignment (s : State) : Ans :=
  let a := s.mgmt.inForce
  let m := s.meas
  let t := m.map.len
  let c := s.clock.meridian.toNat
  let e := alignErr c a.fabAlignPhase t
  let u := s.setMeas { m with round := m.round.align e (alignHold c a.fabAlignPhase t m.map.w) s.now }
  stepIf (s.measUp && m.round.passing && m.round.pos + 1 == t && m.round.idle == 0 && a.fabAlign && s.fab.locked) s
    (if 2 ≤ e.natAbs then (u.count .roundResync).emitSeq 0 6 else u)

/-! ## Blanking (04 R88 to R93) -/

/-- BLANK_FREEZE: BLANK accepted high under DEFER; during a preamble the round freezes again at the same position
(04 R88, R92, R93). -/
def execBlankFreeze (s : State) : Ans :=
  let r := s.meas.round
  let freezable := match r.freeze with
    | .frozen _ => false
    | _ => true
  let r' := { r with freeze := .frozen (if r.due then 0 else r.at), freezes := s.now :: r.freezes }
  stepIf (s.measUp && r.on && s.blanked && !s.mgmt.inForce.blankSkip && freezable) s
    (((s.setMeas { s.meas with round := r' }).driveExc.count .blankDeferrals).emitSeq 0 4)

/-- The round resumes with a preamble of W ticks (04 R89). -/
def State.resume (s : State) : State :=
  match s.meas.round.freeze with
  | .frozen p => (s.setMeas { s.meas with round := { s.meas.round with freeze := .preamble p s.meas.map.w } }).emitSeq 0 5
  | _ => s

/-- BLANK_RESUME: BLANK is accepted low (04 R89). -/
def execBlankResume (s : State) : Ans := stepIf (s.measUp && !s.pins.blank.level) s s.resume.driveExc

/-- BLANK_STUCK: BLANK_CAP ticks of an accepted high level end the blanking; BLANK is ignored until it is accepted low
(04 R92). -/
def execBlankStuck (s : State) : Ans :=
  let r := s.meas.round
  let u := s.setMeas { s.meas with round := { r with blankIgnored := true } }
  stepIf (s.measUp && s.blanked && decide (s.mgmt.inForce.blankCap ≤ r.blankTicks)) s (u.resume.driveExc.report 0x22 0 0x30)

end Sys2Proof.Machine
end

