-- ==== Sys2Proof/Machine/Slices.lean ====
section
/-! DEFINITION. Slices in and out of service (05 R116 to R119): SLICE_RETIRE, SLICE_RESTORE, QUALIFICATION_END,
FAILURE_MAP_COMPILE. -/

namespace Sys2Proof.Machine

open Sys2Proof

/-- The map for a set of in-service slices, with the fallback maps that four slices bring (05 R114, 06 R143). -/
def Alm.repack (a : Alm) (lv : Option Nat) (slices : List Nat) : Option (SlotMap × List SlotMap) :=
  match a.lowered lv slices true with
  | .error _ => none
  | .ok m =>
    if slices.length = 4 then (a.fallbacks lv).toOption.map fun fs => (m, fs)
    else some (m, [])

/-- SLICE_RETIRE's own rules (05 R117). -/
def State.sliceRetire (s : State) (ps : List Byte) : Done :=
  let sl := leAt ps 0 1
  let left := s.meas.inService.filter (· ≠ sl)
  if !rsvdZero ps 1 3 || !s.meas.inService.contains sl then .done s stBadParam []
  else if s.mapBusy then .done s stBusy []
  else if left.isEmpty then .done s stNotPermitted []
  else match s.mgmt.committed.repack (s.newLevel .mgmt) left with
    | none => .done s stInfeasible []
    | some (m, _) =>
      .wait (s.postReq 4 0x0205 (.retire sl m)) (some .meas) []

/-- SLICE_RESTORE's own rules (05 R118). -/
def State.sliceRestore (s : State) (ps : List Byte) : Done :=
  let sl := leAt ps 0 1
  if 3 < sl ∨ !rsvdZero ps 1 3 ∨ s.meas.inService.contains sl then .done s stBadParam []
  else if s.mapBusy then .done s stBusy []
  else .wait (s.postReq 4 0x0206 (.restore sl)) (some .meas) []

def execSliceRetire (p : Packet) (s : State) : Ans :=
  .next (s.runCmd (measCmd 0x0205 (· == 4)) p fun s _ ps => s.sliceRetire ps)

def execSliceRestore (p : Packet) (s : State) : Ans :=
  .next (s.runCmd (measCmd 0x0206 (· == 4)) p fun s _ ps => s.sliceRestore ps)

/-! ## The qualification (05 R118) -/

/-- The measurements of one calibration cycle from its four codes: offset, gain, skew (05 R105). -/
def qualMeasure (convs : List Conv) (k : Nat) : Int × Int × Int :=
  let v (i : Nat) : Int := (convs[4 * k + i]?.map convCode).getD 0
  (asr (v 0 + v 1) 1, mGainOf (v 0) (v 1), skewOf (v 2) (v 3))

/-- The absolute limits of 05 Table 5-3. -/
def withinAbs (m : Int × Int × Int) : Bool :=
  decide (m.1.natAbs ≤ 4096) && decide ((m.2.1 - 0x800000).natAbs ≤ 41943) && decide (m.2.2.natAbs ≤ 800)

/-- The jump limits of 05 Table 5-3 between two consecutive measurements. -/
def withinJump (x y : Int × Int × Int) : Bool :=
  decide ((y.1 - x.1).natAbs ≤ 256) && decide ((y.2.1 - x.2.1).natAbs ≤ 1678) &&
  decide ((asr y.2.2 3 - asr x.2.2 3).natAbs ≤ 20)

/-- A restoration ends without success: the slice stays retired (05 R118). -/
def State.restoreFails (s : State) (sl status : Nat) : State :=
  ((s.setMeas { s.meas with job := none }).emitSlice sl 6 s.meas.round.count).measEvent 0x0206 0 status []

/-- The slice takes its coefficients from the fourth cycle (05 R118). DESIGN CHOICE (notes/assumptions/85): its place among P, N, U
and D, its count since calibration, its latest P and U and its counts of rejections start anew. -/
def Slice.qualified (x : Slice) (m : Int × Int × Int) : Slice :=
  { x with
    offAcc := asl m.1 3, gainAcc := asl m.2.1 3, skewAcc := m.2.2, old := none, rejOg := 0, rejSkew := 0,
    latestP := none, latestU := none, phase := 0, since := 0 }

/-- The verdict on a qualification: its four measurements, then the map for the new set (05 R118). -/
def State.qualify (s : State) (sl : Nat) (convs : List Conv) : State :=
  let m0 := qualMeasure convs 0
  let m1 := qualMeasure convs 1
  let m2 := qualMeasure convs 2
  let m3 := qualMeasure convs 3
  if !([m0, m1, m2, m3].all withinAbs && withinJump m0 m1 && withinJump m1 m2 && withinJump m2 m3) then
    s.restoreFails sl stNotPermitted
  else
    let x := { (s.meas.slice sl).qualified m3 with lastCal := s.now }
    let s := s.setMeas (s.meas.setSlice sl x).storeCoef
    let slices := (List.range 4).filter fun n => n == sl || s.meas.inService.contains n
    match s.mgmt.committed.repack (s.newLevel .mgmt) slices with
    | none => s.restoreFails sl stInfeasible
    | some (m, fs) => s.setMeas { s.meas with job := some (.qualified sl m fs (s.now + 2)) }

/-- The conversions of a qualification count among those of the slice, and so do their redundancy failures: the slice after them, and
whether two lie within 256 (05 Table 5-5). -/
def Slice.countConvs (x : Slice) (convs : List Conv) : Slice × Bool :=
  convs.foldl (fun acc c =>
    let y := { acc.1 with convs := acc.1.convs + 1 }
    if c.disagree then ({ y with lastErr := some acc.1.convs }, acc.2 || errAgain acc.1.lastErr acc.1.convs) else (y, acc.2)) (x, false)

/-- The cause for which a slice fails its self-check during a qualification: a buffer that is not ready at the end of the cold wake, or
redundancy failures (05 R112, R118). -/
def Slice.qualCause (x : Slice) (convs : List Conv) (bufReady : Bool) : Option Nat :=
  if !bufReady then some 4 else if (x.countConvs convs).2 then some 3 else none

/-- QUALIFICATION_END: 261 ticks after its round start the qualification is judged on its 16 conversions; a
self-check that fails raises SLICE_CHECK, and the slice stays retired (05 R101, R112, R118). -/
def execQualificationEnd (given : QualIn) (s : State) : Ans :=
  match s.meas.job with
  | some (.qualify sl t) =>
    let x := s.meas.slice sl
    let u := (s.setMeas (s.meas.setSlice sl (x.countConvs given.convs).1)).countN .sarErr (given.convs.filter (·.disagree)).length
    stepIf (s.measUp && decide (t + 261 ≤ s.now)) s (match x.qualCause given.convs given.bufReady with
      | some k => ((u.report 0x20 (k + 256 * sl) 0x30).emitSlice sl 2 (k + 256 * sl)).restoreFails sl stNotPermitted
      | none => u.qualify sl given.convs)
  | _ => .next s

/-! ## A map after a second failure (05 R116) -/

/-- FAILURE_MAP_COMPILE: MGMT compiles a map for the slices left and posts it; with none, every sequence stops and
SLICE_CHECK reports NO_CAPACITY (05 R116). -/
def execFailureMapCompile (s : State) : Ans :=
  match s.meas.failCompile with
  | none => .next s
  | some sl =>
    let t := s.setMeas { s.meas with failCompile := none }
    let slices := s.meas.inService
    let made : Option SlotMap := if slices.isEmpty then none else match s.mgmt.committed.lowered (s.newLevel .mgmt) slices false with
      | .ok m => some m
      | .error _ => none
    stepIf s.mgmtUp s (match made with
      | some m => t.setMeas { t.meas with failMap := some (m, s.now + 1) }
      | none => ((List.range 4).foldl State.stopSeq t).report 0x20 (5 + 256 * sl) 0x30)

end Sys2Proof.Machine
end

