-- ==== Sys2Proof/Machine/Sextant.lean ====
section
/-! DEFINITION. Sextant (05 R120 to R128): its rotation of windows, SEXTANT_COMPARISON, SEXTANT_REFERENCE_WINDOW. -/

namespace Sys2Proof.Machine

open Sys2Proof

/-! ## The rotation (05 R122) -/

/-- Checked channels ascending, then REF_MAIN (20) and REF_CAL (21). -/
def Alm.sxRotation (a : Alm) : List Nat := a.sxChans ++ [20, 21]

/-- The item that the pointer names, or the next one in the rotation when it names a channel that is not checked. -/
def Alm.sxAt (a : Alm) (item : Nat) : Nat := (a.sxRotation.find? fun x => decide (item ≤ x)).getD (a.sxRotation.headD 20)

/-- The item after one. -/
def Alm.sxAfterItem (a : Alm) (item : Nat) : Nat := (a.sxRotation.find? fun x => decide (item < x)).getD (a.sxRotation.headD 20)

/-- Ticks of an item's window (05 R122, R127). -/
def Alm.sxLen (a : Alm) (item : Nat) : Nat := if item < 20 then a.sxWin item else 125

/-- The tick before the present one passed its round position: the window in progress counts it, and ends with it when it
was its last; the next window may start 2 ticks later; a break dwell of its channel in the tick spoils it (05 R122, R125). -/
def Meas.sxPass (m : Meas) (a : Alm) (now : Nat) (prev : Count48) (pos : Nat) : Meas :=
  match m.sxWindow with
  | some w =>
    let w := { w with spoiled := w.spoiled || m.dwell.contains w.item }
    if w.left = 0 then m
    else if w.left = 1 then
      { m with sxWindow := some { w with left := 0, last := now - 1, lastStamp := prev }, sxItem := a.sxAfterItem w.item, sxNext := pos + 2 }
    else { m with sxWindow := some { w with left := w.left - 1 } }
  | none => m

/-- A window starts at the present boundary when its time has come and it ends within the round (05 R122). -/
def Meas.sxStart (m : Meas) (a : Alm) (now pos : Nat) : Meas :=
  let item := a.sxAt m.sxItem
  let busy := match m.sxWindow with
    | some w => w.left != 0
    | none => false
  if a.sxOn && !busy && decide (m.sxNext ≤ pos) && decide (pos + a.sxLen item ≤ m.map.len) then
    { m with sxItem := item, sxWindow := some ⟨item, now, a.sxLen item, 0, 0, 0, 0, false⟩ }
  else m

/-! ## Comparisons -/

/-- sx20 of a channel window (05 R121): with REF_SEL = 1 floor(I_in x 2^19 / I_ref). -/
def sxCode (refSel : Bool) (i : SxIn) : BitVec 20 :=
  let q := (i.iIn * 524288).fdiv i.iRef
  if !refSel then i.code
  else if 0 < i.iRef ∧ fitsS 20 q = true then BitVec.ofInt 20 q
  else Config.sxOpen i.iIn i.iRef

/-- A PLAUSIBILITY report, posted in the tick after the comparison (05 R126). -/
def State.plausibility (s : State) (cause : Nat) : State :=
  (s.count .sxFail).setFaults { (s.count .sxFail).faults with reports := s.faults.reports ++
    [{ det := 0x21, cause := BitVec.ofNat 16 cause, island := 0x30, inj := false, real := false, atLeast := 0,
       posted := s.now + 1, stamp := s.clock.meridian + 1, aon := false }] }

/-- The verdict of 05 R124. -/
def sxFails (sum : Int) (count : Nat) (sx20 : BitVec 20) (thr : Nat) : Bool :=
  let d := (floorDiv sum count - asl sx20.toInt 4).natAbs
  decide (thr * 8388608 < d * 1000000)

/-- A Sextant queue entry (05 R128). -/
def sxEntry (w : SxWindow) (sx20 : BitVec 20) (fail : Bool) (commit : Nat) : QEntry :=
  ⟨BitVec.ofInt 24 (asl sx20.toInt 4), BitVec.ofNat 5 w.item, BitVec.ofNat 8 (32 + 16 * b2n fail), w.lastStamp, commit⟩

/-- A channel window that has ended is compared, or counted without a comparison (05 R124 to R126, R128). -/
def State.sxCompare (s : State) (w : SxWindow) (sx20 : BitVec 20) (overload : Bool) : State :=
  let t := s.setMeas { s.meas with sxWindow := none }
  if w.spoiled || w.count == 0 || overload then t.count .sxNocmp
  else
    let a := s.mgmt.inForce
    let fail := sxFails w.sum w.count sx20 (a.sxThr w.item)
    let m := t.meas.setChan w.item { t.meas.chan w.item with xfailNext := some (fail, s.now + 1) }
    let m := if a.sxQ then { m with sxEntries := m.sxEntries ++ [(sxEntry w sx20 fail (s.now + 1), s.now + 1)] } else m
    if fail then (t.setMeas m).plausibility w.item else t.setMeas m

/-- The window that has ended, if it is of the asked kind. -/
def State.sxEnded (s : State) (ref : Bool) : Option SxWindow :=
  s.meas.sxWindow.filter fun w => w.left == 0 && decide (w.last < s.now) && (decide (20 ≤ w.item) == ref)

/-- SEXTANT_COMPARISON (05 R124): in the tick after the window's last. -/
def execSextantComparison (i : SxIn) (overload : Bool) (s : State) : Ans :=
  if s.measUp && (s.sxEnded false).isSome then
    let t := s.correct
    match t.sxEnded false with
    | some w => .next (t.sxCompare w (sxCode (t.mgmt.inForce.refSel w.item) i) overload)
    | none => .next s
  else .next s

/-- SEXTANT_REFERENCE_WINDOW (05 R127). -/
def execSextantReferenceWindow (sx20 : BitVec 20) (s : State) : Ans :=
  match s.sxEnded true with
  | some w =>
    let t := s.setMeas { s.meas with sxWindow := none }
    let d := (sx20.toInt - Config.sxRecorded (w.item - 20)).natAbs
    let fail := decide (s.mgmt.inForce.sxRefThr * 524288 < d * 1000000)
    stepIf s.measUp s (if fail then t.plausibility (0x100 + (w.item - 20)) else t)
  | none => .next s

end Sys2Proof.Machine
end

