-- ==== Sys2Proof/Machine/Linear.lean ====
section
/-! DEFINITION. The linearisation engine and the derived variables (07): LIN_LOAD, LIN_SWAP and its effect, LIN_READ, VAR_READ,
and LINEARISATION. -/

namespace Sys2Proof.Machine

open Sys2Proof

/-! ## Tables (07 Table 7-1) -/

/-- A table's fields. -/
def ltFmt (t : List Byte) : Nat := leAt t 0 1
def ltExp (t : List Byte) : Int := signed 8 (leAt t 1 1)
def ltSrc (t : List Byte) : Nat := leAt t 2 1
def ltShift (t : List Byte) : Nat := leAt t 3 1
def ltK (t : List Byte) : Int := signed 32 (leAt t 4 4)
def ltC (t : List Byte) (i j : Nat) : Int := signed 32 (leAt t (8 + 4 * (4 * i + j)) 4)

/-- A table with its LT_CRC over bytes 0 to 107. -/
def sealTable (b : List Byte) : List Byte := b.take 108 ++ leBytes 4 (crc32 (b.take 108))

/-- The default table of a channel without a saved one (07 R165). -/
def defaultTable : List Byte := sealTable ([0, 0, 31, 0] ++ leBytes 4 0x00800000 ++ zeros 100)

/-- LT_TSRC and LT_TSH within their limits (07 R170). -/
def srcOk (src sh : Nat) : Bool := (decide (src < 20) || src == 31) && decide (sh ≤ 15)

/-- A table that LIN_LOAD accepts (07 R170). -/
def tableOk (t : List Byte) : Bool :=
  t.length == 112 && leAt t 108 4 == crc32 (t.take 108) && decide (ltFmt t ≤ 1) && decide (-32 ≤ ltExp t ∧ ltExp t ≤ 31) &&
  srcOk (ltSrc t) (ltShift t)

/-- The ROM set IDs of 07 Table 7-2. -/
def romIds : List Nat :=
  [0x10, 0x11, 0x12, 0x20, 0x21, 0x24, 0x25, 0x28, 0x29, 0x2A, 0x2C, 0x2D, 0x2E, 0x30, 0x31, 0x32, 0x34, 0x35, 0x36, 0x38, 0x39,
   0x3A, 0x3C, 0x3D]

/-- The RTD and die-temperature sets, whose value does not depend on t: c_ij = 0 for every j ≥ 1 (07 R169). -/
def flatSet (id : Nat) : Bool := id == 0x10 || id == 0x11 || id == 0x12

/-- The 24 coefficients of a ROM set, c_ij at place 4i + j (07 Table 7-1, R169). -/
def romCoefs (id : Nat) : List Int :=
  (List.range 24).map fun n => if flatSet id && n % 4 != 0 then 0 else (Config.romSet id).2.getD n 0

/-- A table from a ROM set, a polynomial with an exponent that a table may have (07 R166, R170). DESIGN CHOICE (notes/assumptions/82):
its LT_TAG, which the rule does not name, is 0. -/
def romTable (id src sh k : Nat) : List Byte :=
  let e := clampI (-32) 31 (Config.romSet id).1
  let cs := romCoefs id
  sealTable (leBytes 1 1 ++ leBytes 1 (unsignedOf 8 e) ++ leBytes 1 src ++ leBytes 1 sh ++ leBytes 4 k ++
    padTo 96 (cs.flatMap fun c => leBytes 4 (unsignedOf 32 c)) ++ leBytes 2 id ++ zeros 2)

/-- The active and the shadow table of a channel. -/
def Meas.table (m : Meas) (c : Nat) : List Byte := m.tables.toList.getD c []
def Meas.shadowTable (m : Meas) (c : Nat) : List Byte := m.shadowTables.toList.getD c []

/-! ## Arithmetic (07 R166) -/

/-- A value with whether any clamp has acted on the way to it. -/
structure Clamped where
  v : Int
  sat : Bool
  deriving DecidableEq, Repr

/-- Clamp to `w` bits. -/
def Clamped.to (x : Clamped) (w : Nat) : Clamped := let (v, b) := satS w x.v; ⟨v, x.sat || b⟩

/-- mul31 and add of 07 R166. -/
def Clamped.mul31 (x : Clamped) (b : Int) : Clamped := Clamped.to ⟨asr (x.v * b) 31, x.sat⟩ 64
def Clamped.add (x y : Clamped) : Clamped := Clamped.to ⟨x.v + y.v, x.sat || y.sat⟩ 64

/-- The inner Horner steps of one row. -/
def hornerT (t : List Byte) (i : Nat) (tv : Int) : Clamped :=
  [3, 2, 1, 0].foldl (fun q j => (q.mul31 tv).add ⟨ltC t i j, false⟩) ⟨0, false⟩

/-- The outer Horner steps. -/
def hornerU (t : List Byte) (u tv : Int) : Clamped :=
  [5, 4, 3, 2, 1, 0].foldl (fun p i => (p.mul31 u).add (hornerT t i tv)) ⟨0, false⟩

/-- The polynomial's end of 07 R166 for u and t. -/
def polyValue (t : List Byte) (u tv : Int) : Clamped :=
  let p := hornerU t u tv
  let e := ltExp t
  (if 0 ≤ e then Clamped.to ⟨asl p.v e.toNat, p.sat⟩ 64 else ⟨asr p.v (-e).toNat, p.sat⟩).to 32

/-- A ROM set's range in degC and its stated deviation in thousandths of a degC (07 Table 7-2); that of the die temperature is R71's. -/
def romRange : List (Nat × Int × Int × Nat) :=
  [(0x10, -40, 125, 1000), (0x11, -200, 0, 5), (0x12, 0, 850, 5), (0x20, 250, 700, 50), (0x21, 700, 1820, 50), (0x24, -200, 0, 50), (0x25, 0, 1000, 50),
   (0x28, -210, 0, 50), (0x29, 0, 760, 50), (0x2A, 760, 1200, 50), (0x2C, -200, 0, 50), (0x2D, 0, 500, 50), (0x2E, 500, 1372, 50)] ++
  [(0x30, -200, 0, 50), (0x31, 0, 600, 50), (0x32, 600, 1300, 50), (0x34, -50, 250, 50), (0x35, 250, 1064, 50),
   (0x36, 1064, 1768, 50), (0x38, -50, 250, 50), (0x39, 250, 1064, 50), (0x3A, 1064, 1768, 50), (0x3C, -200, 0, 50), (0x3D, 0, 400, 50)]

/-- The value in degC that a ROM set gives for u and t. -/
def romValue (id : Nat) (u t : Int) : ℚ := ((polyValue (romTable id 31 7 0) u t).v : ℚ) / 65536

/-- The stated deviation of a ROM set in degC at a sensor temperature: none outside its range, or, for a thermocouple, with a cold
junction outside -40 to +85 degC (07 R169). -/
def romBound (id : Nat) (t : Int) (temp : ℚ) : Option ℚ :=
  if flatSet id || decide (-40 * 8388608 ≤ t ∧ t ≤ 85 * 8388608) then
    (romRange.find? fun r => r.1 == id && decide ((r.2.1 : ℚ) ≤ temp ∧ temp ≤ r.2.2.1)).map fun r => (r.2.2.2 : ℚ) / 1000
  else none

/-- The sensor temperature in degC that the standard of a ROM set gives for u and t: within the stated deviation of the set's value over
the set's range, and open beyond it (07 R169, notes/assumptions/82). -/
def sensorTemp (id : Nat) (u t : Int) : ℚ :=
  let v := romValue id u t
  let d := Config.romDeviation id u t
  match romBound id t (v - d) with
  | some b => v - max (-b) (min b d)
  | none => v - d

/-- linearise of 07 R166; `vt` is the source's value. -/
def linearise (t : List Byte) (res : Int) (g gmin : Nat) (vt : Int) : Clamped :=
  let x := regain g gmin (asl res 8)
  let u := Clamped.to ⟨asr (x * ltK t) 23, false⟩ 32
  if ltFmt t = 0 then ⟨asr u.v 15, u.sat⟩
  else
    let tv := if ltSrc t = 31 then ⟨0, false⟩ else Clamped.to ⟨asl vt (ltShift t), false⟩ 32
    let r := polyValue t u.v tv.v
    ⟨r.v, r.sat || u.sat || tv.sat⟩

/-! ## Status (07 Table 7-6) -/

/-- The flags that make a value not valid. -/
def invalidating : Nat := 0x09F3

/-- A status word with VALID as its flags give it. -/
def withValid (flags : Nat) : BitVec 16 := BitVec.ofNat 16 (flags + if flags &&& invalidating = 0 then 0x8000 else 0)

/-- Whether a status word is that of a valid value. -/
def isValid (st : BitVec 16) : Bool := st.getLsbD 15

/-- The source's most recent value from an earlier tick, with its status; `none` when it has produced none (07 R167, R168). -/
def Chan.earlier (c : Chan) (now : Nat) : Option (Int × BitVec 16) :=
  if c.hasLin && decide (c.linTick < now) then some (c.lin, c.linStatus)
  else if c.hasPrev then some (c.linPrev, c.linPrevStatus)
  else none

/-! ## Autoranging (07 R176) -/

/-- The range decision on a result: only one on OVR is free of the hold of four results. -/
def Chan.range (c : Chan) (a : Alm) (ch : Nat) (res : Int) (tags : Nat) (now : Nat) : Chan × Bool :=
  if !a.arEn ch then (c, false)
  else
    let rchg := tags.testBit 3
    let ovr := tags.testBit 0
    let c := { c with awaitRchg := c.awaitRchg && !rchg, sinceChg := if rchg then 1 else min 4 (c.sinceChg + 1) }
    let low := decide (res.natAbs ≤ 1677721) && decide (c.gain < a.arGmax ch)
    let high := (ovr || decide (7549747 < res.natAbs)) && decide (a.arGmin ch < c.gain)
    if c.awaitRchg || (tags.testBit 1 && !ovr) || (!(ovr && high) && decide (c.sinceChg < 4)) then (c, false)
    else if high then ({ c with pendGain := some (c.gain - 1, now + 2), awaitRchg := true }, true)
    else if low then ({ c with pendGain := some (c.gain + 1, now + 2), awaitRchg := true }, true)
    else (c, false)

/-! ## One result (07 R164 to R168, R174, R176, R180) -/

/-- The lowest gain of a channel's table scale (07 R166). -/
def Alm.gMin (a : Alm) (ch : Nat) : Nat := if a.arEn ch then a.arGmin ch else a.fixedGain ch

/-- Linearise one main result: its value and status, and the range decision. -/
def State.lineariseOne (s : State) (r : Result) : State :=
  let a := s.mgmt.inForce
  let m := s.meas
  let c := m.chan r.chan
  let t := m.table r.chan
  let src := tableSource t
  let seen : Option (Int × BitVec 16) := match src with
    | some k => (m.chan k).earlier s.now
    | none => none
  let bad := src.isSome && (match seen with
    | some (_, st) => !isValid st
    | none => true)
  let vt := match seen with
    | some (v, _) => v
    | none => 0
  let y := linearise t r.res r.gain (a.gMin r.chan) vt
  let u := asr r.res 8
  let rangeBad := decide (u < a.rngLo r.chan ∨ a.rngHi r.chan < u)
  let tags := r.tags.toNat % 32
  let st := withValid (tags + 32 * b2n y.sat + 64 * b2n c.sensorOpen + 128 * b2n rangeBad + 256 * b2n bad)
  let (c, changed) := c.range a r.chan r.res tags s.now
  let c' := { c with
    linPrev := if c.linTick < s.now then c.lin else c.linPrev
    linPrevStatus := if c.linTick < s.now then c.linStatus else c.linPrevStatus
    hasPrev := if c.linTick < s.now then c.hasLin else c.hasPrev
    lin := y.v, linStatus := st, linStamp := r.stamp, hasLin := true, linTick := s.now }
  let s := s.setMeas (m.setChan r.chan c')
  let s := if y.sat then s.count .linSat else s
  if changed then s.count .rangeChg else s

/-! ## Derived variables (07 R181 to R184) -/

/-- A variable of MEAS. -/
def Meas.var (m : Meas) (v : Nat) : Var := m.vars.toList.getD v Var.reset

/-- The later of two stamps. -/
def later (x y : Count48) : Count48 := if 0 < ahead y.toNat x.toNat then y else x

/-- The latest stamp among members that have a value. -/
def latestStamp (cs : List Chan) : Count48 :=
  match cs.filter (·.hasLin) with
  | [] => 0
  | c :: cs => cs.foldl (fun t x => later t x.linStamp) c.linStamp

/-- The square root with its cutoff: the value and CUTOFF (07 R183). -/
def rootOf (s : Int) (cutoff : Int) : Int × Bool :=
  let r : Int := if 0 < s then (isqrt (s.toNat * 65536) : Int) else 0
  if r < cutoff then (0, true) else (r, r == 0)

/-- The end of 07 R183 for an accumulated sum. The spec states no sum that an int64 cannot hold: a free function of it then (01 R22,
R26). -/
def Alm.endVar (a : Alm) (v : Nat) (sum : Int) : Int × Bool × Bool :=
  let acc := if fitsS 64 sum then sum else signed 64 (Config.varOpen sum).toNat
  let (y, sat) := satS 32 (asr acc 23)
  if a.varSqrt v then let (r, cut) := rootOf y (a.varCutoff v); (r, sat, cut) else (y, sat, false)

/-- The OR of the members' status words. -/
def orFlags (cs : List Chan) : Nat := cs.foldl (fun f c => f ||| c.linStatus.toNat) 0

/-- The value, flags and stamp of a variable; `none` for the value when too few members are valid (07 R183, R184). -/
def State.evalVar (s : State) (v : Nat) : Option Int × Nat × Count48 :=
  let a := s.mgmt.inForce
  let ms := a.members v
  let cs := ms.map s.meas.chan
  let off := asl (a.varOffset v) 23
  if a.varOp v = 0 then
    let terms := (List.range 4).map fun k =>
      if a.varCh v k < 20 then a.varCoef v k * (s.meas.chan (a.varCh v k)).lin else 0
    let (y, sat, cut) := a.endVar v (off + terms.sum)
    (some y, (orFlags cs &&& 0x1FF) ||| (32 * b2n sat) ||| (512 * b2n cut), latestStamp cs)
  else
    let used := cs.filter fun c => isValid c.linStatus
    let base := (orFlags used &&& 0x0C) + 1024 * b2n (used.length != cs.length)
    if used.length < max 1 (a.varMinvalid v) then (none, base + 2048, 0)
    else
      let vs := used.map (·.lin)
      let mv := if a.varOp v = 1 then floorDiv vs.sum used.length
        else if a.varOp v = 2 then vs.min?.getD 0 else vs.max?.getD 0
      let (y, sat, cut) := a.endVar v (off + a.varCoef v 0 * mv)
      (some y, base + 32 * b2n sat + 512 * b2n cut, latestStamp used)

/-- Evaluate one variable (07 R182 to R184). -/
def State.runVar (s : State) (v : Nat) : State :=
  let (y, flags, stamp) := s.evalVar v
  let st := withValid flags
  let old := s.meas.var v
  let x : Var := match y with
    | some y => { value := y, status := st, stamp := stamp, lastValid := if isValid st then some (y, stamp) else old.lastValid }
    | none => match old.lastValid with
      | some (y, t) => { old with value := y, status := st, stamp := t }
      | none => { old with value := 0, status := st, stamp := 0 }
  let s := s.setMeas { s.meas with vars := s.meas.vars.setIfInBounds v x }
  if flags.testBit 5 then s.count .linSat else s

/-- Whether every member of a variable belongs to the primary cycle (07 R182). -/
def Alm.allPrimary (a : Alm) (v : Nat) : Bool := (a.members v).all a.primaryChans.contains

/-- The variables that are on and evaluated at a closing run; PV comes first (07 R174, R182). -/
def Alm.closingVars (a : Alm) : List Nat := (List.range 8).filter fun v => a.varEn v && a.allPrimary v

/-- The variables that are evaluated after each value of a channel (07 R182). -/
def Alm.varsAfter (a : Alm) (ch : Nat) : List Nat :=
  (List.range 8).filter fun v => a.varEn v && !a.allPrimary v && (a.members v).max? == some ch

/-- PV goes to LOOP and into AON's feed record; while LOOP is down or replays, the record alone takes it (07 R174,
08 R201). -/
def State.postFeed (s : State) : State :=
  let x := s.meas.var 0
  let f : Feed := ⟨x.value, x.status, x.stamp, s.now⟩
  let l := { s.loop with record := (f :: s.loop.record).take 128 }
  s.setLoop (if s.loopUp && !l.replaying then { l with feed := some f } else { l with todo := lastFeeds (l.todo ++ [f]) })

/-- Whether a run comes before another. -/
def runBefore (x y : Nat × Nat) : Bool := decide (x.1 < y.1 ∨ (x.1 = y.1 ∧ x.2 < y.2))

/-- The channels of a closing run that are linearised already. -/
def Meas.seenOf (m : Meas) (run : Nat × Nat) : List Nat := ((m.closingSeen.find? fun e => e.1 == run).map (·.2)).getD []

/-- A result of the primary cycle counts towards its closing run; the last one has the variables evaluated. An earlier run that lacks
this channel, or that is left behind by a complete one, can never be complete (06 R135, 07 R182). -/
def State.noteClosing (s : State) (ch : Nat) (run : Nat × Nat) : State :=
  let a := s.mgmt.inForce
  let seen := s.meas.seenOf run ++ [ch]
  let rest := s.meas.closingSeen.filter fun e => e.1 != run && (runBefore run e.1 || e.2.contains ch)
  if a.primaryChans.all seen.contains then
    let s := s.setMeas { s.meas with closeAt := some s.now, closingSeen := rest.filter fun e => runBefore run e.1 }
    (a.closingVars.foldl State.runVar s).postFeed
  else s.setMeas { s.meas with closeAt := some s.now, closingSeen := rest ++ [(run, seen)] }

/-- One result through both engines, in commit order. -/
def State.engine (s : State) (r : Result) : State :=
  if s.mgmt.inForce.chEn r.chan then
    let s := s.lineariseOne r
    let s := if r.closing then s.noteClosing r.chan r.run else s
    (s.mgmt.inForce.varsAfter r.chan).foldl State.runVar s
  else s

/-! ## Table swaps (07 R171 to R173) -/

/-- Whether the present tick lies in a closing span (07 R171). -/
def State.inClosingSpan (s : State) : Bool :=
  let m := s.meas
  !m.closingSeen.isEmpty || m.closeAt == some s.now || m.results.any fun r => r.closing && decide (r.tick < s.now)

/-- The tables of a mask change places. -/
def Meas.swapTables (m : Meas) (mask : BitVec 20) : Meas :=
  { m with
    tables := Vector.ofFn fun c => if mask.getLsbD c.val then m.shadowTable c.val else m.table c.val
    shadowTables := Vector.ofFn fun c => if mask.getLsbD c.val then m.table c.val else m.shadowTable c.val }

/-- A table is saved with the next sequence number of its channel, in the older of its two pages (14 R362). -/
def Nvm.saveTable (n : Nvm) (c : Nat) (t : List Byte) : Nvm :=
  let r := n.tables.getD c ⟨none, none⟩
  { n.wrote [if r.second then (tablePages c).2 else (tablePages c).1] with tables := n.tables.set c (r.put t) }

/-- At X' the tables of a pending swap are exchanged, its command completes, and SAVE writes the new active tables
(07 R171, R173; 12 Table 12-15). -/
def State.swapEffect (s : State) : State :=
  match s.meas.swap with
  | none => s
  | some w =>
    let primary := (List.range 20).any fun c => w.mask.getLsbD c && s.mgmt.inForce.primaryChans.contains c
    if s.reached w.at_ && !(primary && s.inClosingSpan) then
      let m := s.meas.swapTables w.mask
      let m := { m with swap := none, preload := { m.preload with tables := m.tables.toList } }
      let s := s.setMeas m
      let s := if w.save then
        ((List.range 20).filter fun c => w.mask.getLsbD c).foldl (fun s c => s.setNvm (s.nvm.saveTable c (m.table c))) s else s
      (s.emitApply .meas 3 0).measEvent 0x0302 0 stOk (leBytes 6 s.clock.meridian.toNat)
    else s

/-- LIN_SWAP_EFFECT (07 R171). -/
def execLinSwapEffect (s : State) : Ans := stepIf s.measUp s s.swapEffect

/-- LINEARISATION: the results that emerged in earlier ticks, after a swap that is due at this boundary (07 R171, R174). -/
def State.lineariseAll (s : State) : State :=
  let s := s.swapEffect
  let due := s.meas.results.filter fun r => decide (r.tick < s.now)
  let s := s.setMeas { s.meas with results := s.meas.results.filter fun r => decide (s.now ≤ r.tick) }
  due.foldl State.engine s

def execLinearisation (s : State) : Ans := stepIf s.measUp s s.lineariseAll

/-! ## Commands -/

/-- LIN_LOAD (07 R170). -/
def execLinLoad (p : Packet) (s : State) : Ans :=
  .next (s.runCmd { plainCmd 0x0301 (fun n => n == 116 || n == 12) with fits := fun ps =>
      !(leAt ps 1 1 == 0 && ps.length == 12 || leAt ps 1 1 == 1 && ps.length == 116) } p fun s _ ps =>
    let ch := leAt ps 0 1
    let form := leAt ps 1 1
    let put (t : List Byte) : State := s.setMeas { s.meas with shadowTables := s.meas.shadowTables.setIfInBounds ch t }
    if 19 < ch ∨ 1 < form ∨ !rsvdZero ps 2 2 then .done s stBadParam []
    else if form = 0 then
      if tableOk (ps.drop 4) then .done (put (ps.drop 4)) stOk [] else .done s stBadParam []
    else
      let id := leAt ps 4 2
      let src := leAt ps 6 1
      let sh := leAt ps 7 1
      if romIds.contains id && srcOk src sh then .done (put (romTable id src sh (leAt ps 8 4))) stOk []
      else .done s stBadParam [])

/-- The tables that would be active after a swap. -/
def Meas.after (m : Meas) (mask c : Nat) : List Byte := if mask.testBit c then m.shadowTable c else m.table c

/-- Whether a set of active tables breaks 07 R168: a table names its own channel, a disabled one, or one that names a
source. -/
def State.swapBad (s : State) (mask : Nat) : Bool :=
  let t (c : Nat) : Option Nat := tableSource (s.meas.after mask c)
  (List.range 20).any fun c => match t c with
    | none => false
    | some k => k == c || !s.mgmt.inForce.chEn k || !s.mgmt.committed.chEn k || (t k).isSome

/-- The channels of a mask. -/
def maskCount (mask : Nat) : Nat := ((List.range 20).filter mask.testBit).length

/-- LIN_SWAP (07 R171, R172); MEAS receives its request at the next boundary (01 R17). -/
def execLinSwap (p : Packet) (s : State) : Ans :=
  let c : Cmd := { measCmd 0x0302 (· == 12) with
    cost := fun _ ps => if leAt ps 10 1 % 2 = 1 then 6 * maskCount (leAt ps 0 4) else 0 }
  .next (s.runCmd c p fun s _ ps =>
    let mask := leAt ps 0 4
    let x := leAt ps 4 6
    let now := s.clock.meridian.toNat
    if 1048576 ≤ mask ∨ 1 < leAt ps 10 1 ∨ !rsvdZero ps 11 1 then .done s stBadParam []
    else if s.swapBad mask || (x != 0 && decide ((2147483648 : Int) < ahead x now)) then .done s stBadParam []
    else if s.swapPending then .done s stBusy []
    else .wait (s.postReq 4 0x0302 (.swap (BitVec.ofNat 20 mask) x (leAt ps 10 1 == 1))) (some .meas) [])

/-- A value as LIN_READ and VAR_READ give it: Q15.16, float, status, stamp (07 R185, 12 Table 12-15). -/
def valueBytes (v : Int) (st : BitVec 16) (stamp : Count48) : List Byte :=
  leBytes 4 (unsignedOf 32 v) ++ leBytes 4 (toFloat32 v) ++ leBytes 2 st.toNat ++ leBytes 6 stamp.toNat

/-- A read command of MEAS. -/
def measRead (op : Nat) (len : Nat → Bool) : Cmd := { plainCmd op len with needs := fun _ _ => [.meas] }

/-- LIN_READ's own rules, for its M16 name too (07 R180). -/
def State.linRead (s : State) (ps : List Byte) : State × Nat × List Byte :=
  let ch := leAt ps 0 1
  let which := leAt ps 1 1
  if 19 < ch ∨ 1 < which ∨ !rsvdZero ps 2 2 then (s, stBadParam, [])
  else
    let c := s.meas.chan ch
    (s, stOk, valueBytes c.lin c.linStatus c.linStamp ++ (if which = 0 then s.meas.table ch else s.meas.shadowTable ch))

def execLinRead (p : Packet) (s : State) : Ans :=
  .next (s.runCmd (measRead 0x0303 (· == 4)) p fun s _ ps => let (s, st, r) := s.linRead ps; .done s st r)

/-- VAR_READ's own rules, for its M16 name too (07 R180). -/
def State.varRead (s : State) (ps : List Byte) : State × Nat × List Byte :=
  let mask := leAt ps 0 1
  if mask = 0 ∨ !rsvdZero ps 1 3 then (s, stBadParam, [])
  else (s, stOk, ((List.range 8).filter mask.testBit).flatMap fun v =>
    let x := s.meas.var v
    valueBytes x.value x.status x.stamp)

def execVarRead (p : Packet) (s : State) : Ans :=
  .next (s.runCmd (measRead 0x0304 (· == 4)) p fun s _ ps => let (s, st, r) := s.varRead ps; .done s st r)

end Sys2Proof.Machine
end

