-- ==== Sys2Proof/Machine/Loop.lean ====
section
/-! DEFINITION. The loop output (08): updates, holds, the selection of the commanded code and the three codes after it,
compliance, mis-wiring, and the loop commands. -/

namespace Sys2Proof.Machine

open Sys2Proof

/-! ## Damping and mapping (08 R187 to R190) -/

/-- The class of a PV by its status word (08 R187). -/
def classify (st : BitVec 16) (pvFail : Nat) : PvClass :=
  if st.toNat &&& (invalidating - 1) = 0 then .usable
  else if st.getLsbD 1 then .settling
  else if pvFail = 0 then .failAlarm
  else if pvFail = 1 then .failHold
  else .usable

/-- ALPHA of 08 R188 for the map and fields in force. -/
def State.alphaNow (s : State) : Nat :=
  let a := s.mgmt.inForce
  match a.primaryChans with
  | [] => 2 ^ 24
  | c :: _ =>
    let tn := s.meas.map.len * a.fOsr c
    let d := s.meas.map.nc c * a.dampTau + tn
    if d = 0 then 2 ^ 24 else 2 ^ 24 * tn / d

/-- damp of 08 R188; a first usable PV sets y (08 R189). -/
def damp (y : Int) (valid : Bool) (alpha : Nat) (pv : Int) : Int :=
  let y := if valid then y else asl pv 24
  y + asr ((asl pv 24 - y) * alpha) 24

/-- map of 08, with SAT. -/
def mapCode (a : Alm) (pvd : Int) : Int × Bool :=
  let num := pvd - a.lrv
  let den := a.urv - a.lrv
  let (num, den) := if den < 0 then (-num, -den) else (num, den)
  let c := 40000 + floorDiv (160000 * num) den.toNat
  if c < a.satLo then (a.satLo, true) else if a.satHi < c then (a.satHi, true) else (c, false)

/-- The LOOP part of an update on one feed: LOOP's damping state and what goes to AON (08 Table 8-1); `u` is its tick A+5. -/
def State.compute (s : State) (f : Feed) (u : Nat) : State × Update :=
  let a := s.mgmt.inForce
  let l := s.loop
  match classify f.status a.pvFail with
  | .usable =>
    let y := damp l.yl l.ylValid s.alphaNow f.pv
    let (c, sat) := mapCode a (asr y 24)
    (s.setLoop { l with yl := y, ylValid := true }, ⟨f, .usable, c, y, sat, u⟩)
  | k => (s, ⟨f, k, l.normal, l.yl, l.sat, u⟩)

/-! ## Loop fields (01 R23, 08 R190, R192) -/

/-- The loop token that LOOP received in an earlier tick takes effect (01 R23). -/
def State.takeLoopToken (s : State) : State :=
  match s.mgmt.pendLoop with
  | some t =>
    if t.posted < s.now then
      (s.setMgmt { s.mgmt with inForce := s.mgmt.inForce.takeKind t.alm .loop, pendLoop := none }).emitApply .loop 1 0
    else s
  | none => s

/-- LOOP applies the loop fields of the almanac that MGMT loads at start-up at the boundary A at which it consumes their token, and the
commanded code changes at A+4 (08 R192). The fields of a later ALM_APPLY wait for a loop update or a hold update (08 R190). -/
def State.earlyLoop (s : State) : State :=
  match s.mgmt.startLoop with
  | some t =>
    if s.loopUp && decide (t.posted < s.now) then
      let a := s.mgmt.inForce.takeKind t.alm .loop
      ((s.setMgmt { s.mgmt with inForce := a, startLoop := none }).emitApply .loop 1 0).schedule (s.now + 4) (.multidrop a.multidrop)
    else s
  | none => s

/-! ## Effects of scheduled changes -/

/-- A loop update reaches the regulator at `now`; A+5 of 08 R197, R198 and R200 is the update's own, which a replay keeps from the run
without the restart (08 R191, R197, R198, R200, R201). -/
def LoopOut.made (l : LoopOut) (x : Update) (multidrop : Bool) (duMax g now : Nat) : LoopOut :=
  let l := { l with
    uUpd := x.u, hadUpdate := true, lastA := x.u - 5, interrupted := false, multidrop := multidrop
    duMax := if l.duFrom + 2 ≤ x.feed.posted then duMax else l.duMax
    g := g }
  match x.cls with
  | .usable => { l with
      cPrev := l.cLast, uPrev := l.uLast, cLast := x.code, uLast := x.u, usable := min 2 (l.usable + 1), normal := x.code,
      sat := x.sat, y := x.y, yValid := true, swAlarm := false, holdLim := false, failHold := false, holding := false,
      startup := false, holdCount := 0 }
  | .settling => { l with holding := true, failHold := false, holdCount := 0 }
  | .failAlarm => { l with swAlarm := true, holding := false, failHold := false, startup := false, holdCount := 0 }
  | .failHold => { l with
      holding := true, failHold := true, startup := false, holdCount := if l.failHold then l.holdCount else now - x.u }

/-- One scheduled change takes effect at the present boundary. -/
def State.applyEv (s : State) (e : CodeEv) : State :=
  let l := s.loop
  match e.act with
  | .update x =>
    let md := s.mgmt.inForce.multidrop
    let m := s.meas.map
    let l := l.skipped.foldl (fun l k => l.made k md m.duMax m.g s.now) l
    s.setLoop { (l.made x md m.duMax m.g s.now) with skipped := [] }
  | .hwAlarm on => s.setLoop { l with hwAlarm := on }
  | .auxAlarm on => s.setLoop { l with auxAlarm := on }
  | .fix c u => (s.setLoop { l with fixed := some (c, u) }).loopEvent 0x0401 stOk (leBytes 6 s.clock.meridian.toNat)
  | .release => (s.setLoop { l with fixed := none }).loopEvent 0x0402 stOk (leBytes 6 s.clock.meridian.toNat)
  | .multidrop on => s.setLoop { l with multidrop := on }

/-- The changes that are due take effect in the order of their boundaries. -/
def State.applyDue (s : State) : State :=
  let due := sortBy (fun x y => decide (x.at_ ≤ y.at_)) (s.loop.sched.filter fun e => decide (e.at_ ≤ s.now))
  due.foldl State.applyEv (s.setLoop { s.loop with sched := s.loop.sched.filter fun e => decide (s.now < e.at_) })

/-! ## The tick -/

/-- Time counts toward HOLD_LIMIT (08 R198). -/
def State.countHold (s : State) : State :=
  let l := s.loop
  if (l.interrupted || l.failHold) && s.primaryRuns then s.setLoop { l with holdCount := l.holdCount + 1 } else s

/-- AON's loop logic at a tick boundary (08 R191 to R194). -/
def State.loopTick (s : State) : State :=
  let old := s.loop
  let s := s.countHold.applyDue.earlyLoop
  let s := s.setLoop { s.loop.push with prevSrc := old.src }
  s.refreshLoop.loopTrace old

/-! ## Loop updates and holds -/

/-- An apply point of the loop fields: they are in force from this boundary on, for its selection and limiter too (01 R23,
08 R193, R396). -/
def State.applyLoop (s : State) : State :=
  if s.mgmt.pendLoop.isSome then (s.takeLoopToken.refreshLoop).loopTrace s.loop else s

/-- LOOP_UPDATE: a feed posted in tick N is checked in tick N+1, where one whose parity fails is reported by BUS_PAR_MEAS and not used;
the update begins at the boundary after the check tick (01 R19, 08 Table 8-1). `parityOk` is the parity as the checker reads it: an
armed access is discarded either way, and one that passes carries a real error (13 R333, R334). -/
def execLoopUpdate (parityOk : Bool) (s : State) : Ans :=
  match s.loop.feed with
  | some f =>
    let t := s.setLoop { s.loop with feed := none }
    let (u, x) := t.applyLoop.compute f (s.now + 5)
    if s.parityArmed .meas .loop then
      stepIf (s.loopUp && decide (f.posted + 1 ≤ s.now)) s (t.parityError .meas .loop parityOk)
    else if parityOk then
      stepIf (s.loopUp && !s.loop.replaying && decide (f.posted + 2 ≤ s.now)) s (u.schedule (s.now + 5) (.update x))
    else stepIf (s.loopUp && decide (f.posted + 1 ≤ s.now)) s (t.parityError .meas .loop false)
  | none => .next s

/-- Tick A of the last loop update: of those on their way to the regulator the latest, else of the last one made (08 Table 8-1, R199). -/
def LoopOut.newestA (l : LoopOut) : Nat :=
  let onWay := l.sched.filterMap fun e => match e.act with
    | .update x => some x
    | _ => none
  ((onWay ++ l.skipped).map fun x => x.u - 5).foldl max l.lastA

/-- HOLD_UPDATE: every 500 ticks from the last loop update while a hold or track is in force: an apply point that changes no
code (08 R199). -/
def execHoldUpdate (s : State) : Ans :=
  let l := s.loop
  let held := l.holding || l.interrupted || !s.primaryRuns
  let n := s.now - l.newestA
  stepIf (s.loopUp && l.hadUpdate && held && n % 500 == 0 && n != 0) s s.applyLoop

/-- INTERRUPTION: no loop update by tick D; time counts toward HOLD_LIMIT from D, or goes on from a held update (08 R197, R198). -/
def execInterruption (s : State) : Ans :=
  let l := s.loop
  let d := l.uUpd + l.duMax + l.g
  let t := s.setLoop { l with interrupted := true, dTick := d, holdCount := if l.failHold then l.holdCount else s.now - d }
  stepIf (s.clock.powered && l.hadUpdate && !l.interrupted && s.primaryRuns && decide (d ≤ s.now)) s (t.refreshLoop.loopTrace l)

/-- HOLD_LIMIT_EXPIRY: the software alarm comes into force (08 R198). DESIGN CHOICE (notes/assumptions/103): an interruption counts after
every loop update, as R197 and R198 say, so one after a settling update of start-up can bring the alarm, though R192 says that none
arises then. -/
def execHoldLimitExpiry (s : State) : Ans :=
  let l := s.loop
  let t := s.setLoop { l with swAlarm := true, holdLim := true }
  stepIf (s.clock.powered && (l.interrupted || l.failHold) && s.primaryRuns && !l.holdLim &&
    decide (s.mgmt.inForce.holdLimit ≤ l.holdCount)) s (t.refreshLoop.loopTrace l)

/-- FEED_REPLAY: LOOP processes the recorded feeds in order, 3 ticks each; the last one sets the commanded code. Each counts for the tick
A+5 that it had in a run without the restart, 7 ticks after its post (08 R200, R201). -/
def execFeedReplay (s : State) : Ans :=
  let l := s.loop
  match l.todo with
  | [] => stepIf (s.loopUp && l.replaying) s (s.setLoop { l with replaying := false })
  | f :: fs =>
    let (t, x) := (s.setLoop { l with todo := fs, replayNext := s.now + 3 }).applyLoop.compute f (f.posted + 7)
    let t := if fs.isEmpty then (t.schedule (s.now + 5) (.update x)).setLoop
        { (t.schedule (s.now + 5) (.update x)).loop with replaying := false }
      else t.setLoop { t.loop with skipped := t.loop.skipped ++ [x] }
    stepIf (s.loopUp && l.replaying && decide (l.replayNext ≤ s.now)) s t

/-! ## Compliance (08 R205) -/

/-- The compliance state at a boundary, but for the entry into COMPLY and the return, which have steps of their own. -/
def Comply.tick (c : Comply) (below85 below86 : Bool) : Comply :=
  match c with
  | .inReg => if below85 then .dip 1 else .inReg
  | .dip n => if below85 then .dip (min 4 (n + 1)) else if 4 ≤ n then .dip n else .inReg
  | .comply g => .comply (if below86 then 0 else min 64 (g + 1))

/-- COMPLIANCE_ENTER (08 Table 8-5). -/
def execComplianceEnter (s : State) : Ans :=
  let t := (s.setLoop { s.loop with comply := .comply 0 }).report 0x23 0 0x40
  match s.loop.comply with
  | .dip n => stepIf (s.clock.powered && decide (4 ≤ n)) s (t.loopTrace s.loop)
  | _ => .next s

/-- COMPLIANCE_CLEAR (08 Table 8-5). -/
def execComplianceClear (s : State) : Ans :=
  let t := (s.setLoop { s.loop with comply := .inReg }).report 0x23 1 0x40
  match s.loop.comply with
  | .comply g => stepIf (s.clock.powered && decide (64 ≤ g)) s (t.loopTrace s.loop)
  | _ => .next s

/-! ## Mis-wiring (08 R206) -/

/-- The mis-wiring state after one reading of LOOP_IN. -/
def Miswire.reading (m : Miswire) (c : Bool) : Miswire :=
  match m with
  | .normal n => .normal (if c then min 391 (n + 1) else 0)
  | .folded t => .folded t
  | .retry h n => if c then .retry (min 391 (h + 1)) 0 else .retry 0 (min 391 (n + 1))

/-- A new mis-wiring state takes part in the selection at this boundary. -/
def State.setMiswire (s : State) (m : Miswire) : State := ((s.setLoop { s.loop with miswire := m }).refreshLoop).loopTrace s.loop

/-- MISWIRE_FOLD: with MW_EN = 1, condition C held at 391 readings in a row; the fold comes at the boundary after the last (08 R206). -/
def execMiswireFold (s : State) : Ans :=
  let t := s.setMiswire (.folded s.now)
  let on := s.clock.powered && s.mgmt.inForce.mwEn && s.energy.readAt != some s.now
  match s.loop.miswire with
  | .normal n => stepIf (on && decide (391 ≤ n)) s (t.report 0x24 0 0x40)
  | .retry h _ => stepIf (on && decide (391 ≤ h)) s (t.report 0x24 1 0x40)
  | _ => .next s

/-- MISWIRE_RETRY: 1,000,000 ticks after the fold (08 R206). -/
def execMiswireRetry (s : State) : Ans :=
  match s.loop.miswire with
  | .folded t => stepIf (s.clock.powered && decide (1000000 ≤ s.now - t)) s (s.setMiswire (.retry 0 0))
  | _ => .next s

/-- MISWIRE_CLEAR: condition C failed at 391 readings in a row (08 R206). -/
def execMiswireClear (s : State) : Ans :=
  match s.loop.miswire with
  | .retry _ n => stepIf (s.clock.powered && decide (391 ≤ n)) s (s.setMiswire (.normal 0))
  | _ => .next s

/-! ## Commands (08 R196, R203, R207; 12 Table 12-15) -/

/-- A command of LOOP. -/
def loopCmd (op : Nat) (len : Nat → Bool) (waits : Bool) : Cmd :=
  { plainCmd op len with needs := fun _ _ => [.loop], waits := waits }

/-- LOOP_SET_FIXED's own rules, for its M16 name too (08 R192, R196). -/
def State.setFixed (s : State) (ps : List Byte) : Done :=
  let c := leAt ps 0 4
  if c < 34000 ∨ 230000 < c ∨ 1 < leAt ps 4 1 ∨ !rsvdZero ps 5 3 then .done s stBadParam []
  else if s.mgmt.inForce.multidrop then .done s stNotPermitted []
  else .wait (s.postReq 3 0x0401 (.fix c (leAt ps 4 1 == 1))) (some .loop) []

/-- A fixed current is in force, or on its way. -/
def State.willFix (s : State) : Bool :=
  s.loop.fixed.isSome || (s.loop.sched.any fun e => match e.act with
    | .fix _ _ => true
    | _ => false) ||
  s.win.onWay 3 fun r => match r with
    | .fix _ _ => true
    | _ => false

/-- LOOP_RELEASE's own rules, for its M16 name too (08 R196). -/
def State.releaseFixed (s : State) : Done :=
  if s.willFix then .wait (s.postReq 3 0x0402 .release) (some .loop) []
  else .done s stOk (zeros 6)

def execLoopSetFixed (p : Packet) (s : State) : Ans :=
  .next (s.runCmd (loopCmd 0x0401 (· == 8) true) p fun s _ ps => s.setFixed ps)

def execLoopRelease (p : Packet) (s : State) : Ans :=
  .next (s.runCmd (loopCmd 0x0402 (· == 0) true) p fun s _ _ => s.releaseFixed)

/-- TRIM_GAIN of 08 R202. -/
def trimGainOf (m4 m20 : Int) : Int := floorDiv (671088640000) (m20 - m4).toNat

/-- The user trim with new points, saved to NVM (08 R203). -/
def State.putTrim (s : State) (m4 m20 : Int) : State :=
  (s.setLoop { s.loop with m4 := m4, m20 := m20, trimGain := trimGainOf m4 m20 }).setNvm { s.nvm with trim := (m4, m20) }

/-- The code of a trim point. -/
def pointCode (point : Nat) : Int := if point = 1 then 40000 else 200000

/-- LOOP_TRIM's own rules, for its M16 names too (08 R203). The measured current of a reset is not used. -/
def State.loopTrim (s : State) (ps : List Byte) : State × Nat × List Byte :=
  let point := leAt ps 0 1
  let v : Int := (leAt ps 4 4 : Nat)
  let l := s.loop
  let done (s : State) : State × Nat × List Byte :=
    (s, stOk, leBytes 4 (unsignedOf 32 s.loop.m4) ++ leBytes 4 (unsignedOf 32 s.loop.m20) ++ leBytes 4 (unsignedOf 32 s.loop.trimGain))
  if 2 < point ∨ !rsvdZero ps 1 3 then (s, stBadParam, [])
  else if point = 0 then done (s.putTrim 40000 200000)
  else if 800 < (v - pointCode point).natAbs then (s, stBadParam, [])
  else if l.fixed ≠ some (pointCode point, true) then (s, stNotPermitted, [])
  else done (if point = 1 then s.putTrim v l.m20 else s.putTrim l.m4 v)

def execLoopTrim (p : Packet) (s : State) : Ans :=
  .next (s.runCmd { loopCmd 0x0403 (· == 8) false with cost := fun _ _ => 6 } p fun s _ ps =>
    let (s, st, r) := s.loopTrim ps
    .done s st r)

/-- Results of LOOP_STATUS (12 Table 12-16). -/
def State.loopStatusBytes (s : State) : List Byte :=
  let l := s.loop
  let v := asr l.y 24
  leBytes 2 s.loopWord ++ leBytes 2 (unsignedOf 16 ((s.energy.loopReads.headD 0 : Int) - 8100)) ++
  leBytes 4 (unsignedOf 32 l.cmd) ++ leBytes 4 (unsignedOf 32 l.lim) ++ leBytes 4 (unsignedOf 32 l.shaped) ++
  leBytes 4 (unsignedOf 32 l.trim) ++ leBytes 4 (unsignedOf 32 v) ++ leBytes 4 (toFloat32 v) ++
  leBytes 4 (unsignedOf 32 l.m4) ++ leBytes 4 (unsignedOf 32 l.m20)

def execLoopStatus (p : Packet) (s : State) : Ans :=
  .next (s.runCmd (loopCmd 0x0404 (· == 0) false) p fun s _ _ => .done s stOk s.loopStatusBytes)

end Sys2Proof.Machine
end

