-- ==== Sys2Proof/Machine/Modem.lean ====
section
/-! DEFINITION. The line modem (09): the receiver's states, the decoder, the noise floor, packet transmission, the idle-line
apply point and the legacy FSK layer. -/

namespace Sys2Proof.Machine

open Sys2Proof

/-! ## Ports and their sample grid (09 R210, R223) -/

/-- The first boundary after receive sample `n`, of which 64 span 125 ticks (09 R210). -/
def afterSample (n : Nat) : Nat := 125 * n / 64 + 1

/-- The boundary at which symbol `j` of the packet is complete (09 R223). -/
def PortSt.complete (x : PortSt) (j : Nat) : Nat := afterSample (x.nStar + 288 * j + 255)

/-- A receiver whose last payload symbol is complete is in IDLE (09 Table 9-8). -/
def PortSt.settle (x : PortSt) (now : Nat) : PortSt :=
  if x.rx = .payload ∧ x.complete (5 + x.paySyms) ≤ now then { x with rx := .idle } else x

/-- A port as it stands at the present boundary. -/
def State.port (s : State) (pt : Port) : PortSt := (s.ports.at pt).settle s.now

/-- Whether a port is enabled (09 Table 9-11). -/
def Alm.portEn (a : Alm) : Port → Bool
  | .loop => a.mdmLoopEn
  | .spur => a.mdmSpurEn

/-- Whether a port works: LOOP is up, the crystal supplies the reference, the port is enabled (01 R29, 09 R234). -/
def State.portOn (s : State) (pt : Port) : Bool := s.fabricOn && s.mgmt.inForce.portEn pt

/-- One of a port's two counters (15 R379). -/
def perPort (pt : Port) (l sp : Ctr) : Ctr :=
  match pt with
  | .loop => l
  | .spur => sp

/-- The MODEM message (15 Table 15-6). -/
def State.emitModem (s : State) (pt : Port) (ev hdr : Nat) : State :=
  s.emit .loop 0xB ((match pt with
    | .loop => 0
    | .spur => 1) + 2 * ev) [hdr % 4294967296]

/-- The weights of the group powers in use: all alike until the first update (09 R217, R230). -/
def State.pgOf (s : State) (pt : Port) : List Nat :=
  if (s.ports.at pt).pg.isEmpty then List.replicate 8 1 else (s.ports.at pt).pg

/-! ## The DSP core (09 R223) -/

/-- The next segment that a port's reception asks of the DSP core: the boundary at which it may start, and its ticks
(09 Table 9-7). -/
def PortSt.nextSeg (x : PortSt) : Option (Nat × Nat) :=
  if x.rx = .synced then
    some (if x.taps.isEmpty then (x.complete 3, 70) else if x.syms < 2 then (x.complete (4 + x.syms), 140)
      else (x.complete 5, 200))
  else if x.hdr.isSome ∧ 0 < x.cwLeft then some (x.complete (4 + x.syms), 140)
  else none

/-- The core takes a segment of `len` ticks at the present boundary, or at the boundary at which it becomes free. -/
def State.dspEnd (s : State) (len : Nat) : Nat := max s.now s.dspFree + len

/-- A port's next segment is put on the core once it may start (09 R223). -/
def State.book (s : State) (pt : Port) : State :=
  let x := s.port pt
  match x.seg, x.nextSeg with
  | none, some (r, len) =>
    if r ≤ s.now then { s.setPort pt { x with seg := some (s.dspEnd len) } with dspFree := s.dspEnd len } else s
  | _, _ => s

/-- The synthesis of one transmit symbol, 100 ticks (09 Table 9-7). -/
def State.synth (s : State) : State := { s with dspFree := s.dspEnd 100 }

/-- A port's segment has ended. -/
def PortSt.segDone (x : PortSt) (now : Nat) : Bool :=
  match x.seg with
  | some t => decide (t ≤ now)
  | none => false

/-- The result of a segment that has ended, after which the port's next one may start. -/
def State.endSeg (s : State) (pt : Port) (f : State → State) : State :=
  (f (s.setPort pt { s.port pt with seg := none })).book pt

/-! ## Frames handed to the fabric (09 R223, R226; 10 R239, R240) -/

/-- A host frame's type, and a device frame's (10 R239). -/
def hostType (t : Nat) : Bool := t == 1 || t == 2 || t == 3 || t == 6
def deviceType (t : Nat) : Bool := t == 4 || t == 5 || t == 7

/-- The segment and the node of an address (10 Addresses). -/
def segOf (a : BitVec 12) : Nat := a.toNat / 64
def nodeOf (a : BitVec 12) : Nat := a.toNat % 64

/-- Whether a frame's TYPE, LEN and addresses take valid values (10 R239, R240). -/
def frameValid (f : Frame) : Bool :=
  let t := f.typ.toNat
  let n := f.len.toNat
  let lenOk :=
    if t = 1 then n == 0 || n == 16
    else if t = 2 then n == 0
    else if t = 3 then decide (8 ≤ n ∧ n ≤ 256)
    else if t = 4 then decide (n ≤ 256)
    else if t = 5 then decide (24 ≤ n ∧ n ≤ 256)
    else if t = 6 then n == 16
    else t == 7 && n == 8
  let hostNode (k : Nat) : Bool := k == 0 || k == 63
  let addrOk :=
    if hostType t then hostNode (nodeOf f.src) else deviceType t && nodeOf f.src != 63 && hostNode (nodeOf f.dest)
  lenOk && addrOk

/-- Whether the device routes: its spur port in use and FAB_ROUTE_EN set (10 Bearings). -/
def State.routes (s : State) : Bool := s.mgmt.inForce.fabRouteEn && s.mgmt.inForce.mdmSpurEn

/-- The modem hands a checked packet to the fabric layer, which discards a frame with invalid fields (10 R239, R240). -/
def State.deliver (s : State) (pt : Port) (f : Frame) : State :=
  if frameValid f then
    let old := s.fab.delivered.filter fun d => d.port ≠ pt || d.at_ == s.now
    s.setFab { s.fab with delivered := old ++ [⟨pt, f, s.now, true, s.routes⟩] }
  else s.count .frameBad

/-! ## Discarding and opening -/

/-- The decoder's jobs without those of a port's unfinished packet, and whether a finished one of that port is among the jobs
read so far, from the end. -/
def keepWhole (pt : Port) : List CodeJob → List CodeJob × Bool
  | [] => ([], false)
  | j :: js =>
    let (ks, seen) := keepWhole pt js
    if j.port ≠ pt then (j :: ks, seen) else if j.last || seen then (j :: ks, true) else (ks, seen)

/-- The packet being received is discarded; the decoding of an earlier one goes on (09 Table 9-8). -/
def State.discardPacket (s : State) (pt : Port) : State :=
  let (js, seen) := keepWhole pt s.decoder
  let x := s.port pt
  { s.setPort pt { x with
      seg := none, hdrLlr := [], llrs := [], taps := [], syms := 0, hdr := none, cwLeft := 0, paySyms := 0
      bits := if seen then x.bits else [] } with decoder := js }

/-- A block that closes now opens a qualifier window (09 R225). -/
def State.openWindow (s : State) (pt : Port) : State :=
  let b := 64 * s.now
  (s.setPort pt { s.port pt with
    rx := .qualify, winOpen := b, winEnd := b + 864 * 125, winMax := b + 4608 * 125, strong := 0 }).emitModem pt 0 0

/-- The receiver holds a packet (09 Table 9-8). -/
def RxState.holds (r : RxState) : Bool := r == .synced || r == .payload

/-! ## Energy detector (09 R224 to R228) -/

/-- K of 09 R224 for MDM_EN_MARGIN = 3 to 20 dB: round(256 x 10^(M/10)). -/
def marginK (m : Nat) : Nat :=
  [511, 643, 810, 1019, 1283, 1615, 2033, 2560, 3223, 4057, 5108, 6430, 8095, 10192, 12830, 16153, 20335, 25600].getD (m - 3) 0

/-- P_FS: the mean square of a sine whose peak is the 2^13 of a 14-bit ADC's full scale (09 R210, R230). -/
def fullScalePower : Nat := 33554432

/-- Whether a block mean qualifies (09 R224, R230): against the measured floor, where a sum of squares over 64 symbols stands
for P_g x 2^21; before the first update against eight groups at MDM_FLOOR_INIT = v, P_g = P_FS x 10^(v / 20), compared by twentieth
powers. -/
def qualifies (e : Int) (pg : List Nat) (init : Int) (margin : Nat) : Bool :=
  if pg.isEmpty then
    decide ((8 * fullScalePower * marginK margin) ^ 20 ≤ (e * 256).toNat ^ 20 * 10 ^ (-init).toNat)
  else decide (((pg.sum * marginK margin : Nat) : Int) ≤ e * 256 * 2097152)

/-- The window's end at or before the present boundary (09 R225). -/
def PortSt.windowOver (x : PortSt) (now : Nat) : Bool := x.rx == .qualify && decide (x.winEnd ≤ 64 * now)

/-- A window that has ended without sync: back to IDLE, counted (09 R225). -/
def State.endWindow (s : State) (pt : Port) : State :=
  if (s.port pt).windowOver s.now then
    (s.setPort pt { s.port pt with rx := .idle }).count (perPort pt .energyNoqualL .energyNoqualS)
  else s

/-- One block mean at its closing boundary (09 R224 to R228). -/
def State.block (s : State) (pt : Port) (e : Int) : State :=
  let s := s.endWindow pt
  let x := s.port pt
  let row := match x.blkTick with
    | some t => decide (t + 32 = s.now)
    | none => false
  let strong := if 2 * x.eSync ≤ e then (if row then x.strong + 1 else 1) else 0
  let x' := { x with blkTick := some s.now, blocks := (e :: x.blocks).take 2, strong := strong }
  let s' := s.setPort pt x'
  if x.rx.holds then
    if 2 ≤ strong ∧ s.mgmt.inForce.mdmCapture then
      (((s'.discardPacket pt).openWindow pt).count (perPort pt .captureAbortL .captureAbortS)).emitModem pt 4 0
    else s'
  else if qualifies e x.pg s.mgmt.inForce.mdmFloorInit s.mgmt.inForce.mdmEnMargin then
    if x.rx = .qualify then s'.setPort pt { x' with winEnd := min x.winMax (max x.winEnd (64 * s.now + 64 * 125)) }
    else s'.openWindow pt
  else s'

/-- ENERGY_BLOCK: the closing boundary of a 32-tick block with the band-passed samples taken within it (09 R224). -/
def execEnergyBlock (pt : Port) (ys : List Int) (s : State) : Ans :=
  let e := floorDiv ((ys.map fun y => y * y).sum) ys.length
  stepIf (s.portOn pt && (s.port pt).rx != .muted && s.now % 32 == 0 && (s.port pt).blkTick != some s.now && !ys.isEmpty) s
    (s.block pt e)

/-! ## Qualifier (09 R225) -/

/-- |c(n)|^2 and E_y(n) E_d of a position, if it was evaluated. -/
def corrAt (cs : List Corr) (n : Nat) : Option Corr := cs.find? fun c => c.n == n

/-- A position reaches the threshold, or half of it. -/
def crosses (c : Corr) (q : Nat) : Bool := decide (q * q * c.e ≤ 10000 * c.c2)
def confirms (c : Corr) (q : Nat) : Bool := decide (q * q * c.e ≤ 40000 * c.c2)

/-- The position of largest rho^2 = c2 / e among n .. n + 7, the earliest on a tie. -/
def peakFrom (cs : List Corr) (n : Nat) : Option Corr :=
  (List.range 8).foldl (fun best i =>
    match best, corrAt cs (n + i) with
    | none, c => c
    | some b, some c => if b.c2 * c.e < c.c2 * b.e then some c else some b
    | some b, none => some b) none

/-- The search over positions from `n` on: a crossing, its peak, its confirmation, else on from n* + 8 (09 R225). `fuel` bounds
the positions. -/
def searchSync (cs : List Corr) (q : Nat) : Nat → Nat → Option Nat
  | 0, _ => none
  | fuel + 1, n =>
    match corrAt cs n with
    | none => none
    | some c =>
      if crosses c q then
        match peakFrom cs n with
        | none => none
        | some p =>
          match corrAt cs (p.n + 288) with
          | some k => if confirms k q then some p.n else searchSync cs q fuel (p.n + 8)
          | none => none
      else searchSync cs q fuel (n + 1)

/-- The first position of a window: its first sample was taken at or after b - 64 samples (09 R225). -/
def PortSt.firstPos (x : PortSt) : Nat := ceilDiv x.winOpen 125 - 64

/-- The peak that a window's samples confirm so far (09 R225). -/
def PortSt.peak (x : PortSt) (q : Nat) (ys : List Int) : Option Nat :=
  searchSync (corrs ys.length x.firstPos ys) q ys.length x.firstPos

/-- SYNC: the samples from the window's first position on; sync is declared at the first boundary after sample n* + 543, while
the window lasts (09 R225, R226). -/
def execSync (pt : Port) (ys : List Int) (s : State) : Ans :=
  let x := s.port pt
  match x.peak s.mgmt.inForce.mdmQThr ys with
  | none => .next s
  | some n =>
    let t := s.discardPacket pt
    let x' := { t.port pt with rx := .synced, nStar := n, eSync := x.blocks.sum, strong := 0 }
    stepIf (s.portOn pt && x.rx == .qualify && !x.windowOver s.now && decide (afterSample (n + 543) ≤ s.now)) s
      ((t.setPort pt x').emitModem pt 1 0)

/-- QUALIFIER_WINDOW_END (09 R225). -/
def execQualifierWindowEnd (pt : Port) (s : State) : Ans := stepIf (s.portOn pt) s (s.endWindow pt)

/-! ## Symbols (09 R216, R217, R223) -/

/-- The mode, the taps and the factor of the soft values from TRN0 and TRN1 (09 R216, R217). -/
def State.trained (s : State) (pt : Port) (y0 y1 : List Cplx) : State :=
  let m := decideMode y0 y1
  let taps := tapsOf m y0 y1
  s.setPort pt { s.port pt with mode := m, taps := taps, drift := 0, scale := llrScale taps (s.pgOf pt), syms := 0, hdrLlr := [] }

/-- MODE_DECISION: its segment of 70 ticks, begun when TRN1 was complete, has ended (09 R216, R223). -/
def execModeDecision (pt : Port) (y0 y1 : List Cplx) (s : State) : Ans :=
  let x := s.port pt
  stepIf (s.portOn pt && x.rx == .synced && x.taps.isEmpty && y0.length == 64 && y1.length == 64 && x.segDone s.now) s
    (s.endSeg pt fun s => s.trained pt y0 y1)

/-- The tracking after a payload symbol: the taps follow the phase ramp that its hard decisions show, and a drift of more than half a
sample moves the window by one, with the taps at their new places (09 R217). -/
def PortSt.track (x : PortSt) (pg : List Nat) (y : List Cplx) : PortSt :=
  let (phase, slope) := Config.rampOf (x.mode.products x.taps y pg)
  let move := windowMove (x.drift + slope)
  { x with
    taps := turnTaps phase (slope + 256 * move) x.taps, drift := x.drift + slope + 256 * move
    nStar := ((x.nStar : Int) + move).toNat }

/-- A payload symbol: its soft values, the phase tracking, and a codeword for the decoder when 1,152 values are there. -/
def State.paySymbol (s : State) (pt : Port) (y : List Cplx) : State :=
  let x := s.port pt
  let llrs := x.llrs ++ x.mode.demod x.scale x.taps y (s.pgOf pt)
  let x' := { x.track (s.pgOf pt) y with syms := x.syms + 1 }
  if llrs.length < 1152 then s.setPort pt { x' with llrs := llrs }
  else
    match x.hdr with
    | none => s
    | some h =>
      let job : CodeJob := ⟨pt, x.mode, llrs.take 1152, s.now, x.cwLeft == 1, h, x.complete (4 + x.syms)⟩
      let x' := { x' with llrs := llrs.drop 1152, cwLeft := x.cwLeft - 1, hdr := if x.cwLeft = 1 then none else some h }
      { s.setPort pt x' with decoder := s.decoder ++ [job] }

/-- A header symbol: its metrics (09 R217, R219). -/
def State.headerSym (s : State) (pt : Port) (y : List Cplx) : State :=
  let x := s.port pt
  s.setPort pt { x with syms := x.syms + 1, hdrLlr := x.hdrLlr ++ headerDemod x.taps y (s.pgOf pt) x.syms }

/-- SYMBOL_DEMOD: the segment of 140 ticks for a header or payload symbol, begun when it was complete, has ended
(09 R217, R223). -/
def execSymbolDemod (pt : Port) (y : List Cplx) (s : State) : Ans :=
  let x := s.port pt
  let due := s.portOn pt && y.length == 64 && !x.taps.isEmpty && x.segDone s.now
  if x.rx = .synced ∧ x.syms < 2 then stepIf due s (s.endSeg pt fun s => s.headerSym pt y)
  else stepIf (due && x.rx != .synced && x.hdr.isSome && decide (0 < x.cwLeft)) s (s.endSeg pt fun s => s.paySymbol pt y)

/-! ## Header and codewords (09 R218 to R226) -/

/-- The header word that the decoder finds: the word whose code the hard decisions are, else what the decoder makes of the
soft values (09 R219). -/
def State.headerBits (s : State) (pt : Port) : Nat :=
  let x := s.port pt
  let ms := interleave (x.hdrLlr.take 64) (x.hdrLlr.drop 64)
  match headerUncode (ms.map fun v => decide (v < 0)) with
  | some w => w
  | none => (Config.headerDecode (ms.map (softValue .robust x.scale (s.pgOf pt)))).toNat

/-- What the header decides (09 R226). -/
def State.verdict (s : State) (pt : Port) : State :=
  let x := s.port pt
  let w := s.headerBits pt
  match headerFrame w x.mode with
    | none =>
      let t := s.discardPacket pt
      ((t.setPort pt { t.port pt with rx := .idle }).count (perPort pt .falseSyncL .falseSyncS)).emitModem pt 3 0
    | some f =>
      if f.len = 0 then
        let t := s.discardPacket pt
        let t := (t.setPort pt { t.port pt with rx := .idle }).emitModem pt 2 w
        (t.count (perPort pt .rxOkL .rxOkS)).deliver pt f
      else
        let n := f.len.toNat
        (s.setPort pt { x with
          rx := .payload, hdr := some f, llrs := [], cwLeft := x.mode.codewords n, paySyms := x.mode.paySyms n }).emitModem pt 2 w

/-- HEADER_VERDICT: the segment of 200 ticks after HDR1's demodulation has ended, 340 ticks after HDR1 is complete where the
core was free (09 R223, R226). -/
def execHeaderVerdict (pt : Port) (s : State) : Ans :=
  let x := s.port pt
  stepIf (s.portOn pt && x.rx == .synced && x.syms == 2 && x.segDone s.now) s (s.endSeg pt fun s => s.verdict pt)

/-- A job comes before another: its last symbol completed earlier, or it is the loop port's at the same boundary (09 R222). -/
def jobBefore (a b : CodeJob) : Bool :=
  decide (a.complete < b.complete) || (a.complete == b.complete && a.port == .loop && b.port == .spur)

/-- The decoder's next job. -/
def firstJob : List CodeJob → Option CodeJob
  | [] => none
  | j :: js => match firstJob js with
    | none => some j
    | some k => if jobBefore k j then some k else some j

/-- The end of a packet's last codeword: the CRC-32, and the packet handed over or discarded (09 R214, R226). -/
def State.packetDone (s : State) (j : CodeJob) (bits : List Bool) : State :=
  let n := j.hdr.len.toNat
  let bs := bitsBytes (n + 4) bits
  let ps := bs.take n
  let w := headerWord j.hdr
  if crc32 ps = leAt bs n 4 then
    ((s.count (perPort j.port .rxOkL .rxOkS)).emitModem j.port 5 w).deliver j.port { j.hdr with payload := ps }
  else (s.count (perPort j.port .rxCrcFailL .rxCrcFailS)).emitModem j.port 6 w

/-- CODEWORD_DECODE: 448 ticks from the boundary at which the codeword and the decoder are ready (09 R222, R223). -/
def execCodewordDecode (s : State) : Ans :=
  match firstJob s.decoder with
  | none => .next s
  | some j =>
    let at_ := max j.ready s.decFree + 448
    let x := s.port j.port
    let bits := x.bits ++ (j.mode.decode j.llrs).take j.mode.infoBits
    let t := { s.setPort j.port { x with bits := if j.last then [] else bits } with
      decoder := s.decoder.erase j, decFree := at_ }
    stepIf (s.loopUp && decide (at_ ≤ s.now)) s (if j.last then t.packetDone j bits else t)

/-- MUTE_END: 64 ticks after the port's last transmit sample (09 Table 9-8). -/
def execMuteEnd (pt : Port) (s : State) : Ans :=
  let x := s.port pt
  stepIf (s.loopUp && x.rx == .muted && x.tx.isNone && decide (x.lastTx + 64 ≤ s.now)) s (s.setPort pt { x with rx := .idle })

/-! ## Noise floor (09 R229, R230) -/

/-- The sums of |Y|^2 by group of 8 sub-carriers over idle symbols. -/
def groupSums (powers : List (List Nat)) : List Nat :=
  (List.range 8).map fun g => (powers.map fun sym => ((sym.drop (8 * g)).take 8).sum).sum

/-- NOISE_FLOOR_UPDATE: the |Y|^2 of 64 idle symbols, 64 sub-carriers each (09 R230). -/
def execNoiseFloorUpdate (pt : Port) (powers : List (List Nat)) (s : State) : Ans :=
  let x := s.port pt
  stepIf (s.portOn pt && decide (64 ≤ x.idleSyms) && powers.length == 64 && powers.all fun l => l.length == 64) s
    (s.setPort pt { x with pgNext := some (s.now, groupSums powers), idleSyms := 0 })

/-- An update of the floor takes effect at the next boundary (09 R230). -/
def PortSt.takeFloor (x : PortSt) : PortSt :=
  match x.pgNext with
  | some (t, p) => { x with pg := p, floorTick := some t, pgNext := none }
  | none => x

/-! ## Legacy FSK: the transmitted signal (09 R236, R238) -/

/-- An octet's 11 bits: a start bit 0, the data least significant first, odd parity, a stop bit 1 (09 R236). -/
def fskFrame (b : Byte) : List Bool :=
  let d := natBits 8 b.toNat
  false :: d ++ [!(d.foldl (fun a x => a != x) false), true]

/-- The bits of a transmission: one bit time of 1, the octets back to back, one bit time of 1 (09 R238). -/
def fskBits (os : List Byte) : List Bool := true :: os.flatMap fskFrame ++ [true]

/-- The tone in Hz at transmit sample d of a transmission: 1,200 bit/s are 3 bits in 2,500 samples; binary 1 is 1,200 Hz,
binary 0 is 2,200 Hz (09 R236). -/
def Fsk.tone (f : Fsk) (d : Nat) : Nat := if f.send.getD (d * 3 / 2500) true then 1200 else 2200

/-- The phase moves on by the tones of the two samples of the tick that ends; it is continuous (09 R236). -/
def Fsk.advance (f : Fsk) (now : Nat) : Fsk :=
  if f.sendEnd.isSome ∧ f.sendStart < now then
    let d := 2 * (now - 1 - f.sendStart)
    { f with phase := (f.phase + f.tone d + f.tone (d + 1)) % 1000000 }
  else f

/-- The peak of the FSK injection in 0.1 uA: 500 uA to within 5 % (09 R236). -/
def fskPeak : Nat := 4750 + Config.fskTrim % 501

/-- The sinusoid in DAC codes of 2.5 uA at a phase in 1/1,000,000 cycle (09 R236). -/
def fskSample (phase : Nat) : Int := floorDiv ((fskPeak : Int) * (turn ((phase * 65536 / 1000000 : Nat) : Int)).im) (25 * 2 ^ 30)

/-- The FSK injection of the two samples of the present tick (09 R236). -/
def Fsk.wave (f : Fsk) (now : Nat) : Int × Int :=
  if f.sendEnd.isSome then
    (fskSample f.phase, fskSample ((f.phase + f.tone (2 * (now - f.sendStart))) % 1000000))
  else (0, 0)

/-! ## Transmitting (09 R211, R231 to R233; 10 R243) -/

/-- The amplitude of a loop-port packet in 50 uA steps (09 R231). -/
def State.txSteps (s : State) : Nat :=
  let a := s.mgmt.inForce
  let free := s.loop.shaped - 10 * (s.energy.drawUa : Int) - 1000 - (if a.fskEn then 5000 else 0)
  min a.mdmTxLevel (floorDiv free 1500).toNat

/-- The amplitude of a port: 50 uA steps, or the spur level in mV (09 R231, R233). -/
def State.txAmp (s : State) : Port → Nat
  | .loop => s.txSteps
  | .spur => 100 * (s.mgmt.inForce.mdmSpurLevel + 1)

/-- COMPLY keeps the loop port from starting (09 R232, R233). -/
def State.txHeld (s : State) (pt : Port) : Bool := pt == .loop && s.loop.complying

/-- The least value of an injection sample: on the loop port, in DAC codes of 2.5 uA, the instantaneous current stays at
I_draw + 100 uA or above, and the 10-bit DAC reaches 1.28 mA (09 R209, R231). -/
def State.lineFloor (s : State) (pt : Port) : Int :=
  match pt with
  | .loop => max (-512) (-floorDiv (s.loop.shaped - 10 * (s.energy.drawUa : Int) - 1000) 25)
  | .spur => -(3 * ((s.port pt).amp : Int))

/-- The amplitude of the packet under way in the units of its DAC: codes of 2.5 uA on the loop port, mV on the spur port. -/
def PortSt.dacAmp (x : PortSt) : Port → Nat
  | .loop => 20 * x.amp
  | .spur => x.amp

/-- The limits of the multi-carrier samples at the present boundary, while the port transmits (09 R231, R233): three times the
amplitude. -/
def State.clipOf (s : State) (pt : Port) : Int × Int :=
  let x := s.port pt
  if x.tx.isNone then (0, 0)
  else
    let top : Int := match pt with
      | .loop => min (3 * (x.dacAmp pt : Int)) 511
      | .spur => 3 * (x.amp : Int)
    (max (-(3 * (x.dacAmp pt : Int))) (s.lineFloor pt), top)

/-- Sample d of the packet under way: symbol j begins at sample 1,125 x j, and the rms of each symbol's samples is the port's amplitude
(09 R211, R231, R233). A magnitude above three times the amplitude stands at it, where it is clipped anyway. -/
def PortSt.packetSample (x : PortSt) (pt : Port) (d : Nat) : Int :=
  let vals := x.txSyms.getD (d / 1125) []
  let v := resampled vals (d % 1125)
  let sq := ((List.range 1125).map fun o => (resampled vals o).natAbs * (resampled vals o).natAbs).sum
  let a := x.dacAmp pt
  let mag : Int := (rmsMag a (3 * a) v sq : Int)
  if v < 0 then -mag else mag

/-- The two samples that a port's transmit DAC takes in the present tick: the packet's, clipped, and on the loop port the FSK
injection added, within the DAC's range and above the least current (09 R210, R231, R233, R236). -/
def State.dacOf (s : State) (pt : Port) : Int × Int :=
  let x := s.port pt
  let (lo, hi) := s.clipOf pt
  let d := 2 * (s.now - x.txStart)
  let mc (d : Nat) : Int := if x.tx.isSome then clampI lo hi (x.packetSample pt d) else 0
  match pt with
  | .spur => (mc d, mc (d + 1))
  | .loop =>
    let f := s.fsk.wave s.now
    let lim (v : Int) : Int := min 511 (max (s.lineFloor pt) v)
    if x.tx.isSome ∨ s.fsk.sendEnd.isSome then (lim (mc d + f.1), lim (mc (d + 1) + f.2)) else (0, 0)

/-- A port's transmit samples at the present boundary. -/
def State.drivePort (s : State) (pt : Port) : State :=
  let (lo, hi) := s.clipOf pt
  s.setPort pt { s.port pt with clipLo := lo, clipHi := hi, dac := s.dacOf pt }

/-- The highest-ranked request (10 R243). -/
def bestReq : List TxJob → Option TxJob
  | [] => none
  | j :: js => match bestReq js with
    | none => some j
    | some k => if k.rank < j.rank then some k else some j

/-- A due request that meets a busy port (10 Table 10-4). -/
def State.meetBusy (s : State) (pt : Port) (j : TxJob) : State :=
  if j.rank = 1 then s.count .bcnLate
  else if j.rank = 2 then s
  else if j.rank = 3 then
    let s := s.count .pubSkip
    match j.buf with
    | some b => s.setFab { s.fab with pubQueue := (b, 0) :: s.fab.pubQueue }
    | none => s
  else if j.rank = 4 then
    let x := s.port pt
    let free := if x.tx.isSome then x.txEnd else s.now
    s.setPort pt { x with txReq := { j with at_ := free + 1125 } :: x.txReq }
  else s.setFab { s.fab with fwd := s.fab.fwd.put pt (⟨j.frame, 0⟩ :: s.fab.fwd.at pt) }

/-- Several due requests meet a busy port; what returns to a queue keeps its order (10 R246). -/
def State.meetBusies (s : State) (pt : Port) (js : List TxJob) : State := js.foldr (fun j s => s.meetBusy pt j) s

/-- While DUP_ADDR is set no REPLY and no PUBLISH is sent (10 R252): the reply is lost, the buffer waits for a later slot. -/
def State.silenced (s : State) (j : TxJob) : State :=
  match j.rank, j.buf with
  | 3, some b => s.setFab { s.fab with pubQueue := (b, 0) :: s.fab.pubQueue }
  | _, _ => s

/-- A request that DUP_ADDR silences (10 R252). -/
def State.muteReq (s : State) (j : TxJob) : Bool := s.fab.dup && (j.rank == 3 || j.rank == 4)

/-- Requests whose boundary passed unserved: a frame that starts at an exact boundary meets a busy port, and on a port that does
not work a reply is lost and a forwarded frame goes back to its queue (10 R243; notes/assumptions/89). -/
def State.missed (s : State) (pt : Port) : State :=
  let x := s.port pt
  let late (j : TxJob) : Bool := decide (j.at_ < s.now) && (decide (j.rank ≤ 3) || !s.portOn pt)
  if x.txReq.any late then
    (s.setPort pt { x with txReq := x.txReq.filter fun j => !late j }).meetBusies pt
      (x.txReq.filter fun j => late j && j.rank != 4)
  else s

/-- The boundaries at which frames are known to start at a port: requests, the relay, sweep replies, replies at turnaround
(10 Table 10-4). -/
def State.starts (s : State) (pt : Port) : List Nat :=
  let here (e : Nat × Port × Frame) : Option Nat := if e.2.1 = pt then some e.1 else none
  (s.port pt).txReq.map (·.at_) ++ s.fab.relay.toList.filterMap here ++ s.fab.sweep.filterMap here ++
  s.fab.sessions.toList.filterMap fun x => match x.due with
    | some d => if d.port = pt then some d.at_ else none
    | none => none

/-- The port starts a packet: the receiver is muted, a reception abandoned (09 R226, R231). -/
def State.startPacket (s : State) (pt : Port) (j : TxJob) : State :=
  let held := (s.port pt).rx.holds
  let s := if held then (s.discardPacket pt).count (perPort pt .rxAbandonL .rxAbandonS) else s
  let x := s.port pt
  let s := (s.setPort pt { x with
    rx := .muted, tx := some j, txSyms := packetSymbols j.frame, txStart := s.now
    txEnd := s.now + airtime j.frame.mode j.frame.payload.length, amp := s.txAmp pt }).drivePort pt
  let s := if j.rank = 3 then s.setFab { s.fab with pubSeq := s.fab.pubSeq + 1 } else s
  s.emitModem pt 7 (headerWord j.frame)

/-- PACKET_TRANSMIT_START: of the requests due at a port the highest-ranked starts, and the others meet a busy port; so do
all of them when the port transmits, COMPLY holds it, or no current is left (09 R231, R232; 10 R243). -/
def execPacketTransmitStart (pt : Port) (s : State) : Ans :=
  let x := s.port pt
  let ready := x.txReq.filter fun j => decide (j.at_ ≤ s.now)
  let due := ready.filter fun j => !s.muteReq j
  let s0 := (ready.filter s.muteReq).foldr (fun j s => s.silenced j)
    (s.setPort pt { x with txReq := x.txReq.filter fun j => decide (s.now < j.at_) })
  match bestReq due with
  | none => stepIf (s.portOn pt) s s0
  | some j =>
    let t :=
      if x.tx.isSome || s.txHeld pt then s0.meetBusies pt due
      else if s.txAmp pt = 0 then (s0.count .txLowcur).meetBusies pt due
      else (s0.startPacket pt j).meetBusies pt (due.erase j)
    stepIf (s.portOn pt) s t

/-- PACKET_TRANSMIT_END: the last sample has been sent (10 R245, 09 Table 9-8). -/
def execPacketTransmitEnd (pt : Port) (s : State) : Ans :=
  let x := s.port pt
  match x.tx with
  | none => .next s
  | some j =>
    let t := (s.setPort pt { x with tx := none, txSyms := [], amp := 0, lastTx := x.txEnd }).drivePort pt
    let t := t.count (perPort pt .txPktL .txPktS)
    let t := match j.buf with
      | some b => t.freeBuf b
      | none => t
    let t := match j.ses with
      | some n =>
        let y := t.fab.sess n
        if y.buf = j.buf then t.setFab (t.fab.setSess n { y with buf := none }) else t
      | none => t
    stepIf (s.loopUp && decide (x.txEnd ≤ s.now)) s t

/-- A port is quiet: its receiver in IDLE, nothing sent, COMPLY clear on the loop port (09 R229). -/
def State.portQuiet (s : State) (pt : Port) : Bool :=
  s.portOn pt && (s.port pt).rx == .idle && (s.port pt).tx.isNone && !s.txHeld pt

/-- Positions of the idle grid whose last sample was taken before a boundary (09 R229). -/
def idleDone (t : Nat) : Nat := ceilDiv (64 * t) 125 / 288

/-- Symbols of the packet under way that begin at the present boundary, or in the tick that it opens. -/
def PortSt.symbolStart (x : PortSt) (now : Nat) : Bool :=
  let k := 2 * (now - x.txStart)
  x.tx.isSome && decide (k % 1125 < 2) && decide (k / 1125 + 1 < x.txSyms.length)

/-- The boundaries at which a waiting buffer is to be published: the next boundary of each slot, and no sooner than 200 ticks after
the buffer reached LOOP (10 R246, 09 R232). -/
def State.pubStarts (s : State) : List Nat :=
  let a := s.mgmt.inForce
  match s.fab.pubQueue with
  | [] => []
  | (_, since) :: _ =>
    if s.fab.locked && nodeOf (BitVec.ofNat 12 a.fabAddr) != 0 && !s.fab.dup then
      ((List.range 4).filter fun n => a.pubPeriod n != 0).map fun n =>
        max (s.now + (((a.pubPhase n : Int) - (s.clock.meridian.toNat : Int)) % (a.pubPeriod n : Int)).toNat) (since + 200)
    else []

/-- The starts of the next 200 ticks whose first symbol is still to be synthesised. -/
def State.unsynthed (s : State) (pt : Port) : List Nat :=
  let known := s.starts pt ++ (match pt with
    | .loop => s.pubStarts
    | .spur => [])
  (known.filter fun t => decide (s.now < t ∧ t ≤ s.now + 200) && !(s.port pt).synthed.contains t).eraseDups

/-- The synthesis of the next symbol begins with each symbol of a packet, and that of the first one 200 ticks before its start, or as
soon as that start is known (09 R223: 100 ticks or more before; DESIGN CHOICE, notes/assumptions/88). -/
def State.synthTick (s : State) (pt : Port) : State :=
  let new := s.unsynthed pt
  let x := s.port pt
  let s := s.setPort pt { x with synthed := x.synthed.filter (fun t => decide (s.now ≤ t + 8)) ++ new }
  let s := if x.symbolStart s.now then s.synth else s
  new.foldl (fun s _ => s.synth) s

/-- The idle symbol whose last block has closed (09 R229). -/
def State.quietTick (s : State) (pt : Port) : State :=
  let x := s.port pt
  let quiet := if s.portQuiet pt then some (x.quiet.getD s.now) else none
  let b := s.now - 1
  let k := idleDone b
  let done := b % 32 == 0 && 32 ≤ b && idleDone (b - 32) != k && (match quiet with
    | some q => decide (64 * q ≤ 125 * 288 * (k - 1))
    | none => false)
  s.setPort pt { x with quiet := quiet, idleSyms := if done then min 64 (x.idleSyms + 1) else x.idleSyms }

/-- A port at a tick boundary: requests whose boundary has passed, a new floor, the DSP core, the transmit samples, the idle grid
(09 R210, R223, R226, R229 to R231; 10 R243). -/
def State.portTick (s : State) (pt : Port) : State :=
  let s := s.missed pt
  let s := s.setPort pt (s.port pt).takeFloor
  let s := if s.portOn pt then s.book pt else s
  let s := match pt with
    | .loop => { s with fsk := s.fsk.advance s.now }
    | .spur => s
  ((s.synthTick pt).drivePort pt).quietTick pt

/-! ## Idle-line apply point (01 R23, 09 R234, 10 R242) -/

/-- A port's line is idle (09 R234). -/
def State.lineIdle (s : State) (pt : Port) : Bool := (s.port pt).rx == .idle && (s.port pt).tx.isNone

/-- The line is idle for the FSK fields (09 R234). -/
def State.fskIdle (s : State) : Bool := s.lineIdle .loop && !s.fsk.cd && s.fsk.sendEnd.isNone

/-- Whether a modem, fabric or bearing field may take effect at this boundary: a port's own fields at its idle line, FSK fields
without a carrier (09 R234, 10 R242). DESIGN CHOICE (notes/assumptions/105): a field that belongs to both ports waits until both lines are
idle. -/
def State.fieldIdle (s : State) (id : Nat) : Bool :=
  let f := id % 64
  let both := s.lineIdle .loop && s.lineIdle .spur
  if id / 2048 = 8 then
    (if f = 1 ∨ f = 4 then s.lineIdle .spur
     else if f = 0 ∨ f = 3 then s.lineIdle .loop
     else if 9 ≤ f then s.fskIdle
     else both)
  else both

/-- The fields of one copy that satisfy a test and are line fields, in place of another's (01 R23). -/
def Alm.takeLine (a b : Alm) (ok : Nat → Bool) : Alm :=
  let take (e : Nat × Int) : Bool := ok e.1 && (match fieldRow e.1 with
    | some r => r.kind == .line
    | none => false)
  ⟨(b.vals.filter take).foldl (fun l e => assocPut l e.1 e.2) (a.vals.filter fun e => !take e)⟩

/-- A port that has been switched on starts from MDM_FLOOR_INIT (09 R230). -/
def State.freshFloor (s : State) (pt : Port) (old : Alm) : State :=
  if s.mgmt.inForce.portEn pt && !old.portEn pt then
    s.setPort pt { s.port pt with pg := [], pgNext := none, floorTick := none, idleSyms := 0, quiet := none, blocks := [], blkTick := none }
  else s

/-- What new fields bring with them: fresh floors, the FSK ring's position, and the end of DUP_ADDR with an assigned address
(09 R230; 10 R251, R252; 11 R395). -/
def State.afterLine (s : State) (old : Alm) : State :=
  let a := s.mgmt.inForce
  let s := (s.freshFloor .loop old).freshFloor .spur old
  let moved (f : Nat → Alm → Nat) : Bool := f 0 a != f 0 old || f 1 a != f 1 old
  if moved fun n a => if n = 0 then a.fskBufFirst else a.fskBufCount then { s with fsk := { s.fsk with ring := 0 } } else s

/-- The line token's fields take effect as their lines allow (01 R23). -/
def State.lineApply (s : State) (t : ApplyTok) : State :=
  let old := s.mgmt.inForce
  let assignIdle := s.fieldIdle (fid 9 0 0)
  let new := old.takeLine t.alm s.fieldIdle
  let left := new.differKind t.alm .line
  let s := (s.setMgmt { s.mgmt with inForce := new, pendLine := if left then some t else none }).afterLine old
  -- an accepted FAB_ASSIGN takes effect with FAB_ADDR, at a boundary with both lines idle (10 R242, R252)
  let s := if s.fab.assigned && assignIdle then s.setFab { s.fab with dup := false, assigned := false } else s
  if left then s else s.emitApply .loop 2 0

/-- IDLE_LINE_APPLY (09 R234, 10 R242, R251 to R253). -/
def execIdleLineApply (s : State) : Ans :=
  match s.mgmt.pendLine with
  | none => .next s
  | some t => stepIf (s.loopUp && decide (t.posted < s.now)) s (s.lineApply t)

/-! ## Legacy FSK (09 R236 to R238) -/

/-- Four bit times at 1,200 bit/s, and ticks for a number of bits (09 R236). -/
def bitTicks (n : Nat) : Nat := ceilDiv (n * 500000) 1200

/-- The FSK layer is on (09 R236). -/
def State.fskOn (s : State) : Bool := s.loopUp && s.mgmt.inForce.fskEn

/-- The receiver stays muted after the device's own transmission until carrier detect has been off for 4 bit times
(09 R237). -/
def Fsk.stillMuted (f : Fsk) (now : Nat) : Bool := f.muted && (f.sendEnd.isSome || f.cd || decide (now - f.cdTick < bitTicks 4))

/-- FSK_CARRIER_ON (09 R236). -/
def execFskCarrierOn (s : State) : Ans :=
  stepIf (s.fskOn && !s.fsk.cd) s { s with fsk := { s.fsk with cd := true, cdTick := s.now, muted := s.fsk.stillMuted s.now } }

/-- The bytes of an FSK receive buffer (09 Table 9-13). -/
def Fsk.bytes (f : Fsk) (flags : Nat) : List Byte :=
  leBytes 1 1 ++ leBytes 1 f.octets.length ++ leBytes 6 f.stamp.toNat ++ leBytes 2 flags ++ leBytes 4 f.bufDrops ++ zeros 2 ++
  padTo 240 (f.octets.flatMap fun o => [o.1, o.2])

/-- Hand the FSK buffer to the host: bit 0 of FSK_FLAGS, the carrier went off; bit 1, more octets may follow (09 R237). -/
def State.fskHandOver (s : State) (flags : Nat) : State :=
  match s.fsk.buf with
  | none => s
  | some b =>
    let s := (s.relayWrite b (s.fsk.bytes flags)).setOwner b .host 0x20
    ({ s with fsk := { s.fsk with buf := none, octets := [], bufDrops := 0 } }).ring 7

/-- FSK_CARRIER_OFF (09 R237). -/
def execFskCarrierOff (s : State) : Ans :=
  stepIf (s.loopUp && s.fsk.cd) s (({ s with fsk := { s.fsk with cd := false, cdTick := s.now } }).fskHandOver 1)

/-- The data of an octet: bits 1 to 8 of its frame (09 R236). -/
def octetData (o : FskOctet) : Byte := o.bits.extractLsb' 1 8

/-- Status bits of an octet (09 Table 9-13): the nine bits of data and parity do not hold an odd number of ones; the stop bit is
0; at least 2 idle bit times before the start bit. -/
def octetStatus (o : FskOctet) : Byte :=
  let ones := (natBits 9 (o.bits.toNat / 2)).countP id
  BitVec.ofNat 8 (b2n (ones % 2 == 0) + 2 * b2n (!o.bits.getLsbD 10) + 4 * b2n (decide (2 ≤ o.idle)))

/-- The first FREE buffer of the FSK range in ring order from the place after the last one used, with the place after it
(09 R237, 11 R395). -/
def State.fskFree (s : State) : Option (Nat × Nat) :=
  let r := bufRange s.mgmt.inForce.fskBufFirst s.mgmt.inForce.fskBufCount
  let n := max 1 r.length
  ((List.range r.length).map fun i => (r.getD ((s.fsk.ring + i) % n) 0, (s.fsk.ring + i + 1) % n)).find? fun e =>
    (s.win.ownAt e.1).own == .free

/-- An octet that finds no buffer open: it opens a FREE one of the range, else it is dropped (09 R237). -/
def State.fskOpen (s : State) (o : FskOctet) : State :=
  match s.fskFree with
  | some (b, next) =>
    let s := s.setOwner b .device 0x20
    { s with fsk := { s.fsk with
      buf := some b, octets := [(octetData o, octetStatus o)], stamp := o.start, ring := next
      bufDrops := s.fsk.drops, drops := 0 } }
  | none => ({ s with fsk := { s.fsk with drops := min (s.fsk.drops + 1) 0xFFFFFFFF } }).count .fskDrops

/-- One received octet (09 R237). -/
def State.fskTake (s : State) (o : FskOctet) : State :=
  let s := s.count .fskOctets
  match s.fsk.buf with
  | none => s.fskOpen o
  | some _ =>
    let s := { s with fsk := { s.fsk with octets := s.fsk.octets ++ [(octetData o, octetStatus o)] } }
    if s.fsk.octets.length < 120 then s else s.fskHandOver 2

/-- FSK_OCTET_RECEIVE (09 R237). -/
def execFskOctetReceive (o : FskOctet) (s : State) : Ans :=
  stepIf (s.fskOn && s.fsk.cd && !s.fsk.stillMuted s.now && !o.bits.getLsbD 0) s (s.fskTake o)

/-- FSK_TRANSMIT_START: carrier detect is off; one bit time of 1, the octets of 11 bits, one bit time of 1 (09 R238). The first
start bit begins 416 to 418 ticks on: FSK timing is asynchronous to the ticks. -/
def execFskTransmitStart (s : State) : Ans :=
  match s.fsk.tx with
  | none => .next s
  | some (os, _) =>
    let (x, t) := s.draw 2
    let first := s.clock.meridian + BitVec.ofNat 48 (416 + x.toNat % 3)
    let t := { t with fsk := { t.fsk with
      tx := none, send := fskBits os, sendStart := s.now, sendEnd := some (s.now + bitTicks (2 + 11 * os.length)), phase := 0
      muted := true } }
    stepIf (s.fskOn && !s.fsk.cd && s.fsk.sendEnd.isNone) s ((t.drivePort .loop).loopEvent 0x0508 stOk (leBytes 6 first.toNat))

/-- FSK_PASS_TIMEOUT: carrier detect stayed on for 500,000 ticks (09 R238). -/
def execFskPassTimeout (s : State) : Ans :=
  match s.fsk.tx with
  | none => .next s
  | some (_, since) =>
    stepIf (s.loopUp && s.fsk.cd && decide (500000 ≤ s.now - since)) s
      (({ s with fsk := { s.fsk with tx := none } }).loopEvent 0x0508 stBusy [])

/-- FSK_PASS (09 R238, 12 Table 12-17). -/
def execFskPass (p : Packet) (s : State) : Ans :=
  .next (s.runCmd { plainCmd 0x0508 (fun l => 1 ≤ l && l ≤ 248) with needs := fun _ _ => [.loop], waits := true } p
    fun s _ ps =>
      if !s.mgmt.inForce.fskEn then .done s stNotPermitted []
      else .wait (s.postReq 3 0x0508 (.fskPass ps)) (some .loop) [])

end Sys2Proof.Machine
end

