-- ==== Sys2Proof/Machine/Fabric.lean ====
section
/-! DEFINITION. The Scayth fabric (10): frames received and sent, sessions, the compass sweep, duplicate addresses, bearings,
time and publish slots, and the FAB_* commands (12 Table 12-17). -/

namespace Sys2Proof.Machine

open Sys2Proof

/-! ## The device's address -/

/-- The device's own address as it is in force (10 Addresses). -/
def State.ownAddr (s : State) : BitVec 12 := BitVec.ofNat 12 s.mgmt.inForce.fabAddr

/-- The device has no node (10 Addresses). -/
def State.unassigned (s : State) : Bool := nodeOf s.ownAddr == 0

/-- DUP_ADDR sets and rings the fabric doorbell (10 R252). -/
def State.setDup (s : State) : State := if s.fab.dup then s else (s.setFab { s.fab with dup := true }).ring 8

/-- A FAB_ASSIGN that gives the device's own address to a different UID (10 R252). -/
def State.assignClash (s : State) (uid addr : Nat) : Bool :=
  !s.unassigned && addr == s.ownAddr.toNat && uid != Config.uid.toNat

/-! ## Taking a delivered frame -/

/-- Mark a part of a delivered frame's handling as done. -/
def Fabric.handled (f : Fabric) (pt : Port) (fr : Frame) (route : Bool) : Fabric :=
  let mark (d : Delivered) : Delivered :=
    if d.port = pt ∧ d.frame = fr then (if route then { d with route := false } else { d with here := false }) else d
  { f with delivered := f.delivered.map mark }

/-- Take a frame for its handling as an endpoint or as a routing device, with its delivery tick D. A frame that no packet of
the port brought stands for one that the modem delivers now; its fields are checked as every frame's (10 R239, R240).
`none` when the modem delivered another frame, this part is done, or the port does not work. -/
def State.takeFrame (s : State) (pt : Port) (f : Frame) (route : Bool) : Option (State × Nat) :=
  if !s.portOn pt || f.payload.length ≠ f.len.toNat then none
  else match s.fab.delivered.filter fun d => d.port == pt with
    | [] => some (s, s.now)
    | ds => match ds.find? fun d => d.frame == f && (if route then d.route else d.here) with
      | some d => some (s.setFab (s.fab.handled pt f route), d.at_)
      | none => none

/-- A step on a received frame of one type: taken, checked, then handled. -/
def State.onFrame (s : State) (pt : Port) (f : Frame) (typ : Nat → Bool) (act : State → Nat → State) : Ans :=
  if typ f.typ.toNat || !frameValid f then
    match s.takeFrame pt f false with
    | none => .next s
    | some (t, d) => .next (if frameValid f then act t d else t.count .frameBad)
  else .next s

/-! ## Frames that the device sends (10 R241, R243) -/

/-- A frame that the device originates (10 R241). -/
def State.mkFrame (s : State) (dest : BitVec 12) (typ : Nat) (seq : Byte) (payload : List Byte) (mode : Mode) : Frame :=
  { dest := dest, src := s.ownAddr, typ := BitVec.ofNat 4 typ, hop := 0, len := BitVec.ofNat 9 payload.length, seq := seq,
    payload := payload, mode := mode }

/-- Ask a port to start a frame at a boundary (10 Table 10-4). -/
def State.request (s : State) (pt : Port) (j : TxJob) : State :=
  let x := s.port pt
  s.setPort pt { x with txReq := x.txReq ++ [j] }

/-- A request whose start may not have been known before it: its first symbol is synthesised from now on where no synthesis for
that start, or one that a slew has moved, has been booked (09 R223; notes/assumptions/88). -/
def State.requestNow (s : State) (pt : Port) (j : TxJob) : State :=
  if (s.port pt).synthed.any fun t => decide (t ≤ j.at_ + 8 ∧ j.at_ ≤ t + 8) then s.request pt j else s.synth.request pt j

/-- The boundary at which a packet starts whose request reaches LOOP now: the one named, and no sooner than 200 ticks after
receipt (09 R232). -/
def State.noSooner (s : State) (at_ : Nat) : Nat := max at_ (s.now + 200)

/-- The mode of every packet for which the fabric names no other (09 Table 9-11). -/
def State.txMode (s : State) : Mode := modeOfCode s.mgmt.inForce.mdmTxMode

/-- A REPLY outside a session, at D + 1,000: its RSRC is not stated (10 R248, R255). -/
def State.looseReply (s : State) (pt : Port) (d : Nat) (f : Frame) (status : Nat) : State :=
  let (r, s) := s.draw 8
  let cmd := f.typ = 3
  let bytes := replyBytes (if cmd then leAt f.payload 0 2 else 0) (if cmd then leAt f.payload 2 1 else 0) status r.toNat 0 false []
  if s.fab.dup then s
  else s.request pt ⟨s.mkFrame f.src 4 f.seq bytes s.txMode, s.noSooner (d + 1000), 4, none, none⟩

/-! ## Sessions (10 R248, R249) -/

/-- The session of an address. -/
def Fabric.sessOf (f : Fabric) (a : BitVec 12) : Option Nat :=
  (List.range 16).find? fun n => (f.sess n).opened && (f.sess n).addr == a

/-- The session to evict: the least recently used of those idle for 500,000 ticks with no command running (10 R248). -/
def Fabric.evictable (f : Fabric) (now : Nat) : Option Nat :=
  ((List.range 16).filter fun n => !(f.sess n).running && decide (500000 ≤ now - (f.sess n).last)).foldl
    (fun best n => match best with
      | none => some n
      | some b => if (f.sess n).last < (f.sess b).last then some n else some b) none

/-- Close a session: its current reply, and the assembly of its sender, are discarded (10 R248, 12 R302, R303). -/
def State.closeSession (s : State) (n : Nat) : State :=
  let src : Byte := BitVec.ofNat 8 (0x80 + n)
  let s := match (s.fab.sess n).buf with
    | some b => s.freeBuf b
    | none => s
  let s := s.setMgmt { s.mgmt with
    assemblies := s.mgmt.assemblies.filter (fun a => a.src ≠ src), kept := s.mgmt.kept.filter fun k => k.src ≠ src }
  s.setFab (s.fab.setSess n Session.reset)

/-- The session of a consumed frame, opened if need be; `none` when the table is full. A CMD or POLL (`use`) ends its idleness
(10 R248). -/
def State.openSession (s : State) (a : BitVec 12) (use : Bool) : State × Option Nat :=
  let fresh (s : State) (n : Nat) : State × Option Nat :=
    (s.setFab (s.fab.setSess n { Session.reset with opened := true, addr := a, last := s.now }), some n)
  match s.fab.sessOf a with
  | some n => (if use then s.setFab (s.fab.setSess n { s.fab.sess n with last := s.now }) else s, some n)
  | none =>
    match (List.range 16).find? fun n => !(s.fab.sess n).opened with
    | some n => fresh s n
    | none => match s.fab.evictable s.now with
      | some n => fresh (s.closeSession n) n
      | none => (s, none)

/-- A reply of a session is due at turnaround (10 R245). -/
def State.setDue (s : State) (n : Nat) (d : Due) : State := s.setFab (s.fab.setSess n { s.fab.sess n with due := some d })

/-- SESSION_CLOSE: 5,000,000 ticks idle without a running command (10 R248). -/
def execSessionClose (ses : Fin 16) (s : State) : Ans :=
  let x := s.fab.sess ses.val
  stepIf (s.loopUp && x.opened && !x.running && decide (5000000 ≤ s.now - x.last)) s (s.closeSession ses.val)

/-! ## CMD frames (10 R244, R249; 11 R287, R288) -/

/-- The first FREE buffer of the fabric range, in ring order from FAB_BUF_FIRST (10 R244, 11 R395). -/
def State.relayBuf (s : State) : Option Nat :=
  (bufRange s.mgmt.inForce.fabBufFirst s.mgmt.inForce.fabBufCount).find? fun b => (s.win.ownAt b).own == .free

/-- The relay DMA copies the packet into a buffer, takes it to DEVICE and posts its notice; `none` without a FREE buffer
(10 R244). -/
def State.relayCmd (s : State) (f : Frame) (src : Nat) : Option State :=
  match s.relayBuf with
  | none => none
  | some b =>
    let s := (s.setOwner b .device 0x20).relayWrite b f.payload
    let w := mkNotice b f.payload.length src (leAt f.payload 0 2) (leAt f.payload 2 1)
    some (s.setFab { s.fab with mb2Wait := s.fab.mb2Wait ++ [(w, f.src)] }).postMb2

/-- A CMD frame is a FAB_ASSIGN, with its UID and address (12 Table 12-17). -/
def assignOf (f : Frame) : Option (Nat × Nat) :=
  if leAt f.payload 0 2 = 0x0501 ∧ 18 ≤ f.payload.length then some (leAt f.payload 8 8, leAt f.payload 16 2) else none

/-- A CMD frame is a FAB_ASSIGN that names the device's UID. -/
def assignsMe (f : Frame) : Bool :=
  match assignOf f with
  | some (u, _) => u == Config.uid.toNat
  | none => false

/-- A frame's DEST is every device of the segment (10 Table 10-1). -/
def State.toAll (s : State) (f : Frame) : Bool := nodeOf f.dest == 63 && segOf f.dest == segOf s.ownAddr

/-- Whether the device consumes a host frame (10 R244): to its own address, to its segment's node 63, or to node 0 while it is
unassigned or has DUP_ADDR set; under DUP_ADDR no CMD or POLL but a FAB_ASSIGN of its own (10 R251, R252). -/
def State.consumes (s : State) (f : Frame) : Bool :=
  let addressed := f.dest == s.ownAddr || s.toAll f || (nodeOf f.dest == 0 && (s.unassigned || s.fab.dup))
  let kept := !s.fab.dup || (f.typ != 2 && f.typ != 3) || (f.typ == 3 && nodeOf f.dest != 63 && assignsMe f)
  hostType f.typ.toNat && addressed && kept

/-- How the device takes a CMD (10 R244, R252): not at all, as a broadcast, or in a session. -/
inductive Consume where
  | no | broadcast | session
  deriving DecidableEq, Repr

/-- A consumed CMD to node 63 is a broadcast; one to node 0 is ignored unless it is a FAB_ASSIGN that names the device's UID
(10 R244). -/
def State.cmdConsumed (s : State) (f : Frame) : Consume :=
  if !s.consumes f then .no
  else if nodeOf f.dest = 63 then .broadcast
  else if nodeOf f.dest = 0 ∧ !assignsMe f then .no
  else .session

/-- A CMD in its session (10 R249). -/
def State.sessionCmd (s : State) (pt : Port) (d : Nat) (f : Frame) (n : Nat) : State :=
  let x := s.fab.sess n
  let op := leAt f.payload 0 2
  let tag : Byte := byteAt f.payload 2
  let due (poll : Bool) (fixed : Option (List Byte)) : Due := ⟨d + 1000, f.seq, pt, poll, fixed⟩
  if x.seq = some f.seq then s.setDue n (due true none)
  else if x.running then s.setDue n (due false (some (replyBytes op tag.toNat stBusy (0x80 + n) 0 false [])))
  else
    let y := { x with
      before := some (x.seq, x.cur, x.curAt), seq := some f.seq, running := true, cur := none, op := op, tag := tag
      due := some (due false none), buf := none }
    let t := match x.buf with
      | some b => s.freeBuf b
      | none => s
    match (t.setFab (t.fab.setSess n y)).relayCmd f (0x80 + n) with
    | some u => u
    | none => s.count .fabRxfull

/-- A received CMD frame (10 R244, R248, R249, R252). -/
def State.cmdFrame (s : State) (pt : Port) (d : Nat) (f : Frame) : State :=
  let s := match assignOf f with
    | some (u, a) => if s.assignClash u a then s.setDup else s
    | none => s
  match s.cmdConsumed f with
  | .no => s
  | .broadcast => (s.relayCmd f 0x90).getD (s.count .fabRxfull)
  | .session =>
    match s.openSession f.src true with
    | (t, some n) => t.sessionCmd pt d f n
    | (t, none) => (t.count .sessBusy).looseReply pt d f stBusy

/-- CMD_FRAME (10 R244). -/
def execCmdFrame (pt : Port) (f : Frame) (s : State) : Ans := s.onFrame pt f (· == 3) fun s d => s.cmdFrame pt d f

/-- A received POLL frame: one to node 63 or node 0 is ignored (10 R244, R245, R252). -/
def State.pollFrame (s : State) (pt : Port) (d : Nat) (f : Frame) : State :=
  if !s.consumes f ∨ nodeOf f.dest = 0 ∨ nodeOf f.dest = 63 then s
  else match s.openSession f.src true with
    | (t, some n) => t.setDue n ⟨d + 1000, f.seq, pt, true, none⟩
    | (t, none) => (t.count .sessBusy).looseReply pt d f stBusy

/-- POLL_FRAME (10 R245). -/
def execPollFrame (pt : Port) (f : Frame) (s : State) : Ans := s.onFrame pt f (· == 2) fun s d => s.pollFrame pt d f

/-- The reply packet that a session sends at turnaround, with the window buffer that it empties (10 R245, R249): for a CMD the
current reply if it reached LOOP by D + 800, else ST_PENDING; for a POLL or a repeat the current reply as it stands, and for a POLL in a
session that has none no payload. -/
def Session.answer (x : Session) (n : Nat) (d : Due) : List Byte × Option Nat :=
  let wait := replyBytes x.op x.tag.toNat stPending (0x80 + n) 0 false []
  match d.fixed with
  | some bs => (bs, none)
  | none => match x.cur with
    | some bs => if d.poll || decide (x.curAt + 200 ≤ d.at_) then (bs, x.buf) else (wait, none)
    | none => if d.poll && !x.running then ([], none) else (wait, none)

/-- REPLY_TURNAROUND: at D + 1,000 the REPLY is due at its port; while DUP_ADDR is set none is sent. The reply to a FAB_ASSIGN
comes from the new address (10 R241, R245, R251, R252). -/
def execReplyTurnaround (ses : Fin 16) (s : State) : Ans :=
  let n := ses.val
  let x := s.fab.sess n
  match x.due with
  | none => .next s
  | some d =>
    let t := s.setFab (s.fab.setSess n { x with due := none })
    let (bs, b) := x.answer n d
    let f := s.mkFrame x.addr 4 d.seq bs s.txMode
    let f := if x.op = 0x0501 then { f with src := BitVec.ofNat 12 s.mgmt.committed.fabAddr } else f
    stepIf (s.fabricOn && decide (d.at_ ≤ s.now)) s
      (if s.fab.dup then t else t.request d.port ⟨f, s.now, 4, some n, b⟩)

/-! ## Compass sweep (10 R250) -/

/-- The tick index of a Meridian count near the present one. -/
def State.tickOf (s : State) (count : Nat) : Nat := (((s.now : Int) + ((count : Int) - (s.clock.meridian.toNat : Int)))).toNat

/-- A SWEEP that has its session (10 R250, R252). -/
def State.answerSweep (s : State) (pt : Port) (f : Frame) (a8 : Nat) : State :=
  let plen := leAt f.payload 0 1
  let mode := leAt f.payload 1 1
  let ofs := leAt f.payload 2 3
  let pre := leAt f.payload 8 8
  if 64 < plen ∨ 2 < mode ∨ ofs < airtime f.mode 16 + 1000 then s.count .frameBad
  else if Config.uid.toNat / 2 ^ (64 - plen) ≠ pre / 2 ^ (64 - plen) then s
  else
    let m := modeOfCode mode
    let (j, s) := s.draw 4
    let start := (a8 + 4) / 8 + ofs + j.toNat * (airtime m 8 + 1125)
    let reply := (s.noSooner (s.tickOf start), pt, s.mkFrame f.src 7 f.seq (leBytes 8 Config.uid.toNat) m)
    s.setFab { s.fab with sweep := s.fab.sweep ++ [reply] }

/-- A received SWEEP: like every host frame that the device consumes it opens a session, and with the table full it gets
ST_BUSY instead (10 R248, R250). -/
def State.sweepFrame (s : State) (pt : Port) (d : Nat) (f : Frame) (a8 : Nat) : State :=
  if !s.consumes f then s
  else match s.openSession f.src false with
    | (t, some _) => t.answerSweep pt f a8
    | (t, none) => (t.count .sessBusy).looseReply pt d f stBusy

/-- SWEEP_FRAME: `a8` is the measured start of the SWEEP's DET0 in 1/8 tick (10 R250, R256). -/
def execSweepFrame (pt : Port) (f : Frame) (a8 : Nat) (s : State) : Ans :=
  s.onFrame pt f (· == 6) fun s d => s.sweepFrame pt d f a8

/-- A SWEEP_REPLY at its slot; a slot that has passed is lost. -/
def State.sendSweep (s : State) (e : Nat × Port × Frame) : State :=
  if e.1 = s.now then s.request e.2.1 ⟨e.2.2, e.1, 2, none, none⟩ else s

/-- SWEEP_REPLY_SLOT: the drawn slots whose boundary has come (10 R250). -/
def execSweepReplySlot (s : State) : Ans :=
  let come (e : Nat × Port × Frame) : Bool := decide (e.1 ≤ s.now)
  let t := s.setFab { s.fab with sweep := s.fab.sweep.filter fun e => !come e }
  stepIf (s.fabricOn && s.fab.sweep.any come) s ((s.fab.sweep.filter come).foldl State.sendSweep t)

/-! ## Device frames (10 R252) -/

/-- DEVICE_FRAME_RECEIVE: a device frame from the device's own address (10 R252). -/
def execDeviceFrameReceive (pt : Port) (f : Frame) (s : State) : Ans :=
  s.onFrame pt f deviceType fun s _ => if !s.unassigned && f.src == s.ownAddr then s.setDup else s

/-! ## Bearings and routing (10 R253 to R255) -/

/-- The port that a bearing names (10 Table 10-7). -/
def exitPort (code : Nat) : Option Port := if code = 1 then some .loop else if code = 2 then some .spur else none

/-- The exit toward a segment, from the table in force. -/
def State.exitOf (s : State) (seg : Nat) : Option Port := exitPort (s.mgmt.inForce.bearing seg)

/-- The other port. -/
def otherPort : Port → Port
  | .loop => .spur
  | .spur => .loop

/-- Whether the device consumes a frame under 10 R244 that is not addressed to node 63 (10 R254). -/
def State.consumesAlone (s : State) (f : Frame) : Bool := s.consumes f && nodeOf f.dest != 63

/-- ST_NO_ROUTE toward the sender of a dropped CMD or POLL, if there is a bearing for it (10 R255). -/
def State.noRoute (s : State) (d : Nat) (f : Frame) : State :=
  if f.typ = 2 ∨ f.typ = 3 then
    match s.exitOf (segOf f.src) with
    | some p => s.looseReply p d f stNoRoute
    | none => s
  else s

/-- A received frame at a routing device (10 R254). -/
def State.routeFrame (s : State) (pt : Port) (d : Nat) (f : Frame) : State :=
  if f.typ = 1 ∨ s.consumesAlone f then s
  else match s.exitOf (segOf f.dest) with
    | none => (s.count .fwdNobearing).noRoute d f
    | some p =>
      if p = pt then s
      else if f.hop = 7 then (s.count .fwdHops).noRoute d f
      else if 8 ≤ (s.fab.fwd.at p).length then s.count .fwdQfull
      else s.synth.setFab { s.fab with fwd := s.fab.fwd.put p (s.fab.fwd.at p ++ [⟨{ f with hop := f.hop + 1 }, d⟩]) }

/-- FRAME_FORWARD (10 R254). -/
def execFrameForward (pt : Port) (f : Frame) (s : State) : Ans :=
  if s.routes && frameValid f then
    match s.takeFrame pt f true with
    | none => .next s
    | some (t, d) => .next (t.routeFrame pt d f)
  else .next s

/-- FORWARD_TRANSMIT: the first waiting frame, once its exit port is idle and 200 ticks have passed since delivery
(10 Table 10-4). -/
def execForwardTransmit (pt : Port) (s : State) : Ans :=
  match s.fab.fwd.at pt with
  | [] => .next s
  | i :: is =>
    let x := s.port pt
    stepIf (s.portOn pt && x.rx == .idle && x.tx.isNone && decide (i.delivered + 200 ≤ s.now)) s
      ((s.setFab { s.fab with fwd := s.fab.fwd.put pt is }).request pt ⟨i.frame, s.now, 5, none, none⟩)

/-! ## Fabric time (10 R256 to R260) -/

/-- The port from which a beacon may come: the loop port, or for a routing device the port toward the root (10 R256). -/
def State.beaconPort (s : State) (pt : Port) : Bool :=
  if s.routes then s.exitOf s.mgmt.inForce.fabTimeRoot == some pt else pt == .loop

/-- Whether a beacon is accepted (10 R256). -/
def State.acceptsBeacon (s : State) (pt : Port) (f : Frame) : Bool :=
  let root := s.mgmt.inForce.fabTimeRoot
  nodeOf f.src == 0 && segOf f.src == root && (f.len == 0 || leAt f.payload 6 1 % 64 == root) && s.beaconPort pt &&
  !(s.fab.bcnSeqs.any fun b => b.1 == f.seq && decide (s.now - b.2 < 500000))

/-- e of 10 R257 in 1/8 tick: a short beacon's time is the multiple of 1,125 nearest to a. -/
def beaconErr (f : Frame) (a8 : Nat) : Int :=
  let b : Nat := if f.len = 0 then (a8 + 4500) / 9000 * 1125 else leAt f.payload 0 6
  (a8 : Int) - 8 * (b : Int)

/-- What an accepted beacon does to the clock: 0 nothing, 1 slew +1, 2 slew -1, 3 time set; and the state after it
(10 R257). -/
def beaconAct (locked : Bool) (full : Bool) (e : Int) : Nat × Bool :=
  if full && (!locked || decide (512 ≤ e.natAbs)) then (3, true)
  else if !locked then (0, false)
  else if 512 ≤ e.natAbs then (0, false)
  else if 4 ≤ e then (2, true)
  else if e < -4 then (1, true)
  else (0, true)

/-- L_hop of 10 Table 10-9. -/
def hopLatency (f : Frame) : Nat :=
  if f.len = 0 then 4500
  else match f.mode with
    | .fast => 14625
    | .standard => 24750
    | .robust => 85500

/-- The relayed beacon (10 R258). -/
def relayFrame (f : Frame) : Frame :=
  { f with
    hop := f.hop + 1
    payload := if f.len = 0 then [] else leBytes 6 (leAt f.payload 0 6 + hopLatency f) ++ f.payload.drop 6 }

/-- An accepted beacon (10 R256 to R258, R260). -/
def State.beacon (s : State) (pt : Port) (f : Frame) (a8 : Nat) : State :=
  let full := f.len != 0
  let e := beaconErr f a8
  let (act, locked) := beaconAct s.fab.locked full e
  let c := s.clock
  let clock :=
    if act = 3 then { c with timeSet := some (c.meridian + 1 - BitVec.ofInt 48 ((e + 4) / 8)), slew := none }
    else if act = 0 then c
    else { c with slew := some (act == 1) }
  let relay := if s.routes && f.hop != 7 then
      some (s.noSooner (s.tickOf ((a8 + 4) / 8 + hopLatency f)), otherPort pt, relayFrame f) else s.fab.relay
  let event := if full && (leAt f.payload 7 1) % 2 == 1 then some (BitVec.ofNat 48 (leAt f.payload 8 6)) else s.fab.event
  let s := { s with clock := clock, fab := { s.fab with
    locked := locked, hop := f.hop, err := e, bcnTick := some s.now, relay := relay, event := event
    bcnSeqs := (f.seq, s.now) :: s.fab.bcnSeqs.filter fun b => decide (s.now - b.2 < 500000) } }
  let s := if act = 3 then s.count .timeSet else s
  s.emit .loop 0xC (act + 4 * b2n locked + 256 * f.hop.toNat) [unsignedOf 32 e]

/-- A beacon is a host frame: one that the device consumes opens a session, and with the table full it gets ST_BUSY (10 R239, R244,
R248). R256 alone decides whether it is accepted (DEDUCED, notes/assumptions/93). -/
def State.beaconSession (s : State) (pt : Port) (d : Nat) (f : Frame) : State :=
  if !s.consumes f then s
  else match s.openSession f.src false with
    | (t, some _) => t
    | (t, none) => (t.count .sessBusy).looseReply pt d f stBusy

/-- BEACON_ACCEPT: `a8` is the measured start of the beacon's DET0 in 1/8 tick (10 R256, R257). -/
def execBeaconAccept (pt : Port) (f : Frame) (a8 : Nat) (s : State) : Ans :=
  s.onFrame pt f (· == 1) fun s d =>
    let s := s.beaconSession pt d f
    if s.acceptsBeacon pt f then s.beacon pt f a8 else s

/-- BEACON_TIMEOUT (10 R257). -/
def execBeaconTimeout (s : State) : Ans :=
  let due := match s.fab.bcnTick with
    | some t => decide (s.mgmt.inForce.fabBcnTimeout ≤ s.now - t)
    | none => true
  stepIf (s.loopUp && s.fab.locked && due) s (s.setFab { s.fab with locked := false })

/-- BEACON_RELAY: the relay's exact boundary (10 R258); one that has passed is dropped. -/
def execBeaconRelay (s : State) : Ans :=
  match s.fab.relay with
  | none => .next s
  | some (t, pt, f) =>
    let u := s.setFab { s.fab with relay := none }
    stepIf (s.fabricOn && decide (t ≤ s.now)) s (if t = s.now then u.request pt ⟨f, t, 1, none, none⟩ else u.count .bcnLate)

/-- TIME_EVENT_FIRE: the count equals or passes the event (10 R260, 06 R144). -/
def execTimeEventFire (s : State) : Ans :=
  match s.fab.event with
  | none => .next s
  | some c =>
    let a := s.mgmt.inForce
    let qs := (List.range 4).filter fun q => a.sqTriggered q && decide (0 < a.sqLen q) && a.sqTrig q == 1
    let t := s.setFab { s.fab with event := none }
    stepIf (s.loopUp && decide (c.toNat ≤ s.clock.meridian.toNat)) s
      (if s.measUp then qs.foldl (fun s q => (s.trigger q).1) t else t)

/-! ## Publish slots (10 R246) -/

/-- The latest count c at or before the present one with (c - phase) mod period = 0, when the present boundary reached or
passed it (10 R246). -/
def State.slotCount (s : State) (n : Nat) : Option Nat :=
  let a := s.mgmt.inForce
  let period := a.pubPeriod n
  let now := s.clock.meridian.toNat
  let back := (((now : Int) - (a.pubPhase n : Int)) % (period : Int)).toNat
  if period = 0 ∨ now < back then none
  else if s.clock.prev.toNat < now - back then some (now - back) else none

/-- PUBLISH_SLOT: the earliest waiting buffer, while fabric time is LOCKED, the device has a node and no duplicate
(10 R246). -/
def execPublishSlot (n : Fin 4) (s : State) : Ans :=
  match s.slotCount n.val with
  | none => .next s
  | some c =>
    let due := s.portOn .loop && s.fab.locked && !s.unassigned && !s.fab.dup && s.fab.pubDone.getD n.val none != some c
    let t := s.setFab { s.fab with pubDone := s.fab.pubDone.set n.val (some c) }
    match s.fab.pubQueue with
    | [] => stepIf due s t
    | (b, since) :: bs =>
      let bytes := s.bufRead b (16 + 8 * (s.bufRead b 2 |>.getD 1 0).toNat)
      let a := s.mgmt.inForce
      let f := s.mkFrame (BitVec.ofNat 12 a.pubDest) 5 s.fab.pubSeq bytes (modeOfCode (a.pubMode n.val))
      stepIf due s ((t.setFab { t.fab with pubQueue := bs }).requestNow .loop ⟨f, max s.now (since + 200), 3, none, some b⟩)

/-! ## Commands that commit fabric fields (12 R311) -/

/-- Commit fields and post the line token that carries them (12 R311). -/
def State.commitLine (s : State) (fs : List (Nat × Int)) : State :=
  let m := s.mgmt.bindFields fs
  s.setMgmt { m with pendLine := some ⟨m.committed, s.now, none, false⟩ }

/-- Who may send FAB_ASSIGN: the local host, a host of the segment that the new address names, an address with FABRIC; not by
broadcast, since DEST must be node 0 or the own address (10 R251). -/
def assignRight (s : State) (p : Packet) : Bool :=
  let seg := leAt p.params 8 2 / 64
  p.src != 0x90 && (p.src == 0x01 || (segOf p.sender == seg && (nodeOf p.sender == 0 || nodeOf p.sender == 63)) || s.hasRight p 4)

/-- FAB_ASSIGN (10 R251, R252). -/
def execFabAssign (p : Packet) (s : State) : Ans :=
  .next (s.runCmd { plainCmd 0x0501 (· == 12) with right := assignRight } p fun s _ ps =>
    let uid := leAt ps 0 8
    let addr := leAt ps 8 2
    let s := if s.assignClash uid addr then s.setDup else s
    if uid ≠ Config.uid.toNat ∨ addr % 64 = 63 ∨ 4096 ≤ addr ∨ !rsvdZero ps 10 2 then .done s stBadParam []
    else
      let s := s.commitLine [(fid 9 0 0, (addr : Int))]
      .done (s.setFab { s.fab with assigned := true }) stOk [])

/-- FAB_BEARING_WRITE (10 R253). -/
def execFabBearingWrite (p : Packet) (s : State) : Ans :=
  .next (s.runCmd { plainCmd 0x0502 (fun l => 3 ≤ l && l ≤ 66) with fits := fun ps => ps.length == 2 + leAt ps 1 1 } p
    fun s _ ps =>
    let first := leAt ps 0 1
    let n := leAt ps 1 1
    let codes := (ps.drop 2).map fun b => b.toNat
    let es := (List.range n).map fun i => (first + i, codes.getD i 0)
    let own := s.mgmt.committed.fabAddr / 64
    if 64 < first + n ∨ (es.any fun e => decide (2 < e.2) || (e.1 == own && e.2 != 1)) then .done s stBadParam []
    else .done (s.commitLine (es.map fun e => (fid 11 0 e.1, (e.2 : Int)))) stOk [])

/-- FAB_BEARING_READ: the committed table (10 R253). -/
def execFabBearingRead (p : Packet) (s : State) : Ans :=
  .next (s.runCmd (plainCmd 0x0503 (· == 0)) p fun s _ _ =>
    .done s stOk ((List.range 64).flatMap fun g => leBytes 1 (s.mgmt.committed.bearing g)))

/-- One session in FAB_SESSIONS (12 Table 12-17). -/
def State.sessionBytes (s : State) (n : Nat) : List Byte :=
  let x := s.fab.sess n
  let held := s.mgmt.assemblies.any fun a => a.src.toNat == 0x80 + n
  if x.opened then
    leBytes 2 x.addr.toNat ++ leBytes 1 (1 + 2 * b2n x.running + 4 * b2n held) ++ [x.seq.getD 0] ++
    leBytes 4 (min (s.now - x.last) 0xFFFFFFFF)
  else zeros 8

/-- FAB_SESSIONS (10 R249). -/
def execFabSessions (p : Packet) (s : State) : Ans :=
  .next (s.runCmd { plainCmd 0x0504 (· == 0) with needs := fun _ _ => [.loop] } p fun s _ _ =>
    .done s stOk ((List.range 16).flatMap s.sessionBytes))

/-- How often a number can be divided by 10, up to `fuel` times: the floor of its decimal logarithm. -/
def log10 : Nat → Nat → Nat
  | 0, _ => 0
  | k + 1, n => if n < 10 then 0 else 1 + log10 k (n / 10)

/-- floor(20 log10(P_g / P_FS)) of a group sum (09 R230). -/
def halfDb (sum : Nat) : Int :=
  let q := 2097152 * fullScalePower
  clampI (-32768) 32767 ((log10 4000 (sum ^ 20 * 10 ^ 2000 / q ^ 20) : Nat) - 2000)

/-- The reported powers of a port; that of a silent group is not stated (09 R230). -/
def State.floorBytes (s : State) (pt : Port) : State × List Byte :=
  if (s.ports.at pt).pg.isEmpty then
    (s, (List.range 8).flatMap fun _ => leBytes 2 (unsignedOf 16 s.mgmt.inForce.mdmFloorInit))
  else (s.ports.at pt).pg.foldl (fun acc v =>
    if v = 0 then let (x, s) := acc.1.draw 16; (s, acc.2 ++ leBytes 2 x.toNat)
    else (acc.1, acc.2 ++ leBytes 2 (unsignedOf 16 (halfDb v)))) (s, [])

/-- Ticks since an event as 4 bytes, saturating; before the first event the value is not stated. -/
def State.ageBytes (s : State) (t : Option Nat) : State × List Byte :=
  match t with
  | some t => (s, leBytes 4 (min (s.now - t) 0xFFFFFFFF))
  | none => let (x, s) := s.draw 32; (s, leBytes 4 x.toNat)

/-- FAB_NOISE_FLOOR (09 R230). -/
def execFabNoiseFloor (p : Packet) (s : State) : Ans :=
  .next (s.runCmd { plainCmd 0x0505 (· == 4) with needs := fun _ _ => [.loop] } p fun s _ ps =>
    let n := leAt ps 0 1
    if 1 < n ∨ !rsvdZero ps 1 3 then .done s stBadParam []
    else
      let pt : Port := if n = 0 then .loop else .spur
      let (s, fl) := s.floorBytes pt
      let (s, age) := s.ageBytes (s.ports.at pt).floorTick
      .done s stOk (leBytes 1 n ++ zeros 1 ++ fl ++ age))

/-! ## FAB_TIME (10 R257, R260; 12 Tables 12-17, 12-18) -/

/-- Results of FAB_TIME (12 Table 12-18). -/
def State.fabTimeBytes (s : State) : State × List Byte :=
  let f := s.fab
  let (s, age) := s.ageBytes f.bcnTick
  (s, leBytes 1 (b2n f.locked) ++ leBytes 1 f.hop.toNat ++ zeros 2 ++ leBytes 4 (unsignedOf 32 f.err) ++
    leBytes 6 s.clock.meridian.toNat ++ leBytes 1 (b2n f.event.isSome) ++ zeros 1 ++
    leBytes 6 (match f.event with
      | some c => c.toNat
      | none => 0) ++ zeros 2 ++ age)

/-- READ for operation 0, OPERATE for 1 to 3 (12 Table 12-17). -/
def fabTimeRight (s : State) (p : Packet) : Bool :=
  let k := leAt p.params 0 1
  s.hasRight p (if 1 ≤ k ∧ k ≤ 3 then 2 else 0)

/-- FAB_TIME with the effect of one operation (12 Table 12-17). -/
def State.fabTime (s : State) (p : Packet) (act : State → Nat → Option State) : State :=
  s.runCmd { plainCmd 0x0506 (· == 8) with right := fabTimeRight, needs := fun _ _ => [.loop] } p fun s _ ps =>
    if 3 < leAt ps 0 1 ∨ !rsvdZero ps 1 1 then .done s stBadParam []
    else match act s (leAt ps 2 6) with
      | none => .done s stNotPermitted []
      | some t =>
        let (t, r) := t.fabTimeBytes
        .done t stOk r

/-- The operation that a FAB_TIME packet names. -/
def fabTimeOp (p : Packet) : Nat := leAt p.params 0 1

/-- Operation 0, and the packets that name no operation (10 R257). -/
def execFabTimeRead (p : Packet) (s : State) : Ans :=
  .next (if 1 ≤ fabTimeOp p ∧ fabTimeOp p ≤ 3 then s else s.fabTime p fun s _ => some s)

/-- Operation 1: set or replace the event (10 R260). -/
def execFabTimeSetEvent (p : Packet) (s : State) : Ans :=
  .next (if fabTimeOp p = 1 then s.fabTime p fun s t => some (s.setFab { s.fab with event := some (BitVec.ofNat 48 t) }) else s)

/-- Operation 2: clear the event (10 R260). -/
def execFabTimeClearEvent (p : Packet) (s : State) : Ans :=
  .next (if fabTimeOp p = 2 then s.fabTime p fun s _ => some (s.setFab { s.fab with event := none }) else s)

/-- Operation 3: an explicit time set at the next boundary, refused while LOCKED (01 R16). -/
def execFabTimeSetCount (p : Packet) (s : State) : Ans :=
  .next (if fabTimeOp p = 3 then s.fabTime p fun s t =>
      if s.fab.locked then none else some { s with clock := { s.clock with timeSet := some (BitVec.ofNat 48 t), slew := none } }
    else s)

/-! ## FAB_PUBLISH_SLOTS (10 R242) -/

/-- The fields of FAB_PUBLISH_SLOTS (12 Table 12-17). -/
def publishFields (ps : List Byte) : List (Nat × Nat) :=
  (fid 9 0 6, leAt ps 0 2) :: (List.range 4).flatMap fun n =>
    [(fid 10 n 0, leAt ps (4 + 12 * n) 4), (fid 10 n 1, leAt ps (8 + 12 * n) 4), (fid 10 n 2, leAt ps (12 + 12 * n) 1)]

/-- FAB_PUBLISH_SLOTS (10 R242, 12 R311). -/
def execFabPublishSlots (p : Packet) (s : State) : Ans :=
  .next (s.runCmd (plainCmd 0x0507 (· == 52)) p fun s _ ps =>
    let fs := publishFields ps
    let rsvd := rsvdZero ps 2 2 && (List.range 4).all fun n => rsvdZero ps (13 + 12 * n) 3
    let bad := (List.range 4).any fun n =>
      (firstFail (publishChecks n (leAt ps (4 + 12 * n) 4) (leAt ps (8 + 12 * n) 4) (leAt ps (12 + 12 * n) 1))).isSome
    if !rsvd || bad || (fs.any fun f => (fieldOfWire f.1 f.2).isNone) then .done s stBadParam []
    else .done (s.commitLine (fs.map fun f => (f.1, (f.2 : Int)))) stOk [])

end Sys2Proof.Machine
end

