-- ==== Sys2Proof/Machine/M16.lean ====
section
/-! DEFINITION. The M16-compatible commands (12 R313, 02 R44, 14 R363): each runs its native counterpart's rules on the native
parameters that its bytes stand for, and answers in the M16 layout. -/

namespace Sys2Proof.Machine

open Sys2Proof

/-- The shell of an M16 command (12 R313). -/
def m16Cmd (op : Nat) : Cmd := { plainCmd op (Config.m16Length op) with m16 := true }

/-- An M16 command ends in the M16 form of a native status and result. -/
def m16Done (op : Nat) (s : State) (status : Nat) (res : List Byte) : Done :=
  .done s (m16Answer op status res).1 (m16Answer op status res).2

/-- The M16 form of what native rules give; a command that waits keeps its native request (12 R313). -/
def Done.toM16 (op : Nat) : Done → Done
  | .done s st r => m16Done op s st r
  | d => d

/-- An M16 command that runs native rules. -/
def State.runM16 (s : State) (c : Cmd) (p : Packet) (own : State → List Byte → Done) : State :=
  s.runCmd c p fun s _ ps => (own s (Config.m16Params c.op ps)).toM16 c.op

/-- What native rules that end at once give. -/
def answered (r : State × Nat × List Byte) : Done := .done r.1 r.2.1 r.2.2

/-- An M16 command that needs MEAS; `waits` for its event. -/
def m16Meas (op : Nat) (waits : Bool) : Cmd := { m16Cmd op with needs := fun _ _ => [.meas], waits := waits }

/-- An M16 command that needs LOOP; `waits` for its event. -/
def m16Loop (op : Nat) (waits : Bool) : Cmd := { m16Cmd op with needs := fun _ _ => [.loop], waits := waits }

/-! ## Conversions and readings -/

def execStartConv (p : Packet) (s : State) : Ans := .next (s.runM16 (m16Meas 0x0F10 true) p State.seqStart)

def execStopConv (p : Packet) (s : State) : Ans := .next (s.runM16 (m16Meas 0x0F11 true) p State.seqStop)

def execTrigConv (p : Packet) (s : State) : Ans := .next (s.runM16 (m16Meas 0x0F12 true) p State.seqTrigger)

/-- READ_CHANNEL: the M16 channels are CH0 to CH15 (12 R313). -/
def execReadChannel (p : Packet) (s : State) : Ans :=
  .next (s.runM16 (m16Meas 0x0F20 false) p fun s ps =>
    if 15 < leAt ps 0 1 then .done s stBadParam [] else answered (s.linRead ps))

def execReadPv (p : Packet) (s : State) : Ans := .next (s.runM16 (m16Meas 0x0F21 false) p fun s ps => answered (s.varRead ps))

/-! ## Loop -/

def execLoopFix (p : Packet) (s : State) : Ans := .next (s.runM16 (m16Loop 0x0F30 true) p State.setFixed)

def execLoopFree (p : Packet) (s : State) : Ans := .next (s.runM16 (m16Loop 0x0F31 true) p fun s _ => s.releaseFixed)

/-- A trim command at a point of its own, at the declared cost of one page (12 R313). -/
def State.runTrim (s : State) (op point : Nat) (p : Packet) : State :=
  s.runM16 { m16Loop op false with cost := fun _ _ => 6 } p fun s ps =>
    answered (s.loopTrim (leBytes 1 point ++ zeros 3 ++ (ps.drop 4).take 4))

def execLoopTrimZero (p : Packet) (s : State) : Ans := .next (s.runTrim 0x0F32 1 p)

def execLoopTrimSpan (p : Packet) (s : State) : Ans := .next (s.runTrim 0x0F33 2 p)

/-! ## Calibration, configuration, identity -/

/-- CAL_WRITE: the factory gain and offset constants in NVM; MEAS loads them at its next start (14 R363). -/
def execCalWrite (p : Packet) (s : State) : Ans :=
  .next (s.runCmd { m16Cmd 0x0F40 with cost := fun _ ps => 6 * Config.m16Pages 0x0F40 ps } p fun s _ ps =>
    m16Done 0x0F40 (s.setNvm { s.nvm.wrote calPages with calBlock := Config.m16CalBlock ps s.nvm.calBlock }) stOk [])

def execCalRead (p : Packet) (s : State) : Ans :=
  .next (s.runCmd { m16Cmd 0x0F41 with reads := fun _ _ => calPages } p fun s _ ps => m16Done 0x0F41 s stOk (ps ++ s.nvm.calBlock))

def execSaveConfig (p : Packet) (s : State) : Ans :=
  .next (s.runCmd { m16Cmd 0x0F50 with cost := fun _ _ => 150 } p fun s p _ => (answered (s.almSave p)).toM16 0x0F50)

def execIdentify (p : Packet) (s : State) : Ans :=
  .next (s.runM16 (m16Cmd 0x0F60) p fun s _ => .done s stOk s.identifyBytes)

def execStatus (p : Packet) (s : State) : Ans :=
  .next (s.runM16 (m16Cmd 0x0F61) p fun s _ => .done s.clearOverrun stOk s.statusBytes)

/-! ## Registers (02 R44, R45) -/

/-- REG_READ: what a register reads as follows from what the 64 registers hold; of a register whose contents the device itself
makes, which the spec does not state, a fresh value stands beside it (notes/assumptions/67). DESIGN CHOICE (notes/assumptions/106): 02 R44
keeps the side effects of the registers and lists none; a read has none. -/
def execRegRead (p : Packet) (s : State) : Ans :=
  .next (s.runCmd (m16Cmd 0x0F01) p fun s _ ps =>
    let (x, s) := s.draw 512
    m16Done 0x0F01 s stOk (ps ++ s.mgmt.m16Regs.toList ++ leBytes 64 x.toNat))

/-- The registers hold what a register write puts into them: address and byte. -/
def Mgmt.putRegs (m : Mgmt) (ws : List (Nat × Byte)) : Mgmt :=
  { m with m16Regs := ws.foldl (fun r w => r.setIfInBounds w.1 w.2) m.m16Regs }

/-- The fields that a register write names: those of its registers, and GPIO_OUTn and GPIO_DIRn = 1 for an output bit of GPO0
or GPO1 (02 R45). -/
def m16Writes (ps : List Byte) : List (Nat × Int) :=
  Config.m16Fields ps ++ [0, 1].flatMap fun n => match Config.m16Gpo n ps with
    | some b => [(fid 13 0 (3 + n), if b then (1 : Int) else 0), (fid 13 0 n, (1 : Int))]
    | none => []

/-- Write fields into the shadow and the committed copy alone, and L fields into force (12 R311, 00 R2). -/
def Mgmt.commitFields (m : Mgmt) (fs : List (Nat × Int)) : Mgmt :=
  let m := m.bindFields fs
  { m with inForce := fs.foldl (fun a f => match fieldRow f.1 with
    | some r => if r.apply = .live then a.set f.1 f.2 else a
    | none => a) m.inForce }

/-- The measurement fields of a register write, in a map of their own; none where the write changes no measurement field, where a
retirement or restoration is under way, or where the committed copy compiles to no map: the fields then wait for the next apply
(notes/assumptions/67). -/
def State.regMap (s : State) (m : Mgmt) : Option (SlotMap × List SlotMap) :=
  if s.mgmt.committed.differKind m.committed .meas && !s.mapBusy then
    (m.committed.compile (s.newLevel .mgmt) s.meas.inService s.sources).toOption
  else none

/-- REG_WRITE's own rules: the checks of 12 R308 on its fields, of which the stop-only rule alone refuses; then the registers
hold the bytes, and the fields are committed, with their tokens (00 R3, 12 R311, R313). A trigger pin bars ALM_WRITE alone
(02 R45). -/
def State.regWrite (s : State) (ps : List Byte) : Done :=
  let fs := m16Writes ps
  let wire := fs.map fun f => (f.1, unsignedOf 32 f.2)
  let dear := (fs.any fun f => f.1 / 2048 == 0) && s.overBudget (s.mgmt.shadow.withEntries wire)
  if fs.any fun f => fieldOfWire f.1 (unsignedOf 32 f.2) ≠ some f.2 then .done s stBadParam []
  else match wire.findSome? (s.fieldStatus dear) with
    | some st => .done s st []
    | none =>
      let m := (s.mgmt.commitFields fs).putRegs (Config.m16RegBytes ps)
      .done ((s.setMgmt m).postTokens (s.regMap m)) stOk []

def execRegWrite (p : Packet) (s : State) : Ans :=
  .next (s.runCmd (m16Cmd 0x0F02) p fun s _ ps => (s.regWrite ps).toM16 0x0F02)

end Sys2Proof.Machine
end

