-- ==== Sys2Proof/Machine/Tick.lean ====
section
/-! DEFINITION. TICK_BOUNDARY (01 R14): the count, the round clock, what the tick before sampled, the filters and comparators,
the governor's clock of MGMT, the loop stages, the ports, and the trace formatter; TRACE_SYNC (15 R375). -/

namespace Sys2Proof.Machine

open Sys2Proof

/-! ## The count and the pins (01 R14, R16; 02 R33, R45; 06 R144) -/

/-- The clock at the next boundary: a slew moves the count by 2 or holds it, an explicit set replaces it (01 R16). -/
def Clock.advance (c : Clock) : Clock :=
  { c with
    tick := c.tick + 1, prev := c.meridian, slew := none, timeSet := none
    meridian := match c.timeSet with
      | some v => v
      | none => match c.slew with
        | none => c.meridian + 1
        | some true => c.meridian + 2
        | some false => c.meridian }

/-- A pin reading at a boundary: a level is accepted at its second reading in a row (02 R33). -/
def Filtered.read (f : Filtered) (v : Bool) : Filtered := ⟨v, if v = f.last then v else f.level⟩

/-- A reading of a trigger pin: a rising edge is accepted at the second high reading after an accepted low (06 R144). -/
def TrigPin.read (p : TrigPin) (v : Bool) : TrigPin := ⟨if v = p.last then v else p.level, v, v && p.last && !p.level⟩

/-- The pins at a boundary. -/
def Pins.read (p : Pins) (i : TickIn) : Pins :=
  { p with
    blank := p.blank.read i.blank, rstN := p.rstN.read i.rstN, gpioIn := i.gpio
    trig0 := p.trig0.read (i.gpio.getLsbD 0), trig1 := p.trig1.read (i.gpio.getLsbD 1), trig2 := p.trig2.read (i.gpio.getLsbD 2) }

/-- What the GPIO outputs drive: the fields in force once MGMT has loaded the almanac; until then the pins stay as they are
(02 R45). -/
def State.gpioNow (s : State) : List (Option Bool) :=
  if s.boot = .done ∧ !s.mgmt.toLoad then (List.range 3).map fun n => if s.mgmt.inForce.gpioDir n then some (s.mgmt.inForce.gpioOut n) else none
  else s.pins.gpioDrive

/-! ## The round clock (06 R131, 04 R88 to R92, 10 R261) -/

/-- The round clock at the next boundary of a map of `len` positions. -/
def Round.advance (r : Round) (len : Nat) : Round :=
  if !r.on then r
  else match r.freeze with
    | .run =>
      let r := { r with passed := min 1000 (r.passed + 1) }
      if r.pos + 1 < len then { r with pos := r.pos + 1, due := false }
      else if 0 < r.idle then { r with pos := len, idle := r.idle - 1, due := false }
      else { r with pos := 0, due := true, held := false, skipped := [] }
    | .preamble p left => if left ≤ 1 then { r with freeze := .run, pos := p } else { r with freeze := .preamble p (left - 1) }
    | .frozen _ => r

/-- Ticks of an accepted high level of BLANK, and the end of its being ignored (04 R92): `was` is the level of the tick that
ends. -/
def Round.countBlank (r : Round) (en was level : Bool) : Round :=
  { r with
    blankIgnored := r.blankIgnored && level
    blankTicks :=
      let n := if was && en && !r.blankIgnored then r.blankTicks + 1 else r.blankTicks
      if level || r.freeze != .run then n else 0 }

/-- What the tick that ends sampled: each active position of its round position, converted or filled by the channel's
previous sample (04 R91, 05 R97, R113; 06 R137, R148). -/
def State.sampledNow (s : State) : List Sampled :=
  let m := s.meas
  if s.measUp && m.round.passing then
    (m.map.pos.filter fun p => p.t == m.round.pos).filterMap fun p =>
      let nc := match p.kind.chan with
        | some c => m.map.nc c
        | none => 0
      let mk (f : Fill) (g n : Nat) : Sampled := ⟨p.sl, p.kind, f, g, s.now, s.clock.meridian, m.round.count, nc, n⟩
      match m.taken.find? fun t => t.sl == p.sl && t.kind == p.kind with
      | some t => some (mk (.conv t.conv) t.gain t.nth)
      | none => match p.kind with
        | .slot ch _ _ _ _ => if m.posActive s.mgmt.inForce p.kind then some (mk .reuse (m.chan ch).gain 0) else none
        | _ => none
  else []

/-- What the tick's own steps left undone: acknowledgements, clearings and injections that AON took at its boundary (13 R317,
R332, R337), samples and entries of an earlier tick (05 R97). -/
def State.flushTick (s : State) : State :=
  let s := if s.faults.acks.isEmpty && s.faults.clears.isEmpty then s else s.endCollect
  let s := if s.faults.armReq.isEmpty then s else s.armDue
  if s.measUp && (!s.meas.sampled.isEmpty || s.meas.sxEntries.any fun e => decide (e.2 ≤ s.now)) then s.correct else s

/-- The tick that ends was that of a running window's last position: the window is over (06 R145). -/
def Meas.windowsPass (m : Meas) (pos : Nat) : Meas :=
  (List.range 4).foldl (fun m q =>
    let x := m.seq q
    let last (k : Nat) : Bool := x.laps == 0 && m.map.lastPos q k == some pos
    if (match x.trig with
      | .running k => last k
      | .runningPending k => last k
      | _ => false) then m.setSeq q { x with ended := true } else m) m

/-- MEAS and the round clock pass the boundary; the clock has advanced. `sampled` and `passed` are those of the tick that
ended, `was` its level of BLANK. -/
def State.measTick (s : State) (sampled : List Sampled) (passed was : Bool) : State :=
  let a := s.mgmt.inForce
  let m := s.meas
  let r := (m.round.advance m.map.len).countBlank a.blankEn was s.pins.blank.level
  let m := { m with round := r, taken := [], sampled := sampled }
  let m := if passed then (m.sxPass a s.now s.clock.prev r.pos).windowsPass s.meas.round.pos else m
  s.setMeas (if s.measUp && r.passing && !r.due then m.sxStart a s.now r.pos else m)

/-! ## Trace on and off (15 R376) -/

/-- Whether trace is on (15 R376); its pins stay low while RST_N is low (02 R31). -/
def State.traceOn (s : State) : Bool :=
  s.isl.aon.up && !s.pins.inReset && match s.energy.season with
    | .summer => true
    | .autumn => true
    | _ => false

/-- Trace goes on or off: a resumption asks for a SYNC, and what waits when it goes off is lost (15 R375, R376). -/
def State.traceSwitch (s : State) : State :=
  let on := s.traceOn
  if on then s.setObs { s.obs with on := true, syncDue := s.obs.syncDue || !s.obs.on }
  else
    let n := s.obs.fifo.length
    let s := s.setObs { s.obs with
      on := false, fifo := [], sending := [], slotFree := true, lost := s.obs.lost + n, dropDue := s.obs.dropDue || n != 0 }
    s.countN .trcDrop n

/-! ## Supplies and seasons (03 R47, R48, R55, R56, R65) -/

/-- The governor enters a season: DB_SEASON, the ENERGY message, the register, and trace from this boundary on (03 R55, R56; 11
Table 11-13; 15 R376). It holds its season while the AON core is down (13 Table 13-5). -/
def State.enterSeason (s : State) (x : Season) : State :=
  if s.energy.season = x ∨ !s.isl.aon.up then s
  else (((s.setEnergy { s.energy with season := x }).ring 10).emitEnergy).updateRegister.traceSwitch

/-- The buck converter's input (03 R47, R60, R65). -/
def Energy.buckNow (e : Energy) : BuckIn :=
  if e.aux then .auxIn else if e.below85 && !e.vres90 then .resv else .loopIn

/-- The comparators of 03 R48, and of VIO (16 R385), at a boundary, with the counts of 03 Table 3-11 and the season change that they decide. -/
def Energy.compare (e : Energy) (i : TickIn) : Energy :=
  let e := { e with
    below85 := i.loopBelow85, below86 := i.loopBelow86, buck70 := i.buckBelow70, vres90 := i.vresBelow90,
    vres110 := i.vresBelow110, vioFold := i.vioBelow25 }
  { e with
    lowCount := if e.lowCount = 8 then 9 else if e.below85 && e.vres90 && !e.aux then min 9 (e.lowCount + 1) else 0
    buckCount := if e.buckCount = 2 then 3 else if e.buck70 then min 3 (e.buckCount + 1) else 0
    toWinter := e.season != .winter && !e.aux && (e.below85 || e.vres110)
    buck := e.buckNow }

/-- The season that the averages give once AUX has cleared (03 Table 3-6). -/
def Energy.afterAux (e : Energy) : Season :=
  if 14000 ≤ e.resAvg then .summer else if 11000 ≤ e.resAvg then .autumn else .winter

/-- AUX clears (03 R60, R62, Table 3-6). -/
def State.auxLoss (s : State) : State :=
  let e := { s.energy with aux := false }
  ((s.setEnergy { e with buck := e.buckNow }).enterSeason e.afterAux).auxCheck

/-- The SUP_AUX alarm is withdrawn; its faults stay open until they are acknowledged (13 R324). -/
def State.withdrawAuxAlarm (s : State) : State :=
  if s.faults.opens.any (·.aux) then
    let f := { s.faults with opens := s.faults.opens.map fun (o : Open) => { o with aux := false } }
    (s.setFaults f.showAlarms.prune).schedule (s.now + 5) (.auxAlarm false)
  else s

/-- A heavy task, or a boost, runs as far as the state shows it (03 R47, R57). -/
def Energy.heavy (e : Energy) : Bool := e.boostEnd.isSome || e.reserved.any fun r => decide (r.1 < 0x10000)

/-- A restarted island's image is re-hashed with VRES above 8.8 V: the protected band is open to it (03 R54, R59). -/
def State.rehash (s : State) (i : Island) : Bool :=
  let x := s.isl.at i
  x.down && s.boot == .done && x.resetAt.isSome && x.released && decide (8800 < s.energy.resReads.headD 0)

/-- A fault log or fatal-snapshot write draws in the tick that begins: a snapshot waits, or a fault was logged in the tick that ends
(03 R54). -/
def State.logWrite (s : State) : Bool :=
  (!s.faults.snapWait.isEmpty || (s.faults.log.head?.any fun e => e.tick == s.clock.prev)) && decide (8800 < s.energy.resReads.headD 0)

/-- RESV gives the extra draw of a heavy task or boost while VRES is at or above 9.0 V, and that of a re-hash or a log write down to
8.8 V; below 9.0 V a heavy task's engines go to their low-power mode (03 R47, R54). -/
def State.extraTick (s : State) : State :=
  let e := s.energy
  s.setEnergy { e with
    extra := !e.aux && (e.heavy && !e.vres90 || [Island.mgmt, .loop, .meas, .aon].any s.rehash || s.logWrite)
    lowPower := e.heavy && e.vres90 && !e.aux }

/-- AUX is set: SUMMER, and the stopped sequences start again at the next round start (03 R60, R62). -/
def State.auxDetect (s : State) : State :=
  let s := s.setEnergy { s.energy with aux := true, buck := .auxIn }
  let m := (maskSeqs s.energy.auxStopped.toNat).foldl (fun m q => m.setSeq q { m.seq q with startFrom := some s.now }) s.meas
  let s := (s.setMeas m).setEnergy { s.energy with auxStopped := 0, auxLost := false }
  s.enterSeason .summer

/-- The change of AUX that the boundary before brought about (03 R60); while AUX is set the season is held at SUMMER, which a
governor that was down then enters (03 R61). -/
def State.auxTick (s : State) : State :=
  let t := s.setEnergy { s.energy with auxNext := none }
  match s.energy.auxNext with
  | some true => t.auxDetect
  | some false => t.auxLoss
  | none => if s.energy.aux then s.enterSeason .summer else s

/-- AUX and the season change that the comparators of the boundary before decided; the present ones (03 R48, Table 3-6). -/
def State.supplyTick (s : State) (i : TickIn) : State :=
  let s := s.auxTick
  let s := if s.energy.toWinter && !s.energy.aux then s.enterSeason .winter else s
  s.setEnergy (s.energy.compare i)

/-- The MGMT clock of the tick that begins (03 R59, R61, R394, Table 3-7): 0 = 8, 1 = 16, 2 = 32, 3 = 64 MHz. -/
def State.freqNow (s : State) : Nat :=
  let e := s.energy
  let top := s.mgmt.inForce.mgmtFmax
  if s.isl.mgmt.down then (if s.rehash .mgmt then 3 else 0)
  else if e.aux then top
  else if e.heavy && e.vres90 then 0
  else match e.season with
    | .summer => if s.mgmtWork then top else 0
    | .autumn => if e.boostEnd.isSome then top else 0
    | _ => 0

/-- A boost of 500 ticks that has ended releases its reservation (03 R57, R394). -/
def Energy.endBoost (e : Energy) (now : Nat) : Energy :=
  match e.boostEnd with
  | some t => if t ≤ now then { e with boostEnd := none, reserved := e.reserved.filter fun r => r.1 ≠ 0xFFFE } else e
  | none => e

/-- The MGMT clock changes at a tick boundary (03 R394). -/
def State.clockTick (s : State) : State :=
  let s := s.setEnergy (s.energy.endBoost s.now)
  let s := s.extraTick
  if s.freqNow = s.energy.freq then s else (s.setEnergy { s.energy with freq := s.freqNow }).emitEnergy

/-- Supplies, season and MGMT clock at a boundary; a season change updates the register with the clock that comes with it
(03 R56). -/
def State.powerTick (s : State) (i : TickIn) : State :=
  let t := (s.supplyTick i).clockTick
  if t.energy.season = s.energy.season then t else t.updateRegister

/-! ## The trace formatter (15 R372 to R377) -/

/-- At most one SYNC, or DROP, begins in any 64 slots (15 R375, R376). -/
def slotOk (last : Option Nat) (now : Nat) : Bool := match last with
  | some t => decide (t + 64 ≤ now)
  | none => true

/-- The word that the slot beginning now carries, and whether it is a message's first. A slot in which a SYNC is to start
stays free for it. -/
def Obs.slot (o : Obs) (now : Nat) (count : Count48) : Obs × Word32 × Bool :=
  match o.sending with
  | w :: ws => ({ o with sending := ws, slotFree := false }, w, false)
  | [] =>
    if o.syncDue && slotOk o.lastSync now then ({ o with slotFree := true }, 0, false)
    else if o.dropDue && slotOk o.lastDrop now then
      ({ o with slotFree := false, dropDue := false, lost := 0, lastDrop := some now }, traceHead 2 1 count (min o.lost 65535), true)
    else match o.fifo with
      | (w :: ws) :: ms => ({ o with slotFree := false, sending := ws, fifo := ms }, w, true)
      | _ => ({ o with slotFree := true }, 0, false)

/-- The trace tokens that cross at the present boundary, of AON, MEAS, LOOP and MGMT, and the channels without them
(15 R374, 01 R18). -/
def Obs.tokens (o : Obs) : List TraceMsg := [Island.aon, .meas, .loop, .mgmt].flatMap fun i => (o.chan.at i).take 1
def Obs.passed (o : Obs) : Obs :=
  { o with chan := ⟨o.chan.mgmt.drop 1, o.chan.loop.drop 1, o.chan.meas.drop 1, o.chan.aon.drop 1⟩ }

/-- The formatter takes in a message that it consumed at the present boundary: a disabled class is dropped in silence; a message that
trace being off or the FIFO of 32 words keeps out is lost (15 R374, R376). A SYNC occupies no FIFO space (15 R375). -/
def State.consumeTrace (s : State) (m : TraceMsg) : State :=
  let rest := if s.obs.lastSync = some s.now then 0 else s.obs.sending.length
  let used := rest + (s.obs.fifo.map List.length).sum
  if !s.obs.mask.getLsbD m.typ then s
  else if s.obs.on && decide (used + m.words.length ≤ 32) then s.setObs { s.obs with fifo := s.obs.fifo ++ [m.words] }
  else s.traceLost m.typ

/-- At the end of a tick the messages consumed at its boundary are in the FIFO, or lost, as its season decided. -/
def State.fileTrace (s : State) : State := s.obs.inbox.foldl State.consumeTrace (s.setObs { s.obs with inbox := [] })

/-- The formatter at a boundary: SYNC's conditions, the slot, then the tokens that crossed (15 R374, R375, R377). `moved` says that the
count was slewed or set. -/
def State.traceTick (s : State) (moved : Bool) (toks : List TraceMsg) : State :=
  let o := s.obs
  let s := s.setObs { o with
    syncDue := o.syncDue || moved || s.clock.meridian.toNat % 512 == 0 }
  let s := s.traceSwitch
  let (o, w, mark) := if s.obs.on then s.obs.slot s.now s.clock.meridian else (s.obs, 0, false)
  (s.setObs { o with inbox := toks }).setPins { s.pins with trcWord := w, trcMark := mark }

/-- TRACE_SYNC: a SYNC that is due starts in the present slot, ahead of every waiting message, and a DROP follows it
(15 R375, R376). -/
def execTraceSync (s : State) : Ans :=
  let o := s.obs
  let c := s.clock.meridian
  let t := s.setObs { o with
    sending := [BitVec.ofNat 32 (c.toNat % 4294967296)], slotFree := false, syncDue := false, lastSync := some s.now,
    dropDue := true }
  stepIf (s.clock.powered && !s.pins.inReset && o.on && o.syncDue && o.slotFree && slotOk o.lastSync s.now) s
    (t.setPins { s.pins with trcWord := traceHead 1 2 c (c.toNat / 4294967296), trcMark := true })

/-! ## Parity of the crossing tokens (13 Table 13-2, R333, R334) -/

/-- The islands that a token passes from and to (01 Table 1-4). -/
def tokenEnds : Token → Island × Island
  | .alarm => (.aon, .loop)
  | .dacHold => (.loop, .aon)
  | .feed => (.meas, .loop)
  | .measApply => (.mgmt, .meas)
  | .loopApply => (.mgmt, .loop)
  | .lineApply => (.mgmt, .loop)
  | .relay => (.mgmt, .loop)
  | .tapDrain => (.meas, .mgmt)
  | .report i => (i, .aon)
  | .trace i => (i, .aon)
  | .notice k => ((mbFrom k).getD .mgmt, (mbTo k).getD .mgmt)
  | .ack k => ((mbTo k).getD .mgmt, (mbFrom k).getD .mgmt)

/-- Every kind of token, in the order in which a boundary's crossings use up an armed count: that of 01 R20, which the spec gives for
the tokens of one receiver (DESIGN CHOICE, notes/assumptions/29). -/
def allTokens : List Token :=
  [.alarm, .report .mgmt, .report .loop, .report .meas, .dacHold, .feed, .measApply, .loopApply, .lineApply, .tapDrain, .relay,
   .trace .mgmt, .trace .loop, .trace .meas] ++ [2, 3, 4, 5, 6, 7].map .notice ++ [2, 3, 4, 5, 6, 7].map .ack

/-- Whether an apply token was posted in the tick that ends: it crosses at the present boundary (01 R17). -/
def State.crossing (s : State) (t : Option ApplyTok) : Bool := match t with
  | some t => t.posted + 1 == s.now
  | none => false

/-- Changes of the commanded code's sources that cross `lag` ticks before they act: an alarm command to LOOP, an update to AON. -/
def CodeEv.crosses (e : CodeEv) (update : Bool) (now : Nat) : Bool :=
  match e.act with
  | .update _ => update && e.at_ == now + 2
  | .hwAlarm _ => !update && e.at_ == now + 4
  | .auxAlarm _ => !update && e.at_ == now + 4
  | _ => false

/-- A mailbox whose notice, or acknowledge, is discarded on its way (13 R333). -/
def State.loseMb (s : State) (k : Nat) : State := s.setWin (s.win.setMb k { s.win.mbAt k with lost := true })

/-- The state without a token that crosses at the present boundary; `none` when no such token crosses. A feed's parity is read in the
check tick, which ends at the present boundary (01 R19). -/
def State.without (s : State) (t : Token) : Option State :=
  let m := s.mgmt
  let dropEvs (update : Bool) : Option State :=
    if s.loop.sched.any (·.crosses update s.now) then
      let l := { s.loop with sched := s.loop.sched.filter fun e => !e.crosses update s.now }
      some (s.setLoop (if update then { l with skipped := [] } else l))
    else none
  match t with
  | .alarm => if s.loopUp then dropEvs false else none
  | .dacHold => dropEvs true
  | .feed => match s.loop.feed with
    | some f => if s.loopUp && !s.loop.replaying && f.posted + 2 == s.now then some (s.setLoop { s.loop with feed := none }) else none
    | none => none
  | .relay => match s.fab.relayOut with
    | e :: es => if s.loopUp && decide (e.2 < s.now) then some (s.setFab { s.fab with relayOut := es }) else none
    | [] => none
  | .report i =>
    let mine (r : Report) : Bool := r.from == some i && decide (r.posted < s.now)
    if s.faults.reports.any mine then some (s.setFaults { s.faults with reports := s.faults.reports.eraseP mine }) else none
  | .notice k => if (s.win.mbAt k).untaken && (s.win.mbAt k).since + 1 == s.now then some (s.loseMb k) else none
  | .ack k => match (s.win.mbAt k).ack with
    | some (_, _, t) => if !(s.win.mbAt k).lost && t + 1 == s.now then some (s.loseMb k) else none
    | none => none
  | .measApply => if s.crossing m.pendMeas then some (s.setMgmt { m with pendMeas := none }) else none
  | .loopApply =>
    if s.crossing m.startLoop then some (s.setMgmt { m with startLoop := none })
    else if s.crossing m.pendLoop then some (s.setMgmt { m with pendLoop := none })
    else none
  | .lineApply => if s.crossing m.pendLine then some (s.setMgmt { m with pendLine := none }) else none
  | .tapDrain => if s.drainToken.isEmpty then none else some s.passDrain
  | .trace i => match s.obs.chan.at i with
    | [] => none
    | _ :: ms => some (s.setObs { s.obs with chan := s.obs.chan.put i ms })

/-- One crossing at its receiver: a token with bad parity, by an injection or by itself, is discarded and reported
(13 Table 13-2, R333). A feed's report is posted in its check tick. -/
def State.checkCrossing (s : State) (c : Crossing) : State :=
  let e := tokenEnds c.tok
  if c.err || s.parityArmed e.1 e.2 then (match s.without c.tok with
    | some t => if c.tok = .feed then t.parityErrorAt e.1 e.2 c.err (s.now - 1) s.clock.prev else t.parityError e.1 e.2 c.err
    | none => s)
  else s

/-- Every token that crosses at the present boundary is an access of its sender's BUS_PAR (13 R332); `real` lists those that carry a
real error. -/
def State.checkCrossings (s : State) (real : List Crossing) : State :=
  allTokens.foldl (fun s t => s.checkCrossing ⟨t, real.any fun c => c.tok == t && c.err⟩) s

/-! ## The tick boundary -/

/-- An island that gave its heartbeat in the tick before (13 Table 13-2). -/
def Isl.beat (x : Isl) (b : Bool) (now : Nat) : Isl := if b then { x with lastBeat := now - 1 } else x

/-- The heartbeats of the tick before. -/
def State.beats (s : State) (b : BitVec 4) : State :=
  { s with isl := ⟨s.isl.mgmt.beat (b.getLsbD 0) s.now, s.isl.loop.beat (b.getLsbD 1) s.now, s.isl.meas.beat (b.getLsbD 2) s.now,
    s.isl.aon.beat (b.getLsbD 3) s.now⟩ }

/-- The counters as they stood at the last two boundaries (15 R379). -/
def Obs.snapshot (o : Obs) : Obs := { o with at2 := o.at1, at1 := o.live }

/-- A finished FSK transmission ends (09 R238). -/
def State.endFsk (s : State) : State :=
  let ended := match s.fsk.sendEnd with
    | some t => decide (t ≤ s.now)
    | none => false
  if ended then { s with fsk := { s.fsk with send := [], sendEnd := none, cdTick := s.now } } else s

/-- Waiting posts enter the mailboxes that are free (01 R18). -/
def State.enterPosts (s : State) : State := [3, 4, 5, 6, 7].foldl State.postWaiting s

/-- The first buffer of the relay channel that was posted in an earlier tick reaches LOOP, one in each tick (01 R17, R18). While LOOP is
down MGMT keeps its posts, as it does a fabric reply under 11 R288 (DESIGN CHOICE, notes/assumptions/92). -/
def State.relayTick (s : State) : State :=
  match s.fab.relayOut with
  | (b, t) :: es =>
    if s.loopUp && decide (t < s.now) then
      s.setFab { s.fab with relayOut := es, pubQueue := s.fab.pubQueue ++ [(b, s.now)] }
    else s
  | [] => s

/-- The mailboxes at a boundary: late acknowledges, the notices that reach their islands, then posts that waited (01 R17, R18,
R20; 10 R244; 11 R291). -/
def State.mailTick (s : State) : State :=
  if s.pins.inReset then s else s.relayTick.lateAcks.takeNotices.enterPosts.postMb2.postNext

/-- Everything that a tick boundary does (01 R14). -/
def State.boundary (s : State) (i : TickIn) : State :=
  let s := s.fileTrace.attestTick.flushTick
  let sampled := s.sampledNow
  let s := s.visit
  let passed := s.measUp && s.meas.round.passing
  let was := s.pins.blank.level
  let moved := s.clock.slew.isSome || s.clock.timeSet.isSome
  let s := s.setObs s.obs.snapshot
  let s := { s with clock := s.clock.advance }
  let s := s.checkCrossings i.crossings
  let toks := s.obs.tokens
  let s := s.setObs s.obs.passed
  let s := s.setPins (s.pins.read i)
  let s := ((s.measTick sampled passed was).bufferCheck i.bufReady).beats i.beats
  let s := s.powerTick i
  let s := s.setLoop { s.loop with comply := s.loop.comply.tick i.loopBelow85 i.loopBelow86 }
  let s := (((s.loopTick.endFsk.portTick .loop).portTick .spur).mailTick).takeResets
  let s := s.driveExc
  (s.setPins { s.pins with gpioDrive := s.gpioNow }).traceTick moved toks

/-- TICK_BOUNDARY (01 R14): it comes about once the crystal has started. -/
def execTickBoundary (i : TickIn) (s : State) : Ans := stepIf (s.clock.powered && s.clock.running) s (s.boundary i)

end Sys2Proof.Machine
end

