-- ==== Sys2Proof/Machine/Power.lean ====
section
/-! DEFINITION. Supply, start-up and restart: AON power-up and reset, the crystal, the image verification, RST_N, supply readings
and evaluation boundaries (03), brown-out (03 R65), the reference (15 R367), the release and UP of an island (13 R339 to
R341, 11 R289). -/

namespace Sys2Proof.Machine

open Sys2Proof

/-! ## AON power-up and power-on reset (03 R63, R65) -/

/-- What survives a loss of the supply: the NVM and the fuses; the queue of steps and the count of free values are the
model's own. An activation that was pending is not carried out later (notes/assumptions/64). -/
def State.unpowered (s : State) : State :=
  let off (d : SlotDir) : SlotDir := { d with actTick := none }
  let d := s.nvm.dirs
  { State.reset with
    pending := s.pending, free := s.free
    nvm := { s.nvm with dirs := ⟨off d.mgmt, off d.loop, off d.meas, off d.aon⟩ } }

/-- AON_POWER_ON_RESET: LOOP_IN falls below 4.2 V and every island stops (03 R65). Table 3-11 is that of loop mode: while AUX_IN supplies
the device, AON stays powered (01 R10). -/
def execAonPowerOnReset (s : State) : Ans := stepIf (s.clock.powered && !s.energy.aux) s s.unpowered

/-- The saved table of a channel with the higher TR_SEQ, of the pages whose TR_CRC and LT_CRC are correct, or the default one (07 R165,
14 R362). -/
def Nvm.tableOf (n : Nvm) (c : Nat) : List Byte :=
  let r := n.tables.getD c ⟨none, none⟩
  let good (x : Option (Nat × List Byte)) : Option (Nat × List Byte) := x.filter fun t => leAt t.2 108 4 == crc32 (t.2.take 108)
  (n.loadRec ⟨good r.a, good r.b⟩ (tablePages c)).getD defaultTable

/-- What AON and MEAS load from the NVM at an AON power-up: tables, retired slices, trim, calibration, grants (05 R107, R119;
07 R165; 08 R203; 12 R306). -/
def State.loadNvm (s : State) : State :=
  let s := s.setNvm s.nvm.loadIdentity
  let n := s.nvm
  let tables : Vector (List Byte) 20 := Vector.ofFn fun c => n.tableOf c.val
  let s := s.setMeas { s.meas with
    tables := tables, shadowTables := tables, cal := n.calBlock
    slices := Vector.ofFn fun k => { Slice.fresh k.val with retired := n.retired.getLsbD k.val }
    preload := { s.meas.preload with tables := tables.toList } }
  let s := s.setLoop { s.loop with m4 := n.trim.1, m20 := n.trim.2, trimGain := trimGainOf n.trim.1 n.trim.2 }
  s.setMgmt { s.mgmt with grants := n.grants }

/-- AON_POWER_UP: the regulator holds 3.50 mA, AON runs, TEST_EN is sampled (02 R34, 03 R63). -/
def execAonPowerUp (testEn : Bool) (s : State) : Ans :=
  let t := s.unpowered.loadNvm
  let t := { t with
    clock := { t.clock with powered := true }, boot := .wait, isl := t.isl.put .aon Isl.aon0
    energy := { t.energy with vioOn := true }
    pins := { t.pins with testMode := testEn, started := t.pins.started.put .aon true } }
  stepIf (!s.clock.powered) s (t.setLoop (t.loop.setAll 0 35000))

/-- CRYSTAL_START: the Meridian runs from zero; the charger is on (03 Table 3-10). -/
def execCrystalStart (s : State) : Ans :=
  stepIf (s.clock.powered && !s.clock.running) s
    ({ s with clock := { s.clock with running := true } }.setEnergy { s.energy with charging := true })

/-! ## The image verification and the almanac of a start (03 R63) -/

/-- Sequences with SQ_AUTO start with the first round (06 R136). DESIGN CHOICE (notes/assumptions/79): one with SQ_LEN = 0, an
unused one, is not started. -/
def State.autoStart (s : State) (a : Alm) : State :=
  let starts := (List.range 4).filter fun q => a.sqAuto q && decide (0 < a.sqLen q)
  s.setMeas (starts.foldl (fun m q => m.setSeq q { m.seq q with startFrom := some 0 }) s.meas)

/-- MGMT loads an almanac that compiles: its fields are committed; those of MEAS and MGMT are in force from the start, those
of LOOP go to it as tokens (01 R23, 03 R63). -/
def State.loadAlm (s : State) (a : Alm) (m : SlotMap) (fs : List SlotMap) : State :=
  let old := s.mgmt.inForce
  let tok : ApplyTok := ⟨a, s.now, none, false⟩
  let s := s.setMgmt { s.mgmt with
    shadow := a, committed := a, inForce := (a.takeKind old .loop).takeKind old .line
    pendMeas := none, startLoop := some tok, pendLoop := none, pendLine := some tok }
  let s := s.setMeas { s.meas with map := m, fallback := fs, sxItem := a.sxChans.headD 20 }
  let s := s.setEnergy { s.energy with cost := m.cost, costLoop := m.costLoop }
  (s.setLoop { s.loop with duMax := m.duMax, g := m.g }).autoStart a

/-- The newer valid almanac copy is compiled and checked; one that fails is not run: every sequence stays stopped, and the
copies hold the default values (03 Table 3-10, notes/assumptions/13). -/
def State.startAlm (s : State) : State :=
  let a := match s.nvm.newestAlm with
    | some x => x.alm
    | none => Alm.default
  match a.compile (s.newLevel .mgmt) s.meas.inService s.sources with
  | .ok (m, fs) => s.loadAlm a m fs
  | .error _ =>
    (s.setMgmt { s.mgmt with shadow := Alm.default, committed := Alm.default, inForce := Alm.default }).setMeas
      { s.meas with map := SlotMap.empty 5000, fallback := [] }

/-- The almanac of a start is loaded once: in the tick in which LOOP is up, or, with a LOOP that stays down, before MEAS is
released (03 Table 3-10). -/
def State.loadOnce (s : State) : State :=
  if s.mgmt.toLoad then (s.setMgmt { s.mgmt with toLoad := false }).startAlm else s

/-- A verified image: MGMT goes on, FAULT_N is released, and a start has its almanac to load; after a brown-out stop the
committed one stays (03 Table 3-10, R65; 12 R301). -/
def State.bootOk (s : State) : State :=
  let s := { s with boot := .done }.setIsl .mgmt { s.isl.mgmt with released := true }
  if s.faults.bootHold then
    ((s.setFaults { s.faults with bootHold := false }).setMgmt { s.mgmt with toLoad := true }).freeFaultN
  else s

/-- BOOT_VERIFY: the boot ROM verifies the active MGMT slot, then the other one, if it is a committed image that the anti-rollback fuses
allow; with neither it stays in recovery. A trial slot that fails becomes FAILED (03 Table 3-10; 14 R345, R352, R359, R360). -/
def execBootVerify (activeOk otherOk : Bool) (s : State) : Ans :=
  let d := s.nvm.dirs.mgmt
  let d' := if d.active.st = .trial then d.setActive { d.active with st := .failed } else d
  let other := s.bootVerifies d.inactive (s.inactiveMem .mgmt) otherOk && d.inactive.st == .committed &&
    decide (s.nvm.fuses.mgmt ≤ secVersion d.inactive.version)
  let t := if s.bootVerifies d.active (s.activeMem .mgmt) activeOk then s.bootOk
    else if other then (s.setDir .mgmt { d' with activeB := !d.activeB }).bootOk
    else { s with boot := .recovery }
  stepIf (s.clock.powered && s.boot == .verify) s t

/-! ## RST_N (03 R64, 08 R194, 11 R279, 14 R358) -/

/-- An island goes into reset with RST_N. -/
def State.resetIsland (s : State) (i : Island) : State :=
  let s := if (s.isl.at i).down then s else (s.fence i).emitIsland i 0
  s.setIsl i Isl.down0

/-- RST_N discards a pending activation: the slot returns to COMMITTED if it held a committed image before, or FAILED
(14 R358). -/
def SlotDir.discard (d : SlotDir) : SlotDir :=
  if d.actTick.isSome then
    { (d.setInactive { d.inactive with st := if d.wasCommitted then .committed else .failed }) with actTick := none }
  else d

/-- RST_N's discard, recorded where there was an activation. -/
def State.discardAct (s : State) (i : Island) : State :=
  let d := s.nvm.dirs.at i
  if d.actTick.isSome then s.setDir i d.discard else s

/-- The window's registers after RST_N; the bytes stay (11 R279, R295). -/
def Window.atReset (w : Window) : Window := { Window.reset with mem := w.mem, status := w.status, out := w.out }

/-- The output after RST_N: no fixed current, hold or damping state; alarms that faults command stay (03 R64). -/
def LoopOut.atReset (l : LoopOut) : LoopOut :=
  let alarm (e : CodeEv) : Bool := match e.act with
    | .hwAlarm _ => true
    | .auxAlarm _ => true
    | _ => false
  { l with
    fixed := none, startup := true, multidrop := false, swAlarm := false, holding := false, normal := 35000, sat := false
    sched := l.sched.filter alarm, cLast := 35000, uLast := 0, cPrev := 35000, uPrev := 0, usable := 0, y := 0, yValid := false
    yl := 0, ylValid := false, hadUpdate := false, interrupted := false, failHold := false, holdCount := 0, holdLim := false
    feed := none, record := [], todo := [], replaying := false, skipped := [] }

/-- A session after RST_N: LOOP's mirror in AON keeps the address and the current reply; a command in flight is lost. -/
def Session.atReset (x : Session) : Session :=
  if x.running then { x with running := false, seq := none, cur := none, due := none, buf := none }
  else { x with due := none, buf := none }

/-- The fabric after RST_N: frames, relays and notices on their way are lost (13 R341). -/
def Fabric.atReset (f : Fabric) : Fabric :=
  { f with
    sessions := f.sessions.map Session.atReset, relay := none, sweep := [], fwd := ⟨[], []⟩, delivered := []
    relayOut := [], pubQueue := [], lost := [], mb2Wait := [], mb3Wait := [] }

/-- MEAS after RST_N: the next start is a start-up. -/
def Meas.atReset (m : Meas) : Meas :=
  { m with
    round := { m.round with on := false, due := false, pos := 0, idle := 0, freeze := .run, freezes := [], skipped := [] }
    seqs := Vector.replicate 4 Seq.reset, job := none, fallbackDue := none, failMap := none, failCompile := none }

/-- MGMT after RST_N: the committed copy stays until the start loads an almanac. -/
def Mgmt.atReset (m : Mgmt) (grants : List (BitVec 12 × BitVec 16)) : Mgmt :=
  { Mgmt.reset with
    grants := grants, lastReply := m.lastReply, shadow := m.committed, committed := m.committed, inForce := m.inForce }

/-- The governor after RST_N: season and charge stay; only the commit of a trial keeps its reservation. -/
def Energy.atReset (e : Energy) (trials : List Nat) : Energy :=
  { e with boostEnd := none, reserved := e.reserved.filter fun r => trials.contains r.1 }

/-- The reservation keys of the islands in TRIAL. -/
def Nvm.trials (n : Nvm) : List Nat :=
  ([Island.mgmt, .loop, .meas, .aon].filter fun i => (n.dirs.at i).active.st == .trial).map commitKey

/-- Everything that RST_N does. -/
def State.rstN (s : State) : State :=
  let s := ((s.resetIsland .meas).resetIsland .loop).resetIsland .mgmt
  let s := [Island.mgmt, .loop, .meas, .aon].foldl State.discardAct s
  let s := { s with
    win := s.win.atReset, meas := s.meas.atReset, mgmt := s.mgmt.atReset s.nvm.grants, fab := s.fab.atReset
    energy := s.energy.atReset s.nvm.trials, loop := s.loop.atReset, ready := false, boot := .wait
    fsk := { s.fsk with buf := none, octets := [] }
    obs := { s.obs with mask := Obs.reset.mask, maskNext := none }
    faults := { s.faults with bootHold := true }
    pins := { s.pins with inReset := true, faultLow := true, gpioDrive := [none, none, none], exc := 0, trcWord := 0, trcMark := false } }
  let (src, c) := s.selectCode
  s.setLoop (s.loop.setAll src c)

/-- RST_N, with the LOOP message of the codes and the source that it changes (15 Table 15-6). -/
def State.rstNTraced (s : State) : State := s.rstN.loopTrace s.loop

/-- RST_N_ASSERT: the filter has accepted the low level (03 R64). -/
def execRstNAssert (s : State) : Ans := stepIf (s.clock.powered && !s.pins.rstN.level && !s.pins.inReset) s s.rstNTraced

/-- RST_N_RELEASE: the filter has accepted the high level; TEST_EN is sampled (02 R34, 03 R64). -/
def execRstNRelease (testEn : Bool) (s : State) : Ans :=
  stepIf (s.clock.powered && s.pins.inReset && s.pins.rstN.level) s
    (s.setPins { s.pins with inReset := false, testMode := testEn })

/-! ## Supply readings (03 R47, R60, R62; 08 R206; 13 Table 13-2; 16 R385) -/

/-- A count of readings in a row up to `top`; one above it marks the condition as reported. -/
def countUp (top n : Nat) (hit : Bool) : Nat := if !hit then 0 else if top < n then n else min top (n + 1)

/-- A reading joins the last eight (03 R47): 10 mV resolution. -/
def joinReading (l : List Nat) (mv : Nat) : List Nat := (mv / 10 * 10 :: l).take 8

/-- The monitors after one reading. -/
def Energy.read (e : Energy) (r : SupplyRead) (now : Nat) : Energy :=
  let armed := e.vioArmed || decide (2500 ≤ r.vio) || decide (500000 ≤ now)
  { e with
    readAt := some now, loopReads := joinReading e.loopReads r.loopIn, auxReads := joinReading e.auxReads r.auxIn
    resReads := joinReading e.resReads r.vres, tempCount := countUp 8 e.tempCount r.tempHigh
    railCount := (List.range 3).map fun n => countUp 2 (e.railCount.getD n 0) (r.rails.getLsbD n)
    vioArmed := armed, vioCount := countUp 8 e.vioCount (armed && decide (r.vio < 2500))
    charging := e.charging && decide (r.vres / 10 * 10 < e.ceiling) }

/-- Mis-wiring at a reading of LOOP_IN (08 R206). DESIGN CHOICE (notes/assumptions/104): with MW_EN cleared in FOLDED or RETRY the state
becomes NORMAL, and MISWIRE clears, at the next reading. -/
def State.miswireReading (s : State) (loopIn : Nat) : State :=
  if s.mgmt.inForce.mwEn then
    s.setLoop { s.loop with miswire := s.loop.miswire.reading (decide (31500 < loopIn) && decide (120000 < s.loop.shaped)) }
  else if s.loop.miswire == .normal 0 then s
  else s.setMiswire (.normal 0)

/-- SUPPLY_READING: once every 64 ticks (03 R47); a reading of AUX_IN below 9.0 V clears AUX at the next boundary (03 R60). -/
def execSupplyReading (r : SupplyRead) (s : State) : Ans :=
  let t := (s.setEnergy (s.energy.read r s.now)).miswireReading (r.loopIn / 10 * 10)
  stepIf (s.clock.powered && s.clock.running && s.now % 64 == 0 && s.energy.readAt != some s.now) s
    (if t.energy.aux && decide (r.auxIn / 10 * 10 < 9000) then t.setEnergy { t.energy with auxNext := some false } else t)

/-! ## Evaluation boundaries (03 R47, R52, R55, R56, R60) -/

/-- The average of the last readings. -/
def average (l : List Nat) : Nat := l.sum / l.length

/-- The charger's input current in uA: what the loop carries above the device's draw and 100 uA; under AUX at most 5 mA, and
within 250 mW with the device's own draw (03 R46, R53). -/
def Energy.chargerUa (e : Energy) (draw sense : Nat) : Nat :=
  if e.aux then min 5000 ((250000 - draw * e.auxAvg / 1000) * 1000 / e.auxAvg) else sense - draw - 100

/-- The averages and the figures of the last interval (03 R47, R53): `sense` is the loop current that the regulator senses. The
charger delivers 70 % of its input power, and nothing at its ceiling. -/
def Energy.evaluate (e : Energy) (i : EvalIn) (sense now : Nat) : Energy :=
  let e := { e with
    evalAt := some now, loopAvg := average e.loopReads, auxAvg := average e.auxReads, resAvg := average e.resReads
    vioUa := i.vioUa, drawUa := i.drawUa }
  let ua := if e.ceiling ≤ e.resAvg then 0 else e.chargerUa i.drawUa sense
  let uw := ua * (if e.aux then e.auxAvg else e.loopAvg) * 7 / 10000
  { e with chargeUa := ua, passUa := if e.aux then sense else sense - i.drawUa - ua, chargeUw := uw, charging := uw != 0 }

/-- The sensed loop current in uA: the commanded one while the regulator holds it, the measured one in compliance (03 R53). -/
def State.senseUa (s : State) (i : EvalIn) : Nat := if s.loop.complying then i.senseUa else s.loop.shaped.toNat / 10

/-- The season after an evaluation boundary with AUX clear (03 Table 3-6). -/
def Energy.nextSeason (e : Energy) : Season :=
  match e.season with
  | .summer => if e.resAvg < 14000 then .autumn else .summer
  | .autumn => if 14000 ≤ e.resAvg then .summer else .autumn
  | .winter => if 11000 ≤ e.resAvg ∧ 8500 ≤ e.loopAvg then .spring else .winter
  | .spring => if 12000 ≤ e.resAvg then .autumn else .spring

/-- The release of MGMT at the first evaluation boundary that allows it (03 Table 3-10). -/
def State.bootWait (s : State) : State :=
  if s.boot == .wait && decide (512 ≤ s.now) && decide (8500 ≤ s.energy.loopAvg) && !s.pins.testMode && !s.pins.inReset then
    { s with boot := .verify }.emitIsland .mgmt 1
  else s

/-- EVALUATION_BOUNDARY: every 512 ticks (03 R47); an average of AUX_IN of 9.5 V or more sets AUX at the next boundary
(03 R60) and withdraws the SUP_AUX alarm at once (13 R324). -/
def execEvaluationBoundary (i : EvalIn) (s : State) : Ans :=
  let t := s.setEnergy (s.energy.evaluate i (s.senseUa i) s.now)
  let t := if t.mgmt.inForce.vioLoad + 50 < i.vioUa then t.report 0x16 0 0x40 else t
  let t :=
    if t.energy.aux then t
    else
      let t := t.enterSeason t.energy.nextSeason
      if 9500 ≤ t.energy.auxAvg then (t.setEnergy { t.energy with auxNext := some true }).withdrawAuxAlarm else t
  stepIf (s.clock.powered && s.clock.running && s.now % 512 == 0 && s.energy.evalAt != some s.now) s
    ((t.auxCheck.bootWait).updateRegister)

/-- BOOST_REQUEST: in AUTUMN, while MGMT has work, one period of 500 ticks, admitted as a heavy task (03 R57, R394, Table 3-9). -/
def execBoostRequest (s : State) : Ans :=
  let e := s.energy
  let f := s.mgmt.inForce.mgmtFmax
  let cost := if f = 1 then 1 else if f = 2 then 3 else 6
  let asked := s.setEnergy { e with boostNext := s.now + 500 }
  let granted := (asked.setEnergy { asked.energy with
    reserved := e.reserved ++ [(0xFFFE, cost)], boostEnd := some (s.now + 500), freq := f }).emitEnergy
  stepIf (s.mgmtUp && s.mgmtWork && e.season == .autumn && !e.aux && f != 0 && e.boostEnd.isNone && decide (e.boostNext ≤ s.now)) s
    (if cost ≤ 10 * s.reserveField then granted else asked)

/-! ## Brown-out (03 R65) -/

/-- Stop an island under R65. One that is down already waits for the recovery. -/
def State.stopIsland (s : State) (i : Island) : State :=
  let x := s.isl.at i
  if x.down then s.setIsl i { x with stopped := !x.dead, resetAt := none, released := false, checked := false, supply := x.supply || !x.dead }
  else s.assertReset i 0x14 true

/-- LOOP_LOW_STOP: at the boundary after the eighth (03 Table 3-11). -/
def execLoopLowStop (s : State) : Ans :=
  stepIf (s.clock.powered && s.energy.lowCount == 9 && !s.isl.meas.stopped) s
    ((s.stopIsland .meas).report 0x14 0 0x40)

/-- BUCK_UNDERVOLTAGE_STOP: at the boundary after the second; a verification under way begins anew (03 Table 3-11). -/
def execBuckUndervoltageStop (s : State) : Ans :=
  let t := (s.stopIsland .loop).stopIsland .mgmt
  let t := if s.boot == .verify || s.boot == .recovery then { t with boot := .wait } else t
  stepIf (s.clock.powered && s.energy.buckCount == 3 && !s.isl.mgmt.stopped) s t

/-- The stopped islands are released from an evaluation boundary on: in the order of Table 3-10 when MGMT was stopped, else as
restarts counted from it (03 Table 3-11). An island that had not started yet takes its place in a start-up again. -/
def State.recover (s : State) : State :=
  let all := s.isl.mgmt.stopped || !s.meas.round.on
  let go (x : Isl) : Isl := if x.stopped then { x with stopped := false, resetAt := if all then none else some s.now } else x
  let t := { s with isl := ⟨go s.isl.mgmt, go s.isl.loop, go s.isl.meas, s.isl.aon⟩ }
  if !s.isl.mgmt.stopped then t
  else if s.pins.testMode then { t with boot := .wait }
  else { t with boot := .verify }.emitIsland .mgmt 1

/-- BROWNOUT_RECOVERY (03 Table 3-11). -/
def execBrownoutRecovery (s : State) : Ans :=
  let any := s.isl.mgmt.stopped || s.isl.loop.stopped || s.isl.meas.stopped
  stepIf (s.clock.powered && s.energy.evalAt == some s.now && decide (8500 ≤ s.energy.loopAvg) && any) s s.recover

/-! ## The reference (01 R29, 10 R257, 15 R367) -/

/-- CLOCK_LOSS: the internal oscillator takes over; the fabric does not operate, and its time is UNLOCKED. With no crystal at
power-up the device starts on the internal oscillator, and no loss while running is reported (01 R29, 15 Table 15-1). -/
def execClockLoss (s : State) : Ans :=
  let t := { s with
    clock := { s.clock with onInternal := true, lost := true, guarantee := false }, decoder := []
    ports := ⟨s.ports.loop.silent, s.ports.spur.silent⟩
    fab := { s.fab with
      locked := false, relay := none, sweep := [], sessions := s.fab.sessions.map fun (x : Session) => { x with due := none } } }
  let start := { s with clock := { s.clock with running := true, onInternal := true, guarantee := false } }
  stepIf (s.clock.powered && !s.clock.onInternal) s
    (if s.clock.running then t.report 0x10 0 0x40 else start.setEnergy { s.energy with charging := true })

/-- CLOCK_RESTORE: the crystal supplies the reference again; the guarantee waits for the next round start (01 R29). -/
def execClockRestore (s : State) : Ans :=
  stepIf (s.clock.powered && s.clock.onInternal) s { s with clock := { s.clock with onInternal := false, lost := false } }

/-! ## The release of an island's reset (03 Table 3-10, 13 R339) -/

/-- MGMT has started: LOOP and MEAS may be released. -/
def State.booted (s : State) : Bool := s.boot == .done && !s.pins.inReset && !s.pins.testMode

/-- Whether a down island may be released: a restart under way, or its place in the order of a start: MGMT by its verification, LOOP
once the three images have been compared and AON runs its firmware, MEAS after LOOP. -/
def State.mayRelease (s : State) (i : Island) : Bool :=
  let x := s.isl.at i
  x.down && !x.dead && !x.released && !x.stopped && match i with
  | .aon => x.resetAt.isSome
  | .mgmt => x.resetAt.isSome && s.boot == .done && !s.pins.inReset && !s.pins.testMode
  | .loop => s.booted && (x.resetAt.isSome ||
    (x.checked && (s.isl.meas.checked || s.isl.meas.dead) && (s.isl.aon.nvmFw || s.isl.aon.dead)))
  | .meas => s.booted && (x.resetAt.isSome || (x.checked && (s.isl.loop.released || s.isl.loop.up || s.isl.loop.dead)))

/-- At a start the AON image is compared with its digest like the others, and the running core changes from its ROM to its NVM
firmware (03 Table 3-10). -/
def State.aonSwitch (s : State) (isl : Island) : Bool :=
  isl == .aon && s.isl.aon.up && !s.isl.aon.nvmFw && !s.isl.aon.dead && s.boot == .done && !s.pins.inReset

/-- At a start MGMT compares the image of LOOP or MEAS before it releases either (03 Table 3-10). -/
def State.toCheck (s : State) (isl : Island) : Bool :=
  let x := s.isl.at isl
  (isl == .loop || isl == .meas) && s.booted && x.down && !x.dead && !x.released && !x.stopped && x.resetAt.isNone && !x.checked

/-- An image that does not match its digest: the island stays down (13 Table 13-2). -/
def State.imageFault (s : State) (isl : Island) : State :=
  (s.setIsl isl { s.isl.at isl with dead := true }).report 0x1D (srcOf isl).toNat (srcOf isl)

/-- ISLAND_RESET_RELEASE: the reset is released, the image loaded and compared with its digest; a mismatch raises IMAGE and the
island stays down (13 R339, Table 13-2). At a start the comparison comes first, one step for each of LOOP, MEAS and AON, and LOOP
and MEAS are released by a second one (03 Table 3-10). -/
def execIslandResetRelease (isl : Island) (digestOk : Bool) (s : State) : Ans :=
  let x := s.isl.at isl
  let good := s.digestOk isl digestOk
  let t := (if isl = .meas then s.loadOnce else s).emitIsland isl 1
  if s.aonSwitch isl then
    stepIf s.clock.powered s (if good then s.setIsl .aon { x with nvmFw := true } else s.imageFault .aon)
  else if s.toCheck isl then
    stepIf s.clock.powered s (if good then s.setIsl isl { x with checked := true } else s.imageFault isl)
  else stepIf (s.clock.powered && s.mayRelease isl) s
    (if x.checked || good then t.setIsl isl { x with released := true, lostWords := [] } else t.imageFault isl)

/-! ## UP: what every island does -/

/-- The island's firmware releases its locks (11 R295). -/
def State.freeLocks (s : State) (i : Island) : State :=
  s.setWin { s.win with locks := s.win.locks.map fun o => if o = srcOf i then 0 else o }

/-- A notice of the restarted island that nobody has acknowledged is withdrawn, and its buffer becomes FREE (11 R289). -/
def State.withdrawFree (s : State) (k : Nat) : State :=
  let m := s.win.mbAt k
  if m.unanswered then
    let t := s.withdraw k
    if nbLen m.notice = 0 then t else t.setOwner (nbBuf m.notice) .free 0x10
  else s

/-- AON reports on MB6 the UP of an island whose restart a command asked for (11 R286; 12 R299; 14 R356). -/
def State.oweUp (s : State) (i : Island) : State :=
  if s.faults.owed.contains i then
    (s.setFaults { s.faults with owed := s.faults.owed.filter (· != i) }).postReq 6 0 (.islandUp i)
  else s

/-! ## UP of MGMT (11 R289, 12 R301) -/

/-- The session whose CMD an MB2 notice carries. -/
def noticeSession (w : Word64) : Option Nat := sessionOf (BitVec.ofNat 8 (nbSrc w))

/-- Sessions whose command MGMT had taken and lost: it ends without a reply, and a repeat of its SEQ executes it (10 R249,
12 R301). -/
def State.dropRunning (s : State) : State :=
  let mb2 := s.win.mbAt 2
  let waiting := (if mb2.pending then [mb2.notice] else []) ++ s.fab.mb2Wait.map (·.1)
  let kept := waiting.filterMap noticeSession
  let lost (n : Nat) (x : Session) : Session :=
    if x.running && !kept.contains n then { x with running := false, seq := none, cur := none } else x
  s.setFab { s.fab with sessions := Vector.ofFn fun n => lost n.val (s.fab.sess n.val) }

/-- MGMT returns to HOST the buffers of the host's commands without a posted reply, but for that of a held MB0 notice. A reply that the
host turned back was posted; its buffer stays, as every other one does (11 R279, R289; 01 R11). -/
def State.returnBufs (s : State) : State :=
  let mb0 := s.win.mbAt 0
  let held := if mb0.pending && mb0.held then [nbBuf mb0.notice] else []
  (List.range 64).foldl (fun s b =>
    let o := s.win.ownAt b
    if o.own = .device ∧ o.last = 0x01 ∧ !held.contains b ∧ !s.win.turned.contains b then s.setOwner b .host 0x10
    else s) s

/-- A token whose apply point passed while MEAS was down is posted again (13 R340). -/
def State.repostMeas (s : State) : State :=
  s.setMgmt { s.mgmt with pendMeas := s.mgmt.pendMeas.map fun t =>
    if t.missed then { t with posted := s.now, missed := false } else t }

/-- MGMT is up: R289 runs, then READY and DB_READY. -/
def State.upMgmt (s : State) : State :=
  let s := (s.win.mbAt 1) |> fun m => if m.unanswered then s.withdraw 1 else s
  let s := ((s.withdrawFree 3).withdrawFree 4).withdrawFree 7
  let s := s.dropRunning.returnBufs
  ({ s with ready := true }).ring 13

/-! ## UP of LOOP (08 R201, 11 R288, 13 R341) -/

/-- A CMD whose notice the LOOP restart withdraws is not recorded as accepted, and its buffer is FREE (11 R289). -/
def State.withdrawCmd (s : State) (w : Word64) : State := (s.freeBuf (nbBuf w)).unaccept w

/-- LOOP is up: its MB2 notices are withdrawn, it takes the damping state from AON, replays the recorded feeds, and gets the
replies that MGMT kept. -/
def State.upLoop (s : State) : State :=
  let mb2 := s.win.mbAt 2
  let s := if mb2.unanswered then (s.withdraw 2).withdrawCmd mb2.notice else s
  let s := s.fab.lost.foldl State.freeBuf s
  let s := s.setFab { s.fab with lost := [] }
  let l := s.loop
  let s := s.setLoop { l with yl := l.y, ylValid := l.yValid, replaying := !l.todo.isEmpty, replayNext := s.now }
  let rs := s.fab.mb3Wait
  rs.foldl State.fabricReply (s.setFab { s.fab with mb3Wait := [] })

/-! ## UP of MEAS: start and rejoin (06 R137, 13 R340) -/

/-- A slice at a MEAS start: its preload values, or the factory ones (05 R107). -/
def Meas.startSlice (m : Meas) (n : Nat) : Slice :=
  let old := m.slice n
  let x := { Slice.fresh n with retired := old.retired, lastConv := old.lastConv, fence := old.fence }
  match m.preload.coef[n]? with
  | some p => { x with
      offAcc := p.off, gainAcc := p.gain, skewAcc := p.skew, since := p.since, lastCal := p.lastCal, phase := p.phase }
  | none => x

/-- The round positions at which a channel's raw samples are complete, ascending, with their slices: its slots, or the second halves
of its pairs. -/
def SlotMap.samplePos (m : SlotMap) (pair : Bool) (c : Nat) : List (Nat × Nat) :=
  m.pos.filterMap fun p => match p.kind with
    | .slot ch half _ _ _ => if ch = c ∧ (half = 1 ↔ pair) then some (p.t, p.sl) else none
    | _ => none

/-- The decimator after `3n + k` raw samples of one value from a flush, the boundaries counted from it (06 R150, 13 R340). -/
def Chan.constFed (x : Chan) (v : Int) (n k : Nat) : Chan :=
  let sum3 (j : Nat) : Int := v * (j * (j + 1) * (j + 2) / 6 : Nat)
  let tot := 3 * n + k
  let b := (3 + k / n) * n
  { x with
    i1 := wrap64 (v * (tot : Int)), i2 := wrap64 (v * (tot * (tot + 1) / 2 : Nat)), i3 := wrap64 (sum3 tot)
    d1 := wrap64 (sum3 b), d2 := wrap64 (sum3 b - sum3 (b - n))
    d3 := wrap64 (sum3 b - 2 * sum3 (b - n) + sum3 (b - 2 * n)), flushed := false, settle := 0, deferAcc := decide (0 < k % n) }

/-- The round count and position at which MEAS rejoins. -/
def Round.rejoinAt (r : Round) : Nat × Nat := if r.due then (r.nextCount, 0) else (r.count, r.pos)

/-- A channel's entry in the deskew history at a rejoin: sample `g` stands at z_last, on the slice of its position (13 R340,
05 R111). -/
def State.fakeEntry (s : State) (ts : List (Nat × Nat)) (g : Nat) (v : Int) (r pos : Nat) : DeskewEntry :=
  let n := max 1 ts.length
  let p := ts.getD (g % n) (0, 0)
  let off : Int := (p.1 : Int) - pos + ((g / n : Nat) - (r : Int)) * s.meas.map.len
  ⟨v, false, p.2, 0, s.clock.meridian + BitVec.ofInt 48 off, (s.now + off).toNat, true, g / n, g % n, n⟩

/-- A channel at the rejoin: XFAIL is clear until a window decides (DESIGN CHOICE, notes/assumptions/86); its decimator rebuilt from
z_last, its histories from the preload store (13 R340). -/
def State.rejoinChan (s : State) (c : Nat) : Chan :=
  let a := s.mgmt.inForce
  let m := s.meas
  let p := m.preload.chans.getD c ⟨a.fixedGain c, 4, 0, [], [], (0, 0)⟩
  let g := if a.arEn c then p.gain else a.fixedGain c
  let (r, pos) := m.round.rejoinAt
  let ts := m.map.samplePos (a.excModeInUse c == 3) c
  let nc := m.map.nc c
  let next := r * nc + (ts.filter fun t => decide (t.1 < pos)).length
  let deep := m.map.interleaved c
  let k := next - (p.bound.1 * nc + p.bound.2 + 1) - (if deep then 4 else 0)
  let v := p.zLast
  let raw : RawRef := ⟨v, g, if a.arEn c then a.arGmax c else g, false⟩
  let x : Chan := { Chan.reset with
    gain := g, resGain := if a.arEn c then (m.chan c).resGain else a.fixedGain c, sinceChg := p.sinceChg, zLast := p.zLast, zh := p.zh
    nh := p.nh, lastBound := p.bound, prevNorm := some raw, prevRev := some raw
    deskew := if deep then (List.range 9).map fun j => s.fakeEntry ts (next - 1 - j) v r pos else []
    restart := m.idleChan a c }
  x.constFed p.zLast (a.fOsr c) k

/-- What a start and a rejoin of MEAS share: factory constants, coefficients, tables, excitation, sequences, variables
(05 R102, R107; 07 R173; 14 R363). -/
def State.measBase (s : State) : State :=
  let m := s.meas
  let tables : Vector (List Byte) 20 := Vector.ofFn fun c => m.preload.tables.getD c.val (m.tables.getD c.val [])
  s.setMeas { m with
    cal := s.nvm.calBlock, slices := Vector.ofFn fun n => m.startSlice n.val, tables := tables, shadowTables := tables
    vars := Vector.replicate 8 Var.reset, seqs := m.seqs.map fun q => { q with trig := .idle }, taken := [], sampled := []
    results := [], sxEntries := [], queue := [], sxWindow := none, closingSeen := [], closeAt := none, dwell := [] }

/-- MEAS starts: its first round begins at this boundary (03 Table 3-10, 06 R137). -/
def State.startMeas (s : State) : State :=
  let s := s.measBase
  let r := { s.meas.round with
    on := true, due := true, pos := 0, freeze := .run, idle := 0, startAt := some s.now, passed := 0, held := false, freezes := []
    skipped := [] }
  let a := s.mgmt.inForce
  let fresh (c : Nat) : Chan := { Chan.reset.flush a c with resGain := a.fixedGain c }
  s.setMeas { s.meas with round := r, chans := Vector.ofFn fun c => fresh c.val, sxNext := 2 }

/-- MEAS rejoins the running round (13 R340). -/
def State.rejoinMeas (s : State) : State :=
  let s := s.measBase
  let m := s.meas
  s.setMeas { m with
    chans := Vector.ofFn fun c => s.rejoinChan c.val, sxItem := m.preload.sxItem
    sxNext := if m.round.due then 2 else m.round.pos + 2, round := { m.round with startAt := some s.now, passed := 0, freezes := [] } }

/-- MEAS is up. -/
def State.upMeas (s : State) : State :=
  let s := s.withdrawFree 5
  (if s.meas.round.on then s.rejoinMeas else s.startMeas).driveExc.repostMeas

/-! ## ISLAND_UP -/

/-- The run state of an island whose UP bit sets: its shadow ends 64 ticks later (13 R330). -/
def Isl.setUp (x : Isl) (now : Nat) : Isl :=
  { x with
    up := true, down := false, resetAt := none, released := false, nvmFw := true, upAt := now, lastBeat := now, wdtFired := false
    shadowEnd := if x.shadow then some (now + 64) else none }

/-- An island's service after UP. -/
def State.serve (s : State) : Island → State
  | .mgmt => s.upMgmt
  | .loop => s.upLoop
  | .meas => s.upMeas
  | .aon => s.withdrawFree 6

/-- ISLAND_UP: a restarted or started island sets its UP bit and resumes service (13 R339). -/
def execIslandUp (isl : Island) (s : State) : Ans :=
  let x := s.isl.at isl
  let t := ((s.setIsl isl (x.setUp s.now)).emitIsland isl 2).freeLocks isl
  let t := t.setPins { t.pins with started := t.pins.started.put isl true }
  stepIf (s.clock.powered && x.down && x.released && !x.dead && (isl == .aon || !s.pins.inReset)) s
    ((if isl = .loop then (t.serve isl).loadOnce else t.serve isl).oweUp isl)

end Sys2Proof.Machine
end

