-- ==== Sys2Proof/Machine/Dispatch.lean ====
section
/-! DEFINITION. What each step does: one arm per row of spec/opcode_table.json, each a call of the row's meaning. -/

namespace Sys2Proof.Machine

open Sys2Proof

/-- The effect of a step on everything but the queue of waiting steps. -/
def exec (i : Instr) (s : State) : Host.Outcome State Fault Refusal :=
  match i with
  | .devIdentify p => Sys2Proof.Machine.execDevIdentify p s
  | .devStatus p => Sys2Proof.Machine.execDevStatus p s
  | .devResetIsland p => Sys2Proof.Machine.execDevResetIsland p s
  | .almWrite p => Sys2Proof.Machine.execAlmWrite p s
  | .almRead p => Sys2Proof.Machine.execAlmRead p s
  | .almApply p => Sys2Proof.Machine.execAlmApply p s
  | .almCheck p => Sys2Proof.Machine.execAlmCheck p s
  | .almSave p => Sys2Proof.Machine.execAlmSave p s
  | .seqStart p => Sys2Proof.Machine.execSeqStart p s
  | .seqStop p => Sys2Proof.Machine.execSeqStop p s
  | .seqTrigger p => Sys2Proof.Machine.execSeqTrigger p s
  | .queueBind p => Sys2Proof.Machine.execQueueBind p s
  | .sliceRetire p => Sys2Proof.Machine.execSliceRetire p s
  | .sliceRestore p => Sys2Proof.Machine.execSliceRestore p s
  | .linLoad p => Sys2Proof.Machine.execLinLoad p s
  | .linSwap p => Sys2Proof.Machine.execLinSwap p s
  | .linRead p => Sys2Proof.Machine.execLinRead p s
  | .varRead p => Sys2Proof.Machine.execVarRead p s
  | .loopSetFixed p => Sys2Proof.Machine.execLoopSetFixed p s
  | .loopRelease p => Sys2Proof.Machine.execLoopRelease p s
  | .loopTrim p => Sys2Proof.Machine.execLoopTrim p s
  | .loopStatus p => Sys2Proof.Machine.execLoopStatus p s
  | .fabAssign p => Sys2Proof.Machine.execFabAssign p s
  | .fabBearingWrite p => Sys2Proof.Machine.execFabBearingWrite p s
  | .fabBearingRead p => Sys2Proof.Machine.execFabBearingRead p s
  | .fabSessions p => Sys2Proof.Machine.execFabSessions p s
  | .fabNoiseFloor p => Sys2Proof.Machine.execFabNoiseFloor p s
  | .fabTimeRead p => Sys2Proof.Machine.execFabTimeRead p s
  | .fabTimeSetEvent p => Sys2Proof.Machine.execFabTimeSetEvent p s
  | .fabTimeClearEvent p => Sys2Proof.Machine.execFabTimeClearEvent p s
  | .fabTimeSetCount p => Sys2Proof.Machine.execFabTimeSetCount p s
  | .fabPublishSlots p => Sys2Proof.Machine.execFabPublishSlots p s
  | .fskPass p => Sys2Proof.Machine.execFskPass p s
  | .fltReadLog p => Sys2Proof.Machine.execFltReadLog p s
  | .fltAck p => Sys2Proof.Machine.execFltAck p s
  | .fltInject p => Sys2Proof.Machine.execFltInject p s
  | .fltClear p => Sys2Proof.Machine.execFltClear p s
  | .secAttest p => Sys2Proof.Machine.execSecAttest p s
  | .secCertRead p => Sys2Proof.Machine.execSecCertRead p s
  | .updBegin p => Sys2Proof.Machine.execUpdBegin p s
  | .updChunk p => Sys2Proof.Machine.execUpdChunk p s
  | .updVerify p => Sys2Proof.Machine.execUpdVerify p s
  | .updActivate p => Sys2Proof.Machine.execUpdActivate p s
  | .secGrant p => Sys2Proof.Machine.execSecGrant p s
  | .updVersionInfo p => Sys2Proof.Machine.execUpdVersionInfo p s
  | .obsCounters p => Sys2Proof.Machine.execObsCounters p s
  | .obsTraceSelect p => Sys2Proof.Machine.execObsTraceSelect p s
  | .obsEnergy p => Sys2Proof.Machine.execObsEnergy p s
  | .regRead p => Sys2Proof.Machine.execRegRead p s
  | .regWrite p => Sys2Proof.Machine.execRegWrite p s
  | .startConv p => Sys2Proof.Machine.execStartConv p s
  | .stopConv p => Sys2Proof.Machine.execStopConv p s
  | .trigConv p => Sys2Proof.Machine.execTrigConv p s
  | .readChannel p => Sys2Proof.Machine.execReadChannel p s
  | .readPv p => Sys2Proof.Machine.execReadPv p s
  | .loopFix p => Sys2Proof.Machine.execLoopFix p s
  | .loopFree p => Sys2Proof.Machine.execLoopFree p s
  | .loopTrimZero p => Sys2Proof.Machine.execLoopTrimZero p s
  | .loopTrimSpan p => Sys2Proof.Machine.execLoopTrimSpan p s
  | .calWrite p => Sys2Proof.Machine.execCalWrite p s
  | .calRead p => Sys2Proof.Machine.execCalRead p s
  | .saveConfig p => Sys2Proof.Machine.execSaveConfig p s
  | .identify p => Sys2Proof.Machine.execIdentify p s
  | .status p => Sys2Proof.Machine.execStatus p s
  | .commandFragment op p => Sys2Proof.Machine.execCommandFragment op p s
  | .continuationRead op p => Sys2Proof.Machine.execContinuationRead op p s
  | .assemblyDiscard src => Sys2Proof.Machine.execAssemblyDiscard src s
  | .outstandingCompletion op => Sys2Proof.Machine.execOutstandingCompletion op s
  | .spiWrite bytes whole => Sys2Proof.Machine.execSpiWrite bytes whole s
  | .bufferClaim n ask => Sys2Proof.Machine.execBufferClaim n ask s
  | .bufferRelease n ask => Sys2Proof.Machine.execBufferRelease n ask s
  | .mb0Post notice => Sys2Proof.Machine.execMb0Post notice s
  | .mb1AckAccepted => Sys2Proof.Machine.execMb1AckAccepted s
  | .mb1AckBadNotice => Sys2Proof.Machine.execMb1AckBadNotice s
  | .mb0AckRead commit => Sys2Proof.Machine.execMb0AckRead commit s
  | .doorbellClear ones => Sys2Proof.Machine.execDoorbellClear ones s
  | .lockAcquire n ask commit => Sys2Proof.Machine.execLockAcquire n ask commit s
  | .lockRelease n who value => Sys2Proof.Machine.execLockRelease n who value s
  | .queueRead addr len commit => Sys2Proof.Machine.execQueueRead addr len commit s
  | .mb0NoticeConsume => Sys2Proof.Machine.execMb0NoticeConsume s
  | .mbAcknowledge mb => Sys2Proof.Machine.execMbAcknowledge mb s
  | .mbTimeout mb => Sys2Proof.Machine.execMbTimeout mb s
  | .cross pair => Sys2Proof.Machine.execCross pair s
  | .aonPowerUp testEn => Sys2Proof.Machine.execAonPowerUp testEn s
  | .crystalStart => Sys2Proof.Machine.execCrystalStart s
  | .aonPowerOnReset => Sys2Proof.Machine.execAonPowerOnReset s
  | .bootVerify activeOk otherOk => Sys2Proof.Machine.execBootVerify activeOk otherOk s
  | .rstNAssert => Sys2Proof.Machine.execRstNAssert s
  | .rstNRelease testEn => Sys2Proof.Machine.execRstNRelease testEn s
  | .tickBoundary x => Sys2Proof.Machine.execTickBoundary x s
  | .supplyReading r => Sys2Proof.Machine.execSupplyReading r s
  | .evaluationBoundary e => Sys2Proof.Machine.execEvaluationBoundary e s
  | .boostRequest => Sys2Proof.Machine.execBoostRequest s
  | .loopLowStop => Sys2Proof.Machine.execLoopLowStop s
  | .buckUndervoltageStop => Sys2Proof.Machine.execBuckUndervoltageStop s
  | .brownoutRecovery => Sys2Proof.Machine.execBrownoutRecovery s
  | .vioShort => Sys2Proof.Machine.execVioShort s
  | .complianceEnter => Sys2Proof.Machine.execComplianceEnter s
  | .complianceClear => Sys2Proof.Machine.execComplianceClear s
  | .miswireFold => Sys2Proof.Machine.execMiswireFold s
  | .miswireRetry => Sys2Proof.Machine.execMiswireRetry s
  | .miswireClear => Sys2Proof.Machine.execMiswireClear s
  | .clockLoss => Sys2Proof.Machine.execClockLoss s
  | .clockRestore => Sys2Proof.Machine.execClockRestore s
  | .blankFreeze => Sys2Proof.Machine.execBlankFreeze s
  | .blankResume => Sys2Proof.Machine.execBlankResume s
  | .blankStuck => Sys2Proof.Machine.execBlankStuck s
  | .gpioTrigger pin => Sys2Proof.Machine.execGpioTrigger pin s
  | .triggerWindowStart q => Sys2Proof.Machine.execTriggerWindowStart q s
  | .triggerWindowEnd q => Sys2Proof.Machine.execTriggerWindowEnd q s
  | .roundStart => Sys2Proof.Machine.execRoundStart s
  | .roundAlignment => Sys2Proof.Machine.execRoundAlignment s
  | .slotConversion sl c => Sys2Proof.Machine.execSlotConversion sl c s
  | .rawSampleCorrection => Sys2Proof.Machine.execRawSampleCorrection s
  | .linearisation => Sys2Proof.Machine.execLinearisation s
  | .calibrationConversion sl c => Sys2Proof.Machine.execCalibrationConversion sl c s
  | .breakCheck sl c => Sys2Proof.Machine.execBreakCheck sl c s
  | .sliceCheckFail sl => Sys2Proof.Machine.execSliceCheckFail sl s
  | .fallbackMapSwitch => Sys2Proof.Machine.execFallbackMapSwitch s
  | .failureMapCompile => Sys2Proof.Machine.execFailureMapCompile s
  | .qualificationEnd given => Sys2Proof.Machine.execQualificationEnd given s
  | .sextantComparison x overload => Sys2Proof.Machine.execSextantComparison x overload s
  | .sextantReferenceWindow sx20 => Sys2Proof.Machine.execSextantReferenceWindow sx20 s
  | .linSwapEffect => Sys2Proof.Machine.execLinSwapEffect s
  | .tapDrain => Sys2Proof.Machine.execTapDrain s
  | .streamFlush st => Sys2Proof.Machine.execStreamFlush st s
  | .loopUpdate parityOk => Sys2Proof.Machine.execLoopUpdate parityOk s
  | .holdUpdate => Sys2Proof.Machine.execHoldUpdate s
  | .interruption => Sys2Proof.Machine.execInterruption s
  | .holdLimitExpiry => Sys2Proof.Machine.execHoldLimitExpiry s
  | .feedReplay => Sys2Proof.Machine.execFeedReplay s
  | .energyBlock pt ys => Sys2Proof.Machine.execEnergyBlock pt ys s
  | .sync pt cs => Sys2Proof.Machine.execSync pt cs s
  | .qualifierWindowEnd pt => Sys2Proof.Machine.execQualifierWindowEnd pt s
  | .modeDecision pt y0 y1 => Sys2Proof.Machine.execModeDecision pt y0 y1 s
  | .symbolDemod pt y => Sys2Proof.Machine.execSymbolDemod pt y s
  | .headerVerdict pt => Sys2Proof.Machine.execHeaderVerdict pt s
  | .codewordDecode => Sys2Proof.Machine.execCodewordDecode s
  | .muteEnd pt => Sys2Proof.Machine.execMuteEnd pt s
  | .noiseFloorUpdate pt powers => Sys2Proof.Machine.execNoiseFloorUpdate pt powers s
  | .packetTransmitStart pt => Sys2Proof.Machine.execPacketTransmitStart pt s
  | .idleLineApply => Sys2Proof.Machine.execIdleLineApply s
  | .fskCarrierOn => Sys2Proof.Machine.execFskCarrierOn s
  | .fskCarrierOff => Sys2Proof.Machine.execFskCarrierOff s
  | .fskOctetReceive o => Sys2Proof.Machine.execFskOctetReceive o s
  | .fskTransmitStart => Sys2Proof.Machine.execFskTransmitStart s
  | .fskPassTimeout => Sys2Proof.Machine.execFskPassTimeout s
  | .cmdFrame pt f => Sys2Proof.Machine.execCmdFrame pt f s
  | .pollFrame pt f => Sys2Proof.Machine.execPollFrame pt f s
  | .sweepFrame pt f a8 => Sys2Proof.Machine.execSweepFrame pt f a8 s
  | .beaconAccept pt f a8 => Sys2Proof.Machine.execBeaconAccept pt f a8 s
  | .beaconTimeout => Sys2Proof.Machine.execBeaconTimeout s
  | .beaconRelay => Sys2Proof.Machine.execBeaconRelay s
  | .timeEventFire => Sys2Proof.Machine.execTimeEventFire s
  | .deviceFrameReceive pt f => Sys2Proof.Machine.execDeviceFrameReceive pt f s
  | .frameForward pt f => Sys2Proof.Machine.execFrameForward pt f s
  | .forwardTransmit pt => Sys2Proof.Machine.execForwardTransmit pt s
  | .replyTurnaround ses => Sys2Proof.Machine.execReplyTurnaround ses s
  | .sweepReplySlot => Sys2Proof.Machine.execSweepReplySlot s
  | .publishSlot n => Sys2Proof.Machine.execPublishSlot n s
  | .sessionClose ses => Sys2Proof.Machine.execSessionClose ses s
  | .faultReport accs => Sys2Proof.Machine.execFaultReport accs s
  | .watchdogExpiry isl => Sys2Proof.Machine.execWatchdogExpiry isl s
  | .clockOutOfLock isl => Sys2Proof.Machine.execClockOutOfLock isl s
  | .tempHigh => Sys2Proof.Machine.execTempHigh s
  | .supRail rail => Sys2Proof.Machine.execSupRail rail s
  | .graceExpiry => Sys2Proof.Machine.execGraceExpiry s
  | .autoAck det => Sys2Proof.Machine.execAutoAck det s
  | .faultNRelease => Sys2Proof.Machine.execFaultNRelease s
  | .snapshotWrite => Sys2Proof.Machine.execSnapshotWrite s
  | .injectionArm => Sys2Proof.Machine.execInjectionArm s
  | .shadowEnd isl holding => Sys2Proof.Machine.execShadowEnd isl holding s
  | .islandResetRelease isl digestOk => Sys2Proof.Machine.execIslandResetRelease isl digestOk s
  | .islandUp isl => Sys2Proof.Machine.execIslandUp isl s
  | .activation isl => Sys2Proof.Machine.execActivation isl s
  | .trialCommit isl => Sys2Proof.Machine.execTrialCommit isl s
  | .trialRevert isl => Sys2Proof.Machine.execTrialRevert isl s
  | .updSessionTimeout => Sys2Proof.Machine.execUpdSessionTimeout s
  | .traceSync => Sys2Proof.Machine.execTraceSync s
  | .packetTransmitEnd pt => Sys2Proof.Machine.execPacketTransmitEnd pt s
  | .islandRequestTimeout op => Sys2Proof.Machine.execIslandRequestTimeout op s
  | .oemDigestFuse digest auth => Sys2Proof.Machine.execOemDigestFuse digest auth s

end Sys2Proof.Machine
end

