-- ==== Sys2Proof/Safety.lean ====
section
/-! DEFINITION. What counts as a safe state: the canonical forms and bounds that every step keeps; and the words in which
statements about steps are made: what a step leaves alone, when MGMT takes a command, and what a reply changes. -/

namespace Sys2Proof.Machine

open Sys2Proof

/-! ## Safe states -/

/-- The window's memory is in its canonical form: addresses strictly rising, no zero byte listed. -/
def State.memoryOk (s : State) : Prop := Memory.wf s.win.mem = true

/-- The images in NVM are in the same form. -/
def State.imagesOk (s : State) : Prop :=
  ∀ i : Island, Memory.wf (s.nvm.imgA.at i) = true ∧ Memory.wf (s.nvm.imgB.at i) = true

/-- The queue of entries never exceeds 512 (06 R159). -/
def State.queueOk (s : State) : Prop := s.meas.queue.length ≤ 512

/-- The fault log never exceeds 16 entries (13 R335). -/
def State.logOk (s : State) : Prop := s.faults.log.length ≤ 16

/-- A safe state. -/
structure State.Safe (s : State) : Prop where
  memory : s.memoryOk
  images : s.imagesOk
  queue : s.queueOk
  log : s.logOk

/-! ## What a step leaves alone -/

/-- The parts of State, the queue of steps apart: a field each. -/
inductive Part where
  | free | clock | pins | energy | meas | loop | win | mgmt | isl | ready | boot | faults | ports | decoder | decFree | dspFree
  | fsk | fab | nvm | obs
  deriving DecidableEq, Repr

/-- A part is the same in two states. -/
def Part.same (s t : State) : Part → Prop
  | .free => t.free = s.free
  | .clock => t.clock = s.clock
  | .pins => t.pins = s.pins
  | .energy => t.energy = s.energy
  | .meas => t.meas = s.meas
  | .loop => t.loop = s.loop
  | .win => t.win = s.win
  | .mgmt => t.mgmt = s.mgmt
  | .isl => t.isl = s.isl
  | .ready => t.ready = s.ready
  | .boot => t.boot = s.boot
  | .faults => t.faults = s.faults
  | .ports => t.ports = s.ports
  | .decoder => t.decoder = s.decoder
  | .decFree => t.decFree = s.decFree
  | .dspFree => t.dspFree = s.dspFree
  | .fsk => t.fsk = s.fsk
  | .fab => t.fab = s.fab
  | .nvm => t.nvm = s.nvm
  | .obs => t.obs = s.obs

/-- Nothing but the listed parts differs. -/
def State.Only (ps : List Part) (s t : State) : Prop := t.pending = s.pending ∧ ∀ q : Part, q ∉ ps → q.same s t

/-- Every byte of the window reads as before. -/
def State.SameBytes (s t : State) : Prop := ∀ a : Nat, cellRead t.win.mem a = cellRead s.win.mem a

/-- What sending a reply leaves of the window's registers: the host's mask, the locks and what they gave, the internal masks,
the SPI status and the bytes sent, and the doorbells of MEAS and AON; of the waiting posts only MB3's may become more. -/
structure Window.SameRegs (w v : Window) : Prop where
  dbMask : v.dbMask = w.dbMask
  locks : v.locks = w.locks
  lockVal : v.lockVal = w.lockVal
  idbMask : v.idbMask = w.idbMask
  turned : v.turned = w.turned
  status : v.status = w.status
  out : v.out = w.out
  doorbells : v.idb.meas = w.idb.meas ∧ v.idb.aon = w.idb.aon
  posts : ∃ l, v.posts = w.posts ++ l ∧ ∀ e ∈ l, e.1 = 3

/-- Every ownership word is as before. -/
def State.SameOwners (s t : State) : Prop := ∀ n : Nat, t.win.ownAt n = s.win.ownAt n

/-- Observation is as before but for the listed counters and for trace: a step that traces a message changes its channel, and what
is counted as lost. -/
def State.CountersBut (cs : List Ctr) (s t : State) : Prop :=
  t.obs = { s.obs with live := t.obs.live, chan := t.obs.chan, lost := t.obs.lost, dropDue := t.obs.dropDue } ∧
  ∀ c : Ctr, c ∉ cs → t.obs.live.getD c.idx 0 = s.obs.live.getD c.idx 0

/-- Trace aside, observation is as before; a lost message is counted. -/
def State.OnlyTrace (s t : State) : Prop := s.CountersBut [.trcDrop] t

/-- A request of an island enters its mailbox: its receiver runs, no notice is pending there, and none waits to enter it
(01 R18, 11 R287). -/
def State.Enters (s : State) (k : Nat) : Prop :=
  s.reqUp k = true ∧ (s.win.mbAt k).pending = false ∧ s.win.posts.any (fun e => e.1 == k) = false

/-- `u` is `s` but for a request that an island has put on a mailbox, where it is pending now and not taken; of the doorbells
only the two islands' have changed (11 R281, R282, R285). -/
structure State.Asks (s u : State) (k : Nat) (r : Req) : Prop where
  only : s.Only [.win, .obs] u
  window : u.win = { s.win with
    mb := u.win.mb, crossSince := u.win.crossSince, crossRaised := u.win.crossRaised, idb := u.win.idb }
  mailboxes : ∀ n, n ≠ k → u.win.mbAt n = s.win.mbAt n
  pending : (u.win.mbAt k).pending = true ∧ (u.win.mbAt k).req = r ∧ (u.win.mbAt k).ack = none
  doorbells : ∀ i, mbFrom k ≠ some i → mbTo k ≠ some i → u.win.idb.at i = s.win.idb.at i
  trace : s.OnlyTrace u

/-! ## Commands -/

/-- The parameters of a command packet, those of its sender's assembly first when it completes one (12 R302). -/
def State.paramsOf (s : State) (op : Nat) (p : Packet) : List Byte := (s.assembled op p).2

/-- What remains of the queue when its first command has been taken. -/
def State.queueRest (s : State) : List QueuedCmd := s.mgmt.queue.tail

/-- The packet is the next that MGMT takes: it is first in the queue, or the queue is empty and it is delivered as it
stands; what waits behind it is in buffers of its own and has assigned opcodes, so that it stays where it is. -/
def State.Next (s : State) (op : Nat) (p : Packet) : Prop :=
  s.mgmt.queue = [] ∨ ∃ q qs, s.mgmt.queue = q :: qs ∧ s.packetOf q = (op, p) ∧
    ∀ x ∈ qs, assignedOp (s.packetOf x).1 = true ∧ x.buf ≠ p.buf ∧ ∀ r ∈ s.mgmt.replies, x.buf ≠ r.buf

/-- No command with this opcode is outstanding (12 R299). -/
def State.NoneWaits (s : State) (op : Nat) : Prop := ∀ o ∈ s.mgmt.outst, o.op ≠ op

/-- MGMT takes a whole command packet: MGMT is up, no attestation is being signed, the packet is next, its header is in order, and it is
neither a fragment nor a continuation read (12 R298, R299, R302, R303). -/
structure State.Delivers (s : State) (op : Nat) (p : Packet) : Prop where
  memory : s.memoryOk
  replies : ∀ r ∈ s.mgmt.replies, r.bytes.length ≤ 256
  up : s.mgmtUp = true
  ready : s.ready = true
  idle : s.NoneWaits 0x0701
  next : s.Next op p
  header : headerStatus p = none
  whole : pktMore p = false ∧ pktCont p = false
  bounded : (s.paramsOf op p).length ≤ 4096

/-- MGMT takes a command packet and finds it in order up to its own rules: its sender holds the right, its declared cost is admitted,
and the islands that it needs run (12 R298, R300, R305; 03 R57). -/
structure State.Takes (s : State) (op : Nat) (p : Packet) (cost : Nat) (needs : List Island) : Prop extends s.Delivers op p where
  right : rightOf op s p = true
  energy : s.admits cost = true
  islands : ∀ i ∈ needs, s.upAt i = true

/-- A read of these NVM pages delivers their data: none holds an uncorrectable word, and no error is injected into NVM reads
(13 R332, Table 13-2). -/
def State.Readable (s : State) (pages : List Nat) : Prop :=
  (∀ g ∈ pages, g ∉ s.nvm.bad) ∧ s.faults.armedFor 8 = 0 ∧ s.faults.armedFor 9 = 0

/-- A reply to a packet may be written into this buffer: the packet's own, or that of a reply that waits for MB1. -/
def State.ReplyBuf (s : State) (p : Packet) (n : Nat) : Prop := n = p.buf.toNat ∨ ∃ r ∈ s.mgmt.replies, n = r.buf.toNat

/-- What completing a command changes beside the command's own effect, which `u` already has: its reply is built and sent, its
queue entry and assembly end, its results are kept for continuation, and it is counted and traced (12 R297, R299, R302, R303;
11 R284). The reply carries this status and these results. -/
structure State.Replied (u t : State) (op : Nat) (p : Packet) (status : Nat) (res : List Byte) : Prop where
  reply : t.mgmt.lastReply = firstReply op p.tag.toNat status p.src.toNat res
  only : u.Only [.win, .mgmt, .faults, .fab, .obs] t
  mgmt : t.mgmt = { u.mgmt with
    queue := u.queueRest, lastReply := t.mgmt.lastReply, replies := t.mgmt.replies
    assemblies := (u.assembled op p).1.mgmt.assemblies
    kept := (u.mgmt.kept.filter fun k => k.src ≠ p.src) ++ (if 244 < res.length then [⟨p.src, op, p.tag, res, status⟩] else []) }
  bytes : ∀ a, ¬ u.ReplyBuf p (a / 256) → cellRead t.win.mem a = cellRead u.win.mem a
  owners : ∀ n, ¬ u.ReplyBuf p n → t.win.ownAt n = u.win.ownAt n
  mailboxes : ∀ k, k ≠ 1 → k ≠ 3 → t.win.mbAt k = u.win.mbAt k
  doorbells : ∀ i, i ≠ 0 → t.win.db.getLsbD i = u.win.db.getLsbD i
  window : u.win.SameRegs t.win
  faults : ∃ l, t.faults = { u.faults with reports := u.faults.reports ++ l }
  fabric : t.fab = { u.fab with mb3Wait := t.fab.mb3Wait }
  counters : u.CountersBut [.cmdDone, .ownViol, .trcDrop] t

/-- What making a command outstanding changes beside its request, which `u` already has: its queue entry and assembly end, it is
outstanding with the results that its request fixes, and its declared cost is reserved (12 R299; 03 R57); `got` is the tick in which its
request was taken. -/
structure State.Waits (s u t : State) (op : Nat) (p : Packet) (cost : Nat) (isl : Option Island) (got : Option Nat) (res : List Byte) :
    Prop where
  only : u.Only [.energy, .mgmt, .obs] t
  energy : t.energy = { u.energy with reserved := u.energy.reserved ++
    if cost = 0 ∨ s.energy.aux = true then [] else [(op, cost - (u.energy.reservedUj - s.energy.reservedUj))] }
  mgmt : ∃ o : Outst, t.mgmt = { u.mgmt with
      queue := u.queueRest, assemblies := (u.assembled op p).1.mgmt.assemblies, outst := u.mgmt.outst ++ [o] } ∧
    o.op = op ∧ o.pkt = { p with params := s.paramsOf op p } ∧ o.since = s.now ∧ o.need = isl ∧ o.got = got ∧ o.res = res ∧ o.done = none
  trace : u.OnlyTrace t

/-- Whether a packet's sender may send its command at all: FAB_ASSIGN and FAB_TIME have rules of their own (10 R251, 12 R305,
Table 12-17). -/
def senderRight (op : Nat) (s : State) (p : Packet) : Bool :=
  if op = 0x0501 then assignRight s p else if op = 0x0506 then fabTimeRight s p else rightOf op s p

/-- The opcode and the packet of a command; FAB_TIME's four rows share an opcode and differ in the operation that the packet names
(12 Tables 12-12 to 12-19, 12-21). -/
def commandOf : Instr → Option (Nat × Packet)
  | .devIdentify p => some (0x0001, p)
  | .devStatus p => some (0x0002, p)
  | .devResetIsland p => some (0x0003, p)
  | .almWrite p => some (0x0101, p)
  | .almRead p => some (0x0102, p)
  | .almApply p => some (0x0103, p)
  | .almCheck p => some (0x0104, p)
  | .almSave p => some (0x0105, p)
  | .seqStart p => some (0x0201, p)
  | .seqStop p => some (0x0202, p)
  | .seqTrigger p => some (0x0203, p)
  | .queueBind p => some (0x0204, p)
  | .sliceRetire p => some (0x0205, p)
  | .sliceRestore p => some (0x0206, p)
  | .linLoad p => some (0x0301, p)
  | .linSwap p => some (0x0302, p)
  | .linRead p => some (0x0303, p)
  | .varRead p => some (0x0304, p)
  | .loopSetFixed p => some (0x0401, p)
  | .loopRelease p => some (0x0402, p)
  | .loopTrim p => some (0x0403, p)
  | .loopStatus p => some (0x0404, p)
  | .fabAssign p => some (0x0501, p)
  | .fabBearingWrite p => some (0x0502, p)
  | .fabBearingRead p => some (0x0503, p)
  | .fabSessions p => some (0x0504, p)
  | .fabNoiseFloor p => some (0x0505, p)
  | .fabTimeRead p => if 1 ≤ fabTimeOp p ∧ fabTimeOp p ≤ 3 then none else some (0x0506, p)
  | .fabTimeSetEvent p => if fabTimeOp p = 1 then some (0x0506, p) else none
  | .fabTimeClearEvent p => if fabTimeOp p = 2 then some (0x0506, p) else none
  | .fabTimeSetCount p => if fabTimeOp p = 3 then some (0x0506, p) else none
  | .fabPublishSlots p => some (0x0507, p)
  | .fskPass p => some (0x0508, p)
  | .fltReadLog p => some (0x0601, p)
  | .fltAck p => some (0x0602, p)
  | .fltInject p => some (0x0603, p)
  | .fltClear p => some (0x0604, p)
  | .secAttest p => some (0x0701, p)
  | .secCertRead p => some (0x0702, p)
  | .updBegin p => some (0x0703, p)
  | .updChunk p => some (0x0704, p)
  | .updVerify p => some (0x0705, p)
  | .updActivate p => some (0x0706, p)
  | .secGrant p => some (0x0707, p)
  | .updVersionInfo p => some (0x0708, p)
  | .obsCounters p => some (0x0801, p)
  | .obsTraceSelect p => some (0x0802, p)
  | .obsEnergy p => some (0x0803, p)
  | .regRead p => some (0x0F01, p)
  | .regWrite p => some (0x0F02, p)
  | .startConv p => some (0x0F10, p)
  | .stopConv p => some (0x0F11, p)
  | .trigConv p => some (0x0F12, p)
  | .readChannel p => some (0x0F20, p)
  | .readPv p => some (0x0F21, p)
  | .loopFix p => some (0x0F30, p)
  | .loopFree p => some (0x0F31, p)
  | .loopTrimZero p => some (0x0F32, p)
  | .loopTrimSpan p => some (0x0F33, p)
  | .calWrite p => some (0x0F40, p)
  | .calRead p => some (0x0F41, p)
  | .saveConfig p => some (0x0F50, p)
  | .identify p => some (0x0F60, p)
  | .status p => some (0x0F61, p)
  | _ => none

/-- The last value that a list of field writes gives a field. -/
def lastWrite (fs : List (Nat × Int)) (id : Nat) : Option Int := (fs.reverse.find? fun f => f.1 == id).map (·.2)

/-- Whether a field takes effect when it is written (12 R308). -/
def liveField (id : Nat) : Bool := match fieldRow id with
  | some r => r.apply == .live
  | none => false

/-- The packet of a command whose own parameters are `n` bytes carries a signature trailer in order: it is marked as signed, the key
is the one in use, and the counter is above the last accepted one (12 R304, Table 12-6; 14 R346). -/
structure State.Signed (s : State) (op : Nat) (p : Packet) (n : Nat) : Prop where
  flag : pktSigned p = true
  length : (s.paramsOf op p).length = n + 2432
  key : leAt ((s.paramsOf op p).drop n) 8 1 = if s.nvm.oem.isSome then 1 else 0
  zero : ∀ i, i < 3 → byteAt ((s.paramsOf op p).drop n) (9 + i) = 0
  fresh : (if s.nvm.oem.isSome then s.nvm.ctrOem else s.nvm.ctrVendor) < leAt ((s.paramsOf op p).drop n) 0 8

/-- The signature over UID, opcode and parameters verifies (12 R304). -/
def State.Verifies (s : State) (op : Nat) (p : Packet) (n : Nat) : Prop :=
  Mldsa.verify (s.heldKey (leAt ((s.paramsOf op p).drop n) 8 1))
    (leBytes 8 Config.uid.toNat ++ leBytes 2 op ++ (s.paramsOf op p).take (n + 12))
    ((((s.paramsOf op p).drop n).drop 12).take 2420) = true

/-- The state once a signature's counter has been accepted (12 R304). -/
def State.countAccepted (s : State) (ctr : Nat) : State :=
  s.setNvm (s.nvm.putCounter s.nvm.oem.isSome ctr)

/-- The command completes at once with ST_OK and these results; `u` is the state with the command's own effect. -/
def State.Completes (s u : State) (c : Instr) (op : Nat) (p : Packet) (res : List Byte) : Prop :=
  ∃ t, exec c s = .next t ∧ u.Replied t op p stOk res

/-- A signed command completes at once with ST_OK and these results, `u` being the state with its counter accepted and its effect;
if its signature does not verify it is answered with ST_AUTH_FAIL and has no effect (12 R304). -/
def State.SignedCompletes (s u : State) (c : Instr) (op : Nat) (p : Packet) (n : Nat) (res : List Byte) : Prop :=
  ∃ t, exec c s = .next t ∧ (s.Verifies op p n → u.Replied t op p stOk res) ∧
    (¬ s.Verifies op p n → (s.started op p).Replied t op p stAuthFail [])

/-- The command becomes outstanding; `u` is the state with its request. -/
def State.Begins (s u : State) (c : Instr) (op : Nat) (p : Packet) (cost : Nat) (isl : Option Island) (res : List Byte) : Prop :=
  ∃ t, exec c s = .next t ∧ State.Waits s u t op p cost isl none res

/-- The command is answered with a status other than ST_OK, and has no effect but that one of the update commands counts for its
session (14 R353). -/
def State.Declines (s : State) (c : Instr) (op : Nat) (p : Packet) (st : Nat) : Prop :=
  ∃ t, exec c s = .next t ∧ (s.started op p).Replied t op p st []

/-- The parameters of a native command that the bytes of an M16 command stand for (12 R313). -/
def State.nativeOf (s : State) (op : Nat) (p : Packet) : List Byte := Config.m16Params op (s.paramsOf op p)

/-- The parameters of the packet have the length of the M16 command (12 R298, R313). -/
def State.m16Fits (s : State) (op : Nat) (p : Packet) : Prop := Config.m16Length op (s.paramsOf op p).length = true

/-- An M16 command completes at once with the M16 form of a native status and result, `u` being the state with its effect; with
a parameter length that is not its own it is answered with ST_BAD_LENGTH and has no effect (12 R298, R313; 00 R3). -/
def State.M16Completes (s u : State) (c : Instr) (op : Nat) (p : Packet) (st : Nat) (res : List Byte) : Prop :=
  ∃ t, exec c s = .next t ∧ (s.m16Fits op p → u.Replied t op p (m16Answer op st res).1 (m16Answer op st res).2) ∧
    (¬ s.m16Fits op p → s.Replied t op p stBadLength [])

/-- An M16 command becomes outstanding, `u` being the state with its request; with a parameter length that is not its own it is
answered with ST_BAD_LENGTH and has no effect. -/
def State.M16Begins (s u : State) (c : Instr) (op : Nat) (p : Packet) (isl : Option Island) (res : List Byte) : Prop :=
  ∃ t, exec c s = .next t ∧ (s.m16Fits op p → State.Waits s u t op p 0 isl none res) ∧
    (¬ s.m16Fits op p → s.Replied t op p stBadLength [])

end Sys2Proof.Machine
end

