-- ==== Sys2Proof/Certificates/Slice0/Obligations.lean ====
section
/-! DEFINITION. The statements for the provers. A statement that rests on a choice of the model says so and names the row of
notes/assumptions. -/

open Sys2Proof Sys2Proof.Machine


/-- Commands that only report: each completes with the bytes that its table of 12 lists (of UPD_VERSION_INFO, OBS_ENERGY and LOOP_STATUS
the fields that are written out here), and changes nothing but what its reply changes, UPD_VERSION_INFO also the time of the update
session's last command; SEC_CERT_READ gives the certificate, from pages of the NVM that can be read (12 R297; 14 R347, R352; 03 R56; 08
R207; 10 R249, R253; Table 13-2).

Reports in which the spec leaves a byte open: FAB_NOISE_FLOOR, FAB_TIME with operation 0, REG_READ and CAL_READ answer, and
change nothing but the count of free values and what a reply changes (09 R230; 10 R257; 02 R44; 12 R313).

DEV_STATUS, under both its names, reports and clears the SEQ_OVERRUN bits, and nothing else (06 R146, 12 R313,
Table 12-14).

Where the spec leaves a point of this open, the clause is the model's choice: notes/assumptions/9, 49, 57, 63, 67, 106. -/
def Obligations.CommandsThatOnlyReportChangeNothingElse : Prop :=
  (∀ (s : State) (p : Packet),
     (s.Takes 0x0001 p 0 [] → s.paramsOf 0x0001 p = [] → s.Completes s (.devIdentify p) 0x0001 p s.identifyBytes) ∧
     (s.Takes 0x0702 p 0 [] → s.paramsOf 0x0702 p = [] → s.Readable certPages →
       s.Completes s (.secCertRead p) 0x0702 p s.nvm.cert) ∧
     (s.Takes 0x0708 p 0 [] → s.paramsOf 0x0708 p = [] → ∃ res, s.Completes (s.touchUpd p) (.updVersionInfo p) 0x0708 p res ∧ res.length = 48 ∧
       ∀ i : Island, let k := (match i with | .mgmt => 0 | .loop => 12 | .meas => 24 | .aon => 36)
         leAt res (k + 2) 2 = s.nvm.fuses.at i % 65536 ∧ leAt res (k + 4) 4 = (s.nvm.dirs.at i).a.version % 4294967296 ∧
         leAt res (k + 8) 4 = (s.nvm.dirs.at i).b.version % 4294967296) ∧
     (s.Takes 0x0803 p 0 [] → s.paramsOf 0x0803 p = [] → ∃ res, s.Completes s (.obsEnergy p) 0x0803 p res ∧
       leAt res 0 4 = s.energy.register.toNat ∧ leAt res 4 2 = min s.energy.loopAvg 65535 ∧
       leAt res 8 2 = min s.energy.resAvg 65535 ∧ leAt res 28 4 = s.energy.reservedUj % 4294967296) ∧
     (s.Takes 0x0404 p 0 [.loop] → s.paramsOf 0x0404 p = [] → ∃ res, s.Completes s (.loopStatus p) 0x0404 p res ∧
       leAt res 0 2 = s.loopWord % 65536 ∧ leAt res 4 4 = unsignedOf 32 s.loop.cmd ∧ leAt res 8 4 = unsignedOf 32 s.loop.lim ∧
       leAt res 12 4 = unsignedOf 32 s.loop.shaped ∧ leAt res 16 4 = unsignedOf 32 s.loop.trim) ∧
     (s.Takes 0x0503 p 0 [] → s.paramsOf 0x0503 p = [] → s.Completes s (.fabBearingRead p) 0x0503 p
       ((List.range 64).flatMap fun g => leBytes 1 (s.mgmt.committed.bearing g))) ∧
     (s.Takes 0x0504 p 0 [.loop] → s.paramsOf 0x0504 p = [] → s.Completes s (.fabSessions p) 0x0504 p
       ((List.range 16).flatMap (s.assembled 0x0504 p).1.sessionBytes))) ∧
  (∀ (s : State) (p : Packet),
     (∀ n, n < 2 → s.Takes 0x0505 p 0 [.loop] → s.paramsOf 0x0505 p = [BitVec.ofNat 8 n, 0, 0, 0] →
       ∃ u fl age, s.Completes u (.fabNoiseFloor p) 0x0505 p (leBytes 1 n ++ zeros 1 ++ fl ++ age) ∧ s.Only [.free] u ∧
         (∀ t, (s.ports.at (if n = 0 then .loop else .spur)).floorTick = some t →
           age = leBytes 4 (min (s.now - t) 0xFFFFFFFF)) ∧
         ((s.ports.at (if n = 0 then .loop else .spur)).pg = [] →
           fl = (List.range 8).flatMap fun _ => leBytes 2 (unsignedOf 16 s.mgmt.inForce.mdmFloorInit))) ∧
     (∀ t : Nat, s.Takes 0x0506 p 0 [.loop] → s.hasRight p 0 = true → fabTimeOp p = 0 →
       s.paramsOf 0x0506 p = [0, 0] ++ leBytes 6 t → ∃ u res, s.Completes u (.fabTimeRead p) 0x0506 p res ∧ s.Only [.free] u ∧
         leAt res 0 1 = b2n s.fab.locked ∧ leAt res 1 1 = s.fab.hop.toNat ∧ leAt res 4 4 = unsignedOf 32 s.fab.err ∧
         leAt res 8 6 = s.clock.meridian.toNat ∧ leAt res 14 1 = b2n s.fab.event.isSome) ∧
     (s.Takes 0x0F01 p 0 [] → s.M16Completes { s with free := s.free + 1 } (.regRead p) 0x0F01 p stOk
       (s.paramsOf 0x0F01 p ++ s.mgmt.m16Regs.toList ++ leBytes 64 (Config.freeBits 512 s.free).toNat)) ∧
     (s.Takes 0x0F41 p 0 [] → s.Readable calPages →
       s.M16Completes s (.calRead p) 0x0F41 p stOk (s.paramsOf 0x0F41 p ++ s.nvm.calBlock))) ∧
  (∀ (s : State) (p : Packet),
     (s.Takes 0x0002 p 0 [] → s.paramsOf 0x0002 p = [] → ∃ u, s.Completes u (.devStatus p) 0x0002 p s.statusBytes ∧
       s.Only [.meas] u ∧ (∀ q : Fin 4, u.meas.seqs[q] = { s.meas.seqs[q] with overrun := false }) ∧
       u.meas = { s.meas with seqs := u.meas.seqs } ∧
       (∀ q : Fin 4, (leAt s.statusBytes 0 2).testBit (4 + q.val) = s.meas.seqs[q].overrun) ∧
       leAt s.statusBytes 3 1 = s.energy.season.code) ∧
     (s.Takes 0x0F61 p 0 [] → s.M16Completes s.clearOverrun (.status p) 0x0F61 p stOk s.statusBytes) ∧
     (s.Takes 0x0F60 p 0 [] → s.M16Completes s (.identify p) 0x0F60 p stOk s.identifyBytes))

/-- Reads of MEAS: LIN_READ gives the latest linearised value of a channel and its active or shadow table, VAR_READ the selected
variables in ascending order; READ_CHANNEL and READ_PV do the same for CH0 to CH15 and the variables, and have the M16's own
result code for other parameters (07 R180, 12 R313).

ALM_READ gives the values of the named fields from the shadow or the committed copy (12 R307).

Reads of AON's records: FLT_READ_LOG gives up to 15 entries of the log or, from pages of the NVM that can be read, of the
snapshot, from an index on; OBS_COUNTERS gives a range of counters as one capture, with its Meridian count
(13 R337, 15 R379; Table 13-2).

A command that reads pages of the NVM of which one has an uncorrectable word reports it on ECC2_NVM with the page as its cause and
ends with ST_INTERNAL: FLT_READ_LOG of the snapshot, SEC_CERT_READ, SEC_ATTEST and, in the M16's own result code, CAL_READ
(13 R333, Table 13-2).

Where the spec leaves a point of this open, the clause is the model's choice: notes/assumptions/9, 16, 29, 90. -/
def Obligations.ReadsGiveWhatTheDeviceHolds : Prop :=
  (∀ (s : State) (p : Packet),
     let reading (ch which : Nat) : List Byte := valueBytes (s.meas.chan ch).lin (s.meas.chan ch).linStatus (s.meas.chan ch).linStamp ++
       (if which = 0 then s.meas.table ch else s.meas.shadowTable ch)
     let values (mask : Nat) : List Byte := ((List.range 8).filter mask.testBit).flatMap fun v =>
       valueBytes (s.meas.var v).value (s.meas.var v).status (s.meas.var v).stamp
     (∀ ch which, ch < 20 → which < 2 → s.Takes 0x0303 p 0 [.meas] → s.paramsOf 0x0303 p = [BitVec.ofNat 8 ch, BitVec.ofNat 8 which, 0, 0] →
       s.Completes s (.linRead p) 0x0303 p (reading ch which)) ∧
     (∀ mask : Byte, mask ≠ 0 → s.Takes 0x0304 p 0 [.meas] → s.paramsOf 0x0304 p = [mask, 0, 0, 0] →
       s.Completes s (.varRead p) 0x0304 p (values mask.toNat)) ∧
     (s.Takes 0x0F20 p 0 [.meas] → let ps := s.nativeOf 0x0F20 p
       if leAt ps 0 1 < 16 ∧ leAt ps 1 1 < 2 ∧ rsvdZero ps 2 2 = true then
         s.M16Completes s (.readChannel p) 0x0F20 p stOk (reading (leAt ps 0 1) (leAt ps 1 1))
       else s.M16Completes s (.readChannel p) 0x0F20 p stBadParam []) ∧
     (s.Takes 0x0F21 p 0 [.meas] → let ps := s.nativeOf 0x0F21 p
       if leAt ps 0 1 ≠ 0 ∧ rsvdZero ps 1 3 = true then s.M16Completes s (.readPv p) 0x0F21 p stOk (values (leAt ps 0 1))
       else s.M16Completes s (.readPv p) 0x0F21 p stBadParam [])) ∧
  (∀ (s : State) (p : Packet) (copy : Nat) (ids : List Nat), copy < 2 → ids ≠ [] → ids.length ≤ 60 →
     (∀ id ∈ ids, (fieldRow id).isSome ∧ id < 65536) → s.Takes 0x0102 p 0 [] →
     s.paramsOf 0x0102 p = leBytes 1 copy ++ [0] ++ leBytes 2 ids.length ++ ids.flatMap (leBytes 2) →
     s.Completes s (.almRead p) 0x0102 p (leBytes 2 ids.length ++ zeros 2 ++
       ids.flatMap fun id => fieldBytes (if copy = 0 then s.mgmt.shadow.val id else s.mgmt.committed.val id))) ∧
  (∀ (s : State) (p : Packet) (first n : Nat),
     (∀ src, src < 2 → first < 256 → 1 ≤ n → n ≤ 15 → s.Takes 0x0601 p 0 [] → (src = 1 → s.Readable NvmArea.snapshot.all) →
       s.paramsOf 0x0601 p = [BitVec.ofNat 8 src, BitVec.ofNat 8 first, BitVec.ofNat 8 n, 0] →
       let held := if src = 0 then s.faults.log.map LogEntry.bytes else (s.nvm.snap.take 8).map fun r => r.2.bytes
       s.Completes s (.fltReadLog p) 0x0601 p (leBytes 1 held.length ++ zeros 3 ++ ((held.drop first).take n).flatten)) ∧
     (1 ≤ n → first + n ≤ 48 → s.Takes 0x0801 p 0 [] →
       s.paramsOf 0x0801 p = [BitVec.ofNat 8 first, BitVec.ofNat 8 n, 0, 0] →
       s.Completes s (.obsCounters p) 0x0801 p (leBytes 6 s.clock.meridian.toNat ++ zeros 2 ++
         (List.range n).flatMap fun i => leBytes 4 (s.obs.capture (first + i))))) ∧
  (∀ (s : State) (p : Packet),
     let reported (g : Nat) : State := s.setFaults { s.faults with reports := s.faults.reports ++
       [{ det := 9, cause := BitVec.ofNat 16 g, island := 0x10, inj := false, real := false, atLeast := 0, posted := s.now,
          stamp := s.clock.meridian, aon := aonDet 9 }] }
     let fails (c : Instr) (op cost : Nat) (pages : List Nat) : Prop := s.Takes op p cost [] → s.faults.armedFor 8 = 0 → s.faults.armedFor 9 = 0 →
       ∀ g, pages.find? s.nvm.bad.contains = some g → ∃ t, exec c s = .next t ∧ (reported g).Replied t op p stInternal []
     (∀ first n : Byte, s.paramsOf 0x0601 p = [1, first, n, 0] → fails (.fltReadLog p) 0x0601 0 NvmArea.snapshot.all) ∧
     (s.paramsOf 0x0702 p = [] → fails (.secCertRead p) 0x0702 0 certPages) ∧
     ((s.paramsOf 0x0701 p).length = 32 → fails (.secAttest p) 0x0701 1100 [seedPage]) ∧
     (s.Takes 0x0F41 p 0 [] → s.faults.armedFor 8 = 0 → s.faults.armedFor 9 = 0 → ∀ g, calPages.find? s.nvm.bad.contains = some g →
       s.M16Completes (reported g) (.calRead p) 0x0F41 p stInternal []))

/-- ALM_WRITE with entries that all pass its checks writes every one: the shadow copy takes the last value of each field, an L
field takes it in the committed copy and in force as well, and nothing else of the almanac changes; FAB_ADDR from the local
host clears DUP_ADDR (12 R305, R308; 10 R252).

Where the spec leaves a point of this open, the clause is the model's choice: notes/assumptions/21. -/
def Obligations.AlmanacWriteTakesEveryEntry : Prop :=
  ∀ (s : State) (p : Packet) (es : List (Nat × Nat)) (fs : List (Nat × Int)),
    s.mgmt.shadow.wf = true → s.mgmt.committed.wf = true → s.mgmt.inForce.wf = true →
    es ≠ [] → (∀ e ∈ es, e.1 < 65536 ∧ e.2 < 4294967296) →
    List.Forall₂ (fun e f => f.1 = e.1 ∧ fieldOfWire e.1 e.2 = some f.2) es fs →
    (∀ f ∈ fs, s.trigPinTaken f.1 f.2 = false ∧ s.stopBlocked f.1 = false) →
    ((∀ e ∈ es, e.1 / 2048 ≠ 0) ∨ s.overBudget (s.mgmt.shadow.withEntries es) = false) →
    ((∀ e ∈ es, bearingOrAddr e.1 = false) ∨ s.hasRight p 4 = true) → s.almLocked p = false → s.Takes 0x0101 p 0 [] →
    s.paramsOf 0x0101 p = leBytes 2 es.length ++ es.flatMap (fun e => leBytes 2 e.1 ++ leBytes 4 e.2) →
    ∃ u, s.Completes u (.almWrite p) 0x0101 p (leBytes 2 0xFFFF) ∧ s.Only [.mgmt, .fab] u ∧
      u.mgmt = { s.mgmt with shadow := u.mgmt.shadow, committed := u.mgmt.committed, inForce := u.mgmt.inForce } ∧
      (∀ id, u.mgmt.shadow.val id = (lastWrite fs id).getD (s.mgmt.shadow.val id)) ∧
      (∀ id, u.mgmt.committed.val id = if liveField id then (lastWrite fs id).getD (s.mgmt.committed.val id)
        else s.mgmt.committed.val id) ∧
      (∀ id, u.mgmt.inForce.val id = if liveField id then (lastWrite fs id).getD (s.mgmt.inForce.val id)
        else s.mgmt.inForce.val id) ∧
      u.fab = { s.fab with dup := s.fab.dup && !(p.src == 0x01 && es.any fun e => e.1 == fid 9 0 0) }

/-- ALM_CHECK and ALM_APPLY give the same verdict on the shadow copy. A copy that passes is answered with its compile record,
and ALM_APPLY then commits it and posts it to every island whose fields differ from those in force; a copy that fails
is answered with the status and the field of the first failing check, with the cost of its map where the check followed placement,
and changes nothing (12 R309, R310).

Where the spec leaves a point of this open, the clause is the model's choice: notes/assumptions/32. -/
def Obligations.CheckAndApplyAgreeOnTheShadow : Prop :=
  ∀ (s : State) (p q : Packet),
    (s.Takes 0x0104 p 0 [] → s.paramsOf 0x0104 p = [] → match s.checkShadow with
      | .ok (m, _) => s.Completes s (.almCheck p) 0x0104 p (m.record (s.jskips m s.mgmt.shadow) 0xFFFF 0)
      | .error ((st, field), map) => ∃ t u res, exec (.almCheck p) s = .next t ∧ u.Replied t 0x0104 p st res ∧ s.Only [.free] u ∧
        leAt res 26 2 = field % 65536 ∧ ∀ m, map = some m → leAt res 0 4 = m.cost % 4294967296) ∧
    (s.almLocked q = false → s.mapBusy = false → s.Takes 0x0103 q 0 s.applyNeeds → s.paramsOf 0x0103 q = [] →
      match s.checkShadow with
      | .ok (m, fs) => ∃ u,
        s.Completes u (.almApply q) 0x0103 q (m.record (s.jskips m s.mgmt.shadow) 0xFFFF (s.roundFrom s.tokenFrom)) ∧
        s.Only [.mgmt, .energy] u ∧ u.energy = { s.energy with cost := m.cost, costLoop := m.costLoop } ∧
        u.mgmt = { s.mgmt with
          committed := s.mgmt.shadow, pendMeas := u.mgmt.pendMeas, pendLoop := u.mgmt.pendLoop, pendLine := u.mgmt.pendLine } ∧
        u.mgmt.pendMeas = (if s.mgmt.pendMeas.isSome || s.mgmt.inForce.differKind s.mgmt.shadow .meas then
          some ⟨s.mgmt.shadow, s.now, some (m, fs), false⟩ else none) ∧
        u.mgmt.pendLoop = (if s.mgmt.pendLoop.isSome || s.mgmt.inForce.differKind s.mgmt.shadow .loop then
          some ⟨s.mgmt.shadow, s.now, none, false⟩ else none) ∧
        u.mgmt.pendLine = (if s.mgmt.pendLine.isSome || s.mgmt.inForce.differKind s.mgmt.shadow .line then
          some ⟨s.mgmt.shadow, s.now, none, false⟩ else none)
      | .error ((st, field), map) => ∃ t u res, exec (.almApply q) s = .next t ∧ u.Replied t 0x0103 q st res ∧ s.Only [.free] u ∧
        leAt res 26 2 = field % 65536 ∧ ∀ m, map = some m → leAt res 0 4 = m.cost % 4294967296) ∧
    ((s.almLocked q = true ∨ s.mapBusy = true) → s.Takes 0x0103 q 0 s.applyNeeds → s.paramsOf 0x0103 q = [] →
      s.Declines (.almApply q) 0x0103 q stBusy)

/-- ALM_SAVE, under both its names, writes the committed copy over the older of the two saved ones, a copy that is not valid counting
as the older, with the next sequence number and its digest: it is then the newest valid copy, and the other one stays as it is
(12 R312, R313).

CAL_WRITE replaces the calibration block in NVM, whose pages then hold good words, and nothing that is in use
(14 R363, 12 R313).

Where the spec leaves a point of this open, the clause is the model's choice: notes/assumptions/9, 24, 81. -/
def Obligations.SavesReplaceOnlyTheirBlocks : Prop :=
  (∀ (s : State) (p : Packet), s.almLocked p = false →
     let a := copySeq (s.nvm.almCopy false)
     let b := copySeq (s.nvm.almCopy true)
     let n := max a b + 1
     let c : AlmCopy := ⟨n, s.mgmt.committed, almDigest n s.mgmt.committed⟩
     let u : State := s.setNvm (if a ≤ b then { s.nvm.wrote (NvmArea.alm false).all with almA := some c }
       else { s.nvm.wrote (NvmArea.alm true).all with almB := some c })
     u.nvm.newestAlm = some c ∧ (if a ≤ b then u.nvm.almCopy true = s.nvm.almCopy true else u.nvm.almCopy false = s.nvm.almCopy false) ∧
     (s.Takes 0x0105 p 150 [] → s.paramsOf 0x0105 p = [] → s.Completes u (.almSave p) 0x0105 p (leBytes 4 n)) ∧
     (s.Takes 0x0F50 p 150 [] → s.M16Completes u (.saveConfig p) 0x0F50 p stOk (leBytes 4 n))) ∧
  (∀ (s : State) (p : Packet), s.Takes 0x0F40 p (6 * Config.m16Pages 0x0F40 (s.paramsOf 0x0F40 p)) [] →
     s.M16Completes (s.setNvm { s.nvm.wrote calPages with
       calBlock := Config.m16CalBlock (s.paramsOf 0x0F40 p) s.nvm.calBlock }) (.calWrite p) 0x0F40 p stOk [])

/-- QUEUE_BIND writes and commits the five fields of one stream and posts nothing, where no two streams that are on share a channel
or a buffer; otherwise it changes nothing (06 R161, 12 R311).

REG_WRITE whose fields pass the checks of ALM_WRITE puts its bytes into the 64 registers and commits the almanac fields that they
name, of which L fields are in force at once, and posts the token of the loop fields where they then differ from those in force;
otherwise it changes nothing and has the M16's own result code, or is refused by the stop-only rule (02 R44, R45; 00 R3; 12 R308,
R311, R313).

Where the spec leaves a point of this open, the clause is the model's choice: notes/assumptions/9, 33, 67. -/
def Obligations.BindsAndRegisterWritesCommitTheirFields : Prop :=
  (∀ (s : State) (p : Packet) (k mask dest first count flush : Nat), k < 4 → mask < 4294967296 → dest < 256 → first < 256 →
     count < 256 → flush < 4294967296 →
     let words := [(fid 5 k 0, mask), (fid 5 k 1, dest), (fid 5 k 2, first), (fid 5 k 3, count), (fid 5 k 4, flush)]
     let fs : List (Nat × Int) := words.map fun f => (f.1, (f.2 : Int))
     let a := s.mgmt.committed
     let on (q : Nat) : Prop := if q = k then count ≠ 0 else a.streamOn q = true
     let channels (q : Nat) : Nat := if q = k then mask else a.qsChmask q
     let buffers (q : Nat) : List Nat := if q = k then bufRange first count else a.streamRange q
     let apart := ∀ q r, q < r → r < 4 → on q → on r → channels q &&& channels r = 0 ∧ ∀ b, b ∈ buffers q → b ∉ buffers r
     let sound := ∀ f ∈ words, fieldOfWire f.1 f.2 = some (f.2 : Int)
     s.mgmt.shadow.wf = true → a.wf = true → s.Takes 0x0204 p 0 [.meas] →
     s.paramsOf 0x0204 p = [BitVec.ofNat 8 k, 0, 0, 0] ++ leBytes 4 mask ++ leBytes 1 dest ++ leBytes 1 first ++ leBytes 1 count ++
       [0] ++ leBytes 4 flush →
     (sound → apart → ∃ u, s.Completes u (.queueBind p) 0x0204 p [] ∧ s.Only [.mgmt] u ∧
       u.mgmt = { s.mgmt with shadow := u.mgmt.shadow, committed := u.mgmt.committed } ∧
       (∀ id, u.mgmt.committed.val id = (lastWrite fs id).getD (s.mgmt.committed.val id)) ∧
       (∀ id, u.mgmt.shadow.val id = (lastWrite fs id).getD (s.mgmt.shadow.val id))) ∧
     (sound → ¬ apart → s.Declines (.queueBind p) 0x0204 p stBadParam)) ∧
  (∀ (s : State) (p : Packet), s.Takes 0x0F02 p 0 [] → s.mgmt.shadow.wf = true → s.mgmt.committed.wf = true → s.mgmt.inForce.wf = true →
     let ps := s.paramsOf 0x0F02 p
     let fs := m16Writes ps
     let dear := (fs.any fun f => f.1 / 2048 == 0) &&
       s.overBudget (s.mgmt.shadow.withEntries (fs.map fun f => (f.1, unsignedOf 32 f.2)))
     let sound := ∀ f ∈ fs, fieldOfWire f.1 (unsignedOf 32 f.2) = some f.2 ∧ s.fieldStatus dear (f.1, unsignedOf 32 f.2) = none
     ∃ u st, s.M16Completes u (.regWrite p) 0x0F02 p st [] ∧ (¬ sound → u = s ∧ st ≠ stOk) ∧
       (sound → st = stOk ∧ s.Only [.mgmt] u ∧
         u.mgmt = { s.mgmt with
           shadow := u.mgmt.shadow, committed := u.mgmt.committed, inForce := u.mgmt.inForce
           pendMeas := u.mgmt.pendMeas, pendLoop := u.mgmt.pendLoop, pendLine := u.mgmt.pendLine
           m16Regs := (Config.m16RegBytes ps).foldl (fun r w => r.setIfInBounds w.1 w.2) s.mgmt.m16Regs } ∧
         (∀ id, u.mgmt.committed.val id = (lastWrite fs id).getD (s.mgmt.committed.val id)) ∧
         (∀ id, u.mgmt.shadow.val id = (lastWrite fs id).getD (s.mgmt.shadow.val id)) ∧
         (∀ id, u.mgmt.inForce.val id = if liveField id then (lastWrite fs id).getD (s.mgmt.inForce.val id)
           else s.mgmt.inForce.val id) ∧
         u.mgmt.pendLoop = (if s.mgmt.pendLoop.isSome || u.mgmt.inForce.differKind u.mgmt.committed .loop then
           some ⟨u.mgmt.committed, s.now, none, false⟩ else none)))

/-- SEQ_START, SEQ_STOP and SEQ_TRIGGER of a sound mask post their request on MB4 and wait for MEAS; START_CONV, STOP_CONV and
TRIG_CONV do the same with the mask that their bytes stand for (06 R136, R144; 12 R299, R313).

SLICE_RETIRE of a slice in service posts a request on MB4 with the map for the others, when there is one, and SLICE_RESTORE of a
slice out of service posts one; both wait for MEAS. Without a map the retirement is infeasible (05 R117, R118).

MEAS acts on a request of MB4 at the boundary at which it takes it: a start is set for a round start at least two ticks later, a
stop for a later round start, a retirement with its map, a restoration and a table swap are set, and no other sequence, slice
or table changes (05 R117, R118; 06 R136; 07 R171; 01 R17).

Where the spec leaves a point of this open, the clause is the model's choice: notes/assumptions/9, 35, 38, 74. -/
def Obligations.SequenceAndSliceCommandsAskMeas : Prop :=
  (∀ (s : State) (p : Packet),
     let startable (m : Nat) : Prop := (∀ q, q < 4 → m.testBit q = true → s.mgmt.committed.sqLen q ≠ 0) ∧ s.auxBlocked = false
     let triggered (m : Nat) : Prop := ∀ q, q < 4 → m.testBit q = true → s.mgmt.inForce.sqTriggered q = true
     let asks (c : Instr) (op : Nat) (may : Nat → Prop) : Prop := ∀ mask : Byte, mask ≠ 0 → mask.toNat < 16 → may mask.toNat →
       s.Takes op p 0 [.meas] → s.paramsOf op p = [mask, 0, 0, 0] → s.NoneWaits op →
       s.Begins (s.postReq 4 op (.seqs op mask.toNat)) c op p 0 (some .meas) [mask]
     let m16Asks (c : Instr) (op native : Nat) (may : Nat → Prop) : Prop := s.Takes op p 0 [.meas] → s.NoneWaits op →
       let ps := s.nativeOf op p
       (badMask ps = false → may (leAt ps 0 1) →
         s.M16Begins (s.postReq 4 native (.seqs native (leAt ps 0 1))) c op p (some .meas) (ps.take 1)) ∧
       (badMask ps = true → s.M16Completes s c op p stBadParam [])
     asks (.seqStart p) 0x0201 startable ∧ asks (.seqStop p) 0x0202 (fun _ => True) ∧ asks (.seqTrigger p) 0x0203 triggered ∧
     m16Asks (.startConv p) 0x0F10 0x0201 startable ∧ m16Asks (.stopConv p) 0x0F11 0x0202 (fun _ => True) ∧
     m16Asks (.trigConv p) 0x0F12 0x0203 triggered) ∧
  (∀ (s : State) (p : Packet) (sl : Nat), sl < 4 → s.mapBusy = false →
     let left := s.meas.inService.filter (· ≠ sl)
     (sl ∈ s.meas.inService → left ≠ [] → s.Takes 0x0205 p 0 [.meas] → s.paramsOf 0x0205 p = [BitVec.ofNat 8 sl, 0, 0, 0] →
       s.NoneWaits 0x0205 → match s.mgmt.committed.repack (s.newLevel .mgmt) left with
         | some (m, _) => s.Begins (s.postReq 4 0x0205 (.retire sl m)) (.sliceRetire p) 0x0205 p 0 (some .meas) []
         | none => s.Declines (.sliceRetire p) 0x0205 p stInfeasible) ∧
     (sl ∉ s.meas.inService → s.Takes 0x0206 p 0 [.meas] → s.paramsOf 0x0206 p = [BitVec.ofNat 8 sl, 0, 0, 0] →
       s.NoneWaits 0x0206 → s.Begins (s.postReq 4 0x0206 (.restore sl)) (.sliceRestore p) 0x0206 p 0 (some .meas) [])) ∧
  (∀ s : State,
     (s.measUp = true → (s.win.mbAt 4).pending = true → (s.win.mbAt 4).ack = none → (s.win.mbAt 4).lost = false →
       (s.win.mbAt 4).since < s.now →
       s.takeMb4 = (s.takeReq 4 0x00).measReq (s.win.mbAt 4).req) ∧
     (∀ mask, mask < 16 → s.Only [.meas, .mgmt] (s.measReq (.seqs 0x0201 mask)) ∧
       (s.measReq (.seqs 0x0201 mask)).meas = { s.meas with seqs := (s.measReq (.seqs 0x0201 mask)).meas.seqs } ∧
       ∀ q, q < 4 → (s.measReq (.seqs 0x0201 mask)).meas.seq q = if mask.testBit q then
         { s.meas.seq q with startFrom := some ((s.meas.seq q).startFrom.getD (s.now + 2)) } else s.meas.seq q) ∧
     (∀ mask, mask < 16 → s.Only [.meas, .mgmt] (s.measReq (.seqs 0x0202 mask)) ∧
       (s.measReq (.seqs 0x0202 mask)).meas = { s.meas with seqs := (s.measReq (.seqs 0x0202 mask)).meas.seqs } ∧
       ∀ q, q < 4 → (s.measReq (.seqs 0x0202 mask)).meas.seq q = if mask.testBit q then
         { s.meas.seq q with stopFrom := some ((s.meas.seq q).stopFrom.getD (s.now + 1)) } else s.meas.seq q) ∧
     (∀ sl m, s.Only [.meas, .mgmt] (s.measReq (.retire sl m)) ∧
       (s.measReq (.retire sl m)).meas = { s.meas with job := some (.retire sl m (s.now + 2)) }) ∧
     (∀ sl, s.Only [.meas, .mgmt] (s.measReq (.restore sl)) ∧
       (s.measReq (.restore sl)).meas = { s.meas with job := some (.restore sl (s.now + 1)) }) ∧
     (∀ mask x save, (s.outstOf 0x0302).isSome = true → s.Only [.meas, .mgmt] (s.measReq (.swap mask x save)) ∧
       (s.measReq (.swap mask x save)).meas = { s.meas with swap := some ⟨mask, effectTick x s.clock.meridian.toNat, save⟩ }))

/-- LIN_LOAD writes one channel's shadow table, from the 112 bytes of a sound table or from a ROM set, and leaves every other
table and the active ones alone (07 R170).

LIN_SWAP posts on MB4 the exchange of the tables of its mask, at the first tick from MEAS's receipt plus two on that is not
before X, and waits for MEAS; while another exchange is pending it is busy (07 R171, R172).

Where the spec leaves a point of this open, the clause is the model's choice: notes/assumptions/40, 82. -/
def Obligations.TablesAreLoadedAndTheirSwapScheduled : Prop :=
  (∀ (s : State) (p : Packet) (ch : Fin 20), s.Takes 0x0301 p 0 [] →
     (∀ tb, tableOk tb = true → s.paramsOf 0x0301 p = [BitVec.ofNat 8 ch.val, 0, 0, 0] ++ tb → ∃ u,
       s.Completes u (.linLoad p) 0x0301 p [] ∧ s.Only [.meas] u ∧ u.meas = { s.meas with shadowTables := u.meas.shadowTables } ∧
       ∀ c : Fin 20, u.meas.shadowTables[c] = if c = ch then tb else s.meas.shadowTables[c]) ∧
     (∀ id src sh k, romIds.contains id = true → srcOk src sh = true → src < 256 → k < 4294967296 →
       s.paramsOf 0x0301 p = [BitVec.ofNat 8 ch.val, 1, 0, 0] ++ leBytes 2 id ++ leBytes 1 src ++ leBytes 1 sh ++ leBytes 4 k →
       ∃ u, s.Completes u (.linLoad p) 0x0301 p [] ∧ s.Only [.meas] u ∧
         u.meas = { s.meas with shadowTables := u.meas.shadowTables } ∧
         ∀ c : Fin 20, u.meas.shadowTables[c] = if c = ch then romTable id src sh k else s.meas.shadowTables[c])) ∧
  (∀ (s : State) (p : Packet) (mask x : Nat) (save : Bool), mask < 1048576 → x < 281474976710656 → s.swapBad mask = false →
     (x = 0 ∨ ahead x s.clock.meridian.toNat ≤ 2147483648) → s.NoneWaits 0x0302 →
     s.Takes 0x0302 p (if save then 6 * maskCount mask else 0) [.meas] →
     s.paramsOf 0x0302 p = leBytes 4 mask ++ leBytes 6 x ++ [if save then 1 else 0, 0] →
     (s.swapPending = false → s.Begins (s.postReq 4 0x0302 (.swap (BitVec.ofNat 20 mask) x save)) (.linSwap p) 0x0302 p
       (if save then 6 * maskCount mask else 0) (some .meas) []) ∧
     (s.swapPending = true → s.Declines (.linSwap p) 0x0302 p stBusy))

/-- LOOP_SET_FIXED posts a code on MB3 and waits for LOOP, unless multidrop is in force; LOOP_RELEASE posts a release while a fixed
current is in force or on its way, and otherwise completes at once. LOOP_FIX and LOOP_FREE do the same (08 R192, R196; 12 R299,
R313). LOOP has the commanded code's source change four ticks after the boundary at which it takes the notice (08 R192).

LOOP_TRIM at a fixed, untrimmed 4 mA or 20 mA current takes a measured point within 0.08 mA of it, computes the trim gain
from both points and saves the record; point 0 restores the nominal points. LOOP_TRIM_ZERO and LOOP_TRIM_SPAN are its two
points (08 R202, R203; 12 R313).

Where the spec leaves a point of this open, the clause is the model's choice: notes/assumptions/9, 41. -/
def Obligations.FixedCurrentAndTrimCommandsSetTheLoop : Prop :=
  (∀ (s : State) (p : Packet),
     (∀ (code : Nat) (b : Bool), 34000 ≤ code → code ≤ 230000 → s.Takes 0x0401 p 0 [.loop] → s.NoneWaits 0x0401 →
       s.paramsOf 0x0401 p = leBytes 4 code ++ [if b then 1 else 0, 0, 0, 0] →
       (s.mgmt.inForce.multidrop = false →
         s.Begins (s.postReq 3 0x0401 (.fix code b)) (.loopSetFixed p) 0x0401 p 0 (some .loop) []) ∧
       (s.mgmt.inForce.multidrop = true → s.Declines (.loopSetFixed p) 0x0401 p stNotPermitted)) ∧
     (s.Takes 0x0F30 p 0 [.loop] → s.NoneWaits 0x0F30 → let ps := s.nativeOf 0x0F30 p
       if 34000 ≤ leAt ps 0 4 ∧ leAt ps 0 4 ≤ 230000 ∧ leAt ps 4 1 ≤ 1 ∧ rsvdZero ps 5 3 = true then
         if s.mgmt.inForce.multidrop = true then s.M16Completes s (.loopFix p) 0x0F30 p stNotPermitted []
         else s.M16Begins (s.postReq 3 0x0401 (.fix (leAt ps 0 4) (leAt ps 4 1 == 1))) (.loopFix p) 0x0F30 p (some .loop) []
       else s.M16Completes s (.loopFix p) 0x0F30 p stBadParam []) ∧
     (s.Takes 0x0402 p 0 [.loop] → s.NoneWaits 0x0402 → s.paramsOf 0x0402 p = [] →
       if s.willFix = true then s.Begins (s.postReq 3 0x0402 .release) (.loopRelease p) 0x0402 p 0 (some .loop) []
       else s.Completes s (.loopRelease p) 0x0402 p (zeros 6)) ∧
     (s.Takes 0x0F31 p 0 [.loop] → s.NoneWaits 0x0F31 →
       if s.willFix = true then s.M16Begins (s.postReq 3 0x0402 .release) (.loopFree p) 0x0F31 p (some .loop) []
       else s.M16Completes s (.loopFree p) 0x0F31 p stOk (zeros 6)) ∧
     (∀ (r : Req) (a : CodeAct), (∃ c b, r = .fix c b ∧ a = .fix c b) ∨ (r = .release ∧ a = .release) →
       s.Only [.loop, .mgmt] (s.loopReq r) ∧
       (s.loopReq r).loop = { s.loop with sched := s.loop.sched ++ [⟨s.now + 4, a⟩] })) ∧
  (∀ (s : State) (p : Packet) (v : Nat), v < 4294967296 →
     let put (m4 m20 : Int) : State := (s.setLoop { s.loop with
       m4 := m4, m20 := m20, trimGain := floorDiv 671088640000 (m20 - m4).toNat }).setNvm { s.nvm with trim := (m4, m20) }
     let res (m4 m20 : Int) : List Byte := leBytes 4 (unsignedOf 32 m4) ++ leBytes 4 (unsignedOf 32 m20) ++
       leBytes 4 (unsignedOf 32 (floorDiv 671088640000 (m20 - m4).toNat))
     (s.Takes 0x0403 p 6 [.loop] → s.paramsOf 0x0403 p = zeros 4 ++ leBytes 4 v →
       s.Completes (put 40000 200000) (.loopTrim p) 0x0403 p (res 40000 200000)) ∧
     (s.loop.fixed = some (40000, true) → ((v : Int) - 40000).natAbs ≤ 800 →
       (s.Takes 0x0403 p 6 [.loop] → s.paramsOf 0x0403 p = [1, 0, 0, 0] ++ leBytes 4 v →
         s.Completes (put v s.loop.m20) (.loopTrim p) 0x0403 p (res v s.loop.m20)) ∧
       (s.Takes 0x0F32 p 6 [.loop] → ∃ w, w = leAt (s.nativeOf 0x0F32 p) 4 4 ∧
         if ((w : Int) - 40000).natAbs ≤ 800 then s.M16Completes (put w s.loop.m20) (.loopTrimZero p) 0x0F32 p stOk (res w s.loop.m20)
         else s.M16Completes s (.loopTrimZero p) 0x0F32 p stBadParam [])) ∧
     (s.loop.fixed = some (200000, true) → ((v : Int) - 200000).natAbs ≤ 800 →
       (s.Takes 0x0403 p 6 [.loop] → s.paramsOf 0x0403 p = [2, 0, 0, 0] ++ leBytes 4 v →
         s.Completes (put s.loop.m4 v) (.loopTrim p) 0x0403 p (res s.loop.m4 v)) ∧
       (s.Takes 0x0F33 p 6 [.loop] → ∃ w, w = leAt (s.nativeOf 0x0F33 p) 4 4 ∧
         if ((w : Int) - 200000).natAbs ≤ 800 then s.M16Completes (put s.loop.m4 w) (.loopTrimSpan p) 0x0F33 p stOk (res s.loop.m4 w)
         else s.M16Completes s (.loopTrimSpan p) 0x0F33 p stBadParam [])))

/-- FAB_ASSIGN with the device's UID, FAB_BEARING_WRITE and FAB_PUBLISH_SLOTS write and commit their fields and post the line
token that carries them to the next idle line; nothing is in force yet (10 R242, R251, R253; 12 R311).

FAB_TIME sets, replaces and clears the fabric time event, and sets the count at the next boundary, in place of a slew, unless
fabric time is LOCKED; each reports the fabric time as it then stands (10 R257, R260; 01 R16).

Where the spec leaves a point of this open, the clause is the model's choice: notes/assumptions/63. -/
def Obligations.FabricCommandsCommitFieldsAndSetTime : Prop :=
  (∀ (s : State) (p : Packet), s.mgmt.shadow.wf = true → s.mgmt.committed.wf = true →
     let commits (u : State) (fs : List (Nat × Int)) : Prop :=
       u.mgmt = { s.mgmt with shadow := u.mgmt.shadow, committed := u.mgmt.committed, pendLine := u.mgmt.pendLine } ∧
       (∀ id, u.mgmt.committed.val id = (lastWrite fs id).getD (s.mgmt.committed.val id)) ∧
       (∀ id, u.mgmt.shadow.val id = (lastWrite fs id).getD (s.mgmt.shadow.val id)) ∧
       u.mgmt.pendLine = some ⟨u.mgmt.committed, s.now, none, false⟩
     (∀ addr, addr < 4096 → addr % 64 ≠ 63 → s.Takes 0x0501 p 0 [] → assignRight s p = true →
       s.paramsOf 0x0501 p = leBytes 8 Config.uid.toNat ++ leBytes 2 addr ++ zeros 2 → ∃ u,
       s.Completes u (.fabAssign p) 0x0501 p [] ∧ s.Only [.mgmt, .fab] u ∧ u.fab = { s.fab with assigned := true } ∧
       commits u [(fid 9 0 0, (addr : Int))]) ∧
     (∀ (first : Nat) (codes : List Byte), codes ≠ [] → first + codes.length ≤ 64 → (∀ b ∈ codes, b.toNat ≤ 2) →
       (∀ i, i < codes.length → first + i = s.mgmt.committed.fabAddr / 64 → codes.getD i 0 = 1) → s.Takes 0x0502 p 0 [] →
       s.paramsOf 0x0502 p = [BitVec.ofNat 8 first, BitVec.ofNat 8 codes.length] ++ codes → ∃ u,
       s.Completes u (.fabBearingWrite p) 0x0502 p [] ∧ s.Only [.mgmt] u ∧
       commits u ((List.range codes.length).map fun i => (fid 11 0 (first + i), ((codes.getD i 0).toNat : Int)))) ∧
     (let ps := s.paramsOf 0x0507 p;
       ps.length = 52 → (∀ f ∈ publishFields ps, fieldOfWire f.1 f.2 = some (f.2 : Int)) → (rsvdZero ps 2 2 = true) →
       (∀ n, n < 4 → rsvdZero ps (13 + 12 * n) 3 = true ∧
         firstFail (publishChecks n (leAt ps (4 + 12 * n) 4) (leAt ps (8 + 12 * n) 4) (leAt ps (12 + 12 * n) 1)) = none) →
       s.Takes 0x0507 p 0 [] → ∃ u, s.Completes u (.fabPublishSlots p) 0x0507 p [] ∧ s.Only [.mgmt] u ∧
       commits u ((publishFields ps).map fun f => (f.1, (f.2 : Int))))) ∧
  (∀ (s : State) (p : Packet) (x : Nat), x < 281474976710656 → s.Takes 0x0506 p 0 [.loop] → s.hasRight p 2 = true →
     let reports (v : State) (c : Instr) : Prop := ∃ u res, s.Completes u c 0x0506 p res ∧ v.Only [.free] u ∧
       leAt res 0 1 = b2n s.fab.locked ∧ leAt res 8 6 = s.clock.meridian.toNat ∧ leAt res 14 1 = b2n v.fab.event.isSome ∧
       leAt res 16 6 = (v.fab.event.getD 0).toNat
     (fabTimeOp p = 1 → s.paramsOf 0x0506 p = [1, 0] ++ leBytes 6 x →
       reports (s.setFab { s.fab with event := some (BitVec.ofNat 48 x) }) (.fabTimeSetEvent p)) ∧
     (fabTimeOp p = 2 → s.paramsOf 0x0506 p = [2, 0] ++ leBytes 6 x →
       reports (s.setFab { s.fab with event := none }) (.fabTimeClearEvent p)) ∧
     (fabTimeOp p = 3 → s.paramsOf 0x0506 p = [3, 0] ++ leBytes 6 x → s.fab.locked = false →
       reports { s with clock := { s.clock with timeSet := some (BitVec.ofNat 48 x), slew := none } } (.fabTimeSetCount p)) ∧
     (fabTimeOp p = 3 → s.paramsOf 0x0506 p = [3, 0] ++ leBytes 6 x → s.fab.locked = true →
       ∃ t, exec (.fabTimeSetCount p) s = .next t ∧ s.Replied t 0x0506 p stNotPermitted []))

/-- DEV_RESET_ISLAND posts the reset of the island on MB7: the commands for LOOP and MEAS wait for UP, the one for MGMT is answered
first, and AON's is not permitted (13 R329, 12 Table 12-12).

FLT_ACK of a detector with an open fault, FLT_INJECT of an injectable one, and FLT_CLEAR post their request to AON on MB7; FLT_INJECT
needs a signature from a fabric sender and may have one from the local host (13 R317, R332, R337; 12 R304).

OBS_TRACE_SELECT answers the mask in effect and posts the new one to AON on MB7; SYNC and DROP stay enabled. AON has it in effect
from the boundary at which it takes the notice (15 R377).

Where the spec leaves a point of this open, the clause is the model's choice: notes/assumptions/18, 31, 74. -/
def Obligations.ResetFaultAndTraceCommandsReachAon : Prop :=
  (∀ (s : State) (p : Packet), s.Takes 0x0003 p 0 [.aon] → s.NoneWaits 0x0003 →
     (∀ i : Island, i = .loop ∨ i = .meas → s.paramsOf 0x0003 p = [srcOf i, 0, 0, 0] →
       s.Begins (s.postReq 7 0x0003 (.resetIsland i)) (.devResetIsland p) 0x0003 p 0 none []) ∧
     (s.paramsOf 0x0003 p = [0x10, 0, 0, 0] → ∃ v,
       exec (.devResetIsland p) s = .next (v.postReq 7 0x0003 (.resetIsland .mgmt)) ∧ s.Replied v 0x0003 p stOk []) ∧
     (s.paramsOf 0x0003 p = [0x40, 0, 0, 0] → s.Declines (.devResetIsland p) 0x0003 p stNotPermitted)) ∧
  (∀ (s : State) (p : Packet) (d : BitVec 6),
     ((∃ o ∈ s.faults.opens, o.det = d) → s.Takes 0x0602 p 0 [.aon] → s.paramsOf 0x0602 p = [d.setWidth 8, 0, 0, 0] →
       s.Completes (s.postReq 7 0x0602 (.ack d true)) (.fltAck p) 0x0602 p []) ∧
     ((∀ o ∈ s.faults.opens, o.det ≠ d) → s.Takes 0x0602 p 0 [.aon] → s.paramsOf 0x0602 p = [d.setWidth 8, 0, 0, 0] →
       s.Declines (.fltAck p) 0x0602 p stBadParam) ∧
     (∀ (n : Byte) (r : DetRow), detRow d.toNat = some r → r.inj = true → n ≠ 0 →
       (p.src = 0x01 → pktSigned p = false → s.Takes 0x0603 p 0 [.aon] → s.paramsOf 0x0603 p = [d.setWidth 8, n, 0, 0] →
         s.Completes (s.postReq 7 0x0603 (.inject d n.toNat)) (.fltInject p) 0x0603 p []) ∧
       (p.src ≠ 0x01 → pktSigned p = false → s.Takes 0x0603 p 0 [.aon] → s.paramsOf 0x0603 p = [d.setWidth 8, n, 0, 0] →
         s.Declines (.fltInject p) 0x0603 p stAuthFail) ∧
       (s.Signed 0x0603 p 4 → s.Takes 0x0603 p 306 [.aon] → (s.paramsOf 0x0603 p).take 4 = [d.setWidth 8, n, 0, 0] →
         s.SignedCompletes ((s.countAccepted (leAt (s.paramsOf 0x0603 p) 4 8)).postReq 7 0x0603 (.inject d n.toNat))
           (.fltInject p) 0x0603 p 4 [])) ∧
     (∀ scope : Nat, scope < 2 → s.Takes 0x0604 p (if scope = 1 then 6 else 0) [.aon] →
       s.paramsOf 0x0604 p = [BitVec.ofNat 8 scope, 0, 0, 0] →
       s.Completes (s.postReq 7 0x0604 (.clearLog scope)) (.fltClear p) 0x0604 p [])) ∧
  (∀ (s : State) (p : Packet) (v : Nat), v < 32768 → v % 2 = 0 → s.Takes 0x0802 p 0 [.aon] → s.paramsOf 0x0802 p = leBytes 4 v →
     let m : Word32 := BitVec.ofNat 32 v ||| 6
     s.Completes ((s.setObs { s.obs with maskNext := some m }).postReq 7 0x0802 (.traceMask m)) (.obsTraceSelect p) 0x0802 p
       (leBytes 4 (s.obs.maskNext.getD s.obs.mask).toNat) ∧
     s.Only [.obs] (s.aonReq (.traceMask m)) ∧ (s.aonReq (.traceMask m)).obs.mask = m)

/-- SEC_ATTEST occupies the interpreter. The first tick after the one of its admission ends with the capture of the attestation record, which
holds the nonce, and its digest is signed with the identity key and 32 fresh bytes; each later tick of MGMT takes its cycles off the
iterations', 260,000 each, and with the last the command ends with record and signature, or with ST_INTERNAL if every candidate was
rejected (14 R344, R348 to R350).

The signed commands: SEC_GRANT writes its entries into the grant table and saves it; UPD_BEGIN opens a session and sets the
inactive slot to WRITING; UPD_ACTIVATE sets the verified slot to READY at tick X', reserves the commit's writes and asks AON
on MB7. Each also accepts its signature's counter; with a signature that does not verify none has an effect
(12 R304, R306; 14 R353, R356; 03 R57).

Where the spec leaves a point of this open, the clause is the model's choice: notes/assumptions/7, 17, 49. -/
def Obligations.AttestationAndSignedCommandsTakeEffect : Prop :=
  ((∀ (s : State) (p : Packet), (s.paramsOf 0x0701 p).length = 32 → s.Takes 0x0701 p 1100 [] → s.Readable [seedPage] →
     ∃ t, exec (.secAttest p) s = .next t ∧ State.Waits s
       (s.setMgmt { s.mgmt with attest := some ⟨s.paramsOf 0x0701 p, s.now, none, 0⟩ }) t 0x0701 p 1100 none (some s.now) []) ∧
   (∀ (s : State) (a : Attest), s.mgmt.attest = some a → s.mgmtUp = true → a.nonce.length = 32 →
     (a.out = none → s.now ≤ a.since → s.attestTick = s) ∧
     (a.out = none → a.since < s.now →
       let r := s.attestRecord a.nonce
       (r.drop 20).take 32 = a.nonce ∧ leAt r 12 6 = s.clock.meridian.toNat ∧ ∃ (sig : Option (List Byte)) (n : Nat),
         Mldsa.sign s.nvm.seed (sha3 r) (leBytes 32 (Config.freeBits 256 s.free).toNat) = (sig, n) ∧
         s.attestTick = ({ s with free := s.free + 1 } : State).setMgmt { s.mgmt with attest := some { a with
           out := some (match sig with
             | some x => (stOk, r ++ x)
             | none => (stInternal, []))
           left := 260000 * n } }) ∧
     (∀ st res, a.out = some (st, res) →
       s.attestTick = if a.left ≤ 16 * 2 ^ s.energy.freq then (s.setMgmt { s.mgmt with attest := none }).outstDone 0x0701 st res
         else s.setMgmt { s.mgmt with attest := some { a with left := a.left - 16 * 2 ^ s.energy.freq } }))) ∧
  (∀ (s : State) (p : Packet) (i : Island),
     (∀ (es : List (BitVec 12 × BitVec 16)), es ≠ [] → es.length ≤ 16 → (∀ e ∈ es, e.2.toNat / 128 % 256 = 0) →
       (es.foldl (fun g e => putGrant g e.1 e.2) s.mgmt.grants).length ≤ 32 → s.Signed 0x0707 p (4 + 4 * es.length) →
       s.Takes 0x0707 p 312 [] → (s.paramsOf 0x0707 p).take (4 + 4 * es.length) =
         leBytes 1 es.length ++ zeros 3 ++ es.flatMap (fun e => leBytes 2 e.1.toNat ++ leBytes 2 e.2.toNat) →
       let g := es.foldl (fun g e => putGrant g e.1 e.2) s.mgmt.grants
       let v := s.countAccepted (leAt (s.paramsOf 0x0707 p) (4 + 4 * es.length) 8)
       s.SignedCompletes ((v.setMgmt { s.mgmt with grants := g }).setNvm (v.nvm.putGrants g)) (.secGrant p) 0x0707 p
         (4 + 4 * es.length) (leBytes 1 g.length ++ zeros 3)) ∧
     (∀ (len ver : Nat), ver < 4294967296 → 64 + 3736 * s.nvm.nsig ≤ len → len ≤ maxImage i s.nvm.nsig →
       s.nvm.fuses.at i ≤ ver / 67108864 → (∀ u, s.mgmt.upd = some u → u.owns p = true) → s.actPending i = false →
       s.Signed 0x0703 p 12 → s.Takes 0x0703 p 312 [] →
       (s.paramsOf 0x0703 p).take 12 = [srcOf i, 0, 0, 0] ++ leBytes 4 len ++ leBytes 4 ver →
       let v := s.countAccepted (leAt (s.paramsOf 0x0703 p) 12 8)
       s.SignedCompletes ((v.setDir i ((s.nvm.dirs.at i).setInactive ⟨.writing, [], 0, 0⟩)).setMgmt { s.mgmt with
         upd := some ⟨i, p.src, p.sender, len, ver, s.now, [], []⟩, verified := s.mgmt.verified.put i false })
         (.updBegin p) 0x0703 p 12 (leBytes 1 (b2n (!(s.nvm.dirs.at i).activeB)) ++ zeros 3)) ∧
     (∀ (x : Nat), x < 281474976710656 → s.actPending i = false → s.mgmt.verified.at i = true →
       (x = 0 ∨ ahead x s.clock.meridian.toNat ≤ 2147483648) → s.NoneWaits 0x0706 → s.Signed 0x0706 p 8 →
       s.Takes 0x0706 p (318 + s.fusesToBlow i) [.aon] → (s.paramsOf 0x0706 p).take 8 = [srcOf i, 0] ++ leBytes 6 x →
       let x' := effectTick x s.clock.meridian.toNat
       let d := s.nvm.dirs.at i
       let h := s.header i
       let v := (s.countAccepted (leAt (s.paramsOf 0x0706 p) 8 8)).setDir i
         { d.setInactive ⟨.ready, sha3 h, leAt h 8 4, leAt h 7 1⟩ with
           actTick := some x', wasCommitted := d.inactive.st == .committed }
       let v := v.setMgmt { s.mgmt with upd := (s.touchUpd p).mgmt.upd.filter fun u => u.island != i }
       let v := v.setEnergy { s.energy with
         reserved := s.energy.reserved ++ if s.energy.aux then [] else [(commitKey i, 6 + s.fusesToBlow i)] }
       let v := v.postReq 7 0x0706 (.activate i)
       (i = .mgmt → s.SignedCompletes v (.updActivate p) 0x0706 p 8 (leBytes 6 x')) ∧
       (i ≠ .mgmt → ∃ t, exec (.updActivate p) s = .next t ∧
         (s.Verifies 0x0706 p 8 → State.Waits s v t 0x0706 p (318 + s.fusesToBlow i) none none (leBytes 6 x')) ∧
         (¬ s.Verifies 0x0706 p 8 → (s.touchUpd p).Replied t 0x0706 p stAuthFail []))))

/-- UPD_CHUNK puts the bytes of its owner's session into the pages of the image, and a page whose bytes are all there into the
inactive slot, at its own addresses alone and with good words; UPD_VERIFY of a complete image of its owner's session, or without one
of a slot that has held a committed or failed image, marks the slot as verified when it passes every check, and otherwise answers
the first failing check's status (14 R354, R355).

Where the spec leaves a point of this open, the clause is the model's choice: notes/assumptions/7, 49. -/
def Obligations.ChunksFillPagesAndVerifyMarksTheSlot : Prop :=
  ∀ (s : State) (p : Packet),
    (∀ (u : UpdSession) (off : Nat) (bs : List Byte), s.mgmt.upd = some u → u.owns p = true → u.parts.Pairwise (fun x y => x.1 < y.1) →
      s.imagesOk → off < 4294967296 → bs ≠ [] → bs.length ≤ 240 → off + bs.length ≤ u.len →
      (u.chunk off bs).2.2.length ≤ 16 → s.Takes 0x0704 p (6 * (u.chunk off bs).2.1.length) [] →
      s.paramsOf 0x0704 p = leBytes 4 off ++ bs → ∃ v, s.Completes v (.updChunk p) 0x0704 p [] ∧ s.Only [.mgmt, .nvm] v ∧
      let pages := (u.chunk off bs).2.1
      let slotB := !(s.nvm.dirs.at u.island).activeB
      v.nvm = { s.nvm with imgA := v.nvm.imgA, imgB := v.nvm.imgB, bad := v.nvm.bad } ∧
      (∀ g, g ∈ v.nvm.bad ↔ g ∈ s.nvm.bad ∧ g ∉ pages.flatMap (imagePage u.island slotB)) ∧
      (∀ i, (i ≠ u.island ∨ slotB = true) → v.nvm.imgA.at i = s.nvm.imgA.at i) ∧
      (∀ i, (i ≠ u.island ∨ slotB = false) → v.nvm.imgB.at i = s.nvm.imgB.at i) ∧
      (∀ a, cellRead (v.inactiveMem u.island) a = if a / 256 ∈ pages then
        ((((u.chunk off bs).1.find? fun c => c.1 == a).map (·.2)).getD (cellRead (s.inactiveMem u.island) a))
        else cellRead (s.inactiveMem u.island) a) ∧
      v.mgmt = { s.mgmt with upd := v.mgmt.upd } ∧ (∃ w, v.mgmt.upd = some w ∧ w.last = s.now ∧ w.island = u.island ∧
        w.len = u.len ∧ w.version = u.version ∧ ∀ g, g ∈ w.written ↔ g ∈ u.written ∨ g ∈ pages)) ∧
    (∀ i : Island, let own := s.mgmt.upd.filter fun u => u.island == i
      (∀ u, s.mgmt.upd = some u → u.owns p = true) → (∀ u, own = some u → ∀ g, g < ceilDiv u.len 256 → g ∈ u.written) →
      (own = none → (s.nvm.dirs.at i).inactive.st = .committed ∨ (s.nvm.dirs.at i).inactive.st = .failed) →
      s.Takes 0x0705 p (300 * s.imageSigs i + ceilDiv (s.verifyLen i) 10240) [] → s.paramsOf 0x0705 p = [srcOf i, 0, 0, 0] →
      s.Readable ((List.range (ceilDiv (s.verifyLen i) 256)).flatMap (imagePage i !(s.nvm.dirs.at i).activeB)) →
      let v := s.touchUpd p
      (∀ u ∈ v.mgmt.upd, u.last = s.now) ∧ ∃ t, exec (.updVerify p) s = .next t ∧ match s.imageStatus i (own.map (·.len)) (own.map (·.version)) with
        | none => (v.setMgmt { v.mgmt with verified := s.mgmt.verified.put i true }).Replied t 0x0705 p stOk
          (sha3 (s.header i) ++ leBytes 4 (leAt (s.header i) 8 4))
        | some st => v.Replied t 0x0705 p st [])

/-- A packet of whatever command from a sender without its right, or with a reserved header field set or a wrong length, is answered
with the status of the check that fails and has no effect but that one of the update commands counts for its session; while MGMT takes
no commands, or signs an attestation, it has none at all (12 R298, R299, R305; 11 R286; 14 R353).

A command in order up to its cost, its islands and its opcode is refused without effect: with ST_ENERGY_DEFERRED and the ticks to
wait, and counted, where the governor does not admit its cost; with ST_ISLAND_DOWN where an island that it needs does not run; with
ST_BUSY where a command with its opcode is outstanding. An M16 command has no wait in its result, and says busy in the M16's own code. A
signature that has verified stays counted when its command is refused for its island or its opcode (03 R57, R58; 12 R298 to R300, R304,
R313; 00 R3).

Where the spec leaves a point of this open, the clause is the model's choice: notes/assumptions/1, 11, 20, 91. -/
def Obligations.TurnedAwayCommandsHaveNoEffect : Prop :=
  (∀ (s : State) (c : Instr) (op : Nat) (p : Packet), commandOf c = some (op, p) →
     (s.mgmtUp = false ∨ s.ready = false ∨ ¬ s.NoneWaits 0x0701 → exec c s = .next s) ∧
     (s.memoryOk → (∀ r ∈ s.mgmt.replies, r.bytes.length ≤ 256) → s.mgmtUp = true → s.ready = true → s.NoneWaits 0x0701 →
       s.Next op p → ∀ st, headerStatus p = some st → (∀ a ∈ s.mgmt.assemblies, a.src = p.src → a.op = op → a.tag ≠ p.tag) →
         ∃ t, exec c s = .next t ∧ (s.started op p).Replied t op p st []) ∧
     (s.Delivers op p → senderRight op s p = false →
       ∃ t st, exec c s = .next t ∧ (s.started op p).Replied t op p st [] ∧ (st = stNotPermitted ∨ st = stBadLength))) ∧
  (∀ (s : State) (p : Packet),
     let offered (op : Nat) (len : Nat → Bool) : Prop :=
       s.Delivers op p ∧ senderRight op s p = true ∧ len (s.paramsOf op p).length = true
     let answers (c : Instr) (op st : Nat) (u : State) (res : List Byte) : Prop := ∃ t, exec c s = .next t ∧ u.Replied t op p st res
     let deferred (c : Instr) (op cost : Nat) (m16 : Bool) : Prop := s.admits cost = false →
       answers c op stEnergyDeferred ((s.started op p).count .energyDefer) (if m16 then [] else leBytes 4 (s.deferTicks cost))
     let ps (op : Nat) : List Byte := s.paramsOf op p
     (offered 0x0105 (· == 0) → deferred (.almSave p) 0x0105 150 false) ∧
     (offered 0x0403 (· == 8) → deferred (.loopTrim p) 0x0403 6 false) ∧
     (offered 0x0302 (· == 12) → leAt (ps 0x0302) 10 1 = 1 →
       deferred (.linSwap p) 0x0302 (6 * maskCount (leAt (ps 0x0302) 0 4)) false) ∧
     (offered 0x0604 (· == 4) → leAt (ps 0x0604) 0 1 = 1 → deferred (.fltClear p) 0x0604 6 false) ∧
     (offered 0x0701 (· == 32) → deferred (.secAttest p) 0x0701 1100 false) ∧
     (∀ n, s.Signed 0x0707 p (4 + 4 * n) → 1 ≤ n → n ≤ 16 → leAt (ps 0x0707) 0 1 = n → s.Delivers 0x0707 p →
       deferred (.secGrant p) 0x0707 312 false) ∧
     (s.Signed 0x0703 p 12 → offered 0x0703 (· == 2444) → deferred (.updBegin p) 0x0703 312 false) ∧
     (∀ i, s.Signed 0x0706 p 8 → offered 0x0706 (· == 2440) → leAt (ps 0x0706) 0 1 = (srcOf i).toNat →
       deferred (.updActivate p) 0x0706 (318 + s.fusesToBlow i) false) ∧
     (s.Signed 0x0603 p 4 → offered 0x0603 (· == 2436) → deferred (.fltInject p) 0x0603 306 false) ∧
     (∀ u, s.mgmt.upd = some u → offered 0x0704 (fun n => 5 ≤ n && n ≤ 244) → deferred (.updChunk p) 0x0704
       (6 * (u.chunk (leAt (ps 0x0704) 0 4) ((ps 0x0704).drop 4)).2.1.length) false) ∧
     (∀ i, offered 0x0705 (· == 4) → leAt (ps 0x0705) 0 1 = (srcOf i).toNat → deferred (.updVerify p) 0x0705
       (300 * s.imageSigs i + ceilDiv (s.verifyLen i) 10240) false) ∧
     (offered 0x0F50 (Config.m16Length 0x0F50) → deferred (.saveConfig p) 0x0F50 150 true) ∧
     (offered 0x0F32 (Config.m16Length 0x0F32) → deferred (.loopTrimZero p) 0x0F32 6 true) ∧
     (offered 0x0F33 (Config.m16Length 0x0F33) → deferred (.loopTrimSpan p) 0x0F33 6 true) ∧
     (offered 0x0F40 (Config.m16Length 0x0F40) → deferred (.calWrite p) 0x0F40 (6 * Config.m16Pages 0x0F40 (ps 0x0F40)) true) ∧
     (∀ (c : Instr) (op len : Nat) (i : Island),
       (c, op, len, i) ∈ [(Instr.seqStart p, 0x0201, 4, Island.meas), (.seqStop p, 0x0202, 4, .meas), (.seqTrigger p, 0x0203, 4, .meas),
         (.sliceRetire p, 0x0205, 4, .meas), (.sliceRestore p, 0x0206, 4, .meas), (.loopSetFixed p, 0x0401, 8, .loop),
         (.loopRelease p, 0x0402, 0, .loop), (.devResetIsland p, 0x0003, 4, .aon)] → offered op (· == len) →
       (s.upAt i = false → answers c op stIslandDown s []) ∧
       (s.upAt i = true → ¬ s.NoneWaits op → answers c op stBusy s [])) ∧
     (∀ (c : Instr) (op len : Nat) (i : Island),
       (c, op, len, i) ∈ [(Instr.queueBind p, 0x0204, 16, Island.meas), (.linRead p, 0x0303, 4, .meas), (.varRead p, 0x0304, 4, .meas),
         (.loopStatus p, 0x0404, 0, .loop), (.fabSessions p, 0x0504, 0, .loop), (.fabNoiseFloor p, 0x0505, 4, .loop),
         (.fltAck p, 0x0602, 4, .aon), (.obsTraceSelect p, 0x0802, 4, .aon)] → offered op (· == len) →
       s.upAt i = false → answers c op stIslandDown s []) ∧
     (∀ c, commandOf c = some (0x0506, p) → offered 0x0506 (· == 8) → s.upAt .loop = false → answers c 0x0506 stIslandDown s []) ∧
     (offered 0x0508 (fun n => 1 ≤ n && n ≤ 248) → (s.upAt .loop = false → answers (.fskPass p) 0x0508 stIslandDown s []) ∧
       (s.upAt .loop = true → ¬ s.NoneWaits 0x0508 → answers (.fskPass p) 0x0508 stBusy s [])) ∧
     (∀ (c : Instr) (op : Nat) (i : Island),
       (c, op, i) ∈ [(Instr.startConv p, 0x0F10, Island.meas), (.stopConv p, 0x0F11, .meas), (.trigConv p, 0x0F12, .meas),
         (.loopFix p, 0x0F30, .loop), (.loopFree p, 0x0F31, .loop)] → offered op (Config.m16Length op) →
       (s.upAt i = false → answers c op stIslandDown s []) ∧
       (s.upAt i = true → ¬ s.NoneWaits op → answers c op (m16Answer op stBusy []).1 s (m16Answer op stBusy []).2)) ∧
     (∀ (c : Instr) (op : Nat) (i : Island), (c, op, i) ∈ [(Instr.readChannel p, 0x0F20, Island.meas), (.readPv p, 0x0F21, .meas)] →
       offered op (Config.m16Length op) → s.upAt i = false → answers c op stIslandDown s []) ∧
     (offered 0x0103 (· == 0) → (s.applyNeeds.any fun i => !s.upAt i) = true → answers (.almApply p) 0x0103 stIslandDown s []) ∧
     (offered 0x0302 (· == 12) →
       s.admits (if leAt (ps 0x0302) 10 1 % 2 = 1 then 6 * maskCount (leAt (ps 0x0302) 0 4) else 0) = true →
       (s.upAt .meas = false → answers (.linSwap p) 0x0302 stIslandDown s []) ∧
       (s.upAt .meas = true → ¬ s.NoneWaits 0x0302 → answers (.linSwap p) 0x0302 stBusy s [])) ∧
     (offered 0x0403 (· == 8) → s.admits 6 = true → s.upAt .loop = false → answers (.loopTrim p) 0x0403 stIslandDown s []) ∧
     (∀ (c : Instr) (op : Nat), (c, op) ∈ [(Instr.loopTrimZero p, 0x0F32), (.loopTrimSpan p, 0x0F33)] →
       offered op (Config.m16Length op) → s.admits 6 = true → s.upAt .loop = false → answers c op stIslandDown s []) ∧
     (offered 0x0604 (· == 4) → s.admits (if leAt (ps 0x0604) 0 1 = 1 then 6 else 0) = true → s.upAt .aon = false →
       answers (.fltClear p) 0x0604 stIslandDown s []) ∧
     (offered 0x0603 (· == 4) → p.src = 0x01 → pktSigned p = false → s.upAt .aon = false →
       answers (.fltInject p) 0x0603 stIslandDown s []) ∧
     (s.Signed 0x0603 p 4 → offered 0x0603 (· == 2436) → s.admits 306 = true → s.Verifies 0x0603 p 4 → s.upAt .aon = false →
       answers (.fltInject p) 0x0603 stIslandDown (s.countAccepted (leAt (ps 0x0603) 4 8)) []) ∧
     (∀ i, s.Signed 0x0706 p 8 → offered 0x0706 (· == 2440) → leAt (ps 0x0706) 0 1 = (srcOf i).toNat →
       s.admits (318 + s.fusesToBlow i) = true → s.Verifies 0x0706 p 8 →
       let u := (s.countAccepted (leAt (ps 0x0706) 8 8)).started 0x0706 p
       (s.upAt .aon = false → answers (.updActivate p) 0x0706 stIslandDown u []) ∧
       (s.upAt .aon = true → ¬ s.NoneWaits 0x0706 → answers (.updActivate p) 0x0706 stBusy u [])))

/-- A step takes the front of the queue and runs it on the state with the queue's rest.

Where the spec leaves a point of this open, the clause is the model's choice: notes/assumptions/1. -/
def Obligations.StepRunsTheFrontCommand : Prop :=
  ∀ (s : State) (c : Instr) (cs : List Instr), step { s with pending := c :: cs } = exec c { s with pending := cs }

/-- With an empty queue the device idles: the model's own choice (notes/assumptions/2). -/
def Obligations.EmptyQueueIdles : Prop := ∀ s : State, s.pending = [] → step s = .next s

/-- The state at reset is a safe one, and its output stands at 3.50 mA with FAULT_N low, the season WINTER and the doorbell mask of
11 R285.

Where the spec leaves a point of this open, the clause is the model's choice: notes/assumptions/1, 5. -/
def Obligations.ResetIsSafe : Prop :=
  State.reset.Safe ∧ State.reset.loop.cmd = 35000 ∧ State.reset.pins.faultLow = true ∧ State.reset.energy.season = .winter ∧
    State.reset.win.dbMask = 0x00003803 ∧ State.reset.obs.mask = 0x0000061E ∧ State.reset.clock.meridian = 0 ∧
    State.reset.mgmtUp = false

/-- Every step keeps the canonical form of the window's memory and of the images.

Where the spec leaves a point of this open, the clause is the model's choice: notes/assumptions/4, 12. -/
def Obligations.EveryStepKeepsMemoryCanonical : Prop :=
  ∀ s t : State, s.memoryOk → s.imagesOk → step s = .next t → t.memoryOk ∧ t.imagesOk

/-- Every step keeps the result queue within its 512 entries and the fault log within its 16 (06 R159; 13 R335). -/
def Obligations.EveryStepKeepsItsBounds : Prop :=
  ∀ s t : State, s.queueOk → s.logOk → step s = .next t → t.queueOk ∧ t.logOk

/-- No step undoes what is burnt or counted for good: a fused OEM digest stays, anti-rollback fuses do not fall, and the free values
drawn are never drawn again. The signature counters do not fall while they are the newest record of their pages, which every step keeps
them; only a power-up that cannot read one of the two pages may find an older record (12 R304; 14 R346, R347, R359).

Where the spec leaves a point of this open, the clause is the model's choice: notes/assumptions/6. -/
def Obligations.OneWayValuesNeverGoBack : Prop :=
  ∀ s t : State, step s = .next t →
    let recorded (x : State) : Prop := x.nvm.ctrRecs.load true true = some (x.nvm.ctrVendor, x.nvm.ctrOem)
    let read := (∀ b, s.pending.head? ≠ some (.aonPowerUp b)) ∨ (ctrPages.1 ∉ s.nvm.bad ∧ ctrPages.2 ∉ s.nvm.bad)
    (s.nvm.oem ≠ none → t.nvm.oem = s.nvm.oem) ∧
    (∀ i : Island, s.nvm.fuses.at i ≤ 63 → s.nvm.fuses.at i ≤ t.nvm.fuses.at i ∧ t.nvm.fuses.at i ≤ 63) ∧
    (recorded s → read → s.nvm.ctrVendor ≤ t.nvm.ctrVendor ∧ s.nvm.ctrOem ≤ t.nvm.ctrOem ∧ recorded t) ∧ s.free ≤ t.free

/-- An SPI write is carried out only whole: with another byte count, a reserved command bit set or a wrong CRC nothing is
written; otherwise all of its bytes are, and in the window they stand at the addressed bytes alone. A write that meets a buffer
which the host does not own is discarded as a whole. While its bytes pass, HMISO carries the status byte and zeros
(11 R263, R265, R267, R277, Table 11-1).

Where the spec leaves a point of this open, the clause is the model's choice: notes/assumptions/72. -/
def Obligations.SpiWriteIsWholeOrNothing : Prop :=
  ∀ (s : State) (bytes : List Byte) (whole : Bool), s.spiOn = true →
    let c := (byteAt bytes 0).toNat
    let n := spiLen c
    let a := (byteAt bytes 1).toNat * 256 + (byteAt bytes 2).toNat
    let data := (bytes.drop 3).take n
    let good := bytes.length = n + 4 ∧ whole = true ∧ c % 16 = 0 ∧ crc8 (bytes.take (n + 3)) = byteAt bytes (n + 3)
    let hostOwned := ∀ b ∈ touchedBufs a n, (s.win.ownAt b).own = .host
    let hmiso := if s.pins.started.mgmt = true then s.spiStatusByte :: zeros (bytes.length - 1) else []
    bytes ≠ [] → c < 128 →
    (¬ good → ∃ t st, exec (.spiWrite bytes whole) s = .next t ∧ s.Only [.win, .obs] t ∧
      t.win = { s.win with out := hmiso, status := st } ∧
      st.prevOk = false ∧ (st.crcErr = true ∨ st.frameErr = true) ∧ s.CountersBut [.spiCrcErr, .spiFrameErr] t) ∧
    (good → exec (.spiWrite bytes whole) s = .next ((s.setWin { s.win with out := hmiso }).spiWrite a data)) ∧
    (good → s.memoryOk → a + n ≤ 0x4000 → hostOwned → ∃ t, exec (.spiWrite bytes whole) s = .next t ∧ s.Only [.win] t ∧
      t.win = { s.win with mem := t.win.mem, out := hmiso, status := ⟨true, false, false, false, false, false⟩ } ∧
      (∀ i, i < n → cellRead t.win.mem (a + i) = byteAt bytes (3 + i)) ∧
      ∀ x, (x < a ∨ a + n ≤ x) → cellRead t.win.mem x = cellRead s.win.mem x) ∧
    (good → a + n ≤ 0x4000 → ¬ hostOwned → ∃ t, exec (.spiWrite bytes whole) s = .next t ∧ s.Only [.win, .obs] t ∧
      t.win = { s.win with out := hmiso, status := ⟨false, false, false, true, false, false⟩ } ∧ s.CountersBut [.ownViol] t)

/-- A post to MB0 that meets a pending notice, or whose buffer is not HOST-owned, is refused; where both hold, BUSY and POST_ERR are set,
and the statement leaves OWN_ERR open (11 R283). -/
def Obligations.RefusedPostChangesNothing : Prop :=
  ∀ (s : State) (w : Word64), s.spiOn = true →
    ((s.win.mbAt 0).pending = true → ∃ t ownErr, exec (.mb0Post w) s = .next t ∧ s.Only [.win, .obs] t ∧ s.OnlyTrace t ∧
      t.win = { s.win with mb := t.win.mb, out := t.win.out, status := ⟨false, false, false, ownErr, true, false⟩ } ∧
      ((s.win.ownAt (nbBuf w)).own = .host → ownErr = false) ∧
      t.win.mbAt 0 = { s.win.mbAt 0 with busy := true } ∧ ∀ k, k ≠ 0 → t.win.mbAt k = s.win.mbAt k) ∧
    ((s.win.mbAt 0).pending = false → (s.win.ownAt (nbBuf w)).own ≠ .host → ∃ t, exec (.mb0Post w) s = .next t ∧
      s.Only [.win, .obs] t ∧ s.OnlyTrace t ∧
      t.win = { s.win with out := t.win.out, status := ⟨false, false, false, true, true, false⟩ })

/-- An accepted post to MB0 stamps the notice with the host's SRC_ID, sets PENDING, moves the buffer from HOST to DEVICE, rings MGMT's
doorbell, and is held while MGMT is down or idle with its clock gated (11 R282, R285, R286).

Where the spec leaves a point of this open, the clause is the model's choice: notes/assumptions/50, 75. -/
def Obligations.AcceptedPostMovesItsBuffer : Prop :=
  ∀ (s : State) (w : Word64), s.spiOn = true → (s.win.mbAt 0).pending = false → (s.win.ownAt (nbBuf w)).own = .host →
    ∃ t, exec (.mb0Post w) s = .next t ∧ s.Only [.win, .obs] t ∧ s.OnlyTrace t ∧
      t.win = { s.win with
        own := t.win.own, mb := t.win.mb, crossSince := t.win.crossSince, crossRaised := t.win.crossRaised, idb := t.win.idb
        turned := s.win.turned.filter (· != nbBuf w), out := t.win.out, status := ⟨true, false, false, false, false, false⟩ } ∧
      t.win.mbAt 0 = { s.win.mbAt 0 with
        notice := mkNotice (nbBuf w) (nbLen w) 0x01 (nbHint w) (nbTag w), req := .packet, pending := true
        held := !s.ready || !s.mgmtWork, posts := (s.win.mbAt 0).posts + 1, since := s.now, ack := none
        lost := false } ∧
      (∀ k, k ≠ 0 → t.win.mbAt k = s.win.mbAt k) ∧
      t.win.ownAt (nbBuf w) = ⟨.device, (s.win.ownAt (nbBuf w)).gen + 1, 0x01⟩ ∧
      (∀ k, k ≠ nbBuf w → t.win.ownAt k = s.win.ownAt k) ∧
      (t.win.idb.at .mgmt).getLsbD 0 = true ∧ ∀ i, i ≠ .mgmt → t.win.idb.at i = s.win.idb.at i

/-- The host's acknowledge of MB1: the notice is no longer pending, MGMT's doorbell rings, and with BAD_NOTICE its buffer returns to
DEVICE. With no further reply waiting nothing else changes; a waiting reply is posted at once. Without a pending notice the write
is ignored and sets POST_ERR (11 R281, R284, R285).

A committed read of MB0_ACK clears DONE, one that is not committed leaves it, and HMISO carries the status byte, the word and their
CRC once MGMT has started; a write of ones to HOST_DB clears those bits (11 R266, R281, R285, Table 11-2; 02 R31).

Where the spec leaves a point of this open, the clause is the model's choice: notes/assumptions/31, 75. -/
def Obligations.HostAcknowledgesRepliesAndDoorbells : Prop :=
  (∀ s : State, s.spiOn = true →
     let m := s.win.mbAt 1
     let b := nbBuf m.notice
     let acked (code : Byte) (t : State) : Prop := t.win.mbAt 1 =
       { m with done := true, rcode := code, ackSrc := 0x01, pending := false, held := false, ack := none, lost := false }
     let frame (t : State) : Prop := s.Only [.win, .obs] t ∧ s.OnlyTrace t ∧ (∀ k, k ≠ 1 → t.win.mbAt k = s.win.mbAt k) ∧
       (t.win.idb.at .mgmt).getLsbD 9 = true ∧ (∀ i, i ≠ .mgmt → t.win.idb.at i = s.win.idb.at i) ∧
       t.win = { s.win with
         own := t.win.own, mb := t.win.mb, crossSince := t.win.crossSince, crossRaised := t.win.crossRaised, idb := t.win.idb
         turned := t.win.turned, out := t.win.out, status := ⟨true, false, false, false, false, false⟩ }
     (m.pending = true → s.mgmt.replies = [] →
       (∃ t, exec .mb1AckAccepted s = .next t ∧ acked 0x00 t ∧ frame t ∧ s.SameOwners t ∧ t.win.turned = s.win.turned) ∧
       (∃ t, exec .mb1AckBadNotice s = .next t ∧ acked 0x01 t ∧ frame t ∧
         t.win.ownAt b = ⟨.device, (s.win.ownAt b).gen + 1, 0x01⟩ ∧ b ∈ t.win.turned ∧ ∀ k, k ≠ b → t.win.ownAt k = s.win.ownAt k)) ∧
     (∀ r rs, m.pending = true → s.mgmt.replies = r :: rs → s.memoryOk → r.bytes.length ≤ 256 → r.buf.toNat ≠ b →
       (s.win.ownAt r.buf.toNat).own = .device → ∃ t, exec .mb1AckAccepted s = .next t ∧ s.Only [.win, .mgmt, .obs] t ∧
       t.mgmt = { s.mgmt with replies := rs } ∧ (t.win.mbAt 1).pending = true ∧ nbBuf (t.win.mbAt 1).notice = r.buf.toNat ∧
       (t.win.ownAt r.buf.toNat).own = .host ∧ t.bufRead r.buf.toNat r.bytes.length = r.bytes ∧ t.win.db.getLsbD 0 = true ∧
       (∀ a, a / 256 ≠ r.buf.toNat → cellRead t.win.mem a = cellRead s.win.mem a) ∧
       ∀ k, k ≠ r.buf.toNat → t.win.ownAt k = s.win.ownAt k) ∧
     (m.pending = false → ∀ c ∈ [Instr.mb1AckAccepted, Instr.mb1AckBadNotice], ∃ t, exec c s = .next t ∧ s.Only [.win] t ∧
       t.win = { s.win with out := t.win.out, status := ⟨false, false, false, false, true, false⟩ })) ∧
  (∀ (s : State) (ones : Word32), s.spiOn = true →
     let word := leBytes 4 (s.win.mbAt 0).ackWord.toNat
     let hmiso := if s.pins.started.mgmt = true then
       s.spiStatusByte :: zeros 3 ++ word ++ [crc8 ([0xA0, 0x41, 0x08] ++ word), 0] else []
     (∃ t, exec (.mb0AckRead true) s = .next t ∧ s.Only [.win] t ∧
       t.win = { s.win with mb := t.win.mb, out := hmiso, status := ⟨true, false, false, false, false, false⟩ } ∧
       t.win.mbAt 0 = { s.win.mbAt 0 with done := false } ∧ (∀ k, k ≠ 0 → t.win.mbAt k = s.win.mbAt k)) ∧
     (∃ t, exec (.mb0AckRead false) s = .next t ∧ s.Only [.win, .obs] t ∧ s.CountersBut [.spiCrcErr] t ∧
       t.win = { s.win with out := hmiso, status := ⟨false, true, false, false, false, false⟩ }) ∧
     (∃ t, exec (.doorbellClear ones) s = .next t ∧ s.Only [.win] t ∧
       t.win = { s.win with db := s.win.db &&& ~~~ones, out := t.win.out, status := ⟨true, false, false, false, false, false⟩ }))

/-- Locks: a read that stands acquires a free lock for its reader, except that the host never acquires LK1 to LK3; of the parties that
request a free lock in one cycle the first of MGMT, LOOP, MEAS, local host and AON acquires it and the others read its SRC_ID; AON
reads the host's also where the host's read is undone, and the lock is then free; a read of a lock that is held changes no lock and
gives its owner. A write of
LK_OWNER zero by the owner frees the lock, whatever its reserved bits, and any other write changes none (11 R268, R292 to R294).

A claim takes a FREE buffer for the host, and a release sets a HOST-owned one FREE, when the generation written is the present one and
no write of an island with a higher priority changes the word in the same cycle; otherwise the host's write leaves the word as it is and
sets OWN_ERR. Of two writes of one cycle the earlier in the fixed priority takes effect (11 R274, R275).

Where the spec leaves a point of this open, the clause is the model's choice: notes/assumptions/107. -/
def Obligations.LocksAndOwnershipHaveOneHolder : Prop :=
  (∀ (s : State) (n : Fin 8),
     let lock := s.win.lockAt n.val
     let alone (t : State) : Prop := ∀ k, k ≠ n.val → t.win.lockAt k = s.win.lockAt k
     (∀ (i : Island) (who : Party) (others : List Party) (commit : Bool), partyIsland who = some i → .host ∉ others →
       s.clock.powered = true →
       let asks := [Party.mgmt, .loop, .meas, .aon].filter fun p => p == who || others.contains p
       ∃ t w, exec (.lockAcquire n ⟨who, others⟩ commit) s = .next t ∧ s.Only [.win] t ∧
         t.win = { s.win with locks := t.win.locks, lockVal := t.win.lockVal } ∧ alone t ∧
         asks.head? = some w ∧ t.win.lockAt n.val = (if lock = 0 then partySrc w else lock) ∧
         ∀ p ∈ asks, ∀ j, partyIsland p = some j →
           t.win.lockVal.at j = (if lock = 0 then (if p = w then 0 else partySrc w) else lock)) ∧
     (∀ (who : Party) (others : List Party) (commit : Bool), s.spiOn = true → .host ∈ who :: others →
       let before := [Party.mgmt, .loop, .meas].filter (who :: others).contains
       let found := if lock = 0 then (match before with
         | [] => 0
         | p :: _ => partySrc p) else lock
       let mine := found = 0 ∧ ¬ (1 ≤ n.val ∧ n.val ≤ 3)
       let aon := .aon ∈ who :: others
       ∃ t, exec (.lockAcquire n ⟨who, others⟩ commit) s = .next t ∧ s.Only [.win, .obs] t ∧ s.CountersBut [.spiCrcErr] t ∧
         t.win = { s.win with
           locks := t.win.locks, lockVal := t.win.lockVal, out := t.win.out, status := ⟨commit, !commit, false, false, false, false⟩ } ∧
         alone t ∧ (mine → t.win.lockAt n.val = if commit then 0x01 else 0) ∧
         (found = 0 → ¬ mine → t.win.lockAt n.val = if aon then 0x40 else 0) ∧ (found ≠ 0 → t.win.lockAt n.val = found) ∧
         (s.pins.started.mgmt = true → byteAt t.win.out 4 = found) ∧ (aon → t.win.lockVal.at .aon = if mine then 0x01 else found) ∧
         ∀ p ∈ before, ∀ j, partyIsland p = some j → t.win.lockVal.at j = if lock = 0 ∧ before.head? = some p then 0 else found) ∧
     (∀ (who : Party) (v : Word32), (if who = .host then s.spiOn else s.clock.powered) = true →
       let frees := v.toNat % 256 = 0 ∧ lock = partySrc who
       ∃ t, exec (.lockRelease n who v) s = .next t ∧ s.Only [.win] t ∧
         t.win = { s.win with locks := t.win.locks, out := t.win.out, status := t.win.status } ∧
         (frees → t.win.lockAt n.val = 0) ∧ (¬ frees → t.win.lockAt n.val = lock) ∧ alone t ∧
         (who = .host → ¬ frees → t.win.status = ⟨true, false, true, false, false, false⟩) ∧
         (who ≠ .host → t.win.status = s.win.status ∧ t.win.out = s.win.out))) ∧
  (∀ (s : State) (n : Fin 64) (gen : BitVec 6) (others : List OwnWrite), s.spiOn = true →
     (∀ w ∈ others, w.who ≠ .mgmt ∧ w.who ≠ .loop ∧ w.who ≠ .meas ∧ w.gen = gen) →
     let word := s.win.ownAt n.val
     let ends (c : Instr) (x : OwnWord) (ok : Bool) : Prop := ∃ t, exec c s = .next t ∧ s.Only [.win] t ∧
       t.win = { s.win with own := t.win.own, out := t.win.out, status := ⟨ok, false, false, !ok, false, false⟩ } ∧
       t.win.ownAt n.val = x ∧ ∀ k, k ≠ n.val → t.win.ownAt k = s.win.ownAt k
     (word.gen = gen → word.own = .free → ends (.bufferClaim n ⟨gen, others⟩) ⟨.host, gen + 1, 0x01⟩ true) ∧
     (¬ (word.gen = gen ∧ word.own = .free) → ends (.bufferClaim n ⟨gen, []⟩) word false) ∧
     (word.gen = gen → word.own = .host → ends (.bufferRelease n ⟨gen, others⟩) ⟨.free, gen + 1, 0x01⟩ true) ∧
     (¬ (word.gen = gen ∧ word.own = .host) → ends (.bufferRelease n ⟨gen, []⟩) word false) ∧
     (∀ w : OwnWrite, w.who = .mgmt ∨ w.who = .loop ∨ w.who = .meas → w.gen = gen → w.own = 2 → word.gen = gen → word.own = .free →
       ends (.bufferClaim n ⟨gen, [w]⟩) ⟨.device, gen + 1, partySrc w.who⟩ false))

/-- A read at the queue port in DIRECT mode returns the entries that have reached the port, in queue order, and all ones beyond
them; it removes them only when it is committed. In STREAM mode every place reads all ones and nothing is removed. A read that
breaks the alignment rule is a framing error (11 R273; 06 R159). -/
def Obligations.QueueReadRemovesWhatItCommits : Prop :=
  ∀ (s : State) (addr : BitVec 16) (len : Nat) (commit : Bool), s.spiOn = true → 0x4600 ≤ addr.toNat → addr.toNat < 0x4700 →
    len ∈ [1, 2, 4, 8, 16, 32, 64, 256] →
    let aligned := addr.toNat % 8 = 0 ∧ len % 8 = 0
    let k := if s.mgmt.inForce.queueStream then 0 else min (len / 8) s.qOcc
    let place (j : Nat) : Nat := if j < k then ((s.qReady[j]?).map QEntry.word).getD 0 else 0xFFFFFFFFFFFFFFFF
    (aligned → addr.toNat + len ≤ 0x4700 → ∃ t, exec (.queueRead addr len commit) s = .next t ∧
      s.Only [.meas, .win, .obs] t ∧ s.CountersBut [.spiCrcErr] t ∧
      t.win = { s.win with out := t.win.out, status := ⟨commit, !commit, false, false, false, false⟩ } ∧
      (s.pins.started.mgmt = true → t.win.out.length = len + 6 ∧ byteAt t.win.out 0 = s.spiStatusByte ∧
        ∀ j i, j < len / 8 → i < 8 → byteAt t.win.out (4 + 8 * j + i) = BitVec.ofNat 8 (place j / 256 ^ i)) ∧
      t.meas = { s.meas with queue := t.meas.queue, qovf := t.meas.qovf } ∧
      t.meas.queue = (if commit then s.meas.queue.drop k else s.meas.queue) ∧ (commit = false → t.meas = s.meas)) ∧
    (¬ aligned → ∃ t, exec (.queueRead addr len commit) s = .next t ∧ s.Only [.win, .obs] t ∧
      s.CountersBut [.spiFrameErr] t ∧
      t.win = { s.win with out := t.win.out, status := ⟨false, false, false, false, false, true⟩ })

/-- MGMT takes the notice of MB0 or MB2 that reached it first into its queue when its buffer is on the device's side and holds what
the hint names; a notice that is not in order, or whose buffer is not DEVICE-owned, is acknowledged with the code that says so, and
the buffer of a bad one returns to its sender (11 R281, 12 R299).

A request of an island enters its mailbox when the receiver runs and no notice is pending there, with the doorbells of sender and
receiver; it waits in the sender's outgoing register behind a pending notice, and fails when the receiver is down (01 R18;
11 R281, R285, R287).

An acknowledge of an earlier tick takes effect, and rings DB_ACK0 for MB0 and the sender's doorbell for another; the first post that
waited for the mailbox then enters it, or all of them fail where the receiver is down by then; a held post that MGMT has not taken
within 1,000 ticks ends in MB_TIMEOUT; both mailboxes of a pair pending for more than 500 ticks raise CROSS once (11 R281, R285, R286,
R287, R290; 01 R18).

Where the spec leaves a point of this open, the clause is the model's choice: notes/assumptions/22, 30, 31, 74, 75. -/
def Obligations.MailboxesTakeAnswerTimeOutAndCross : Prop :=
  (∀ (s : State) (k : Nat), s.mgmtUp = true → s.ready = true → s.queueUse < 4 →
     (k = 0 ∧ s.mb0First = true ∨ k = 2 ∧ s.takeable 2 = true ∧ s.mb0First = false) →
     let m := s.win.mbAt k
     let b := nbBuf m.notice
     let len := nbLen m.notice
     let q : QueuedCmd := ⟨BitVec.ofNat 8 (nbSrc m.notice), if k = 0 then 0 else s.noticeSender m.notice, BitVec.ofNat 6 b, len⟩
     let fits := 1 ≤ len ∧ len ≤ 256 ∧ leAt (s.bufRead b 2) 0 2 = nbHint m.notice
     let answered (code : Byte) (t : State) : Prop :=
       t.win.mbAt k = { m with held := false, ack := some (code, 0x10, s.now) } ∧ (∀ j, j ≠ k → t.win.mbAt j = s.win.mbAt j) ∧
       ∀ i, i ≠ .mgmt → t.win.idb.at i = s.win.idb.at i
     ((s.win.ownAt b).own = .device → fits → (∀ x ∈ s.mgmt.queue ++ [q], assignedOp (s.packetOf x).1 = true) →
       ∃ t, exec .mb0NoticeConsume s = .next t ∧ s.Only [.win, .mgmt] t ∧ answered 0x00 t ∧
         t.win = { s.win with mb := t.win.mb, idb := t.win.idb } ∧ t.mgmt = { s.mgmt with queue := s.mgmt.queue ++ [q] }) ∧
     ((s.win.ownAt b).own = .device → ¬ fits → ∃ t, exec .mb0NoticeConsume s = .next t ∧ s.Only [.win] t ∧ answered 0x01 t ∧
       t.win = { s.win with mb := t.win.mb, idb := t.win.idb, own := t.win.own } ∧
       t.win.ownAt b = ⟨if k = 0 then .host else .free, (s.win.ownAt b).gen + 1, 0x10⟩ ∧
       ∀ j, j ≠ b → t.win.ownAt j = s.win.ownAt j) ∧
     ((s.win.ownAt b).own ≠ .device → ∃ t, exec .mb0NoticeConsume s = .next t ∧ s.Only [.win] t ∧ answered 0x02 t ∧
       t.win = { s.win with mb := t.win.mb, idb := t.win.idb })) ∧
  (∀ (s : State) (k op : Nat) (r : Req), 3 ≤ k → k < 8 →
     (s.Enters k → s.Asks (s.postReq k op r) k r) ∧
     (s.reqUp k = true → ¬ s.Enters k →
       s.postReq k op r = s.setWin { s.win with posts := s.win.posts ++ [(k, reqNotice k op r, r)] }) ∧
     (s.reqUp k = false → s.postReq k op r = s)) ∧
  (∀ s : State, s.clock.powered = true →
     (∀ (k : Fin 8) (code src : Byte) (u : Nat), (s.win.mbAt k.val).ack = some (code, src, u) → (s.win.mbAt k.val).lost = false →
       u < s.now → s.fab.mb2Wait = [] → (k.val = 2 ∨ s.reqUp k.val = true) →
       let m := { s.win.mbAt k.val with
         done := true, rcode := code, ackSrc := src, pending := false, held := false, ack := none, lost := false }
       ∃ t, exec (.mbAcknowledge k) s = .next t ∧ s.Only [.win, .obs] t ∧ s.OnlyTrace t ∧
         t.win = { s.win with
           mb := t.win.mb, db := t.win.db, crossSince := t.win.crossSince, crossRaised := t.win.crossRaised, idb := t.win.idb
           posts := t.win.posts } ∧
         (∀ j, j ≠ k.val → t.win.mbAt j = s.win.mbAt j) ∧
         (t.win.db = if k.val = 0 then s.win.db ||| 0x2 else s.win.db) ∧
         (∀ i, mbFrom k.val ≠ some i → mbTo k.val ≠ some i → t.win.idb.at i = s.win.idb.at i) ∧
         match s.win.posts.find? fun e => e.1 == k.val with
         | none => t.win.mbAt k.val = m ∧ t.win.posts = s.win.posts ∧
           ∀ i, mbFrom k.val = some i → (t.win.idb.at i).getLsbD (8 + k.val) = true
         | some e => k.val = 2 ∨ ((t.win.mbAt k.val).pending = true ∧ (t.win.mbAt k.val).notice = e.2.1 ∧
           (t.win.mbAt k.val).req = e.2.2 ∧ (t.win.mbAt k.val).ack = none ∧
           t.win.posts = s.win.posts.eraseP fun e => e.1 == k.val)) ∧
     (∀ (k : Fin 8) (code src : Byte) (u : Nat), (s.win.mbAt k.val).ack = some (code, src, u) → (s.win.mbAt k.val).lost = false →
       u < s.now → k.val ≠ 2 → s.reqUp k.val = false →
       ∃ t, exec (.mbAcknowledge k) s = .next t ∧ s.Only [.win, .mgmt, .fab, .obs] t ∧
         t.win.posts = s.win.posts.filter (fun e => e.1 != k.val) ∧ t.win.mbAt k.val = { s.win.mbAt k.val with
           done := true, rcode := code, ackSrc := src, pending := false, held := false, ack := none, lost := false }) ∧
     (∀ k : Fin 8, k.val = 0 ∨ k.val = 6 → s.ready = false → (s.win.mbAt k.val).pending = true → (s.win.mbAt k.val).held = true →
       1000 ≤ s.now - (s.win.mbAt k.val).since →
       let b := nbBuf (s.win.mbAt k.val).notice
       ∃ t, exec (.mbTimeout k) s = .next t ∧ s.Only [.win, .obs] t ∧ s.CountersBut [.mbTimeout, .trcDrop] t ∧
         t.win = { s.win with
           own := t.win.own, mb := t.win.mb, db := t.win.db, crossSince := t.win.crossSince, crossRaised := t.win.crossRaised
           idb := t.win.idb } ∧
         t.win.mbAt k.val = { s.win.mbAt k.val with
           done := true, rcode := 0x03, ackSrc := 0x40, pending := false, held := false, timeout := true, ack := none
           lost := false } ∧
         (∀ j, j ≠ k.val → t.win.mbAt j = s.win.mbAt j) ∧
         t.win.db = (if k.val = 0 then s.win.db ||| 0x802 else s.win.db) ∧
         (k.val = 0 → t.win.ownAt b = ⟨.host, (s.win.ownAt b).gen + 1, 0x40⟩) ∧
         ∀ j, (k.val = 0 → j ≠ b) → t.win.ownAt j = s.win.ownAt j) ∧
     (∀ (p : Fin 4) (u : Nat), s.win.crossSince.getD p.val none = some u → 500 < s.now - u →
       (s.win.mbAt (2 * p.val)).pending = true → (s.win.mbAt (2 * p.val + 1)).pending = true →
       s.win.crossRaised.getD p.val false = false → ∃ t, exec (.cross p) s = .next t ∧ s.Only [.win, .faults] t ∧
         t.faults = (s.report 0x1F p.val 0x40).faults ∧
         t.win = { s.win with mb := t.win.mb, db := t.win.db, crossRaised := s.win.crossRaised.set p.val true } ∧
         (∀ j, t.win.mbAt j = if j = 2 * p.val ∨ j = 2 * p.val + 1 then { s.win.mbAt j with cross := true } else s.win.mbAt j) ∧
         t.win.db = if p.val = 0 then s.win.db ||| 0x1000 else s.win.db))

/-- A fragment, of a sender other than a broadcast, starts or extends its sender's assembly and is answered with the bytes assembled so
far; a continuation read gives up to 244 bytes of a kept result from its offset, and executes nothing; an assembly without a fragment
for 5,000,000 ticks ends (12 R302, R303).

An outstanding command whose event has been reported completes with its status and results; one whose island has not
acknowledged its request within 5,000 ticks ends with ST_TIMEOUT, and its request leaves the mailbox; its reservation ends with it
(12 R299, R300; 03 R57; 00 R3).

Where the spec leaves a point of this open, the clause is the model's choice: notes/assumptions/76, 77. -/
def Obligations.FragmentsContinuationsAndOutstandingCommandsEnd : Prop :=
  (∀ (s : State) (op : BitVec 16) (p : Packet), s.mgmtUp = true → s.ready = true → s.NoneWaits 0x0701 → s.memoryOk →
     (∀ r ∈ s.mgmt.replies, r.bytes.length ≤ 256) → s.Next op.toNat p → headerStatus p = none →
     let answers (t : State) (bytes : List Byte) : Prop := t.mgmt.lastReply = bytes ∧
       s.Only [.win, .mgmt, .faults, .fab, .obs] t ∧ (∀ a, ¬ s.ReplyBuf p (a / 256) → cellRead t.win.mem a = cellRead s.win.mem a) ∧
       s.CountersBut [.ownViol, .trcDrop] t
     let old := match s.mgmt.assemblies.find? fun a => a.src == p.src && a.op == op.toNat && a.tag == p.tag with
       | some a => a.bytes
       | none => []
     (pktMore p = true → p.src ≠ 0x90 → fragmentable op.toNat = true → (old ++ p.params).length ≤ 4096 →
       ∃ t, exec (.commandFragment op p) s = .next t ∧
         answers t (firstReply op.toNat p.tag.toNat stOk p.src.toNat (leBytes 2 (old ++ p.params).length)) ∧
         t.mgmt = { s.mgmt with
           queue := s.queueRest, lastReply := t.mgmt.lastReply, replies := t.mgmt.replies
           upd := (s.started op.toNat p).mgmt.upd, assemblies := (s.mgmt.assemblies.filter fun a => a.src ≠ p.src) ++
             [⟨p.src, op.toNat, p.tag, old ++ p.params, s.now⟩] }) ∧
     (pktMore p = false → pktCont p = true → p.plen = 2 → rightOf op.toNat s p = true →
       (∀ k, (s.mgmt.kept.find? fun k => k.src == p.src && k.op == op.toNat && k.tag == p.tag) = some k →
         leAt p.params 0 2 < k.bytes.length →
         ∃ t, exec (.continuationRead op p) s = .next t ∧
           answers t (replyBytes op.toNat p.tag.toNat k.status p.src.toNat k.bytes.length
             (decide (leAt p.params 0 2 + 244 < k.bytes.length)) ((k.bytes.drop (leAt p.params 0 2)).take 244)) ∧
           t.mgmt = { s.mgmt with queue := s.queueRest, lastReply := t.mgmt.lastReply, replies := t.mgmt.replies }) ∧
       ((s.mgmt.kept.find? fun k => k.src == p.src && k.op == op.toNat && k.tag == p.tag) = none →
         ∃ t, exec (.continuationRead op p) s = .next t ∧
           answers t (replyBytes op.toNat p.tag.toNat stBadParam p.src.toNat 0 false []) ∧
           t.mgmt = { s.mgmt with queue := s.queueRest, lastReply := t.mgmt.lastReply, replies := t.mgmt.replies })) ∧
     (∀ src : Byte, exec (.assemblyDiscard src) s = .next { s with mgmt := { s.mgmt with
       assemblies := s.mgmt.assemblies.filter fun a => !(a.src == src && decide (5000000 ≤ s.now - a.last)) } })) ∧
  (∀ (s : State) (op : BitVec 16) (o : Outst), s.mgmtUp = true → s.memoryOk →
     (∀ r ∈ s.mgmt.replies, r.bytes.length ≤ 256) →
     (∀ x ∈ s.mgmt.queue, assignedOp (s.packetOf x).1 = true ∧ x.buf ≠ o.pkt.buf ∧ ∀ r ∈ s.mgmt.replies, x.buf ≠ r.buf) →
     o ∈ s.mgmt.outst → o.op = op.toNat → (∀ x ∈ s.mgmt.outst, x.op = o.op → x = o) →
     let ends (c : Instr) (st : Nat) (res : List Byte) : Prop := ∃ t, exec c s = .next t ∧
       t.mgmt.lastReply = firstReply o.op o.pkt.tag.toNat st o.pkt.src.toNat res ∧
       s.Only [.energy, .win, .mgmt, .faults, .fab, .obs] t ∧
       t.energy = { s.energy with reserved := s.energy.reserved.filter fun e => e.1 ≠ o.op } ∧
       t.mgmt = { s.mgmt with
         outst := s.mgmt.outst.filter fun x => x.op ≠ o.op, lastReply := t.mgmt.lastReply, replies := t.mgmt.replies
         kept := (s.mgmt.kept.filter fun k => k.src ≠ o.pkt.src) ++
           (if 244 < res.length then [⟨o.pkt.src, o.op, o.pkt.tag, res, st⟩] else []) } ∧
       (∀ a, ¬ s.ReplyBuf o.pkt (a / 256) → cellRead t.win.mem a = cellRead s.win.mem a) ∧
       s.CountersBut [.cmdDone, .ownViol, .trcDrop] t
     (∀ st res, o.done = some (st, res) → ends (.outstandingCompletion op) st res) ∧
     (o.done = none → o.got = none → 5000 ≤ s.now - o.since → ends (.islandRequestTimeout op) stTimeout []) ∧
     (o.done = none → o.got = none → 5000 ≤ s.now - o.since → o.pkt.src = 0x01 → s.mgmt.before o.op = 0 →
       let n := nativeOf o.op
       let k := if n = 0x0003 ∨ n = 0x0706 then 7 else if n / 256 = 2 ∨ n / 256 = 3 then 4 else 3
       (s.win.mbAt k).unanswered = true → (s.win.mbAt k).req.native = some n →
         ∃ t, exec (.islandRequestTimeout op) s = .next t ∧ (t.win.mbAt k).pending = false))

/-- A reply to the local host reaches it: its bytes stand in the packet's buffer, the buffer is HOST-owned, MB1 holds the notice
of it, and DB_MB1 is set. So it is for the reply of every command, whatever its opcode, status and results, for all of them complete by
State.finish, and for the whole of DEV_IDENTIFY's step; a reply that meets a pending notice waits behind the others
(11 R284, R290; 12 R297). -/
def Obligations.ReplyReachesTheHost : Prop :=
  (∀ (s : State) (op : Nat) (via : Bool) (p : Packet) (st : Nat) (res : List Byte), s.memoryOk → p.src = 0x01 →
    (s.win.ownAt p.buf.toNat).own = .device →
    let bytes := firstReply op p.tag.toNat st 0x01 res
    let t := s.finish op via p st res
    ((s.win.mbAt 1).pending = false → s.mgmt.replies = [] →
      t.bufRead p.buf.toNat bytes.length = bytes ∧ (t.win.ownAt p.buf.toNat).own = .host ∧ (t.win.mbAt 1).pending = true ∧
      (t.win.mbAt 1).notice = mkNotice p.buf.toNat bytes.length 0x10 (op % 32768 + 32768) p.tag.toNat ∧ t.win.db.getLsbD 0 = true ∧
      t.mgmt.replies = []) ∧
    ((s.win.mbAt 1).pending = true → t.win = s.win ∧ t.mgmt.replies = s.mgmt.replies ++ [⟨p.src, p.buf, bytes⟩])) ∧
  (∀ (s : State) (p : Packet), s.Takes 0x0001 p 0 [] → s.paramsOf 0x0001 p = [] → p.src = 0x01 →
    (s.win.ownAt p.buf.toNat).own = .device → (s.win.mbAt 1).pending = false → s.mgmt.replies = [] →
    let bytes := firstReply 0x0001 p.tag.toNat stOk 0x01 s.identifyBytes
    ∃ t, exec (.devIdentify p) s = .next t ∧ t.bufRead p.buf.toNat bytes.length = bytes ∧
      (t.win.ownAt p.buf.toNat).own = .host ∧ (t.win.mbAt 1).pending = true ∧
      (t.win.mbAt 1).notice = mkNotice p.buf.toNat bytes.length 0x10 0x8001 p.tag.toNat ∧ t.win.db.getLsbD 0 = true ∧
      t.mgmt.replies = [])

/-- AON power-up: AON runs its ROM firmware with TEST_EN sampled, the count at zero, every output stage at 3.50 mA, FAULT_N low, VIO on,
tables, retired slices and trim as the NVM holds them, directories, signature counters and grants from the newer of their two pages that
can be read, and no island but AON up. The crystal starts the Meridian and the charger. A power-on reset leaves nothing but the NVM,
less its pending activations, and does not come while AUX_IN supplies the device; RST_N's release samples TEST_EN (01 R10, R14; 02 R34;
03 R63, R65; 05 R119; 07 R165; 14 R347; the model's choice: notes/assumptions/64, 97).

Where the spec leaves a point of this open, the clause is the model's choice: notes/assumptions/1, 64, 97. -/
def Obligations.PowerUpStartsFromTheNvm : Prop :=
  ∀ (s : State) (testEn : Bool),
    let ctrs := (s.nvm.loadRec s.nvm.ctrRecs ctrPages).getD (s.nvm.ctrVendor, s.nvm.ctrOem)
    let grants := (s.nvm.loadRec s.nvm.grantRecs grantPages).getD s.nvm.grants
    (s.clock.powered = false → ∃ t, exec (.aonPowerUp testEn) s = .next t ∧ t.pending = s.pending ∧ t.free = s.free ∧
      t.nvm = { s.nvm with dirs := t.nvm.dirs, ctrVendor := ctrs.1, ctrOem := ctrs.2, grants := grants } ∧
      (∀ i : Island, t.nvm.dirs.at i =
        { (s.nvm.loadRec (s.nvm.dirRecs.at i) (dirPages i)).getD (s.nvm.dirs.at i) with actTick := none }) ∧
      t.clock = { Clock.reset with powered := true } ∧ t.boot = .wait ∧ t.isl = Quad.put State.reset.isl .aon Isl.aon0 ∧
      t.pins = { Pins.reset with testMode := testEn, started := (Quad.all false).put .aon true } ∧
      t.loop.cmd = 35000 ∧ t.loop.lim = 35000 ∧ t.loop.shaped = 35000 ∧ t.loop.src = 0 ∧
      (t.loop.m4, t.loop.m20) = s.nvm.trim ∧ t.mgmt.grants = grants ∧ t.meas.cal = s.nvm.calBlock ∧
      (∀ c : Fin 20, t.meas.tables[c] = s.nvm.tableOf c.val ∧ t.meas.shadowTables[c] = s.nvm.tableOf c.val) ∧
      (∀ n : Fin 4, t.meas.slices[n].retired = s.nvm.retired.getLsbD n.val) ∧ t.win = Window.reset ∧
      t.energy = { Energy.reset with vioOn := true } ∧
      t.faults = Faults.reset) ∧
    (s.clock.powered = true → s.clock.running = false → exec .crystalStart s = .next { s with
      clock := { s.clock with running := true }, energy := { s.energy with charging := true } }) ∧
    (s.clock.powered = true → s.energy.aux = false → ∃ t, exec .aonPowerOnReset s = .next t ∧
      t = { State.reset with pending := s.pending, free := s.free, nvm := t.nvm } ∧ t.nvm = { s.nvm with dirs := t.nvm.dirs } ∧
      ∀ i : Island, t.nvm.dirs.at i = { s.nvm.dirs.at i with actTick := none }) ∧
    (s.energy.aux = true → exec .aonPowerOnReset s = .next s) ∧
    (s.clock.powered = true → s.pins.inReset = true → s.pins.rstN.level = true →
      exec (.rstNRelease testEn) s = .next { s with pins := { s.pins with inReset := false, testMode := testEn } })

/-- BOOT_VERIFY: a sound active image lets MGMT go on; else a sound other slot that is COMMITTED and not older than its fuses becomes
active, a TRIAL slot that failed being FAILED; with neither the boot stays in recovery. An image is sound if its digests and the
signature entries that the device needs are. A start then releases FAULT_N, if no CONT or FATAL fault is open and its minimum has
passed, and has its almanac to load (03 R63; 13 R325; 14 R345, R352, R359, R360).

The newer valid almanac copy, or the default values with none, is loaded once in a start. One that compiles is committed, its map
is in force, and its loop and line fields go as tokens. One that does not compile is not run: the copies hold the default values and
no position is sampled (03 Table 3-10; the model's choice: notes/assumptions/13).

Where the spec leaves a point of this open, the clause is the model's choice: notes/assumptions/13, 79, 81. -/
def Obligations.BootVerifyStartsMgmt : Prop :=
  (∀ (s : State) (activeOk otherOk : Bool), s.clock.powered = true → s.boot = .verify →
     let freed := !s.pins.inReset && decide (s.faults.lowUntil ≤ s.now) && !(s.faults.opens.any fun o => decide (1 ≤ o.cls))
     let d := s.nvm.dirs.mgmt
     let active := s.bootVerifies d.active (s.activeMem .mgmt) activeOk
     let other := s.bootVerifies d.inactive (s.inactiveMem .mgmt) otherOk
     let goes (nvm : Nvm) : State := { s with
       boot := .done, isl := s.isl.put .mgmt { s.isl.mgmt with released := true }, nvm := nvm
       faults := { s.faults with bootHold := false }
       mgmt := { s.mgmt with toLoad := s.mgmt.toLoad || s.faults.bootHold }
       pins := { s.pins with faultLow := s.pins.faultLow && !(s.faults.bootHold && freed) } }
     let allowed := d.inactive.st = .committed ∧ s.nvm.fuses.mgmt ≤ secVersion d.inactive.version
     (active = true → exec (.bootVerify activeOk otherOk) s = .next (goes s.nvm)) ∧
     (active = false → other = true → allowed → ∃ d' : SlotDir,
       exec (.bootVerify activeOk otherOk) s = .next (goes (s.nvm.putDir .mgmt { d' with activeB := !d.activeB })) ∧
       (d.active.st ≠ .trial → d' = d) ∧
       (d.active.st = .trial → d' = if d.activeB then { d with b := { d.b with st := .failed } } else { d with a := { d.a with st := .failed } })) ∧
     (active = false → other = false ∨ ¬ allowed → exec (.bootVerify activeOk otherOk) s = .next { s with boot := .recovery })) ∧
  (∀ s : State, s.mgmt.toLoad = true →
     let saved := match s.nvm.newestAlm with
       | some x => x.alm
       | none => Alm.default
     let t := s.loadOnce
     t.mgmt.toLoad = false ∧ s.Only [.mgmt, .meas, .energy, .loop] t ∧ t.loadOnce = t ∧
     match saved.compile (s.newLevel .mgmt) s.meas.inService s.sources with
     | .ok (m, fs) => t.mgmt.committed = saved ∧ t.mgmt.shadow = saved ∧
         t.meas.map = m ∧ t.meas.fallback = fs ∧ t.mgmt.pendMeas = none ∧ t.mgmt.startLoop = some ⟨saved, s.now, none, false⟩ ∧
         t.mgmt.pendLoop = none ∧ t.mgmt.pendLine = some ⟨saved, s.now, none, false⟩ ∧ t.meas.sxItem = saved.sxChans.headD 20 ∧
         t.loop = { s.loop with duMax := m.duMax, g := m.g } ∧
         t.energy = { s.energy with cost := m.cost, costLoop := m.costLoop } ∧
         ∀ q : Fin 4, t.meas.seqs[q] = if saved.sqAuto q.val && decide (0 < saved.sqLen q.val) then
           { s.meas.seqs[q] with startFrom := some 0 } else s.meas.seqs[q]
     | .error _ => t = { s with
         mgmt := { s.mgmt with toLoad := false, shadow := Alm.default, committed := Alm.default, inForce := Alm.default }
         meas := { s.meas with map := SlotMap.empty 5000, fallback := [] } })

/-- RST_N sets every ownership word to FREE with generation 0, clears the mailboxes, the doorbell and its mask, and leaves the
window's bytes; the islands go down, the output returns to its start-up code, the trace pins go low, and the clock runs on. An island's
reset keeps the window's bytes, the ownership words, the locks and every notice that is posted, while posts that still waited in its
own outgoing registers go (01 R18; 02 R31; 03 R64; 11 R279; the model's choice, that the committed copy and what is in force stay:
notes/assumptions/47).

Where the spec leaves a point of this open, the clause is the model's choice: notes/assumptions/47, 92. -/
def Obligations.ResetPinClearsTheWindow : Prop :=
  (∀ s : State, s.clock.powered = true → s.pins.rstN.level = false → s.pins.inReset = false →
    ∃ t, exec .rstNAssert s = .next t ∧ t.pending = s.pending ∧ t.free = s.free ∧ t.clock = s.clock ∧
      (∀ n, t.win.ownAt n = ⟨.free, 0, 0x00⟩) ∧ (∀ k, t.win.mbAt k = Mailbox.reset) ∧ t.win.db = 0 ∧
      t.win.dbMask = 0x00003803 ∧ (∀ n, t.win.lockAt n = 0) ∧ s.SameBytes t ∧
      t.isl.mgmt = Isl.down0 ∧ t.isl.loop = Isl.down0 ∧ t.isl.meas = Isl.down0 ∧ t.isl.aon = s.isl.aon ∧ t.ready = false ∧
      t.pins = { s.pins with inReset := true, faultLow := true, gpioDrive := [none, none, none], exc := t.pins.exc
                             excDrive := t.pins.excDrive, brk := t.pins.brk, trcWord := 0, trcMark := false } ∧ t.pins.exc = 0 ∧
      t.loop.fixed = none ∧ t.boot = .wait ∧ t.mgmt.committed = s.mgmt.committed ∧ t.mgmt.inForce = s.mgmt.inForce ∧
      t.obs.mask = 0x0000061E ∧ t.nvm = { s.nvm with dirs := t.nvm.dirs, dirRecs := t.nvm.dirRecs, bad := t.nvm.bad } ∧
      (∀ h, s.loop.hwAlarm = false → s.loop.auxAlarm = false → s.loop.miswire = .normal h →
        t.loop.cmd = 35000 ∧ t.loop.lim = 35000 ∧ t.loop.shaped = 35000 ∧ t.loop.src = 0)) ∧
  (∀ (s : State) (i : Island) (origin : Byte) (stop : Bool),
    let t := s.assertReset i origin stop
    t.win = { s.win with mb := t.win.mb, posts := t.win.posts } ∧ (∀ k, k ≠ 0 → k ≠ 6 → t.win.mbAt k = s.win.mbAt k) ∧
    (∀ k, (t.win.mbAt k).notice = (s.win.mbAt k).notice ∧ (t.win.mbAt k).pending = (s.win.mbAt k).pending) ∧
    (((s.isl.at i).down = false ∨ (s.isl.at i).dead = true) →
      t.win.posts = s.win.posts.filter fun e => mbFrom e.1 ≠ some i) ∧
    t.nvm = s.nvm ∧ t.clock = s.clock)

/-- A supply reading joins the last eight of each supply, counts the monitored conditions, and takes part in mis-wiring detection;
with AUX set a reading of AUX_IN below 9.0 V clears AUX at the next boundary (03 R47, R60; 08 R206; 16 R385).

A boost request of MGMT with work in AUTUMN is admitted as a heavy task when the reserve covers its cost, and then runs 500 ticks; one that
is not admitted changes nothing but the time of the next request (03 R57, R394).

Where the spec leaves a point of this open, the clause is the model's choice: notes/assumptions/50, 51, 104. -/
def Obligations.SupplyReadingsAndBoost : Prop :=
  (∀ (s : State) (r : SupplyRead), s.clock.powered = true → s.clock.running = true → s.now % 64 = 0 →
     s.energy.readAt ≠ some s.now →
     let armed := s.energy.vioArmed || decide (2500 ≤ r.vio) || decide (500000 ≤ s.now)
     let c := decide (31500 < r.loopIn / 10 * 10) && decide (120000 < s.loop.shaped)
     ∃ t, exec (.supplyReading r) s = .next t ∧ s.Only [.energy, .loop, .obs] t ∧ s.OnlyTrace t ∧
       t.energy = { s.energy with
         readAt := some s.now, loopReads := ((r.loopIn / 10 * 10) :: s.energy.loopReads).take 8
         auxReads := ((r.auxIn / 10 * 10) :: s.energy.auxReads).take 8, resReads := ((r.vres / 10 * 10) :: s.energy.resReads).take 8
         tempCount := t.energy.tempCount, railCount := t.energy.railCount, vioArmed := armed, vioCount := t.energy.vioCount
         charging := s.energy.charging && decide (r.vres / 10 * 10 < s.energy.ceiling)
         auxNext := if s.energy.aux && decide (r.auxIn / 10 * 10 < 9000) then some false else s.energy.auxNext } ∧
       (s.energy.vioCount < 8 → t.energy.vioCount = if armed = true ∧ r.vio < 2500 then s.energy.vioCount + 1 else 0) ∧
       (s.energy.tempCount < 8 → t.energy.tempCount = if r.tempHigh then s.energy.tempCount + 1 else 0) ∧
       (s.mgmt.inForce.mwEn = true → t.loop = { s.loop with miswire := s.loop.miswire.reading c }) ∧
       (s.mgmt.inForce.mwEn = false → t.loop.miswire = .normal 0)) ∧
  (∀ s : State, s.mgmtUp = true → s.mgmtWork = true → s.energy.season = .autumn → s.energy.aux = false → s.mgmt.inForce.mgmtFmax ≠ 0 →
     s.energy.boostEnd = none → s.energy.boostNext ≤ s.now →
     let cost := if s.mgmt.inForce.mgmtFmax = 1 then 1 else if s.mgmt.inForce.mgmtFmax = 2 then 3 else 6
     (cost ≤ 10 * s.reserveField → ∃ t, exec .boostRequest s = .next t ∧ s.Only [.energy, .obs] t ∧ s.OnlyTrace t ∧
       t.energy = { s.energy with
         boostNext := s.now + 500, boostEnd := some (s.now + 500), freq := s.mgmt.inForce.mgmtFmax
         reserved := s.energy.reserved ++ [(0xFFFE, cost)] }) ∧
     (10 * s.reserveField < cost → exec .boostRequest s = .next { s with energy := { s.energy with boostNext := s.now + 500 } }))

/-- An evaluation boundary takes the averages of the last readings and the figures of the charger: what the loop carries above the
device's draw and 100 uA, or under AUX at most 5 mA within 250 mW with that draw, of which it delivers 70 %, nothing at its ceiling; it
moves the season as they say while AUX is clear, and trace on or off with it, sets AUX at the next boundary when AUX_IN has come back
and then withdraws an alarm of SUP_AUX, lets a waiting boot go on, and updates the energy register. The almanac here does not rest on
AUX (03 R46, R47, R52, R53, R55, R56, R60, R63; 13 R324; 15 R376).

Brown-out: LOOP_LOW stops MEAS and reports, its pins and slices off, the buck input's fall stops LOOP and MGMT and leaves the output
codes as they are, and a recovery releases the stopped islands, in start-up order when MGMT was among them; in test mode the boot waits
(02 R34; 03 R65).

Where the spec leaves a point of this open, the clause is the model's choice: notes/assumptions/14, 46, 52. -/
def Obligations.SeasonsAndBrownOut : Prop :=
  (∀ (s : State) (e : EvalIn), s.clock.powered = true → s.clock.running = true → s.now % 512 = 0 →
     s.energy.evalAt ≠ some s.now → s.mgmt.inForce.supplyAux = false →
     let l := average s.energy.loopReads
     let x := average s.energy.auxReads
     let r := average s.energy.resReads
     let aux := s.energy.aux
     let sense := match s.loop.comply with
       | .comply _ => e.senseUa
       | _ => s.loop.shaped.toNat / 10
     let ceiling := if aux then 16000 else min 16000 (2 * l - 1000)
     let ua := if ceiling ≤ r then 0
       else if aux then min 5000 ((250000 - e.drawUa * x / 1000) * 1000 / x) else sense - e.drawUa - 100
     let uw := ua * (if aux then x else l) * 7 / 10000
     let next : Season := match s.energy.season with
       | .summer => if r < 14000 then .autumn else .summer
       | .autumn => if 14000 ≤ r then .summer else .autumn
       | .winter => if 11000 ≤ r ∧ 8500 ≤ l then .spring else .winter
       | .spring => if 12000 ≤ r then .autumn else .spring
     let season := if aux = true ∨ s.isl.aon.up = false then s.energy.season else next
     let back := !aux && decide (9500 ≤ x)
     let alarmed := s.faults.opens.any fun o => o.aux
     let fs := if s.mgmt.inForce.vioLoad + 50 < e.vioUa then (s.report 0x16 0 0x40).faults else s.faults
     let traced := !s.pins.inReset && s.isl.aon.up && (match season with
       | .summer => true
       | .autumn => true
       | _ => false)
     ∃ t, exec (.evaluationBoundary e) s = .next t ∧ s.Only [.energy, .win, .faults, .boot, .loop, .obs] t ∧
       (season = s.energy.season → s.OnlyTrace t) ∧
       (season ≠ s.energy.season → t.obs.on = traced ∧ (traced = false → t.obs.fifo = [] ∧ t.obs.sending = []) ∧
         (traced = true → s.obs.on = false → t.obs.syncDue = true)) ∧
       t.energy = { s.energy with
         evalAt := some s.now, loopAvg := l, auxAvg := x, resAvg := r, vioUa := e.vioUa, drawUa := e.drawUa, chargeUa := ua
         passUa := if aux then sense else sense - e.drawUa - ua, chargeUw := uw, charging := uw != 0, season := season
         register := t.energyWord, auxLost := false, auxNext := if back then some true else s.energy.auxNext } ∧
       t.win = { s.win with db := if season = s.energy.season then s.win.db else s.win.db ||| 0x400 } ∧
       ((back && alarmed) = false → t.loop = s.loop ∧ t.faults = fs) ∧
       ((back && alarmed) = true → t.loop = { s.loop with sched := s.loop.sched ++ [⟨s.now + 5, .auxAlarm false⟩] } ∧
         t.faults = { fs with opens := t.faults.opens, log := t.faults.log } ∧
         t.faults.opens = (s.faults.opens.map fun o => { o with aux := false }).filter fun o => !o.acked || o.alarm) ∧
       t.boot = if s.boot = .wait ∧ 512 ≤ s.now ∧ 8500 ≤ l ∧ s.pins.testMode = false ∧ s.pins.inReset = false then .verify
         else s.boot) ∧
  (∀ s : State, s.clock.powered = true →
     let stopped (x : Isl) : Isl := { x with
       up := false, down := true, resetAt := none, released := false, stopped := true, shadow := true, shadowEnd := none
       origin := 0x14, dead := false, wdtFired := false, checked := false, supply := true }
     (s.energy.lowCount = 9 → s.isl.meas.stopped = false → s.isl.meas.down = false → ∃ t,
       exec .loopLowStop s = .next t ∧ s.Only [.meas, .mgmt, .pins, .isl, .faults, .win, .obs] t ∧ s.OnlyTrace t ∧
       t.isl = s.isl.put .meas (stopped s.isl.meas) ∧ t.faults = (s.report 0x14 0 0x40).faults ∧
       t.pins = { s.pins with exc := 0, excDrive := Vector.replicate 4 .off, brk := [] } ∧
       t.win = { s.win with posts := s.win.posts.filter fun e => mbFrom e.1 ≠ some .meas } ∧ t.meas.queue = [] ∧ t.meas.sampled = [] ∧
       t.meas.results = [] ∧ t.meas.taken = [] ∧ t.meas.qovf = false ∧
       t.meas.chans = s.meas.chans ∧ t.meas.slices = (s.meas.slices.map fun x => { x with path := .opened, lastKind := none, power := .asleep }) ∧
       t.meas.tables = s.meas.tables ∧ t.meas.map = s.meas.map ∧ t.meas.seqs = s.meas.seqs ∧
       (s.meas.swap = none → (s.win.mbAt 4).pending = false → s.win.posts = [] → t.mgmt = s.mgmt)) ∧
     (s.energy.buckCount = 3 → s.isl.mgmt.stopped = false → s.isl.mgmt.down = false → s.isl.loop.down = false →
       ∃ t, exec .buckUndervoltageStop s = .next t ∧
       s.Only [.energy, .loop, .win, .mgmt, .isl, .ready, .boot, .ports, .decoder, .decFree, .dspFree, .fsk, .fab, .obs] t ∧ s.OnlyTrace t ∧
       t.boot = (if s.boot = .verify ∨ s.boot = .recovery then .wait else s.boot) ∧
       t.isl = (s.isl.put .loop (stopped s.isl.loop)).put .mgmt (stopped s.isl.mgmt) ∧ t.ready = false ∧ t.mgmt.queue = [] ∧
       t.mgmt.shadow = s.mgmt.committed ∧ t.mgmt.committed = s.mgmt.committed ∧ t.mgmt.inForce = s.mgmt.inForce ∧
       t.loop.cmd = s.loop.cmd ∧ t.loop.lim = s.loop.lim ∧ t.loop.shaped = s.loop.shaped ∧ t.loop.trim = s.loop.trim ∧
       t.loop.fixed = s.loop.fixed ∧ t.win = { s.win with mb := t.win.mb, posts := t.win.posts } ∧
       t.fab.pubQueue = [] ∧ t.fab.relayOut = [] ∧ t.fab.mb2Wait = [] ∧ t.fsk.buf = none ∧ t.fsk.octets = [] ∧ t.fsk.send = []) ∧
     (s.energy.evalAt = some s.now → 8500 ≤ s.energy.loopAvg →
       s.isl.mgmt.stopped = true ∨ s.isl.loop.stopped = true ∨ s.isl.meas.stopped = true → ∃ t,
       exec .brownoutRecovery s = .next t ∧ s.Only [.isl, .boot, .obs] t ∧ s.OnlyTrace t ∧
       t.boot = (if s.isl.mgmt.stopped then (if s.pins.testMode then .wait else .verify) else s.boot) ∧ t.isl.aon = s.isl.aon ∧
       ∀ i : Island, i ≠ .aon → t.isl.at i = if (s.isl.at i).stopped then { s.isl.at i with
         stopped := false, resetAt := if s.isl.mgmt.stopped || !s.meas.round.on then none else some s.now } else s.isl.at i))

/-- Monitors report their conditions once: a short of VIO, the temperature, a rail, an island clock out of lock, a missing
heartbeat after its watchdog count (13 R320, Table 13-2; 16 R385).

Compliance is entered after four boundaries below 8.5 V and left after 64 above 8.6 V, each with a report and neither with a
change of a code; with MW_EN = 1 mis-wiring folds the output back to 3.6 mA at most, past the limiter, and after 1,000,000 ticks the loop is tried
again (08 R194, R205, R206).

A loss of the crystal hands the reference to the internal oscillator, silences both modem ports, drops what the fabric has on
its way, unlocks fabric time, ends the timing guarantee and reports CLK_REF; with no crystal at power-up the count starts on the
internal oscillator without a report; the crystal's return takes the reference back, and
the guarantee waits for the next round start (01 R29; 10 R257; 15 R367).

Where the spec leaves a point of this open, the clause is the model's choice: notes/assumptions/28, 45, 48, 51. -/
def Obligations.MonitorsComplianceAndReference : Prop :=
  (∀ s : State, s.clock.powered = true →
     let reports (c : Instr) (ps : List Part) (det cause : Nat) (isl : Byte) (eff : State → Prop) : Prop :=
       ∃ t, exec c s = .next t ∧ s.Only (.faults :: ps) t ∧ t.faults = (s.report det cause isl).faults ∧ eff t
     (s.energy.vioCount = 8 → reports .vioShort [.energy] 0x16 1 0x40 fun t => t.energy = { s.energy with vioCount := 9 }) ∧
     (s.energy.tempCount = 8 → reports .tempHigh [.energy] 0x1C 0 0x40 fun t => t.energy = { s.energy with tempCount := 9 }) ∧
     (∀ r : Rail, s.energy.railCount.getD (railCode r) 0 = 2 → reports (.supRail r) [.energy] 0x17 (railCode r) 0x30 fun t =>
       t.energy = { s.energy with railCount := s.energy.railCount.set (railCode r) 3 }) ∧
     reports (.clockOutOfLock .meas) [] 0x11 0 0x30 (fun _ => True) ∧
     reports (.clockOutOfLock .loop) [] 0x12 0 0x20 (fun _ => True) ∧
     reports (.clockOutOfLock .mgmt) [] 0x13 0 0x10 (fun _ => True) ∧
     (∀ i : Island, (s.isl.at i).up = true → (s.isl.at i).wdtFired = false →
       (match i with | .meas => 64 | .loop => 200 | .mgmt => 5000 | .aon => 50000) ≤ s.now - (s.isl.at i).lastBeat →
       reports (.watchdogExpiry i) [.isl] (match i with | .meas => 0x18 | .loop => 0x19 | .mgmt => 0x1A | .aon => 0x1B) 0 (srcOf i)
         fun t => t.isl = s.isl.put i { s.isl.at i with wdtFired := true })) ∧
  (∀ s : State, s.clock.powered = true →
     let moves (c : Instr) (cause : Nat) (to_ : Comply) : Prop := ∃ t, exec c s = .next t ∧ s.Only [.loop, .faults, .obs] t ∧
       s.OnlyTrace t ∧ t.loop = { s.loop with comply := to_ } ∧ t.faults = (s.report 0x23 cause 0x40).faults
     let folds (cause : Nat) : Prop := ∃ t, exec .miswireFold s = .next t ∧ s.Only [.loop, .faults, .obs] t ∧ s.OnlyTrace t ∧
       t.loop.miswire = .folded s.now ∧ t.faults = (s.report 0x24 cause 0x40).faults ∧ t.loop.src = 8 ∧ t.loop.cmd ≤ 36000 ∧
       (s.loop.prevSrc ≠ 8 → t.loop.lim = t.loop.cmd)
     (∀ n, s.loop.comply = .dip n → 4 ≤ n → moves .complianceEnter 0 (.comply 0)) ∧
     (∀ g, s.loop.comply = .comply g → 64 ≤ g → moves .complianceClear 1 .inReg) ∧
     (s.mgmt.inForce.mwEn = true → ∀ n, s.loop.miswire = .normal n → 391 ≤ n → s.energy.readAt ≠ some s.now → folds 0) ∧
     (s.mgmt.inForce.mwEn = true → ∀ h m, s.loop.miswire = .retry h m → 391 ≤ h → s.energy.readAt ≠ some s.now → folds 1) ∧
     (s.mgmt.inForce.mwEn = false → exec .miswireFold s = .next s) ∧
     (∀ u, s.loop.miswire = .folded u → 1000000 ≤ s.now - u → ∃ t, exec .miswireRetry s = .next t ∧ s.Only [.loop, .obs] t ∧
       s.OnlyTrace t ∧ t.loop.miswire = .retry 0 0 ∧ t.loop.src ≠ 8) ∧
     (∀ h n, s.loop.miswire = .retry h n → 391 ≤ n → ∃ t, exec .miswireClear s = .next t ∧ s.Only [.loop, .obs] t ∧
       s.OnlyTrace t ∧ t.loop.miswire = .normal 0 ∧ t.loop.src ≠ 8)) ∧
  (∀ s : State, s.clock.powered = true →
     (s.clock.running = true → s.clock.onInternal = false → ∃ t, exec .clockLoss s = .next t ∧
       s.Only [.clock, .ports, .decoder, .fab, .faults] t ∧
       t.clock = { s.clock with onInternal := true, lost := true, guarantee := false } ∧ t.decoder = [] ∧
       t.ports = ⟨s.ports.loop.silent, s.ports.spur.silent⟩ ∧
       t.fab = { s.fab with locked := false, relay := none, sweep := [], sessions := t.fab.sessions } ∧
       (∀ n, n < 16 → t.fab.sess n = { s.fab.sess n with due := none }) ∧ t.faults = (s.report 0x10 0 0x40).faults) ∧
     (s.clock.running = false → s.clock.onInternal = false → exec .clockLoss s = .next { s with
       clock := { s.clock with running := true, onInternal := true, guarantee := false }
       energy := { s.energy with charging := true } }) ∧
     (s.clock.onInternal = true → exec .clockRestore s = .next { s with clock := { s.clock with onInternal := false, lost := false } }))

/-- A tick boundary advances the count by one, by two under a slew of +1, by none under a slew of -1, or to the count set; it wraps
after 2^48 - 1. It changes the boot not at all and the NVM only by what the tick before left to be done, and it moves the limited code
by no more than the slew limit unless the source has changed to an alarm or to foldback (01 R14, R16; 08 R193, R194).

The season and AUX at a tick boundary: the change of AUX that the boundary before brought about acts, SUMMER with AUX and the season
of the averages without it; the comparators of the boundary before bring WINTER from any other season while AUX is clear; the season
holds while the AON core is down. The comparators of the present boundary are kept, LOOP_LOW and the fall of the buck input are counted,
and they decide the next change (03 R48, R55, R60, R61, R62, R65; 13 Table 13-5). AUX lost under an almanac that rests on it
stops every sequence and raises SUP_AUX once; its return starts them again at the next round start (03 R62).

Where the spec leaves a point of this open, the clause is the model's choice: notes/assumptions/15. -/
def Obligations.TickAdvancesTheCount : Prop :=
  (∀ (s : State) (i : TickIn), s.clock.powered = true → s.clock.running = true → ∃ t, exec (.tickBoundary i) s = .next t ∧
     t.pending = s.pending ∧ t.nvm = s.fileTrace.attestTick.flushTick.nvm ∧ t.boot = s.boot ∧
     t.clock = { s.clock with
       tick := s.clock.tick + 1, prev := s.clock.meridian, slew := none, timeSet := none
       meridian := match s.clock.timeSet, s.clock.slew with
         | some v, _ => v
         | none, none => s.clock.meridian + 1
         | none, some up => if up then s.clock.meridian + 2 else s.clock.meridian } ∧
     t.pins.gpioIn = i.gpio ∧ t.pins.rstN = s.pins.rstN.read i.rstN ∧ t.pins.blank = s.pins.blank.read i.blank ∧
     ((t.loop.src = s.loop.src ∨ (t.loop.src ≠ 5 ∧ t.loop.src ≠ 6 ∧ t.loop.src ≠ 8)) →
       (t.loop.lim - s.loop.lim).natAbs ≤ t.mgmt.inForce.slew.natAbs) ∧
     (t.loop.src ≠ s.loop.src → (t.loop.src = 5 ∨ t.loop.src = 6 ∨ t.loop.src = 8) → t.loop.lim = t.loop.cmd)) ∧
  ((∀ (s : State) (i : TickIn), s.clock.powered = true → s.clock.running = true →
     let e := s.energy
     let aux := e.auxNext.getD e.aux
     let averaged : Season := if 14000 ≤ e.resAvg then .summer else if 11000 ≤ e.resAvg then .autumn else .winter
     let season : Season :=
       if s.fileTrace.attestTick.flushTick.isl.aon.up = false then e.season
       else if aux = true then .summer
       else if e.toWinter = true then .winter
       else if e.auxNext = some false then averaged else e.season
     ∃ t, exec (.tickBoundary i) s = .next t ∧ t.energy.season = season ∧ t.energy.aux = aux ∧ t.energy.auxNext = none ∧
       t.energy.toWinter = (season != .winter && !aux && (i.loopBelow85 || i.vresBelow110)) ∧
       t.energy.lowCount = (if e.lowCount = 8 then 9 else if i.loopBelow85 && i.vresBelow90 && !aux then min 9 (e.lowCount + 1) else 0) ∧
       t.energy.buckCount = (if e.buckCount = 2 then 3 else if i.buckBelow70 then min 3 (e.buckCount + 1) else 0) ∧
       t.energy.buck = (if aux then .auxIn else if i.loopBelow85 && !i.vresBelow90 then .resv else .loopIn) ∧
       (t.energy.below85, t.energy.below86, t.energy.vres90, t.energy.vres110) =
         (i.loopBelow85, i.loopBelow86, i.vresBelow90, i.vresBelow110)) ∧
   (∀ s : State,
     let on (q : Nat) : Bool := (s.meas.seq q).running || (s.meas.seq q).startFrom.isSome
     let t := s.auxCheck
     (s.auxBlocked = true →
       (∀ q, q < 4 → (t.meas.seq q).running = false ∧ (t.meas.seq q).startFrom = none) ∧ t.energy.auxLost = true ∧
       (∀ q, q < 4 → t.energy.auxStopped.getLsbD q = (s.energy.auxStopped.getLsbD q || on q)) ∧
       (s.energy.auxLost = true → t.faults = s.faults) ∧ (s.energy.auxLost = false → t.faults = (s.report 0x15 0 0x40).faults)) ∧
     (s.auxBlocked = false → t = { s with energy := { s.energy with auxLost := false } }) ∧
     (s.energy.auxNext = some true →
       (∀ q, q < 4 → (s.auxTick.meas.seq q).startFrom = if s.energy.auxStopped.getLsbD q then some s.now else (s.meas.seq q).startFrom) ∧
       s.auxTick.energy.auxStopped = 0 ∧ s.auxTick.energy.auxLost = false)))

/-- The sequencer drives the EXC pins, the break checks' sources, the slices' router paths and supplies, and Sextant's inputs, and
nothing else. A pin that is not active delivers nothing; with MEAS down all are off; in a freeze the continuous channels' pins are
active and no others; a retired or fenced slice has its switches open and sleeps, but for a qualification, which wakes it for its 16
calibration inputs, 16 ticks apart after a cold wake of 20 (04 R72, R76, R88; 05 R98, R113, R118, R123).

BLANK accepted high under DEFER freezes the round at its present position and turns the gated excitation off; accepted low, the
round resumes with a preamble of W ticks; after BLANK_CAP ticks the blanking ends, BLANK_STUCK is reported and BLANK is ignored. The
sequencer drives at once what the round then needs (04 R88, R89, R92).

At the tick before its last position a round that follows fabric time takes e, the distance of the next round start from
FAB_ALIGN_PHASE modulo ROUND_LEN: with 0 nothing changes, with 1 the round ends here, with -1 it has one idle tick more, and beyond that
it is held, frozen at position 0 of the round to come, until the count is right, with room for the preamble, and the resynchronisation
is counted (10 R261).

Where the spec leaves a point of this open, the clause is the model's choice: notes/assumptions/39. -/
def Obligations.BlankingAndAlignmentMoveTheRound : Prop :=
  (∀ u : State,
     let t := u.driveExc
     u.Only [.pins, .meas] t ∧
     t.pins = { u.pins with exc := t.pins.exc, excDrive := t.pins.excDrive, brk := t.pins.brk } ∧
     t.meas = { u.meas with dwell := t.meas.dwell, sxDrive := t.meas.sxDrive, slices := t.meas.slices } ∧
     (∀ n : Fin 4, t.meas.slices[n] = { u.meas.slices[n] with
       path := t.meas.slices[n].path, disch := t.meas.slices[n].disch, power := t.meas.slices[n].power }) ∧
     (∀ n : Fin 4, t.pins.exc.getLsbD n.val = false → t.pins.excDrive[n] = .off) ∧
     (u.measUp = false → t.pins.exc = 0 ∧ t.pins.brk = [] ∧ t.meas = u.meas) ∧
     (u.measUp = true → (∃ p, u.meas.round.freeze = .frozen p) → t.pins.brk = [] ∧ t.meas.dwell = [] ∧
       t.pins.exc = (u.mgmt.inForce.continuousUses u.meas.map.len).foldl (fun m x => m ||| BitVec.twoPow 4 x.pin) 0) ∧
     (u.measUp = true → ∀ n : Fin 4, (u.meas.slices[n].retired = true ∨ ∃ k, u.meas.slices[n].fence = some k ∧ k ≤ u.now) →
       ((match u.meas.job with
         | some (.qualify sl _) => sl ≠ n.val
         | some (.qualified sl _ _ _) => sl ≠ n.val
         | _ => True) → t.meas.slices[n] = { u.meas.slices[n] with path := .opened, power := .asleep }) ∧
       (∀ since j, u.meas.job = some (.qualify n.val since) → j < 16 → u.now = since + 20 + 16 * j →
         t.meas.slices[n].path = .cal (j % 4) ∧ t.meas.slices[n].power = .awake) ∧
       (∀ m fs at_, u.meas.job = some (.qualified n.val m fs at_) →
         t.meas.slices[n] = { u.meas.slices[n] with path := .opened, power := .buffer }))) ∧
  (∀ s : State, s.measUp = true →
     let r := s.meas.round
     let ends (x : Freeze) : Freeze := match x with
       | .frozen p => .preamble p s.meas.map.w
       | f => f
     let gives (t : State) (ps : List Part) (r' : Round) : Prop :=
       let u : State := { s with meas := { s.meas with round := r' } }
       s.Only ([.meas, .pins, .obs] ++ ps) t ∧ t.meas = u.driveExc.meas ∧ t.pins = u.driveExc.pins
     (r.on = true → s.blanked = true → s.mgmt.inForce.blankSkip = false → (∀ p, r.freeze ≠ .frozen p) →
       ∃ t, exec .blankFreeze s = .next t ∧ s.CountersBut [.blankDeferrals, .trcDrop] t ∧
         gives t [] { r with freeze := .frozen (if r.due then 0 else r.at), freezes := s.now :: r.freezes } ∧
         t.pins.exc = (s.mgmt.inForce.continuousUses s.meas.map.len).foldl (fun m u => m ||| BitVec.twoPow 4 u.pin) 0 ∧
         t.obs.live.getD 3 0 = min (s.obs.live.getD 3 0 + 1) 0xFFFFFFFF) ∧
     (s.pins.blank.level = false → ∃ t, exec .blankResume s = .next t ∧ s.OnlyTrace t ∧
       gives t [] { r with freeze := ends r.freeze }) ∧
     (s.blanked = true → s.mgmt.inForce.blankCap ≤ r.blankTicks → ∃ t, exec .blankStuck s = .next t ∧ s.OnlyTrace t ∧
       gives t [.faults] { r with freeze := ends r.freeze, blankIgnored := true } ∧ t.faults = (s.report 0x22 0 0x30).faults)) ∧
  (∀ (s : State) (e : Int), s.measUp = true → s.meas.round.passing = true → s.meas.round.pos + 1 = s.meas.map.len →
     s.meas.round.idle = 0 → s.mgmt.inForce.fabAlign = true → s.fab.locked = true → s.meas.map.w ≤ s.meas.map.len →
     let len : Int := s.meas.map.len
     let next : Int := (s.clock.meridian.toNat : Int) + 1
     2 * e ≤ len → 0 < 2 * e + len → (next - s.mgmt.inForce.fabAlignPhase - e) % len = 0 →
     let ends (r : Round) : State := { s with meas := { s.meas with round := r } }
     (e = 0 → exec .roundAlignment s = .next s) ∧
     (e = 1 → exec .roundAlignment s = .next (ends { s.meas.round with pos := 0, due := true, skipped := [] })) ∧
     (e = -1 → exec .roundAlignment s = .next (ends { s.meas.round with idle := 1 })) ∧
     (2 ≤ e ∨ e ≤ -2 → ∃ t hold, exec .roundAlignment s = .next t ∧ s.Only [.meas, .obs] t ∧
       s.CountersBut [.roundResync, .trcDrop] t ∧
       t.meas = { s.meas with round := { s.meas.round with
         idle := hold, held := true, freezes := (s.now + 1) :: s.meas.round.freezes } } ∧
       s.meas.map.w ≤ hold ∧ hold < s.meas.map.w + s.meas.map.len ∧
       (next + hold - s.mgmt.inForce.fabAlignPhase) % len = 0))

/-- A rising edge on a GPIO pin, and a fabric time event once the count equals or passes it, trigger every triggered sequence whose
SQ_TRIG names them, as Table 6-4 has it: an idle one is armed for the window selected, a running one holds the trigger, any other
drops it and sets SEQ_OVERRUN; a further trigger of the same boundary is the same one; the event is cleared (06 R144, R146; 10
R260).

The commit tick of the window that an armed sequence has selected starts it, with the round starts still to pass before its own round,
and the sequencer drives what its positions need. In that round the tick of its last position ends it: the sequence is idle again, or
the trigger that it holds selects the next window (06 R145, R146).

Where the spec leaves a point of this open, the clause is the model's choice: notes/assumptions/35, 79, 101. -/
def Obligations.TriggersSelectWindowsThatStartAndEnd : Prop :=
  (∀ s : State, s.clock.powered = true →
     let hit (q : Nat) (x : Seq) : Seq :=
       if (x.trigAt.map (·.1)) = some s.now then x
       else if x.running = false then { x with overrun := true, trigAt := some (s.now, 2) }
       else match x.trig, s.meas.map.selectWindow s.mgmt.inForce q s.meas.round.at with
         | .idle, some k => { x with trig := .armed k, trigAt := some (s.now, 0) }
         | .running k, _ => { x with trig := .runningPending k, trigAt := some (s.now, 1) }
         | _, _ => { x with overrun := true, trigAt := some (s.now, 2) }
     let named (q source : Nat) : Bool := s.mgmt.inForce.sqTriggered q && decide (0 < s.mgmt.inForce.sqLen q) &&
       s.mgmt.inForce.sqTrig q == source
     let triggers (t : State) (source : Nat) : Prop := t.meas = { s.meas with seqs := t.meas.seqs } ∧
       s.CountersBut [.trigLost, .trcDrop] t ∧
       ∀ q : Fin 4, t.meas.seqs[q] = if named q.val source then hit q.val s.meas.seqs[q] else s.meas.seqs[q]
     (∀ pin : Fin 3, s.measUp = true → (s.pins.trig pin).edge = true → ∃ t, exec (.gpioTrigger pin) s = .next t ∧
       s.Only [.meas, .pins, .obs] t ∧ triggers t (pin.val + 2) ∧ (t.pins.trig pin).edge = false ∧
       t.pins = { s.pins with trig0 := t.pins.trig0, trig1 := t.pins.trig1, trig2 := t.pins.trig2 } ∧
       ∀ n, n ≠ pin → t.pins.trig n = s.pins.trig n) ∧
     (∀ v, s.fab.event = some v → s.loopUp = true → s.measUp = true → v.toNat ≤ s.clock.meridian.toNat → ∃ t, exec .timeEventFire s = .next t ∧
       s.Only [.meas, .fab, .obs] t ∧ triggers t 1 ∧ t.fab = { s.fab with event := none })) ∧
  ((∀ (s : State) (q : Fin 4) (k : Nat), s.measUp = true →
     let x := s.meas.seqs[q]
     let becomes (y : Seq) : State := { s with meas := { s.meas with seqs := s.meas.seqs.set q.val y } }
     let ended (y : TrigState) : Prop := exec (.triggerWindowEnd q) s = .next (becomes { x with trig := y, ended := false })
     (∀ c : Int, x.trig = .armed k → s.meas.round.passing = true → s.meas.round.due = false →
       s.meas.map.commitAt s.mgmt.inForce q.val k = some c → c % s.meas.map.len = s.meas.round.pos →
       exec (.triggerWindowStart q) s = .next (becomes { x with
         trig := .running k, laps := (-(c / s.meas.map.len)).toNat, ended := false }).driveExc) ∧
     (x.trig = .running k → x.ended = true → ended .idle) ∧
     (x.trig = .runningPending k → x.ended = true →
       (∀ w, s.meas.map.selectWindow s.mgmt.inForce q.val s.meas.round.pos = some w → ended (.armed w)) ∧
       (s.meas.map.selectWindow s.mgmt.inForce q.val s.meas.round.pos = none → ended .idle))) ∧
   ∀ (m : Meas) (pos k : Nat) (q : Fin 4), m.seqs[q].trig = .running k ∨ m.seqs[q].trig = .runningPending k →
     (m.windowsPass pos).seqs[q] = if m.seqs[q].laps = 0 ∧ ((m.map.runPos q.val k).map (·.t)).max? = some pos then
       { m.seqs[q] with ended := true } else m.seqs[q])

/-- A round starts at position 0 with the next count; while MEAS is down that is all, but for the streams' fields and the mark on a
measurement token whose apply point it was. Where no map, token, notice or sample waits, MEAS carries out the due stops and starts of
sequences, reports a start to MGMT on MB5, and leaves everything else as it is but for what the sequencer drives and the code that the
loop then selects; a fallback map that is due takes the place of the map in force, with the conflicts between it and the map that played
before skipped. On the crystal the timing guarantee holds from here on (01 R29; 06 R131, R136; 05 R114, R115; 06 R148; 08 R197; 13
R340).

Where the spec leaves a point of this open, the clause is the model's choice: notes/assumptions/35, 79. -/
def Obligations.RoundStartsWithItsSequences : Prop :=
  ∀ s : State, s.clock.powered = true → s.meas.round.on = true → s.meas.round.due = true →
    let r := s.meas.round
    let count := if r.begun.isSome then r.count + 1 else r.count
    let begins : Round := { r with due := false, pos := 0, count := count, begun := some s.now }
    let guarded : Clock := { s.clock with guarantee := s.clock.guarantee || !s.clock.onInternal }
    let due (x : Option Nat) : Prop := ∃ n, x = some n ∧ n ≤ s.now
    let routed (t : State) : Prop := (∀ n : Fin 4, t.meas.slices[n] = { s.meas.slices[n] with
        path := t.meas.slices[n].path, disch := t.meas.slices[n].disch, power := t.meas.slices[n].power
        warm := t.meas.slices[n].warm, fence := t.meas.slices[n].fence }) ∧
      t.pins = { s.pins with exc := t.pins.exc, excDrive := t.pins.excDrive, brk := t.pins.brk }
    (s.measUp = false → s.mgmt.inForce.takeKind s.mgmt.committed .stream = s.mgmt.inForce → exec .roundStart s = .next { s with
      meas := { s.meas with round := begins }, clock := guarded
      mgmt := { s.mgmt with pendMeas := s.mgmt.pendMeas.map fun t => { t with missed := t.missed || decide (t.posted + 3 ≤ s.now) } } }) ∧
    (s.measUp = true → s.meas.sampled = [] → s.meas.sxEntries = [] → s.mgmt.pendMeas = none → s.meas.job = none →
      s.meas.failMap = none → (∀ x, s.meas.prior = some x → x.1 ≠ s.now) → s.mgmt.inForce.supplyAux = false → (s.win.mbAt 4).pending = false →
      s.mgmt.inForce.takeKind s.mgmt.committed .stream = s.mgmt.inForce → ∃ t, exec .roundStart s = .next t ∧
      s.Only [.clock, .meas, .loop, .win, .energy, .pins, .obs] t ∧ s.CountersBut [.trigLost, .trcDrop] t ∧
      t.meas = { s.meas with
        round := begins, seqs := t.meas.seqs, chans := t.meas.chans, sxNext := 2, dwell := t.meas.dwell, sxDrive := t.meas.sxDrive
        slices := t.meas.slices } ∧
      routed t ∧ (∀ n : Fin 4, t.meas.slices[n].warm = s.meas.slices[n].warm ∧ t.meas.slices[n].fence = s.meas.slices[n].fence) ∧
      (∀ c : Fin 20, t.meas.chans[c] = { s.meas.chans[c] with restart := t.meas.chans[c].restart }) ∧
      (∀ q : Fin 4, (¬ due s.meas.seqs[q].startFrom ∨ s.mgmt.inForce.sqLen q.val = 0) →
        (¬ due s.meas.seqs[q].stopFrom → t.meas.seqs[q] = { s.meas.seqs[q] with laps := s.meas.seqs[q].laps - 1 }) ∧
        (due s.meas.seqs[q].stopFrom → t.meas.seqs[q] = { s.meas.seqs[q] with
          laps := s.meas.seqs[q].laps - 1, running := false, stopFrom := none, trig := if s.meas.seqs[q].running then .idle else s.meas.seqs[q].trig })) ∧
      (∀ q : Fin 4, due s.meas.seqs[q].startFrom → 0 < s.mgmt.inForce.sqLen q.val →
        t.meas.seqs[q].running = true ∧ t.meas.seqs[q].startFrom = none) ∧
      t.win = { s.win with
        mb := t.win.mb, crossSince := t.win.crossSince, crossRaised := t.win.crossRaised, idb := t.win.idb, posts := t.win.posts } ∧
      (∀ k, k ≠ 5 → t.win.mbAt k = s.win.mbAt k) ∧
      (s.upAt .mgmt = true → ∀ o ∈ s.mgmt.outst, o.op = 0x0201 → o.done = none → (∃ g, o.got = some g ∧ g + 2 ≤ s.now) →
        t.win.onWay 5 (· == .event 0x0201 stOk (leBytes 4 count)) = true) ∧
      t.loop = { s.loop with
        uUpd := t.loop.uUpd, interrupted := t.loop.interrupted, src := t.loop.src, cmd := t.loop.cmd, lim := t.loop.lim
        shaped := t.loop.shaped, trim := t.loop.trim } ∧
      (t.loop.src, t.loop.cmd) = t.selectCode ∧ t.energy = { s.energy with auxLost := false } ∧ t.clock = guarded) ∧
    (∀ sl n fb, s.measUp = true → s.meas.sampled = [] → s.meas.sxEntries = [] → s.meas.fallbackDue = some (sl, n) → n + 2 ≤ s.now →
      s.meas.fallback[sl]? = some fb → (∀ i ∈ fb.slices, (s.meas.slice i).retired = false) → sl < 4 →
      ∃ t, exec .fallbackMapSwitch s = .next t ∧ s.Only [.meas, .loop, .energy, .pins, .obs] t ∧ s.OnlyTrace t ∧
      t.meas = { s.meas with
        map := fb, prior := some (s.now, s.before), fallback := [], fallbackDue := none, slices := t.meas.slices, chans := t.meas.chans, seqs := t.meas.seqs
        dwell := t.meas.dwell, sxDrive := t.meas.sxDrive, round := { s.meas.round with skipped := t.meas.round.skipped } } ∧
      t.meas.round.skipped = junctionSkips s.before.1 s.before.2 fb s.mgmt.inForce ∧
      (∀ q : Fin 4, t.meas.seqs[q] = { s.meas.seqs[q] with trig := t.meas.seqs[q].trig, ended := t.meas.seqs[q].ended }) ∧ routed t ∧
      (t.meas.slice sl).fence = none ∧ (∀ n, n ≠ sl → (t.meas.slice n).fence = (s.meas.slice n).fence) ∧
      t.loop = { s.loop with duMax := max s.loop.duMax fb.duMax, g := fb.g, duFrom := s.now } ∧
      t.energy = { s.energy with cost := fb.cost, costLoop := fb.costLoop })

/-- A slice converts the position of the present tick: the conversion waits for its correction with the gain in use, and the slice's
counts advance; a channel that starts again after a stop is flushed first and converts at GAIN; a calibration position fires, or not,
as R104 has it, and restarts the count; a check position fires in the rounds that BRK_INT gives (05 R97, R104; 04 R85; 06 R136; 07
R175).

Where the spec leaves a point of this open, the clause is the model's choice: notes/assumptions/65. -/
def Obligations.ConversionsWaitForCorrection : Prop :=
  ∀ (s : State) (sl : Fin 4) (c : Conv) (p : Pos),
    let x := s.meas.slices[sl]
    let gainOf (ch half : Nat) : Nat := if s.mgmt.inForce.arEn ch then
        (match (s.meas.chan ch).pendGain with
          | some (g, n) => if n ≤ s.now ∧ half = 0 then g else (s.meas.chan ch).gain
          | none => (s.meas.chan ch).gain)
      else s.mgmt.inForce.fixedGain ch
    let slice (y : Slice) (since lastCal : Nat) : Prop := y = { x with convs := x.convs + 1, since := since, lastCal := lastCal }
    let others (t : State) : Prop := ∀ n : Fin 4, n ≠ sl → t.meas.slices[n] = s.meas.slices[n]
    (∀ ch half idx q r, s.posNow sl.val (fun k => match k with | .slot _ _ _ _ _ => true | _ => false) = some p →
      p.kind = .slot ch half idx q r → (s.meas.chan ch).restart = false ∨ s.meas.sampled = [] ∧ s.meas.sxEntries = [] →
      ∃ t, exec (.slotConversion sl c) s = .next t ∧ s.Only [.meas] t ∧
      t.meas = { s.meas with
        taken := s.meas.taken ++ [⟨sl.val, p.kind, c, if (s.meas.chan ch).restart then s.mgmt.inForce.fixedGain ch else gainOf ch half, x.convs⟩]
        slices := t.meas.slices, chans := t.meas.chans, sxWindow := t.meas.sxWindow } ∧
      slice t.meas.slices[sl] (x.since + 1) x.lastCal ∧ others t ∧
      ((s.meas.chan ch).restart = true → t.meas.chan ch = (s.meas.chan ch).flush s.mgmt.inForce ch) ∧
      ∀ n : Fin 20, n.val ≠ ch → t.meas.chans[n] = s.meas.chans[n]) ∧
    (s.posNow sl.val (· == .cal) = some p →
      (255 ≤ x.since ∨ 500000 < s.now - x.lastCal → ∃ t, exec (.calibrationConversion sl c) s = .next t ∧ s.Only [.meas] t ∧
        t.meas = { s.meas with taken := s.meas.taken ++ [⟨sl.val, .cal, c, 0, x.convs⟩], slices := t.meas.slices } ∧
        slice t.meas.slices[sl] 0 s.now ∧ others t) ∧
      (¬ (255 ≤ x.since ∨ 500000 < s.now - x.lastCal) → exec (.calibrationConversion sl c) s = .next s)) ∧
    (∀ ch, s.posNow sl.val (fun k => match k with | .check _ => true | _ => false) = some p → p.kind = .check ch →
      (s.mgmt.inForce.brkInt ch ≠ 0 ∧ s.meas.round.count % s.mgmt.inForce.brkInt ch = 0 → ∃ t,
        exec (.breakCheck sl c) s = .next t ∧ s.Only [.meas] t ∧
        t.meas = { s.meas with
          taken := s.meas.taken ++ [⟨sl.val, p.kind, c, gainOf ch 0, x.convs⟩], slices := t.meas.slices, chans := t.meas.chans } ∧
        slice t.meas.slices[sl] (x.since + 1) x.lastCal ∧ others t ∧
        ∀ n : Fin 20, n.val ≠ ch → t.meas.chans[n] = s.meas.chans[n]) ∧
      (s.mgmt.inForce.brkInt ch = 0 ∨ s.meas.round.count % s.mgmt.inForce.brkInt ch ≠ 0 →
        exec (.breakCheck sl c) s = .next s))

/-- The conversions of the tick before are corrected: what is committed joins the queue behind the entries there, and nothing
outside MEAS changes. A slot's raw sample is the formula of R102, or the clamp code where the redundancy check fails, the PGA is
overloaded or the code leaves its range, then with OVR; of a conversion with both, the sign of the code decides, which is the model's
choice (05 R97, R101, R102; 06 R158; notes/assumptions/83). At the end of its tick a conversion with OVR arms the extended discharge
of its slice, and a switch-over that was carried out has used one up (04 R83).

A corrected sample enters its channel's decimator, brought to AR_GMAX where the channel ranges; at a decimation boundary the combs,
the compensator and the notch give the result with its tags, and it joins the queue with Q_EN, or is dropped from a full one, counted
in QDROP with QOVF set. Other samples leave results and queue as they are (01 R24; 04 R87, R90; 05 R126; 06 R150, R151, R153, R155,
R157 to R159; 07 R178).

A calibration conversion is P, N, U or D in turn. After N the offset and the gain, and after D the skew, are measured: within the
limits of Table 5-3 an eighth of the difference is added, in force two ticks after the conversion, and AON's preload store takes the
values; outside them the measurement is counted as rejected, and the second in a row fails the slice. A firing check is compared with
the channel's latest normal sample, brought to the check's gain: it fails with OVR or beyond BRK_THR, and two of a kind in a row set or
clear SENSOR_OPEN; it enters neither filter nor queue (04 R85, R86; 05 R104 to R107, Table 5-5; 07 R178).

Where the spec leaves a point of this open, the clause is the model's choice: notes/assumptions/36, 65, 83, 94, 98, 99. -/
def Obligations.CorrectionGivesTheRawSample : Prop :=
  (∀ s : State, s.measUp = true →
     (∃ t, exec .rawSampleCorrection s = .next t ∧ s.Only [.meas, .obs] t ∧
       s.CountersBut [.sarErr, .calReject, .qdrop, .trcDrop] t ∧
       t.meas = { s.meas with
         sampled := [], results := t.meas.results, sxEntries := s.meas.sxEntries.filter fun e => decide (s.now < e.2)
         slices := t.meas.slices, chans := t.meas.chans, sxWindow := t.meas.sxWindow, preload := t.meas.preload
         queue := t.meas.queue, qovf := t.meas.qovf, qRing := t.meas.qRing } ∧
       (∃ l, t.meas.queue = s.meas.queue ++ l ∧ ∀ e ∈ l, e.commit = s.now) ∧
       ∃ l, t.meas.results = s.meas.results ++ l ∧ ∀ r ∈ l, r.tick = s.now) ∧
     (∀ (sl : Fin 4) (ch : Fin 20) (c : Conv) (g idx q run tick stamp round nc nth : Nat),
       s.meas.sampled = [⟨sl.val, .slot ch.val 0 idx q run, .conv c, g, tick, BitVec.ofNat 48 stamp, round, nc, nth⟩] →
       s.meas.slices[sl].old = none → s.mgmt.inForce.excModeInUse ch.val ≠ 3 → s.meas.map.interleaved ch.val = false →
       let r := c.code.toInt
       let x1 := r * 64 - s.meas.slices[sl].offAcc / 8
       let x2 := x1 * (s.meas.slices[sl].gainAcc / 8) / 8388608
       let x := x2 * Config.calGain s.meas.cal sl.val g / 8388608 - Config.calOff s.meas.cal sl.val g
       let limit (negative : Bool) : Int := if negative then -0x800000 else 0x7FFFFF
       let sample : Int × Bool :=
         if c.disagree then (limit (decide (r < 0)), true) else if c.overload then (limit c.negative, true)
         else if 0x7FFFFF < x then (0x7FFFFF, true) else if x < -0x800000 then (-0x800000, true) else (x, false)
       ∃ t, exec .rawSampleCorrection s = .next t ∧ t.meas.chans[ch].prevNorm = some ⟨sample.1, g, g, sample.2⟩ ∧
         t.obs.live.getD 5 0 = if c.disagree then min (s.obs.live.getD 5 0 + 1) 0xFFFFFFFF else s.obs.live.getD 5 0) ∧
     ∀ (sl : Fin 4) (p : Pos), s.played sl.val = some p → (∀ k, s.meas.slices[sl].fence = some k → s.now < k) →
       let x := s.meas.slices[sl]
       s.visit.meas.slices[sl].ext = (s.tookOver sl.val || (x.ext && (s.skipping || !x.switches p.kind)))) ∧
  (∀ (s : State) (sl : Fin 4) (ch : Fin 20) (cv : Conv) (g idx q run tick round nc nth : Nat) (stamp : Count48), s.measUp = true →
     s.meas.sampled = [⟨sl.val, .slot ch.val 0 idx q run, .conv cv, g, tick, stamp, round, nc, nth⟩] → s.meas.sxEntries = [] →
     s.mgmt.inForce.excModeInUse ch.val ≠ 3 → s.meas.map.interleaved ch.val = false →
     ∃ (t : State) (x : Int) (ovr : Bool), exec .rawSampleCorrection s = .next t ∧
       t.meas.chans[ch].prevNorm = some ⟨x, g, g, ovr⟩ ∧
       let a := s.mgmt.inForce
       let c := s.meas.chans[ch]
       let n := a.fOsr ch.val
       let w (v : Int) : Int := v.bmod 18446744073709551616
       let lim (v : Int) : Int := max (-8388608) (min 8388607 v)
       let beyond (v : Int) : Bool := decide (v < -8388608 ∨ 8388607 < v)
       let i1 := w (c.i1 + if a.arEn ch.val then x * 2 ^ (a.arGmax ch.val - g) else x)
       let i2 := w (c.i2 + i1)
       let i3 := w (c.i3 + i2)
       let sampleOvr := c.ovrAcc || ovr
       let late := c.deferAcc || s.meas.round.freezes.any fun f => decide (c.first.getD tick < f) && decide (f ≤ tick)
       let notch := a.notchOf ch.val nc
       let settle := if c.flushed then
         (if (round * nc + idx) % n = 0 then 2 else 3) + (if a.fFir ch.val then 15 else 0) + (notch - 1) else c.settle
       let c1 := w (i3 - c.d1)
       let c2 := w (c1 - c.d2)
       let z := w (c2 - c.d3) / ((n * n * n : Nat) : Int)
       let zs := if a.arEn ch.val then z / 2 ^ (a.arGmax ch.val - g) else z
       let rchg := a.arEn ch.val && g != c.resGain
       let shift (v : Int) : Int := if !rchg then v else if c.resGain < g then v * 2 ^ (g - c.resGain) else v / 2 ^ (c.resGain - g)
       let zh := if a.fFir ch.val then (lim zs :: c.zh.map shift).take 16 else c.zh.map shift
       let fir := ((firCoef.zip zh).map fun e => e.1 * e.2).sum / 8388608
       let y := if a.fFir ch.val then lim fir else lim zs
       let nh := if 1 < notch then (y :: c.nh.map shift).take notch else c.nh.map shift
       let res := if 1 < notch then nh.sum / (notch : Int) else y
       let xfail := match c.xfailNext with
         | some (b, f) => if f ≤ s.now then b else c.xfail
         | none => c.xfail
       let bit (b : Bool) (k : Nat) : Nat := if b then 2 ^ k else 0
       let tags : Byte := BitVec.ofNat 8 (bit (sampleOvr || beyond zs || a.fFir ch.val && beyond fir) 0 + bit (decide (0 < settle)) 1 +
         bit late 2 + bit rchg 3 + bit xfail 4 + 64 * sl.val)
       let e : QEntry := ⟨BitVec.ofInt 24 res, BitVec.ofNat 5 ch.val, tags, stamp, s.now⟩
       let y' := t.meas.chans[ch]
       (y'.i1, y'.i2, y'.i3) = (i1, i2, i3) ∧
       ((round * nc + idx + 1) % n ≠ 0 → t.meas.results = s.meas.results ∧ t.meas.queue = s.meas.queue ∧
         (y'.d1, y'.d2, y'.d3) = (c.d1, c.d2, c.d3) ∧ (y'.ovrAcc, y'.deferAcc, y'.settle) = (sampleOvr, late, settle)) ∧
       ((round * nc + idx + 1) % n = 0 →
         t.meas.results = s.meas.results ++
           [⟨ch.val, res, if a.arEn ch.val then g else a.fixedGain ch.val, tags, stamp, s.now, tick, a.isPrimary ch.val, (round, idx)⟩] ∧
         (y'.d1, y'.d2, y'.d3) = (i3, c1, c2) ∧ y'.zh = zh ∧ y'.nh = nh ∧ y'.resGain = g ∧ y'.zLast = z ∧
         (y'.ovrAcc, y'.deferAcc, y'.settle) = (false, false, settle - 1) ∧
         y'.sensorRange = decide (res / 256 < a.rngLo ch.val ∨ a.rngHi ch.val < res / 256) ∧
         (a.qEn ch.val = false → t.meas.queue = s.meas.queue) ∧
         (a.qEn ch.val = true → s.meas.queue.length < 512 → t.meas.queue = s.meas.queue ++ [e] ∧ t.meas.qovf = s.meas.qovf ∧
           t.meas.qRing = if s.meas.queue.length + 1 = a.qIrqLvl then some s.now else s.meas.qRing) ∧
         (a.qEn ch.val = true → 512 ≤ s.meas.queue.length → t.meas.queue = s.meas.queue ∧ t.meas.qovf = true ∧
           t.obs.live.getD 0 0 = min (s.obs.live.getD 0 0 + 1) 0xFFFFFFFF))) ∧
  (∀ (s : State) (sl : Fin 4) (cv : Conv) (g tick round nc nth : Nat) (stamp : Count48), s.measUp = true → s.meas.sxEntries = [] →
     let x := s.meas.slices[sl]
     let sign (negative : Bool) : Int := if negative then -0x800000 else 0x7FFFFF
     let r := cv.code.toInt
     let more (n : Nat) (t : State) : Prop := t.obs.live.getD n 0 = min (s.obs.live.getD n 0 + 1) 0xFFFFFFFF
     let quiet (t : State) : Prop := t.meas.queue = s.meas.queue ∧ t.meas.results = s.meas.results ∧
       ∀ n : Fin 4, n ≠ sl → t.meas.slices[n] = s.meas.slices[n]
     (s.meas.sampled = [⟨sl.val, .cal, .conv cv, g, tick, stamp, round, nc, nth⟩] →
       let v : Int := if cv.disagree then sign (decide (r < 0)) else if cv.overload then sign cv.negative else 64 * r
       ∃ t, exec .rawSampleCorrection s = .next t ∧ quiet t ∧ t.meas.chans = s.meas.chans ∧
         let y := t.meas.slices[sl]
         let kept := (y.offAcc, y.gainAcc, y.skewAcc, y.old) = (x.offAcc, x.gainAcc, x.skewAcc, x.old)
         let before := some (x.offAcc, x.gainAcc, x.skewAcc, tick + 2)
         y.phase = (x.phase + 1) % 4 ∧
         t.meas.preload.coef = t.meas.slices.toList.map (fun z => ⟨z.offAcc, z.gainAcc, z.skewAcc, z.since, z.lastCal, z.phase⟩) ∧
         (x.phase % 4 = 0 → y.latestP = some v ∧ kept) ∧ (x.phase % 4 = 2 → y.latestU = some v ∧ kept) ∧
         (∀ p, x.phase % 4 = 1 → x.latestP = some p →
           let off := (p + v) / 2
           let q := (2 * Config.cCal * 8388608).tdiv (p - v)
           let gain := if p = v ∨ ¬ (-2147483648 ≤ q ∧ q ≤ 2147483647) then Config.mGainOpen p v else q
           let good := off.natAbs ≤ 4096 ∧ (off - x.offAcc / 8).natAbs ≤ 256 ∧ (gain - 8388608).natAbs ≤ 41943 ∧
             (gain - x.gainAcc / 8).natAbs ≤ 1678
           (good → y.offAcc = x.offAcc + (8 * off - x.offAcc) / 8 ∧ y.gainAcc = x.gainAcc + (8 * gain - x.gainAcc) / 8 ∧
             y.skewAcc = x.skewAcc ∧ y.old = before ∧ y.rejOg = 0) ∧
           (¬ good → kept ∧ y.rejOg = x.rejOg + 1 ∧ (1 ≤ x.rejOg → y.failed = some 1) ∧ more 6 t)) ∧
         (∀ u, x.phase % 4 = 3 → x.latestU = some u →
           let skew := (u - v) / 2 * 15625 / 65536
           let good := skew.natAbs ≤ 800 ∧ (skew / 8 - x.skewAcc / 8).natAbs ≤ 20
           (good → y.offAcc = x.offAcc ∧ y.gainAcc = x.gainAcc ∧ y.skewAcc = x.skewAcc + (skew - x.skewAcc) / 8 ∧ y.old = before ∧
             y.rejSkew = 0) ∧
           (¬ good → kept ∧ y.rejSkew = x.rejSkew + 1 ∧ (1 ≤ x.rejSkew → y.failed = some 2) ∧ more 6 t))) ∧
     (∀ ch : Fin 20, s.meas.sampled = [⟨sl.val, .check ch.val, .conv cv, g, tick, stamp, round, nc, nth⟩] → x.old = none →
       let c := s.meas.chans[ch]
       let x1 := (r * 64 - x.offAcc / 8) * (x.gainAcc / 8) / 8388608
       let x2 := x1 * Config.calGain s.meas.cal sl.val g / 8388608 - Config.calOff s.meas.cal sl.val g
       let sample : Int × Bool :=
         if cv.disagree then (sign (decide (r < 0)), true) else if cv.overload then (sign cv.negative, true)
         else if 0x7FFFFF < x2 then (0x7FFFFF, true) else if x2 < -0x800000 then (-0x800000, true) else (x2, false)
       let differs (y : Int) (h : Nat) : Bool :=
         decide ((s.mgmt.inForce.brkThr ch.val : Int) * 65536 < (sample.1 - if h < g then y * 2 ^ (g - h) else y / 2 ^ (h - g)).natAbs)
       ∃ t, exec .rawSampleCorrection s = .next t ∧ quiet t ∧ (∀ n : Fin 20, n ≠ ch → t.meas.chans[n] = s.meas.chans[n]) ∧
         (sample.2 = true ∨ (∃ y h, c.checkRef = some (y, h) ∧ differs y h = true) → t.meas.chans[ch] = { c with
           brkFail := c.brkFail + 1, brkPass := 0, sensorOpen := c.sensorOpen || decide (1 ≤ c.brkFail) }) ∧
         (sample.2 = false → (∃ y h, c.checkRef = some (y, h) ∧ differs y h = false) → t.meas.chans[ch] = { c with
           brkPass := c.brkPass + 1, brkFail := 0, sensorOpen := c.sensorOpen && decide (c.brkPass = 0) }) ∧
         (sample.2 = false → c.checkRef = none → t.meas.chans[ch] = c)))

/-- A slice that fails its self-check is fenced from the next boundary and reported with its number and cause; AON and NVM record it,
and its fallback map is due or MGMT must compile a map. MGMT then posts the map for the slices left, or, with none, every sequence
stops and NO_CAPACITY is reported (05 R112, R113, R114, R116, R119).

A qualification is judged 261 ticks after its round start on its 16 conversions, which count among the slice's. A buffer that was
not ready, or two disagreements within 256 conversions of the slice, fail its self-check, which is reported. Else four cycles within the
absolute limits of Table 5-3, each within the jump limits of the one before, give the slice the coefficients of the fourth and a map
with it; where they are not, SLICE_RESTORE ends with ST_NOT_PERMITTED, and with no map with ST_INFEASIBLE, and the slice stays retired.
Where p - n is 0, or the quotient has no int32, the spec states no gain. That the counts start anew is the model's choice (05 R101,
R105, R112, R118; notes/assumptions/85).

Where the spec leaves a point of this open, the clause is the model's choice: notes/assumptions/36, 38, 79, 85. -/
def Obligations.SlicesFailAndQualify : Prop :=
  ((∀ (s : State) (sl : Fin 4) (cause : Nat), s.measUp = true → s.meas.slices[sl].failed = some cause →
     s.meas.slices[sl].fence = none →
     let first : Bool := s.meas.inService.length == 4 && s.meas.fallback.length == 4
     ∃ t, exec (.sliceCheckFail sl) s = .next t ∧ s.Only [.meas, .nvm, .faults, .obs] t ∧ s.OnlyTrace t ∧
       t.meas = { s.meas with
         slices := s.meas.slices.set sl.val { s.meas.slices[sl] with failed := none, fence := some (s.now + 1), retired := true }
         fallbackDue := if first then some (sl.val, s.now + 1) else s.meas.fallbackDue
         failCompile := if first then s.meas.failCompile else some sl.val } ∧
       t.nvm = { s.nvm with retired := s.nvm.retired ||| BitVec.twoPow 4 sl.val } ∧
       t.faults = (s.report 0x20 (cause + 256 * sl.val) 0x30).faults) ∧
   (∀ (s : State) (sl : Nat), s.mgmtUp = true → s.meas.failCompile = some sl →
     ∃ t, exec .failureMapCompile s = .next t ∧
     match (if s.meas.inService = [] then none else (s.mgmt.committed.lowered (s.newLevel .mgmt) s.meas.inService false).toOption) with
     | some m => t = { s with meas := { s.meas with failCompile := none, failMap := some (m, s.now + 1) } }
     | none => s.Only [.meas, .loop, .faults, .obs] t ∧ s.CountersBut [.trigLost, .trcDrop] t ∧
       t.meas = { s.meas with failCompile := none, seqs := t.meas.seqs, chans := t.meas.chans } ∧
       (∀ q : Fin 4, t.meas.seqs[q].running = false) ∧ t.loop = { s.loop with interrupted := t.loop.interrupted } ∧
       t.faults = (s.report 0x20 (5 + 256 * sl) 0x30).faults)) ∧
  (∀ (s : State) (sl : Fin 4) (since : Nat) (convs : List Conv) (ready : Bool), s.measUp = true →
     s.meas.job = some (.qualify sl.val since) → since + 261 ≤ s.now →
     let sign (negative : Bool) : Int := if negative then -0x800000 else 0x7FFFFF
     let v (i : Nat) : Int := match convs[i]? with
       | none => 0
       | some c => if c.disagree then sign (decide (c.code.toInt < 0)) else if c.overload then sign c.negative else 64 * c.code.toInt
     let gain (k : Nat) : Int :=
       let q := (2 * Config.cCal * 8388608).tdiv (v (4 * k) - v (4 * k + 1))
       if v (4 * k) = v (4 * k + 1) ∨ ¬ (-2147483648 ≤ q ∧ q ≤ 2147483647) then Config.mGainOpen (v (4 * k)) (v (4 * k + 1)) else q
     let off (k : Nat) : Int := (v (4 * k) + v (4 * k + 1)) / 2
     let skew (k : Nat) : Int := (v (4 * k + 2) - v (4 * k + 3)) / 2 * 15625 / 65536
     let x := s.meas.slices[sl]
     let disagreeing := ((List.range convs.length).filter fun i => convs[i]?.any (·.disagree)).map (x.convs + ·)
     let marks := x.lastErr.toList ++ disagreeing
     let again := (marks.zip marks.tail).any fun e => decide (e.2 < e.1 + 256)
     let counted : Slice := { x with convs := x.convs + convs.length, lastErr := marks.getLast? }
     let good : Prop := (∀ k, k < 4 → (off k).natAbs ≤ 4096 ∧ (gain k - 8388608).natAbs ≤ 41943 ∧ (skew k).natAbs ≤ 800) ∧
       ∀ k, k < 3 → (off (k + 1) - off k).natAbs ≤ 256 ∧ (gain (k + 1) - gain k).natAbs ≤ 1678 ∧
         (skew (k + 1) / 8 - skew k / 8).natAbs ≤ 20
     let ends (t : State) (status : Nat) : Prop := t.meas.job = none ∧ (s.upAt .mgmt = true →
       ∀ o ∈ s.mgmt.outst, o.op = 0x0206 → o.done = none → (∃ g, o.got = some g ∧ g ≤ s.now) →
         t.win.onWay 5 (· == .event 0x0206 status []) = true)
     let slices := (List.range 4).filter fun n => n == sl.val || s.meas.inService.contains n
     ∃ t, exec (.qualificationEnd ⟨convs, ready⟩) s = .next t ∧ s.Only [.meas, .win, .faults, .obs] t ∧
       s.CountersBut [.sarErr, .trcDrop] t ∧ t.obs.live.getD 5 0 = min (s.obs.live.getD 5 0 + disagreeing.length) 0xFFFFFFFF ∧
       t.meas = { s.meas with job := t.meas.job, slices := t.meas.slices, preload := t.meas.preload } ∧
       (∀ n : Fin 4, n ≠ sl → t.meas.slices[n] = s.meas.slices[n]) ∧ (∀ k, k ≠ 5 → t.win.mbAt k = s.win.mbAt k) ∧
       (ready = false ∨ again = true → t.meas.slices[sl] = counted ∧ ends t stNotPermitted ∧
         t.faults = (s.report 0x20 ((if ready then 3 else 4) + 256 * sl.val) 0x30).faults) ∧
       (ready = true ∧ again = false → t.faults = s.faults ∧
         (¬ good → t.meas.slices[sl] = counted ∧ ends t stNotPermitted) ∧
         (good → t.meas.slices[sl] = { counted with
             offAcc := 8 * off 3, gainAcc := 8 * gain 3, skewAcc := skew 3, old := none, rejOg := 0, rejSkew := 0
             latestP := none, latestU := none, phase := 0, since := 0, lastCal := s.now } ∧
           match s.mgmt.committed.repack (s.newLevel .mgmt) slices with
           | none => ends t stInfeasible
           | some (m, fs) => t.win = s.win ∧ t.meas.job = some (.qualified sl.val m fs (s.now + 2)))))

/-- A Sextant window is compared with the main samples in it, or counted without a comparison; with REF_SEL = 1 its code is the quotient
of the two integrals; a failure marks the channel's later results and reports PLAUSIBILITY; a reference window is compared with its
recorded code (05 R121, R124, R125, R126, R127, R128).

Where the spec leaves a point of this open, the clause is the model's choice: notes/assumptions/37, 84, 86. -/
def Obligations.SextantComparesItsWindows : Prop :=
  ∀ (s : State) (w : SxWindow) (i : SxIn) (sx20 : BitVec 20) (overload : Bool), s.measUp = true → s.meas.sxWindow = some w →
    w.left = 0 → w.last < s.now →
    let fault (cause : Nat) : Report := ⟨0x21, BitVec.ofNat 16 cause, 0x30, false, false, 0, s.now + 1, s.clock.meridian + 1, false⟩
    let ratio : Int := i.iIn * 524288 / i.iRef
    let code : BitVec 20 := if s.mgmt.inForce.refSel w.item = false then i.code
      else if 0 < i.iRef ∧ -524288 ≤ ratio ∧ ratio ≤ 524287 then BitVec.ofInt 20 ratio else Config.sxOpen i.iIn i.iRef
    let none_ := w.spoiled = true ∨ w.count = 0 ∨ overload = true
    let fail : Bool := decide (s.mgmt.inForce.sxThr w.item * 8388608 < (w.sum / (w.count : Int) - 16 * code.toInt).natAbs * 1000000)
    let refFail : Bool := decide (s.mgmt.inForce.sxRefThr * 524288 <
      (sx20.toInt - Config.sxRecorded (w.item - 20)).natAbs * 1000000)
    let reports (t : State) (bad : Bool) (cause : Nat) : Prop :=
      t.faults = (if bad then { s.faults with reports := s.faults.reports ++ [fault cause] } else s.faults) ∧
      (if bad then s.CountersBut [.sxFail] t ∧ t.obs.live.getD 8 0 = min (s.obs.live.getD 8 0 + 1) 0xFFFFFFFF else t.obs = s.obs)
    (w.item < 20 → s.meas.sampled = [] → s.meas.sxEntries = [] →
      (none_ → ∃ t, exec (.sextantComparison i overload) s = .next t ∧ s.Only [.meas, .obs] t ∧ s.CountersBut [.sxNocmp] t ∧
        t.obs.live.getD 7 0 = min (s.obs.live.getD 7 0 + 1) 0xFFFFFFFF ∧ t.meas = { s.meas with sxWindow := none }) ∧
      (¬ none_ → ∃ t, exec (.sextantComparison i overload) s = .next t ∧ s.Only [.meas, .faults, .obs] t ∧
        t.meas = { s.meas with
          sxWindow := none, chans := t.meas.chans
          sxEntries := if s.mgmt.inForce.sxQ then [(sxEntry w code fail (s.now + 1), s.now + 1)] else [] } ∧
        (∀ c : Fin 20, t.meas.chans[c] = if c.val = w.item then { s.meas.chans[c] with xfailNext := some (fail, s.now + 1) }
          else s.meas.chans[c]) ∧ reports t fail w.item)) ∧
    (20 ≤ w.item → ∃ t, exec (.sextantReferenceWindow sx20) s = .next t ∧ s.Only [.meas, .faults, .obs] t ∧
      t.meas = { s.meas with sxWindow := none } ∧ reports t refFail (0x100 + (w.item - 20)))

/-- The results of earlier ticks are linearised: with LT_FMT 0 the value is the scaled code in Q15.16, clamped where it must be, with
the result's stamp; the last channel of a closing run has PV evaluated and posted to LOOP, or kept for the replay of a LOOP that is down or
replays. A swap that is due exchanges the tables of
its mask, reports it on MB5, and writes the new tables to NVM with SAVE (07 R166, R171, R173, R174, R182; 08 R201).

What a linearised result brings. With LT_FMT 1 the value is the polynomial of the prescaled code and the temperature by Horner steps
that clamp to 64 bits, shifted by LT_E and clamped to 32, and TSRC_BAD says that the source's value is not valid. An autoranging channel
lowers its gain on OVR or above 90 %, raises it below 20 %, two ticks on and within its limits, decides nothing on SETTLE without OVR nor
until RCHG, and but for OVR only from the fourth result on (07 R166, R167, R176).

The value and status of a derived variable. Its sum is VAR_OFFSET with the weighted values of its members, or with that of the mean, the least
or the greatest of the valid ones; it is taken to Q15.16 toward minus infinity and clamped, and under VAR_SQRT is its root, 0 with CUTOFF
below VAR_CUTOFF. OP 0 takes the flags of all members; OP 1 to 3 leave out those that are not valid, with SET_PART, and with fewer than
VAR_MINVALID the value and stamp of the last valid evaluation stand, with SET_SHORT. A sum that no int64 holds is not stated (07 R182 to
R184).

Where the spec leaves a point of this open, the clause is the model's choice: notes/assumptions/36, 40. -/
def Obligations.ResultsAreLinearised : Prop :=
  ((∀ s : State, s.measUp = true → s.meas.swap = none → ∃ t, exec .linearisation s = .next t ∧
     s.Only [.meas, .loop, .obs] t ∧ s.CountersBut [.linSat, .rangeChg] t ∧
     t.meas = { s.meas with
       results := s.meas.results.filter fun r => decide (s.now ≤ r.tick), chans := t.meas.chans, vars := t.meas.vars
       closingSeen := t.meas.closingSeen, closeAt := t.meas.closeAt } ∧
     t.loop = { s.loop with feed := t.loop.feed, record := t.loop.record, todo := t.loop.todo }) ∧
   (∀ (s : State) (r : Result) (ch : Fin 20), s.measUp = true → s.meas.swap = none → s.meas.results = [r] → r.tick < s.now →
     r.chan = ch.val → s.mgmt.inForce.chEn ch.val = true → ltFmt s.meas.tables[ch] = 0 →
     r.gain = (if s.mgmt.inForce.arEn ch.val then s.mgmt.inForce.arGmin ch.val else s.mgmt.inForce.fixedGain ch.val) →
     s.mgmt.inForce.varsAfter ch.val = [] →
     let u := r.res * 256 * ltK s.meas.tables[ch] / 8388608
     let clamped : Int := if u < -2147483648 then -2147483648 else if 2147483647 < u then 2147483647 else u
     ∃ t, exec .linearisation s = .next t ∧ t.meas.chans[ch].lin = clamped / 32768 ∧ t.meas.chans[ch].linStamp = r.stamp ∧
       t.meas.chans[ch].hasLin = true ∧ (∀ c : Fin 20, c ≠ ch → t.meas.chans[c] = s.meas.chans[c]) ∧
       (r.closing = false → t.meas.vars = s.meas.vars ∧ t.loop = s.loop) ∧
       (r.closing = true → s.mgmt.inForce.primaryChans = [ch.val] →
         let f : Feed := ⟨(t.meas.var 0).value, (t.meas.var 0).status, (t.meas.var 0).stamp, s.now⟩
         let todo := s.loop.todo ++ [f]
         t.loop = { s.loop with
           record := (f :: s.loop.record).take 128
           feed := if s.loopUp && !s.loop.replaying then some f else s.loop.feed
           todo := if s.loopUp && !s.loop.replaying then s.loop.todo else todo.drop (todo.length - 128) })) ∧
   (∀ (s : State) (w : Swap), s.measUp = true → s.meas.swap = some w → s.reached w.at_ = true →
     (s.inClosingSpan = false ∨ ∀ c ∈ s.mgmt.inForce.primaryChans, w.mask.getLsbD c = false) → ∃ t,
     exec .linSwapEffect s = .next t ∧ s.Only [.meas, .win, .nvm, .obs] t ∧ s.OnlyTrace t ∧
     t.meas = { s.meas with
       swap := none, tables := t.meas.tables, shadowTables := t.meas.shadowTables
       preload := { s.meas.preload with tables := t.meas.tables.toList } } ∧
     (∀ c : Fin 20, t.meas.tables[c] = (if w.mask.getLsbD c.val then s.meas.shadowTables[c] else s.meas.tables[c]) ∧
       t.meas.shadowTables[c] = if w.mask.getLsbD c.val then s.meas.tables[c] else s.meas.shadowTables[c]) ∧
     t.nvm = { s.nvm with tables := t.nvm.tables, bad := t.nvm.bad } ∧ (w.save = false → t.nvm = s.nvm) ∧
     (w.save = true → s.nvm.tables.length = 20 → ∀ c : Fin 20, w.mask.getLsbD c.val = true →
       t.nvm.tables[c.val]? = some ((s.nvm.tables.getD c.val ⟨none, none⟩).put s.meas.shadowTables[c])) ∧
     (∀ k, k ≠ 5 → t.win.mbAt k = s.win.mbAt k) ∧
     (s.upAt .mgmt = true → ∀ o ∈ s.mgmt.outst, o.op = 0x0302 → o.done = none → (∃ g, o.got = some g ∧ g ≤ s.now) →
       t.win.onWay 5 (· == .event 0x0302 stOk (leBytes 6 s.clock.meridian.toNat)) = true))) ∧
  (∀ (s : State) (r : Result) (ch : Fin 20), s.measUp = true → s.meas.swap = none → s.meas.results = [r] → r.tick < s.now →
     r.chan = ch.val → r.closing = false → s.mgmt.inForce.chEn ch.val = true → s.mgmt.inForce.varsAfter ch.val = [] →
     let a := s.mgmt.inForce
     let T := s.meas.tables[ch]
     let c := s.meas.chans[ch]
     let sat (w : Nat) (v : Int) : Int := max (-2 ^ (w - 1)) (min (2 ^ (w - 1) - 1) v)
     let lowest := if a.arEn ch.val then a.arGmin ch.val else a.fixedGain ch.val
     ∃ t, exec .linearisation s = .next t ∧ s.Only [.meas, .obs] t ∧
       (∀ (src : Fin 20) (tv : Int), ltFmt T = 1 →
         (ltSrc T = 31 ∧ tv = 0 ∨ ltSrc T = src.val ∧ src ≠ ch ∧ s.meas.chans[src].hasLin = true ∧ s.meas.chans[src].linTick < s.now ∧
           tv = sat 32 (s.meas.chans[src].lin * 2 ^ ltShift T)) → lowest ≤ r.gain → r.gain ≤ lowest + 8 →
         let u := sat 32 (r.res * 2 ^ (8 - (r.gain - lowest)) * ltK T / 8388608)
         let step (m p q : Int) : Int := sat 64 (sat 64 (p * m / 2147483648) + q)
         let row (i : Nat) : Int := step tv (step tv (step tv (step tv 0 (ltC T i 3)) (ltC T i 2)) (ltC T i 1)) (ltC T i 0)
         let p := step u (step u (step u (step u (step u (step u 0 (row 5)) (row 4)) (row 3)) (row 2)) (row 1)) (row 0)
         t.meas.chans[ch].lin = sat 32 (if 0 ≤ ltExp T then sat 64 (p * 2 ^ (ltExp T).toNat) else p / 2 ^ (-ltExp T).toNat) ∧
         t.meas.chans[ch].linStamp = r.stamp ∧ t.meas.chans[ch].hasLin = true ∧ t.meas.chans[ch].linTick = s.now ∧
         t.meas.chans[ch].linStatus.getLsbD 8 = (ltSrc T != 31 && !s.meas.chans[src].linStatus.getLsbD 15)) ∧
       (a.arEn ch.val = true →
         let ovr := r.tags.getLsbD 0
         let waits := c.awaitRchg && !r.tags.getLsbD 3
         let since := if r.tags.getLsbD 3 then 1 else min 4 (c.sinceChg + 1)
         let high := (ovr || decide (7549747 < r.res.natAbs)) && decide (a.arGmin ch.val < c.gain)
         let low := !high && decide (r.res.natAbs ≤ 1677721) && decide (c.gain < a.arGmax ch.val)
         let free := !waits && (!r.tags.getLsbD 1 || ovr) && (decide (4 ≤ since) || ovr && high)
         let y := t.meas.chans[ch]
         y.gain = c.gain ∧ y.sinceChg = since ∧ y.awaitRchg = (waits || free && (high || low)) ∧
         y.pendGain = (if free && high then some (c.gain - 1, s.now + 2) else if free && low then some (c.gain + 1, s.now + 2)
           else c.pendGain) ∧
         t.obs.live.getD 9 0 = if free && (high || low) then min (s.obs.live.getD 9 0 + 1) 0xFFFFFFFF else s.obs.live.getD 9 0) ∧
       (a.arEn ch.val = false → t.meas.chans[ch].gain = c.gain ∧ t.meas.chans[ch].pendGain = c.pendGain)) ∧
  (∀ (s : State) (v : Fin 8),
     let a := s.mgmt.inForce
     let cs := (a.members v.val).map s.meas.chan
     let used := if a.varOp v.val = 0 then cs else cs.filter fun c => c.linStatus.getLsbD 15
     let off := a.varOffset v.val * 8388608
     let t := s.runVar v.val
     let x := t.meas.vars[v]
     let some_ (f : Chan → Bool) : Bool := used.any f
     let flag (n : Nat) : Bool := x.status.getLsbD n
     let valid : Bool := !((List.range 16).any fun n => (0x09F3).testBit n && flag n)
     let evaluates (sum : Int) : Prop := -9223372036854775808 ≤ sum → sum ≤ 9223372036854775807 →
       let y := max (-2147483648) (min 2147483647 (sum / 8388608))
       (a.varSqrt v.val = false → x.value = y ∧ flag 9 = false) ∧
       (a.varSqrt v.val = true → y ≤ 0 → x.value = 0 ∧ flag 9 = true) ∧
       (a.varSqrt v.val = true → 0 < y → ∃ r : Int, 0 < r ∧ r * r ≤ y * 65536 ∧ y * 65536 < (r + 1) * (r + 1) ∧
         x.value = (if r < a.varCutoff v.val then 0 else r) ∧ flag 9 = decide (r < a.varCutoff v.val)) ∧
       (flag 5 = (decide (sum / 8388608 ≠ y) || (decide (a.varOp v.val = 0) && some_ fun c => c.linStatus.getLsbD 5))) ∧
       x.lastValid = if flag 15 then some (x.value, x.stamp) else s.meas.vars[v].lastValid
     s.Only [.meas, .obs] t ∧ t.meas = { s.meas with vars := t.meas.vars } ∧ (∀ n : Fin 8, n ≠ v → t.meas.vars[n] = s.meas.vars[n]) ∧
     flag 15 = valid ∧
     (a.varOp v.val = 0 →
       evaluates (off + ((List.range 4).map fun k =>
         if a.varCh v.val k < 20 then a.varCoef v.val k * (s.meas.chan (a.varCh v.val k)).lin else 0).sum) ∧
       ∀ n, n < 9 → n ≠ 5 → flag n = some_ fun c => c.linStatus.getLsbD n) ∧
     (a.varOp v.val ≠ 0 → max 1 (a.varMinvalid v.val) ≤ used.length →
       evaluates (off + a.varCoef v.val 0 * (if a.varOp v.val = 1 then (used.map (·.lin)).sum / (used.length : Int)
         else if a.varOp v.val = 2 then ((used.map (·.lin)).min?).getD 0 else ((used.map (·.lin)).max?).getD 0)) ∧ flag 11 = false) ∧
     (a.varOp v.val ≠ 0 → flag 10 = decide (used.length < cs.length) ∧
       (∀ n, n = 2 ∨ n = 3 → flag n = some_ fun c => c.linStatus.getLsbD n)) ∧
     (a.varOp v.val ≠ 0 → used.length < max 1 (a.varMinvalid v.val) → flag 11 = true ∧
       (x.value, x.stamp) = (s.meas.vars[v].lastValid).getD (0, 0) ∧ x.lastValid = s.meas.vars[v].lastValid))

/-- With the tap off, a drain only rings DB_QUEUE for an earlier tick's commits. With it on, an entry passes, once in a tick, to the
stream of the fields in force at its commit whose mask holds its channel: it opens the next FREE buffer of the stream's ring, from the
first where the range is another than before, or it is dropped and counted. A flush hands a partly filled buffer with its header, as the
fields say by which it was opened, to the host and rings the stream's doorbell, or to LOOP for publishing, which takes one buffer in
each later tick (01 R17, R18; 06 R160, R161, R163; 15 R369; 11 R274).

Where the spec leaves a point of this open, the clause is the model's choice: notes/assumptions/26. -/
def Obligations.TheTapFillsStreams : Prop :=
  (∀ s : State, s.clock.powered = true → s.mgmt.inForce.queueStream = false → ∃ t, exec .tapDrain s = .next t ∧
    s.Only [.win, .meas] t ∧
    ((∃ n, s.meas.qRing = some n ∧ n < s.now) → t.win = { s.win with db := s.win.db ||| 0x4 } ∧
      t.meas = { s.meas with qRing := none }) ∧
    ((∀ n, s.meas.qRing = some n → s.now ≤ n) → t = s)) ∧
  (∀ s : State, s.mgmtUp = true → s.mgmt.inForce.queueStream = true → s.meas.qRing = none → s.mgmt.drained ≠ some s.now →
    s.qReady = [] → exec .tapDrain s = .next { s with mgmt := { s.mgmt with oldStreams := [] } }) ∧
  (∀ (s : State) (e : QEntry), s.mgmtUp = true → s.mgmt.inForce.queueStream = true → s.meas.qRing = none →
    s.mgmt.drained ≠ some s.now → s.meas.queue = [e] → e.commit < s.now →
    let a := ((s.mgmt.oldStreams.find? fun o => decide (e.commit < o.1)).map (·.2)).getD s.mgmt.inForce
    let fields (k : Nat) : List Int := (List.range 5).map fun f => a.val (fid 5 k f)
    let taken (t : State) : Prop := t.meas = { s.meas with queue := [], qovf := false }
    (a.streamOf e.chan.toNat = none → ∃ t, exec .tapDrain s = .next t ∧ s.Only [.meas, .mgmt, .obs] t ∧ taken t ∧
      t.mgmt = { s.mgmt with drained := some s.now } ∧
      s.CountersBut [.qunbound] t ∧ t.obs.live.getD 1 0 = min (s.obs.live.getD 1 0 + 1) 0xFFFFFFFF) ∧
    (∀ k : Fin 4, a.streamOf e.chan.toNat = some k.val → s.mgmt.streams[k].buf = none →
      let x := s.mgmt.streams[k]
      let ring := a.streamRange k.val
      let place := if x.fields.getD 2 0 = (fields k.val).getD 2 0 ∧ x.fields.getD 3 0 = (fields k.val).getD 3 0 then x.ring else 0
      let b := ring.getD (place % max 1 ring.length) 0
      b < 64 →
      ((s.win.ownAt b).own = .free → ∃ t, exec .tapDrain s = .next t ∧ s.Only [.meas, .mgmt, .win] t ∧ taken t ∧
        t.win = { s.win with own := t.win.own } ∧ t.win.ownAt b = ⟨.device, (s.win.ownAt b).gen + 1, 0x10⟩ ∧
        (∀ n, n ≠ b → t.win.ownAt n = s.win.ownAt n) ∧
        t.mgmt = { s.mgmt with
          drained := some s.now, streams := s.mgmt.streams.set k.val { x with
            buf := some b, entries := [e], firstTick := e.commit, ring := (place + 1) % max 1 ring.length, drops := 0
            bufDrops := x.drops, fields := fields k.val } }) ∧
      ((s.win.ownAt b).own ≠ .free → ∃ t, exec .tapDrain s = .next t ∧ s.Only [.meas, .mgmt] t ∧ taken t ∧
        t.mgmt = { s.mgmt with
          drained := some s.now, streams := s.mgmt.streams.set k.val { x with drops := min (x.drops + 1) 0xFFFFFFFF } }))) ∧
  (∀ (s : State) (k : Fin 4) (b : Nat), s.mgmtUp = true → s.mgmt.streams[k].buf = some b → b < 64 → s.memoryOk →
    (s.win.ownAt b).own = .device → s.mgmt.streams[k].entries.length ≤ 29 →
    let x := s.mgmt.streams[k]
    x.fields.getD 4 0 ≤ ((s.now - x.firstTick : Nat) : Int) →
    let bytes := leBytes 1 k.val ++ leBytes 1 x.entries.length ++ leBytes 2 x.seqNo ++
      leBytes 6 ((x.entries.head?.map (·.stamp.toNat)).getD 0) ++ zeros 2 ++ leBytes 4 x.bufDrops ++
      x.entries.flatMap fun e => leBytes 8 e.word
    let fabric := x.fields.getD 1 0 == 1
    ∃ t, exec (.streamFlush k) s = .next t ∧ s.Only [.mgmt, .win, .fab] t ∧
      t.mgmt = { s.mgmt with streams := s.mgmt.streams.set k.val { x with
        buf := none, entries := [], seqNo := (x.seqNo + 1) % 65536, bufDrops := 0 } } ∧
      t.win = { s.win with
        mem := t.win.mem, own := t.win.own, db := if fabric then s.win.db else s.win.db ||| BitVec.twoPow 32 (3 + k.val) } ∧
      t.fab = { s.fab with relayOut := if fabric then s.fab.relayOut ++ [(b, s.now)] else s.fab.relayOut } ∧
      t.bufRead b bytes.length = bytes ∧
      (∀ a, a < 256 * b ∨ 256 * b + bytes.length ≤ a → cellRead t.win.mem a = cellRead s.win.mem a) ∧
      t.win.ownAt b = (if fabric then s.win.ownAt b else ⟨.host, (s.win.ownAt b).gen + 1, 0x10⟩) ∧ ∀ n, n ≠ b → t.win.ownAt n = s.win.ownAt n) ∧
  (∀ (s : State) (b posted : Nat) (es : List (Nat × Nat)), s.loopUp = true → s.fab.relayOut = (b, posted) :: es →
    (posted < s.now → s.relayTick = { s with fab := { s.fab with relayOut := es, pubQueue := s.fab.pubQueue ++ [(b, s.now)] } }) ∧
    (s.now ≤ posted → s.relayTick = s))

/-- From the tick after its post a loop feed whose parity fails is reported and not used; where BUS_PAR_MEAS is armed for it, it is not
used however the checker reads it, the report carries INJ, and REAL as well where it passes, and the access is used up. Two ticks after
the post a loop update first applies the loop token that LOOP has received, then classifies PV. A usable PV, and with PV_FAIL = FOLLOW a
failed one, moves the damping state and is mapped to a code with saturation, which takes effect 5 ticks on; a settling PV brings the
code in force; a failed one an alarm or a hold. Nothing but LOOP changes (08 R187, R188, R189, Table 8-1; 01 R19, R23; 13 R333, R334).

Where the spec leaves a point of this open, the clause is the model's choice: notes/assumptions/29, 41. -/
def Obligations.LoopUpdatesSetTheCode : Prop :=
  ∀ (s : State) (f : Feed), s.loop.feed = some f →
    let free : State := { s with loop := { s.loop with feed := none } }
    (s.loopUp = true → f.posted + 1 ≤ s.now → s.parityArmed .meas .loop = false →
      exec (.loopUpdate false) s = .next { free with faults := (s.report 0x0C 0x20 0x30).faults }) ∧
    (∀ ok : Bool, s.loopUp = true → f.posted + 1 ≤ s.now → s.parityArmed .meas .loop = true →
      exec (.loopUpdate ok) s = .next { free with faults := { s.faults.useArmed 0x0C with
        reports := s.faults.reports ++ [⟨0x0C, 0x20, 0x30, true, ok, 0, s.now, s.clock.meridian, false⟩] } }) ∧
    (s.loopUp = true → s.loop.replaying = false → f.posted + 2 ≤ s.now → s.parityArmed .meas .loop = false →
      let w := free.applyLoop
      let a := w.mgmt.inForce
      let l := w.loop
      let usable := f.status.toNat &&& 0x09F2 = 0
      let y := if l.ylValid then l.yl else f.pv * 16777216
      let y' := y + (f.pv * 16777216 - y) * w.alphaNow / 16777216
      let c := 40000 + if a.urv < a.lrv then 160000 * (a.lrv - y' / 16777216) / (a.lrv - a.urv)
        else 160000 * (y' / 16777216 - a.lrv) / (a.urv - a.lrv)
      let code := if c < a.satLo then a.satLo else if a.satHi < c then a.satHi else c
      let sat : Bool := decide (c < a.satLo ∨ a.satHi < c)
      let after (u : Update) : List CodeEv := l.sched ++ [⟨s.now + 5, .update u⟩]
      let u := s.now + 5
      (s.mgmt.pendLoop = none → w = free) ∧
      (∀ tok, s.mgmt.pendLoop = some tok → tok.posted < s.now → free.Only [.loop, .mgmt, .obs] w ∧ free.OnlyTrace w ∧
        w.mgmt = { s.mgmt with inForce := s.mgmt.inForce.takeKind tok.alm .loop, pendLoop := none } ∧
        l = { s.loop with
          feed := none, interrupted := s.loop.interrupted && s.primaryRuns
          src := l.src, cmd := l.cmd, lim := l.lim, shaped := l.shaped, trim := l.trim }) ∧
      (usable ∨ (f.status.getLsbD 1 = false ∧ a.pvFail = 2) → exec (.loopUpdate true) s = .next { w with
        loop := { l with yl := y', ylValid := true, sched := after ⟨f, .usable, code, y', sat, u⟩ } }) ∧
      (¬ usable → f.status.getLsbD 1 = true → exec (.loopUpdate true) s = .next { w with
        loop := { l with sched := after ⟨f, .settling, l.normal, l.yl, l.sat, u⟩ } }) ∧
      (¬ usable → f.status.getLsbD 1 = false → a.pvFail ≤ 1 → exec (.loopUpdate true) s = .next { w with
        loop := { l with sched := after ⟨f, if a.pvFail = 0 then .failAlarm else .failHold, l.normal, l.yl, l.sat, u⟩ } }))

/-- Without a loop update by tick D an interruption is in force and holds the last code, or tracks it, and the time of the hold counts
from D; at HOLD_LIMIT the software alarm comes into force past the limiter; a hold update is an apply point of the loop fields and
otherwise changes nothing; a replay takes the recorded feeds in order, 3 ticks each and each for its own tick A+5, and the last one sets
the code (08 R191, R194, R197, R198, R199, R201).

Where the spec leaves a point of this open, the clause is the model's choice: notes/assumptions/28, 41, 103. -/
def Obligations.HoldsAlarmsAndReplays : Prop :=
  ∀ s : State, s.clock.powered = true →
    let l := s.loop
    let a := s.mgmt.inForce
    let d := l.uUpd + l.duMax + l.g
    let quiet := l.multidrop = false ∧ l.hwAlarm = false ∧ l.auxAlarm = false ∧ ∀ n, l.miswire ≠ .folded n
    let unforced := quiet ∧ l.swAlarm = false ∧ l.fixed = none ∧ l.startup = false
    let only (t : State) (m : LoopOut) : Prop := s.OnlyTrace t ∧ t.loop = { m with
      src := t.loop.src, cmd := t.loop.cmd, lim := t.loop.lim, shaped := t.loop.shaped, trim := t.loop.trim }
    (l.hadUpdate = true → l.interrupted = false → s.primaryRuns = true → d ≤ s.now → ∃ t,
      exec .interruption s = .next t ∧ s.Only [.loop, .obs] t ∧
      only t { l with interrupted := true, dTick := d, holdCount := if l.failHold then l.holdCount else s.now - d } ∧
      (unforced → (l.holding = true ∨ a.holdTrack = false ∨ l.usable ≠ 2) → t.loop.src = 2 ∧ t.loop.cmd = l.cLast) ∧
      (unforced → l.holding = false → a.holdTrack = true → l.usable = 2 → t.loop.src = 3)) ∧
    (l.interrupted = true ∨ l.failHold = true → s.primaryRuns = true → l.holdLim = false → a.holdLimit ≤ l.holdCount → ∃ t,
      exec .holdLimitExpiry s = .next t ∧ s.Only [.loop, .obs] t ∧ only t { l with swAlarm := true, holdLim := true } ∧
      (quiet → t.loop.src = 5 ∧ t.loop.cmd = (if a.almDirHigh then a.almHi else a.almLo) ∧
        (l.prevSrc ≠ 5 → t.loop.lim = t.loop.cmd))) ∧
    (s.loopUp = true → l.hadUpdate = true → l.holding = true ∨ l.interrupted = true ∨ s.primaryRuns = false →
      (s.now - l.newestA) % 500 = 0 → s.now - l.newestA ≠ 0 →
      (s.mgmt.pendLoop = none → exec .holdUpdate s = .next s) ∧
      (∀ tok, s.mgmt.pendLoop = some tok → tok.posted < s.now → ∃ t, exec .holdUpdate s = .next t ∧
        s.Only [.loop, .mgmt, .obs] t ∧ only t { l with interrupted := l.interrupted && s.primaryRuns } ∧
        t.mgmt = { s.mgmt with inForce := a.takeKind tok.alm .loop, pendLoop := none } ∧
        (unforced → l.holding = true → t.loop.src = 2 ∧ t.loop.cmd = l.cLast))) ∧
    (s.loopUp = true → l.replaying = true → s.mgmt.pendLoop = none →
      (l.todo = [] → exec .feedReplay s = .next { s with loop := { l with replaying := false } }) ∧
      (∀ f fs, l.todo = f :: fs → l.replayNext ≤ s.now →
        let r := s.compute f (f.posted + 7)
        let on : LoopOut := { l with
          todo := fs, replayNext := s.now + 3, yl := r.1.loop.yl, ylValid := r.1.loop.ylValid }
        exec .feedReplay s = .next { s with loop :=
          if fs = [] then { on with sched := l.sched ++ [⟨s.now + 5, .update r.2⟩], replaying := false }
          else { on with skipped := l.skipped ++ [r.2] } }))

/-- A block whose mean qualifies opens a qualifier window, or holds an open one open for 64 samples; two strong blocks abandon a packet
under capture; a confirmed correlation peak within the window declares sync; a window that ends without one is counted, before a block
that closes with it is judged (09 R224, R225, R226, R228).

Where the spec leaves a point of this open, the clause is the model's choice: notes/assumptions/54, 88. -/
def Obligations.EnergyOpensAWindowForSync : Prop :=
  ∀ (s : State) (pt : Port), s.portOn pt = true →
    let x := s.port pt
    let a := s.mgmt.inForce
    let becomes (t : State) (y : PortSt) : Prop := t.ports = s.ports.put pt y
    let opened (y : PortSt) : PortSt := { y with
      rx := .qualify, winOpen := 64 * s.now, winEnd := 64 * s.now + 864 * 125, winMax := 64 * s.now + 4608 * 125, strong := 0 }
    (∀ ys : List Int, x.rx ≠ .muted → s.now % 32 = 0 → x.blkTick ≠ some s.now → ys ≠ [] →
      let e := (ys.map fun y => y * y).sum / (ys.length : Int)
      let strong := if 2 * x.eSync ≤ e then (if x.blkTick.isSome ∧ (x.blkTick.getD 0) + 32 = s.now then x.strong + 1 else 1) else 0
      let seen : PortSt := { x with blkTick := some s.now, blocks := (e :: x.blocks).take 2, strong := strong }
      let ok := qualifies e x.pg a.mdmFloorInit a.mdmEnMargin
      (x.rx = .idle → ∃ t, exec (.energyBlock pt ys) s = .next t ∧ s.Only [.ports, .obs] t ∧ s.OnlyTrace t ∧
        becomes t (if ok then opened seen else seen)) ∧
      (x.rx = .qualify → x.windowOver s.now = false → exec (.energyBlock pt ys) s = .next { s with ports := s.ports.put pt (if ok then
        { seen with winEnd := min x.winMax (max x.winEnd (64 * s.now + 64 * 125)) } else seen) }) ∧
      (x.windowOver s.now = true → ∀ u, exec (.qualifierWindowEnd pt) s = .next u →
        exec (.energyBlock pt ys) s = exec (.energyBlock pt ys) u) ∧
      (x.rx = .synced ∨ x.rx = .payload → strong < 2 ∨ a.mdmCapture = false →
        exec (.energyBlock pt ys) s = .next { s with ports := s.ports.put pt seen }) ∧
      (x.rx = .synced ∨ x.rx = .payload → 2 ≤ strong → a.mdmCapture = true → ∃ t,
        exec (.energyBlock pt ys) s = .next t ∧ s.Only [.ports, .decoder, .obs] t ∧
        s.CountersBut [perPort pt .captureAbortL .captureAbortS, .trcDrop] t ∧ (t.port pt).rx = .qualify ∧
        (t.port pt).hdr = none ∧ (t.port pt).llrs = [] ∧ (t.port pt).seg = none ∧
        t.decoder.filter (fun j => j.port ≠ pt) = s.decoder.filter fun j => j.port ≠ pt)) ∧
    (∀ ys : List Int, x.rx = .qualify → x.windowOver s.now = false →
      match x.peak a.mdmQThr ys with
      | some n => afterSample (n + 543) ≤ s.now → ∃ t,
        exec (.sync pt ys) s = .next t ∧ s.Only [.ports, .decoder, .obs] t ∧ s.OnlyTrace t ∧
        becomes t { x with
          rx := .synced, nStar := n, eSync := x.blocks.sum, strong := 0, seg := none, hdrLlr := [], llrs := [], taps := []
          syms := 0, hdr := none, cwLeft := 0, paySyms := 0, bits := (t.port pt).bits } ∧
        t.decoder.filter (fun j => j.port ≠ pt) = s.decoder.filter fun j => j.port ≠ pt
      | none => exec (.sync pt ys) s = .next s) ∧
    (x.windowOver s.now = true → ∃ t, exec (.qualifierWindowEnd pt) s = .next t ∧ s.Only [.ports, .obs] t ∧
      s.CountersBut [perPort pt .energyNoqualL .energyNoqualS] t ∧ becomes t { x with rx := .idle } ∧
      t.obs.live.getD (perPort pt .energyNoqualL .energyNoqualS).idx 0 =
        min (s.obs.live.getD (perPort pt .energyNoqualL .energyNoqualS).idx 0 + 1) 0xFFFFFFFF)

/-- Each step of a reception acts when its segment of the DSP core has ended, and then puts the port's next segment on the core once it
may start. After TRN1 the mode, the taps and the factor of the soft values are decided; header and payload symbols give their soft
values; a header that fails its check is a false sync, one without a payload is delivered, any other starts the payload; a codeword
waits for the decoder, and the last one's CRC-32 delivers the packet or counts it as failed (09 R214, R216, R217, R222, R223, R226;
10 R240).

Where the spec leaves a point of this open, the clause is the model's choice: notes/assumptions/54, 55, 58, 87. -/
def Obligations.PacketsAreReceived : Prop :=
  ∀ (s : State) (pt : Port),
    let x := s.port pt
    let busy (len : Nat) : Nat := max s.now s.dspFree + len
    let books (t : State) (y : PortSt) : Prop := match (y.settle s.now).nextSeg with
      | some (r, len) => if r ≤ s.now
        then t.ports = s.ports.put pt { y.settle s.now with seg := some (busy len) } ∧ t.dspFree = busy len
        else t.ports = s.ports.put pt y ∧ t.dspFree = s.dspFree
      | none => t.ports = s.ports.put pt y ∧ t.dspFree = s.dspFree
    let delivers (t : State) (port : Port) (f : Frame) : Prop :=
      t.fab = if frameValid f then { s.fab with
        delivered := (s.fab.delivered.filter fun d => d.port ≠ port || d.at_ == s.now) ++ [⟨port, f, s.now, true, s.routes⟩] }
      else s.fab
    (∀ d, s.portOn pt = true → x.rx = .synced → x.seg = some d → d ≤ s.now →
      (∀ y0 y1 : List Cplx, x.taps = [] → y0.length = 64 → y1.length = 64 →
        let taps := tapsOf (decideMode y0 y1) y0 y1
        ∃ t, exec (.modeDecision pt y0 y1) s = .next t ∧ s.Only [.ports, .dspFree] t ∧ books t { x with
          seg := none, mode := decideMode y0 y1, taps := taps, drift := 0, scale := llrScale taps (s.pgOf pt), syms := 0, hdrLlr := [] }) ∧
      (∀ y : List Cplx, y.length = 64 → x.taps ≠ [] → x.syms < 2 → ∃ t,
        exec (.symbolDemod pt y) s = .next t ∧ s.Only [.ports, .dspFree] t ∧ books t { x with
          seg := none, syms := x.syms + 1, hdrLlr := x.hdrLlr ++ headerDemod x.taps y (s.pgOf pt) x.syms }) ∧
      (x.syms = 2 → match headerFrame (s.headerBits pt) x.mode with
        | none => ∃ t, exec (.headerVerdict pt) s = .next t ∧
          s.Only [.ports, .decoder, .obs] t ∧ s.CountersBut [perPort pt .falseSyncL .falseSyncS, .trcDrop] t ∧
          (t.port pt).rx = .idle ∧ (t.port pt).hdr = none
        | some f => ∃ t, exec (.headerVerdict pt) s = .next t ∧ if f.len = 0
          then s.Only [.ports, .decoder, .fab, .obs] t ∧ s.CountersBut [perPort pt .rxOkL .rxOkS, .frameBad, .trcDrop] t ∧
            (t.port pt).rx = .idle ∧ delivers t pt f
          else s.Only [.ports, .dspFree, .obs] t ∧ s.OnlyTrace t ∧ books t { x with
            seg := none, rx := .payload, hdr := some f, llrs := [], cwLeft := x.mode.codewords f.len.toNat
            paySyms := x.mode.paySyms f.len.toNat })) ∧
    (∀ (d : Nat) (y : List Cplx) (h : Frame), s.portOn pt = true → x.rx ≠ .synced → x.seg = some d → d ≤ s.now → y.length = 64 →
      x.taps ≠ [] → x.hdr = some h → 0 < x.cwLeft →
      let all := x.llrs ++ x.mode.demod x.scale x.taps y (s.pgOf pt)
      let full := decide (1152 ≤ all.length)
      let ramp := Config.rampOf (x.mode.products x.taps y (s.pgOf pt))
      let drift := x.drift + ramp.2
      let move : Int := if 128 < drift then -1 else if drift < -128 then 1 else 0
      ∃ t, exec (.symbolDemod pt y) s = .next t ∧ s.Only [.ports, .decoder, .dspFree] t ∧
        books t { x with
          seg := none, syms := x.syms + 1, taps := turnTaps ramp.1 (ramp.2 + 256 * move) x.taps
          drift := drift + 256 * move, nStar := ((x.nStar : Int) + move).toNat
          llrs := if full then all.drop 1152 else all, cwLeft := if full then x.cwLeft - 1 else x.cwLeft
          hdr := if full && x.cwLeft == 1 then none else some h } ∧
        t.decoder = s.decoder ++ if full then
          [⟨pt, x.mode, all.take 1152, s.now, x.cwLeft == 1, h, x.complete (4 + x.syms)⟩] else []) ∧
    (∀ j, s.loopUp = true → firstJob s.decoder = some j → j.port = pt → max j.ready s.decFree + 448 ≤ s.now →
      let bits := x.bits ++ (j.mode.decode j.llrs).take j.mode.infoBits
      let n := j.hdr.len.toNat
      let bytes := bitsBytes (n + 4) bits
      let good := crc32 (bytes.take n) = leAt bytes n 4
      ∃ t, exec .codewordDecode s = .next t ∧ s.Only [.ports, .decoder, .decFree, .fab, .obs] t ∧
        t.decoder = s.decoder.erase j ∧ t.decFree = max j.ready s.decFree + 448 ∧
        t.ports = s.ports.put pt { x with bits := if j.last then [] else bits } ∧
        (j.last = false → t.fab = s.fab ∧ t.obs = s.obs) ∧
        (j.last = true → good → delivers t pt { j.hdr with payload := bytes.take n } ∧
          s.CountersBut [perPort pt .rxOkL .rxOkS, .frameBad, .trcDrop] t) ∧
        (j.last = true → ¬ good → t.fab = s.fab ∧ s.CountersBut [perPort pt .rxCrcFailL .rxCrcFailS, .trcDrop] t))

/-- A port that is idle starts the packet that is due, mutes its receiver for it and for 64 ticks after it, abandons a packet that it
was receiving, and counts it; its samples stay within three times its amplitude, on the loop
port in DAC codes of 2.5 uA of ten bits and of a current no lower than the device's own. A packet that meets a busy port, COMPLY or no current
for it is late, skipped, waits 1,125 ticks or goes back to its queue by its kind; DUP_ADDR silences replies and publishes. 64 idle
symbols give the noise powers from the next boundary on; an idle line lets the modem, fabric and bearing fields take effect, and an
assigned address with them, which clears DUP_ADDR (09 R226, R230, R231, R233, R234; 10 R242, R243, R245, R251, R252).

Where the spec leaves a point of this open, the clause is the model's choice: notes/assumptions/56, 57, 88, 89, 105. -/
def Obligations.PortsTransmitAndRest : Prop :=
  ∀ (s : State) (pt : Port),
    let x := s.port pt
    let becomes (t : State) (y : PortSt) : Prop := t.ports = s.ports.put pt y
    (∀ j, s.portOn pt = true → x.txReq = [j] → j.at_ ≤ s.now →
      let amp := s.txAmp pt
      let silent := s.fab.dup = true ∧ (j.rank = 3 ∨ j.rank = 4)
      let queued : Fabric := match j.buf with
        | some b => { s.fab with pubQueue := (b, 0) :: s.fab.pubQueue }
        | none => s.fab
      (silent → exec (.packetTransmitStart pt) s = .next { s with
        ports := s.ports.put pt { x with txReq := [] }, fab := if j.rank = 3 then queued else s.fab }) ∧
      (¬ silent → x.tx = none → s.txHeld pt = false → 0 < amp →
        let top : Int := match pt with
          | .loop => 60 * (amp : Int)
          | .spur => 3 * (amp : Int)
        let low : Int := match pt with
          | .loop => max (-512) (-((s.loop.shaped - 10 * (s.energy.drawUa : Int) - 1000) / 25))
          | .spur => -top
        ∃ t, exec (.packetTransmitStart pt) s = .next t ∧ s.Only [.ports, .decoder, .fab, .obs] t ∧
          s.CountersBut [perPort pt .rxAbandonL .rxAbandonS, .trcDrop] t ∧
          t.fab = { s.fab with pubSeq := if j.rank = 3 then s.fab.pubSeq + 1 else s.fab.pubSeq } ∧
          t.decoder.filter (fun j => j.port ≠ pt) = s.decoder.filter (fun j => j.port ≠ pt) ∧
          let z := t.port pt
          becomes t z ∧ z.txReq = [] ∧ z.rx = .muted ∧ z.tx = some j ∧ z.txSyms = packetSymbols j.frame ∧ z.txStart = s.now ∧
          z.txEnd = s.now + airtime j.frame.mode j.frame.payload.length ∧ z.amp = amp ∧
          z.clipLo = max (-top) low ∧ z.clipHi = (if pt = .loop then min top 511 else top) ∧
          (pt = .spur ∨ s.fsk.sendEnd = none → ∀ v, v = z.dac.1 ∨ v = z.dac.2 → z.clipLo ≤ v ∧ v ≤ z.clipHi) ∧
          (pt = .loop → ∀ v, v = z.dac.1 ∨ v = z.dac.2 → (low ≤ v ∨ v = 511) ∧ v ≤ 511) ∧
          (x.rx.holds = false → s.OnlyTrace t ∧ t.decoder = s.decoder ∧ z = { x with
            txReq := [], rx := .muted, tx := some j, txSyms := z.txSyms, txStart := z.txStart, txEnd := z.txEnd, amp := z.amp
            clipLo := z.clipLo, clipHi := z.clipHi, dac := z.dac }) ∧
          (x.rx.holds = true → z.hdr = none ∧ z.llrs = [] ∧ z.taps = [] ∧ z.seg = none ∧
            t.obs.live.getD (perPort pt .rxAbandonL .rxAbandonS).idx 0 =
              min (s.obs.live.getD (perPort pt .rxAbandonL .rxAbandonS).idx 0 + 1) 0xFFFFFFFF)) ∧
      (¬ silent → x.tx.isSome = true ∨ s.txHeld pt = true ∨ amp = 0 → ∃ t,
        exec (.packetTransmitStart pt) s = .next t ∧ s.Only [.ports, .fab, .obs] t ∧
        s.CountersBut ([.bcnLate, .pubSkip] ++ if x.tx = none ∧ s.txHeld pt = false then [.txLowcur] else []) t ∧
        becomes t { x with txReq := if j.rank = 4 then
          [{ j with at_ := (if x.tx.isSome then x.txEnd else s.now) + 1125 }] else [] } ∧
        t.fab = if j.rank = 3 then queued else if j.rank = 1 ∨ j.rank = 2 ∨ j.rank = 4 then s.fab
          else { s.fab with fwd := s.fab.fwd.put pt (⟨j.frame, 0⟩ :: s.fab.fwd.at pt) })) ∧
    (∀ j, s.loopUp = true → x.tx = some j → x.txEnd ≤ s.now → ∃ t, exec (.packetTransmitEnd pt) s = .next t ∧
      s.Only [.ports, .win, .fab, .obs] t ∧ s.CountersBut [perPort pt .txPktL .txPktS] t ∧
      becomes t { x with tx := none, txSyms := [], amp := 0, clipLo := 0, clipHi := 0, lastTx := x.txEnd, dac := (t.port pt).dac } ∧
      (pt = .spur ∨ s.fsk.sendEnd = none → (t.port pt).dac = (0, 0)) ∧
      t.win = { s.win with own := t.win.own } ∧ t.fab = { s.fab with sessions := t.fab.sessions } ∧
      (j.buf = none → t.win = s.win) ∧
      (∀ b, j.buf = some b → b < 64 → (s.win.ownAt b).own = .device →
        t.win.ownAt b = ⟨.free, (s.win.ownAt b).gen + 1, 0x20⟩) ∧
      ∀ n, j.buf ≠ some n → t.win.ownAt n = s.win.ownAt n) ∧
    (s.loopUp = true → x.rx = .muted → x.tx = none → x.lastTx + 64 ≤ s.now →
      exec (.muteEnd pt) s = .next { s with ports := s.ports.put pt { x with rx := .idle } }) ∧
    (∀ powers : List (List Nat), s.portOn pt = true → 64 ≤ x.idleSyms → powers.length = 64 → (∀ l ∈ powers, l.length = 64) →
      let sums := (List.range 8).map fun g => (powers.map fun l => ((l.drop (8 * g)).take 8).sum).sum
      exec (.noiseFloorUpdate pt powers) s = .next { s with
        ports := s.ports.put pt { x with pgNext := some (s.now, sums), idleSyms := 0 } } ∧
      ({ x with pgNext := some (s.now, sums) } : PortSt).takeFloor = { x with
        pg := sums, floorTick := some s.now, pgNext := none }) ∧
    (∀ tok, s.loopUp = true → s.mgmt.pendLine = some tok → tok.posted < s.now → s.mgmt.inForce.wf = true → tok.alm.wf = true →
      ∃ t, exec .idleLineApply s = .next t ∧ s.Only [.mgmt, .ports, .fab, .fsk, .obs] t ∧ s.OnlyTrace t ∧
      t.mgmt = { s.mgmt with inForce := t.mgmt.inForce, pendLine := t.mgmt.pendLine } ∧
      (∀ id r, fieldRow id = some r → t.mgmt.inForce.val id =
        if r.kind = .line ∧ s.fieldIdle id = true then tok.alm.val id else s.mgmt.inForce.val id) ∧
      (s.fieldIdle (fid 9 0 0) = true → s.fab.assigned = true → t.fab = { s.fab with dup := false, assigned := false }) ∧
      (s.fieldIdle (fid 9 0 0) = false ∨ s.fab.assigned = false → t.fab = s.fab) ∧
      ((∀ id, s.fieldIdle id = true) → t.mgmt.pendLine = none))

/-- FSK_PASS posts its octets on MB3 and waits for LOOP; with the FSK layer off it is not permitted. LOOP takes them with the tick at
which it takes the notice (09 R238).

The transmission of FSK_PASS's octets starts once carrier detect is off, and ends the command with the tick of its first start bit,
416 to 418 ticks on (the model's choice, as FSK timing is asynchronous: notes/assumptions/53), or with ST_BUSY after 1 s of carrier. An
octet is sent as 11 bits with odd parity. Carrier detect opens and closes reception; octets fill the first FREE buffer of the FSK range
in ring order, and the carrier's end or the 120th octet hands it to the host; an armed BUS_PAR_LOOP access discards the bytes, reports
and hands over all the same (09 R236, R237, R238; 13 R332, R333; notes/assumptions/29).

Where the spec leaves a point of this open, the clause is the model's choice: notes/assumptions/29, 53, 88. -/
def Obligations.FskPassesAndReceivesOctets : Prop :=
  (∀ (s : State) (p : Packet),
     (1 ≤ (s.paramsOf 0x0508 p).length → (s.paramsOf 0x0508 p).length ≤ 248 → s.Takes 0x0508 p 0 [.loop] → s.NoneWaits 0x0508 →
       if s.mgmt.inForce.fskEn = true then
         s.Begins (s.postReq 3 0x0508 (.fskPass (s.paramsOf 0x0508 p))) (.fskPass p) 0x0508 p 0 (some .loop) []
       else s.Declines (.fskPass p) 0x0508 p stNotPermitted) ∧
     (∀ os, s.Only [.fsk, .mgmt] (s.loopReq (.fskPass os)) ∧
       (s.loopReq (.fskPass os)).fsk = { s.fsk with tx := some (os, s.now) })) ∧
  (∀ s : State,
     let put (f : Fsk) : State := { s with fsk := f }
     let ended (t : State) (status : Nat) (res : List Byte) : Prop := t.mgmt = { s.mgmt with events := t.mgmt.events } ∧
       ∃ l, t.mgmt.events = s.mgmt.events ++ l ∧ ∀ o ∈ s.mgmt.outst, o.op = 0x0508 → o.done = none →
         (∃ g, o.got = some g ∧ g ≤ s.now) → (0x0508, status, res, s.now) ∈ l
     let hands (t : State) (f : Fsk) (b flags : Nat) : Prop :=
       t.fsk = { f with buf := none, octets := [], bufDrops := 0 } ∧
       t.win = { s.win with mem := t.win.mem, own := t.win.own, db := s.win.db ||| 0x80 } ∧
       t.win.ownAt b = ⟨.host, (s.win.ownAt b).gen + 1, 0x20⟩ ∧ (∀ n, n ≠ b → t.win.ownAt n = s.win.ownAt n) ∧
       let bytes := f.bytes flags
       (s.parityArmed .loop .mgmt = true → t.win.mem = s.win.mem ∧ t.faults = { s.faults.useArmed 0x0B with
         reports := s.faults.reports ++ [⟨0x0B, 0x10, 0x20, true, false, 0, s.now, s.clock.meridian, false⟩] }) ∧
       (s.parityArmed .loop .mgmt = false → t.faults = s.faults ∧
         (∀ i, i < bytes.length → cellRead t.win.mem (256 * b + i) = bytes.getD i 0) ∧
         ∀ c, c < 256 * b ∨ 256 * b + bytes.length ≤ c → cellRead t.win.mem c = cellRead s.win.mem c)
     (∀ os since, s.fsk.tx = some (os, since) →
       (s.fskOn = true → s.fsk.cd = false → s.fsk.sendEnd = none → ∃ t k, exec .fskTransmitStart s = .next t ∧
         s.Only [.free, .mgmt, .fsk, .ports] t ∧ k < 3 ∧
         t.fsk = { s.fsk with
           tx := none, send := fskBits os, sendStart := s.now, sendEnd := some (s.now + bitTicks (2 + 11 * os.length))
           phase := 0, muted := true } ∧
         t.ports = s.ports.put .loop { s.port .loop with
           clipLo := (t.port .loop).clipLo, clipHi := (t.port .loop).clipHi, dac := (t.port .loop).dac } ∧
         ended t stOk (leBytes 6 (s.clock.meridian + BitVec.ofNat 48 (416 + k)).toNat)) ∧
       (s.loopUp = true → s.fsk.cd = true → 500000 ≤ s.now - since → ∃ t, exec .fskPassTimeout s = .next t ∧
         s.Only [.mgmt, .fsk] t ∧ t.fsk = { s.fsk with tx := none } ∧ ended t stBusy [])) ∧
     (∀ b : Byte, (fskFrame b).length = 11 ∧ (fskFrame b)[0]? = some false ∧ (fskFrame b)[10]? = some true ∧
       (∀ i, i < 8 → (fskFrame b)[i + 1]? = some (b.getLsbD i)) ∧ ((fskFrame b).take 10).countP id % 2 = 1) ∧
     (∀ os : List Byte, (fskBits os).length = 2 + 11 * os.length ∧ (fskBits os)[0]? = some true ∧
       (fskBits os).getLast? = some true) ∧
     (s.fskOn = true → s.fsk.cd = false → exec .fskCarrierOn s = .next (put { s.fsk with
       cd := true, cdTick := s.now, muted := s.fsk.stillMuted s.now })) ∧
     (s.loopUp = true → s.fsk.cd = true →
       (s.fsk.buf = none → exec .fskCarrierOff s = .next (put { s.fsk with cd := false, cdTick := s.now })) ∧
       (∀ b, s.fsk.buf = some b → b < 64 → s.memoryOk → s.fsk.octets.length ≤ 120 → (s.win.ownAt b).own = .device → ∃ t,
         exec .fskCarrierOff s = .next t ∧ s.Only [.fsk, .win, .faults] t ∧
         hands t { s.fsk with cd := false, cdTick := s.now } b 1)) ∧
     (∀ o : FskOctet, s.fskOn = true → s.fsk.cd = true → s.fsk.stillMuted s.now = false → o.bits.getLsbD 0 = false →
       let d : Byte := o.bits.extractLsb' 1 8
       let ones := (List.range 9).countP fun i => o.bits.getLsbD (i + 1)
       let st := BitVec.ofNat 8 (b2n (ones % 2 == 0) + 2 * b2n (!o.bits.getLsbD 10) + 4 * b2n (decide (2 ≤ o.idle)))
       let range := bufRange s.mgmt.inForce.fskBufFirst s.mgmt.inForce.fskBufCount
       let place (i : Nat) : Nat := range.getD ((s.fsk.ring + i) % range.length) 0
       let more : Fsk := { s.fsk with octets := s.fsk.octets ++ [(d, st)] }
       (∀ k, s.fsk.buf = some k → s.fsk.octets.length < 119 → ∃ t, exec (.fskOctetReceive o) s = .next t ∧
         s.Only [.fsk, .obs] t ∧ s.CountersBut [.fskOctets] t ∧ t.fsk = more) ∧
       (∀ k, s.fsk.buf = some k → s.fsk.octets.length = 119 → k < 64 → s.memoryOk → (s.win.ownAt k).own = .device → ∃ t,
         exec (.fskOctetReceive o) s = .next t ∧ s.Only [.fsk, .win, .faults, .obs] t ∧ s.CountersBut [.fskOctets] t ∧ hands t more k 2) ∧
       (s.fsk.buf = none → ∀ i, i < range.length → (s.win.ownAt (place i)).own = .free →
         (∀ j, j < i → (s.win.ownAt (place j)).own ≠ .free) → ∃ t, exec (.fskOctetReceive o) s = .next t ∧
         s.Only [.fsk, .win, .obs] t ∧ s.CountersBut [.fskOctets] t ∧
         t.fsk = { s.fsk with
           buf := some (place i), octets := [(d, st)], stamp := o.start, ring := (s.fsk.ring + i + 1) % range.length
           bufDrops := s.fsk.drops, drops := 0 } ∧
         t.win = { s.win with own := t.win.own } ∧ t.win.ownAt (place i) = ⟨.device, (s.win.ownAt (place i)).gen + 1, 0x20⟩ ∧
         ∀ n, n ≠ place i → t.win.ownAt n = s.win.ownAt n) ∧
       (s.fsk.buf = none → (∀ b ∈ range, (s.win.ownAt b).own ≠ .free) → ∃ t, exec (.fskOctetReceive o) s = .next t ∧
         s.Only [.fsk, .obs] t ∧ s.CountersBut [.fskOctets, .fskDrops] t ∧
         t.fsk = { s.fsk with drops := min (s.fsk.drops + 1) 0xFFFFFFFF })))

/-- A CMD that the device consumes in an open session is copied into the first FREE buffer of the fabric range, taken to DEVICE and posted
on MB2, and its reply is due 1,000 ticks after delivery; while MGMT is down the post fails, and the session answers ST_ISLAND_DOWN and
stands as it did; without a FREE buffer the CMD is dropped. A repeat of the session's SEQ brings the current reply again; another CMD
while one runs is answered ST_BUSY. A CMD to node 63 is posted as a broadcast. A POLL asks for the current reply. A frame that is not for
the device changes nothing. Where BUS_PAR_LOOP is armed for the copy into the buffer, its bytes are discarded and reported
(10 R244, R245, R248, R249; 11 R281, R287, R288; 13 R332, R333; notes/assumptions/29).

A host frame of an address without a session opens one in the first free place of the table; with the table full it takes the place
of the session least recently used of those idle for 1 s; else it is answered ST_BUSY outside a session and counted. Shown of POLL (10
R248); the RSRC of an answer outside a session is not stated (notes/assumptions/59).

Where the spec leaves a point of this open, the clause is the model's choice: notes/assumptions/29, 31, 58, 59. -/
def Obligations.HostFramesOpenTheirReplies : Prop :=
  (∀ (s u : State) (pt : Port) (f : Frame) (d : Nat), frameValid f = true → s.takeFrame pt f false = some (u, d) →
     let gives (n : Nat) (x : Session) : State := { u with fab := { u.fab with sessions := u.fab.sessions.setIfInBounds n x } }
     let due (poll : Bool) (fixed : Option (List Byte)) : Option Due := some ⟨d + 1000, f.seq, pt, poll, fixed⟩
     let op := leAt f.payload 0 2
     let tag : Byte := byteAt f.payload 2
     let armed := u.parityArmed .loop .mgmt
     let checked (v t : State) : Prop := t.faults = if armed then { v.faults.useArmed 0x0B with
       reports := v.faults.reports ++ [⟨0x0B, 0x10, 0x20, true, false, 0, s.now, s.clock.meridian, false⟩] } else v.faults
     let posts (v t : State) (b src : Nat) : Prop := v.Only [.win, .fab, .faults, .obs] t ∧ v.OnlyTrace t ∧ checked v t ∧
       t.win = { v.win with
         mem := t.win.mem, own := t.win.own, mb := t.win.mb, crossSince := t.win.crossSince, crossRaised := t.win.crossRaised
         idb := t.win.idb } ∧
       (armed = false → t.bufRead b f.payload.length = f.payload) ∧
       (∀ a, armed = true ∨ a < 256 * b ∨ 256 * b + f.payload.length ≤ a → cellRead t.win.mem a = cellRead v.win.mem a) ∧
       t.win.ownAt b = ⟨.device, (v.win.ownAt b).gen + 1, 0x20⟩ ∧ (∀ k, k ≠ b → t.win.ownAt k = v.win.ownAt k) ∧
       (t.win.mbAt 2).notice = mkNotice b f.payload.length src op (leAt f.payload 2 1) ∧
       (t.win.mbAt 2).pending = true ∧ (∀ k, k ≠ 2 → t.win.mbAt k = v.win.mbAt k) ∧
       ∀ i, mbFrom 2 ≠ some i → mbTo 2 ≠ some i → t.win.idb.at i = v.win.idb.at i
     (f.typ = 3 → (∀ v a, assignOf f = some (v, a) → u.assignClash v a = false) →
       (u.cmdConsumed f = .no → exec (.cmdFrame pt f) s = .next u) ∧
       (u.cmdConsumed f = .broadcast →
         (u.relayBuf = none → ∃ t, exec (.cmdFrame pt f) s = .next t ∧ u.Only [.obs] t ∧ u.CountersBut [.fabRxfull] t) ∧
         (∀ b, u.relayBuf = some b → u.mgmtDown = false → u.fab.mb2Wait = [] → (u.win.mbAt 2).pending = false → u.memoryOk → ∃ t,
           exec (.cmdFrame pt f) s = .next t ∧ posts u t b 0x90 ∧ t.fab = { u.fab with bcastFrom := f.src })) ∧
       (∀ n, u.cmdConsumed f = .session → u.fab.sessOf f.src = some n →
         let x := u.fab.sess n
         let v := match x.buf with
           | some k => u.freeBuf k
           | none => u
         let next : Session := { x with
           last := s.now, before := some (x.seq, x.cur, x.curAt), seq := some f.seq, running := true, cur := none, op := op, tag := tag
           due := due false none, buf := none }
         (x.seq = some f.seq → exec (.cmdFrame pt f) s = .next (gives n { x with last := s.now, due := due true none })) ∧
         (x.seq ≠ some f.seq → x.running = true → exec (.cmdFrame pt f) s = .next (gives n { x with
           last := s.now, due := due false (some (replyBytes op tag.toNat stBusy (0x80 + n) 0 false [])) })) ∧
         (x.seq ≠ some f.seq → x.running = false → v.relayBuf = none → ∃ t, exec (.cmdFrame pt f) s = .next t ∧
           u.Only [.fab, .obs] t ∧ u.CountersBut [.fabRxfull] t ∧ t.fab = (gives n { x with last := s.now }).fab) ∧
         (∀ b, x.seq ≠ some f.seq → x.running = false → v.relayBuf = some b → u.fab.mb2Wait = [] → u.memoryOk →
           (u.mgmtDown = false → (u.win.mbAt 2).pending = false → ∃ t, exec (.cmdFrame pt f) s = .next t ∧ posts v t b (0x80 + n) ∧
             t.fab = (gives n next).fab) ∧
           (u.mgmtDown = true → ∃ t, exec (.cmdFrame pt f) s = .next t ∧ u.Only [.win, .fab, .faults] t ∧ checked u t ∧
             t.win.ownAt b = ⟨.free, (v.win.ownAt b).gen + 2, 0x20⟩ ∧ (∀ k, k ≠ b → t.win.ownAt k = v.win.ownAt k) ∧
             t.win = { u.win with mem := t.win.mem, own := t.win.own } ∧
             t.fab = (gives n { next with
               running := false, seq := x.seq, cur := x.cur, curAt := x.curAt, before := none
               due := due false (some (replyBytes op tag.toNat stIslandDown (0x80 + n) 0 false [])) }).fab)))) ∧
     (f.typ = 2 →
       (f.dest ≠ u.ownAddr ∨ nodeOf f.dest = 0 ∨ nodeOf f.dest = 63 ∨ u.fab.dup = true → exec (.pollFrame pt f) s = .next u) ∧
       (∀ n, f.dest = u.ownAddr → nodeOf f.dest ≠ 0 → nodeOf f.dest ≠ 63 → u.fab.dup = false → u.fab.sessOf f.src = some n →
         exec (.pollFrame pt f) s = .next (gives n { u.fab.sess n with last := s.now, due := due true none })))) ∧
  (∀ (s u : State) (pt : Port) (f : Frame) (d : Nat), frameValid f = true → s.takeFrame pt f false = some (u, d) → f.typ = 2 →
     f.dest = u.ownAddr → nodeOf f.dest ≠ 0 → nodeOf f.dest ≠ 63 → u.fab.dup = false → u.fab.sessOf f.src = none →
     let fresh : Session := { Session.reset with
       opened := true, addr := f.src, last := s.now, due := some ⟨d + 1000, f.seq, pt, true, none⟩ }
     (∀ n : Fin 16, u.fab.sessions[n].opened = false → (∀ m : Fin 16, m < n → u.fab.sessions[m].opened = true) →
       exec (.pollFrame pt f) s = .next { u with fab := { u.fab with sessions := u.fab.sessions.set n.val fresh } }) ∧
     ((∀ m : Fin 16, u.fab.sessions[m].opened = true) →
       (∀ n : Fin 16, u.fab.sessions[n].running = false → 500000 ≤ s.now - u.fab.sessions[n].last →
         (∀ m : Fin 16, m ≠ n → u.fab.sessions[m].running = false → u.fab.sessions[n].last < u.fab.sessions[m].last) → ∃ t,
         exec (.pollFrame pt f) s = .next t ∧ u.Only [.win, .mgmt, .fab] t ∧
         t.fab = { u.fab with sessions := u.fab.sessions.set n.val fresh } ∧ t.mgmt = { u.mgmt with
           assemblies := u.mgmt.assemblies.filter fun a => a.src ≠ BitVec.ofNat 8 (0x80 + n.val)
           kept := u.mgmt.kept.filter fun k => k.src ≠ BitVec.ofNat 8 (0x80 + n.val) }) ∧
       ((∀ m : Fin 16, u.fab.sessions[m].running = true ∨ s.now - u.fab.sessions[m].last < 500000) → ∃ t, ∃ r : Byte,
         exec (.pollFrame pt f) s = .next t ∧ u.Only [.free, .ports, .obs] t ∧ u.CountersBut [.sessBusy] t ∧
         t.ports = u.ports.put pt { u.port pt with txReq := (u.port pt).txReq ++
           [⟨u.mkFrame f.src 4 f.seq (replyBytes 0 0 stBusy r.toNat 0 false []) u.txMode, max (d + 1000) (s.now + 200), 4,
             none, none⟩] })))

/-- A due REPLY is asked of its port at the present boundary with the current reply, or with ST_PENDING when the command's reply has not
reached LOOP by D + 800, without payload to a POLL of a session that has no reply, and none is sent while DUP_ADDR is set; a session
idle for 10 s closes with its current reply and its assembly (10 R241, R245, R248, R249, R252; 12 R302).

Where the spec leaves a point of this open, the clause is the model's choice: notes/assumptions/59. -/
def Obligations.RepliesAndSessionsEnd : Prop :=
  ∀ (s : State) (ses : Fin 16),
    let n := ses.val
    let x := s.fab.sessions[ses]
    let without : Fabric := { s.fab with sessions := s.fab.sessions.set n { x with due := none } }
    (∀ d, s.fabricOn = true → x.due = some d → d.at_ ≤ s.now →
      let pending := replyBytes x.op x.tag.toNat stPending (0x80 + n) 0 false []
      let answer : List Byte × Option Nat := match d.fixed, x.cur with
        | some bs, _ => (bs, none)
        | none, some bs => if d.poll = true ∨ x.curAt + 200 ≤ d.at_ then (bs, x.buf) else (pending, none)
        | none, none => if d.poll = true ∧ x.running = false then ([], none) else (pending, none)
      let src := if x.op = 0x0501 then BitVec.ofNat 12 s.mgmt.committed.fabAddr else s.ownAddr
      let f : Frame := { s.mkFrame x.addr 4 d.seq answer.1 s.txMode with src := src }
      (s.fab.dup = true → exec (.replyTurnaround ses) s = .next { s with fab := without }) ∧
      (s.fab.dup = false → exec (.replyTurnaround ses) s = .next { s with
        fab := without
        ports := s.ports.put d.port { s.port d.port with
          txReq := (s.port d.port).txReq ++ [⟨f, s.now, 4, some n, answer.2⟩] } })) ∧
    (s.loopUp = true → x.opened = true → x.running = false → 5000000 ≤ s.now - x.last → ∃ t,
      exec (.sessionClose ses) s = .next t ∧ s.Only [.win, .mgmt, .fab] t ∧
      t.fab = { s.fab with sessions := s.fab.sessions.set n Session.reset } ∧
      t.mgmt = { s.mgmt with
        assemblies := s.mgmt.assemblies.filter fun a => a.src ≠ BitVec.ofNat 8 (0x80 + n)
        kept := s.mgmt.kept.filter fun k => k.src ≠ BitVec.ofNat 8 (0x80 + n) } ∧
      t.win = { s.win with own := t.win.own } ∧ (x.buf = none → t.win = s.win) ∧
      (∀ b, x.buf = some b → b < 64 → (s.win.ownAt b).own = .device →
        t.win.ownAt b = ⟨.free, (s.win.ownAt b).gen + 1, 0x20⟩) ∧
      ∀ b, x.buf ≠ some b → t.win.ownAt b = s.win.ownAt b)

/-- A SWEEP that the device consumes and whose prefix its UID matches draws one of 16 reply slots, and opens the
sender's session; the SWEEP_REPLY is asked of its port at exactly that boundary, no sooner than 200 ticks after receipt, and a slot that
has passed is lost. A due publish slot takes the earliest waiting buffer as a PUBLISH, whose first symbol is synthesised now where it was
not before (10 R246, R248, R250; 09 R223, R232).

A device frame from the device's own address sets DUP_ADDR and rings DB_FABRIC; a routing device forwards a frame by its bearing with
HOP one more, keeps one for the port it came from, and drops and counts one without a bearing, at the hop limit or with a full queue,
and answers a CMD or POLL without a way ST_NO_ROUTE; it forwards no BEACON, at the hop limit or below it; a forwarded frame's first
symbol is synthesised from its delivery on, and it starts once its exit port is idle, 200 ticks after delivery (10
R243, R252, R253, R254, R255).

Where the spec leaves a point of this open, the clause is the model's choice: notes/assumptions/61, 62, 88. -/
def Obligations.SweepsPublishingAndForwarding : Prop :=
  (∀ s : State,
     let asked (x : State) (pt : Port) (j : TxJob) : State := { x with
       ports := x.ports.put pt { x.port pt with txReq := (x.port pt).txReq ++ [j] } }
     (∀ (u : State) (pt : Port) (f : Frame) (a8 d : Nat), frameValid f = true → f.typ = 6 →
       s.takeFrame pt f false = some (u, d) →
       let plen := leAt f.payload 0 1
       let ofs := leAt f.payload 2 3
       let m := modeOfCode (leAt f.payload 1 1)
       let mine := if nodeOf f.dest = 0 then u.unassigned = true ∨ u.fab.dup = true
         else f.dest = u.ownAddr ∨ (nodeOf f.dest = 63 ∧ segOf f.dest = segOf u.ownAddr)
       let inOrder := plen ≤ 64 ∧ leAt f.payload 1 1 ≤ 2 ∧ airtime f.mode 16 + 1000 ≤ ofs
       let matches_ := Config.uid.toNat / 2 ^ (64 - plen) = leAt f.payload 8 8 / 2 ^ (64 - plen)
       let opens (v : State) : Prop := ((∃ n, u.fab.sessOf f.src = some n) ∧ v = u) ∨
         ∃ n : Fin 16, u.fab.sessOf f.src = none ∧ u.fab.sessions[n].opened = false ∧
           (∀ m : Fin 16, m < n → u.fab.sessions[m].opened = true) ∧ v = { u with fab := { u.fab with
             sessions := u.fab.sessions.set n.val { Session.reset with opened := true, addr := f.src, last := s.now } } }
       (¬ mine → exec (.sweepFrame pt f a8) s = .next u) ∧
       ∀ v, opens v →
       (mine → ¬ inOrder → ∃ t, exec (.sweepFrame pt f a8) s = .next t ∧ v.Only [.obs] t ∧ v.CountersBut [.frameBad] t) ∧
       (mine → inOrder → ¬ matches_ → exec (.sweepFrame pt f a8) s = .next v) ∧
       (mine → inOrder → matches_ → ∃ t j, exec (.sweepFrame pt f a8) s = .next t ∧ v.Only [.free, .fab] t ∧ j < 16 ∧
         t.fab = { v.fab with sweep := v.fab.sweep ++
           [(max (v.tickOf ((a8 + 4) / 8 + ofs + j * (airtime m 8 + 1125))) (s.now + 200), pt,
             v.mkFrame f.src 7 f.seq (leBytes 8 Config.uid.toNat) m)] })) ∧
     (∀ e : Nat × Port × Frame, s.fabricOn = true → s.fab.sweep.filter (fun x => decide (x.1 ≤ s.now)) = [e] →
       let rest : State := { s with fab := { s.fab with sweep := s.fab.sweep.filter fun x => decide (s.now < x.1) } }
       exec .sweepReplySlot s = .next (if e.1 = s.now then asked rest e.2.1 ⟨e.2.2, e.1, 2, none, none⟩ else rest)) ∧
     (∀ (n : Fin 4) (c : Nat), s.slotCount n.val = some c → s.portOn .loop = true → s.fab.locked = true → s.unassigned = false →
       s.fab.dup = false → s.fab.pubDone.getD n.val none ≠ some c →
       let served : Fabric := { s.fab with pubDone := s.fab.pubDone.set n.val (some c) }
       (s.fab.pubQueue = [] → exec (.publishSlot n) s = .next { s with fab := served }) ∧
       (∀ b since bs, s.fab.pubQueue = (b, since) :: bs →
         let bytes := s.bufRead b (16 + 8 * (cellRead s.win.mem (256 * b + 1)).toNat)
         let f := s.mkFrame (BitVec.ofNat 12 s.mgmt.inForce.pubDest) 5 s.fab.pubSeq bytes (modeOfCode (s.mgmt.inForce.pubMode n.val))
         let start := max s.now (since + 200)
         let made : Bool := (s.port .loop).synthed.any fun t => decide (t ≤ start + 8 ∧ start ≤ t + 8)
         exec (.publishSlot n) s = .next (asked
           { s with
             fab := { served with pubQueue := bs }, dspFree := if made then s.dspFree else max s.now s.dspFree + 100 } .loop
           ⟨f, start, 3, none, some b⟩)))) ∧
  (∀ (s : State) (pt : Port) (f : Frame),
     (∀ u d, frameValid f = true → deviceType f.typ.toNat = true → s.takeFrame pt f false = some (u, d) →
       (u.unassigned = false → f.src = u.ownAddr → u.fab.dup = false → exec (.deviceFrameReceive pt f) s = .next { u with
         fab := { u.fab with dup := true }, win := { u.win with db := u.win.db ||| 0x100 } }) ∧
       (u.unassigned = true ∨ f.src ≠ u.ownAddr ∨ u.fab.dup = true → exec (.deviceFrameReceive pt f) s = .next u)) ∧
     (∀ u d, frameValid f = true → s.routes = true → s.takeFrame pt f true = some (u, d) → f.typ = 1 ∨ u.consumesAlone f = true →
       exec (.frameForward pt f) s = .next u) ∧
     (∀ u d, frameValid f = true → s.routes = true → s.takeFrame pt f true = some (u, d) → f.typ ≠ 1 → u.consumesAlone f = false →
       (∀ p, u.exitOf (segOf f.dest) = some p → p ≠ pt → f.hop ≠ 7 → (u.fab.fwd.at p).length < 8 →
         exec (.frameForward pt f) s = .next { u with dspFree := max s.now s.dspFree + 100, fab := { u.fab with
           fwd := u.fab.fwd.put p (u.fab.fwd.at p ++ [⟨{ f with hop := f.hop + 1 }, d⟩]) } }) ∧
       (u.exitOf (segOf f.dest) = some pt → exec (.frameForward pt f) s = .next u) ∧
       (u.exitOf (segOf f.dest) = none → f.typ ≠ 2 → f.typ ≠ 3 → ∃ t, exec (.frameForward pt f) s = .next t ∧ u.Only [.obs] t ∧
         u.CountersBut [.fwdNobearing] t ∧ t.obs.live.getD 42 0 = min (u.obs.live.getD 42 0 + 1) 0xFFFFFFFF) ∧
       (∀ p, u.exitOf (segOf f.dest) = some p → p ≠ pt → f.hop = 7 → f.typ ≠ 2 → f.typ ≠ 3 → ∃ t,
         exec (.frameForward pt f) s = .next t ∧ u.Only [.obs] t ∧ u.CountersBut [.fwdHops] t ∧
         t.obs.live.getD Ctr.fwdHops.idx 0 = min (u.obs.live.getD Ctr.fwdHops.idx 0 + 1) 0xFFFFFFFF) ∧
       (∀ q, f.typ = 2 ∨ f.typ = 3 → u.exitOf (segOf f.dest) = none ∨ (u.exitOf (segOf f.dest) ≠ some pt ∧ f.hop = 7) →
         u.exitOf (segOf f.src) = some q → u.fab.dup = false → ∃ t, ∃ r : Byte,
         let bytes := if f.typ = 3 then replyBytes (leAt f.payload 0 2) (leAt f.payload 2 1) stNoRoute r.toNat 0 false []
           else replyBytes 0 0 stNoRoute r.toNat 0 false []
         exec (.frameForward pt f) s = .next t ∧ u.Only [.free, .ports, .obs] t ∧ u.CountersBut [.fwdNobearing, .fwdHops] t ∧
         t.ports = u.ports.put q { u.port q with txReq := (u.port q).txReq ++
           [⟨u.mkFrame f.src 4 f.seq bytes u.txMode, max (d + 1000) (s.now + 200), 4, none, none⟩] }) ∧
       (∀ p, u.exitOf (segOf f.dest) = some p → p ≠ pt → f.hop ≠ 7 → 8 ≤ (u.fab.fwd.at p).length → ∃ t,
         exec (.frameForward pt f) s = .next t ∧ u.Only [.obs] t ∧ u.CountersBut [.fwdQfull] t ∧
         t.obs.live.getD 44 0 = min (u.obs.live.getD 44 0 + 1) 0xFFFFFFFF)) ∧
     (∀ i is, s.portOn pt = true → s.fab.fwd.at pt = i :: is → (s.port pt).rx = .idle → (s.port pt).tx = none →
       i.delivered + 200 ≤ s.now → exec (.forwardTransmit pt) s = .next { s with
         fab := { s.fab with fwd := s.fab.fwd.put pt is }
         ports := s.ports.put pt { s.port pt with txReq := (s.port pt).txReq ++ [⟨i.frame, s.now, 5, none, none⟩] } }))

/-- A beacon that the device consumes opens its sender's session. An accepted beacon sets or slews the count, or leaves it, and locks or
unlocks fabric time, by the error e in eighths of a tick as R257 has it; an event in it replaces the one held; a routing device relays
it at its fixed latency, no sooner than 200 ticks after its receipt, one with HOP = 7 not at all, or drops a late one; without a beacon
for FAB_BCN_TIMEOUT ticks the state is UNLOCKED (10 R244, R248, R254, R256, R257, R258, R260; 09 R232; 01 R16).

Where the spec leaves a point of this open, the clause is the model's choice: notes/assumptions/60, 93. -/
def Obligations.BeaconsKeepFabricTime : Prop :=
  ∀ s : State,
    (∀ (v : State) (pt : Port) (f : Frame) (a8 d : Nat), frameValid f = true → f.typ = 1 → s.takeFrame pt f false = some (v, d) →
      let mine := f.dest = v.ownAddr ∨ (nodeOf f.dest = 63 ∧ segOf f.dest = segOf v.ownAddr) ∨
        (nodeOf f.dest = 0 ∧ (v.unassigned = true ∨ v.fab.dup = true))
      (mine → v.fab.sessOf f.src = none → (∀ m : Fin 16, v.fab.sessions[m].opened = true) →
        (∀ m : Fin 16, v.fab.sessions[m].running = true ∨ v.now - v.fab.sessions[m].last < 500000) →
        v.acceptsBeacon pt f = false → ∃ t, ∃ r : Byte, exec (.beaconAccept pt f a8) s = .next t ∧
        v.Only [.free, .ports, .obs] t ∧ v.CountersBut [.sessBusy] t ∧
        t.ports = if v.fab.dup then v.ports else v.ports.put pt { v.port pt with txReq := (v.port pt).txReq ++
          [⟨v.mkFrame f.src 4 f.seq (replyBytes 0 0 stBusy r.toNat 0 false []) v.txMode, max (d + 1000) (s.now + 200), 4,
            none, none⟩] }) ∧
      ∀ u, (¬ mine ∧ u = v ∨ mine ∧ (∃ n, v.fab.sessOf f.src = some n) ∧ u = v ∨
        mine ∧ ∃ n : Fin 16, v.fab.sessOf f.src = none ∧ v.fab.sessions[n].opened = false ∧
          (∀ m : Fin 16, m < n → v.fab.sessions[m].opened = true) ∧ u = { v with fab := { v.fab with
            sessions := v.fab.sessions.set n.val { Session.reset with opened := true, addr := f.src, last := s.now } } }) →
      (u.acceptsBeacon pt f = false → exec (.beaconAccept pt f a8) s = .next u) ∧
      (u.acceptsBeacon pt f = true →
        let full := f.len ≠ 0
        let b : Nat := if f.len = 0 then (a8 + 4500) / 9000 * 1125 else leAt f.payload 0 6
        let e : Int := (a8 : Int) - 8 * (b : Int)
        let sets := full ∧ (u.fab.locked = false ∨ 512 ≤ e.natAbs)
        let near := u.fab.locked = true ∧ e.natAbs < 512
        ∃ t, exec (.beaconAccept pt f a8) s = .next t ∧ u.Only [.clock, .fab, .obs] t ∧ u.CountersBut [.timeSet, .trcDrop] t ∧
        t.fab = { u.fab with
          locked := t.fab.locked, hop := f.hop, err := e, bcnTick := some s.now, relay := t.fab.relay, event := t.fab.event
          bcnSeqs := (f.seq, s.now) :: u.fab.bcnSeqs.filter fun x => decide (s.now - x.2 < 500000) } ∧
        (sets → t.clock = { u.clock with
            timeSet := some (u.clock.meridian + 1 - BitVec.ofInt 48 ((e + 4) / 8)), slew := none } ∧ t.fab.locked = true ∧
          t.obs.live.getD 45 0 = min (u.obs.live.getD 45 0 + 1) 0xFFFFFFFF) ∧
        (near → 4 ≤ e → t.clock = { u.clock with slew := some false } ∧ t.fab.locked = true) ∧
        (near → e < -4 → t.clock = { u.clock with slew := some true } ∧ t.fab.locked = true) ∧
        (near → -4 ≤ e → e < 4 → t.clock = u.clock ∧ t.fab.locked = true) ∧
        (¬ full → ¬ near → t.clock = u.clock ∧ t.fab.locked = false) ∧
        t.fab.event = (if f.len ≠ 0 ∧ leAt f.payload 7 1 % 2 = 1 then some (BitVec.ofNat 48 (leAt f.payload 8 6))
          else u.fab.event) ∧
        (u.routes = false ∨ f.hop = 7 → t.fab.relay = u.fab.relay) ∧
        (u.routes = true → f.hop ≠ 7 → t.fab.relay =
          some (max (u.tickOf ((a8 + 4) / 8 + hopLatency f)) (s.now + 200), otherPort pt, relayFrame f)))) ∧
    (∀ n, s.loopUp = true → s.fab.locked = true → s.fab.bcnTick = some n → s.mgmt.inForce.fabBcnTimeout ≤ s.now - n →
      exec .beaconTimeout s = .next { s with fab := { s.fab with locked := false } }) ∧
    (∀ at_ pt f, s.fabricOn = true → s.fab.relay = some (at_, pt, f) →
      (at_ = s.now → exec .beaconRelay s = .next { s with
        fab := { s.fab with relay := none }
        ports := s.ports.put pt { s.port pt with txReq := (s.port pt).txReq ++ [⟨f, at_, 1, none, none⟩] } }) ∧
      (at_ < s.now → ∃ t, exec .beaconRelay s = .next t ∧ s.Only [.fab, .obs] t ∧ s.CountersBut [.bcnLate] t ∧
        t.fab = { s.fab with relay := none } ∧ t.obs.live.getD 40 0 = min (s.obs.live.getD 40 0 + 1) 0xFFFFFFFF))

/-- AON consumes a detector's report: a fault that no shadow covers and that does not repeat the newest entry is logged at its class, or
one above when one of its class is open and unacknowledged, with that fault as its ORIGIN, and is open; a CORR fault so raised to CONT is
raised on to FATAL where a CONT one is open and unacknowledged. A CORR fault is counted, a CONT fault drives FAULT_N low for
at least 500 ticks and opens its grace window, SUP_AUX commands its low alarm whatever its class; a shadowed one is only logged as
CONSEQUENTIAL, and sets FATAL_SEEN at class FATAL. An entry goes into the fault history and
rings DB_FAULT (01 R13; 11 R271; 13 R314, R315, R316, R324, R325, R326, R330, R335).

A FATAL fault drives FAULT_N low, sets FATAL_SEEN, is REACTED at once with its resets and its alarm 5 ticks on, and waits for its
snapshot record, which AON then writes to the ring of 128 places. A FATAL SUP_AUX commands the alarm, its low alarm beside (13 R316, R322,
R323, R324, R325, R338; notes/assumptions/48).

Where the spec leaves a point of this open, the clause is the model's choice: notes/assumptions/18, 48, 90. -/
def Obligations.ReportsBecomeFaults : Prop :=
  (∀ (s : State) (r : Report), s.clock.powered = true → s.faults.reports = [r] → r.aon = true ∨ r.posted < s.now →
     (∀ e, s.faults.log.head? = some e → e.det ≠ r.det) → s.faults.log.length < 16 →
     let cfg := max (s.classOf r.det.toNat r.cause.toNat) r.atLeast
     let rival (c : Nat) : Option Open := if c = 0 ∨ c = 1 then s.faults.opens.find? fun o => o.cls == c && !o.acked else none
     let first := rival cfg
     let second := if first.isSome then rival (cfg + 1) else none
     let cls := cfg + b2n first.isSome + b2n second.isSome
     let aux := decide (r.det = 0x15)
     let entry (conseq : Bool) (origin : Byte) (cls : Nat) (esc : Bool) : LogEntry :=
       ⟨r.det, cls, s.classOf r.det.toNat r.cause.toNat, r.inj, r.real, conseq, esc, conseq, false, false, 1, r.stamp, r.cause,
        origin, r.island, s.faults.lseq⟩
     let logs (t : State) (e : LogEntry) : Prop := t.faults.log = e :: s.faults.log ∧ t.faults.lseq = s.faults.lseq + 1 ∧
       t.faults.reports = [] ∧ t.win = { s.win with db := s.win.db ||| 0x200 } ∧ t.nvm = s.nvm.logFault e
     let opened : Open :=
       ⟨r.det, r.cause, r.island, cls, s.mgmt.inForce.frReact r.det.toNat, s.mgmt.inForce.frAckHost r.det.toNat, false, false, false,
        aux, if cls = 1 then some (s.now + s.mgmt.inForce.fltGrace) else none, s.now, s.faults.lseq⟩
     let origin : Byte := match second.or first with
       | some o => BitVec.ofNat 8 o.det.toNat
       | none => 0xFF
     (s.shadowOf r.det.toNat r.cause.toNat = none → cls ≤ 1 → ∃ t, exec (.faultReport []) s = .next t ∧
       s.Only [.win, .faults, .pins, .nvm, .loop, .obs] t ∧
       (aux = false → logs t (entry false origin cls first.isSome) ∧ t.loop = s.loop) ∧
       (aux = true → t.loop = { s.loop with sched := s.loop.sched ++ [⟨s.now + 5, .auxAlarm true⟩] } ∧
         t.nvm = s.nvm.logFault (entry false origin cls first.isSome) ∧
         ∃ es, t.faults.log = { entry false origin cls first.isSome with alarm := true } :: es) ∧
       t.faults.opens = s.faults.opens ++ [opened] ∧
       (cls = 0 → s.CountersBut [.fltCorr, .trcDrop] t ∧ t.pins = s.pins ∧ t.faults.lowUntil = s.faults.lowUntil) ∧
       (cls = 1 → s.OnlyTrace t ∧ t.pins = { s.pins with faultLow := true } ∧ t.faults.lowUntil = s.now + 500)) ∧
     (s.shadowOf r.det.toNat r.cause.toNat = none → cls = 2 → ∃ t e es, exec (.faultReport []) s = .next t ∧
       t.faults.log = e :: es ∧ e.det = r.det ∧ e.lseq = s.faults.lseq ∧ e.cls = 2 ∧ e.escalated = first.isSome ∧ e.origin = origin ∧
       t.faults.fatalSeen = true ∧ es.map (·.lseq) = s.faults.log.map (·.lseq)) ∧
     (∀ origin, s.shadowOf r.det.toNat r.cause.toNat = some origin → ∃ t, exec (.faultReport []) s = .next t ∧
       s.Only [.win, .faults, .nvm, .obs] t ∧ logs t (entry true origin cfg false) ∧ t.faults.opens = s.faults.opens ∧
       t.faults.fatalSeen = (s.faults.fatalSeen || cfg == 2) ∧
       s.CountersBut [.fltConseq, .trcDrop] t)) ∧
  ((∀ (s : State) (r : Report), s.clock.powered = true → s.faults.reports = [r] → r.aon = true ∨ r.posted < s.now →
     s.faults.log = [] → s.faults.opens = [] → s.shadowOf r.det.toNat r.cause.toNat = none →
     max (s.classOf r.det.toNat r.cause.toNat) r.atLeast = 2 → ∃ t, exec (.faultReport []) s = .next t ∧
     t.pending = s.pending ∧ (∃ h, t.nvm = s.nvm.logFault h ∧ h.det = r.det ∧ h.cls = 2 ∧ h.lseq = s.faults.lseq) ∧
     t.clock = s.clock ∧ t.pins.faultLow = true ∧ t.faults.fatalSeen = true ∧
     t.faults.lowUntil = s.now + 500 ∧ (∃ o, t.faults.opens = [o] ∧ o.det = r.det ∧ o.cls = 2 ∧ o.reacted = true ∧ o.alarm = true ∧
       o.aux = decide (r.det = 0x15)) ∧ (r.det = 0x15 → ⟨s.now + 5, .auxAlarm true⟩ ∈ t.loop.sched) ∧
     (∃ e, t.faults.log = [e] ∧ t.faults.snapWait = s.faults.snapWait ++ [e] ∧ e.cls = 2 ∧ e.reacted = true) ∧
     ⟨s.now + 5, .hwAlarm true⟩ ∈ t.loop.sched ∧
     (∀ i ∈ reactIslands (s.mgmt.inForce.frReact r.det.toNat) r.det.toNat r.cause.toNat, (t.isl.at i).down = true) ∧
     ∀ i, i ∉ reactIslands (s.mgmt.inForce.frReact r.det.toNat) r.det.toNat r.cause.toNat → t.isl.at i = s.isl.at i) ∧
   (∀ (s : State) (e : LogEntry) (es : List LogEntry), s.clock.powered = true → s.faults.snapWait = e :: es →
     exec .snapshotWrite s = .next { s with
       faults := { s.faults with snapWait := es }
       nvm := { s.nvm.wrote [NvmArea.snapshot.first + (s.nvm.snapSeq + 1) % 128 / 8] with
         snap := ((s.nvm.snapSeq + 1, e) :: s.nvm.snap).take 128, snapSeq := s.nvm.snapSeq + 1 } }))

/-- A fault that meets a full log of 16 entries removes one of them, and counts it: the oldest that is neither open nor unacknowledged, or,
if there is none, the oldest CORR entry, or, if there is none, the oldest; the others keep their order behind the new one, which is at
index 0. What the collector holds of the removed fault stays: its window, which only a FATAL fault can close (R327), its alarm, its part in
FAULT_N; FLT_ACK of its detector still acknowledges it (13 R336). -/
def Obligations.FullLogRemovesOneEntry : Prop :=
  (∀ (s : State) (det : BitVec 6) (n : Nat), s.clock.powered = true → s.graceDue = [] → s.faults.acks = [(det, true, n)] →
    s.faults.clears = [] → ∃ t, exec .graceExpiry s = .next t ∧ ∀ o ∈ t.faults.opens, o.det = det → o.acked = true) ∧
  ∀ (s : State) (r : Report), s.clock.powered = true → s.faults.reports = [r] → r.aon = true ∨ r.posted < s.now →
    (∀ e, s.faults.log.head? = some e → e.det ≠ r.det) → s.faults.log.length = 16 →
    let done (e : LogEntry) : Prop := (∀ o ∈ s.faults.opens, o.lseq ≠ e.lseq) ∧ e.acked = true
    ∃ t pre e post, exec (.faultReport []) s = .next t ∧ s.faults.log = pre ++ e :: post ∧
      (done e ∧ (∀ x ∈ post, ¬ done x) ∨
        (∀ x ∈ s.faults.log, ¬ done x) ∧ e.cls = 0 ∧ (∀ x ∈ post, x.cls ≠ 0) ∨
        (∀ x ∈ s.faults.log, ¬ done x ∧ x.cls ≠ 0) ∧ post = []) ∧
      t.faults.log.map (·.lseq) = s.faults.lseq :: (pre ++ post).map (·.lseq) ∧
      (∃ n es, t.faults.log = n :: es ∧ n.det = r.det ∧ n.tick = r.stamp ∧ (n.cls ≠ 2 → s.faults.opens <+: t.faults.opens)) ∧
      (∀ o ∈ s.faults.opens, ∃ p ∈ t.faults.opens, p.lseq = o.lseq ∧ p.det = o.det ∧ p.cls = o.cls ∧ p.acked = o.acked ∧
        (o.alarm = true → p.alarm = true) ∧ p.aux = o.aux) ∧ t.faults.lseq = s.faults.lseq + 1 ∧
      t.obs.live.getD Ctr.fltLogLost.idx 0 = min (s.obs.live.getD Ctr.fltLogLost.idx 0 + 1) 0xFFFFFFFF

/-- At the end of its grace window an unacknowledged CONT fault has its reaction: its islands reset, its alarm, but for SUP_AUX, 5 ticks on.
FLT_ACK, once AON has taken it from MB7, closes a fault and withdraws its alarm 5 ticks on, unless another fault's stands; inside the
window it cancels the reaction of a HOST fault, and orders that of an AUTO one without its alarm. AUTO_ACK posts the firmware's
acknowledgement, which closes an AUTO fault and orders the reaction of one in its window; an alarm in force keeps the fault open. SUP_AUX
stays open while its low alarm is in force. A clearing takes the entries that are not open; FAULT_N goes
high once no CONT or FATAL fault is open and its minimum has passed (13 R317, R318, R322, R324, R325, R337; 01 R17).

AON arms a detector with the count of a request that it has taken, in place of what remained; an armed access uses one count and is
reported as injected; a double-bit error leaves a word that delivers no data, and the bytes of such a word of the window are free
values; the end of a shadow ends its ORIGIN, and the conditions that still hold report again: those that State holds, and of other
detectors those named (01 R12; 11 R279; 13 R330, R331, R332, R334; where the window's words lie: notes/assumptions/29).

Where the spec leaves a point of this open, the clause is the model's choice: notes/assumptions/18, 29, 48. -/
def Obligations.GraceWindowsInjectionAndShadowsEnd : Prop :=
  (∀ s : State,
     (∀ o, s.clock.powered = true → s.faults.acks = [] → s.faults.clears = [] → s.faults.opens = [o] → o.acked = false → o.reacted = false →
       let bit := o.react.testBit 5 && o.det != 0x15
       (∀ g, o.grace = some g → g ≤ s.now → ∃ t, exec .graceExpiry s = .next t ∧ t.pending = s.pending ∧ t.nvm = s.nvm ∧
         t.clock = s.clock ∧
         t.faults.opens = [{ o with reacted := true, grace := none, alarm := o.alarm || bit }] ∧
         (bit = true → ⟨s.now + 5, .hwAlarm true⟩ ∈ t.loop.sched) ∧
         (∀ i ∈ reactIslands o.react o.det.toNat o.cause.toNat, (t.isl.at i).down = true) ∧
         ∀ i, i ∉ reactIslands o.react o.det.toNat o.cause.toNat → t.isl.at i = s.isl.at i) ∧
       (∀ g, o.grace = some g → s.now < g → exec .graceExpiry s = .next s)) ∧
     (∀ o n, s.clock.powered = true → s.graceDue = [] → s.faults.acks = [(o.det, true, n)] → s.faults.clears = [] →
       let ordered := o.cls = 1 ∧ o.host = false ∧ o.acked = false ∧ o.reacted = false
       let left : List Open := if o.aux then [{ o with acked := true, grace := none, alarm := false }] else []
       (s.faults.opens = [o] → ¬ ordered → ∃ t, exec .graceExpiry s = .next t ∧ s.Only [.faults, .loop] t ∧
         t.faults.opens = left ∧ t.faults.acks = [] ∧ t.faults.reports = s.faults.reports ∧
         t.faults.log = (s.faults.log.map fun e => { e with
           acked := e.acked || e.lseq == o.lseq, alarm := o.aux && o.lseq == e.lseq }) ∧
         t.loop = if o.alarm then { s.loop with sched := s.loop.sched ++ [⟨s.now + 5, .hwAlarm false⟩] } else s.loop) ∧
       (s.faults.opens = [o] → ordered → o.alarm = false → o.aux = false → ∃ t, exec .graceExpiry s = .next t ∧
         t.pending = s.pending ∧ t.nvm = s.nvm ∧ t.clock = s.clock ∧ t.faults.opens = [] ∧
         (⟨s.now + 5, .hwAlarm true⟩ ∈ t.loop.sched → ⟨s.now + 5, .hwAlarm true⟩ ∈ s.loop.sched) ∧
         (∀ i ∈ reactIslands o.react o.det.toNat o.cause.toNat, (t.isl.at i).down = true) ∧
         ∀ i, i ∉ reactIslands o.react o.det.toNat o.cause.toNat → t.isl.at i = s.isl.at i) ∧
       (∀ p : Open, s.faults.opens = [o, p] → p.det ≠ o.det → p.alarm = true → o.alarm = true → ¬ ordered → ∃ t,
         exec .graceExpiry s = .next t ∧ s.Only [.faults] t ∧ t.faults.opens = left ++ [p])) ∧
     (∀ o n, s.clock.powered = true → s.graceDue = [] → s.faults.acks = [(o.det, false, n)] → s.faults.clears = [] →
       s.faults.opens = [o] → o.acked = false →
       let bit := o.react.testBit 5 && o.det != 0x15
       (o.host = false → o.cls = 1 → o.reacted = false → ∃ t, exec .graceExpiry s = .next t ∧
         t.pending = s.pending ∧ t.nvm = s.nvm ∧ t.clock = s.clock ∧
         t.faults.opens = (if o.alarm ∨ bit ∨ o.aux then
           [{ o with acked := true, reacted := true, grace := none, alarm := o.alarm || bit }] else []) ∧
         (bit = true → ⟨s.now + 5, .hwAlarm true⟩ ∈ t.loop.sched) ∧
         (∀ i ∈ reactIslands o.react o.det.toNat o.cause.toNat, (t.isl.at i).down = true) ∧
         ∀ i, i ∉ reactIslands o.react o.det.toNat o.cause.toNat → t.isl.at i = s.isl.at i) ∧
       (o.host = false → o.cls = 0 ∨ (o.cls = 1 ∧ o.reacted = true) → ∃ t, exec .graceExpiry s = .next t ∧ s.Only [.faults] t ∧
         t.faults.opens = (if o.alarm ∨ o.aux then [{ o with acked := true }] else []) ∧
         t.faults.log = s.faults.log.map fun e => if e.lseq = o.lseq then { e with acked := true } else e) ∧
       (o.host = true ∨ o.cls = 2 →
         exec .graceExpiry s = .next { s with faults := { s.faults with acks := [] } })) ∧
     (∀ scope, s.clock.powered = true → s.faults.acks = [] → s.faults.clears = [scope] → s.graceDue = [] →
       exec .graceExpiry s = .next { s with
         faults := { s.faults with
           clears := [], log := s.faults.log.filter fun e => s.faults.opens.any fun o => o.lseq == e.lseq, fatalSeen := false }
         nvm := if scope = 1 then { s.nvm with snap := [] } else s.nvm }) ∧
     (∀ det : BitVec 6, (s.mgmtUp = true → exec (.autoAck det) s = .next (s.postReq 7 0x0602 (.ack det false))) ∧
       ∀ host, s.aonReq (.ack det host) = { s with faults := { s.faults with acks := s.faults.acks ++ [(det, host, s.now)] } }) ∧
     (∀ scope, s.aonReq (.clearLog scope) = { s with faults := { s.faults with clears := s.faults.clears ++ [scope] } }) ∧
     (s.clock.powered = true → s.faults.acks = [] → s.faults.clears = [] → s.graceDue = [] →
       (s.faults.bootHold = false → s.pins.inReset = false → s.faults.lowUntil ≤ s.now → (∀ o ∈ s.faults.opens, o.cls = 0) →
         exec .faultNRelease s = .next { s with pins := { s.pins with faultLow := false } }) ∧
       (s.faults.bootHold = true ∨ s.now < s.faults.lowUntil ∨ (∃ o ∈ s.faults.opens, 1 ≤ o.cls) →
         exec .faultNRelease s = .next s))) ∧
  (∀ s : State, s.clock.powered = true →
     (∀ (d : BitVec 6) (n since : Nat), s.faults.armReq = [(d, n, since)] → exec .injectionArm s = .next { s with
       faults := { s.faults with armReq := [], armed := (s.faults.armed.filter fun a => a.1 ≠ d) ++ [(d, n)] } }) ∧
     (∀ (a : Access) (n : Nat), 0x0A ≤ a.det.toNat → a.det.toNat ≤ 0x0E → 0 < n → s.faults.armed = [(a.det, n)] →
       s.faults.reports = [] → s.faults.opens = [] → s.faults.log = [] → 0 < s.now →
       s.shadowOf a.det.toNat a.cause.toNat = none → ∃ t e, exec (.faultReport [a]) s = .next t ∧
       t.faults.armed = (if n = 1 then [] else [(a.det, n - 1)]) ∧ t.faults.log = [e] ∧ e.det = a.det ∧ e.cause = a.cause ∧
       e.inj = true ∧ e.real = (a.err != .none) ∧ e.tick = s.clock.prev) ∧
     (∀ (d : BitVec 6) (n : Nat), s.aonReq (.inject d n) = { s with
       faults := { s.faults with armReq := s.faults.armReq ++ [(d, n, s.now)] } }) ∧
     (∀ a : Access, a.err = .double →
       (∀ i : Island, a.det.toNat / 2 = (match i with
         | .mgmt => 0
         | .loop => 1
         | .meas => 2
         | .aon => 3) →
         let lost : State := { s with isl := s.isl.put i { s.isl.at i with
           lostWords := a.cause :: (s.isl.at i).lostWords.filter (· ≠ a.cause) } }
         (i ≠ .mgmt ∨ 4096 ≤ a.cause.toNat → s.struck a = lost) ∧
         (i = .mgmt → a.cause.toNat < 4096 → s.memoryOk →
           ∃ bs : List Byte, bs = leBytes 4 (Config.freeBits 32 s.free).toNat ∧ lost.Only [.free, .win] (s.struck a) ∧
           (∀ j, j < 4 → cellRead (s.struck a).win.mem (4 * a.cause.toNat + j) = bs.getD j 0) ∧
           ∀ c, c < 4 * a.cause.toNat ∨ 4 * a.cause.toNat + 4 ≤ c → cellRead (s.struck a).win.mem c = cellRead s.win.mem c)) ∧
       (a.det.toNat / 2 = 4 → s.struck a = { s with nvm := { s.nvm with
         bad := a.cause.toNat :: s.nvm.bad.filter (· ≠ a.cause.toNat) } })) ∧
     (∀ (i : Island) (n : Nat) (holding : List Access), (s.isl.at i).shadow = true → (s.isl.at i).shadowEnd = some n → n ≤ s.now →
       ∃ t, exec (.shadowEnd i holding) s = .next t ∧ s.Only [.isl, .faults, .obs] t ∧ s.OnlyTrace t ∧
       t.isl = s.isl.put i { s.isl.at i with
         shadow := false, shadowEnd := none, origin := 0xFF, wdtFired := false, readyFrom := s.now + 64 } ∧
       t.faults = { s.faults with reports := s.faults.reports ++
         ((s.conditions ++ (holding.filter fun a => a.err != .none && !condDets.contains a.det.toNat).map fun a =>
             (a.det.toNat, a.cause.toNat, a.island)).filter fun c => shadows i c.1 c.2.1).map fun c =>
           ⟨BitVec.ofNat 6 c.1, BitVec.ofNat 16 c.2.1, c.2.2, false, false, 0, s.now, s.clock.meridian, aonDet c.1⟩ }) ∧
     (∀ n : Fin 3, (0x17, n.val, (0x30 : Byte)) ∈ s.conditions ↔ s.energy.railCount.getD n.val 0 = 3) ∧
     (∀ p : Fin 4, (0x1F, p.val, (0x40 : Byte)) ∈ s.conditions ↔ s.win.crossRaised.getD p.val false = true) ∧
     ((0x10, 0, (0x40 : Byte)) ∈ s.conditions ↔ s.clock.lost = true) ∧
     ((0x14, 0, (0x40 : Byte)) ∈ s.conditions ↔ s.energy.lowCount = 9) ∧
     ((0x15, 0, (0x40 : Byte)) ∈ s.conditions ↔ s.energy.auxLost = true) ∧
     ((0x1C, 0, (0x40 : Byte)) ∈ s.conditions ↔ s.energy.tempCount = 9) ∧
     ((0x22, 0, (0x30 : Byte)) ∈ s.conditions ↔ s.meas.round.blankIgnored = true) ∧
     ((0x23, 0, (0x40 : Byte)) ∈ s.conditions ↔ s.loop.complying = true))

/-- A down island's reset is released and its image compared with its digest; a mismatch raises IMAGE and leaves it down. At a start the
images of LOOP and MEAS are compared before either is released, the AON core changes from its ROM to its checked NVM firmware, and the
almanac is loaded once, before MEAS is released or with LOOP's UP. An island's UP bit then sets, its shadow ends 64 ticks later, its
locks are free, and it serves again: each withdraws its unacknowledged notices, whose buffers become FREE; MGMT returns to HOST the
buffers of the host's commands without a posted reply, sets READY and rings DB_READY; LOOP takes the damping state from AON and replays
the recorded feeds; MEAS begins a round with empty queues or rejoins the running one, with each channel rebuilt from its last result;
AON owes a command no longer the UP it waited for (03 Table 3-10; 13 R329, R330, R339, R340; 11 R286, R289, R295; 08 R201;
notes/assumptions/86, 92).

Where the spec leaves a point of this open, the clause is the model's choice: notes/assumptions/13, 43, 44, 86, 92. -/
def Obligations.IslandsComeUpAgain : Prop :=
  ∀ (s : State) (i : Island),
    let x := s.isl.at i
    (∀ ok : Bool, s.clock.powered = true → s.aonSwitch i = true →
      (s.digestOk i ok = true → exec (.islandResetRelease i ok) s = .next { s with isl := s.isl.put .aon { x with nvmFw := true } }) ∧
      (s.digestOk i ok = false → exec (.islandResetRelease i ok) s = .next { s with
        isl := s.isl.put .aon { x with dead := true }, faults := (s.report 0x1D 0x40 0x40).faults })) ∧
    (∀ ok : Bool, s.clock.powered = true → s.toCheck i = true →
      (s.digestOk i ok = true → exec (.islandResetRelease i ok) s = .next { s with isl := s.isl.put i { x with checked := true } }) ∧
      (s.digestOk i ok = false → exec (.islandResetRelease i ok) s = .next { s with
        isl := s.isl.put i { x with dead := true }, faults := (s.report 0x1D (srcOf i).toNat (srcOf i)).faults })) ∧
    (∀ ok : Bool, s.mayRelease i = true → s.clock.powered = true → s.aonSwitch i = false → s.toCheck i = false →
      let w := if i = .meas then s.loadOnce else s
      (x.checked = true ∨ s.digestOk i ok = true → ∃ t, exec (.islandResetRelease i ok) s = .next t ∧ w.Only [.isl, .obs] t ∧
        w.OnlyTrace t ∧ t.isl = s.isl.put i { x with released := true, lostWords := [] }) ∧
      (x.checked = false → s.digestOk i ok = false → ∃ t, exec (.islandResetRelease i ok) s = .next t ∧
        w.Only [.isl, .faults, .obs] t ∧ w.OnlyTrace t ∧
        t.isl = s.isl.put i { x with dead := true } ∧ t.faults = (s.report 0x1D (srcOf i).toNat (srcOf i)).faults)) ∧
    ((i = .loop ∨ i = .meas) → s.booted = true → x.down = true → x.dead = false → x.released = false → x.stopped = false →
      x.resetAt = none → x.checked = false → s.toCheck i = true) ∧
    (i = .loop → x.resetAt = none → s.mayRelease i = true →
      x.checked = true ∧ (s.isl.meas.checked = true ∨ s.isl.meas.dead = true) ∧ (s.isl.aon.nvmFw = true ∨ s.isl.aon.dead = true)) ∧
    (i = .meas → x.resetAt = none → s.mayRelease i = true →
      x.checked = true ∧ (s.isl.loop.released = true ∨ s.isl.loop.up = true ∨ s.isl.loop.dead = true)) ∧
    (s.mgmt.toLoad = false → s.loadOnce = s) ∧ s.loadOnce.mgmt.toLoad = false ∧
    (s.clock.powered = true → x.down = true → x.released = true → x.dead = false → i = .aon ∨ s.pins.inReset = false →
      ∃ t, exec (.islandUp i) s = .next t ∧
      s.Only [.isl, .win, .mgmt, .fab, .ready, .loop, .meas, .pins, .energy, .faults, .obs] t ∧ s.OnlyTrace t ∧
      t.isl = s.isl.put i { x with
        up := true, down := false, resetAt := none, released := false, nvmFw := true, upAt := s.now, lastBeat := s.now
        wdtFired := false, shadowEnd := if x.shadow then some (s.now + 64) else none } ∧
      (∀ k : Fin 8, t.win.locks[k] = if s.win.locks[k] = srcOf i then 0 else s.win.locks[k]) ∧
      t.faults = { s.faults with owed := s.faults.owed.filter (· ≠ i) } ∧
      t.pins = { s.pins with
        started := s.pins.started.put i true, exc := t.pins.exc, excDrive := t.pins.excDrive, brk := t.pins.brk } ∧
      (i ≠ .meas → t.pins = { s.pins with started := s.pins.started.put i true }) ∧
      (i ≠ .loop → t.energy = s.energy) ∧
      (i = .mgmt → t.ready = true ∧ t.win.db.getLsbD 13 = true ∧ t.mgmt = { s.mgmt with outst := t.mgmt.outst } ∧
        t.loop = s.loop ∧ t.meas = s.meas ∧
        (∀ k, k = 1 ∨ k = 3 ∨ k = 4 ∨ k = 7 → (s.win.mbAt k).unanswered = true → (t.win.mbAt k).pending = false) ∧
        (∀ b, b < 64 →
          let named := ∃ k, (k = 3 ∨ k = 4 ∨ k = 7) ∧ (s.win.mbAt k).unanswered = true ∧ nbLen (s.win.mbAt k).notice ≠ 0 ∧
            nbBuf (s.win.mbAt k).notice = b
          let held := (s.win.mbAt 0).pending = true ∧ (s.win.mbAt 0).held = true ∧ nbBuf (s.win.mbAt 0).notice = b
          let lost := (s.win.ownAt b).own = .device ∧ (s.win.ownAt b).last = 0x01 ∧ ¬ held ∧ s.win.turned.contains b = false
          (named → (t.win.ownAt b).own = .free ∧ (t.win.ownAt b).last = 0x10) ∧
          (¬ named → lost → t.win.ownAt b = ⟨.host, (s.win.ownAt b).gen + 1, 0x10⟩) ∧
          (¬ named → ¬ lost → t.win.ownAt b = s.win.ownAt b)) ∧
        (∀ n : Fin 16, s.fab.sessions[n].running = true → (s.win.mbAt 2).pending = false → s.fab.mb2Wait = [] →
          t.fab.sessions[n] = { s.fab.sessions[n] with running := false, seq := none, cur := none })) ∧
      (i = .loop → t.ready = s.ready ∧ t.fab.mb2Wait = s.fab.mb2Wait ∧ t.fab.lost = [] ∧ t.fab.mb3Wait = [] ∧ t.mgmt.toLoad = false ∧
        ((s.win.mbAt 2).unanswered = true → (t.win.mbAt 2).pending = false) ∧
        (∀ b, b < 64 →
          let gone := b ∈ s.fab.lost ∨ ((s.win.mbAt 2).unanswered = true ∧ nbBuf (s.win.mbAt 2).notice = b)
          (gone → (s.win.ownAt b).own = .device → t.win.ownAt b = ⟨.free, (s.win.ownAt b).gen + 1, 0x20⟩) ∧
          (¬ gone → t.win.ownAt b = s.win.ownAt b)) ∧
        (∀ r, s.fab.mb3Wait = [r] → (s.win.mbAt 3).pending = false → s.win.posts.any (fun e => e.1 == 3) = false →
          (t.win.mbAt 3).pending = true ∧ (t.win.mbAt 3).req = .reply r) ∧
        t.loop = { s.loop with
          yl := s.loop.y, ylValid := s.loop.yValid, replaying := !s.loop.todo.isEmpty, replayNext := s.now
          duMax := t.loop.duMax, g := t.loop.g } ∧
        (s.mgmt.toLoad = false → t.meas = s.meas ∧ t.energy = s.energy ∧ t.loop.duMax = s.loop.duMax ∧ t.loop.g = s.loop.g)) ∧
      (i = .meas → t.ready = s.ready ∧ t.loop = s.loop ∧ t.fab = s.fab ∧ t.meas.queue = [] ∧ t.meas.map = s.meas.map ∧
        t.meas.round.startAt = some s.now ∧ t.meas.cal = s.nvm.calBlock ∧
        (∀ v : Fin 8, t.meas.vars[v] = Var.reset) ∧
        ((s.win.mbAt 5).unanswered = true → (t.win.mbAt 5).pending = false) ∧
        t.mgmt = { s.mgmt with pendMeas := s.mgmt.pendMeas.map fun k =>
          if k.missed then { k with posted := s.now, missed := false } else k } ∧
        (s.meas.round.on = false → t.meas.round.on = true ∧ t.meas.round.due = true ∧ t.meas.round.pos = 0) ∧
        (s.meas.round.on = true → t.meas.round = { s.meas.round with startAt := some s.now, passed := 0, freezes := [] } ∧
          t.meas.sxItem = s.meas.preload.sxItem ∧ ∀ (c : Fin 20) (p : PreChan), s.meas.preload.chans[c.val]? = some p →
          let a := s.mgmt.inForce
          let g := if a.arEn c.val then p.gain else a.fixedGain c.val
          let m := s.meas.map
          let at_ : Nat × Nat := if s.meas.round.due then (s.meas.round.nextCount, 0) else (s.meas.round.count, s.meas.round.pos)
          let next := at_.1 * m.nc c.val +
            ((m.samplePos (a.excModeInUse c.val == 3) c.val).filter fun t => decide (t.1 < at_.2)).length
          let k := next - (p.bound.1 * m.nc c.val + p.bound.2 + 1) - (if m.interleaved c.val then 4 else 0)
          let n := a.fOsr c.val
          let cube (j : Nat) : Int := p.zLast * (j * (j + 1) * (j + 2) / 6 : Nat)
          let b := (3 + k / n) * n
          let y := t.meas.chans[c]
          y.gain = g ∧ y.zLast = p.zLast ∧ y.zh = p.zh ∧ y.nh = p.nh ∧ y.lastBound = p.bound ∧ y.settle = 0 ∧ y.flushed = false ∧
          y.deferAcc = decide (0 < k % n) ∧ y.i1 = wrap64 (p.zLast * (3 * n + k : Nat)) ∧
          y.i2 = wrap64 (p.zLast * ((3 * n + k) * (3 * n + k + 1) / 2 : Nat)) ∧ y.i3 = wrap64 (cube (3 * n + k)) ∧
          y.d1 = wrap64 (cube b) ∧ y.d2 = wrap64 (cube b - cube (b - n)) ∧
          y.d3 = wrap64 (cube b - 2 * cube (b - n) + cube (b - 2 * n)) ∧
          y.prevRev = some ⟨p.zLast, g, if a.arEn c.val then a.arGmax c.val else g, false⟩ ∧ y.prevNorm = y.prevRev ∧
          (m.interleaved c.val = false → y.deskew = []))) ∧
      (i = .aon → t.ready = s.ready ∧ t.loop = s.loop ∧ t.meas = s.meas ∧ t.fab = s.fab ∧ t.mgmt = s.mgmt ∧
        (i ∉ s.faults.owed → (s.win.mbAt 6).unanswered = true → (t.win.mbAt 6).pending = false)))

/-- At X', or where the island was down then 64 ticks after its shadow's end, the READY slot becomes active in TRIAL, its verification is
used up, and its island resets with ORIGIN 0xFE, or keeps the one of a fault reaction at that very boundary; a change of IH_ARITH of MEAS or
LOOP breaks the guarantees there. 500,000 ticks after UP the trial commits and
blows the fuses up to its version, and the energy reserved for it is free; a fault reset, or an UP that misses its limit, reverts to the
other slot and marks the trial FAILED. The directory goes to the older of its pages (14 R352, R357 to R361).

An update session closes after 10 s without a command of its owner; the OEM digest is fused once, in test mode through the factory
test interface, when every island's active image carries a signature by its key, and never changes; a SYNC that is due carries the whole
count, with a DROP after it (14 R346, R353; 15 R375, R376).

Where the spec leaves a point of this open, the clause is the model's choice: notes/assumptions/12, 23, 49, 64. -/
def Obligations.TrialsCommitOrRevertAndSessionsEnd : Prop :=
  (∀ (s : State) (i : Island), s.clock.powered = true →
     let x := s.isl.at i
     let d := s.nvm.dirs.at i
     let dirs (t : State) (e : SlotDir) : Prop :=
       let r := s.nvm.dirRecs.at i
       let page := if (r.b.map (·.1)).getD 0 < (r.a.map (·.1)).getD 0 then (dirPages i).2 else (dirPages i).1
       t.nvm = { s.nvm with
         dirs := s.nvm.dirs.put i e, dirRecs := s.nvm.dirRecs.put i (r.put e), bad := s.nvm.bad.filter (· ≠ page), fuses := t.nvm.fuses }
     let tried (t : State) : Prop := exec (.activation i) s = .next t ∧ t.pending = s.pending ∧ t.nvm.fuses = s.nvm.fuses ∧
       dirs t { (d.setInactive { d.inactive with st := .trial }) with activeB := !d.activeB, actTick := none } ∧
       t.mgmt.verified.at i = false ∧
       t.clock = { s.clock with broken := if (i = .meas ∨ i = .loop) ∧ d.active.arith ≠ d.inactive.arith then some s.now
         else s.clock.broken }
     (∀ n, d.actTick = some n → s.reached n = true → x.down = false →
       0 < ahead n s.clock.prev.toNat ∨ (x.shadow = false ∧ x.readyFrom ≤ s.now) → ∃ t, tried t ∧
       (t.isl.at i).down = true ∧ (t.isl.at i).origin = 0xFE ∧ (t.isl.at i).resetAt = some s.now ∧
       ∀ j, j ≠ i → t.isl.at j = s.isl.at j) ∧
     (∀ n, d.actTick = some n → s.reached n = true → x.down = true → x.dead = false → x.resetAt = some s.now → x.origin.toNat < 0x40 →
       x.supply = false → ∃ t, tried t ∧ t.isl = s.isl.put i { x with actAt := some s.now }) ∧
     (d.active.st = .trial → x.up = true → 500000 ≤ s.now - x.upAt → ∃ t, exec (.trialCommit i) s = .next t ∧
       s.Only [.nvm, .energy, .obs] t ∧ s.OnlyTrace t ∧ dirs t (d.setActive { d.active with st := .committed }) ∧
       t.nvm.fuses = s.nvm.fuses.put i (min 63 (max (s.nvm.fuses.at i) (secVersion d.active.version))) ∧
       t.energy = { s.energy with reserved := s.energy.reserved.filter fun e => e.1 ≠ commitKey i }) ∧
     (d.active.st = .trial → x.dead = false → x.down = true →
       (x.origin.toNat < 0x40 ∧ x.origin ≠ 0x1D ∧ x.supply = false ∧ x.resetAt ≠ x.actAt) ∨
         (∃ r, x.resetAt = some r ∧ s.upLimit i ≤ s.now - r) → ∃ t, exec (.trialRevert i) s = .next t ∧
       s.Only [.nvm, .isl, .mgmt, .energy, .obs] t ∧ s.CountersBut [.updRevert, .trcDrop] t ∧ t.nvm.fuses = s.nvm.fuses ∧
       t.mgmt = { s.mgmt with verified := s.mgmt.verified.put i false } ∧
       dirs t { (d.setActive { d.active with st := .failed }) with activeB := !d.activeB } ∧
       t.energy = { s.energy with reserved := s.energy.reserved.filter fun e => e.1 ≠ commitKey i } ∧
       (t.isl.at i).released = false ∧ (t.isl.at i).down = true ∧ ∀ j, j ≠ i → t.isl.at j = s.isl.at j)) ∧
  (∀ s : State,
     (∀ u, s.mgmt.upd = some u → 5000000 ≤ s.now - u.last →
       exec .updSessionTimeout s = .next { s with mgmt := { s.mgmt with upd := none } }) ∧
     (∀ digest : List Byte,
       (s.clock.powered = true → s.pins.testMode = true → s.nvm.oem = none → digest.length = 32 → (∀ i : Island, s.oemSigned digest i = true) →
         exec (.oemDigestFuse digest true) s = .next { s with nvm := { s.nvm with oem := some digest } }) ∧
       exec (.oemDigestFuse digest false) s = .next s ∧
       (s.pins.testMode = false → ∀ auth, exec (.oemDigestFuse digest auth) s = .next s) ∧
       (∀ old auth, s.nvm.oem = some old → exec (.oemDigestFuse digest auth) s = .next s) ∧
       ((∃ i : Island, s.oemSigned digest i = false) → ∀ auth, exec (.oemDigestFuse digest auth) s = .next s)) ∧
     (s.clock.powered = true → s.pins.inReset = false → s.obs.on = true → s.obs.syncDue = true → s.obs.slotFree = true →
       (∀ n, s.obs.lastSync = some n → n + 64 ≤ s.now) → ∃ t, exec .traceSync s = .next t ∧ s.Only [.obs, .pins] t ∧
       t.obs = { s.obs with
         sending := [s.clock.meridian.setWidth 32], slotFree := false, syncDue := false, lastSync := some s.now, dropDue := true } ∧
       t.pins = { s.pins with trcMark := true, trcWord := t.pins.trcWord } ∧
       t.pins.trcWord.toNat / 268435456 = 1 ∧ t.pins.trcWord.toNat % 65536 = s.clock.meridian.toNat / 4294967296 ∧
       t.pins.trcWord.toNat / 65536 % 1024 = s.clock.meridian.toNat % 1024))
end

