-- ==== Sys2Proof/Laws/State.lean ====
section
/-! SUPPORT. The projections of the plain updates of State: one lemma per field and update, so that no later proof unfolds a
record update. -/

namespace Sys2Proof.Machine

open Sys2Proof

variable (s : State)

@[simp] theorem State.setWin_pending (w : Window) : (s.setWin w).pending = s.pending := rfl
@[simp] theorem State.setWin_free (w : Window) : (s.setWin w).free = s.free := rfl
@[simp] theorem State.setWin_clock (w : Window) : (s.setWin w).clock = s.clock := rfl
@[simp] theorem State.setWin_pins (w : Window) : (s.setWin w).pins = s.pins := rfl
@[simp] theorem State.setWin_energy (w : Window) : (s.setWin w).energy = s.energy := rfl
@[simp] theorem State.setWin_meas (w : Window) : (s.setWin w).meas = s.meas := rfl
@[simp] theorem State.setWin_loop (w : Window) : (s.setWin w).loop = s.loop := rfl
@[simp] theorem State.setWin_win (w : Window) : (s.setWin w).win = w := rfl
@[simp] theorem State.setWin_mgmt (w : Window) : (s.setWin w).mgmt = s.mgmt := rfl
@[simp] theorem State.setWin_isl (w : Window) : (s.setWin w).isl = s.isl := rfl
@[simp] theorem State.setWin_ready (w : Window) : (s.setWin w).ready = s.ready := rfl
@[simp] theorem State.setWin_boot (w : Window) : (s.setWin w).boot = s.boot := rfl
@[simp] theorem State.setWin_faults (w : Window) : (s.setWin w).faults = s.faults := rfl
@[simp] theorem State.setWin_ports (w : Window) : (s.setWin w).ports = s.ports := rfl
@[simp] theorem State.setWin_decoder (w : Window) : (s.setWin w).decoder = s.decoder := rfl
@[simp] theorem State.setWin_decFree (w : Window) : (s.setWin w).decFree = s.decFree := rfl
@[simp] theorem State.setWin_dspFree (w : Window) : (s.setWin w).dspFree = s.dspFree := rfl
@[simp] theorem State.setWin_fsk (w : Window) : (s.setWin w).fsk = s.fsk := rfl
@[simp] theorem State.setWin_fab (w : Window) : (s.setWin w).fab = s.fab := rfl
@[simp] theorem State.setWin_nvm (w : Window) : (s.setWin w).nvm = s.nvm := rfl
@[simp] theorem State.setWin_obs (w : Window) : (s.setWin w).obs = s.obs := rfl

@[simp] theorem State.setMgmt_pending (m : Mgmt) : (s.setMgmt m).pending = s.pending := rfl
@[simp] theorem State.setMgmt_free (m : Mgmt) : (s.setMgmt m).free = s.free := rfl
@[simp] theorem State.setMgmt_clock (m : Mgmt) : (s.setMgmt m).clock = s.clock := rfl
@[simp] theorem State.setMgmt_pins (m : Mgmt) : (s.setMgmt m).pins = s.pins := rfl
@[simp] theorem State.setMgmt_energy (m : Mgmt) : (s.setMgmt m).energy = s.energy := rfl
@[simp] theorem State.setMgmt_meas (m : Mgmt) : (s.setMgmt m).meas = s.meas := rfl
@[simp] theorem State.setMgmt_loop (m : Mgmt) : (s.setMgmt m).loop = s.loop := rfl
@[simp] theorem State.setMgmt_win (m : Mgmt) : (s.setMgmt m).win = s.win := rfl
@[simp] theorem State.setMgmt_mgmt (m : Mgmt) : (s.setMgmt m).mgmt = m := rfl
@[simp] theorem State.setMgmt_isl (m : Mgmt) : (s.setMgmt m).isl = s.isl := rfl
@[simp] theorem State.setMgmt_ready (m : Mgmt) : (s.setMgmt m).ready = s.ready := rfl
@[simp] theorem State.setMgmt_boot (m : Mgmt) : (s.setMgmt m).boot = s.boot := rfl
@[simp] theorem State.setMgmt_faults (m : Mgmt) : (s.setMgmt m).faults = s.faults := rfl
@[simp] theorem State.setMgmt_ports (m : Mgmt) : (s.setMgmt m).ports = s.ports := rfl
@[simp] theorem State.setMgmt_decoder (m : Mgmt) : (s.setMgmt m).decoder = s.decoder := rfl
@[simp] theorem State.setMgmt_decFree (m : Mgmt) : (s.setMgmt m).decFree = s.decFree := rfl
@[simp] theorem State.setMgmt_dspFree (m : Mgmt) : (s.setMgmt m).dspFree = s.dspFree := rfl
@[simp] theorem State.setMgmt_fsk (m : Mgmt) : (s.setMgmt m).fsk = s.fsk := rfl
@[simp] theorem State.setMgmt_fab (m : Mgmt) : (s.setMgmt m).fab = s.fab := rfl
@[simp] theorem State.setMgmt_nvm (m : Mgmt) : (s.setMgmt m).nvm = s.nvm := rfl
@[simp] theorem State.setMgmt_obs (m : Mgmt) : (s.setMgmt m).obs = s.obs := rfl

@[simp] theorem State.setMeas_pending (m : Meas) : (s.setMeas m).pending = s.pending := rfl
@[simp] theorem State.setMeas_free (m : Meas) : (s.setMeas m).free = s.free := rfl
@[simp] theorem State.setMeas_clock (m : Meas) : (s.setMeas m).clock = s.clock := rfl
@[simp] theorem State.setMeas_pins (m : Meas) : (s.setMeas m).pins = s.pins := rfl
@[simp] theorem State.setMeas_energy (m : Meas) : (s.setMeas m).energy = s.energy := rfl
@[simp] theorem State.setMeas_meas (m : Meas) : (s.setMeas m).meas = m := rfl
@[simp] theorem State.setMeas_loop (m : Meas) : (s.setMeas m).loop = s.loop := rfl
@[simp] theorem State.setMeas_win (m : Meas) : (s.setMeas m).win = s.win := rfl
@[simp] theorem State.setMeas_mgmt (m : Meas) : (s.setMeas m).mgmt = s.mgmt := rfl
@[simp] theorem State.setMeas_isl (m : Meas) : (s.setMeas m).isl = s.isl := rfl
@[simp] theorem State.setMeas_ready (m : Meas) : (s.setMeas m).ready = s.ready := rfl
@[simp] theorem State.setMeas_boot (m : Meas) : (s.setMeas m).boot = s.boot := rfl
@[simp] theorem State.setMeas_faults (m : Meas) : (s.setMeas m).faults = s.faults := rfl
@[simp] theorem State.setMeas_ports (m : Meas) : (s.setMeas m).ports = s.ports := rfl
@[simp] theorem State.setMeas_decoder (m : Meas) : (s.setMeas m).decoder = s.decoder := rfl
@[simp] theorem State.setMeas_decFree (m : Meas) : (s.setMeas m).decFree = s.decFree := rfl
@[simp] theorem State.setMeas_dspFree (m : Meas) : (s.setMeas m).dspFree = s.dspFree := rfl
@[simp] theorem State.setMeas_fsk (m : Meas) : (s.setMeas m).fsk = s.fsk := rfl
@[simp] theorem State.setMeas_fab (m : Meas) : (s.setMeas m).fab = s.fab := rfl
@[simp] theorem State.setMeas_nvm (m : Meas) : (s.setMeas m).nvm = s.nvm := rfl
@[simp] theorem State.setMeas_obs (m : Meas) : (s.setMeas m).obs = s.obs := rfl

@[simp] theorem State.setLoop_pending (l : LoopOut) : (s.setLoop l).pending = s.pending := rfl
@[simp] theorem State.setLoop_free (l : LoopOut) : (s.setLoop l).free = s.free := rfl
@[simp] theorem State.setLoop_clock (l : LoopOut) : (s.setLoop l).clock = s.clock := rfl
@[simp] theorem State.setLoop_pins (l : LoopOut) : (s.setLoop l).pins = s.pins := rfl
@[simp] theorem State.setLoop_energy (l : LoopOut) : (s.setLoop l).energy = s.energy := rfl
@[simp] theorem State.setLoop_meas (l : LoopOut) : (s.setLoop l).meas = s.meas := rfl
@[simp] theorem State.setLoop_loop (l : LoopOut) : (s.setLoop l).loop = l := rfl
@[simp] theorem State.setLoop_win (l : LoopOut) : (s.setLoop l).win = s.win := rfl
@[simp] theorem State.setLoop_mgmt (l : LoopOut) : (s.setLoop l).mgmt = s.mgmt := rfl
@[simp] theorem State.setLoop_isl (l : LoopOut) : (s.setLoop l).isl = s.isl := rfl
@[simp] theorem State.setLoop_ready (l : LoopOut) : (s.setLoop l).ready = s.ready := rfl
@[simp] theorem State.setLoop_boot (l : LoopOut) : (s.setLoop l).boot = s.boot := rfl
@[simp] theorem State.setLoop_faults (l : LoopOut) : (s.setLoop l).faults = s.faults := rfl
@[simp] theorem State.setLoop_ports (l : LoopOut) : (s.setLoop l).ports = s.ports := rfl
@[simp] theorem State.setLoop_decoder (l : LoopOut) : (s.setLoop l).decoder = s.decoder := rfl
@[simp] theorem State.setLoop_decFree (l : LoopOut) : (s.setLoop l).decFree = s.decFree := rfl
@[simp] theorem State.setLoop_dspFree (l : LoopOut) : (s.setLoop l).dspFree = s.dspFree := rfl
@[simp] theorem State.setLoop_fsk (l : LoopOut) : (s.setLoop l).fsk = s.fsk := rfl
@[simp] theorem State.setLoop_fab (l : LoopOut) : (s.setLoop l).fab = s.fab := rfl
@[simp] theorem State.setLoop_nvm (l : LoopOut) : (s.setLoop l).nvm = s.nvm := rfl
@[simp] theorem State.setLoop_obs (l : LoopOut) : (s.setLoop l).obs = s.obs := rfl

@[simp] theorem State.setFab_pending (f : Fabric) : (s.setFab f).pending = s.pending := rfl
@[simp] theorem State.setFab_free (f : Fabric) : (s.setFab f).free = s.free := rfl
@[simp] theorem State.setFab_clock (f : Fabric) : (s.setFab f).clock = s.clock := rfl
@[simp] theorem State.setFab_pins (f : Fabric) : (s.setFab f).pins = s.pins := rfl
@[simp] theorem State.setFab_energy (f : Fabric) : (s.setFab f).energy = s.energy := rfl
@[simp] theorem State.setFab_meas (f : Fabric) : (s.setFab f).meas = s.meas := rfl
@[simp] theorem State.setFab_loop (f : Fabric) : (s.setFab f).loop = s.loop := rfl
@[simp] theorem State.setFab_win (f : Fabric) : (s.setFab f).win = s.win := rfl
@[simp] theorem State.setFab_mgmt (f : Fabric) : (s.setFab f).mgmt = s.mgmt := rfl
@[simp] theorem State.setFab_isl (f : Fabric) : (s.setFab f).isl = s.isl := rfl
@[simp] theorem State.setFab_ready (f : Fabric) : (s.setFab f).ready = s.ready := rfl
@[simp] theorem State.setFab_boot (f : Fabric) : (s.setFab f).boot = s.boot := rfl
@[simp] theorem State.setFab_faults (f : Fabric) : (s.setFab f).faults = s.faults := rfl
@[simp] theorem State.setFab_ports (f : Fabric) : (s.setFab f).ports = s.ports := rfl
@[simp] theorem State.setFab_decoder (f : Fabric) : (s.setFab f).decoder = s.decoder := rfl
@[simp] theorem State.setFab_decFree (f : Fabric) : (s.setFab f).decFree = s.decFree := rfl
@[simp] theorem State.setFab_dspFree (f : Fabric) : (s.setFab f).dspFree = s.dspFree := rfl
@[simp] theorem State.setFab_fsk (f : Fabric) : (s.setFab f).fsk = s.fsk := rfl
@[simp] theorem State.setFab_fab (f : Fabric) : (s.setFab f).fab = f := rfl
@[simp] theorem State.setFab_nvm (f : Fabric) : (s.setFab f).nvm = s.nvm := rfl
@[simp] theorem State.setFab_obs (f : Fabric) : (s.setFab f).obs = s.obs := rfl

@[simp] theorem State.setFaults_pending (f : Faults) : (s.setFaults f).pending = s.pending := rfl
@[simp] theorem State.setFaults_free (f : Faults) : (s.setFaults f).free = s.free := rfl
@[simp] theorem State.setFaults_clock (f : Faults) : (s.setFaults f).clock = s.clock := rfl
@[simp] theorem State.setFaults_pins (f : Faults) : (s.setFaults f).pins = s.pins := rfl
@[simp] theorem State.setFaults_energy (f : Faults) : (s.setFaults f).energy = s.energy := rfl
@[simp] theorem State.setFaults_meas (f : Faults) : (s.setFaults f).meas = s.meas := rfl
@[simp] theorem State.setFaults_loop (f : Faults) : (s.setFaults f).loop = s.loop := rfl
@[simp] theorem State.setFaults_win (f : Faults) : (s.setFaults f).win = s.win := rfl
@[simp] theorem State.setFaults_mgmt (f : Faults) : (s.setFaults f).mgmt = s.mgmt := rfl
@[simp] theorem State.setFaults_isl (f : Faults) : (s.setFaults f).isl = s.isl := rfl
@[simp] theorem State.setFaults_ready (f : Faults) : (s.setFaults f).ready = s.ready := rfl
@[simp] theorem State.setFaults_boot (f : Faults) : (s.setFaults f).boot = s.boot := rfl
@[simp] theorem State.setFaults_faults (f : Faults) : (s.setFaults f).faults = f := rfl
@[simp] theorem State.setFaults_ports (f : Faults) : (s.setFaults f).ports = s.ports := rfl
@[simp] theorem State.setFaults_decoder (f : Faults) : (s.setFaults f).decoder = s.decoder := rfl
@[simp] theorem State.setFaults_decFree (f : Faults) : (s.setFaults f).decFree = s.decFree := rfl
@[simp] theorem State.setFaults_dspFree (f : Faults) : (s.setFaults f).dspFree = s.dspFree := rfl
@[simp] theorem State.setFaults_fsk (f : Faults) : (s.setFaults f).fsk = s.fsk := rfl
@[simp] theorem State.setFaults_fab (f : Faults) : (s.setFaults f).fab = s.fab := rfl
@[simp] theorem State.setFaults_nvm (f : Faults) : (s.setFaults f).nvm = s.nvm := rfl
@[simp] theorem State.setFaults_obs (f : Faults) : (s.setFaults f).obs = s.obs := rfl

@[simp] theorem State.setEnergy_pending (e : Energy) : (s.setEnergy e).pending = s.pending := rfl
@[simp] theorem State.setEnergy_free (e : Energy) : (s.setEnergy e).free = s.free := rfl
@[simp] theorem State.setEnergy_clock (e : Energy) : (s.setEnergy e).clock = s.clock := rfl
@[simp] theorem State.setEnergy_pins (e : Energy) : (s.setEnergy e).pins = s.pins := rfl
@[simp] theorem State.setEnergy_energy (e : Energy) : (s.setEnergy e).energy = e := rfl
@[simp] theorem State.setEnergy_meas (e : Energy) : (s.setEnergy e).meas = s.meas := rfl
@[simp] theorem State.setEnergy_loop (e : Energy) : (s.setEnergy e).loop = s.loop := rfl
@[simp] theorem State.setEnergy_win (e : Energy) : (s.setEnergy e).win = s.win := rfl
@[simp] theorem State.setEnergy_mgmt (e : Energy) : (s.setEnergy e).mgmt = s.mgmt := rfl
@[simp] theorem State.setEnergy_isl (e : Energy) : (s.setEnergy e).isl = s.isl := rfl
@[simp] theorem State.setEnergy_ready (e : Energy) : (s.setEnergy e).ready = s.ready := rfl
@[simp] theorem State.setEnergy_boot (e : Energy) : (s.setEnergy e).boot = s.boot := rfl
@[simp] theorem State.setEnergy_faults (e : Energy) : (s.setEnergy e).faults = s.faults := rfl
@[simp] theorem State.setEnergy_ports (e : Energy) : (s.setEnergy e).ports = s.ports := rfl
@[simp] theorem State.setEnergy_decoder (e : Energy) : (s.setEnergy e).decoder = s.decoder := rfl
@[simp] theorem State.setEnergy_decFree (e : Energy) : (s.setEnergy e).decFree = s.decFree := rfl
@[simp] theorem State.setEnergy_dspFree (e : Energy) : (s.setEnergy e).dspFree = s.dspFree := rfl
@[simp] theorem State.setEnergy_fsk (e : Energy) : (s.setEnergy e).fsk = s.fsk := rfl
@[simp] theorem State.setEnergy_fab (e : Energy) : (s.setEnergy e).fab = s.fab := rfl
@[simp] theorem State.setEnergy_nvm (e : Energy) : (s.setEnergy e).nvm = s.nvm := rfl
@[simp] theorem State.setEnergy_obs (e : Energy) : (s.setEnergy e).obs = s.obs := rfl

@[simp] theorem State.setObs_pending (o : Obs) : (s.setObs o).pending = s.pending := rfl
@[simp] theorem State.setObs_free (o : Obs) : (s.setObs o).free = s.free := rfl
@[simp] theorem State.setObs_clock (o : Obs) : (s.setObs o).clock = s.clock := rfl
@[simp] theorem State.setObs_pins (o : Obs) : (s.setObs o).pins = s.pins := rfl
@[simp] theorem State.setObs_energy (o : Obs) : (s.setObs o).energy = s.energy := rfl
@[simp] theorem State.setObs_meas (o : Obs) : (s.setObs o).meas = s.meas := rfl
@[simp] theorem State.setObs_loop (o : Obs) : (s.setObs o).loop = s.loop := rfl
@[simp] theorem State.setObs_win (o : Obs) : (s.setObs o).win = s.win := rfl
@[simp] theorem State.setObs_mgmt (o : Obs) : (s.setObs o).mgmt = s.mgmt := rfl
@[simp] theorem State.setObs_isl (o : Obs) : (s.setObs o).isl = s.isl := rfl
@[simp] theorem State.setObs_ready (o : Obs) : (s.setObs o).ready = s.ready := rfl
@[simp] theorem State.setObs_boot (o : Obs) : (s.setObs o).boot = s.boot := rfl
@[simp] theorem State.setObs_faults (o : Obs) : (s.setObs o).faults = s.faults := rfl
@[simp] theorem State.setObs_ports (o : Obs) : (s.setObs o).ports = s.ports := rfl
@[simp] theorem State.setObs_decoder (o : Obs) : (s.setObs o).decoder = s.decoder := rfl
@[simp] theorem State.setObs_decFree (o : Obs) : (s.setObs o).decFree = s.decFree := rfl
@[simp] theorem State.setObs_dspFree (o : Obs) : (s.setObs o).dspFree = s.dspFree := rfl
@[simp] theorem State.setObs_fsk (o : Obs) : (s.setObs o).fsk = s.fsk := rfl
@[simp] theorem State.setObs_fab (o : Obs) : (s.setObs o).fab = s.fab := rfl
@[simp] theorem State.setObs_nvm (o : Obs) : (s.setObs o).nvm = s.nvm := rfl
@[simp] theorem State.setObs_obs (o : Obs) : (s.setObs o).obs = o := rfl

@[simp] theorem State.setNvm_pending (n : Nvm) : (s.setNvm n).pending = s.pending := rfl
@[simp] theorem State.setNvm_free (n : Nvm) : (s.setNvm n).free = s.free := rfl
@[simp] theorem State.setNvm_clock (n : Nvm) : (s.setNvm n).clock = s.clock := rfl
@[simp] theorem State.setNvm_pins (n : Nvm) : (s.setNvm n).pins = s.pins := rfl
@[simp] theorem State.setNvm_energy (n : Nvm) : (s.setNvm n).energy = s.energy := rfl
@[simp] theorem State.setNvm_meas (n : Nvm) : (s.setNvm n).meas = s.meas := rfl
@[simp] theorem State.setNvm_loop (n : Nvm) : (s.setNvm n).loop = s.loop := rfl
@[simp] theorem State.setNvm_win (n : Nvm) : (s.setNvm n).win = s.win := rfl
@[simp] theorem State.setNvm_mgmt (n : Nvm) : (s.setNvm n).mgmt = s.mgmt := rfl
@[simp] theorem State.setNvm_isl (n : Nvm) : (s.setNvm n).isl = s.isl := rfl
@[simp] theorem State.setNvm_ready (n : Nvm) : (s.setNvm n).ready = s.ready := rfl
@[simp] theorem State.setNvm_boot (n : Nvm) : (s.setNvm n).boot = s.boot := rfl
@[simp] theorem State.setNvm_faults (n : Nvm) : (s.setNvm n).faults = s.faults := rfl
@[simp] theorem State.setNvm_ports (n : Nvm) : (s.setNvm n).ports = s.ports := rfl
@[simp] theorem State.setNvm_decoder (n : Nvm) : (s.setNvm n).decoder = s.decoder := rfl
@[simp] theorem State.setNvm_decFree (n : Nvm) : (s.setNvm n).decFree = s.decFree := rfl
@[simp] theorem State.setNvm_dspFree (n : Nvm) : (s.setNvm n).dspFree = s.dspFree := rfl
@[simp] theorem State.setNvm_fsk (n : Nvm) : (s.setNvm n).fsk = s.fsk := rfl
@[simp] theorem State.setNvm_fab (n : Nvm) : (s.setNvm n).fab = s.fab := rfl
@[simp] theorem State.setNvm_nvm (n : Nvm) : (s.setNvm n).nvm = n := rfl
@[simp] theorem State.setNvm_obs (n : Nvm) : (s.setNvm n).obs = s.obs := rfl

@[simp] theorem State.setPins_pending (p : Pins) : (s.setPins p).pending = s.pending := rfl
@[simp] theorem State.setPins_free (p : Pins) : (s.setPins p).free = s.free := rfl
@[simp] theorem State.setPins_clock (p : Pins) : (s.setPins p).clock = s.clock := rfl
@[simp] theorem State.setPins_pins (p : Pins) : (s.setPins p).pins = p := rfl
@[simp] theorem State.setPins_energy (p : Pins) : (s.setPins p).energy = s.energy := rfl
@[simp] theorem State.setPins_meas (p : Pins) : (s.setPins p).meas = s.meas := rfl
@[simp] theorem State.setPins_loop (p : Pins) : (s.setPins p).loop = s.loop := rfl
@[simp] theorem State.setPins_win (p : Pins) : (s.setPins p).win = s.win := rfl
@[simp] theorem State.setPins_mgmt (p : Pins) : (s.setPins p).mgmt = s.mgmt := rfl
@[simp] theorem State.setPins_isl (p : Pins) : (s.setPins p).isl = s.isl := rfl
@[simp] theorem State.setPins_ready (p : Pins) : (s.setPins p).ready = s.ready := rfl
@[simp] theorem State.setPins_boot (p : Pins) : (s.setPins p).boot = s.boot := rfl
@[simp] theorem State.setPins_faults (p : Pins) : (s.setPins p).faults = s.faults := rfl
@[simp] theorem State.setPins_ports (p : Pins) : (s.setPins p).ports = s.ports := rfl
@[simp] theorem State.setPins_decoder (p : Pins) : (s.setPins p).decoder = s.decoder := rfl
@[simp] theorem State.setPins_decFree (p : Pins) : (s.setPins p).decFree = s.decFree := rfl
@[simp] theorem State.setPins_dspFree (p : Pins) : (s.setPins p).dspFree = s.dspFree := rfl
@[simp] theorem State.setPins_fsk (p : Pins) : (s.setPins p).fsk = s.fsk := rfl
@[simp] theorem State.setPins_fab (p : Pins) : (s.setPins p).fab = s.fab := rfl
@[simp] theorem State.setPins_nvm (p : Pins) : (s.setPins p).nvm = s.nvm := rfl
@[simp] theorem State.setPins_obs (p : Pins) : (s.setPins p).obs = s.obs := rfl

@[simp] theorem State.setPort_pending (p : Port) (x : PortSt) : (s.setPort p x).pending = s.pending := rfl
@[simp] theorem State.setPort_free (p : Port) (x : PortSt) : (s.setPort p x).free = s.free := rfl
@[simp] theorem State.setPort_clock (p : Port) (x : PortSt) : (s.setPort p x).clock = s.clock := rfl
@[simp] theorem State.setPort_pins (p : Port) (x : PortSt) : (s.setPort p x).pins = s.pins := rfl
@[simp] theorem State.setPort_energy (p : Port) (x : PortSt) : (s.setPort p x).energy = s.energy := rfl
@[simp] theorem State.setPort_meas (p : Port) (x : PortSt) : (s.setPort p x).meas = s.meas := rfl
@[simp] theorem State.setPort_loop (p : Port) (x : PortSt) : (s.setPort p x).loop = s.loop := rfl
@[simp] theorem State.setPort_win (p : Port) (x : PortSt) : (s.setPort p x).win = s.win := rfl
@[simp] theorem State.setPort_mgmt (p : Port) (x : PortSt) : (s.setPort p x).mgmt = s.mgmt := rfl
@[simp] theorem State.setPort_isl (p : Port) (x : PortSt) : (s.setPort p x).isl = s.isl := rfl
@[simp] theorem State.setPort_ready (p : Port) (x : PortSt) : (s.setPort p x).ready = s.ready := rfl
@[simp] theorem State.setPort_boot (p : Port) (x : PortSt) : (s.setPort p x).boot = s.boot := rfl
@[simp] theorem State.setPort_faults (p : Port) (x : PortSt) : (s.setPort p x).faults = s.faults := rfl
@[simp] theorem State.setPort_ports (p : Port) (x : PortSt) : (s.setPort p x).ports = s.ports.put p x := rfl
@[simp] theorem State.setPort_decoder (p : Port) (x : PortSt) : (s.setPort p x).decoder = s.decoder := rfl
@[simp] theorem State.setPort_decFree (p : Port) (x : PortSt) : (s.setPort p x).decFree = s.decFree := rfl
@[simp] theorem State.setPort_dspFree (p : Port) (x : PortSt) : (s.setPort p x).dspFree = s.dspFree := rfl
@[simp] theorem State.setPort_fsk (p : Port) (x : PortSt) : (s.setPort p x).fsk = s.fsk := rfl
@[simp] theorem State.setPort_fab (p : Port) (x : PortSt) : (s.setPort p x).fab = s.fab := rfl
@[simp] theorem State.setPort_nvm (p : Port) (x : PortSt) : (s.setPort p x).nvm = s.nvm := rfl
@[simp] theorem State.setPort_obs (p : Port) (x : PortSt) : (s.setPort p x).obs = s.obs := rfl

@[simp] theorem State.setIsl_pending (i : Island) (x : Isl) : (s.setIsl i x).pending = s.pending := rfl
@[simp] theorem State.setIsl_free (i : Island) (x : Isl) : (s.setIsl i x).free = s.free := rfl
@[simp] theorem State.setIsl_clock (i : Island) (x : Isl) : (s.setIsl i x).clock = s.clock := rfl
@[simp] theorem State.setIsl_pins (i : Island) (x : Isl) : (s.setIsl i x).pins = s.pins := rfl
@[simp] theorem State.setIsl_energy (i : Island) (x : Isl) : (s.setIsl i x).energy = s.energy := rfl
@[simp] theorem State.setIsl_meas (i : Island) (x : Isl) : (s.setIsl i x).meas = s.meas := rfl
@[simp] theorem State.setIsl_loop (i : Island) (x : Isl) : (s.setIsl i x).loop = s.loop := rfl
@[simp] theorem State.setIsl_win (i : Island) (x : Isl) : (s.setIsl i x).win = s.win := rfl
@[simp] theorem State.setIsl_mgmt (i : Island) (x : Isl) : (s.setIsl i x).mgmt = s.mgmt := rfl
@[simp] theorem State.setIsl_isl (i : Island) (x : Isl) : (s.setIsl i x).isl = s.isl.put i x := rfl
@[simp] theorem State.setIsl_ready (i : Island) (x : Isl) : (s.setIsl i x).ready = s.ready := rfl
@[simp] theorem State.setIsl_boot (i : Island) (x : Isl) : (s.setIsl i x).boot = s.boot := rfl
@[simp] theorem State.setIsl_faults (i : Island) (x : Isl) : (s.setIsl i x).faults = s.faults := rfl
@[simp] theorem State.setIsl_ports (i : Island) (x : Isl) : (s.setIsl i x).ports = s.ports := rfl
@[simp] theorem State.setIsl_decoder (i : Island) (x : Isl) : (s.setIsl i x).decoder = s.decoder := rfl
@[simp] theorem State.setIsl_decFree (i : Island) (x : Isl) : (s.setIsl i x).decFree = s.decFree := rfl
@[simp] theorem State.setIsl_dspFree (i : Island) (x : Isl) : (s.setIsl i x).dspFree = s.dspFree := rfl
@[simp] theorem State.setIsl_fsk (i : Island) (x : Isl) : (s.setIsl i x).fsk = s.fsk := rfl
@[simp] theorem State.setIsl_fab (i : Island) (x : Isl) : (s.setIsl i x).fab = s.fab := rfl
@[simp] theorem State.setIsl_nvm (i : Island) (x : Isl) : (s.setIsl i x).nvm = s.nvm := rfl
@[simp] theorem State.setIsl_obs (i : Island) (x : Isl) : (s.setIsl i x).obs = s.obs := rfl

/-! ## One value per island, one per port -/

variable {α : Type}

@[simp] theorem Quad.at_put_same (q : Quad α) (i : Island) (x : α) : (q.put i x).at i = x := by cases i <;> rfl

theorem Quad.at_put_ne (q : Quad α) {i j : Island} (x : α) (h : j ≠ i) : (q.put i x).at j = q.at j := by
  cases i <;> cases j <;> first | rfl | exact absurd rfl h

@[simp] theorem Quad.at_all (x : α) (i : Island) : (Quad.all x).at i = x := by cases i <;> rfl

@[simp] theorem Pair.at_put_same (q : Pair α) (p : Port) (x : α) : (q.put p x).at p = x := by cases p <;> rfl

theorem Pair.at_put_ne (q : Pair α) {p r : Port} (x : α) (h : r ≠ p) : (q.put p x).at r = q.at r := by
  cases p <;> cases r <;> first | rfl | exact absurd rfl h

end Sys2Proof.Machine
end

