-- ==== Sys2Proof/Laws/Memory.lean ====
section
/-! SUPPORT. The memory of the window and of the image slots: what a read gives after a write, and that every write keeps the
canonical form. -/

namespace Sys2Proof.Machine

open Sys2Proof

/-! ## One byte -/

theorem cellRead_cellWrite (m : List Host.Cell) (k : Nat) (v : Byte) (a : Nat)
    (h : m.Pairwise fun x y => x.1 < y.1) :
    cellRead (cellWrite m k v) a = if a = k then v else cellRead m a := by
  induction m with
  | nil =>
    rw [cellWrite]
    split
    · next hv => rw [hv]; simp [cellRead]
    · simp only [cellRead]; split <;> split <;> simp_all
  | cons c l ih =>
    obtain ⟨b, w⟩ := c
    obtain ⟨hb, hl⟩ := List.pairwise_cons.mp h
    have absent : ∀ x, (∀ y ∈ l, x < y.1) → cellRead l x = 0 := by
      intro x hx
      clear ih h hb hl
      induction l with
      | nil => rfl
      | cons d l ih2 =>
        have := hx d (by simp)
        rw [cellRead, if_neg (by omega)]
        exact ih2 fun y hy => hx y (by simp [hy])
    rw [cellWrite]
    split
    · next hk =>
      by_cases hv : v = 0
      · rw [if_pos hv]
        by_cases ha : a = k
        · have : cellRead ((b, w) :: l) a = 0 := by
            rw [cellRead, if_neg (by omega)]
            exact absent a fun y hy => by have := hb y hy; omega
          rw [this, if_pos ha, hv]
        · rw [if_neg ha]
      · rw [if_neg hv, cellRead]
        by_cases ha : a = k
        · rw [if_pos ha.symm, if_pos ha]
        · rw [if_neg (Ne.symm ha), if_neg ha]
    · split
      · next hk =>
        subst hk
        by_cases ha : a = k
        · subst ha
          by_cases hv : v = 0
          · rw [if_pos hv, if_pos rfl, hv]
            exact absent a hb
          · rw [if_neg hv, cellRead, if_pos rfl, if_pos rfl]
        · by_cases hv : v = 0
          · rw [if_pos hv, if_neg ha, cellRead, if_neg (Ne.symm ha)]
          · rw [if_neg hv, if_neg ha, cellRead, cellRead, if_neg (Ne.symm ha), if_neg (Ne.symm ha)]
      · next h1 h2 =>
        rw [cellRead, cellRead, ih hl]
        by_cases hab : b = a
        · rw [if_pos hab, if_pos hab, if_neg (by omega)]
        · rw [if_neg hab, if_neg hab]

theorem mem_cellWrite {m : List Host.Cell} {k : Nat} {v : Byte} {c : Host.Cell} (h : c ∈ cellWrite m k v) :
    (c = (k, v) ∧ v ≠ 0) ∨ c ∈ m := by
  induction m with
  | nil =>
    rw [cellWrite] at h
    split at h
    · simp at h
    · next hv => exact .inl ⟨by simpa using h, hv⟩
  | cons d l ih =>
    obtain ⟨b, w⟩ := d
    rw [cellWrite] at h
    split at h
    · split at h
      · exact .inr h
      · next hv => exact (List.mem_cons.mp h).imp (fun e => ⟨e, hv⟩) id
    · split at h
      · split at h
        · exact .inr (List.mem_cons_of_mem _ h)
        · next hv => exact (List.mem_cons.mp h).imp (fun e => ⟨e, hv⟩) (List.mem_cons_of_mem _)
      · rcases List.mem_cons.mp h with e | e
        · exact .inr (e ▸ List.mem_cons_self)
        · exact (ih e).imp id (List.mem_cons_of_mem _)

theorem cellWrite_pairwise {m : List Host.Cell} (k : Nat) (v : Byte) (h : m.Pairwise fun x y => x.1 < y.1) :
    (cellWrite m k v).Pairwise fun x y => x.1 < y.1 := by
  induction m with
  | nil => rw [cellWrite]; split <;> simp
  | cons d l ih =>
    obtain ⟨b, w⟩ := d
    obtain ⟨hb, hl⟩ := List.pairwise_cons.mp h
    rw [cellWrite]
    split
    · next hk =>
      split
      · exact h
      · refine List.pairwise_cons.mpr ⟨fun y hy => ?_, h⟩
        rcases List.mem_cons.mp hy with e | e
        · subst e; exact hk
        · have := hb y e; simp only at this; omega
    · split
      · next hk =>
        split
        · exact hl
        · subst hk; exact List.pairwise_cons.mpr ⟨hb, hl⟩
      · refine List.pairwise_cons.mpr ⟨fun y hy => ?_, ih hl⟩
        rcases mem_cellWrite hy with ⟨e, -⟩ | e
        · subst e; simp only; omega
        · exact hb y e

theorem Memory.wf_iff (m : List Host.Cell) :
    Memory.wf m = true ↔ (m.Pairwise fun x y => x.1 < y.1) ∧ ∀ c ∈ m, c.2 ≠ 0 := by
  simp [Memory.wf]

/-- One written byte keeps the canonical form. -/
theorem cellWrite_wf {m : List Host.Cell} (k : Nat) (v : Byte) (h : Memory.wf m = true) : Memory.wf (cellWrite m k v) = true := by
  rw [Memory.wf_iff] at h ⊢
  refine ⟨cellWrite_pairwise k v h.1, fun c hc => ?_⟩
  rcases mem_cellWrite hc with ⟨e, hv⟩ | e
  · subst e; exact hv
  · exact h.2 c e

/-! ## Several bytes -/

/-- Written bytes keep the canonical form. -/
theorem cellsWrite_wf {m : List Host.Cell} (a : Nat) (bs : List Byte) (h : Memory.wf m = true) :
    Memory.wf (cellsWrite m a bs) = true := by
  induction bs generalizing m a with
  | nil => exact h
  | cons b bs ih => exact ih (a + 1) (cellWrite_wf a b h)

/-- A read after writing bytes from an address on: the byte written there, else what was there. -/
theorem cellRead_cellsWrite {m : List Host.Cell} (a : Nat) (bs : List Byte) (x : Nat) (h : Memory.wf m = true) :
    cellRead (cellsWrite m a bs) x = if a ≤ x ∧ x < a + bs.length then bs.getD (x - a) 0 else cellRead m x := by
  induction bs generalizing m a with
  | nil => simp [cellsWrite]
  | cons b bs ih =>
    rw [cellsWrite, ih (a + 1) (cellWrite_wf a b h), cellRead_cellWrite _ _ _ _ ((Memory.wf_iff m).mp h).1]
    by_cases hx : x = a
    · subst hx; simp
    · by_cases hi : a ≤ x ∧ x < a + (b :: bs).length
      · have e : x - a = (x - (a + 1)) + 1 := by omega
        rw [if_pos hi, if_pos (by simp at hi; omega), e]; rfl
      · rw [if_neg hi, if_neg (by simp at hi; omega), if_neg hx]

@[simp] theorem cellsRead_length (m : List Host.Cell) (a n : Nat) : (cellsRead m a n).length = n := by simp [cellsRead]

end Sys2Proof.Machine
end

