-- ==== Sys2Proof/Laws/Reply.lean ====
section
/-! SUPPORT. What sending a reply does, once: frames of the operations that post, write and free buffers, and with them what
completing a command changes (State.Replied). -/

namespace Sys2Proof.Machine

open Sys2Proof

/-! ## Counters and trace messages -/

theorem Ctr.idx_inj {c d : Ctr} (h : c.idx = d.idx) : c = d := by
  cases c <;> cases d <;> first | rfl | exact absurd h (by decide)

theorem Ctr.idx_lt (c : Ctr) : c.idx < 48 := by cases c <;> decide

theorem Obs.count_other (o : Obs) {c d : Ctr} (n : Nat) (h : d ≠ c) : (o.count c n).live.getD d.idx 0 = o.live.getD d.idx 0 := by
  have hne : c.idx ≠ d.idx := fun e => h (Ctr.idx_inj e.symm)
  simp [Obs.count, Vector.getD, hne]

theorem Obs.count_self (o : Obs) (c : Ctr) (n : Nat) :
    (o.count c n).live.getD c.idx 0 = min (o.live.getD c.idx 0 + n) 0xFFFFFFFF := by
  simp [Obs.count, Vector.getD, Ctr.idx_lt]

theorem State.CountersBut.refl (cs : List Ctr) (s : State) : s.CountersBut cs s := ⟨rfl, fun _ _ => rfl⟩

theorem State.CountersBut.trans {cs : List Ctr} {s t u : State} (h : s.CountersBut cs t) (k : t.CountersBut cs u) :
    s.CountersBut cs u := ⟨by rw [k.1, h.1], fun c hc => (k.2 c hc).trans (h.2 c hc)⟩

theorem State.CountersBut.mono {cs ds : List Ctr} {s t : State} (h : s.CountersBut cs t) (hs : ∀ c ∈ cs, c ∈ ds) :
    s.CountersBut ds t := ⟨h.1, fun c hc => h.2 c fun hm => hc (hs c hm)⟩

/-- A counted event. -/
theorem State.countN_counters (s : State) (c : Ctr) (n : Nat) : s.CountersBut [c] (s.countN c n) :=
  ⟨rfl, fun _ hd => Obs.count_other s.obs n (by simpa using hd)⟩

/-- A traced message changes nothing but the trace side of observation. -/
theorem State.emit_eq (s : State) (i : Island) (typ hdr : Nat) (more : List Nat) :
    ∃ o, s.emit i typ hdr more = s.setObs o ∧ s.OnlyTrace (s.setObs o) := by
  unfold State.emit
  dsimp only
  split
  · exact ⟨_, rfl, rfl, fun _ _ => rfl⟩
  · unfold State.traceLost
    split
    · refine ⟨_, rfl, rfl, fun c hc => ?_⟩
      exact Obs.count_other _ _ (by simpa using hc)
    · exact ⟨s.obs, rfl, rfl, fun _ _ => rfl⟩

theorem State.Only.refl (ps : List Part) (s : State) : s.Only ps s := ⟨rfl, fun q _ => by cases q <;> rfl⟩

theorem State.Only.trans {ps : List Part} {s t u : State} (h : s.Only ps t) (k : t.Only ps u) : s.Only ps u := by
  refine ⟨k.1.trans h.1, fun q hq => ?_⟩
  have a := h.2 q hq
  have b := k.2 q hq
  cases q <;> simp_all [Part.same]

theorem State.Only.mono {ps qs : List Part} {s t : State} (h : s.Only ps t) (hs : ∀ q ∈ ps, q ∈ qs) : s.Only qs t :=
  ⟨h.1, fun q hq => h.2 q fun hm => hq (hs q hm)⟩

theorem State.setObs_only (s : State) (o : Obs) : s.Only [.obs] (s.setObs o) :=
  ⟨rfl, fun q hq => by cases q <;> first | rfl | simp at hq⟩

theorem State.setWin_only (s : State) (w : Window) : s.Only [.win] (s.setWin w) :=
  ⟨rfl, fun q hq => by cases q <;> first | rfl | simp at hq⟩

theorem State.setMgmt_only (s : State) (m : Mgmt) : s.Only [.mgmt] (s.setMgmt m) :=
  ⟨rfl, fun q hq => by cases q <;> first | rfl | simp at hq⟩

theorem State.setFab_only (s : State) (f : Fabric) : s.Only [.fab] (s.setFab f) :=
  ⟨rfl, fun q hq => by cases q <;> first | rfl | simp at hq⟩

theorem State.setFaults_only (s : State) (f : Faults) : s.Only [.faults] (s.setFaults f) :=
  ⟨rfl, fun q hq => by cases q <;> first | rfl | simp at hq⟩

theorem State.setEnergy_only (s : State) (e : Energy) : s.Only [.energy] (s.setEnergy e) :=
  ⟨rfl, fun q hq => by cases q <;> first | rfl | simp at hq⟩

/-! ## Window registers -/

theorem Window.SameRegs.refl (w : Window) : w.SameRegs w := ⟨rfl, rfl, rfl, rfl, rfl, rfl, rfl, ⟨rfl, rfl⟩, ⟨[], by simp, by simp⟩⟩

theorem Window.SameRegs.trans {w v x : Window} (h : w.SameRegs v) (k : v.SameRegs x) : w.SameRegs x where
  dbMask := k.dbMask.trans h.dbMask
  locks := k.locks.trans h.locks
  lockVal := k.lockVal.trans h.lockVal
  idbMask := k.idbMask.trans h.idbMask
  turned := k.turned.trans h.turned
  status := k.status.trans h.status
  out := k.out.trans h.out
  doorbells := ⟨k.doorbells.1.trans h.doorbells.1, k.doorbells.2.trans h.doorbells.2⟩
  posts := by
    obtain ⟨l, e, hl⟩ := h.posts
    obtain ⟨m, e', hm⟩ := k.posts
    exact ⟨l ++ m, by rw [e', e, List.append_assoc], fun x hx => (List.mem_append.1 hx).elim (hl x) (hm x)⟩

/-- A window that differs in bytes, owners, mailboxes, the host's doorbell and crossed waits alone. -/
theorem Window.SameRegs.rest {w v : Window} (h : v = { w with
    mem := v.mem, own := v.own, mb := v.mb, crossSince := v.crossSince, crossRaised := v.crossRaised, db := v.db }) :
    w.SameRegs v := by
  rw [h]; exact ⟨rfl, rfl, rfl, rfl, rfl, rfl, rfl, ⟨rfl, rfl⟩, ⟨[], by simp, by simp⟩⟩

/-- A doorbell bit changes one doorbell. -/
theorem Window.dbSet_rest (w : Window) (i : Option Island) (bit : Nat) (on : Bool) :
    w.dbSet i bit on = { w with idb := (w.dbSet i bit on).idb } := by cases i <;> rfl

@[simp] theorem Window.dbSet_mem (w : Window) (i : Option Island) (bit : Nat) (on : Bool) : (w.dbSet i bit on).mem = w.mem := by
  rw [w.dbSet_rest]
@[simp] theorem Window.dbSet_ownAt (w : Window) (i : Option Island) (bit : Nat) (on : Bool) (n : Nat) :
    (w.dbSet i bit on).ownAt n = w.ownAt n := by rw [w.dbSet_rest]; rfl
@[simp] theorem Window.dbSet_mbAt (w : Window) (i : Option Island) (bit : Nat) (on : Bool) (n : Nat) :
    (w.dbSet i bit on).mbAt n = w.mbAt n := by rw [w.dbSet_rest]; rfl
@[simp] theorem Window.dbSet_db (w : Window) (i : Option Island) (bit : Nat) (on : Bool) : (w.dbSet i bit on).db = w.db := by
  rw [w.dbSet_rest]

/-- The doorbell of an endpoint that the bit is not for. -/
theorem Window.dbSet_idb (w : Window) (i : Option Island) (bit : Nat) (on : Bool) {j : Island} (h : i ≠ some j) :
    (w.dbSet i bit on).idb.at j = w.idb.at j := by
  cases i with
  | none => rfl
  | some i => exact Quad.at_put_ne _ _ fun e => h (by rw [e])

theorem Window.SameRegs.dbSet (w : Window) (i : Option Island) (bit : Nat) (on : Bool) (hm : i ≠ some .meas) (ha : i ≠ some .aon) :
    w.SameRegs (w.dbSet i bit on) := by
  rw [w.dbSet_rest]
  refine { Window.SameRegs.refl w with doorbells := ?_, posts := ⟨[], by simp, by simp⟩ }
  rcases i with _ | i
  · exact ⟨rfl, rfl⟩
  · cases i <;> first | exact ⟨rfl, rfl⟩ | exact absurd rfl hm | exact absurd rfl ha

/-! ## The frame of sending -/

/-- Sending may write the buffers `B` and change the owners of the buffers `O`. -/
structure State.Sends (B O : Nat → Prop) (s t : State) : Prop where
  only : s.Only [.win, .mgmt, .faults, .fab, .obs] t
  mgmt : t.mgmt = { s.mgmt with replies := t.mgmt.replies }
  wf : s.memoryOk → t.memoryOk
  bytes : s.memoryOk → ∀ a, ¬ B (a / 256) → cellRead t.win.mem a = cellRead s.win.mem a
  owners : ∀ n, ¬ O n → t.win.ownAt n = s.win.ownAt n
  mailboxes : ∀ k, k ≠ 1 → k ≠ 3 → t.win.mbAt k = s.win.mbAt k
  doorbells : ∀ i, i ≠ 0 → t.win.db.getLsbD i = s.win.db.getLsbD i
  window : s.win.SameRegs t.win
  faults : ∃ l, t.faults = { s.faults with reports := s.faults.reports ++ l }
  fabric : t.fab = { s.fab with mb3Wait := t.fab.mb3Wait }
  counters : s.CountersBut [.ownViol, .trcDrop] t

section
variable {B O : Nat → Prop} {s t u : State}

theorem State.Sends.refl (s : State) : s.Sends B O s where
  only := .refl _ s
  mgmt := rfl
  wf := id
  bytes _ _ _ := rfl
  owners _ _ := rfl
  mailboxes _ _ _ := rfl
  doorbells _ _ := rfl
  window := .refl _
  faults := ⟨[], by simp⟩
  fabric := rfl
  counters := .refl _ s

theorem State.Sends.trans (h : s.Sends B O t) (k : t.Sends B O u) : s.Sends B O u where
  only := h.only.trans k.only
  mgmt := by rw [k.mgmt, h.mgmt]
  wf := k.wf ∘ h.wf
  bytes m a ha := (k.bytes (h.wf m) a ha).trans (h.bytes m a ha)
  owners n hn := (k.owners n hn).trans (h.owners n hn)
  mailboxes n a b := (k.mailboxes n a b).trans (h.mailboxes n a b)
  doorbells n a := (k.doorbells n a).trans (h.doorbells n a)
  window := h.window.trans k.window
  faults := by
    obtain ⟨l, hl⟩ := h.faults
    obtain ⟨m, hm⟩ := k.faults
    exact ⟨l ++ m, by rw [hm, hl]; simp⟩
  fabric := by rw [k.fabric, h.fabric]
  counters := h.counters.trans k.counters

/-- A state that differs in observation alone. -/
theorem State.Sends.obs (s : State) (o : Obs) (h : s.CountersBut [.ownViol, .trcDrop] (s.setObs o)) : s.Sends B O (s.setObs o) :=
  { State.Sends.refl (B := B) (O := O) s with only := (s.setObs_only o).mono (by simp), counters := h, fabric := rfl, mgmt := rfl }

theorem State.Sends.emit (s : State) (i : Island) (typ hdr : Nat) (more : List Nat) : s.Sends B O (s.emit i typ hdr more) := by
  obtain ⟨o, e, h⟩ := s.emit_eq i typ hdr more
  rw [e]
  exact .obs s o (State.CountersBut.mono h (by simp))

/-- A state that differs in window registers alone. -/
theorem State.Sends.win (s : State) (w : Window) (m : w.mem = s.win.mem) (o : ∀ n, ¬ O n → w.ownAt n = s.win.ownAt n)
    (b : ∀ k, k ≠ 1 → k ≠ 3 → w.mbAt k = s.win.mbAt k) (d : ∀ i, i ≠ 0 → w.db.getLsbD i = s.win.db.getLsbD i)
    (r : s.win.SameRegs w) :
    s.Sends B O (s.setWin w) :=
  { State.Sends.refl (B := B) (O := O) s with
    only := (s.setWin_only w).mono (by simp), wf := fun h => by simpa [State.memoryOk, m] using h
    bytes := fun _ a _ => by simp [m], owners := o, mailboxes := b, doorbells := d, window := r, fabric := rfl, mgmt := rfl }

theorem State.Sends.setOwner (s : State) (n : Nat) (x : Own) (src : Byte) (h : O n) : s.Sends B O (s.setOwner n x src) := by
  refine .win s _ rfl (fun k hk => ?_) (fun _ _ _ => rfl) (fun _ _ => rfl) (.rest rfl)
  have : n ≠ k := fun e => hk (e ▸ h)
  simp [Window.setOwner, Window.ownAt, Vector.getD, this]

@[simp] theorem Window.noteCross_own (w : Window) (k now n : Nat) : (w.noteCross k now).ownAt n = w.ownAt n := by
  unfold Window.noteCross; dsimp only; split <;> rfl
@[simp] theorem Window.noteCross_mbAt (w : Window) (k now n : Nat) : (w.noteCross k now).mbAt n = w.mbAt n := by
  unfold Window.noteCross; dsimp only; split <;> rfl
@[simp] theorem Window.noteCross_bytes (w : Window) (k now : Nat) : (w.noteCross k now).mem = w.mem := by
  unfold Window.noteCross; dsimp only; split <;> rfl
@[simp] theorem Window.noteCross_db (w : Window) (k now : Nat) : (w.noteCross k now).db = w.db := by
  unfold Window.noteCross; dsimp only; split <;> rfl
@[simp] theorem Window.noteCross_dbMask (w : Window) (k now : Nat) : (w.noteCross k now).dbMask = w.dbMask := by
  unfold Window.noteCross; dsimp only; split <;> rfl
@[simp] theorem Window.noteCross_locks (w : Window) (k now : Nat) : (w.noteCross k now).locks = w.locks := by
  unfold Window.noteCross; dsimp only; split <;> rfl
@[simp] theorem Window.noteCross_status (w : Window) (k now : Nat) : (w.noteCross k now).status = w.status := by
  unfold Window.noteCross; dsimp only; split <;> rfl
@[simp] theorem Window.noteCross_out (w : Window) (k now : Nat) : (w.noteCross k now).out = w.out := by
  unfold Window.noteCross; dsimp only; split <;> rfl

theorem Window.setMb_other (w : Window) {k n : Nat} (m : Mailbox) (h : n ≠ k) : (w.setMb k m).mbAt n = w.mbAt n := by
  have : k ≠ n := fun e => h e.symm
  simp [Window.setMb, Window.mbAt, Vector.getD, this]

theorem Window.setMb_self (w : Window) {k : Nat} (m : Mailbox) (h : k < 8) : (w.setMb k m).mbAt k = m := by
  simp [Window.setMb, Window.mbAt, Vector.getD, h]

theorem Window.setOwner_other (w : Window) {k n : Nat} (o : Own) (src : Byte) (h : n ≠ k) :
    (w.setOwner k o src).ownAt n = w.ownAt n := by
  have : k ≠ n := fun e => h e.symm
  simp [Window.setOwner, Window.ownAt, Vector.getD, this]

theorem Window.setOwner_self (w : Window) {k : Nat} (o : Own) (src : Byte) (h : k < 64) :
    (w.setOwner k o src).ownAt k = ⟨o, (w.ownAt k).gen + 1, src⟩ := by
  simp [Window.setOwner, Window.ownAt, Vector.getD, h]

theorem State.Sends.mailbox (s : State) (k : Nat) (m : Mailbox) (h : k = 1 ∨ k = 3) : s.Sends B O (s.setWin (s.win.setMb k m)) :=
  .win s _ rfl (fun _ _ => rfl)
    (fun n a b => Window.setMb_other _ _ (by rcases h with rfl | rfl <;> assumption)) (fun _ _ => rfl) (.rest rfl)

theorem Window.noteCross_rest (w : Window) (k now : Nat) :
    w.noteCross k now = { w with crossSince := (w.noteCross k now).crossSince, crossRaised := (w.noteCross k now).crossRaised } := by
  unfold Window.noteCross; dsimp only; split <;> rfl

theorem State.Sends.postMb (s : State) (k : Nat) (n : Word64) (held : Bool) (r : Req) (h : k = 1 ∨ k = 3) :
    s.Sends B O (s.postMb k n held r) := by
  unfold State.postMb State.emitMailbox
  refine .trans (.win s _ (by simp [Window.setMb]) (fun _ _ => ?_) (fun n a b => ?_)
    (fun _ _ => by simp [Window.setMb]) ?_) (.emit _ _ _ _ _)
  · simp only [Window.dbSet_ownAt, Window.noteCross_own]; rfl
  · simp only [Window.dbSet_mbAt, Window.noteCross_mbAt]
    exact Window.setMb_other _ _ (by rcases h with rfl | rfl <;> assumption)
  · refine .trans (.rest (v := (s.win.setMb k _).noteCross k s.now) ?_) (.trans (.dbSet _ _ _ _ ?_ ?_) (.dbSet _ _ _ _ ?_ ?_))
    · rw [Window.noteCross_rest]; rfl
    all_goals rcases h with rfl | rfl <;> simp [mbFrom, mbTo]

/-- A request on MB3. -/
theorem State.Sends.ask3 (s : State) (op : Nat) (r : Req) : s.Sends B O (s.postReq 3 op r) := by
  unfold State.postReq
  split
  · exact .refl s
  · split
    · refine .win s _ rfl (fun _ _ => rfl) (fun _ _ _ => rfl) (fun _ _ => rfl)
        ⟨rfl, rfl, rfl, rfl, rfl, rfl, rfl, ⟨rfl, rfl⟩, [(3, reqNotice 3 op r, r)], rfl, by simp⟩
    · exact .postMb s 3 _ _ _ (.inr rfl)

theorem State.Sends.ring0 (s : State) : s.Sends B O (s.ring 0) := by
  refine .win s _ rfl (fun _ _ => rfl) (fun _ _ _ => rfl) (fun i hi => ?_) (.rest rfl)
  rw [BitVec.getLsbD_or, BitVec.getLsbD_twoPow]
  have : ¬ (0 = i) := fun e => hi e.symm
  simp [this]

/-- Bytes written into a buffer that may be written, within its 256 bytes. -/
theorem State.Sends.write (s : State) (n : Nat) (bs : List Byte) (h : B n) (l : bs.length ≤ 256) :
    s.Sends B O (s.winWrite (bufAddr n) bs) :=
  { State.Sends.refl (B := B) (O := O) s with
    only := (s.setWin_only _).mono (by simp), wf := fun m => cellsWrite_wf _ bs m
    bytes := fun m a ha => by
      rw [State.winWrite, State.setWin_win, cellRead_cellsWrite _ _ _ m, if_neg]
      intro hc
      refine ha ?_
      have : a / 256 = n := by unfold bufAddr at hc; omega
      rw [this]
      exact h
    owners := fun _ _ => rfl, mailboxes := fun _ _ _ => rfl, doorbells := fun _ _ => rfl, window := .rest rfl
    fabric := rfl, mgmt := rfl }

theorem State.Sends.devWriteBad (s : State) (n : Nat) (bs : List Byte) (w : Byte) (h : (s.win.ownAt n).own ≠ .device) :
    s.Sends B O (s.devWrite n bs w) := by
  rw [State.devWrite, if_neg h]
  exact State.Sends.trans (t := s.count .ownViol) (.obs s _ ((s.countN_counters .ownViol 1).mono (by simp)))
    { State.Sends.refl (B := B) (O := O) _ with
      only := (State.setFaults_only _ _).mono (by simp), faults := ⟨_, rfl⟩, fabric := rfl, mgmt := rfl }

theorem State.Sends.postReply (s : State) (n : Nat) (bs : List Byte) (hb : B n) (ho : O n) (l : bs.length ≤ 256) :
    s.Sends B O (s.postReply n bs) := by
  unfold State.postReply
  split
  · exact (((State.Sends.write s n bs hb l).trans (.setOwner _ n _ _ ho)).trans (.postMb _ 1 _ _ _ (.inl rfl))).trans (.ring0 _)
  · exact .devWriteBad s n bs _ (by assumption)

/-- A state that differs in MGMT's replies alone. -/
theorem State.Sends.replies (s : State) (m : Mgmt)
    (h : m = { s.mgmt with replies := m.replies }) : s.Sends B O (s.setMgmt m) :=
  { State.Sends.refl (B := B) (O := O) s with only := (s.setMgmt_only m).mono (by simp), mgmt := h, fabric := rfl }

theorem State.Sends.postNext (s : State) (h : ∀ r ∈ s.mgmt.replies, B r.buf.toNat ∧ O r.buf.toNat ∧ r.bytes.length ≤ 256) :
    s.Sends B O s.postNext := by
  unfold State.postNext
  split
  · exact .refl s
  · split
    · exact .refl s
    · next r rs e =>
      have hr := h r (by rw [e]; simp)
      exact (State.Sends.replies s _ rfl).trans (.postReply _ _ _ hr.1 hr.2.1 hr.2.2)

theorem State.Sends.freeBuf (s : State) (n : Nat) (h : O n) : s.Sends B O (s.freeBuf n) := by
  unfold State.freeBuf
  split
  · exact .setOwner s n _ _ h
  · exact .refl s

theorem Fabric.setSess_other (f : Fabric) {n k : Nat} (x : Session) (h : k ≠ n) : (f.setSess n x).sess k = f.sess k := by
  have : n ≠ k := fun e => h e.symm
  simp [Fabric.setSess, Fabric.sess, Vector.getD, this]

theorem Fabric.setSess_self (f : Fabric) {n : Nat} (x : Session) (h : n < 16) : (f.setSess n x).sess n = x := by
  simp [Fabric.setSess, Fabric.sess, Vector.getD, h]

theorem State.Sends.fabricReply (s : State) (r : ReplyOut) (hb : B r.buf.toNat) (l : r.bytes.length ≤ 256) :
    s.Sends B O (s.fabricReply r) := by
  unfold State.fabricReply
  extract_lets s1
  have e : s1 = (if (s.win.ownAt r.buf.toNat).own = .device then s.winWrite (bufAddr r.buf.toNat) r.bytes else s) := rfl
  have h1 : s.Sends B O s1 := by
    rw [e]
    split
    · exact .write s _ _ hb l
    · exact .refl s
  split
  · exact h1.trans (.ask3 _ _ _)
  · exact h1.trans
      { State.Sends.refl (B := B) (O := O) _ with only := (State.setFab_only _ _).mono (by simp), fabric := rfl, mgmt := rfl }

/-- A reply packet with at most 244 result bytes. -/
theorem replyBytes_length (op tag status src total : Nat) (more : Bool) (res : List Byte) :
    (replyBytes op tag status src total more res).length = 12 + res.length := by
  simp [replyBytes, leBytes]
  omega

theorem firstReply_length (op tag status src : Nat) (res : List Byte) : (firstReply op tag status src res).length ≤ 256 := by
  simp [firstReply, replyBytes_length]
  omega

/-- Sending the reply of a packet, once it is built. -/
theorem State.Sends.sendReply (s : State) (via : Bool) (p : Packet) (bs : List Byte) (l : bs.length ≤ 256)
    (hr : ∀ r ∈ s.mgmt.replies, B r.buf.toNat ∧ O r.buf.toNat ∧ r.bytes.length ≤ 256) (hb : B p.buf.toNat)
    (ho : O p.buf.toNat) :
    (s.setMgmt { s.mgmt with lastReply := bs }).Sends B O (s.sendReply via p bs) := by
  unfold State.sendReply
  dsimp only
  split
  · exact .fabricReply _ _ hb l
  · split
    · refine .trans (.replies _ _ rfl) (.postNext _ ?_)
      intro r hm
      simp only [State.setMgmt_mgmt, List.mem_append, List.mem_singleton] at hm
      rcases hm with hm | rfl
      · exact hr r hm
      · exact ⟨hb, ho, l⟩
    · split
      · exact .freeBuf _ _ ho
      · exact .refl _

end

/-! ## Completing a command -/

/-- A state in which a packet has been taken from the queue, and its sender's assembly with it. -/
structure State.TakenFrom (u v : State) (op : Nat) (p : Packet) : Prop where
  only : u.Only [.mgmt, .obs] v
  mgmt : v.mgmt = { u.mgmt with queue := u.queueRest, assemblies := (u.assembled op p).1.mgmt.assemblies }
  trace : u.OnlyTrace v

/-- A queue whose first packet has an assigned opcode stays as it is. -/
theorem State.settle_stays (n : Nat) (s : State) (h : ∀ x ∈ s.mgmt.queue, assignedOp (s.packetOf x).1 = true) :
    State.settle n s = s := by
  cases n with
  | zero => rfl
  | succ n =>
    unfold State.settle
    split
    · rfl
    · next q qs e =>
      have := h q (by rw [e]; simp)
      simp [this]

/-- A packet's bytes depend on its buffer alone. -/
theorem State.packetOf_congr {s t : State} (x : QueuedCmd)
    (h : ∀ a, a / 256 = x.buf.toNat → cellRead t.win.mem a = cellRead s.win.mem a) : t.packetOf x = s.packetOf x := by
  have e : t.bufRead x.buf.toNat 256 = s.bufRead x.buf.toNat 256 := by
    unfold State.bufRead cellsRead
    refine List.map_congr_left fun i hi => h _ ?_
    have := List.mem_range.1 hi
    unfold bufAddr
    omega
  unfold State.packetOf
  rw [e]

/-- What completing a command changes, from a state in which it has been taken and has had its own effect. -/
theorem State.finish_replied {u v : State} {op : Nat} {via : Bool} {p : Packet} {st : Nat} {res : List Byte}
    (hv : u.TakenFrom v op p) (hm : u.memoryOk) (hl : ∀ r ∈ u.mgmt.replies, r.bytes.length ≤ 256)
    (hq : ∀ x ∈ u.queueRest, assignedOp (u.packetOf x).1 = true ∧ x.buf ≠ p.buf ∧ ∀ r ∈ u.mgmt.replies, x.buf ≠ r.buf) :
    u.Replied ((v.finish op via p st res).settle 4) op p st res := by
  have hw : v.win = u.win := hv.only.2 .win (by simp)
  have hf : v.fab = u.fab := hv.only.2 .fab (by simp)
  have hr : v.mgmt.replies = u.mgmt.replies := by rw [hv.mgmt]
  have hk : v.mgmt.kept = u.mgmt.kept := by rw [hv.mgmt]
  let bs := firstReply op p.tag.toNat st p.src.toNat res
  let kept := v.mgmt.kept.filter fun k => k.src ≠ p.src
  let v1 := (v.count .cmdDone).emitCommand true p.src.toNat op p.tag.toNat st
  obtain ⟨o, eo, ho⟩ : ∃ o, v1 = v.setObs o ∧ v.CountersBut [.cmdDone, .trcDrop] (v.setObs o) := by
    obtain ⟨o, e, h⟩ := (v.count .cmdDone).emit_eq .mgmt 8 (b2n true + 256 * p.src.toNat)
      [op + 65536 * p.tag.toNat + 16777216 * (st % 256)]
    exact ⟨o, e, ((v.countN_counters .cmdDone 1).mono (by simp)).trans (h.mono (by simp))⟩
  let v3 := (v.setObs o).setMgmt { v.mgmt with kept := if 244 < res.length then kept ++ [⟨p.src, op, p.tag, res, st⟩] else kept }
  have ef : v.finish op via p st res = v3.sendReply via p bs := by
    unfold State.finish
    dsimp only
    rw [show (v.count .cmdDone).emitCommand true p.src.toNat op p.tag.toNat st = v.setObs o from eo]
    rfl
  have hs := State.Sends.sendReply (B := u.ReplyBuf p)
    (O := u.ReplyBuf p) v3 via p bs (firstReply_length _ _ _ _ _)
    (fun r h => by
      have h' : r ∈ u.mgmt.replies := hr ▸ h
      exact ⟨.inr ⟨r, h', rfl⟩, .inr ⟨r, h', rfl⟩, hl r h'⟩)
    (.inl rfl) (.inl rfl)
  have hm3 : (v3.setMgmt { v3.mgmt with lastReply := bs }).memoryOk := by
    show Memory.wf v.win.mem = true
    rw [hw]; exact hm
  have hbytes : ∀ a, ¬ u.ReplyBuf p (a / 256) →
      cellRead (v3.sendReply via p bs).win.mem a = cellRead u.win.mem a := fun a ha => by
    rw [hs.bytes hm3 a ha]
    show cellRead v.win.mem a = _
    rw [hw]
  have hqueue : (v3.sendReply via p bs).mgmt.queue = u.queueRest := by
    rw [hs.mgmt]
    show v.mgmt.queue = _
    rw [hv.mgmt]
  rw [ef, State.settle_stays 4 _ fun x hx => by
    rw [hqueue] at hx
    obtain ⟨h1, h2, h3⟩ := hq x hx
    rw [State.packetOf_congr (s := u) x fun a ha => hbytes a ?_]
    · exact h1
    · rw [ha]
      rintro (h | ⟨r, h, h'⟩)
      · exact h2 (BitVec.eq_of_toNat_eq h)
      · exact h3 r h (BitVec.eq_of_toNat_eq h')]
  have hfa : v.faults = u.faults := hv.only.2 .faults (by simp)
  have hpart : ∀ q : Part, q ∉ [Part.win, .mgmt, .faults, .fab, .obs] →
      q.same u (v3.setMgmt { v3.mgmt with lastReply := bs }) := fun q hq => by
    have := hv.only.2 q (by intro h; apply hq; revert h; cases q <;> simp)
    cases q <;> first | exact this | simp at hq
  refine
    { reply := by rw [hs.mgmt]; rfl
      only := ⟨hs.only.1.trans hv.only.1, fun q hq => ?_⟩
      mgmt := ?_
      bytes := hbytes
      owners := fun n hn => by
        rw [hs.owners n hn]
        show v.win.ownAt n = _
        rw [hw]
      mailboxes := fun k a b => (hs.mailboxes k a b).trans (by show v.win.mbAt k = _; rw [hw])
      doorbells := fun i a => (hs.doorbells i a).trans (by show v.win.db.getLsbD i = _; rw [hw])
      window := by
        have := hs.window
        rw [← hw]; exact this
      faults := by
        obtain ⟨l, h⟩ := hs.faults
        exact ⟨l, by rw [h]; show ({ v.faults with reports := v.faults.reports ++ l } : Faults) = _; rw [hfa]⟩
      fabric := by rw [hs.fabric]; show ({ v.fab with mb3Wait := _ } : Fabric) = _; rw [hf]
      counters := ?_ }
  · have a := hpart q hq
    have b := hs.only.2 q (by intro h; apply hq; revert h; cases q <;> simp)
    cases q <;> exact b.trans a
  · rw [hs.mgmt]
    show ({ v.mgmt with kept := _, lastReply := _, replies := _ } : Mgmt) = _
    have e : v3.mgmt.kept = (u.mgmt.kept.filter fun k => k.src ≠ p.src) ++
        (if 244 < res.length then [⟨p.src, op, p.tag, res, st⟩] else []) := by
      show (if 244 < res.length then kept ++ [_] else kept) = _
      rw [← hk]
      split <;> simp [kept]
    rw [← e]
    show ({ v.mgmt with kept := v3.mgmt.kept, lastReply := _, replies := _ } : Mgmt) = _
    rw [hv.mgmt]
  · exact (State.CountersBut.mono hv.trace (by simp)).trans ((ho.mono (by simp)).trans (hs.counters.mono (by simp)))

/-! ## A command that is taken -/

/-- The state in which a command's own rules run: it has left the queue, its start is traced, it counts for an update session,
its assembly has ended. -/
def State.taken (s : State) (op : Nat) (p : Packet) : State :=
  (((s.setMgmt { s.mgmt with queue := s.queueRest }).begin op p).assembled op p).1

theorem State.started_eq (s : State) (op : Nat) (p : Packet) :
    s.started op p = s.setMgmt { s.mgmt with upd := (s.started op p).mgmt.upd } := by
  unfold State.started
  split <;> rfl

/-- A command that is none of the update commands counts for no session. -/
theorem State.started_of (s : State) {op : Nat} (p : Packet) (h : updateOp op = false) : s.started op p = s := by
  simp [State.started, h]

theorem State.started_congr {s t : State} (op : Nat) (p : Packet) (h : t.mgmt.upd = s.mgmt.upd) (n : t.now = s.now) :
    (t.started op p).mgmt.upd = (s.started op p).mgmt.upd := by
  unfold State.started State.touchUpd
  split
  · simp [h, n]
  · exact h

theorem State.assembled_fst (s : State) (op : Nat) (p : Packet) :
    (s.assembled op p).1 = s.setMgmt { s.mgmt with assemblies := (s.assembled op p).1.mgmt.assemblies } := by
  unfold State.assembled
  split <;> rfl

theorem State.assembled_congr {s t : State} (op : Nat) (p : Packet) (h : t.mgmt.assemblies = s.mgmt.assemblies) :
    (t.assembled op p).1.mgmt.assemblies = (s.assembled op p).1.mgmt.assemblies ∧ (t.assembled op p).2 = (s.assembled op p).2 := by
  unfold State.assembled
  rw [h]
  split
  · exact ⟨by simp, rfl⟩
  · exact ⟨h, rfl⟩

theorem State.taken_eq (s : State) (op : Nat) (p : Packet) :
    ∃ o, s.OnlyTrace (s.setObs o) ∧ s.taken op p = (s.setObs o).setMgmt { s.mgmt with
      queue := s.queueRest, assemblies := (s.assembled op p).1.mgmt.assemblies, upd := (s.started op p).mgmt.upd } := by
  unfold State.taken State.begin State.emitCommand
  obtain ⟨o, e, h⟩ := (s.setMgmt { s.mgmt with queue := s.queueRest }).emit_eq .mgmt 8 (b2n false + 256 * p.src.toNat)
    [op + 65536 * p.tag.toNat + 16777216 * (0 % 256)]
  let t := (s.setMgmt { s.mgmt with queue := s.queueRest }).setObs o
  have a : (t.started op p).mgmt.upd = (s.started op p).mgmt.upd := State.started_congr op p rfl rfl
  have b : ((t.started op p).assembled op p).1.mgmt.assemblies = (s.assembled op p).1.mgmt.assemblies := by
    refine (State.assembled_congr op p ?_).1
    rw [State.started_eq]; rfl
  rw [e, State.assembled_fst]
  refine ⟨o, h, ?_⟩
  show (t.started op p).setMgmt { (t.started op p).mgmt with assemblies := _ } = _
  rw [b, State.started_eq, ← a]
  rfl

theorem State.taken_from (s : State) (op : Nat) (p : Packet) : (s.started op p).TakenFrom (s.taken op p) op p := by
  obtain ⟨o, h, e⟩ := s.taken_eq op p
  rw [e, s.started_eq op p]
  refine ⟨⟨rfl, fun q hq => by cases q <;> first | rfl | simp at hq⟩, ?_, h⟩
  have b := (State.assembled_congr (s := s) (t := s.setMgmt { s.mgmt with upd := (s.started op p).mgmt.upd }) op p rfl).1
  rw [b]
  rfl

/-- A command that is none of the update commands. -/
theorem State.taken_plain (s : State) {op : Nat} (p : Packet) (h : updateOp op = false) : s.TakenFrom (s.taken op p) op p := by
  have := s.taken_from op p
  rwa [s.started_of p h] at this

section
variable (s : State) (op : Nat) (p : Packet)

@[simp] theorem State.taken_pending : (s.taken op p).pending = s.pending := (s.taken_from op p).only.1.trans (by rw [s.started_eq]; rfl)
@[simp] theorem State.taken_free : (s.taken op p).free = s.free := ((s.taken_from op p).only.2 .free (by simp)).trans (by rw [s.started_eq]; rfl)
@[simp] theorem State.taken_clock : (s.taken op p).clock = s.clock := ((s.taken_from op p).only.2 .clock (by simp)).trans (by rw [s.started_eq]; rfl)
@[simp] theorem State.taken_pins : (s.taken op p).pins = s.pins := ((s.taken_from op p).only.2 .pins (by simp)).trans (by rw [s.started_eq]; rfl)
@[simp] theorem State.taken_energy : (s.taken op p).energy = s.energy := ((s.taken_from op p).only.2 .energy (by simp)).trans (by rw [s.started_eq]; rfl)
@[simp] theorem State.taken_meas : (s.taken op p).meas = s.meas := ((s.taken_from op p).only.2 .meas (by simp)).trans (by rw [s.started_eq]; rfl)
@[simp] theorem State.taken_loop : (s.taken op p).loop = s.loop := ((s.taken_from op p).only.2 .loop (by simp)).trans (by rw [s.started_eq]; rfl)
@[simp] theorem State.taken_win : (s.taken op p).win = s.win := ((s.taken_from op p).only.2 .win (by simp)).trans (by rw [s.started_eq]; rfl)
@[simp] theorem State.taken_isl : (s.taken op p).isl = s.isl := ((s.taken_from op p).only.2 .isl (by simp)).trans (by rw [s.started_eq]; rfl)
@[simp] theorem State.taken_ready : (s.taken op p).ready = s.ready := ((s.taken_from op p).only.2 .ready (by simp)).trans (by rw [s.started_eq]; rfl)
@[simp] theorem State.taken_boot : (s.taken op p).boot = s.boot := ((s.taken_from op p).only.2 .boot (by simp)).trans (by rw [s.started_eq]; rfl)
@[simp] theorem State.taken_faults : (s.taken op p).faults = s.faults := ((s.taken_from op p).only.2 .faults (by simp)).trans (by rw [s.started_eq]; rfl)
@[simp] theorem State.taken_ports : (s.taken op p).ports = s.ports := ((s.taken_from op p).only.2 .ports (by simp)).trans (by rw [s.started_eq]; rfl)
@[simp] theorem State.taken_decoder : (s.taken op p).decoder = s.decoder := ((s.taken_from op p).only.2 .decoder (by simp)).trans (by rw [s.started_eq]; rfl)
@[simp] theorem State.taken_decFree : (s.taken op p).decFree = s.decFree := ((s.taken_from op p).only.2 .decFree (by simp)).trans (by rw [s.started_eq]; rfl)
@[simp] theorem State.taken_fsk : (s.taken op p).fsk = s.fsk := ((s.taken_from op p).only.2 .fsk (by simp)).trans (by rw [s.started_eq]; rfl)
@[simp] theorem State.taken_fab : (s.taken op p).fab = s.fab := ((s.taken_from op p).only.2 .fab (by simp)).trans (by rw [s.started_eq]; rfl)
@[simp] theorem State.taken_nvm : (s.taken op p).nvm = s.nvm := ((s.taken_from op p).only.2 .nvm (by simp)).trans (by rw [s.started_eq]; rfl)

theorem State.taken_mgmt : (s.taken op p).mgmt = { s.mgmt with
    queue := s.queueRest, assemblies := (s.assembled op p).1.mgmt.assemblies, upd := (s.started op p).mgmt.upd } := by
  obtain ⟨o, -, e⟩ := s.taken_eq op p
  rw [e]; rfl

theorem State.taken_rightOf (n : Nat) : rightOf n (s.taken op p) p = rightOf n s p := by
  simp [rightOf, State.hasRight, State.rights, State.addrRights, State.taken_mgmt]

theorem State.taken_admits (cost : Nat) : (s.taken op p).admits cost = s.admits cost := by
  have e : (s.taken op p).reserveField = s.reserveField := by
    simp [State.reserveField, State.reserveLeft, State.taken_mgmt]
  simp only [State.admits, e, State.taken_energy]

theorem State.taken_upAt (i : Island) : (s.taken op p).upAt i = s.upAt i := by simp [State.upAt]

@[simp] theorem State.taken_now : (s.taken op p).now = s.now := by simp [State.now]

end

/-- Taking the next packet. -/
theorem State.Takes.take {s : State} {op : Nat} {p : Packet} {cost : Nat} {needs : List Island} (h : s.Takes op p cost needs) :
    ∃ via, s.take op p = some (s.setMgmt { s.mgmt with queue := s.queueRest }, via) := by
  have ht : s.takes = true := by
    have := h.idle
    simpa [State.takes, h.up, h.ready, State.NoneWaits] using this
  unfold State.take
  rw [ht]
  rcases h.next with e | ⟨q, qs, e, hq, -⟩
  · refine ⟨false, ?_⟩
    rw [e]
    simp only [↓reduceIte, State.queueRest, e, List.tail_nil, Option.some.injEq, Prod.mk.injEq, and_true]
    show s = { s with mgmt := { s.mgmt with queue := [] } }
    rw [← e]
  · refine ⟨true, ?_⟩
    rw [e]
    simp [State.queueRest, e, hq]

/-- What waits behind a packet that is taken stays where it is. -/
theorem State.Next.rest {s : State} {op : Nat} {p : Packet} (h : s.Next op p) :
    ∀ x ∈ s.queueRest, assignedOp (s.packetOf x).1 = true ∧ x.buf ≠ p.buf ∧ ∀ r ∈ s.mgmt.replies, x.buf ≠ r.buf := by
  rcases h with e | ⟨q, qs, e, -, h⟩
  · simp [State.queueRest, e]
  · simpa [State.queueRest, e] using h

/-- A command that is taken and passes the interpreter's checks runs its own rules. -/
theorem State.runCmd_ok {s w : State} {c : Cmd} {p : Packet} {own : State → Packet → List Byte → Done} {cost : Nat}
    {needs : List Island} (h : s.Takes c.op p cost needs)
    (ea : (s.taken c.op p).admitCmd c p (s.paramsOf c.op p) = .ok w)
    (ed : w.nvmRead (c.reads w (c.body (s.paramsOf c.op p))) = (w, true)) :
    ∃ via, s.runCmd c p own =
      (w.complete c via { p with params := s.paramsOf c.op p } (c.cost w (c.body (s.paramsOf c.op p))) (own w p (c.body (s.paramsOf c.op p)))).settle 4 := by
  obtain ⟨via, e⟩ := h.take
  refine ⟨via, ?_⟩
  unfold State.runCmd
  rw [e]
  show (State.runTaken _ c via p own).settle 4 = _
  congr 1
  unfold State.runTaken
  dsimp only
  rw [h.header]
  obtain ⟨o, eo, -⟩ := (s.setMgmt { s.mgmt with queue := s.queueRest }).emit_eq .mgmt 8 (b2n false + 256 * p.src.toNat)
    [c.op + 65536 * p.tag.toNat + 16777216 * (0 % 256)]
  have e2 : ((s.setMgmt { s.mgmt with queue := s.queueRest }).begin c.op p).assembled c.op p =
      (s.taken c.op p, s.paramsOf c.op p) := by
    refine Prod.ext rfl ?_
    unfold State.begin State.emitCommand
    rw [eo, State.started_eq]
    refine (State.assembled_congr c.op p ?_).2
    rfl
  have hb : ¬ 4096 < (s.paramsOf c.op p).length := Nat.not_lt.2 h.bounded
  simp only [h.whole.1, h.whole.2, Bool.false_eq_true, ↓reduceIte, e2, hb]
  rw [ea]
  simp only [ed, ↓reduceIte]

/-- A command that is taken and needs no signature runs its own rules. -/
theorem State.runCmd_admitted {s : State} {c : Cmd} {p : Packet} {own : State → Packet → List Byte → Done} {cost : Nat}
    {needs : List Island} (h : s.Takes c.op p cost needs) (hl : c.len (s.paramsOf c.op p).length = true) (hf : c.fits (s.paramsOf c.op p) = true)
    (hs : c.signable = false) (hm : c.mustSign p.src = false) (hr : c.right (s.taken c.op p) p = true)
    (hc : c.cost (s.taken c.op p) (s.paramsOf c.op p) = cost) (hn : c.needs (s.taken c.op p) (s.paramsOf c.op p) = needs)
    (hd : (s.taken c.op p).nvmRead (c.reads (s.taken c.op p) (s.paramsOf c.op p)) = (s.taken c.op p, true))
    (hw : c.waits = true → s.NoneWaits c.op) :
    ∃ via, s.runCmd c p own =
      ((s.taken c.op p).complete c via { p with params := s.paramsOf c.op p } cost (own (s.taken c.op p) p (s.paramsOf c.op p))).settle 4 := by
  have ea : (s.taken c.op p).admitCmd c p (s.paramsOf c.op p) = .ok (s.taken c.op p) := by
    unfold State.admitCmd
    have hup : ∀ i ∈ c.needs (s.taken c.op p) (s.paramsOf c.op p), s.upAt i = true := hn ▸ h.islands
    have hnw : ¬ (c.waits = true ∧ ∃ o ∈ s.mgmt.outst, o.op = c.op) := fun ⟨a, o, b, e⟩ => hw a o b e
    simp only [hs, hl, hf, hm, hr, hc, State.taken_admits, h.energy, Bool.false_and, Bool.and_false,
      Bool.or_false, Bool.not_true, Bool.false_eq_true, ↓reduceIte, State.taken_upAt]
    rw [if_neg (by simpa using hup), if_neg (by simpa [State.taken_mgmt] using hnw)]
  have ebody : c.body (s.paramsOf c.op p) = s.paramsOf c.op p := by simp [Cmd.body, hs]
  obtain ⟨via, e⟩ := State.runCmd_ok (own := own) h ea (by rw [ebody]; exact hd)
  exact ⟨via, by rw [e, ebody, hc]⟩

/-- A command that is taken and completes at once: its reply, and what the reply changes. `u` is the state with the command's
own effect, `v` the same of the state in which the command has left the queue. -/
theorem State.runCmd_replied {s : State} {c : Cmd} {p : Packet} {own : State → Packet → List Byte → Done} {cost : Nat}
    {needs : List Island} (h : s.Takes c.op p cost needs) (hl : c.len (s.paramsOf c.op p).length = true) (hf : c.fits (s.paramsOf c.op p) = true)
    (hs : c.signable = false) (hm : c.mustSign p.src = false) (hr : c.right (s.taken c.op p) p = true)
    (hc : c.cost (s.taken c.op p) (s.paramsOf c.op p) = cost) (hn : c.needs (s.taken c.op p) (s.paramsOf c.op p) = needs)
    (hd : (s.taken c.op p).nvmRead (c.reads (s.taken c.op p) (s.paramsOf c.op p)) = (s.taken c.op p, true))
    (hw : c.waits = true → s.NoneWaits c.op) {u v : State} {st : Nat} {res : List Byte}
    (ho : own (s.taken c.op p) p (s.paramsOf c.op p) = .done v st res) (hv : u.TakenFrom v c.op p)
    (hu : u.win.mem = s.win.mem) (hq : u.mgmt.queue = s.mgmt.queue) (hp : u.mgmt.replies = s.mgmt.replies) :
    u.Replied (s.runCmd c p own) c.op p st res := by
  obtain ⟨via, e⟩ := State.runCmd_admitted (own := own) h hl hf hs hm hr hc hn hd hw
  rw [e, ho]
  refine State.finish_replied hv (by rw [State.memoryOk, hu]; exact h.memory) (by rw [hp]; exact h.replies) ?_
  intro x hx
  rw [State.queueRest, hq] at hx
  rw [State.packetOf_congr (s := s) x (fun a _ => by rw [hu]), hp]
  exact h.next.rest x hx

/-- A command that becomes outstanding, from a state in which it has been taken and has made its request. -/
theorem State.outstanding_waits {s u v : State} {c : Cmd} {p : Packet} {cost : Nat} {needs : List Island}
    (h : s.Takes c.op p cost needs) (hv : u.TakenFrom v c.op p) (hu : u.win.mem = s.win.mem) (hq : u.mgmt.queue = s.mgmt.queue)
    (via : Bool) (isl : Option Island) (got : Option Nat) (res : List Byte) :
    State.Waits s u (((s.taken c.op p).outstanding v c via { p with params := s.paramsOf c.op p } cost isl got res).settle 4)
      c.op p cost isl got res := by
  have hvm : v.mgmt.queue = s.queueRest := by rw [hv.mgmt]; show u.queueRest = _; rw [State.queueRest, hq]; rfl
  have hvw : v.win = u.win := hv.only.2 .win (by simp)
  have hve : v.energy = u.energy := hv.only.2 .energy (by simp)
  unfold State.outstanding
  dsimp only
  rw [State.settle_stays 4 _ fun x hx => ?_]
  · refine ⟨⟨hv.only.1, fun q hq => ?_⟩, ?_, ⟨⟨c.op, { p with params := s.paramsOf c.op p }, via, s.now, isl, got, res, none⟩, ?_,
      rfl, rfl, rfl, rfl, rfl, rfl, rfl⟩, hv.trace⟩
    · have := hv.only.2 q (by intro h; apply hq; revert h; cases q <;> simp)
      cases q <;> first | exact this | simp at hq
    · simp only [State.setMgmt_energy, State.setEnergy_energy, hve, State.taken_energy]
      split <;> simp
    · simp [hv.mgmt]
  · have hx' : x ∈ s.queueRest := hvm ▸ hx
    have := (h.next.rest x hx').1
    rw [← this]
    congr 1
    exact congrArg Prod.fst (State.packetOf_congr (s := s) x fun a _ => by
      show cellRead v.win.mem a = _
      rw [hvw, hu])

/-- A command that is taken and waits for an island's event. -/
theorem State.runCmd_waits {s : State} {c : Cmd} {p : Packet} {own : State → Packet → List Byte → Done} {cost : Nat}
    {needs : List Island} (h : s.Takes c.op p cost needs) (hl : c.len (s.paramsOf c.op p).length = true) (hf : c.fits (s.paramsOf c.op p) = true)
    (hs : c.signable = false) (hm : c.mustSign p.src = false) (hr : c.right (s.taken c.op p) p = true)
    (hc : c.cost (s.taken c.op p) (s.paramsOf c.op p) = cost) (hn : c.needs (s.taken c.op p) (s.paramsOf c.op p) = needs)
    (hd : (s.taken c.op p).nvmRead (c.reads (s.taken c.op p) (s.paramsOf c.op p)) = (s.taken c.op p, true))
    (hw : c.waits = true → s.NoneWaits c.op) {u v : State} {isl : Option Island} {res : List Byte}
    (ho : own (s.taken c.op p) p (s.paramsOf c.op p) = .wait v isl res) (hv : u.TakenFrom v c.op p)
    (hu : u.win.mem = s.win.mem) (hq : u.mgmt.queue = s.mgmt.queue) :
    State.Waits s u (s.runCmd c p own) c.op p cost isl none res := by
  obtain ⟨via, e⟩ := State.runCmd_admitted (own := own) h hl hf hs hm hr hc hn hd hw
  rw [e, ho]
  exact State.outstanding_waits h hv hu hq via isl none res

/-- A command that is taken and occupies the interpreter. -/
theorem State.runCmd_busy {s : State} {c : Cmd} {p : Packet} {own : State → Packet → List Byte → Done} {cost : Nat}
    {needs : List Island} (h : s.Takes c.op p cost needs) (hl : c.len (s.paramsOf c.op p).length = true) (hf : c.fits (s.paramsOf c.op p) = true)
    (hs : c.signable = false) (hm : c.mustSign p.src = false) (hr : c.right (s.taken c.op p) p = true)
    (hc : c.cost (s.taken c.op p) (s.paramsOf c.op p) = cost) (hn : c.needs (s.taken c.op p) (s.paramsOf c.op p) = needs)
    (hd : (s.taken c.op p).nvmRead (c.reads (s.taken c.op p) (s.paramsOf c.op p)) = (s.taken c.op p, true))
    (hw : c.waits = true → s.NoneWaits c.op) {u v : State}
    (ho : own (s.taken c.op p) p (s.paramsOf c.op p) = .busy v) (hv : u.TakenFrom v c.op p)
    (hu : u.win.mem = s.win.mem) (hq : u.mgmt.queue = s.mgmt.queue) :
    State.Waits s u (s.runCmd c p own) c.op p cost none (some s.now) [] := by
  obtain ⟨via, e⟩ := State.runCmd_admitted (own := own) h hl hf hs hm hr hc hn hd hw
  rw [e, ho]
  have hn : (s.taken c.op p).now = s.now := s.taken_now c.op p
  unfold State.complete
  rw [hn]
  exact State.outstanding_waits h hv hu hq via none (some s.now) []

end Sys2Proof.Machine
end

