-- ==== Sys2Proof/Laws/Command.lean ====
section
/-! SUPPORT. What MGMT's requests to other islands and the shells of the commands do: each lemma is cited where a command of that
shape is meant. -/

namespace Sys2Proof.Machine

open Sys2Proof

/-! ## Requests (01 R18, 11 R281) -/

/-- The window after a request on an internal mailbox that is free: the notice is in it, and the doorbells of the two islands
have changed. -/
def State.askWin (s : State) (k op : Nat) (r : Req) : Window :=
  let m := { s.win.mbAt k with
    notice := reqNotice k op r, req := r, pending := true, held := k == 6 && s.mgmtAsleep, posts := (s.win.mbAt k).posts + 1
    since := s.now, ack := none, lost := false }
  (((s.win.setMb k m).noteCross k s.now).dbSet (mbFrom k) (8 + k) false).dbSet (mbTo k) k true

theorem State.postReq_eq {s : State} {k : Nat} (h : s.Enters k) (op : Nat) (r : Req) :
    ∃ o, s.postReq k op r = (s.setWin (s.askWin k op r)).setObs o ∧ s.OnlyTrace (s.setObs o) := by
  obtain ⟨h1, h2, h3⟩ := h
  unfold State.postReq
  rw [h1, h2, h3]
  simp only [Bool.not_true, Bool.false_eq_true, ↓reduceIte, Bool.or_self]
  unfold State.postMb State.emitMailbox
  obtain ⟨o, e, h⟩ := (s.setWin (s.askWin k op r)).emit_eq .mgmt 7
    (k + 8 * b2n false + 16 * b2n (k == 6 && s.mgmtAsleep) + 32 * b2n false + 256 * nbSrc (reqNotice k op r))
    [nbBuf (reqNotice k op r) + 256 * (if (false : Bool) then 0 else nbTag (reqNotice k op r)) +
      65536 * nbHint (reqNotice k op r)]
  exact ⟨o, e, h⟩

theorem State.askWin_rest (s : State) (k op : Nat) (r : Req) :
    s.askWin k op r = { s.win with
      mb := (s.askWin k op r).mb, crossSince := (s.askWin k op r).crossSince, crossRaised := (s.askWin k op r).crossRaised
      idb := (s.askWin k op r).idb } := by
  unfold State.askWin
  dsimp only
  rw [Window.dbSet_rest, Window.dbSet_rest (Window.noteCross _ _ _), Window.noteCross_rest]
  rfl

/-- A request that enters its mailbox leaves everything else as it is, the doorbells of sender and receiver apart. -/
theorem State.postReq_asks {s : State} {k : Nat} (hk : k < 8) (h : s.Enters k) (op : Nat) (r : Req) :
    s.Asks (s.postReq k op r) k r := by
  obtain ⟨o, e, h⟩ := State.postReq_eq h op r
  rw [e]
  refine ⟨⟨rfl, fun q hq => by cases q <;> first | rfl | simp at hq⟩, s.askWin_rest k op r, fun n hn => ?_, ?_, fun i hf ht => ?_, h⟩
  · show (s.askWin k op r).mbAt n = _
    simp only [State.askWin, Window.dbSet_mbAt, Window.noteCross_mbAt]
    exact Window.setMb_other _ _ hn
  · show ((s.askWin k op r).mbAt k).pending = true ∧ ((s.askWin k op r).mbAt k).req = r ∧ ((s.askWin k op r).mbAt k).ack = none
    simp only [State.askWin, Window.dbSet_mbAt, Window.noteCross_mbAt, Window.setMb_self _ _ hk, and_self]
  · show (s.askWin k op r).idb.at i = _
    unfold State.askWin
    dsimp only
    rw [Window.dbSet_idb _ _ _ _ ht, Window.dbSet_idb _ _ _ _ hf, Window.noteCross_rest]
    rfl

/-- A request made from a state in which a command has been taken, and from the one before. -/
theorem State.TakenFrom.ask {u v : State} {op : Nat} {p : Packet} (h : u.TakenFrom v op p) {k : Nat} (hk : k ≠ 6)
    (e0 : u.Enters k) (n : Nat) (r : Req) : (u.postReq k n r).TakenFrom (v.postReq k n r) op p := by
  have hw : v.win = u.win := h.only.2 .win (by simp)
  have hc : v.clock = u.clock := h.only.2 .clock (by simp)
  have hi : v.isl = u.isl := h.only.2 .isl (by simp)
  have hn : v.now = u.now := by unfold State.now; rw [hc]
  have e1 : v.Enters k := by
    unfold State.Enters State.reqUp State.upAt at *
    rw [hw, hi]; exact e0
  have hwin : v.askWin k n r = u.askWin k n r := by
    unfold State.askWin
    rw [hw, hn]
    have : (k == 6) = false := by simpa using hk
    simp only [this, Bool.false_and]
  obtain ⟨o, e, a⟩ := State.postReq_eq e0 n r
  obtain ⟨o', e', a'⟩ := State.postReq_eq e1 n r
  rw [e, e', hwin]
  refine ⟨⟨h.only.1, fun q hq => ?_⟩, ?_, ?_, fun c hc => ?_⟩
  · have := h.only.2 q hq
    cases q <;> first | exact this | rfl | simp at hq
  · rw [(State.assembled_congr (s := u) (t := (u.setWin (u.askWin k n r)).setObs o) op p rfl).1]
    exact h.mgmt
  · have h1 := a'.1
    have h2 := a.1
    have h3 := h.trace.1
    simp only [State.setObs_obs] at h1 h2 ⊢
    rw [h1, h3, h2]
  · have x := a'.2 c hc
    have y := a.2 c hc
    have z := h.trace.2 c hc
    simp only [State.setObs_obs] at x y ⊢
    exact x.trans (z.trans y.symm)

/-! ## The same effect before and after a command is taken -/

section
variable {u v : State} {op : Nat} {p : Packet}

theorem State.TakenFrom.setMeas (h : u.TakenFrom v op p) (m : Meas) : (u.setMeas m).TakenFrom (v.setMeas m) op p :=
  ⟨⟨h.only.1, fun q hq => by have := h.only.2 q hq; cases q <;> first | exact this | rfl⟩, by
    rw [(State.assembled_congr (s := u) (t := u.setMeas m) op p rfl).1]; exact h.mgmt, h.trace⟩

theorem State.TakenFrom.setLoop (h : u.TakenFrom v op p) (l : LoopOut) : (u.setLoop l).TakenFrom (v.setLoop l) op p :=
  ⟨⟨h.only.1, fun q hq => by have := h.only.2 q hq; cases q <;> first | exact this | rfl⟩, by
    rw [(State.assembled_congr (s := u) (t := u.setLoop l) op p rfl).1]; exact h.mgmt, h.trace⟩

theorem State.TakenFrom.setFab (h : u.TakenFrom v op p) (f : Fabric) : (u.setFab f).TakenFrom (v.setFab f) op p :=
  ⟨⟨h.only.1, fun q hq => by have := h.only.2 q hq; cases q <;> first | exact this | rfl⟩, by
    rw [(State.assembled_congr (s := u) (t := u.setFab f) op p rfl).1]; exact h.mgmt, h.trace⟩

theorem State.TakenFrom.setFaults (h : u.TakenFrom v op p) (f : Faults) : (u.setFaults f).TakenFrom (v.setFaults f) op p :=
  ⟨⟨h.only.1, fun q hq => by have := h.only.2 q hq; cases q <;> first | exact this | rfl⟩, by
    rw [(State.assembled_congr (s := u) (t := u.setFaults f) op p rfl).1]; exact h.mgmt, h.trace⟩

theorem State.TakenFrom.setEnergy (h : u.TakenFrom v op p) (e : Energy) : (u.setEnergy e).TakenFrom (v.setEnergy e) op p :=
  ⟨⟨h.only.1, fun q hq => by have := h.only.2 q hq; cases q <;> first | exact this | rfl⟩, by
    rw [(State.assembled_congr (s := u) (t := u.setEnergy e) op p rfl).1]; exact h.mgmt, h.trace⟩

theorem State.TakenFrom.setNvm (h : u.TakenFrom v op p) (n : Nvm) : (u.setNvm n).TakenFrom (v.setNvm n) op p :=
  ⟨⟨h.only.1, fun q hq => by have := h.only.2 q hq; cases q <;> first | exact this | rfl⟩, by
    rw [(State.assembled_congr (s := u) (t := u.setNvm n) op p rfl).1]; exact h.mgmt, h.trace⟩

theorem State.TakenFrom.setPins (h : u.TakenFrom v op p) (n : Pins) : (u.setPins n).TakenFrom (v.setPins n) op p :=
  ⟨⟨h.only.1, fun q hq => by have := h.only.2 q hq; cases q <;> first | exact this | rfl⟩, by
    rw [(State.assembled_congr (s := u) (t := u.setPins n) op p rfl).1]; exact h.mgmt, h.trace⟩

/-- MGMT changes in a way that leaves its queue, its assemblies and its replies alone. -/
theorem State.TakenFrom.setMgmt (h : u.TakenFrom v op p) (m n : Mgmt) (ha : m.assemblies = u.mgmt.assemblies)
    (e : n = { m with queue := m.queue.tail, assemblies := (u.assembled op p).1.mgmt.assemblies }) :
    (u.setMgmt m).TakenFrom (v.setMgmt n) op p :=
  ⟨⟨h.only.1, fun q hq => by have := h.only.2 q hq; cases q <;> first | exact this | simp at hq⟩, by
    rw [(State.assembled_congr (s := u) (t := u.setMgmt m) op p ha).1]; exact e, h.trace⟩

end

/-! ## Shells -/

section
variable {s u v : State} {op : Nat} {p : Packet} {own : State → Packet → List Byte → Done} {c : Cmd} {cost : Nat}
  {needs : List Island}

/-- The shell of a command asks for nothing beyond what State.Takes says: a sound length, no signature, this cost, these islands,
and NVM pages that can be read. -/
structure Cmd.Plain (c : Cmd) (s : State) (op : Nat) (p : Packet) (cost : Nat) (needs : List Island) : Prop where
  opcode : c.op = op
  unsigned : c.signable = false
  free : c.mustSign p.src = false
  right : c.right (s.taken op p) p = true
  cost : c.cost (s.taken op p) (s.paramsOf op p) = cost
  needs : c.needs (s.taken op p) (s.paramsOf op p) = needs
  fits : c.fits (s.paramsOf op p) = true
  reads : (s.taken op p).nvmRead (c.reads (s.taken op p) (s.paramsOf op p)) = (s.taken op p, true)
  waits : c.waits = true → s.NoneWaits op

/-- A command that completes at once. -/
theorem State.Takes.replied (h : s.Takes op p cost needs) (hc : c.Plain s op p cost needs)
    (hl : c.len (s.paramsOf op p).length = true) {st : Nat} {res : List Byte}
    (ho : own (s.taken op p) p (s.paramsOf op p) = .done v st res) (hv : u.TakenFrom v op p)
    (hu : u.win.mem = s.win.mem) (hq : u.mgmt.queue = s.mgmt.queue) (hp : u.mgmt.replies = s.mgmt.replies) :
    u.Replied (s.runCmd c p own) op p st res := by
  obtain ⟨rfl, h1, h2, h3, h4, h5, hf, hd, h6⟩ := hc
  exact State.runCmd_replied h hl hf h1 h2 h3 h4 h5 hd h6 ho hv hu hq hp

/-- A command that waits for an island's event. -/
theorem State.Takes.begun (h : s.Takes op p cost needs) (hc : c.Plain s op p cost needs)
    (hl : c.len (s.paramsOf op p).length = true) {isl : Option Island} {res : List Byte}
    (ho : own (s.taken op p) p (s.paramsOf op p) = .wait v isl res) (hv : u.TakenFrom v op p)
    (hu : u.win.mem = s.win.mem) (hq : u.mgmt.queue = s.mgmt.queue) :
    State.Waits s u (s.runCmd c p own) op p cost isl none res := by
  obtain ⟨rfl, h1, h2, h3, h4, h5, hf, hd, h6⟩ := hc
  exact State.runCmd_waits h hl hf h1 h2 h3 h4 h5 hd h6 ho hv hu hq

theorem plainCmd_plain (h : s.Takes op p 0 []) (len : Nat → Bool) : (plainCmd op len).Plain s op p 0 [] :=
  ⟨rfl, rfl, rfl, by show rightOf op _ p = true; rw [State.taken_rightOf]; exact h.right, rfl, rfl, rfl, rfl, by simp [plainCmd]⟩

/-- Pages that State.Readable names deliver their data. -/
theorem State.nvmRead_ok {s : State} {pages : List Nat} (h : s.Readable pages) : s.nvmRead pages = (s, true) := by
  induction pages with
  | nil => rfl
  | cons g l ih =>
    have hg : s.nvm.bad.contains g = false := by simpa using h.1 g (by simp)
    have hl := ih ⟨fun x hx => h.1 x (by simp [hx]), h.2⟩
    simp only [State.nvmRead, hg, hl, h.2.1, h.2.2, lt_self_iff_false, decide_false, Bool.false_and, Bool.false_eq_true, ↓reduceIte]

end

end Sys2Proof.Machine
end

