-- ==== Sys2Proof/Laws/Crossing.lean ====
section
/-! SUPPORT. What a parity check of a crossing token does, and what a command of an update session's owner changes. -/

namespace Sys2Proof.Machine

open Sys2Proof

/-! ## Parity of the crossing tokens (13 R333) -/

/-- A parity error adds one report, and uses up an armed access; nothing but the collector's state changes. -/
theorem State.parityError_eq (s : State) (a b : Island) (real : Bool) :
    s.parityError a b real = { s with faults := (s.parityError a b real).faults } := by
  cases h : s.parityArmed a b <;> simp [State.parityError, State.parityErrorAt, h, State.setFaults]

/-- A token without an error and without an armed injection passes. -/
theorem State.checkCrossing_good (s : State) (t : Token) (h : s.parityArmed (tokenEnds t).1 (tokenEnds t).2 = false) :
    s.checkCrossing ⟨t, false⟩ = s := by
  simp [State.checkCrossing, h]

/-- A struck token is gone and reported; a feed was checked in the tick before. -/
theorem State.checkCrossing_struck (s u : State) (c : Crossing) (ht : s.without c.tok = some u)
    (h : c.err = true ∨ s.parityArmed (tokenEnds c.tok).1 (tokenEnds c.tok).2 = true) :
    s.checkCrossing c = if c.tok = .feed then u.parityErrorAt (tokenEnds c.tok).1 (tokenEnds c.tok).2 c.err (s.now - 1) s.clock.prev
      else u.parityError (tokenEnds c.tok).1 (tokenEnds c.tok).2 c.err := by
  have h' : (c.err || s.parityArmed (tokenEnds c.tok).1 (tokenEnds c.tok).2) = true := by simpa using h
  simp [State.checkCrossing, h', ht]

/-! ## An update session (14 R353) -/

variable (s : State) (p : Packet)

@[simp] theorem State.touchUpd_nvm : (s.touchUpd p).nvm = s.nvm := rfl
@[simp] theorem State.touchUpd_win : (s.touchUpd p).win = s.win := rfl
@[simp] theorem State.touchUpd_energy : (s.touchUpd p).energy = s.energy := rfl
@[simp] theorem State.touchUpd_now : (s.touchUpd p).now = s.now := rfl
@[simp] theorem State.touchUpd_upd : (s.touchUpd p).mgmt.upd = s.mgmt.upd.map fun u => if u.owns p then { u with last := s.now } else u := rfl

/-- Without a session there is none to keep open. -/
theorem State.touchUpd_none (h : s.mgmt.upd = none) : s.touchUpd p = s := by
  have : ({ s.mgmt with upd := none } : Mgmt) = s.mgmt := by rw [← h]
  simp [State.touchUpd, h, State.setMgmt, this]

end Sys2Proof.Machine
end

