-- ==== Sys2Proof/Laws/Grows.lean ====
section
/-! SUPPORT. What no operation of the machine breaks, as one preorder on states: the queue of steps, the canonical forms, the
bounds of the result queue and the fault log, the fused digest, the anti-rollback fuses, the signature counters and FATAL_SEEN.
Each operation has one lemma that says it keeps to the preorder. -/

namespace Sys2Proof.Machine

open Sys2Proof

/-- What every step keeps, a power-up and FLT_CLEAR included. -/
structure State.Keeps (s t : State) : Prop where
  pending : t.pending = s.pending
  free : s.free ≤ t.free
  memory : s.memoryOk → t.memoryOk
  images : s.imagesOk → t.imagesOk
  queue : s.queueOk → t.queueOk
  log : s.logOk → t.logOk
  oem : s.nvm.oem ≠ none → t.nvm.oem = s.nvm.oem
  fuses : ∀ i : Island, s.nvm.fuses.at i ≤ 63 → s.nvm.fuses.at i ≤ t.nvm.fuses.at i ∧ t.nvm.fuses.at i ≤ 63
  vendor : s.nvm.ctrVendor ≤ t.nvm.ctrVendor
  ctrOem : s.nvm.ctrOem ≤ t.nvm.ctrOem

/-- What every step but a power-on reset and FLT_CLEAR keeps: FATAL_SEEN stays set as well (11 R271). -/
structure State.Grows (s t : State) : Prop extends State.Keeps s t where
  fatal : s.faults.fatalSeen = true → t.faults.fatalSeen = true

theorem State.Keeps.refl (s : State) : s.Keeps s :=
  ⟨rfl, le_rfl, id, id, id, id, fun _ => rfl, fun _ h => ⟨le_rfl, h⟩, le_rfl, le_rfl⟩

theorem State.Keeps.trans {s t u : State} (h : s.Keeps t) (k : t.Keeps u) : s.Keeps u where
  pending := k.pending.trans h.pending
  free := h.free.trans k.free
  memory := k.memory ∘ h.memory
  images := k.images ∘ h.images
  queue := k.queue ∘ h.queue
  log := k.log ∘ h.log
  oem e := (k.oem (h.oem e ▸ e)).trans (h.oem e)
  fuses i b := ⟨(h.fuses i b).1.trans (k.fuses i (h.fuses i b).2).1, (k.fuses i (h.fuses i b).2).2⟩
  vendor := h.vendor.trans k.vendor
  ctrOem := h.ctrOem.trans k.ctrOem

theorem State.Grows.refl (s : State) : s.Grows s := ⟨.refl s, id⟩

theorem State.Grows.trans {s t u : State} (h : s.Grows t) (k : t.Grows u) : s.Grows u :=
  ⟨h.toKeeps.trans k.toKeeps, k.fatal ∘ h.fatal⟩

/-! ## The window's bytes under changes of its registers -/

@[simp] theorem Window.setMb_mem (w : Window) (k : Nat) (m : Mailbox) : (w.setMb k m).mem = w.mem := rfl

@[simp] theorem Window.setOwner_mem (w : Window) (n : Nat) (o : Own) (src : Byte) : (w.setOwner n o src).mem = w.mem := rfl

@[simp] theorem Window.noteCross_mem (w : Window) (k now : Nat) : (w.noteCross k now).mem = w.mem := by
  unfold Window.noteCross
  dsimp only
  split <;> rfl

@[simp] theorem Faults.editLog_length (f : Faults) (n : BitVec 16) (g : LogEntry → LogEntry) :
    (f.editLog n g).log.length = f.log.length := by simp [Faults.editLog]

@[simp] theorem Faults.editLog_fatalSeen (f : Faults) (n : BitVec 16) (g : LogEntry → LogEntry) :
    (f.editLog n g).fatalSeen = f.fatalSeen := rfl

/-! ## Updates of the parts -/

section
variable {s x : State}

/-- All that the preorder speaks of, read off a state. -/
def State.tracked (x : State) : List Instr × Nat × List Host.Cell × Quad (List Host.Cell) × Quad (List Host.Cell) × List QEntry ×
    List LogEntry × Option (List Byte) × Quad Nat × Nat × Nat × Bool :=
  (x.pending, x.free, x.win.mem, x.nvm.imgA, x.nvm.imgB, x.meas.queue, x.faults.log, x.nvm.oem, x.nvm.fuses, x.nvm.ctrVendor,
    x.nvm.ctrOem, x.faults.fatalSeen)

/-- A state that agrees with one in all that the preorder speaks of. -/
theorem State.Grows.same {t : State} (h : s.Grows x) (e : t.tracked = x.tracked) : s.Grows t := by
  simp only [State.tracked, Prod.mk.injEq] at e
  obtain ⟨h1, h2, h3, h4, h5, h6, h7, h8, h9, h10, h11, h12⟩ := e
  exact h.trans
    { pending := h1, free := h2.ge, memory := fun m => by rw [State.memoryOk, h3]; exact m
      images := fun m => by intro i; rw [h4, h5]; exact m i, queue := fun m => by rw [State.queueOk, h6]; exact m
      log := fun m => by rw [State.logOk, h7]; exact m, oem := fun _ => h8, fuses := fun i b => by rw [h9]; exact ⟨le_rfl, b⟩
      vendor := h10.ge, ctrOem := h11.ge, fatal := fun m => h12.trans m }

theorem State.setMgmt_grows (h : s.Grows x) (m : Mgmt) : s.Grows (x.setMgmt m) := h.same rfl
theorem State.setLoop_grows (h : s.Grows x) (l : LoopOut) : s.Grows (x.setLoop l) := h.same rfl
theorem State.setFab_grows (h : s.Grows x) (f : Fabric) : s.Grows (x.setFab f) := h.same rfl
theorem State.setEnergy_grows (h : s.Grows x) (e : Energy) : s.Grows (x.setEnergy e) := h.same rfl
theorem State.setObs_grows (h : s.Grows x) (o : Obs) : s.Grows (x.setObs o) := h.same rfl
theorem State.setPort_grows (h : s.Grows x) (p : Port) (y : PortSt) : s.Grows (x.setPort p y) := h.same rfl
theorem State.setIsl_grows (h : s.Grows x) (i : Island) (y : Isl) : s.Grows (x.setIsl i y) := h.same rfl
theorem State.setPins_grows (h : s.Grows x) (p : Pins) : s.Grows (x.setPins p) := h.same rfl
theorem State.updateRegister_grows (h : s.Grows x) : s.Grows x.updateRegister := h.same rfl

theorem State.setWin_grows (h : s.Grows x) (w : Window) (e : w.mem = x.win.mem) : s.Grows (x.setWin w) :=
  h.same (by simp [State.tracked, e])

theorem State.setMeas_grows (h : s.Grows x) (m : Meas) (e : m.queue = x.meas.queue) : s.Grows (x.setMeas m) :=
  h.same (by simp [State.tracked, e])

/-- A result queue that shrinks, or stays within its bound. -/
theorem State.setMeas_grows_of (h : s.Grows x) (m : Meas) (e : x.meas.queue.length ≤ 512 → m.queue.length ≤ 512) :
    s.Grows (x.setMeas m) :=
  h.trans { State.Grows.refl x with queue := e }

theorem State.setFaults_grows (h : s.Grows x) (f : Faults) (e : f.log.length = x.faults.log.length)
    (k : f.fatalSeen = x.faults.fatalSeen) : s.Grows (x.setFaults f) :=
  h.trans { State.Grows.refl x with log := fun b => e.trans_le b, fatal := fun b => k.trans b }

theorem State.setNvm_grows (h : s.Grows x) (n : Nvm) (h4 : n.imgA = x.nvm.imgA) (h5 : n.imgB = x.nvm.imgB)
    (h8 : n.oem = x.nvm.oem) (h9 : n.fuses = x.nvm.fuses) (h10 : n.ctrVendor = x.nvm.ctrVendor)
    (h11 : n.ctrOem = x.nvm.ctrOem) : s.Grows (x.setNvm n) :=
  h.same (by simp [State.tracked, h4, h5, h8, h9, h10, h11])

theorem State.draw_grows (h : s.Grows x) (w : Nat) : s.Grows (x.draw w).2 :=
  h.trans { State.Grows.refl x with free := Nat.le_succ _ }

/-- Written bytes keep the canonical form. -/
theorem State.winWrite_grows (h : s.Grows x) (a : Nat) (bs : List Byte) : s.Grows (x.winWrite a bs) :=
  h.trans { State.Grows.refl x with memory := fun m => cellsWrite_wf a bs m }

/-! ## Folds and pairs -/

theorem foldl_grows {α : Type} {f : State → α → State} (hf : ∀ y a, State.Grows s y → State.Grows s (f y a)) (h : s.Grows x)
    (l : List α) : s.Grows (l.foldl f x) := by
  induction l generalizing x with
  | nil => exact h
  | cons a l ih => exact ih (hf x a h)

theorem foldl_fst_grows {α β : Type} {f : State × β → α → State × β}
    (hf : ∀ y a, State.Grows s y.1 → State.Grows s (f y a).1) (y : State × β) (h : s.Grows y.1) (l : List α) :
    s.Grows (l.foldl f y).1 := by
  induction l generalizing y with
  | nil => exact h
  | cons a l ih => exact ih _ (hf y a h)

theorem fst_grows {β : Type} {p : State × β} {a : State} {b : β} (e : p = (a, b)) (h : s.Grows p.1) : s.Grows a := by
  rw [e] at h; exact h

theorem snd_grows {β : Type} {p : β × State} {a : State} {b : β} (e : p = (b, a)) (h : s.Grows p.2) : s.Grows a := by
  rw [e] at h; exact h

theorem ite_grows {c : Prop} [Decidable c] {a b : State} (h : s.Grows a) (k : s.Grows b) : s.Grows (if c then a else b) := by
  split <;> assumption

end

end Sys2Proof.Machine
end

