-- ==== Sys2Proof/Laws/Linear.lean ====
section
/-! SUPPORT. The stated deviation of the ROM coefficient sets (07 R169, Table 7-2). -/

namespace Sys2Proof.Machine

open Sys2Proof

/-- A set has one stated deviation, whatever the temperature. -/
theorem romBound_unique {id : Nat} {t : Int} {x y b c : ℚ} (hx : romBound id t x = some b) (hy : romBound id t y = some c) : b = c := by
  unfold romBound at hx hy
  split at hx <;> simp only [*, if_true, Option.map_eq_some_iff, reduceCtorEq] at hx hy
  obtain ⟨r, hr, rfl⟩ := hx
  obtain ⟨q, hq, rfl⟩ := hy
  have mr := List.mem_of_find?_eq_some hr
  have mq := List.mem_of_find?_eq_some hq
  have er := List.find?_some hr
  have eq := List.find?_some hq
  simp only [Bool.and_eq_true, beq_iff_eq] at er eq
  have one : ∀ a ∈ romRange, ∀ b ∈ romRange, a.1 = b.1 → a.2.2.2 = b.2.2.2 := by decide
  rw [one r mr q mq (er.1.trans eq.1.symm)]

/-- Where a set's deviation is stated, its value is no farther from the sensor's temperature. -/
theorem romValue_near {id : Nat} {u t : Int} {b : ℚ} (h : romBound id t (sensorTemp id u t) = some b) :
    |romValue id u t - sensorTemp id u t| ≤ b := by
  unfold sensorTemp at h ⊢
  dsimp only at h ⊢
  split at h
  · next c hc =>
    have e := romBound_unique hc h
    subst e
    have pos : 0 ≤ c := by
      unfold romBound at hc
      split at hc <;> simp only [Option.map_eq_some_iff, reduceCtorEq] at hc
      obtain ⟨r, -, rfl⟩ := hc
      positivity
    rw [sub_sub_cancel, abs_le]
    exact ⟨le_max_left _ _, max_le (by linarith) (min_le_left _ _)⟩
  · next hc => exact absurd (h.symm.trans hc) (by simp)

end Sys2Proof.Machine
end

