-- ==== Sys2Proof/WellFormed.lean ====
section
/-! DEFINITION. Well-formed steps: operands of the shape that the wires, buffers and transforms of the spec can carry. A step
outside it stands for no event of the device; its meaning is total all the same. -/

namespace Sys2Proof

/-- A packet as a window buffer holds it: NB_LEN has 9 bits, PLEN 16, and 248 parameter bytes at most (11 Table 11-11,
12 Table 12-1, R296). -/
def Packet.wf (p : Packet) : Bool :=
  decide (p.nbLen < 512) && decide (p.plen < 65536) && decide (p.params.length = min p.plen 248)

/-- A frame's payload has LEN bytes (09 Table 9-5, 10 R240). -/
def Frame.wf (f : Frame) : Bool := decide (f.payload.length = f.len.toNat)

/-- One value per sub-carrier of a transform (09 R216, R217). -/
def carriersOk (y : List Cplx) : Bool := decide (y.length = 64)

/-- Whether a step is well-formed. -/
def Instr.wf : Instr → Bool
  | .devIdentify p | .devStatus p | .devResetIsland p | .almWrite p | .almRead p | .almApply p | .almCheck p
  | .almSave p | .seqStart p | .seqStop p | .seqTrigger p | .queueBind p | .sliceRetire p | .sliceRestore p
  | .linLoad p | .linSwap p | .linRead p | .varRead p | .loopSetFixed p | .loopRelease p | .loopTrim p
  | .loopStatus p | .fabAssign p | .fabBearingWrite p | .fabBearingRead p | .fabSessions p | .fabNoiseFloor p
  | .fabTimeRead p | .fabTimeSetEvent p | .fabTimeClearEvent p | .fabTimeSetCount p | .fabPublishSlots p | .fskPass p
  | .fltReadLog p | .fltAck p | .fltInject p | .fltClear p | .secAttest p | .secCertRead p | .updBegin p
  | .updChunk p | .updVerify p | .updActivate p | .secGrant p | .updVersionInfo p | .obsCounters p
  | .obsTraceSelect p | .obsEnergy p | .regRead p | .regWrite p | .startConv p | .stopConv p | .trigConv p
  | .readChannel p | .readPv p | .loopFix p | .loopFree p | .loopTrimZero p | .loopTrimSpan p | .calWrite p
  | .calRead p | .saveConfig p | .identify p | .status p | .commandFragment _ p | .continuationRead _ p => p.wf
  | .cmdFrame _ f | .pollFrame _ f | .sweepFrame _ f _ | .beaconAccept _ f _ | .deviceFrameReceive _ f
  | .frameForward _ f => f.wf
  | .qualificationEnd given => decide (given.convs.length = 16)
  | .modeDecision _ y0 y1 => carriersOk y0 && carriersOk y1
  | .symbolDemod _ y => carriersOk y
  | .energyBlock _ ys => !ys.isEmpty
  | .noiseFloorUpdate _ powers => decide (powers.length = 64) && powers.all fun l => decide (l.length = 64)
  | .queueRead _ len _ => decide (0 < len)
  | .oemDigestFuse digest _ => decide (digest.length = 32)
  | .assemblyDiscard _ | .outstandingCompletion _ | .spiWrite _ _ | .bufferClaim _ _ | .bufferRelease _ _
  | .mb0Post _ | .mb1AckAccepted | .mb1AckBadNotice | .mb0AckRead _ | .doorbellClear _ | .lockAcquire _ _ _
  | .lockRelease _ _ _ | .mb0NoticeConsume | .mbAcknowledge _ | .mbTimeout _ | .cross _ | .aonPowerUp _
  | .crystalStart | .aonPowerOnReset | .bootVerify _ _ | .rstNAssert | .rstNRelease _ | .tickBoundary _
  | .supplyReading _ | .evaluationBoundary _ | .boostRequest | .loopLowStop | .buckUndervoltageStop
  | .brownoutRecovery | .vioShort | .complianceEnter | .complianceClear | .miswireFold | .miswireRetry
  | .miswireClear | .clockLoss | .clockRestore | .blankFreeze | .blankResume | .blankStuck | .gpioTrigger _
  | .triggerWindowStart _ | .triggerWindowEnd _ | .roundStart | .roundAlignment | .slotConversion _ _
  | .rawSampleCorrection | .linearisation | .calibrationConversion _ _ | .breakCheck _ _ | .sliceCheckFail _
  | .fallbackMapSwitch | .failureMapCompile | .sextantComparison _ _ | .sextantReferenceWindow _ | .linSwapEffect
  | .tapDrain | .streamFlush _ | .loopUpdate _ | .holdUpdate | .interruption | .holdLimitExpiry | .feedReplay
  | .sync _ _ | .qualifierWindowEnd _ | .headerVerdict _ | .codewordDecode | .muteEnd _ | .packetTransmitStart _
  | .idleLineApply | .fskCarrierOn | .fskCarrierOff | .fskOctetReceive _ | .fskTransmitStart | .fskPassTimeout
  | .beaconTimeout | .beaconRelay | .timeEventFire | .forwardTransmit _ | .replyTurnaround _ | .sweepReplySlot
  | .publishSlot _ | .sessionClose _ | .faultReport _ | .watchdogExpiry _ | .clockOutOfLock _ | .tempHigh
  | .supRail _ | .graceExpiry | .autoAck _ | .faultNRelease | .snapshotWrite | .injectionArm | .shadowEnd _ _
  | .islandResetRelease _ _ | .islandUp _ | .activation _ | .trialCommit _ | .trialRevert _ | .updSessionTimeout
  | .traceSync | .packetTransmitEnd _ | .islandRequestTimeout _ => true

end Sys2Proof
end

