-- ==== Sys2Proof/Tests/Slice0.lean ====
section
/-! SUPPORT. The model's own tests: ill-formed steps that WellFormed refuses, values that the spec works out, and, for each
statement of Certificates/Slice0 that has premises, states and operands that meet them. A premise about an opaque constant of
Config is a premise here as well. -/

namespace Sys2Proof.Tests

open Sys2Proof Sys2Proof.Machine

set_option Elab.async false

/-! ## States and packets for the tests -/

/-- The device with every island up, at tick 1,000. -/
def running : State := { State.reset with
  clock := { Clock.reset with powered := true, running := true, tick := 1000, meridian := 1000, prev := 999 }
  pins := { Pins.reset with started := Quad.all true }, isl := Quad.all Isl.aon0, ready := true, boot := .done, nvm := { State.reset.nvm with oem := none } }

/-- The same with AUX present, so that every declared cost is admitted (03 R57). -/
def rich : State := { running with energy := { running.energy with aux := true } }

/-- One channel in sequence 0, a round of 500 ticks. -/
def tank : Alm := ((Alm.default.set (fid 2 0 0) 1).set (fid 3 0 0) 1).set (fid 1 0 6) 500

/-- `s` with one almanac as shadow, committed and in force. -/
def withAlm (s : State) (a : Alm) : State := { s with mgmt := { s.mgmt with shadow := a, committed := a, inForce := a } }

/-- `s` with an assembly of the local host for an opcode. -/
def withParts (s : State) (op : Nat) (bytes : List Byte) : State :=
  { s with mgmt := { s.mgmt with assemblies := [⟨0x01, op, 0x5A, bytes, 0⟩] } }

/-- A packet of the local host in buffer 0. -/
def pk (params : List Byte) (flags : Byte := 0) : Packet := ⟨0x01, 0, 0, 8 + params.length, 0x5A, flags, params.length, 0, params⟩

/-- A packet by whose sender nothing may be done but what everyone may: a session without grants. -/
def stranger (params : List Byte) : Packet := { pk params with src := 0x80, sender := 0x041 }

/-- The conditions of `Delivers`, as a test. -/
def deliversB (s : State) (op : Nat) (p : Packet) : Bool :=
  Memory.wf s.win.mem && s.mgmt.replies.isEmpty && s.mgmt.queue.isEmpty && s.mgmtUp && s.ready && (s.mgmt.outst.all fun o => o.op != 0x0701) &&
    headerStatus p == none && !pktMore p && !pktCont p && decide ((s.paramsOf op p).length ≤ 4096)

theorem delivers_of {s : State} {op : Nat} {p : Packet} (h : deliversB s op p = true) : s.Delivers op p := by
  simp only [deliversB, Bool.and_eq_true, List.isEmpty_iff, Bool.not_eq_true', decide_eq_true_eq, beq_iff_eq, List.all_eq_true, bne_iff_ne] at h
  obtain ⟨⟨⟨⟨⟨⟨⟨⟨⟨a, b⟩, c⟩, d⟩, e⟩, o⟩, f⟩, g⟩, i⟩, j⟩ := h
  exact ⟨a, by simp [b], d, e, o, .inl c, f, ⟨g, i⟩, j⟩

/-- The conditions of `Takes` but for its cost, as a test. -/
def takesB (s : State) (op : Nat) (p : Packet) (needs : List Island) : Bool := deliversB s op p && rightOf op s p && needs.all s.upAt

theorem takes_of {s : State} {op : Nat} {p : Packet} {cost : Nat} {needs : List Island} (h : takesB s op p needs = true)
    (hc : s.admits cost = true) : s.Takes op p cost needs := by
  simp only [takesB, Bool.and_eq_true, List.all_eq_true] at h
  exact ⟨delivers_of h.1.1, h.1.2, hc, h.2⟩

theorem admits_rich (cost : Nat) : rich.admits cost = true := by simp [State.admits, rich]

/-! ## Ill-formed steps -/

theorem test_wf_packet : Instr.wf (.devIdentify { pk [] with plen := 3 }) = false := by decide
theorem test_wf_notice_length : Instr.wf (.devIdentify { pk [] with nbLen := 512 }) = false := by decide
theorem test_wf_parameter_count : Instr.wf (.devIdentify { pk (zeros 249) with plen := 249 }) = false := by decide +kernel
theorem test_wf_frame : Instr.wf (.pollFrame .loop ⟨5, 1, 2, 0, 1, 0, [], .standard⟩) = false := by decide
theorem test_wf_codes : Instr.wf (.qualificationEnd ⟨[], true⟩) = false := by decide
theorem test_wf_carriers : Instr.wf (.symbolDemod .loop []) = false := by decide
theorem test_wf_mode_carriers : Instr.wf (.modeDecision .loop (List.replicate 64 ⟨0, 0⟩) []) = false := by decide +kernel
theorem test_wf_block : Instr.wf (.energyBlock .loop []) = false := by decide
theorem test_wf_powers : Instr.wf (.noiseFloorUpdate .loop (List.replicate 64 [])) = false := by decide +kernel
theorem test_wf_queue_read : Instr.wf (.queueRead 0x4600 0 true) = false := by decide
theorem test_wf_digest : Instr.wf (.oemDigestFuse [] true) = false := by decide
theorem test_wf_accepts : Instr.wf (.devIdentify (pk [])) = true := by decide

/-! ## What reaches the step -/

/-- The rows of the table give no bits, so that no word spells a command. -/
theorem test_no_word_spells_a_command : decodeTableWord 16 0x0001 = none := by decide
theorem test_step_runs_the_front : ∃ t, step { running with pending := [.crystalStart] } = .next t ∧ t.pending = [] :=
  ⟨_, rfl, rfl⟩
theorem test_empty_queue_idles : step running = .next running := rfl

/-! ## Witnesses: commands -/

theorem wit_reports :
    running.Takes 0x0001 (pk []) 0 [] ∧ running.Takes 0x0002 (pk []) 0 [] ∧ running.Takes 0x0702 (pk []) 0 [] ∧
    running.Takes 0x0708 (pk []) 0 [] ∧ running.Takes 0x0803 (pk []) 0 [] ∧ running.Takes 0x0404 (pk []) 0 [.loop] ∧
    running.Takes 0x0503 (pk []) 0 [] ∧ running.Takes 0x0504 (pk []) 0 [.loop] ∧ running.Takes 0x0F60 (pk []) 0 [] ∧
    running.Takes 0x0F61 (pk []) 0 [] ∧ running.Takes 0x0F01 (pk [0, 1]) 0 [] ∧ running.Takes 0x0F41 (pk []) 0 [] ∧
    running.Takes 0x0505 (pk [0, 0, 0, 0]) 0 [.loop] ∧ running.Takes 0x0505 (pk [1, 0, 0, 0]) 0 [.loop] ∧
    running.Takes 0x0506 (pk (zeros 8)) 0 [.loop] := by
  refine ⟨?_, ?_, ?_, ?_, ?_, ?_, ?_, ?_, ?_, ?_, ?_, ?_, ?_, ?_, ?_⟩ <;> exact takes_of (by decide) (by decide)

/-- Without an assembly the parameters are the packet's own. -/
theorem params_running (op : Nat) (p : Packet) : running.paramsOf op p = p.params := rfl
theorem params_rich (op : Nat) (p : Packet) : rich.paramsOf op p = p.params := rfl

theorem wit_readable :
    running.Readable certPages ∧ running.Readable [seedPage] ∧ running.Readable calPages ∧
    running.Readable NvmArea.snapshot.all := by
  refine ⟨?_, ?_, ?_, ?_⟩ <;> exact ⟨fun _ _ h => (List.not_mem_nil h).elim, rfl, rfl⟩
/-- A page of the certificate, the seed's, a page of the calibration block and one of the snapshot have uncorrectable words. -/
def spoilt : State := rich.setNvm { rich.nvm with bad := [2592, 2607, 2336, 2624] }
theorem wit_unreadable :
    NvmArea.snapshot.all.find? spoilt.nvm.bad.contains = some 2624 ∧ certPages.find? spoilt.nvm.bad.contains = some 2592 ∧
    [seedPage].find? spoilt.nvm.bad.contains = some 2607 ∧ calPages.find? spoilt.nvm.bad.contains = some 2336 ∧
    spoilt.faults.armedFor 8 = 0 ∧ spoilt.faults.armedFor 9 = 0 ∧
    takesB spoilt 0x0601 (pk [1, 0, 15, 0]) [] = true ∧ takesB spoilt 0x0702 (pk []) [] = true ∧
    takesB spoilt 0x0701 (pk (zeros 32)) [] = true ∧ takesB spoilt 0x0F41 (pk []) [] = true := by decide +kernel
theorem wit_noise_floor_measured :
    ({ running with ports := running.ports.put .loop { running.port .loop with floorTick := some 990 } } : State).Takes 0x0505
      (pk [0, 0, 0, 0]) 0 [.loop] := takes_of (by decide) (by decide)
theorem wit_fab_time_read : running.hasRight (pk (zeros 8)) 0 = true ∧ fabTimeOp (pk (zeros 8)) = 0 := by decide

theorem wit_reads :
    running.Takes 0x0303 (pk [0, 0, 0, 0]) 0 [.meas] ∧ running.Takes 0x0303 (pk [19, 1, 0, 0]) 0 [.meas] ∧
    running.Takes 0x0304 (pk [1, 0, 0, 0]) 0 [.meas] ∧ running.Takes 0x0304 (pk [255, 0, 0, 0]) 0 [.meas] ∧
    running.Takes 0x0601 (pk [0, 255, 15, 0]) 0 [] ∧ running.Takes 0x0601 (pk [1, 0, 1, 0]) 0 [] ∧
    running.Takes 0x0F20 (pk [0, 1]) 0 [.meas] ∧ running.Takes 0x0F21 (pk [1]) 0 [.meas] ∧
    running.Takes 0x0801 (pk [47, 1, 0, 0]) 0 [] ∧ running.Takes 0x0801 (pk [0, 48, 0, 0]) 0 [] := by
  refine ⟨?_, ?_, ?_, ?_, ?_, ?_, ?_, ?_, ?_, ?_⟩ <;> exact takes_of (by decide) (by decide)
theorem wit_almanac_read : ∀ ids ∈ [[fid 2 0 0], List.replicate 60 (fid 7 0 1)], ids ≠ [] ∧ ids.length ≤ 60 ∧
    (∀ id ∈ ids, (fieldRow id).isSome ∧ id < 65536) ∧
    takesB running 0x0102 (pk (leBytes 1 1 ++ [0] ++ leBytes 2 ids.length ++ ids.flatMap (leBytes 2))) [] = true := by
  decide +kernel
/-- An entry that waits, one in force at once, and one of the energy block, which is held to the budget. -/
theorem wit_almanac_write : ∀ e ∈ [(fid 2 0 0, 1), (fid 9 0 0, 5), (fid 0 0 3, 2)],
    fieldOfWire e.1 e.2 = some (e.2 : Int) ∧ running.trigPinTaken e.1 e.2 = false ∧ running.stopBlocked e.1 = false ∧
    (e.1 / 2048 ≠ 0 ∨ running.overBudget (running.mgmt.shadow.withEntries [e]) = false) ∧ running.hasRight (pk []) 4 = true ∧
    running.almLocked (pk []) = false ∧ takesB running 0x0101 (pk (leBytes 2 1 ++ leBytes 2 e.1 ++ leBytes 4 e.2)) [] = true ∧
    running.mgmt.shadow.wf = true := by decide +kernel

theorem wit_check_passes : ∃ m fs, (withAlm running tank).checkShadow = .ok (m, fs) := by
  have h : (withAlm running tank).checkShadow.isOk = true := by decide +kernel
  cases e : (withAlm running tank).checkShadow with
  | ok x => exact ⟨x.1, x.2, rfl⟩
  | error x => rw [e] at h; cases h
theorem wit_check_takes :
    takesB (withAlm running tank) 0x0104 (pk []) [] = true ∧
    takesB (withAlm running tank) 0x0103 (pk []) (withAlm running tank).applyNeeds = true ∧
    (withAlm running tank).almLocked (pk []) = false ∧ (withAlm running tank).mapBusy = false := by decide +kernel
/-- Without a primary sequence the check fails at SQ_LEN of sequence 0 (06 R133, 12 R309). -/
theorem test_check_fails : (match running.checkShadow with
    | .error ((st, field), _) => (st == stInfeasible || st == stBadParam) && field == fid 3 0 0
    | .ok _ => false) = true := by decide +kernel
/-- The shadow is locked by a slice's retirement that is under way. -/
theorem wit_apply_busy :
    let s := running.setMeas { running.meas with job := some (.restore 0 5) }
    s.mapBusy = true ∧ takesB s 0x0103 (pk []) s.applyNeeds = true := by decide +kernel

theorem wit_save : rich.almLocked (pk []) = false ∧ rich.Takes 0x0105 (pk []) 150 [] ∧ rich.Takes 0x0F50 (pk []) 150 [] :=
  ⟨by decide, takes_of (by decide) (admits_rich _), takes_of (by decide) (admits_rich _)⟩
theorem wit_calibration_write :
    rich.Takes 0x0F40 (pk [0, 1]) (6 * Config.m16Pages 0x0F40 (rich.paramsOf 0x0F40 (pk [0, 1]))) [] :=
  takes_of (by decide) (admits_rich _)

theorem wit_bind : ∀ k : Fin 4, ∀ w ∈ [(1, 0, 1, 4, 1), (0xFFFFF, 1, 0, 16, 1000000)],
    let fs := [(fid 5 k.val 0, w.1), (fid 5 k.val 1, w.2.1), (fid 5 k.val 2, w.2.2.1), (fid 5 k.val 3, w.2.2.2.1), (fid 5 k.val 4, w.2.2.2.2)]
    (∀ f ∈ fs, fieldOfWire f.1 f.2 = some (f.2 : Int)) ∧ (∀ q : Fin 4, running.mgmt.committed.streamOn q.val = false) ∧
    takesB running 0x0204 (pk ([BitVec.ofNat 8 k.val, 0, 0, 0] ++ leBytes 4 w.1 ++ leBytes 1 w.2.1 ++ leBytes 1 w.2.2.1 ++
      leBytes 1 w.2.2.2.1 ++ [0] ++ leBytes 4 w.2.2.2.2)) [.meas] = true ∧
    running.mgmt.shadow.wf = true ∧ running.mgmt.committed.wf = true := by decide +kernel
/-- Stream 0 would take channel 0, which stream 1 has (06 R161). -/
theorem wit_bind_shared :
    let s := withAlm running (((tank.set (fid 5 1 0) 1).set (fid 5 1 2) 20).set (fid 5 1 3) 1)
    s.mgmt.committed.streamOn 1 = true ∧ 1 &&& s.mgmt.committed.qsChmask 1 ≠ 0 ∧ s.mgmt.committed.wf = true ∧ s.mgmt.shadow.wf = true ∧
    takesB s 0x0204 (pk ([0, 0, 0, 0] ++ leBytes 4 1 ++ [0, 1, 4, 0] ++ leBytes 4 1)) [.meas] = true := by decide +kernel
theorem wit_register_write :
    running.Takes 0x0F02 (pk [0, 1]) 0 [] ∧ running.mgmt.shadow.wf = true ∧ running.mgmt.committed.wf = true ∧
    running.mgmt.inForce.wf = true := ⟨takes_of (by decide) (by decide), by decide +kernel, by decide +kernel, by decide +kernel⟩

/-- Sequence 1 is a triggered one. -/
def watch : Alm := ((tank.set (fid 3 1 0) 1).set (fid 3 1 1) 1).set (fid 4 1 0) 1
theorem wit_sequences :
    (∀ q : Fin 4, (3 : Byte).toNat.testBit q.val = true → (withAlm running watch).mgmt.committed.sqLen q.val ≠ 0) ∧
    (withAlm running watch).auxBlocked = false ∧ takesB (withAlm running watch) 0x0201 (pk [3, 0, 0, 0]) [.meas] = true ∧
    takesB (withAlm running watch) 0x0202 (pk [15, 0, 0, 0]) [.meas] = true ∧
    (∀ q : Fin 4, (2 : Byte).toNat.testBit q.val = true → (withAlm running watch).mgmt.inForce.sqTriggered q.val = true) ∧
    takesB (withAlm running watch) 0x0203 (pk [2, 0, 0, 0]) [.meas] = true ∧ (withAlm running watch).mgmt.outst = [] := by
  decide +kernel
theorem wit_sequences_m16 :
    running.Takes 0x0F10 (pk [1]) 0 [.meas] ∧ running.Takes 0x0F11 (pk [1]) 0 [.meas] ∧ running.Takes 0x0F12 (pk [1]) 0 [.meas] ∧
    running.NoneWaits 0x0F10 := ⟨takes_of (by decide) (by decide), takes_of (by decide) (by decide), takes_of (by decide) (by decide), by
      simp [State.NoneWaits, running, State.reset, Mgmt.reset]⟩

theorem wit_slices : ∀ sl : Fin 4,
    let s := withAlm running tank
    let r := s.setMeas { s.meas with slices := s.meas.slices.set sl.val { s.meas.slices[sl] with retired := true } }
    s.mapBusy = false ∧ sl.val ∈ s.meas.inService ∧ s.meas.inService.filter (· ≠ sl.val) ≠ [] ∧
    (s.mgmt.committed.repack (s.newLevel .mgmt) (s.meas.inService.filter (· ≠ sl.val))).isSome = true ∧
    takesB s 0x0205 (pk [BitVec.ofNat 8 sl.val, 0, 0, 0]) [.meas] = true ∧ s.mgmt.outst = [] ∧
    sl.val ∉ r.meas.inService ∧ takesB r 0x0206 (pk [BitVec.ofNat 8 sl.val, 0, 0, 0]) [.meas] = true := by decide +kernel
/-- A request of MGMT on MB4, and LIN_SWAP waiting for what it brings. -/
theorem wit_requests_of_meas :
    let m : Mailbox := { Mailbox.reset with req := .swap 1 0 false, pending := true, since := 990 }
    let s : State := { running.setWin { running.win with mb := running.win.mb.setIfInBounds 4 m } with
      mgmt := { running.mgmt with outst := [⟨0x0302, pk [], false, 989, some .meas, none, [], none⟩] } }
    s.measUp = true ∧ (s.win.mbAt 4).pending = true ∧ (s.win.mbAt 4).ack = none ∧
    (s.win.mbAt 4).lost = false ∧ (s.win.mbAt 4).since < s.now ∧
    (s.outstOf 0x0302).isSome = true := by decide +kernel

theorem crc32_bound (bs : List Byte) : crc32 bs < 2 ^ 32 := by
  have bit : ∀ (l : List Bool) (c : Nat), c < 2 ^ 32 → l.foldl crc32Bit c < 2 ^ 32 := by
    intro l
    induction l with
    | nil => exact fun _ h => h
    | cons b l ih =>
      intro c h
      apply ih
      unfold crc32Bit
      split
      · exact Nat.xor_lt_two_pow (by omega) (by decide)
      · omega
  have all : ∀ (l : List Byte) (c : Nat), c < 2 ^ 32 →
      l.foldl (fun c b => (natBits 8 b.toNat).foldl crc32Bit c) c < 2 ^ 32 := by
    intro l
    induction l with
    | nil => exact fun _ h => h
    | cons b l ih => exact fun c h => ih _ (bit _ _ h)
  exact Nat.xor_lt_two_pow (all _ _ (by decide)) (by decide)
/-- A table of LT_FMT 0 without a companion channel. -/
def plainBody : List Byte := [0, 0, 31, 0] ++ leBytes 4 8388608 ++ zeros 100
def plainTable : List Byte := sealTable plainBody
theorem body_length : plainBody.length = 108 := by decide +kernel
theorem crc_stands (b : List Byte) (h : b.length = 108) : leAt (sealTable b) 108 4 = crc32 ((sealTable b).take 108) := by
  have t : b.take 108 = b := List.take_of_length_le (Nat.le_of_eq h)
  have k := crc32_bound b
  unfold sealTable
  rw [t, List.take_append_of_le_length (Nat.le_of_eq h.symm), t]
  generalize crc32 b = c at k ⊢
  unfold leAt
  rw [List.drop_append_of_le_length (Nat.le_of_eq h.symm), List.drop_of_length_le (Nat.le_of_eq h), List.nil_append]
  simp [leBytes, leVal, List.take]
  omega
theorem wit_table_sound : tableOk plainTable = true := by
  have h : ∀ t : List Byte, leAt t 108 4 = crc32 (t.take 108) → t.length = 112 → ltFmt t ≤ 1 → (-32 ≤ ltExp t ∧ ltExp t ≤ 31) →
      srcOk (ltSrc t) (ltShift t) = true → tableOk t = true := by
    intro t a b c d e
    simp [tableOk, a, b, c, d, e]
  exact h _ (crc_stands _ body_length) (by decide +kernel) (by decide +kernel) (by decide +kernel) (by decide +kernel)
theorem wit_tables :
    takesB running 0x0301 (pk ([19, 0, 0, 0] ++ plainTable)) [] = true ∧ romIds.contains 0x10 = true ∧ srcOk 31 15 = true ∧
    takesB running 0x0301 (pk ([0, 1, 0, 0] ++ leBytes 2 0x10 ++ leBytes 1 31 ++ leBytes 1 15 ++ leBytes 4 0)) [] = true := by
  decide +kernel
def tabled : State := rich.setMeas { rich.meas with tables := Vector.replicate 20 plainTable, shadowTables := Vector.replicate 20 plainTable }
theorem wit_swap : ∀ w ∈ [(1, 0), (0xFFFFF, 2147484648)],
    tabled.swapBad w.1 = false ∧ (w.2 = 0 ∨ ahead w.2 tabled.clock.meridian.toNat ≤ 2147483648) ∧ tabled.swapPending = false ∧
    (tabled.setMeas { tabled.meas with swap := some ⟨1, 5, false⟩ }).swapPending = true ∧
    tabled.mgmt.outst = [] ∧ tabled.admits (6 * maskCount w.1) = true ∧
    takesB tabled 0x0302 (pk (leBytes 4 w.1 ++ leBytes 6 w.2 ++ [1, 0])) [.meas] = true := by decide +kernel

theorem admits_of_aux {s : State} {cost : Nat} (h : s.energy.aux = true) : s.admits cost = true := by simp [State.admits, h]

/-- A fixed current with the user trim bypassed. -/
def fixedAt (code : Int) : State := rich.setLoop { rich.loop with fixed := some (code, true) }
theorem wit_fixed_current :
    (∀ code ∈ [34000, 230000], takesB running 0x0401 (pk (leBytes 4 code ++ [1, 0, 0, 0])) [.loop] = true) ∧
    running.mgmt.inForce.multidrop = false ∧ (withAlm running (tank.set (fid 7 0 0) 1)).mgmt.inForce.multidrop = true ∧
    (fixedAt 40000).willFix = true ∧ takesB (fixedAt 40000) 0x0402 (pk []) [.loop] = true ∧ running.willFix = false ∧
    takesB running 0x0402 (pk []) [.loop] = true ∧ running.mgmt.outst = [] ∧
    takesB running 0x0F30 (pk [1, 2]) [.loop] = true ∧ takesB running 0x0F31 (pk []) [.loop] = true := by decide +kernel
/-- The largest distance that a point may have (08 R203). -/
theorem wit_trim :
    takesB rich 0x0403 (pk (zeros 4 ++ leBytes 4 0)) [.loop] = true ∧ (fixedAt 40000).loop.fixed = some (40000, true) ∧
    (((40800 : Nat) : Int) - 40000).natAbs ≤ 800 ∧ takesB (fixedAt 40000) 0x0403 (pk ([1, 0, 0, 0] ++ leBytes 4 40800)) [.loop] = true ∧
    (((199200 : Nat) : Int) - 200000).natAbs ≤ 800 ∧
    takesB (fixedAt 200000) 0x0403 (pk ([2, 0, 0, 0] ++ leBytes 4 199200)) [.loop] = true := by decide +kernel
theorem wit_trim_m16 :
    (fixedAt 40000).Takes 0x0F32 (pk [1, 2]) 6 [.loop] ∧ (fixedAt 200000).loop.fixed = some (200000, true) ∧
    (fixedAt 200000).Takes 0x0F33 (pk [1, 2]) 6 [.loop] :=
  ⟨takes_of (by decide) (admits_of_aux rfl), rfl, takes_of (by decide) (admits_of_aux rfl)⟩

theorem wit_fabric_writes :
    takesB running 0x0501 (pk (leBytes 8 Config.uid.toNat ++ leBytes 2 4094 ++ zeros 2)) [] = true ∧
    assignRight running (pk (leBytes 8 Config.uid.toNat ++ leBytes 2 4094 ++ zeros 2)) = true ∧
    (∀ w ∈ [(0, [1, 2, 0]), (63, [2])], (∀ b ∈ w.2, b.toNat ≤ 2) ∧
      (∀ i, i < w.2.length → w.1 + i = running.mgmt.committed.fabAddr / 64 → w.2.getD i (0 : Byte) = 1) ∧
      takesB running 0x0502 (pk ([BitVec.ofNat 8 w.1, BitVec.ofNat 8 w.2.length] ++ w.2)) [] = true) ∧
    running.mgmt.shadow.wf = true ∧ running.mgmt.committed.wf = true := by decide +kernel
theorem wit_publish_slots : ∀ ps ∈ [zeros 52, zeros 4 ++ leBytes 4 34875 ++ leBytes 4 34874 ++ leBytes 1 2 ++ zeros 39],
    ps.length = 52 ∧ (∀ f ∈ publishFields ps, fieldOfWire f.1 f.2 = some (f.2 : Int)) ∧ rsvdZero ps 2 2 = true ∧
    (∀ n, n < 4 → rsvdZero ps (13 + 12 * n) 3 = true ∧
      firstFail (publishChecks n (leAt ps (4 + 12 * n) 4) (leAt ps (8 + 12 * n) 4) (leAt ps (12 + 12 * n) 1)) = none) ∧
    takesB running 0x0507 (pk ps) [] = true := by decide +kernel
theorem wit_fab_time : ∀ op ∈ ([1, 2, 3] : List Byte), ∀ x ∈ [0, 281474976710655],
    takesB running 0x0506 (pk ([op, 0] ++ leBytes 6 x)) [.loop] = true ∧ running.hasRight (pk ([op, 0] ++ leBytes 6 x)) 2 = true ∧
    fabTimeOp (pk ([op, 0] ++ leBytes 6 x)) = op.toNat ∧ running.fab.locked = false := by decide +kernel
theorem wit_fab_time_locked :
    takesB (running.setFab { running.fab with locked := true }) 0x0506 (pk ([3, 0] ++ leBytes 6 7)) [.loop] = true := by
  decide +kernel

theorem wit_reset_island : ∀ i ∈ ([0x10, 0x20, 0x30, 0x40] : List Byte), takesB running 0x0003 (pk [i, 0, 0, 0]) [.aon] = true ∧
    running.mgmt.outst = [] := by decide +kernel

/-- A fault of ECC1_LOOP, open and not acknowledged. -/
def openFault : Open := ⟨0x02, 0, 0x20, 1, 0x01, false, false, false, false, false, some 1400, 900, 0⟩
def faulty : State := running.setFaults { running.faults with opens := [openFault] }
theorem wit_fault_commands :
    (∃ o ∈ faulty.faults.opens, o.det = 0x02) ∧ takesB faulty 0x0602 (pk [2, 0, 0, 0]) [.aon] = true ∧
    (∀ o ∈ running.faults.opens, o.det ≠ 0x02) ∧ takesB running 0x0602 (pk [2, 0, 0, 0]) [.aon] = true ∧
    (∀ n ∈ ([1, 255] : List Byte), takesB running 0x0603 (pk [0x0E, n, 0, 0]) [.aon] = true) ∧
    ((detRow 0x0E).map (·.inj)) = some true ∧ pktSigned (pk [0x0E, 1, 0, 0]) = false ∧
    takesB rich 0x0604 (pk [1, 0, 0, 0]) [.aon] = true ∧ takesB running 0x0604 (pk [0, 0, 0, 0]) [.aon] = true ∧
    takesB running 0x0802 (pk (leBytes 4 0)) [.aon] = true ∧ takesB running 0x0802 (pk (leBytes 4 32766)) [.aon] = true := by
  decide +kernel
/-- A session with the right to inject, which has no signature. -/
theorem wit_inject_unsigned :
    let s : State := { running with mgmt := { running.mgmt with grants := [(0x041, 0xFFFF)] } }
    (stranger [0x0E, 1, 0, 0]).src ≠ 0x01 ∧ pktSigned (stranger [0x0E, 1, 0, 0]) = false ∧
    takesB s 0x0603 (stranger [0x0E, 1, 0, 0]) [.aon] = true := by decide +kernel

/-- A signature trailer with counter 1 by the vendor's key, and a signature of zeros (12 Table 12-6). -/
def trailer : List Byte := leBytes 8 1 ++ zeros 2424
/-- The device when it has assembled a signed command's parameters. -/
def signedState (op : Nat) (own : List Byte) : State :=
  withParts { rich with nvm := { rich.nvm with ctrVendor := 0 } } op (own ++ trailer)
/-- The conditions of `Signed` but for the signature itself, as a test. -/
def signedB (s : State) (op : Nat) (p : Packet) (n : Nat) : Bool :=
  pktSigned p && decide ((s.paramsOf op p).length = n + 2432) && s.nvm.oem.isNone && decide (leAt ((s.paramsOf op p).drop n) 8 1 = 0) &&
    (((s.paramsOf op p).drop n).drop 9).take 3 == [0, 0, 0] && decide (s.nvm.ctrVendor < leAt ((s.paramsOf op p).drop n) 0 8)
theorem signed_of {s : State} {op : Nat} {p : Packet} {n : Nat} (h : signedB s op p n = true) : s.Signed op p n := by
  simp only [signedB, Bool.and_eq_true, decide_eq_true_eq, Option.isNone_iff_eq_none, beq_iff_eq] at h
  obtain ⟨⟨⟨⟨⟨a, b⟩, c⟩, d⟩, e⟩, f⟩ := h
  refine ⟨a, b, by simp [c, d], fun i hi => ?_, by simpa [c] using f⟩
  have z : ∀ l : List Byte, (l.drop 9).take 3 = [0, 0, 0] → byteAt l (9 + i) = 0 := by
    intro l hl
    unfold byteAt
    rw [← List.drop_drop]
    generalize l.drop 9 = m at hl
    match m, hl with
    | x :: y :: w :: _, hl =>
      simp at hl
      obtain ⟨rfl, rfl, rfl⟩ := hl
      interval_cases i <;> rfl
  exact z _ e
theorem wit_inject_signed :
    (signedState 0x0603 [0x0E, 1, 0, 0]).Signed 0x0603 (pk [] 2) 4 ∧
    (signedState 0x0603 [0x0E, 1, 0, 0]).Takes 0x0603 (pk [] 2) 306 [.aon] :=
  ⟨signed_of (by decide +kernel), takes_of (by decide +kernel) (admits_of_aux rfl)⟩
theorem wit_attest :
    rich.Takes 0x0701 (pk (zeros 32)) 1100 [] ∧ (rich.paramsOf 0x0701 (pk (zeros 32))).length = 32 ∧ rich.Readable [seedPage] :=
  ⟨takes_of (by decide +kernel) (admits_of_aux rfl), by decide +kernel, fun _ _ h => (List.not_mem_nil h).elim, rfl, rfl⟩
/-- An attestation that waits for its capture, and one that is signed. -/
def signing (a : Attest) : State := { running with mgmt := { running.mgmt with attest := some a } }
theorem wit_attest_tick :
    (signing ⟨zeros 32, 999, none, 0⟩).mgmtUp = true ∧ (zeros 32).length = 32 ∧ 999 < (signing ⟨zeros 32, 999, none, 0⟩).now ∧
    (signing ⟨zeros 32, 1000, none, 0⟩).now ≤ 1000 ∧ 16 ≤ 16 * 2 ^ running.energy.freq ∧ ¬ 260000 ≤ 16 * 2 ^ running.energy.freq ∧
    (signing ⟨zeros 32, 998, some (stOk, []), 260000⟩).mgmt.attest = some ⟨zeros 32, 998, some (stOk, []), 260000⟩ := by decide +kernel
theorem wit_grant :
    let s := signedState 0x0707 ([1, 0, 0, 0] ++ leBytes 2 5 ++ leBytes 2 1)
    s.Signed 0x0707 (pk [] 2) 8 ∧ s.Takes 0x0707 (pk [] 2) 312 [] ∧
    (s.paramsOf 0x0707 (pk [] 2)).take 8 = leBytes 1 1 ++ zeros 3 ++ (leBytes 2 5 ++ leBytes 2 1) ∧
    ([((5 : BitVec 12), (1 : BitVec 16))].foldl (fun g e => putGrant g e.1 e.2) s.mgmt.grants).length ≤ 32 :=
  ⟨signed_of (by decide +kernel), takes_of (by decide +kernel) (admits_of_aux rfl), by decide +kernel, by decide +kernel⟩
/-- The device of the signed update commands: slots that hold nothing, no fuse blown, and the inactive slots verified or not. -/
def fieldUnit (op : Nat) (own : List Byte) (verified : Bool) : State :=
  let s := signedState op own
  { s with
    nvm := { rich.nvm with ctrVendor := 0, fuses := Quad.all 0, dirs := Quad.all (SlotDir.mk .empty .empty false none false) }
    mgmt := { s.mgmt with verified := Quad.all verified } }
theorem wit_update_begin (i : Island) :
    let s := fieldUnit 0x0703 ([srcOf i, 0, 0, 0] ++ leBytes 4 3800 ++ leBytes 4 0) false
    s.Signed 0x0703 (pk [] 2) 12 ∧ s.Takes 0x0703 (pk [] 2) 312 [] ∧ 64 + 3736 * s.nvm.nsig ≤ 3800 ∧ 3800 ≤ maxImage i s.nvm.nsig ∧
    s.nvm.fuses.at i ≤ 0 / 67108864 ∧ s.mgmt.upd = none ∧ s.actPending i = false ∧
    (s.paramsOf 0x0703 (pk [] 2)).take 12 = [srcOf i, 0, 0, 0] ++ leBytes 4 3800 ++ leBytes 4 0 := by
  cases i <;>
  exact ⟨signed_of (by decide +kernel), takes_of (by decide +kernel) (admits_of_aux rfl), by decide +kernel, by decide +kernel,
    by decide +kernel, rfl, by decide +kernel, by decide +kernel⟩
theorem wit_activate (i : Island) :
    let s := fieldUnit 0x0706 ([srcOf i, 0] ++ leBytes 6 0) true
    s.Signed 0x0706 (pk [] 2) 8 ∧ s.Takes 0x0706 (pk [] 2) (318 + s.fusesToBlow i) [.aon] ∧ s.actPending i = false ∧
    s.mgmt.verified.at i = true ∧ s.mgmt.outst = [] ∧ (s.paramsOf 0x0706 (pk [] 2)).take 8 = [srcOf i, 0] ++ leBytes 6 0 := by
  cases i <;>
  exact ⟨signed_of (by decide +kernel), takes_of (by decide +kernel) (admits_of_aux rfl), by decide +kernel, rfl, rfl, by decide +kernel⟩

/-- An update session of the local host. -/
def updating (len : Nat) (written : List Nat) : State :=
  { rich with mgmt := { rich.mgmt with upd := some ⟨.loop, 0x01, 0, len, 0, 900, [], written⟩ } }
theorem wit_chunk : ∀ w ∈ [(0, zeros 1), (60, zeros 240)],
    w.2 ≠ [] ∧ w.2.length ≤ 240 ∧ w.1 + w.2.length ≤ 300 ∧
    ((UpdSession.chunk ⟨.loop, 0x01, 0, 300, 0, 900, [], []⟩ w.1 w.2).2.2.length ≤ 16) ∧
    UpdSession.owns ⟨.loop, 0x01, 0, 300, 0, 900, [], []⟩ (pk (leBytes 4 w.1 ++ w.2)) = true ∧
    takesB (updating 300 []) 0x0704 (pk (leBytes 4 w.1 ++ w.2)) [] = true := by decide +kernel
theorem wit_images : (updating 300 []).imagesOk ∧ [].Pairwise (fun x y : Host.Cell => x.1 < y.1) :=
  ⟨fun i => by cases i <;> decide, List.Pairwise.nil⟩
theorem wit_verify :
    (∀ g, g < ceilDiv 256 256 → g ∈ [0]) ∧ UpdSession.owns ⟨.loop, 0x01, 0, 256, 0, 900, [], [0]⟩ (pk [0x20, 0, 0, 0]) = true ∧
    takesB (updating 256 [0]) 0x0705 (pk [0x20, 0, 0, 0]) [] = true := by
  decide +kernel
theorem wit_verify_admitted :
    (updating 256 [0]).Takes 0x0705 (pk [0x20, 0, 0, 0]) (300 * (updating 256 [0]).imageSigs .loop + ceilDiv ((updating 256 [0]).verifyLen .loop) 10240) [] :=
  takes_of (by decide +kernel) (admits_of_aux rfl)
theorem wit_verify_readable : (updating 256 [0]).Readable ((List.range (ceilDiv ((updating 256 [0]).verifyLen .loop) 256)).flatMap
    (imagePage .loop !((updating 256 [0]).nvm.dirs.at .loop).activeB)) := ⟨fun _ _ h => (List.not_mem_nil h).elim, rfl, rfl⟩
/-- Without a session, a slot that has held a committed image. -/
theorem wit_verify_without_session :
    let s : State := { rich with nvm := { rich.nvm with dirs := Quad.all ⟨⟨.committed, [], 0, 0⟩, ⟨.committed, [], 0, 0⟩, false, none, false⟩ } }
    s.mgmt.upd = none ∧ (s.nvm.dirs.at .loop).inactive.st = .committed ∧ takesB s 0x0705 (pk [0x20, 0, 0, 0]) [] = true := by
  decide +kernel

/-- WINTER without AUX: no cost is admitted (03 R57). -/
def poor (s : State) : State := { s with energy := { s.energy with aux := false, season := .winter } }
theorem poor_admits_nothing (s : State) (cost : Nat) (h : 0 < cost) : (poor s).admits cost = false := by
  simp [State.admits, poor]; omega
theorem wit_deferred : ∀ w ∈ [(0x0105, ([] : List Byte)), (0x0403, zeros 8), (0x0302, leBytes 4 1 ++ zeros 6 ++ [1, 0]), (0x0604, [1, 0, 0, 0]),
      (0x0701, zeros 32)],
    deliversB (poor running) w.1 (pk w.2) = true ∧ senderRight w.1 (poor running) (pk w.2) = true ∧ maskCount 1 = 1 := by decide +kernel
theorem wit_deferred_signed : ∀ w ∈ [(0x0707, [1, 0, 0, 0] ++ leBytes 2 5 ++ leBytes 2 1, 8), (0x0703, zeros 12, 12), (0x0706, [0x20, 0] ++ leBytes 6 0, 8),
      (0x0603, [0x0E, 1, 0, 0], 4)],
    signedB (poor (signedState w.1 w.2.1)) w.1 (pk [] 2) w.2.2 = true ∧ deliversB (poor (signedState w.1 w.2.1)) w.1 (pk [] 2) = true ∧
    senderRight w.1 (poor (signedState w.1 w.2.1)) (pk [] 2) = true := by decide +kernel
theorem wit_deferred_update :
    deliversB (poor (updating 1 [])) 0x0704 (pk [0, 0, 0, 0, 7]) = true ∧
    (UpdSession.chunk ⟨.loop, 0x01, 0, 1, 0, 900, [], []⟩ 0 [7]).2.1.length = 1 ∧
    deliversB (poor (updating 256 [0])) 0x0705 (pk [0x20, 0, 0, 0]) = true ∧ (0x20 : Nat) = (srcOf .loop).toNat ∧
    0 < ceilDiv ((poor (updating 256 [0])).verifyLen .loop) 10240 := by decide +kernel
theorem wit_deferred_m16 (a : Config.m16Length 0x0F50 0 = true) (b : Config.m16Length 0x0F32 2 = true)
    (c : Config.m16Length 0x0F40 2 = true) (d : 0 < Config.m16Pages 0x0F40 [0, 1]) :
    deliversB (poor running) 0x0F50 (pk []) = true ∧ Config.m16Length 0x0F50 ((poor running).paramsOf 0x0F50 (pk [])).length = true ∧
    deliversB (poor running) 0x0F32 (pk [1, 2]) = true ∧ Config.m16Length 0x0F32 ((poor running).paramsOf 0x0F32 (pk [1, 2])).length = true ∧
    deliversB (poor running) 0x0F40 (pk [0, 1]) = true ∧ Config.m16Length 0x0F40 ((poor running).paramsOf 0x0F40 (pk [0, 1])).length = true ∧
    (poor running).admits (6 * Config.m16Pages 0x0F40 [0, 1]) = false :=
  ⟨by decide +kernel, a, by decide +kernel, b, by decide +kernel, c, poor_admits_nothing _ _ (by omega)⟩
/-- MGMT alone of the islands; and with every island, and a command outstanding that has the opcode. -/
def lonely (s : State) : State := { s with isl := (Quad.all Isl.down0).put .mgmt Isl.aon0 }
def busyWith (op : Nat) (s : State) : State := { s with mgmt := { s.mgmt with outst := [⟨op, pk [], false, 990, none, none, [], none⟩] } }
theorem wit_refused : ∀ w ∈ [(0x0201, 4), (0x0202, 4), (0x0203, 4), (0x0205, 4), (0x0206, 4), (0x0401, 8), (0x0402, 0), (0x0003, 4), (0x0508, 1),
      (0x0508, 248), (0x0204, 16), (0x0303, 4), (0x0304, 4), (0x0404, 0), (0x0504, 0), (0x0505, 4), (0x0602, 4), (0x0802, 4), (0x0506, 8),
      (0x0302, 12), (0x0403, 8), (0x0604, 4), (0x0603, 4)],
    deliversB (lonely rich) w.1 (pk (zeros w.2)) = true ∧ senderRight w.1 (lonely rich) (pk (zeros w.2)) = true ∧
    deliversB (busyWith w.1 rich) w.1 (pk (zeros w.2)) = true ∧ (∀ i ∈ [Island.loop, .meas, .aon], (lonely rich).upAt i = false ∧
    (busyWith w.1 rich).upAt i = true) ∧
    (busyWith w.1 rich).mgmt.outst.any (fun o => o.op == w.1) = true := by decide +kernel
theorem wit_refused_signed (op : Nat) : op = 0x0603 ∨ op = 0x0706 →
    let s := lonely (signedState op (if op = 0x0603 then [0x0E, 1, 0, 0] else [0x20, 0] ++ leBytes 6 0))
    signedB s op (pk [] 2) (if op = 0x0603 then 4 else 8) = true ∧ deliversB s op (pk [] 2) = true ∧ s.energy.aux = true := by
  rintro (rfl | rfl) <;> decide +kernel
theorem wit_refused_apply :
    let s := withAlm (lonely running) tank
    deliversB s 0x0103 (pk []) = true ∧
    (({ s with mgmt := { s.mgmt with committed := Alm.default } } : State).applyNeeds.any fun i => !s.upAt i) = true := by decide +kernel
theorem wit_refused_m16 (h : ∀ op ∈ [0x0F10, 0x0F11, 0x0F12, 0x0F20, 0x0F21, 0x0F30, 0x0F31, 0x0F32, 0x0F33], Config.m16Length op 2 = true) :
    ∀ op ∈ [0x0F10, 0x0F11, 0x0F12, 0x0F20, 0x0F21, 0x0F30, 0x0F31, 0x0F32, 0x0F33],
      deliversB (lonely rich) op (pk [1, 2]) = true ∧ deliversB (busyWith op rich) op (pk [1, 2]) = true ∧
      Config.m16Length op ((lonely rich).paramsOf op (pk [1, 2])).length = true := by
  intro op m
  refine ⟨?_, ?_, h op m⟩ <;> revert op <;> decide +kernel
theorem wit_without_right :
    deliversB running 0x0105 (stranger []) = true ∧ senderRight 0x0105 running (stranger []) = false ∧
    deliversB running 0x0501 (stranger (zeros 12)) = true ∧
    deliversB running 0x0506 (stranger (1 :: zeros 7)) = true ∧ senderRight 0x0506 running (stranger (1 :: zeros 7)) = false ∧
    commandOf (.fabTimeSetEvent (stranger (1 :: zeros 7))) = some (0x0506, stranger (1 :: zeros 7)) ∧
    (busyWith 0x0701 running).mgmt.outst.any (fun o => o.op == 0x0701) = true ∧
    (∀ a ∈ running.mgmt.assemblies, a.src = 0x01 → a.op = 0x0105 → a.tag ≠ 0x5A) := by decide +kernel

theorem wit_turned_away :
    State.reset.mgmtUp = false ∧ running.mgmt.assemblies = [] ∧ running.mgmt.queue = [] ∧
    headerStatus (pk [] 0x80) = some stBadOpcode ∧ headerStatus { pk [1] with nbLen := 8 } = some stBadLength ∧
    headerStatus (stranger []) = none ∧ rightOf 0x0105 running (stranger []) = false ∧
    Memory.wf running.win.mem = true := by decide +kernel

/-! ## Witnesses: the window, the mailboxes and packets that are not commands -/

/-- The running device with one ownership word. -/
def owning (n : Nat) (o : Own) : State := running.setWin { running.win with own := running.win.own.setIfInBounds n ⟨o, 5, 0⟩ }
/-- The running device with one mailbox. -/
def posting (k : Nat) (m : Mailbox) : State := running.setWin { running.win with mb := running.win.mb.setIfInBounds k m }
/-- A notice that has been pending since tick 990. -/
def notice (w : Word64) : Mailbox := { Mailbox.reset with notice := w, pending := true, since := 990 }

/-- An SPI write of one byte: command, address, data, CRC-8 (11 Table 11-1). -/
def spiBytes (c hi lo : Byte) (data : List Byte) : List Byte := [c, hi, lo] ++ data ++ [crc8 ([c, hi, lo] ++ data)]
def goodWrite (bs : List Byte) : Bool :=
  let c := (byteAt bs 0).toNat
  let n := spiLen c
  decide (bs.length = n + 4) && c % 16 == 0 && crc8 (bs.take (n + 3)) == byteAt bs (n + 3) && decide (c < 128)
theorem wit_spi_write :
    running.spiOn = true ∧ goodWrite (spiBytes 0x00 0x3F 0xFF [0xAB]) = true ∧ goodWrite (spiBytes 0x01 0x00 0x00 [0xAB]) = false ∧
    goodWrite [0x00, 0x00, 0x00, 0xAB, 0x00] = false ∧ 0x3FFF + 1 ≤ 0x4000 ∧
    (∀ b ∈ touchedBufs 0x3FFF 1, ((owning 63 .host).win.ownAt b).own = .host) ∧
    (¬ ∀ b ∈ touchedBufs 0x3FFF 1, (running.win.ownAt b).own = .host) ∧ Memory.wf (owning 63 .host).win.mem = true := by
  decide +kernel
theorem wit_posts :
    running.spiOn = true ∧ ((posting 0 (notice 0)).win.mbAt 0).pending = true ∧ (running.win.mbAt 0).pending = false ∧
    (running.win.ownAt (nbBuf 63)).own ≠ .host ∧ ((owning 63 .host).win.ownAt (nbBuf 63)).own = .host ∧
    ((owning 63 .host).win.mbAt 0).pending = false ∧ ((posting 0 (notice 0)).win.ownAt (nbBuf 63)).own ≠ .host := by decide +kernel
/-- A post to a busy MB0 by the owner of the buffer (11 R283). -/
theorem wit_posts_busy :
    let s := (posting 0 (notice 0)).setWin { (posting 0 (notice 0)).win with own := (owning 63 .host).win.own }
    (s.win.mbAt 0).pending = true ∧ (s.win.ownAt (nbBuf 63)).own = .host := by decide +kernel
def replying : State := { owning 9 .device with
  win := { (owning 9 .device).win with mb := running.win.mb.setIfInBounds 1 (notice 3) }
  mgmt := { running.mgmt with replies := [⟨0x01, 9, [1, 2, 3]⟩] } }
theorem wit_host_acknowledges :
    ((posting 1 (notice 3)).win.mbAt 1).pending = true ∧ (posting 1 (notice 3)).mgmt.replies = [] ∧
    (replying.win.mbAt 1).pending = true ∧ Memory.wf replying.win.mem = true ∧ (9 : Nat) ≠ nbBuf (replying.win.mbAt 1).notice ∧
    (replying.win.ownAt 9).own = .device ∧ (running.win.mbAt 1).pending = false ∧ replying.spiOn = true := by decide +kernel
theorem wit_ownership :
    ((owning 0 .free).win.ownAt 0) = ⟨.free, 5, 0⟩ ∧ ((owning 63 .host).win.ownAt 63) = ⟨.host, 5, 0⟩ ∧
    ¬ (((owning 63 .device).win.ownAt 63).gen = 5 ∧ ((owning 63 .device).win.ownAt 63).own = .free) ∧
    (∀ w ∈ [(⟨.aon, 2, 5⟩ : OwnWrite)], w.who ≠ .mgmt ∧ w.who ≠ .loop ∧ w.who ≠ .meas ∧ w.gen = 5) ∧
    (∀ p ∈ [Party.mgmt, .loop, .meas], (⟨p, 2, 5⟩ : OwnWrite).own = 2 ∧ (⟨p, 2, 5⟩ : OwnWrite).gen = 5) := by decide +kernel
/-- A lock that the host may acquire and one that it may not, free and held; with and without an island's request before the host's. -/
theorem wit_locks :
    running.spiOn = true ∧ running.clock.powered = true ∧ running.win.lockAt 0 = 0 ∧ partyIsland .aon = some .aon ∧
    (∀ p ∈ [Party.mgmt, .loop, .meas], p ≠ .aon) ∧ ¬ (1 ≤ 0 ∧ 0 ≤ 3) ∧ ¬ (1 ≤ 4 ∧ 4 ≤ 3) ∧ (1 ≤ 1 ∧ 3 ≤ 3) ∧
    (running.setWin { running.win with locks := running.win.locks.set 7 0x01 }).win.lockAt 7 = partySrc .host ∧
    (running.setWin { running.win with locks := running.win.locks.set 7 0x01 }).win.lockAt 7 ≠ partySrc .meas ∧
    (0xFFFFFF00 : Word32).toNat % 256 = 0 := by decide +kernel
/-- Islands alone; the host with AON and with MGMT, at a lock that it may acquire and one that it may not. -/
theorem wit_lock_cycles :
    Party.host ∉ [Party.loop, .aon] ∧ partyIsland .mgmt = some .mgmt ∧ Party.host ∈ Party.aon :: [Party.host] ∧
    Party.host ∈ Party.host :: [Party.mgmt, .aon] ∧ Party.aon ∈ Party.host :: [Party.mgmt, .aon] ∧ running.spiOn = true ∧
    [Party.mgmt, .loop, .meas].filter (Party.host :: [.mgmt, .aon]).contains = [.mgmt] ∧
    (running.setWin { running.win with locks := running.win.locks.set 5 0x20 }).win.lockAt 5 = partySrc .loop ∧
    (0x12345600 : Word32).toNat % 256 = 0 ∧ (0x00000001 : Word32).toNat % 256 ≠ 0 := by decide +kernel
theorem wit_queue_read :
    0x4600 ≤ (0x46F8 : BitVec 16).toNat ∧ (0x46F8 : BitVec 16).toNat + 8 ≤ 0x4700 ∧ (0x46F8 : BitVec 16).toNat % 8 = 0 ∧
    (0x4600 : BitVec 16).toNat + 256 ≤ 0x4700 ∧ ¬ ((0x46FF : BitVec 16).toNat % 8 = 0 ∧ 8 % 8 = 0) ∧
    ¬ ((0x4600 : BitVec 16).toNat % 8 = 0 ∧ 4 % 8 = 0) ∧ running.mgmt.inForce.queueStream = false := by decide +kernel

/-- A notice of DEV_IDENTIFY in buffer 2, with a packet that has its opcode. -/
def noticed (o : Own) (len : Nat) : State := { owning 2 o with win := { (owning 2 o).win with
  mem := [⟨0x200, 0x01⟩], mb := running.win.mb.setIfInBounds 0 (notice (mkNotice 2 len 0x01 0x0001 0)) } }
theorem wit_notices :
    (noticed .device 8).mgmtUp = true ∧ (noticed .device 8).ready = true ∧ (noticed .device 8).queueUse < 4 ∧
    (noticed .device 8).mb0First = true ∧ ((noticed .device 8).win.ownAt 2).own = .device ∧
    leAt ((noticed .device 8).bufRead 2 2) 0 2 = nbHint ((noticed .device 8).win.mbAt 0).notice ∧
    nbLen ((noticed .device 256).win.mbAt 0).notice = 256 ∧ nbLen ((noticed .device 0).win.mbAt 0).notice = 0 ∧
    (noticed .device 0).mb0First = true ∧
    assignedOp ((noticed .device 8).packetOf ⟨0x01, 0, 2, 8⟩).1 = true ∧ (noticed .device 8).mgmt.queue = [] ∧
    ((noticed .host 8).win.ownAt 2).own ≠ .device ∧ (noticed .host 8).mb0First = true ∧
    (posting 2 (notice 0)).takeable 2 = true ∧ (posting 2 (notice 0)).mb0First = false := by decide +kernel
/-- A request that enters its mailbox, one that waits behind a notice, and one to a receiver that is down; of MB6's only AON's post
enters while MGMT is down. -/
theorem wit_requests : ∀ k ∈ [3, 4, 5, 7],
    (running.reqUp k = true ∧ (running.win.mbAt k).pending = false ∧ running.win.posts.any (fun e => e.1 == k) = false) ∧
    ((posting k (notice 0)).reqUp k = true ∧ ((posting k (notice 0)).win.mbAt k).pending = true) ∧ State.reset.reqUp k = false ∧
    State.reset.reqUp 6 = true := by decide +kernel
def held : State := { posting 0 { notice 5 with held := true, since := 0 } with ready := false }
def heldAon : State := { posting 6 { notice 5 with held := true, since := 0 } with ready := false }
def crossing : State := running.setWin { running.win with
  mb := (running.win.mb.setIfInBounds 6 (notice 0)).setIfInBounds 7 (notice 0), crossSince := [none, none, none, some 499] }
/-- A mailbox with an acknowledge of an earlier tick and a request behind it, its receiver up and down. -/
def answered (up : Bool) : State :=
  let s := posting 3 { notice 0 with ack := some (0, 0x20, 999) }
  { s with win := { s.win with posts := [(3, reqNotice 3 0x0402 .release, .release)] }, isl := if up then s.isl else s.isl.put .loop Isl.down0 }
theorem wit_posts_behind :
    (∀ up, ((answered up).win.mbAt 3).ack = some (0, 0x20, 999) ∧ ((answered up).win.mbAt 3).lost = false ∧ (answered up).reqUp 3 = up) ∧
    (answered true).fab.mb2Wait = [] ∧ ((answered true).win.posts.find? fun e => e.1 == 3).isSome = true := by decide +kernel
theorem wit_mailboxes :
    ((posting 7 { notice 0 with ack := some (0, 0x10, 999) }).win.mbAt 7).ack = some (0, 0x10, 999) ∧
    ((posting 0 { notice 0 with ack := some (0, 0x10, 999) }).win.mbAt 0).ack = some (0, 0x10, 999) ∧ 999 < running.now ∧
    held.ready = false ∧ (held.win.mbAt 0).pending = true ∧ (held.win.mbAt 0).held = true ∧
    1000 ≤ held.now - (held.win.mbAt 0).since ∧ (heldAon.win.mbAt 6).held = true ∧ (heldAon.win.mbAt 6).pending = true ∧
    (running.fab.mb2Wait = [] ∧ running.win.posts.find? (fun e => e.1 == 7) = none) ∧
    crossing.win.crossSince.getD 3 none = some 499 ∧ 500 < crossing.now - 499 ∧ (crossing.win.mbAt 6).pending = true ∧
    (crossing.win.mbAt 7).pending = true ∧ crossing.win.crossRaised.getD 3 false = false := by decide +kernel

theorem wit_fragments :
    headerStatus (pk [1, 2] 1) = none ∧ (pk [1, 2] 1).src ≠ 0x90 ∧ pktMore (pk [1, 2] 1) = true ∧ pktCont (pk [1, 2] 1) = false ∧
    fragmentable 0x0703 = true ∧ ((zeros 4094 ++ (pk [1, 2] 1).params).length ≤ 4096) ∧
    ((withParts running 0x0703 (zeros 4094)).mgmt.assemblies.find?
      (fun a => a.src == 0x01 && a.op == 0x0703 && a.tag == 0x5A)).map (·.bytes.length) = some 4094 := by decide +kernel
def keeping : State := { running with mgmt := { running.mgmt with kept := [⟨0x01, 0x0702, 0x5A, zeros 300, stOk⟩] } }
theorem wit_continuation :
    headerStatus (pk (leBytes 2 299) 4) = none ∧ pktCont (pk (leBytes 2 299) 4) = true ∧ (pk (leBytes 2 299) 4).plen = 2 ∧
    rightOf 0x0702 keeping (pk (leBytes 2 299) 4) = true ∧ leAt (pk (leBytes 2 299) 4).params 0 2 < (zeros 300).length ∧
    (keeping.mgmt.kept.find? fun k => k.src == 0x01 && k.op == 0x0702 && k.tag == 0x5A).isSome = true ∧
    (running.mgmt.kept.find? fun k => k.src == 0x01 && k.op == 0x0702 && k.tag == 0x5A) = none := by decide +kernel
def waiting (o : Outst) : State := { running with mgmt := { running.mgmt with outst := [o] } }
def ended : Outst := ⟨0x0201, pk [1, 0, 0, 0], false, 990, some .meas, some 992, [1], some (stOk, leBytes 4 3)⟩
def unanswered : Outst := ⟨0x0302, pk [], false, 0, some .meas, none, [], none⟩
theorem wit_outstanding :
    (waiting ended).mgmtUp = true ∧ ended ∈ (waiting ended).mgmt.outst ∧ ended.op = (0x0201 : BitVec 16).toNat ∧
    (∀ x ∈ (waiting ended).mgmt.outst, x.op = ended.op → x = ended) ∧ ended.done = some (stOk, leBytes 4 3) ∧
    unanswered.done = none ∧ unanswered.got = none ∧
    5000 ≤ ({ waiting unanswered with clock := { running.clock with tick := 5000 } } : State).now - unanswered.since ∧
    (waiting ended).mgmt.queue = [] ∧ (waiting ended).mgmt.replies = [] := by decide +kernel
/-- LOOP_RELEASE whose request LOOP has not taken. -/
def unasked : State := { busyWith 0x0402 (running.postReq 3 0x0402 .release) with clock := { running.clock with tick := 6000 } }
theorem wit_unasked :
    unasked.mgmtUp = true ∧ unasked.mgmt.before 0x0402 = 0 ∧ nativeOf 0x0402 = 0x0402 ∧ (unasked.win.mbAt 3).unanswered = true ∧
    (unasked.win.mbAt 3).req.native = some 0x0402 ∧ 5000 ≤ unasked.now - 990 := by decide +kernel
theorem wit_reply_waits :
    ((posting 1 (notice 0)).win.mbAt 1).pending = true ∧ (running.win.mbAt 1).pending = false ∧ running.mgmt.replies = [] := by decide +kernel
theorem wit_reply :
    takesB (owning 0 .device) 0x0001 (pk []) [] = true ∧ (pk []).src = 0x01 ∧ ((owning 0 .device).win.ownAt (pk []).buf.toNat).own = .device ∧
    ((owning 0 .device).win.mbAt 1).pending = false ∧ (owning 0 .device).mgmt.replies = [] := by decide +kernel

/-! ## Witnesses: supply, start-up, reset and the tick -/

theorem wit_power :
    State.reset.clock.powered = false ∧ running.clock.powered = true ∧
    ({ running with clock := { running.clock with running := false } } : State).clock.running = false ∧
    ({ running with pins := { running.pins with inReset := true, rstN := ⟨true, true⟩ } } : State).pins.rstN.level = true ∧
    running.energy.aux = false ∧ rich.energy.aux = true := by decide +kernel
def booting (hold : Bool) : State := { running with boot := .verify, faults := { running.faults with bootHold := hold } }
/-- Slots of MGMT's factory images as a boot finds them. -/
def bootSlots (act other : SlotState) : State := { booting true with nvm := { running.nvm with
  fuses := Quad.all 0, dirs := Quad.all ⟨⟨act, [], 0, 0⟩, ⟨other, [], 0, 0⟩, false, none, false⟩ } }
theorem wit_boot_slots : ∀ act ∈ [SlotState.committed, .trial], ∀ other ∈ [SlotState.committed, .failed],
    let s := bootSlots act other
    let d := s.nvm.dirs.mgmt
    s.clock.powered = true ∧ s.boot = .verify ∧ (∀ ok, s.bootVerifies d.active (s.activeMem .mgmt) ok = ok) ∧
    (∀ ok, s.bootVerifies d.inactive (s.inactiveMem .mgmt) ok = ok) ∧ d.active.st = act ∧ d.inactive.st = other ∧
    s.nvm.fuses.mgmt ≤ secVersion d.inactive.version := by decide +kernel
/-- A start that has its almanac to load: a sound copy A is the newest; and one without a copy. -/
def loading : State := { running with
  mgmt := { running.mgmt with toLoad := true }, nvm := { running.nvm with almA := some ⟨3, tank, almDigest 3 tank⟩, almB := none } }
theorem wit_boot :
    (booting false).boot = .verify ∧ (booting false).clock.powered = true ∧ (booting true).faults.bootHold = true ∧
    loading.mgmt.toLoad = true ∧ (tank.compile (loading.newLevel .mgmt) loading.meas.inService loading.sources).isOk = true ∧
    (Alm.default.compile (loading.newLevel .mgmt) loading.meas.inService loading.sources).isOk = false := by decide +kernel
theorem newest_of {n : Nvm} {q : Nat} {x : Alm} (a : n.almA = some ⟨q, x, almDigest q x⟩) (b : n.almB = none) (k : n.bad = []) :
    n.newestAlm = some ⟨q, x, almDigest q x⟩ := by
  simp [Nvm.newestAlm, Nvm.almCopy, a, b, k, AlmCopy.valid, copySeq]
theorem wit_newest_almanac : loading.nvm.newestAlm = some ⟨3, tank, almDigest 3 tank⟩ := newest_of rfl rfl rfl
theorem wit_no_saved_almanac : running.nvm.newestAlm = none := rfl
theorem wit_reset_pin :
    let s : State := { running with pins := { running.pins with rstN := ⟨false, false⟩, inReset := false } }
    s.clock.powered = true ∧ s.pins.rstN.level = false ∧ s.pins.inReset = false ∧ s.loop.hwAlarm = false ∧
    s.loop.auxAlarm = false ∧ s.loop.miswire = .normal 0 ∧ (s.isl.at .loop).down = false := by decide +kernel
def at1024 : State := { running with clock := { running.clock with tick := 1024 } }
theorem wit_supply :
    at1024.clock.powered = true ∧ at1024.clock.running = true ∧ at1024.now % 64 = 0 ∧ at1024.now % 512 = 0 ∧
    at1024.energy.readAt ≠ some at1024.now ∧ at1024.energy.evalAt ≠ some at1024.now ∧ at1024.mgmt.inForce.supplyAux = false ∧
    (at1024.setFaults { running.faults with opens :=
      [⟨0x15, 0, 0x40, 1, 0x21, false, false, true, false, true, none, 900, 0⟩] }).faults.opens.any (fun o => o.det == 0x15 && o.aux) = true ∧
    at1024.energy.vioCount < 8 ∧ at1024.energy.tempCount < 8 ∧ at1024.mgmt.inForce.mwEn = true ∧
    (withAlm at1024 (tank.set (fid 7 0 13) 0)).mgmt.inForce.mwEn = false := by decide +kernel
/-- A map that the loop alone cannot carry, two sequences that run or wait to start, and AUX lost. -/
def withoutAux (lost : Bool) : State :=
  let s := withAlm (running.setMeas { running.meas with
    map := { running.meas.map with costLoop := 30000 }
    seqs := (running.meas.seqs.set 1 ⟨true, none, none, .idle, false, none, 0, false⟩).set 2
      ⟨false, some 2000, none, .idle, false, none, 0, false⟩ }) (tank.set (fid 0 0 0) 1)
  { s with energy := { s.energy with aux := false, auxLost := lost, auxStopped := 8 } }
theorem wit_aux :
    (∀ lost, (withoutAux lost).auxBlocked = true ∧ (withoutAux lost).energy.auxLost = lost) ∧ running.auxBlocked = false ∧
    ({ withoutAux true with energy := { (withoutAux true).energy with auxNext := some true } } : State).energy.auxNext = some true ∧
    running.clock.powered = true ∧ running.clock.running = true := by decide +kernel
def autumn (uj : Nat) : State := { running with ready := true, mgmt := { running.mgmt with queue := [⟨0x01, 0, 5, 8⟩] }, energy := { running.energy with
  season := .autumn, aux := false, boostEnd := none, boostNext := 1000, resReads := List.replicate 8 uj, resAvg := uj } }
theorem wit_boost :
    (autumn 15000).mgmtUp = true ∧ (autumn 15000).mgmtWork = true ∧ (autumn 15000).energy.aux = false ∧
    (autumn 15000).energy.season = .autumn ∧ (autumn 15000).mgmt.inForce.mgmtFmax ≠ 0 ∧
    (autumn 15000).energy.boostNext ≤ (autumn 15000).now ∧ 6 ≤ 10 * (autumn 15000).reserveField ∧
    10 * (autumn 0).reserveField < 6 ∧ (autumn 15000).mgmt.inForce.mgmtFmax = 3 := by decide +kernel
def low (l b : Nat) : State := { running with energy := { running.energy with lowCount := l, buckCount := b } }
def recovering : State := { running with
  energy := { running.energy with evalAt := some 1000, loopAvg := 8500 }
  isl := running.isl.put .meas { Isl.down0 with stopped := true } }
theorem wit_brown_out :
    (low 9 0).energy.lowCount = 9 ∧ (low 9 0).meas.swap = none ∧ ((low 9 0).win.mbAt 4).pending = false ∧ (low 9 0).win.posts = [] ∧
    (low 9 0).isl.meas.stopped = false ∧ (low 9 0).isl.meas.down = false ∧
    (low 0 3).energy.buckCount = 3 ∧ (low 0 3).isl.mgmt.stopped = false ∧ (low 0 3).isl.mgmt.down = false ∧ (low 0 3).isl.loop.down = false ∧
    recovering.energy.evalAt = some recovering.now ∧ 8500 ≤ recovering.energy.loopAvg ∧ recovering.isl.meas.stopped = true := by
  decide +kernel
def monitored : State := { running with
  energy := { running.energy with vioCount := 8, tempCount := 8, railCount := [2, 2, 2] }
  clock := { running.clock with tick := 60000 } }
theorem wit_monitors :
    monitored.energy.vioCount = 8 ∧ monitored.energy.tempCount = 8 ∧
    (∀ r : Fin 3, monitored.energy.railCount.getD r.val 0 = 2) ∧ (∀ i ∈ [Island.mgmt, .loop, .meas, .aon],
      (monitored.isl.at i).up = true ∧ (monitored.isl.at i).wdtFired = false ∧
      50000 ≤ monitored.now - (monitored.isl.at i).lastBeat) := by decide +kernel
theorem wit_compliance :
    (running.setLoop { running.loop with comply := .dip 4 }).loop.comply = .dip 4 ∧
    (running.setLoop { running.loop with comply := .comply 64 }).loop.comply = .comply 64 ∧
    (running.setLoop { running.loop with miswire := .normal 391 }).loop.miswire = .normal 391 ∧
    (running.setLoop { running.loop with miswire := .retry 391 0 }).loop.miswire = .retry 391 0 ∧
    (running.setLoop { running.loop with miswire := .retry 0 391 }).loop.miswire = .retry 0 391 ∧
    running.energy.readAt ≠ some running.now ∧
    1000000 ≤ ({ running with clock := { running.clock with tick := 1000000 } } : State).now - 0 := by decide +kernel
theorem wit_reference :
    running.clock.running = true ∧ running.clock.onInternal = false ∧
    ({ running with clock := { running.clock with running := false } } : State).clock.running = false ∧
    ({ running with clock := { running.clock with onInternal := true } } : State).clock.onInternal = true := by decide
theorem wit_idle : running.pending = [] := rfl

/-! ## Witnesses: rounds, slices, results and streams -/

/-- A map of two windows of sequence 1, one slot of channel 0, and a calibration position of slice 0. -/
def smallMap : SlotMap := ⟨500, [0, 1, 2, 3],
  [⟨0, 0, .slot 0 0 0 0 0⟩, ⟨100, 1, .slot 1 0 0 1 0⟩, ⟨250, 0, .cal⟩, ⟨260, 2, .check 0⟩, ⟨350, 1, .slot 1 0 0 1 1⟩],
  [1, 2, 1, 1], 3, 0, 20, 500, 20, 32000, 18477, [500]⟩
/-- A round that stands at a position of that map. -/
def round (pos : Nat) : State :=
  let s := withAlm running watch
  s.setMeas { s.meas with map := smallMap, round := { Round.reset with on := true, pos := pos, begun := some (1000 - pos) } }
/-- One sequence of that round in a trigger state. -/
def triggered (pos : Nat) (t : TrigState) : State :=
  (round pos).setMeas { (round pos).meas with seqs := (round pos).meas.seqs.set 1 ⟨true, none, none, t, false, none, 0, true⟩ }

def blanking : State := { round 50 with pins := { running.pins with blank := ⟨true, true⟩ } }
theorem wit_blanking :
    blanking.measUp = true ∧ blanking.meas.round.on = true ∧ blanking.blanked = true ∧
    blanking.mgmt.inForce.blankSkip = false ∧ blanking.meas.round.freeze = .run ∧ (round 50).pins.blank.level = false ∧
    (blanking.setMeas { blanking.meas with round := { blanking.meas.round with blankTicks := 1000, freeze := .frozen 50 } }).blanked = true ∧
    blanking.mgmt.inForce.blankCap ≤ 1000 := by decide +kernel
/-- MEAS down; frozen; a slice out of service and one that is fenced (04 R72, R88; 05 R113). -/
theorem wit_sequencer :
    ({ round 5 with isl := running.isl.put .meas Isl.down0 } : State).measUp = false ∧
    ((round 5).setMeas { (round 5).meas with round := { (round 5).meas.round with freeze := .frozen 5 } }).meas.round.freeze = .frozen 5 ∧
    ((round 5).setMeas { (round 5).meas with slices := (round 5).meas.slices.set 3 { (round 5).meas.slices[3] with retired := true } }).meas.slices[3].retired = true ∧
    ((round 5).setMeas { (round 5).meas with slices := (round 5).meas.slices.set 3 { (round 5).meas.slices[3] with fence := some 999 } }).meas.slices[3].fence = some 999 ∧
    999 ≤ (round 5).now := by decide +kernel
/-- A retired slice in its qualification: its first calibration input, its fourth, and the wait for its map. -/
def qualifies (j : SliceJob) : State :=
  (round 5).setMeas { (round 5).meas with job := some j, slices := (round 5).meas.slices.set 2 { (round 5).meas.slices[2] with retired := true } }
theorem wit_qualifying_slice :
    (∀ j ∈ [0, 3], (qualifies (.qualify 2 (980 - 16 * j))).measUp = true ∧ j < 16 ∧
      (qualifies (.qualify 2 (980 - 16 * j))).now = 980 - 16 * j + 20 + 16 * j) ∧
    (qualifies (.qualified 2 smallMap [] 1010)).measUp = true ∧
    (qualifies (.qualified 2 smallMap [] 1010)).meas.slices[2].retired = true := by decide +kernel
theorem wit_triggers :
    (∀ pin : Fin 3, ({ round 10 with pins := { running.pins with
      trig0 := ⟨true, true, true⟩, trig1 := ⟨true, true, true⟩, trig2 := ⟨true, true, true⟩ } } : State).pins.trig pin =
        ⟨true, true, true⟩) ∧
    (round 10).measUp = true ∧ (round 10).loopUp = true ∧
    ((round 10).setFab { running.fab with event := some 1000 }).fab.event = some 1000 ∧
    (1000 : Count48).toNat ≤ (round 10).clock.meridian.toNat ∧
    (round 10).mgmt.inForce.sqTriggered 1 = true ∧ ((round 10).meas.map.selectWindow (round 10).mgmt.inForce 1 10).isSome = true := by
  decide +kernel
theorem wit_windows :
    (triggered 99 (.armed 0)).meas.round.passing = true ∧ (triggered 99 (.armed 0)).meas.round.due = false ∧
    (triggered 99 (.armed 0)).meas.map.commitAt (triggered 99 (.armed 0)).mgmt.inForce 1 0 = some 99 ∧ (99 : Int) % 500 = 99 ∧
    (triggered 101 (.running 0)).meas.seqs[1].ended = true ∧ (triggered 351 (.runningPending 1)).meas.seqs[1].ended = true ∧
    (triggered 101 (.running 0)).meas.seqs[1].laps = 0 ∧ (((smallMap.runPos 1 0).map (·.t)).max?) = some 100 ∧
    ((triggered 351 (.runningPending 1)).meas.map.selectWindow (triggered 351 (.runningPending 1)).mgmt.inForce 1 351).isSome = true ∧
    (triggered 351 (.runningPending 1)).measUp = true := by
  decide +kernel

/-- A round that is due, with a start and a stop that wait. -/
def dueRound : State :=
  let s := round 0
  { s with
    meas := { s.meas with
      round := { s.meas.round with due := true }
      seqs := (s.meas.seqs.set 0 ⟨false, some 1000, none, .idle, false, none, 0, false⟩).set 1
        ⟨true, none, some 1000, .armed 0, false, none, 0, false⟩ }
    mgmt := { s.mgmt with outst := [⟨0x0201, pk [], false, 990, some .meas, some 992, [], none⟩] } }
theorem wit_round_start :
    dueRound.meas.round.on = true ∧ dueRound.meas.round.due = true ∧ dueRound.measUp = true ∧ dueRound.meas.sampled = [] ∧
    dueRound.meas.sxEntries = [] ∧ dueRound.meas.prior = none ∧ dueRound.mgmt.pendMeas = none ∧ dueRound.meas.job = none ∧
    dueRound.meas.failMap = none ∧
    dueRound.mgmt.inForce.supplyAux = false ∧ dueRound.mgmt.inForce.takeKind dueRound.mgmt.committed .stream = dueRound.mgmt.inForce ∧
    0 < dueRound.mgmt.inForce.sqLen 0 ∧ dueRound.meas.seqs[0].startFrom = some 1000 ∧ dueRound.meas.seqs[1].stopFrom = some 1000 ∧
    dueRound.upAt .mgmt = true ∧ 992 + 2 ≤ dueRound.now ∧ (dueRound.win.mbAt 4).pending = false := by decide +kernel
theorem wit_round_start_down :
    ({ dueRound with isl := dueRound.isl.put .meas Isl.down0 } : State).measUp = false := by decide +kernel
theorem wit_round_start_missed :
    let s : State := { dueRound with
      isl := dueRound.isl.put .meas Isl.down0, mgmt := { dueRound.mgmt with pendMeas := some ⟨watch, 990, none, false⟩ } }
    s.measUp = false ∧ 990 + 3 ≤ s.now ∧ s.mgmt.inForce.takeKind s.mgmt.committed .stream = s.mgmt.inForce ∧ s.meas.round.due = true := by
  decide +kernel
def fallbackRound : State := dueRound.setMeas { dueRound.meas with
  fallback := [smallMap, smallMap, smallMap, { smallMap with slices := [0, 1, 2] }], fallbackDue := some (3, 998)
  slices := dueRound.meas.slices.set 3 { dueRound.meas.slices[3] with retired := true, fence := some 998 } }
theorem wit_fallback :
    fallbackRound.meas.fallbackDue = some (3, 998) ∧ 998 + 2 ≤ fallbackRound.now ∧
    fallbackRound.meas.fallback[3]? = some { smallMap with slices := [0, 1, 2] } ∧
    (∀ i ∈ ({ smallMap with slices := [0, 1, 2] } : SlotMap).slices, (fallbackRound.meas.slice i).retired = false) ∧
    fallbackRound.measUp = true ∧ fallbackRound.meas.sampled = [] ∧ fallbackRound.meas.sxEntries = [] := by decide +kernel

/-- The alignment tick, at a count that is `c` beyond a multiple of the round. -/
def aligning (c : Nat) : State :=
  let s := withAlm (round 499) (watch.set (fid 9 0 7) 1)
  { s with clock := { s.clock with meridian := BitVec.ofNat 48 (1500 - 1 + c) }, fab := { s.fab with locked := true } }
theorem wit_alignment : ∀ w ∈ [((0 : Int), 0), (1, 1), (-1, 499), (2, 2), (-2, 498), (250, 250), (-249, 251)],
    let s := aligning w.2
    s.measUp = true ∧ s.meas.round.passing = true ∧ s.meas.round.pos + 1 = s.meas.map.len ∧ s.meas.round.idle = 0 ∧
    s.mgmt.inForce.fabAlign = true ∧ s.fab.locked = true ∧ s.meas.map.w ≤ s.meas.map.len ∧ 2 * w.1 ≤ (s.meas.map.len : Int) ∧
    0 < 2 * w.1 + (s.meas.map.len : Int) ∧
    ((s.clock.meridian.toNat : Int) + 1 - s.mgmt.inForce.fabAlignPhase - w.1) % (s.meas.map.len : Int) = 0 := by decide +kernel

/-- A round whose slices may sample: started 500 ticks ago, sequences running. -/
def sampling (pos : Nat) (since : Nat) : State :=
  let s := withAlm (round pos) (watch.set (fid 2 0 13) 3)
  s.setMeas { s.meas with
    seqs := s.meas.seqs.map fun x => { x with running := true }
    round := { s.meas.round with begun := some 500, startAt := none, count := 6 }
    slices := s.meas.slices.map fun x => { x with since := since, lastCal := 900, retired := false, fence := none } }
theorem wit_conversions :
    ((sampling 0 0).posNow 0 (fun k => match k with | .slot _ _ _ _ _ => true | _ => false)).map (·.kind) = some (.slot 0 0 0 0 0) ∧
    ((sampling 250 255).posNow 0 (· == .cal)).isSome = true ∧ 255 ≤ (sampling 250 255).meas.slices[0].since ∧
    ((sampling 250 3).posNow 0 (· == .cal)).isSome = true ∧
    ¬ (255 ≤ (sampling 250 3).meas.slices[0].since ∨ 500000 < (sampling 250 3).now - (sampling 250 3).meas.slices[0].lastCal) ∧
    ((sampling 260 0).posNow 2 (fun k => match k with | .check _ => true | _ => false)).map (·.kind) = some (.check 0) := by
  decide +kernel
/-- A channel that starts again, with nothing on its way that the flush could meet (06 R136). -/
theorem wit_first_conversion :
    let s := (sampling 0 0).setMeas { (sampling 0 0).meas with
      chans := (sampling 0 0).meas.chans.set 0 { (sampling 0 0).meas.chans[0] with restart := true } }
    (s.meas.chan 0).restart = true ∧ s.meas.sampled = [] ∧ s.meas.sxEntries = [] ∧ ((sampling 0 0).meas.chan 0).restart = false ∧
    (s.posNow 0 (fun k => match k with | .slot _ _ _ _ _ => true | _ => false)).isSome = true := by decide +kernel
theorem wit_break_rounds :
    (sampling 260 0).mgmt.inForce.brkInt 0 ≠ 0 ∧ (sampling 260 0).meas.round.count % (sampling 260 0).mgmt.inForce.brkInt 0 = 0 ∧
    (round 260).mgmt.inForce.brkInt 0 = 0 := by decide +kernel
/-- One sampled code of channel 19 on slice 3. -/
def sampledOne : State :=
  let s := withAlm (round 1) watch
  s.setMeas { s.meas with sampled := [⟨3, .slot 19 0 0 0 0, .conv ⟨0x1FFFF, false, false, false⟩, 0, 999, BitVec.ofNat 48 999, 1, 1, 0⟩] }
theorem wit_correction :
    sampledOne.measUp = true ∧ sampledOne.meas.slices[3].old = none ∧ sampledOne.mgmt.inForce.excModeInUse 19 ≠ 3 ∧
    sampledOne.meas.map.interleaved 19 = false := by decide +kernel
/-- One sample of channel 0, at a decimation boundary and before one, with the queue off, on, and full. -/
def filtering (osr qEn : Nat) (queue : List QEntry) : State :=
  let s := withAlm (round 1) ((watch.set (fid 2 0 22) osr).set (fid 2 0 25) qEn)
  s.setMeas { s.meas with
    queue := queue, sampled := [⟨3, .slot 0 0 0 0 0, .conv ⟨0x1FFFF, false, false, false⟩, 0, 999, BitVec.ofNat 48 999, 1, 1, 0⟩] }
theorem wit_filtering :
    (filtering 1 0 []).measUp = true ∧ (filtering 1 0 []).meas.sxEntries = [] ∧ (filtering 1 0 []).mgmt.inForce.excModeInUse 0 ≠ 3 ∧
    (filtering 1 0 []).meas.map.interleaved 0 = false ∧ (1 * 1 + 0 + 1) % (filtering 1 0 []).mgmt.inForce.fOsr 0 = 0 ∧
    (1 * 1 + 0 + 1) % (filtering 3 0 []).mgmt.inForce.fOsr 0 ≠ 0 ∧ (filtering 1 0 []).mgmt.inForce.qEn 0 = false ∧
    (filtering 1 1 []).mgmt.inForce.qEn 0 = true ∧ 512 ≤ (filtering 1 1 (List.replicate 512 ⟨0, 0, 0, 0, 0⟩)).meas.queue.length := by
  decide +kernel
theorem wit_played : ∃ p, (sampling 0 0).played 0 = some p ∧ (sampling 0 0).meas.slices[0].fence = none := by
  have h : ((sampling 0 0).played 0).isSome = true ∧ (sampling 0 0).meas.slices[0].fence = none := by decide +kernel
  obtain ⟨p, e⟩ := Option.isSome_iff_exists.1 h.1
  exact ⟨p, e, h.2⟩
/-- A calibration conversion in each phase, and a firing check of channel 2. -/
def judged (phase : Nat) (kind : PosKind) : State :=
  (round 1).setMeas { (round 1).meas with
    slices := (round 1).meas.slices.set 1 { (round 1).meas.slices[1] with phase := phase, latestP := some 6400000, latestU := some 9, rejOg := 1 }
    chans := (round 1).meas.chans.set 2 { (round 1).meas.chans[2] with checkRef := some (5, 1) }
    sampled := [⟨1, kind, .conv ⟨100, false, false, false⟩, 1, 999, BitVec.ofNat 48 999, 0, 1, 1⟩] }
theorem wit_judged :
    (∀ ph, ph < 4 → (judged ph .cal).measUp = true ∧ (judged ph .cal).meas.sxEntries = [] ∧ (judged ph .cal).meas.slices[1].phase % 4 = ph ∧
      (judged ph .cal).meas.slices[1].latestP = some 6400000 ∧ (judged ph .cal).meas.slices[1].latestU = some 9) ∧
    (judged 0 (.check 2)).meas.slices[1].old = none ∧ (judged 0 (.check 2)).meas.chans[2].checkRef = some (5, 1) ∧
    (judged 0 (.check 3)).meas.chans[3].checkRef = none := by decide +kernel
def failing (sl : Fin 4) : State :=
  (round 5).setMeas { (round 5).meas with slices := (round 5).meas.slices.set sl.val { (round 5).meas.slices[sl] with failed := some 2 } }
theorem wit_slice_fails : ∀ sl : Fin 4,
    (failing sl).measUp = true ∧ (failing sl).meas.slices[sl].failed = some 2 ∧ (failing sl).meas.slices[sl].fence = none := by
  decide +kernel
/-- The slices left after slice 3 has failed. -/
def failedCompile (a : Alm) (gone : List (Fin 4)) : State :=
  let s := withAlm running a
  s.setMeas { s.meas with
    failCompile := some 3
    slices := gone.foldl (fun v n => v.set n.val { v[n] with retired := true }) s.meas.slices }
theorem wit_failure_compile :
    (failedCompile tank [3]).mgmtUp = true ∧ (failedCompile tank [3]).meas.inService ≠ [] ∧
    ((failedCompile tank [3]).mgmt.committed.lowered ((failedCompile tank [3]).newLevel .mgmt) (failedCompile tank [3]).meas.inService false).isOk = true ∧
    (failedCompile tank [0, 1, 2, 3]).meas.inService = [] := by decide +kernel
/-- A qualification with codes of 100,000 and -100,000, for a calibration reference of that size. -/
def qualifying : State := (round 5).setMeas { (round 5).meas with job := some (.qualify 2 739) }
def evenCodes : List (BitVec 18) := (List.range 4).flatMap fun _ => [100000, BitVec.ofInt 18 (-100000), 0, 0]
theorem wit_qualification (h : Config.cCal = 6400000) :
    qualifying.measUp = true ∧ qualifying.meas.job = some (.qualify 2 739) ∧ 739 + 261 ≤ qualifying.now ∧
    let v (i : Nat) : Int := 64 * (evenCodes.getD i 0).toInt
    ∀ k : Fin 4, v (4 * k.val) ≠ v (4 * k.val + 1) ∧
      (2 * Config.cCal * 8388608).tdiv (v (4 * k.val) - v (4 * k.val + 1)) = 8388608 ∧
      (v (4 * k.val) + v (4 * k.val + 1)) / 2 = 0 ∧ (v (4 * k.val + 2) - v (4 * k.val + 3)) / 2 * 15625 / 65536 = 0 := by
  rw [h]; decide +kernel

/-- Two disagreements within 256 conversions. -/
theorem wit_qualification_again :
    let marks := (some (qualifying.meas.slices[2].convs)).toList ++ [qualifying.meas.slices[2].convs + 3]
    (marks.zip marks.tail).any (fun e => decide (e.2 < e.1 + 256)) = true := by decide +kernel
/-- A Sextant window of a channel, and of a reference, that has closed. -/
def sextant (w : SxWindow) : State := (round 5).setMeas { (round 5).meas with sxWindow := some w }
def closedWindow : SxWindow := ⟨19, 900, 0, 999, 999, 1000, 4, false⟩
theorem wit_sextant :
    (sextant closedWindow).measUp = true ∧ closedWindow.left = 0 ∧ closedWindow.last < (sextant closedWindow).now ∧
    closedWindow.item < 20 ∧ (sextant closedWindow).meas.sampled = [] ∧ (sextant closedWindow).meas.sxEntries = [] ∧
    ¬ (closedWindow.spoiled = true ∨ closedWindow.count = 0 ∨ false = true) ∧ (0 : Int) < 1 ∧ -524288 ≤ (1 : Int) * 524288 / 2 ∧
    ({ closedWindow with spoiled := true } : SxWindow).spoiled = true ∧ 20 ≤ ({ closedWindow with item := 20 } : SxWindow).item := by
  decide +kernel

/-- A result of channel 0, the last of a closing run, with a table of LT_FMT 0. -/
def resulting (closing : Bool) : State :=
  let s := round 9
  s.setMeas { s.meas with
    tables := Vector.replicate 20 plainTable
    results := [⟨0, 1000, 0, 0, 998, 999, 998, closing, (5, 0)⟩] }
theorem wit_linearised (c : Bool) :
    (resulting c).measUp = true ∧ (resulting c).meas.swap = none ∧ (resulting c).mgmt.inForce.chEn 0 = true ∧
    ltFmt (resulting c).meas.tables[0] = 0 ∧
    0 = (if (resulting c).mgmt.inForce.arEn 0 then (resulting c).mgmt.inForce.arGmin 0 else (resulting c).mgmt.inForce.fixedGain 0) ∧
    (resulting c).mgmt.inForce.varsAfter 0 = [] ∧ (resulting c).mgmt.inForce.primaryChans = [0] ∧ (resulting c).loopUp = true ∧
    (resulting c).loop.replaying = false := by cases c <;> decide +kernel
/-- A table with LT_FMT 1 and its temperature from channel 1; autoranging or not. -/
def polyTable (src : Byte) : List Byte := [1, 0, src, 0] ++ zeros 108
def ranging (src : Byte) (ar : Nat) : State :=
  let s := withAlm (round 9) (((tank.set (fid 2 0 26) ar).set (fid 2 0 28) 5).set (fid 2 1 0) 1)
  s.setMeas { s.meas with
    tables := Vector.replicate 20 (polyTable src), chans := s.meas.chans.set 1 { s.meas.chans[1] with lin := 70000, hasLin := true, linTick := 990 }
    results := [⟨0, 1000, 0, 0, 998, 999, 998, false, (5, 0)⟩] }
theorem wit_ranging : ∀ src ∈ [(31 : Byte), 1], ∀ ar ∈ [0, 1],
    (ranging src ar).measUp = true ∧ (ranging src ar).meas.swap = none ∧ (ranging src ar).mgmt.inForce.chEn 0 = true ∧
    (ranging src ar).mgmt.inForce.varsAfter 0 = [] ∧ ltFmt (ranging src ar).meas.tables[0] = 1 ∧ ltSrc (ranging src ar).meas.tables[0] = src.toNat ∧
    (ranging src ar).meas.chans[1].hasLin = true ∧ (ranging src ar).meas.chans[1].linTick < (ranging src ar).now ∧
    (if (ranging src ar).mgmt.inForce.arEn 0 then (ranging src ar).mgmt.inForce.arGmin 0 else (ranging src ar).mgmt.inForce.fixedGain 0) = 0 ∧
    (ranging src ar).mgmt.inForce.arEn 0 = (ar == 1) := by decide +kernel
/-- A variable over channels 0 and 1, of which channel 0 is valid. -/
def derived (op minValid : Nat) : State :=
  let s := withAlm (round 9) (((tank.set (fid 6 0 1) op).set (fid 6 0 11) 3).set (fid 6 0 12) minValid)
  s.setMeas { s.meas with chans := s.meas.chans.set 0 { s.meas.chans[0] with linStatus := 0x8000, lin := 65536 } }
theorem wit_variables :
    let used (s : State) := ((s.mgmt.inForce.members 0).map s.meas.chan).filter fun c => c.linStatus.getLsbD 15
    (derived 0 1).mgmt.inForce.varOp 0 = 0 ∧ (derived 2 1).mgmt.inForce.varOp 0 ≠ 0 ∧ max 1 1 ≤ (used (derived 2 1)).length ∧
    (derived 2 1).mgmt.inForce.varMinvalid 0 = 1 ∧ (used (derived 2 2)).length < max 1 ((derived 2 2).mgmt.inForce.varMinvalid 0) ∧
    (derived 2 1).mgmt.inForce.varSqrt 0 = false ∧ (withAlm running (tank.set (fid 6 0 13) 1)).mgmt.inForce.varSqrt 0 = true := by
  decide +kernel
def swapping (mask : BitVec 20) (save : Bool) : State := (round 9).setMeas { (round 9).meas with swap := some ⟨mask, 1000, save⟩ }
theorem wit_swap_due : ∀ save : Bool,
    (swapping 0xFFFFF save).measUp = true ∧ (swapping 0xFFFFF save).reached 1000 = true ∧
    (swapping 0xFFFFF save).inClosingSpan = false ∧ (swapping 0xFFFFF save).nvm.tables.length = 20 ∧
    (∀ c ∈ (swapping 0x2 save).mgmt.inForce.primaryChans, (0x2 : BitVec 20).getLsbD c = false) := by decide +kernel

/-- Stream 3 takes channel 2 into buffers 60 to 63. -/
def streamed : Alm := (((watch.set (fid 1 0 8) 1).set (fid 5 3 0) 4).set (fid 5 3 2) 60).set (fid 5 3 3) 4
def queued (chan : BitVec 5) (o : Own) : State :=
  let s := withAlm (owning 60 o) streamed
  s.setMeas { s.meas with queue := [⟨0, chan, 0, 999, 999⟩] }
theorem wit_tap :
    running.mgmt.inForce.queueStream = false ∧ (queued 2 .free).mgmtUp = true ∧ (queued 2 .free).mgmt.inForce.queueStream = true ∧
    (queued 2 .free).meas.qRing = none ∧ 999 < (queued 2 .free).now ∧ (queued 1 .free).mgmt.inForce.streamOf 1 = none ∧
    (queued 2 .free).mgmt.inForce.streamOf 2 = some 3 ∧ (queued 2 .free).mgmt.streams[3].buf = none ∧
    (queued 2 .free).mgmt.inForce.streamRange 3 = [60, 61, 62, 63] ∧ ((queued 2 .free).win.ownAt 60).own = .free ∧
    ((queued 2 .host).win.ownAt 60).own ≠ .free ∧ (queued 2 .free).mgmt.drained ≠ some (queued 2 .free).now ∧
    (withAlm running streamed).qReady = [] ∧ (withAlm running streamed).meas.qRing = none := by decide +kernel
/-- A buffer that waits to pass to LOOP, posted a tick ago and in this one. -/
theorem wit_relay :
    let s (t : Nat) := running.setFab { running.fab with relayOut := [(5, t)] }
    (s 999).loopUp = true ∧ (s 999).fab.relayOut = [(5, 999)] ∧ 999 < (s 999).now ∧ (s 1000).now ≤ 1000 := by decide +kernel
def flushing : State :=
  let s := queued 2 .device
  { s with mgmt := { s.mgmt with streams := s.mgmt.streams.set 3 ⟨some 60, [⟨0, 2, 0, 5, 5⟩], 5, 61, 0, 0, 0, [4, 0, 60, 4, 50000]⟩ }
           clock := { s.clock with tick := 60000 } }
theorem wit_flush :
    flushing.mgmtUp = true ∧ flushing.mgmt.streams[3].buf = some 60 ∧ Memory.wf flushing.win.mem = true ∧
    (flushing.win.ownAt 60).own = .device ∧ flushing.mgmt.streams[3].entries.length ≤ 29 ∧
    flushing.mgmt.inForce.qsFabric 3 = false ∧
    flushing.mgmt.inForce.qsFlush 3 ≤ flushing.now - flushing.mgmt.streams[3].firstTick := by decide +kernel

/-! ## Witnesses: the loop, the modem and the fabric -/

/-- A feed that waits for LOOP. -/
def feeding (status : BitVec 16) (a : Alm) : State :=
  let s := withAlm running a
  s.setLoop { s.loop with feed := some ⟨65536, status, 990, 998⟩ }
theorem wit_loop_update :
    (feeding 0 tank).loopUp = true ∧ (feeding 0 tank).loop.replaying = false ∧ (feeding 0 tank).mgmt.pendLoop = none ∧
    998 + 2 ≤ (feeding 0 tank).now ∧ (0 : BitVec 16).toNat &&& 0x09F2 = 0 ∧ ¬ (0x0002 : BitVec 16).toNat &&& 0x09F2 = 0 ∧
    (0x0002 : BitVec 16).getLsbD 1 = true ∧ ¬ (0x0010 : BitVec 16).toNat &&& 0x09F2 = 0 ∧ (0x0010 : BitVec 16).getLsbD 1 = false ∧
    (feeding 0x0010 (tank.set (fid 7 0 9) 2)).mgmt.inForce.pvFail = 2 ∧ (feeding 0x0010 (tank.set (fid 7 0 9) 1)).mgmt.inForce.pvFail ≤ 1 ∧
    (feeding 0x0010 tank).mgmt.inForce.pvFail = 0 := by decide +kernel
/-- A feed in its check tick, and a loop token that waits (01 R19, R23). -/
theorem wit_check_tick :
    let s := (feeding 0 tank).setLoop { (feeding 0 tank).loop with feed := some ⟨65536, 0, 990, 999⟩ }
    s.loopUp = true ∧ 999 + 1 = s.now ∧ s.parityArmed .meas .loop = false ∧
    (s.setFaults (s.faults.arm 0x0C 2)).parityArmed .meas .loop = true ∧
    ({ s with mgmt := { s.mgmt with pendLoop := some ⟨tank, 999, none, false⟩ } } : State).mgmt.pendLoop =
      some ⟨tank, 999, none, false⟩ ∧ 999 < s.now := by
  decide +kernel
/-- The primary sequence runs, and the last loop update is old. -/
def overdue (track : Bool) (l : LoopOut) : State :=
  let s := withAlm running (tank.set (fid 7 0 10) (if track then 1 else 0))
  { s with loop := l, meas := { s.meas with seqs := s.meas.seqs.set 0 ⟨true, none, none, .idle, false, none, 0, false⟩ } }
def lateLoop : LoopOut := { LoopOut.reset with
  hadUpdate := true, uUpd := 100, duMax := 500, g := 20, startup := false, usable := 2, lastA := 500, hist := [] }
theorem wit_holds :
    (overdue false lateLoop).loop.hadUpdate = true ∧ (overdue false lateLoop).loop.interrupted = false ∧
    (overdue false lateLoop).primaryRuns = true ∧ 100 + 500 + 20 ≤ (overdue false lateLoop).now ∧
    (overdue false lateLoop).loop.multidrop = false ∧ (overdue false lateLoop).loop.hwAlarm = false ∧
    (overdue false lateLoop).loop.auxAlarm = false ∧ (overdue false lateLoop).loop.miswire = .normal 0 ∧
    (overdue false lateLoop).loop.swAlarm = false ∧ (overdue false lateLoop).loop.fixed = none ∧
    (overdue false lateLoop).loop.startup = false ∧ (overdue false lateLoop).loop.holding = false ∧
    (overdue false lateLoop).mgmt.inForce.holdTrack = false ∧ (overdue true lateLoop).mgmt.inForce.holdTrack = true ∧
    (overdue true lateLoop).loop.usable = 2 := by decide +kernel
theorem wit_hold_limit :
    (overdue false { lateLoop with interrupted := true, holdCount := 500000 }).mgmt.inForce.holdLimit ≤ 500000 ∧
    (overdue false { lateLoop with interrupted := true, holdCount := 500000 }).primaryRuns = true ∧
    (overdue false { lateLoop with interrupted := true, holdCount := 500000 }).loop.holdLim = false ∧
    (overdue false { lateLoop with holding := true }).loopUp = true ∧
    ((overdue false { lateLoop with holding := true }).now - lateLoop.lastA) % 500 = 0 ∧
    (overdue false { lateLoop with holding := true }).now - lateLoop.lastA ≠ 0 ∧
    (overdue false { lateLoop with holding := true }).mgmt.pendLoop = none := by decide +kernel
/-- The update on its way to the regulator is the newest (08 R199). -/
theorem wit_newest_update :
    let s := overdue false { lateLoop with holding := true, sched := [⟨1003, .update ⟨⟨0, 0, 990, 990⟩, .usable, 40000, 0, false, 505⟩⟩] }
    s.loop.newestA = 500 ∧ s.loop.hadUpdate = true ∧ s.loop.holding = true ∧ s.loopUp = true ∧ s.mgmt.pendLoop = none := by decide +kernel
theorem wit_hold_apply :
    ({ overdue false { lateLoop with holding := true } with
      mgmt := { (withAlm running tank).mgmt with pendLoop := some ⟨tank, 999, none, false⟩ } } : State).mgmt.pendLoop =
        some ⟨tank, 999, none, false⟩ ∧ 999 < running.now := by decide +kernel
theorem wit_replay :
    (running.setLoop { running.loop with replaying := true, todo := [] }).loop.replaying = true ∧
    (running.setLoop { running.loop with replaying := true, todo := [⟨1, 0, 1, 900⟩, ⟨2, 0, 2, 950⟩], replayNext := 1000 }).loop.replayNext ≤
      running.now ∧ running.loopUp = true ∧ running.mgmt.pendLoop = none := by decide +kernel

/-- A port's state at a tick. -/
def receiving (tick : Nat) (x : PortSt) : State :=
  { running with clock := { running.clock with tick := tick, onInternal := false }, ports := ⟨x, x⟩ }
def idlePort : PortSt := { PortSt.reset with rx := .idle }
theorem wit_energy :
    (receiving 1024 idlePort).portOn .loop = true ∧ ((receiving 1024 idlePort).port .loop).rx = .idle ∧ 1024 % 32 = 0 ∧
    ((receiving 1024 idlePort).port .loop).blkTick ≠ some 1024 ∧ ((receiving 1024 idlePort).port .loop).windowOver 1024 = false ∧
    ((receiving 1024 { idlePort with rx := .qualify, winEnd := 100000 }).port .loop).rx = .qualify ∧
    ((receiving 1024 { idlePort with rx := .synced, blkTick := some 992, strong := 1, eSync := 1 }).port .loop).rx = .synced ∧
    2 ≤ (if 2 * (1 : Int) ≤ 2 then (if (some 992).isSome ∧ (some 992).getD 0 + 32 = 1024 then 1 + 1 else 1) else 0) ∧
    (receiving 1024 idlePort).mgmt.inForce.mdmCapture = true ∧
    ((receiving 1024 { idlePort with rx := .payload, paySyms := 90 }).port .loop).rx = .payload ∧
    ((receiving 2000 { idlePort with rx := .qualify, winEnd := 64 * 2000 }).port .loop).windowOver 2000 = true := by decide +kernel
theorem wit_energy_spur :
    (withAlm (receiving 1024 idlePort) (tank.set (fid 8 0 1) 1)).portOn .spur = true := by decide +kernel
/-- A port with an open qualifier window. -/
def listening : PortSt := { idlePort with rx := .qualify, winOpen := 0, winEnd := 1000000 }
theorem wit_sync :
    ((receiving 1100 listening).port .loop).rx = .qualify ∧
    searchSync [⟨0, 1, 1⟩, ⟨288, 1, 1⟩] running.mgmt.inForce.mdmQThr 5248 (ceilDiv 0 125 - 64) = some 0 ∧
    afterSample (0 + 543) ≤ 1100 ∧ ((receiving 1100 listening).port .loop).windowOver 1100 = false ∧
    ((receiving 1100 listening).port .loop).peak running.mgmt.inForce.mdmQThr [] = none := by
  decide +kernel
/-- A correlation that crosses in the first sample, whatever the transform's table holds. -/
theorem wit_peak (ys : List Int) (h : ((receiving 1100 listening).port .loop).peak running.mgmt.inForce.mdmQThr ys = some 0) :
    ((receiving 1100 listening).port .loop).peak (receiving 1100 listening).mgmt.inForce.mdmQThr ys = some 0 ∧
    afterSample (0 + 543) ≤ 1100 := ⟨h, by decide⟩
/-- A synchronised port with a header's soft values. -/
def headed (llr : List Int) (syms : Nat) (taps : List Cplx) : PortSt :=
  { idlePort with rx := .synced, nStar := 0, taps := taps, syms := syms, hdrLlr := llr, seg := some 8990 }
def oneTap : List Cplx := List.replicate 64 ⟨1, 0⟩
def soft (w : Nat) : List Int :=
  let c := headerCode w
  let v (b : Bool) : Int := if b then -1 else 1
  ((List.range 64).map fun i => v (c.getD (2 * i) false)) ++ ((List.range 64).map fun i => v (c.getD (2 * i + 1) false))
/-- A port that has a symbol of its payload on the core. -/
def paying (left : Nat) : State :=
  receiving 9000 { headed [] 2 oneTap with rx := .payload, hdr := some ⟨0, 0, 3, 0, 8, 0, [], .standard⟩, cwLeft := left, paySyms := 90 }
theorem wit_mode_and_symbols :
    (receiving 9000 (headed [] 0 [])).portOn .loop = true ∧ ((receiving 9000 (headed [] 0 [])).port .loop).taps = [] ∧
    ((receiving 9000 (headed [] 0 [])).port .loop).rx = .synced ∧ ((receiving 9000 (headed [] 0 [])).port .loop).seg = some 8990 ∧
    oneTap.length = 64 ∧ ((receiving 9000 (headed [] 1 oneTap)).port .loop).taps ≠ [] ∧
    ((receiving 9000 (headed [] 1 oneTap)).port .loop).syms < 2 ∧ ((paying 1).port .loop).cwLeft = 1 ∧ (paying 1).portOn .loop = true ∧
    ((paying 1).port .loop).rx = .payload ∧ ((paying 1).port .loop).seg = some 8990 ∧ ((paying 1).port .loop).taps ≠ [] ∧
    ((paying 1).port .loop).hdr = some ⟨0, 0, 3, 0, 8, 0, [], .standard⟩ := by decide +kernel
def shortBeacon : Frame := ⟨0, 0, 1, 0, 0, 7, [], .robust⟩
def command8 : Frame := ⟨5, 64, 3, 0, 8, 7, [1, 0, 0x5A, 0, 0, 0, 0, 0], .standard⟩
theorem wit_header_beacon :
    (headerFrame ((receiving 9000 (headed (soft (headerWord shortBeacon)) 2 oneTap)).headerBits .loop) .robust).map (·.len) = some 0 := by
  decide +kernel
theorem wit_header_command :
    (headerFrame ((receiving 9000 (headed (soft (headerWord command8)) 2 oneTap)).headerBits .loop) .standard).map (·.len) = some 8 := by
  decide +kernel
theorem wit_header_wrong :
    headerFrame ((receiving 9000 (headed (List.replicate 128 1) 2 oneTap)).headerBits .loop) .standard = none ∧
    ((receiving 9000 (headed (List.replicate 128 1) 2 oneTap)).port .loop).syms = 2 := by decide +kernel
def decoding (last : Bool) : State := { receiving 9000 idlePort with
  decoder := [⟨.loop, .standard, List.replicate 1152 1, 8000, last, command8, 7900⟩], decFree := 8552 }
theorem wit_codeword (last : Bool) :
    (decoding last).loopUp = true ∧ (firstJob (decoding last).decoder).map (·.port) = some .loop ∧
    max 8000 (decoding last).decFree + 448 ≤ (decoding last).now := by cases last <;> decide +kernel

def job (rank : Nat) (buf : Option Nat) : TxJob := ⟨command8, 900, rank, none, buf⟩
def loopAt (code : Int) (x : PortSt) : State :=
  let s := receiving 1000 x
  s.setLoop { s.loop with cmd := code, lim := code, shaped := code, trim := code }
theorem wit_transmit :
    (loopAt 120000 { idlePort with txReq := [job 2 none] }).portOn .loop = true ∧
    (loopAt 120000 { idlePort with txReq := [job 2 none] }).txHeld .loop = false ∧
    0 < (loopAt 120000 { idlePort with txReq := [job 2 none] }).txAmp .loop ∧ idlePort.rx.holds = false ∧
    ({ loopAt 34000 { idlePort with txReq := [job 2 none] } with energy := { running.energy with drawUa := 3350 } } : State).txAmp .loop = 0 ∧
    ((loopAt 120000 { idlePort with txReq := [job 4 none], tx := some (job 2 none), txEnd := 2000 }).port .loop).tx.isSome = true ∧
    (job 2 none).at_ ≤ 1000 := by decide +kernel
/-- DUP_ADDR silences a reply and a publish; a receiver that holds a packet; COMPLY (10 R252; 09 R226, R232). -/
theorem wit_transmit_kinds :
    ((receiving 1000 idlePort).setFab { running.fab with dup := true }).fab.dup = true ∧ ((job 3 (some 63)).rank = 3 ∨ (job 3 (some 63)).rank = 4) ∧
    ¬ ((job 2 none).rank = 3 ∨ (job 2 none).rank = 4) ∧ (headed [] 1 oneTap).rx.holds = true ∧
    ((loopAt 120000 idlePort).setLoop { (loopAt 120000 idlePort).loop with comply := .comply 0 }).txHeld .loop = true ∧
    0 < (withAlm (receiving 1000 idlePort) (tank.set (fid 8 0 1) 1)).txAmp .spur := by decide +kernel
theorem wit_transmit_end :
    ((receiving 1000 { idlePort with rx := .muted, tx := some (job 4 (some 63)), txEnd := 1000 }).port .loop).txEnd ≤ 1000 ∧
    ((owning 63 .device).win.ownAt 63).own = .device ∧
    ((receiving 1000 { idlePort with rx := .muted, tx := none, lastTx := 936 }).port .loop).lastTx + 64 ≤ 1000 ∧
    64 ≤ ({ idlePort with idleSyms := 64 } : PortSt).idleSyms ∧ (List.replicate 64 (List.replicate 64 0)).length = 64 := by
  decide +kernel
def lineToken : State := { withAlm running tank with mgmt := { (withAlm running tank).mgmt with pendLine := some ⟨tank.set (fid 9 0 0) 5, 999, none, false⟩ } }
theorem wit_idle_line :
    lineToken.loopUp = true ∧ (lineToken.mgmt.pendLine.map (·.posted)) = some 999 ∧ 999 < lineToken.now ∧
    lineToken.mgmt.inForce.wf = true ∧ (tank.set (fid 9 0 0) 5).wf = true ∧ lineToken.fieldIdle (fid 9 0 0) = true := by
  decide +kernel

/-- An assigned address on an idle line, on a line that receives, and an FSK field that a carrier holds (09 R234, 10 R251). -/
def assignedLine (rx : RxState) (cd : Bool) : State := { lineToken with
  fab := { lineToken.fab with assigned := true, dup := true }, ports := ⟨{ idlePort with rx := rx }, idlePort⟩
  fsk := { lineToken.fsk with cd := cd } }
theorem wit_assigned_line :
    (assignedLine .idle true).fieldIdle (fid 9 0 0) = true ∧ (assignedLine .idle true).fab.assigned = true ∧
    (assignedLine .payload false).fieldIdle (fid 9 0 0) = false ∧ lineToken.fab.assigned = false ∧
    (assignedLine .idle true).fieldIdle (fid 8 0 9) = false := by decide +kernel

def fskState (f : Fsk) : State := { withAlm running (tank.set (fid 8 0 9) 1) with fsk := f }
theorem wit_fsk :
    takesB (fskState Fsk.reset) 0x0508 (pk [1]) [.loop] = true ∧ takesB (fskState Fsk.reset) 0x0508 (pk (zeros 248)) [.loop] = true ∧
    (fskState Fsk.reset).mgmt.inForce.fskEn = true ∧ running.mgmt.inForce.fskEn = false ∧ takesB running 0x0508 (pk [1]) [.loop] = true ∧
    (fskState { Fsk.reset with tx := some ([1], 900) }).fskOn = true ∧
    500000 ≤ ({ fskState { Fsk.reset with tx := some ([1], 0), cd := true } with clock := { running.clock with tick := 500000 } } : State).now - 0 ∧
    ({ Fsk.reset with cd := true } : Fsk).stillMuted 1000 = false ∧
    ({ Fsk.reset with cd := true, buf := some 63, octets := List.replicate 118 (0, 0) } : Fsk).octets.length < 119 ∧
    ({ Fsk.reset with cd := true, buf := some 63, octets := List.replicate 119 (0, 0) } : Fsk).octets.length = 119 ∧
    (⟨0x400, 0, 900⟩ : FskOctet).bits.getLsbD 0 = false ∧ ((owning 63 .device).win.ownAt 63).own = .device ∧
    (bufRange (fskState Fsk.reset).mgmt.inForce.fskBufFirst (fskState Fsk.reset).mgmt.inForce.fskBufCount) = [62, 63] ∧
    ((fskState Fsk.reset).win.ownAt 62).own = .free ∧ ((owning 62 .host).win.ownAt 62).own ≠ .free ∧
    ((owning 62 .host).win.ownAt 63).own = .free := by decide +kernel

/-- A full buffer and a carrier's end with LOOP's access armed, and without (13 R332). -/
theorem wit_fsk_armed :
    let s := fskState { Fsk.reset with cd := true, buf := some 63, octets := [(1, 2)] }
    s.parityArmed .loop .mgmt = false ∧ (s.setFaults (s.faults.arm 0x0B 1)).parityArmed .loop .mgmt = true ∧
    (s.setFaults (s.faults.arm 0x0B 1)).faults.reports = [] := by decide +kernel

/-- A device with address 5 of segment 1, and with routing and both ports. -/
def addressed : State := withAlm (receiving 1000 idlePort) (tank.set (fid 9 0 0) 69)
def router : State :=
  withAlm (receiving 1000 idlePort) ((((tank.set (fid 9 0 0) 69).set (fid 9 0 1) 1).set (fid 8 0 1) 1).set (fid 11 0 2) 2)
def sessionWith (x : Session) : State := addressed.setFab { addressed.fab with sessions := addressed.fab.sessions.set 15 x }
def open0 : Session := { Session.reset with opened := true, addr := 64, seq := some 6, last := 900 }
def cmd : Frame := { command8 with dest := 69 }
theorem wit_commands_by_frame :
    frameValid cmd = true ∧ cmd.typ = 3 ∧ assignOf cmd = none ∧
    ((sessionWith open0).takeFrame .loop cmd false).map (·.2) = some 1000 ∧ (sessionWith open0).cmdConsumed cmd = .session ∧
    (sessionWith open0).fab.sessOf cmd.src = some 15 ∧ ((sessionWith open0).fab.sess 15).seq ≠ some cmd.seq ∧
    ((sessionWith { open0 with seq := some 7 }).fab.sess 15).seq = some cmd.seq ∧
    ((sessionWith { open0 with running := true }).fab.sess 15).running = true ∧
    ((sessionWith open0).fab.sess 15).buf = none ∧ (sessionWith open0).relayBuf = some 48 ∧
    (sessionWith open0).mgmtDown = false ∧ (sessionWith open0).fab.mb2Wait = [] ∧ ((sessionWith open0).win.mbAt 2).pending = false ∧
    ({ sessionWith open0 with ready := false } : State).mgmtDown = true ∧ running.cmdConsumed cmd = .no := by decide +kernel
/-- A CMD to node 63 (10 R244). -/
theorem wit_broadcast :
    frameValid { cmd with dest := 127 } = true ∧ ((sessionWith open0).takeFrame .loop { cmd with dest := 127 } false).map (·.2) = some 1000 ∧
    (sessionWith open0).cmdConsumed { cmd with dest := 127 } = .broadcast := by decide +kernel
/-- The copy of a CMD into its buffer, armed and not (13 R332). -/
theorem wit_command_armed :
    (sessionWith open0).parityArmed .loop .mgmt = false ∧
    ((sessionWith open0).setFaults ((sessionWith open0).faults.arm 0x0B 1)).parityArmed .loop .mgmt = true ∧
    ((sessionWith open0).takeFrame .loop cmd false).isSome = true ∧
    (((sessionWith open0).setFaults ((sessionWith open0).faults.arm 0x0B 1)).takeFrame .loop cmd false).isSome = true := by decide +kernel
def poll : Frame := ⟨69, 64, 2, 0, 0, 7, [], .standard⟩
theorem wit_polls :
    frameValid poll = true ∧ poll.typ = 2 ∧ ((sessionWith open0).takeFrame .loop poll false).map (·.2) = some 1000 ∧
    poll.dest = (sessionWith open0).ownAddr ∧ nodeOf poll.dest ≠ 0 ∧ (sessionWith open0).fab.dup = false ∧
    (sessionWith open0).fab.sessOf poll.src = some 15 ∧ poll.dest ≠ running.ownAddr := by decide +kernel
/-- A table of 16 sessions of other addresses, of which session 3 was used last at `last` and the rest later or are running. -/
def crowded (last : Nat) (busy : Bool) : State :=
  let x : Session := { Session.reset with opened := true, addr := 128, last := 699000, running := busy }
  let s := { addressed with clock := { addressed.clock with tick := 700000 } }
  s.setFab { s.fab with sessions := (Vector.replicate 16 x).set 3 { x with last := last } }
theorem wit_sessions :
    addressed.fab.sessOf poll.src = none ∧ addressed.fab.sessions[0].opened = false ∧
    (crowded 0 false).fab.sessOf poll.src = none ∧ (∀ m : Fin 16, (crowded 0 false).fab.sessions[m].opened = true) ∧
    (crowded 0 false).fab.sessions[3].running = false ∧ 500000 ≤ (crowded 0 false).now - (crowded 0 false).fab.sessions[3].last ∧
    (∀ m : Fin 16, m ≠ 3 → (crowded 0 false).fab.sessions[3].last < (crowded 0 false).fab.sessions[m].last) ∧
    (∀ m : Fin 16, (crowded 0 true).fab.sessions[m].running = true) ∧
    (∀ m : Fin 16, (crowded 698000 false).now - (crowded 698000 false).fab.sessions[m].last < 500000) := by decide +kernel
def due0 : Due := ⟨1000, 7, .loop, false, none⟩
theorem wit_replies :
    (sessionWith { open0 with due := some due0 }).fabricOn = true ∧ due0.at_ ≤ (sessionWith open0).now ∧
    (sessionWith { open0 with due := some due0 }).fab.dup = false ∧
    ((sessionWith open0).setFab { (sessionWith open0).fab with dup := true }).fab.dup = true ∧
    5000000 ≤ ({ sessionWith open0 with clock := { running.clock with tick := 5000900 } } : State).now - open0.last ∧
    (sessionWith open0).fab.sessions[15].opened = true ∧ (sessionWith open0).fab.sessions[15].running = false := by decide +kernel
/-- A POLL of a session without a reply, a CMD without one, a current reply in time and late, a fixed one (10 R245). -/
theorem wit_answers :
    ∀ d ∈ [due0, { due0 with poll := true }, { due0 with fixed := some [1] }], ∀ cur ∈ [none, some [1, 2]], ∀ at_ ∈ [800, 801],
      let s := sessionWith { open0 with due := some d, cur := cur, curAt := at_ }
      s.fabricOn = true ∧ s.fab.sessions[15].due = some d ∧ d.at_ ≤ s.now ∧ s.fab.dup = false := by decide +kernel
def sweep (ofs plen : Nat) : Frame := ⟨0, 64, 6, 0, 16, 7, leBytes 1 plen ++ leBytes 1 1 ++ leBytes 3 ofs ++ zeros 3 ++ zeros 8, .standard⟩
theorem wit_sweeps :
    frameValid (sweep 60000 0) = true ∧ (sweep 60000 0).typ = 6 ∧
    ((receiving 1000 idlePort).takeFrame .loop (sweep 60000 0) false).map (·.2) = some 1000 ∧ nodeOf (sweep 60000 0).dest = 0 ∧
    (receiving 1000 idlePort).unassigned = true ∧ leAt (sweep 60000 0).payload 0 1 ≤ 64 ∧ leAt (sweep 60000 0).payload 1 1 ≤ 2 ∧
    airtime (sweep 60000 0).mode 16 + 1000 ≤ leAt (sweep 60000 0).payload 2 3 ∧
    ¬ (airtime (sweep 0 0).mode 16 + 1000 ≤ leAt (sweep 0 0).payload 2 3) ∧ addressed.unassigned = false ∧
    (receiving 1000 idlePort).fab.sessOf (sweep 60000 0).src = none ∧ (receiving 1000 idlePort).fab.sessions[0].opened = false ∧
    (sessionWith open0).fab.sessOf (sweep 60000 0).src = some 15 := by decide +kernel
theorem wit_sweep_matches : Config.uid.toNat / 2 ^ (64 - 0) = leAt (sweep 60000 0).payload 8 8 / 2 ^ (64 - 0) := by
  have a : leAt (sweep 60000 0).payload 8 8 = 0 := by decide +kernel
  rw [a]
  have := Config.uid.isLt
  omega
def publishing : State :=
  let a := ((tank.set (fid 9 0 0) 69).set (fid 10 0 0) 100000).set (fid 10 0 1) 1000
  { withAlm (receiving 1000 idlePort) a with fab := { running.fab with locked := true, pubQueue := [(60, 500)] } }
theorem wit_publish :
    publishing.slotCount 0 = some 1000 ∧ publishing.portOn .loop = true ∧ publishing.fab.locked = true ∧
    publishing.unassigned = false ∧ publishing.fab.dup = false ∧ publishing.fab.pubDone.getD 0 none ≠ some 1000 := by decide +kernel
/-- A publish whose first symbol the synthesis has made already (09 R223). -/
theorem wit_publish_made :
    let s : State := { publishing with ports := publishing.ports.put .loop { publishing.port .loop with synthed := [1008] } }
    s.slotCount 0 = some 1000 ∧ s.portOn .loop = true ∧ s.fab.pubQueue = [(60, 500)] ∧ max s.now (500 + 200) = 1000 ∧
    ((s.port .loop).synthed.any fun t => decide (t ≤ 1000 + 8 ∧ 1000 ≤ t + 8)) = true := by decide +kernel
theorem wit_slots :
    [(1000, Port.loop, shortBeacon), (1001, .loop, shortBeacon)].filter (fun x => decide (x.1 ≤ addressed.now)) = [(1000, Port.loop, shortBeacon)] ∧
    (addressed.setFab { addressed.fab with sweep := [(1000, .loop, shortBeacon)] }).fabricOn = true ∧
    (addressed.setFab { addressed.fab with relay := some (999, .loop, shortBeacon) }).fab.relay = some (999, .loop, shortBeacon) ∧
    999 < addressed.now := by decide +kernel
def fullBeacon (t : Nat) : Frame := ⟨0, 0, 1, 0, 16, 7, leBytes 6 t ++ [0, 1] ++ leBytes 6 9999 ++ zeros 2, .robust⟩
theorem wit_beacons :
    frameValid shortBeacon = true ∧ frameValid (fullBeacon 8) = true ∧ (fullBeacon 8).typ = 1 ∧
    (addressed.takeFrame .loop (fullBeacon 8) false).map (·.2) = some 1000 ∧ addressed.acceptsBeacon .loop (fullBeacon 8) = true ∧
    addressed.acceptsBeacon .loop { fullBeacon 8 with src := 64 } = false ∧ addressed.acceptsBeacon .loop shortBeacon = true ∧
    addressed.fab.locked = false ∧ (addressed.setFab { addressed.fab with locked := true }).fab.locked = true ∧
    addressed.routes = false ∧ router.routes = true ∧ (fullBeacon 8).hop ≠ 7 ∧
    addressed.mgmt.inForce.fabBcnTimeout ≤ 2501000 - 1000 := by decide +kernel
/-- A beacon to the device's own address, to node 63 and to node 0, whose sender has a session, opens one, or meets a full table; and one
at the hop limit (10 R244, R248, R258). -/
theorem wit_beacon_sessions :
    (∀ a ∈ [69, 127], frameValid { fullBeacon 8 with dest := a } = true ∧
      ((addressed.takeFrame .loop { fullBeacon 8 with dest := a } false).map fun x => x.1.fab.sessOf 0) = some none) ∧
    addressed.ownAddr = 69 ∧ nodeOf (127 : BitVec 12) = 63 ∧ segOf (127 : BitVec 12) = segOf addressed.ownAddr ∧
    addressed.fab.sessions[0].opened = false ∧ (sessionWith { open0 with addr := 0 }).fab.sessOf 0 = some 15 ∧
    running.unassigned = true ∧ nodeOf (fullBeacon 8).dest = 0 ∧ addressed.unassigned = false ∧
    (∀ m : Fin 16, (crowded 0 true).fab.sessions[m].opened = true) ∧ (crowded 0 true).fab.sessOf 64 = none ∧
    (crowded 0 true).acceptsBeacon .loop { fullBeacon 8 with src := 64, dest := 69 } = false ∧
    frameValid { fullBeacon 8 with hop := 7 } = true ∧ (router.takeFrame .loop { fullBeacon 8 with hop := 7 } false).isSome = true ∧
    (router.takeFrame .loop (fullBeacon 8) true).isSome = true ∧ (router.takeFrame .loop { fullBeacon 8 with hop := 7 } true).isSome = true := by
  decide +kernel
/-- The error of a beacon at the ends of each range of 10 R257, in eighths of a tick. -/
theorem wit_beacon_errors : ∀ w ∈ [((8 * 8 + 512 : Nat), (512 : Int)), (8 * 8 + 511, 511), (8 * 8 + 4, 4), (8 * 8 + 3, 3), (8 * 8 - 4, -4), (8 * 8 - 5, -5)],
    (w.1 : Int) - 8 * ((leAt (fullBeacon 8).payload 0 6 : Nat) : Int) = w.2 := by decide +kernel
def device : Frame := ⟨128, 69, 5, 0, 24, 7, zeros 24, .standard⟩
theorem wit_forwarding :
    frameValid device = true ∧ deviceType device.typ.toNat = true ∧ (addressed.takeFrame .loop device false).map (·.2) = some 1000 ∧
    addressed.unassigned = false ∧ device.src = addressed.ownAddr ∧ addressed.fab.dup = false ∧
    (router.takeFrame .loop device true).map (·.2) = some 1000 ∧ router.consumesAlone device = false ∧
    router.exitOf (segOf device.dest) = some .spur ∧ (router.fab.fwd.at .spur).length < 8 ∧
    router.exitOf (segOf { device with dest := 192 }.dest) = none ∧ ({ cmd with src := 128, dest := 192 } : Frame).typ = 3 ∧
    (router.takeFrame .loop { cmd with src := 128, dest := 192 } true).map (·.2) = some 1000 ∧
    router.consumesAlone { cmd with src := 128, dest := 192 } = false ∧
    (router.exitOf (segOf { cmd with src := 128, dest := 192 }.src)).isSome = true ∧ router.fab.dup = false ∧
    (router.takeFrame .spur device true).map (·.2) = some 1000 ∧
    8 ≤ ((router.fab.fwd.put .spur (List.replicate 8 ⟨device, 900⟩)).at .spur).length ∧
    (router.port .spur).rx = .idle ∧ (router.port .spur).tx = none ∧ 800 + 200 ≤ router.now ∧ router.portOn .spur = true := by
  decide +kernel

/-! ## Witnesses: faults, restarts and updates -/

def report (det : BitVec 6) : Report := ⟨det, 0, 0x20, false, false, 0, 999, 999, false⟩
def reported (det : BitVec 6) (opens : List Open) (log : List LogEntry) : State :=
  running.setFaults { running.faults with reports := [report det], opens := opens, log := log }
def shadowed : State := { reported 0x02 [] [] with isl := running.isl.put .loop { Isl.aon0 with down := true, shadow := true, origin := 0xFE } }
theorem wit_reports_become_faults :
    (report 0x02).posted < running.now ∧ (reported 0x02 [] []).faults.reports = [report 0x02] ∧
    (reported 0x02 [] []).shadowOf 0x02 0 = none ∧ max ((reported 0x02 [] []).classOf 0x02 0) (report 0x02).atLeast = 0 ∧
    (reported 0x0A [] []).shadowOf 0x0A 0 = none ∧ max ((reported 0x0A [] []).classOf 0x0A 0) (report 0x0A).atLeast = 1 ∧
    (([{ openFault with cls := 0 }] : List Open).find? fun o => o.cls == 0 && !o.acked).isSome = true ∧
    shadowed.shadowOf 0x02 0 = some 0xFE := by decide +kernel
/-- A CORR fault beside an unacknowledged CORR one and a CONT one; SUP_AUX at each class; a FATAL fault under a shadow (13 R324, R326, R330). -/
theorem wit_raised_twice :
    (([{ openFault with cls := 0 }, { openFault with det := 0x0A }] : List Open).find? fun o => o.cls == 0 && !o.acked).isSome = true ∧
    (([{ openFault with cls := 0 }, { openFault with det := 0x0A }] : List Open).find? fun o => o.cls == 1 && !o.acked).isSome = true ∧
    (∀ k ∈ [0, 1, 2], let r : Report := { report 0x15 with atLeast := k }
      let s := running.setFaults { running.faults with reports := [r] }
      s.shadowOf 0x15 0 = none ∧ r.posted < s.now ∧ k ≤ max (s.classOf 0x15 0) k) ∧
    max (running.classOf 0x15 0) 1 = 1 ∧ max (running.classOf 0x15 0) 2 = 2 ∧
    ({ shadowed with faults := { running.faults with reports := [{ report 0x02 with atLeast := 2 }] } } : State).shadowOf 0x02 0 = some 0xFE := by
  decide +kernel
/-- Full logs: one whose oldest entry is done with, one with a CORR entry, and one with neither (13 R336). -/
def fullLog (cls : Nat) (acked : Bool) : State :=
  reported 0x0A [] ((List.range 16).map fun n =>
    ⟨0x03, cls, 0, false, false, false, false, false, false, acked, 1, 900, 0, 0xFF, 0x10, BitVec.ofNat 16 (40 - n)⟩)
theorem wit_full_log : ∀ w ∈ [(0, true), (1, true), (0, false), (1, false)],
    (fullLog w.1 w.2).faults.log.length = 16 ∧ (fullLog w.1 w.2).faults.reports = [report 0x0A] ∧
    (∀ e, (fullLog w.1 w.2).faults.log.head? = some e → e.det ≠ 0x0A) := by
  intro w hw
  refine ⟨?_, rfl, fun e h => ?_⟩
  · exact List.length_map _
  · obtain rfl : _ = e := Option.some.inj h
    decide +revert
theorem wit_fatal :
    (reported 0x0E [] []).faults.log = [] ∧ (reported 0x0E [] []).faults.opens = [] ∧ (reported 0x0E [] []).shadowOf 0x0E 0 = none ∧
    max ((reported 0x0E [] []).classOf 0x0E 0) (report 0x0E).atLeast = 2 ∧ (reported 0x0E [] []).faults.reports = [report 0x0E] ∧
    (∀ e : LogEntry, (running.setFaults { running.faults with snapWait := [e] }).faults.snapWait = [e]) := by
  refine ⟨?_, ?_, ?_, ?_, ?_, fun _ => rfl⟩ <;> decide +kernel
/-- The acknowledgements: the host's and the firmware's of an AUTO fault in its window and after its reaction, of a HOST one, with an
alarm in force that another fault shares, and of SUP_AUX (13 R317, R324, R337). -/
def acknowledged (host : Bool) (os : List Open) : State :=
  running.setFaults { running.faults with opens := os, acks := [(0x02, host, 999)] }
theorem wit_acknowledgements : ∀ h ∈ [true, false],
    (acknowledged h [openFault]).graceDue = [] ∧ (acknowledged h [openFault]).faults.clears = [] ∧
    (acknowledged h [{ openFault with grace := none, reacted := true }]).graceDue = [] ∧
    (acknowledged h [{ openFault with host := true }]).graceDue = [] ∧
    (acknowledged h [{ openFault with alarm := true, reacted := true, grace := none },
      { openFault with det := 0x0A, alarm := true, reacted := true, grace := none }]).graceDue = [] ∧
    (openFault.cls = 1 ∧ openFault.host = false ∧ openFault.acked = false ∧ openFault.reacted = false) ∧
    ({ openFault with cls := 2 } : Open).cls = 2 ∧ ({ openFault with det := 0x15, aux := true } : Open).aux = true := by decide +kernel
theorem wit_windows_and_acknowledgements :
    faulty.faults.acks = [] ∧ faulty.faults.clears = [] ∧ faulty.graceDue = [] ∧
    (running.setFaults { running.faults with clears := [1] }).faults.clears = [1] ∧
    (running.setFaults { running.faults with acks := [(0x02, true, 999)] }).faults.acks = [(0x02, true, 999)] ∧
    faulty.faults.opens = [openFault] ∧ openFault.acked = false ∧ openFault.reacted = false ∧
    openFault.det ≠ 0x15 ∧ running.now < 1400 ∧ 1000 ≤ running.now ∧
    ({ openFault with grace := some 1000 } : Open).grace = some 1000 ∧ ({ openFault with host := true, grace := none } : Open).host = true ∧
    openFault.alarm = false ∧ 999 < running.now ∧ running.mgmtUp = true ∧ running.graceDue = [] ∧ running.faults.acks = [] ∧
    ({ running.faults with bootHold := false } : Faults).bootHold = false ∧ running.pins.inReset = false := by decide +kernel
theorem wit_injection :
    running.clock.powered = true ∧ 999 < running.now ∧ (0x0A : BitVec 6).toNat = 0x0A ∧ (0x0E : BitVec 6).toNat ≤ 0x0E ∧
    (running.setFaults { running.faults with armed := [(0x0E, 255)] }).faults.armed = [(0x0E, 255)] ∧ running.faults.reports = [] ∧
    running.faults.opens = [] ∧ running.faults.log = [] ∧ running.shadowOf 0x0E 0 = none ∧ running.shadowOf 0x0A 0x30 = none := by
  decide +kernel
/-- Double-bit errors of each island's SRAM and of the NVM (13 Table 13-2). -/
theorem wit_struck :
    (⟨0x0B, 5, 0x10, .double⟩ : Access).err = .double ∧ (1 : BitVec 6).toNat / 2 = 0 ∧ (3 : BitVec 6).toNat / 2 = 1 ∧
    (5 : BitVec 6).toNat / 2 = 2 ∧ (7 : BitVec 6).toNat / 2 = 3 ∧ (9 : BitVec 6).toNat / 2 = 4 := by decide
/-- The window's words and those beyond (11 R279; notes/assumptions/29). -/
theorem wit_struck_words :
    (⟨1, 5, 0x10, .double⟩ : Access).cause.toNat < 4096 ∧ 4096 ≤ (⟨1, 4096, 0x10, .double⟩ : Access).cause.toNat ∧
    running.win.mem = [] := by decide
/-- Each condition that State holds, and none of them (13 R331). -/
theorem wit_conditions :
    running.conditions = [] ∧ ({ running with energy := { running.energy with auxLost := true } } : State).conditions = [(0x15, 0, 0x40)] ∧
    ({ running with clock := { running.clock with lost := true } } : State).conditions = [(0x10, 0, 0x40)] ∧
    ({ running with energy := { running.energy with tempCount := 9 } } : State).conditions = [(0x1C, 0, 0x40)] := by decide +kernel
theorem wit_shadow_end : ∀ i ∈ [Island.mgmt, .loop, .meas, .aon],
    let s : State := { running with isl := running.isl.put i { Isl.aon0 with shadow := true, shadowEnd := some 1000 } }
    (s.isl.at i).shadow = true ∧ (s.isl.at i).shadowEnd = some 1000 ∧ 1000 ≤ s.now := by decide +kernel
def down (i : Island) (released : Bool) : State :=
  { running with isl := running.isl.put i { Isl.down0 with resetAt := some 990, released := released } }
theorem wit_restarts : ∀ i ∈ [Island.mgmt, .loop, .meas, .aon],
    (down i false).mayRelease i = true ∧ ((down i true).isl.at i).down = true ∧ ((down i true).isl.at i).released = true ∧
    ((down i true).isl.at i).dead = false ∧ (down i true).pins.inReset = false := by decide +kernel
/-- A start in which the AON core still runs its ROM's firmware; and a restart of another island in it. -/
theorem wit_aon_switch :
    running.aonSwitch .aon = true ∧ running.clock.powered = true ∧ (down .aon false).aonSwitch .aon = false ∧
    (down .meas false).aonSwitch .meas = false ∧ running.mgmt.toLoad = false ∧ (down .meas true).meas.round.on = false ∧
    ({ down .meas true with meas := (round 5).meas } : State).meas.round.on = true := by decide +kernel
/-- A start in which LOOP's and MEAS's images are still to be compared, and one in which they are (03 Table 3-10). -/
def starting (checked : Bool) : State :=
  let d : Isl := { Isl.down0 with checked := checked }
  { running with isl := ⟨Isl.aon0, d, d, { Isl.aon0 with nvmFw := true }⟩, mgmt := { running.mgmt with toLoad := true } }
theorem wit_starting :
    (starting false).booted = true ∧ (starting false).aonSwitch .loop = false ∧ (starting false).toCheck .loop = true ∧
    (starting false).toCheck .meas = true ∧ (starting true).toCheck .loop = false ∧ (starting true).mayRelease .loop = true ∧
    (starting true).isl.loop.resetAt = none ∧
    ({ starting true with isl := (starting true).isl.put .loop { Isl.down0 with checked := true, released := true } } : State).mayRelease .meas = true ∧
    (starting true).mgmt.toLoad = true := by decide +kernel
/-- MGMT comes up after commands that it took, had not taken, and had answered with a buffer that the host gave back (11 R289). -/
def restarted : State :=
  let s := down .mgmt true
  { s with win := { s.win with
      own := ((s.win.own.set 9 ⟨.device, 3, 0x01⟩).set 10 ⟨.device, 4, 0x01⟩).set 11 ⟨.device, 5, 0x01⟩
      turned := [10]
      mb := (s.win.mb.set 0 { notice 11 with held := true }).set 3 { notice (mkNotice 12 8 0x10 0x0402 3) with req := .release } } }
theorem wit_up_mgmt :
    (restarted.isl.at .mgmt).released = true ∧ (restarted.win.ownAt 9).own = .device ∧ (restarted.win.ownAt 9).last = 0x01 ∧
    restarted.win.turned.contains 9 = false ∧ restarted.win.turned.contains 10 = true ∧ (restarted.win.mbAt 0).pending = true ∧
    (restarted.win.mbAt 0).held = true ∧ nbBuf (restarted.win.mbAt 0).notice = 11 ∧ (restarted.win.mbAt 3).unanswered = true ∧
    nbBuf (restarted.win.mbAt 3).notice = 12 ∧ nbLen (restarted.win.mbAt 3).notice ≠ 0 ∧
    (sessionWith { open0 with running := true }).fab.sessions[15].running = true := by decide +kernel
/-- LOOP comes up with buffers whose hand-over it lost and a waiting relayed reply; MEAS with a channel to rebuild and a missed token (11
R289, 13 R340). -/
theorem wit_up_loop_meas :
    let l : State := { down .loop true with fab := { running.fab with lost := [48] } }
    let m : State := { down .meas true with
      meas := { (round 5).meas with preload := { (round 5).meas.preload with chans := [⟨2, 0, 65536, [2], [3], (0, 0)⟩] } }
      mgmt := { running.mgmt with pendMeas := some ⟨tank, 900, none, true⟩ } }
    l.isl.loop.released = true ∧ l.fab.lost.contains 48 = true ∧ l.mgmt.toLoad = false ∧
    m.meas.round.on = true ∧ m.meas.preload.chans[0]?.isSome = true ∧ (m.mgmt.pendMeas.map (·.missed)) = some true ∧
    m.isl.meas.released = true := by decide +kernel
/-- Directories whose active slot stands as given. -/
def slots (st : SlotState) (act : Option Nat) : State := { running with
  nvm := { running.nvm with dirs := Quad.all ⟨⟨st, [], 0, 0⟩, ⟨.ready, [], 0, 0⟩, false, act, false⟩, fuses := Quad.all 0 }
  clock := { running.clock with tick := 600000 } }
theorem wit_trials : ∀ i ∈ [Island.mgmt, .loop, .meas, .aon],
    let act := slots .committed (some 1000)
    let tr := slots .trial none
    let hit : State := { tr with isl := tr.isl.put i { Isl.down0 with resetAt := some 599990, origin := 0x02 } }
    let late : State := { tr with isl := tr.isl.put i { Isl.down0 with resetAt := some 500000, actAt := some 500000, origin := 0xFE } }
    act.reached 1000 = true ∧ (act.isl.at i).shadow = false ∧ (act.isl.at i).down = false ∧ (act.isl.at i).readyFrom ≤ act.now ∧
    0 < ahead 1000 ({ act with clock := { act.clock with prev := 999 } } : State).clock.prev.toNat ∧
    (tr.nvm.dirs.at i).active.st = .trial ∧ (tr.isl.at i).up = true ∧ 500000 ≤ tr.now - (tr.isl.at i).upAt ∧
    (hit.isl.at i).down = true ∧ (hit.isl.at i).origin.toNat < 0x40 ∧ (hit.isl.at i).origin ≠ 0x1D ∧
    (hit.isl.at i).supply = false ∧ (hit.isl.at i).resetAt ≠ (hit.isl.at i).actAt ∧ (hit.isl.at i).dead = false ∧
    late.upLimit i ≤ late.now - 500000 := by
  decide +kernel
/-- An activation at the very boundary of a fault's reset, and a change of the arithmetic version (14 R358, R361). -/
theorem wit_activation_with_reset : ∀ i ∈ [Island.mgmt, .loop, .meas, .aon],
    let s := slots .committed (some 1000)
    let hit : State := { s with isl := s.isl.put i { Isl.down0 with resetAt := some 600000, origin := 0x02 } }
    hit.reached 1000 = true ∧ (hit.isl.at i).down = true ∧ (hit.isl.at i).dead = false ∧ (hit.isl.at i).resetAt = some hit.now ∧
    (hit.isl.at i).origin.toNat < 0x40 ∧ (hit.isl.at i).supply = false ∧ (⟨.ready, [], 0, 1⟩ : SlotInfo).arith ≠ (s.nvm.dirs.at i).active.arith := by
  decide +kernel
theorem wit_update_times_out :
    ({ updating 300 [] with clock := { running.clock with tick := 5000900 } } : State).mgmt.upd.map (·.last) = some 900 ∧
    5000000 ≤ ({ updating 300 [] with clock := { running.clock with tick := 5000900 } } : State).now - 900 := by decide +kernel
theorem wit_sync_due :
    let s := running.setObs { running.obs with on := true, syncDue := true, slotFree := true, lastSync := some 936 }
    s.obs.on = true ∧ s.obs.syncDue = true ∧ s.obs.slotFree = true ∧ 936 + 64 ≤ s.now := by decide +kernel
theorem wit_fuse (h : ∀ i : Island, running.oemSigned (zeros 32) i = true) :
    ({ running with pins := { running.pins with testMode := true } } : State).pins.testMode = true ∧ running.pins.testMode = false ∧
    running.nvm.oem = none ∧ (zeros 32).length = 32 ∧ ∀ i : Island, running.oemSigned (zeros 32) i = true := ⟨rfl, rfl, rfl, rfl, h⟩
/-- An image without an OEM entry is signed by no OEM key. -/
def unsignedImages : State := { running with nvm := { running.nvm with imgA := Quad.all [⟨0, 1⟩], imgB := Quad.all [⟨0, 1⟩] } }
theorem wit_fuse_refused : unsignedImages.oemSigned (zeros 32) .loop = false := by
  have h (m : List Host.Cell) (a : m.isEmpty = false) (b : (leAt (imageEntry m 1) 0 1 == 1) = false) (o : Option (List Byte)) :
      (o.any fun k => sha3 k == zeros 32 && (m.isEmpty || (leAt (imageEntry m 1) 0 1 == 1 &&
        Mldsa.verify k (cellsRead m 0 64) (((imageEntry m 1).drop 1316).take 2420)))) = false := by
    cases o <;> simp [a, b]
  simp only [State.oemSigned]
  exact h (unsignedImages.activeMem .loop) (by decide +kernel) (by decide +kernel) _
theorem wit_counters :
    running.nvm.ctrRecs.load true true = some (running.nvm.ctrVendor, running.nvm.ctrOem) ∧ (∀ b, running.pending.head? ≠ some (.aonPowerUp b)) ∧
    ctrPages.1 ∉ running.nvm.bad ∧ ctrPages.2 ∉ running.nvm.bad ∧ running.nvm.fuses.loop ≤ 63 := by
  exact ⟨rfl, fun b => by simp [running, State.reset], List.not_mem_nil, List.not_mem_nil, Nat.min_le_left _ _⟩
theorem wit_invariants : Memory.wf running.win.mem = true ∧ running.meas.queue.length ≤ 512 ∧ running.faults.log.length ≤ 16 := by
  decide +kernel

/-! ## Values that the spec works out -/

/-- 03 R53: the energy of 100 uF between 16 V and 9 V, and between 14 V and 11 V. -/
theorem test_reserve : reserveUj 100 16000 9000 = 8750 ∧ reserveUj 100 14000 11000 = 3750 := by decide
/-- 05 Table 5-9: the two comparisons on CH5. -/
theorem test_sextant_pass : sxFails 41949696 8 (BitVec.ofNat 20 327731) 500 = false := by decide +kernel
theorem test_sextant_fail : sxFails 42018416 8 (BitVec.ofNat 20 327731) 500 = true := by decide +kernel
/-- 07 Table 7-8: the average of 19 members. -/
theorem test_average : floorDiv (6 * 1196032 + 7 * 1212416 + 6 * 1253376) 19 = 1220176 := by decide +kernel
/-- 08 R202: the trim of 39,986 and 200,042, and the code 120,000 under it. -/
theorem test_trim_gain : trimGainOf 39986 200042 = 4192836 := by decide +kernel
theorem test_user_trim : ({ LoopOut.reset with m4 := 39986, m20 := 200042, trimGain := 4192836 } : LoopOut).userTrim 120000 = 119985 := by
  decide +kernel
/-- 08 R189: ALPHA of updates 50,000 ticks apart with DAMP_TAU = 1,000,000. -/
theorem test_alpha :
    (withAlm (running.setMeas { running.meas with map := { smallMap with len := 5000, rep := [1, 1, 1, 1], pos := [⟨0, 0, .slot 0 0 0 0 0⟩] } })
      (((tank.set (fid 1 0 6) 5000).set (fid 2 0 22) 10).set (fid 7 0 3) 1000000)).alphaNow = 798915 := by decide +kernel
/-- 08 R189: a first usable PV sets y, so that the output does not ramp from zero. -/
theorem test_first_pv : damp 0 false 798915 65536 = 65536 * 16777216 := by decide +kernel
/-- 08 R193: the shaper's weights sum to 2^27. -/
theorem test_weights : ((List.range 1534).map shapeWeight).sum = 134217728 := by decide +kernel
/-- 12 Table 12-8: SQ_LEN of sequence 0 is 0x1800, block 3. -/
theorem test_field_identifier : fid 3 0 0 = 0x1800 ∧ fid 11 0 63 = 0x583F := by decide
/-- 14 R344, FIPS 202: SHA3-256 of no bytes. -/
theorem test_sha3_empty : (sha3 []).take 4 = [0xA7, 0xFF, 0xC6, 0xF8] := by decide +kernel
/-- 13 R325: FAULT_N is low from power-up. -/
theorem test_fault_n_low : State.reset.pins.faultLow = true := by decide

/-! ## One step each -/

/-- 01 R14: the count wraps to zero. -/
theorem test_count_wraps : ∃ t, exec (.tickBoundary ⟨false, true, 0, false, false, false, false, false, false, 0xF, 0xF, []⟩)
    { running with clock := { running.clock with meridian := 0xFFFFFFFFFFFF } } = .next t ∧ t.clock.meridian = 0 :=
  ⟨_, rfl, by decide +kernel⟩
/-- 13 R333: an armed BUS_PAR_MGMT discards the apply token that crosses, and is reported. -/
theorem test_token_struck :
    let s := (running.setFaults (running.faults.arm 0x0A 1)).setMgmt { running.mgmt with pendMeas := some ⟨Alm.default, running.now - 1, none, false⟩ }
    let t := s.checkCrossing ⟨.measApply, false⟩
    t.mgmt.pendMeas = none ∧ t.faults.reports.map (fun r => (r.det, r.cause, r.inj)) = [(0x0A, 0x30, true)] := by decide +kernel
/-- 11 R292: a free lock is acquired by its reader, and LK1 not by the host. -/
theorem test_lock_taken : ∃ t, exec (.lockAcquire 4 ⟨.host, []⟩ true) running = .next t ∧ t.win.lockAt 4 = 0x01 := ⟨_, rfl, by decide +kernel⟩
theorem test_lock_kept : ∃ t, exec (.lockAcquire 1 ⟨.host, []⟩ true) running = .next t ∧ t.win.lockAt 1 = 0x00 := ⟨_, rfl, by decide +kernel⟩
/-- 11 R274: a claim with an old generation changes nothing. -/
theorem test_stale_claim : ∃ t, exec (.bufferClaim 63 ⟨4, []⟩) (owning 63 .free) = .next t ∧ (t.win.ownAt 63).own = .free :=
  ⟨_, rfl, by decide +kernel⟩
/-- 06 R159: the queue port returns all ones beyond the entries. -/
theorem test_queue_beyond : ∃ t, exec (.queueRead 0x4600 8 true) running = .next t ∧ (t.win.out.drop 4).take 8 = List.replicate 8 0xFF :=
  ⟨_, rfl, by decide +kernel⟩
/-- 12 R299, 15 R379: DEV_IDENTIFY is counted when it completes. -/
theorem test_command_counted : ∃ t, exec (.devIdentify (pk [])) running = .next t ∧ t.obs.live.getD Ctr.cmdDone.idx 0 = 1 :=
  ⟨_, rfl, by decide +kernel⟩
/-- 08 R196: a fixed current outside 34,000 to 230,000 is refused, and nothing is scheduled. -/
theorem test_fixed_refused : ∃ t, exec (.loopSetFixed (pk (leBytes 4 33999 ++ zeros 4))) running = .next t ∧ t.loop.sched = [] :=
  ⟨_, rfl, by decide +kernel⟩

end Sys2Proof.Tests
end

section
/-! PROOFS. Posts to MB0 that are refused (11 R283): what a write transaction of the SPI port drives and leaves in the status byte,
and that a refused post is traced and marked in BUSY at most. -/

namespace Sys2Proof.Machine

open Sys2Proof

/-- A row that is a write of register words drives HMISO and changes nothing else (11 R266). -/
theorem State.wordWrite_eq (s : State) (words : Nat) : ∃ o, s.wordWrite words = s.setWin { s.win with out := o } := ⟨_, rfl⟩

/-- A transaction that was not damaged leaves its flags in the status byte and counts nothing (11 R267, Table 11-4). -/
theorem State.spiEnd_sound (s : State) {f : SpiFlags} (hc : f.crc = false) (hf : f.frame = false) :
    s.spiEnd f = s.setWin { s.win with status := ⟨!(f.own || f.post), false, f.rsvd, f.own, f.post, false⟩ } := by
  simp [State.spiEnd, hc, hf]

/-- The port carries out a post to MB0 in three parts: it drives HMISO, judges the post, and leaves the status byte. -/
theorem exec_mb0Post {s : State} (w : Word64) (h : s.spiOn = true) :
    exec (.mb0Post w) s = .next (((s.wordWrite 2).hostPost w).1.spiEnd ((s.wordWrite 2).hostPost w).2) := by
  show stepIf s.spiOn s _ = _
  rw [h]; rfl

/-- A post that meets a pending notice sets BUSY and POST_ERR, and is traced (11 R283). -/
theorem State.hostPost_pending {s : State} (w : Word64) (h : (s.win.mbAt 0).pending = true) :
    ∃ o, s.hostPost w =
        ((s.setWin (s.win.setMb 0 { s.win.mbAt 0 with busy := true })).setObs o, ⟨false, false, false, true, false⟩) ∧
      s.OnlyTrace (s.setObs o) := by
  obtain ⟨o, e, ht⟩ := State.emit_eq (s.setWin (s.win.setMb 0 { s.win.mbAt 0 with busy := true })) .mgmt 7 _ _
  refine ⟨o, ?_, ht⟩
  rw [← e, State.hostPost, if_pos h]; rfl

/-- A post whose buffer is not HOST-owned sets OWN_ERR and POST_ERR, and is traced (11 R283). -/
theorem State.hostPost_notOwned {s : State} (w : Word64) (h : (s.win.mbAt 0).pending = false)
    (ho : (s.win.ownAt (nbBuf w)).own ≠ .host) :
    ∃ o, s.hostPost w = (s.setObs o, ⟨false, false, true, true, false⟩) ∧ s.OnlyTrace (s.setObs o) := by
  obtain ⟨o, e, ht⟩ := State.emit_eq s .mgmt 7 _ _
  refine ⟨o, ?_, ht⟩
  rw [← e, State.hostPost, if_neg (by simp [h]), if_pos ho]; rfl

/-- Changes of the window and of observation alone. -/
theorem State.setWin_setObs_only (s : State) (v : Window) (o : Obs) : s.Only [.win, .obs] ((s.setWin v).setObs o) :=
  .trans (.mono (s.setWin_only v) (by simp)) (.mono (State.setObs_only _ o) (by simp))

/-- What the port makes of a post on a pending notice: BUSY, HMISO and the status byte change, and a message is traced. -/
theorem exec_mb0Post_pending {s : State} (w : Word64) (hon : s.spiOn = true) (h : (s.win.mbAt 0).pending = true) :
    ∃ o out, s.OnlyTrace (s.setObs o) ∧ exec (.mb0Post w) s = .next ((s.setWin
      { s.win.setMb 0 { s.win.mbAt 0 with busy := true } with out := out, status := ⟨false, false, false, false, true, false⟩ }).setObs o) := by
  obtain ⟨out, hw⟩ := s.wordWrite_eq 2
  obtain ⟨o, hp, ht⟩ := State.hostPost_pending (s := s.setWin { s.win with out := out }) w h
  refine ⟨o, out, ht, ?_⟩
  rw [exec_mb0Post w hon, hw, hp, State.spiEnd_sound _ rfl rfl]; rfl

/-- What the port makes of a post on a buffer that is not HOST-owned: HMISO and the status byte change, and a message is traced. -/
theorem exec_mb0Post_notOwned {s : State} (w : Word64) (hon : s.spiOn = true) (h : (s.win.mbAt 0).pending = false)
    (ho : (s.win.ownAt (nbBuf w)).own ≠ .host) :
    ∃ o out, s.OnlyTrace (s.setObs o) ∧ exec (.mb0Post w) s = .next ((s.setWin
      { s.win with out := out, status := ⟨false, false, false, true, true, false⟩ }).setObs o) := by
  obtain ⟨out, hw⟩ := s.wordWrite_eq 2
  obtain ⟨o, hp, ht⟩ := State.hostPost_notOwned (s := s.setWin { s.win with out := out }) w h ho
  refine ⟨o, out, ht, ?_⟩
  rw [exec_mb0Post w hon, hw, hp, State.spiEnd_sound _ rfl rfl]; rfl

/-- Settles O22: a refused post changes the window's status, HMISO and, on a pending notice, BUSY alone. -/
theorem refusedPostChangesNothing : Obligations.RefusedPostChangesNothing := by
  intro s w hon
  constructor
  · intro h
    obtain ⟨o, out, ht, e⟩ := exec_mb0Post_pending w hon h
    exact ⟨_, false, e, s.setWin_setObs_only _ o, ht, rfl, fun _ => rfl, Window.setMb_self _ _ (by decide),
      fun k hk => Window.setMb_other _ _ hk⟩
  · intro h ho
    obtain ⟨o, out, ht, e⟩ := exec_mb0Post_notOwned w hon h ho
    exact ⟨_, e, s.setWin_setObs_only _ o, ht, rfl⟩

end Sys2Proof.Machine
end

section
/-! PROOFS. The full fault log (13 R336): which entry a new one removes, and what the collector keeps of the faults that it holds while it
handles a report or an acknowledgement. -/

namespace Sys2Proof.Machine

open Sys2Proof

/-! ## The entry that is removed -/

/-- What `dropOldest` finds: the last element of the list that satisfies the test. -/
theorem dropOldest_some {p : LogEntry → Bool} {l r : List LogEntry} (h : dropOldest p l = some r) :
    ∃ pre e post, l = pre ++ e :: post ∧ r = pre ++ post ∧ p e = true ∧ ∀ x ∈ post, p x = false := by
  unfold dropOldest at h
  split at h
  · cases h
  next i hi =>
    obtain ⟨hlt, he, hnew⟩ := List.findIdx?_eq_some_iff_getElem.1 hi
    obtain rfl := Option.some.inj h
    refine ⟨(l.reverse.drop (i + 1)).reverse, l.reverse[i], (l.reverse.take i).reverse, ?_, ?_, he, fun x hx => ?_⟩
    · rw [← List.reverse_inj]
      simp only [List.reverse_append, List.reverse_cons, List.reverse_reverse, List.append_assoc, List.singleton_append]
      rw [List.cons_getElem_drop_succ, List.take_append_drop]
    · rw [List.eraseIdx_eq_take_drop_succ, List.reverse_append]
    · obtain ⟨j, hj, rfl⟩ := List.mem_take_iff_getElem.1 (List.mem_reverse.1 hx)
      simpa using hnew j (by omega)

/-- `dropOldest` fails where no element satisfies the test. -/
theorem dropOldest_none {p : LogEntry → Bool} {l : List LogEntry} (h : dropOldest p l = none) : ∀ x ∈ l, p x = false := by
  unfold dropOldest at h
  split at h
  next hi => simpa using hi
  · cases h

/-- A fault of which nothing is left to do: it is neither open nor unacknowledged (13 R336). -/
def Faults.doneWith (f : Faults) (e : LogEntry) : Prop := (∀ o ∈ f.opens, o.lseq ≠ e.lseq) ∧ e.acked = true

theorem Faults.doneWith_iff (f : Faults) (e : LogEntry) : f.doneWith e ↔ (!f.isOpen e && e.acked) = true := by
  simp [Faults.doneWith, Faults.isOpen]

/-- The order in which a full log gives up its entries (13 R336). -/
theorem Faults.evict_order (f : Faults) (h : f.log ≠ []) :
    ∃ pre e post, f.log = pre ++ e :: post ∧ f.evict = pre ++ post ∧
      (f.doneWith e ∧ (∀ x ∈ post, ¬ f.doneWith x) ∨
        (∀ x ∈ f.log, ¬ f.doneWith x) ∧ e.cls = 0 ∧ (∀ x ∈ post, x.cls ≠ 0) ∨
        (∀ x ∈ f.log, ¬ f.doneWith x ∧ x.cls ≠ 0) ∧ post = []) := by
  simp only [Faults.doneWith_iff, Bool.not_eq_true]
  unfold Faults.evict
  split
  next l hl =>
    obtain ⟨pre, e, post, hlog, rfl, he, hpost⟩ := dropOldest_some hl
    exact ⟨pre, e, post, hlog, rfl, .inl ⟨he, hpost⟩⟩
  next hdone =>
    have hopen := dropOldest_none hdone
    split
    next l hl =>
      obtain ⟨pre, e, post, hlog, rfl, he, hpost⟩ := dropOldest_some hl
      exact ⟨pre, e, post, hlog, rfl, .inr (.inl ⟨hopen, by simpa using he, fun x hx => by simpa using hpost x hx⟩)⟩
    next hcorr =>
      have hcls := dropOldest_none hcorr
      exact ⟨f.log.dropLast, f.log.getLast h, [], (List.dropLast_append_getLast h).symm, (List.append_nil _).symm,
        .inr (.inr ⟨fun x hx => ⟨hopen x hx, by simpa using hcls x hx⟩, rfl⟩)⟩

/-! ## What a reset leaves: the collector's state and the count of lost entries -/

/-- The count of log entries that a full log has lost (15 Table 15-8). -/
def State.lostEntries (s : State) : Nat := s.obs.live.getD Ctr.fltLogLost.idx 0

@[simp] theorem State.setFaults_lostEntries (s : State) (f : Faults) : (s.setFaults f).lostEntries = s.lostEntries := rfl
@[simp] theorem State.setNvm_lostEntries (s : State) (n : Nvm) : (s.setNvm n).lostEntries = s.lostEntries := rfl
@[simp] theorem State.setIsl_lostEntries (s : State) (i : Island) (x : Isl) : (s.setIsl i x).lostEntries = s.lostEntries := rfl
@[simp] theorem State.ring_lostEntries (s : State) (b : Nat) : (s.ring b).lostEntries = s.lostEntries := rfl

theorem State.count_lostEntries (s : State) {c : Ctr} (h : c ≠ .fltLogLost) : (s.count c).lostEntries = s.lostEntries :=
  Obs.count_other s.obs 1 h.symm

theorem State.count_lostEntries_self (s : State) : (s.count .fltLogLost).lostEntries = min (s.lostEntries + 1) 0xFFFFFFFF :=
  Obs.count_self s.obs .fltLogLost 1

@[simp] theorem State.emit_faults (s : State) (i : Island) (typ hdr : Nat) (more : List Nat) :
    (s.emit i typ hdr more).faults = s.faults := by
  obtain ⟨o, e, -⟩ := s.emit_eq i typ hdr more
  rw [e, State.setObs_faults]

@[simp] theorem State.emit_lostEntries (s : State) (i : Island) (typ hdr : Nat) (more : List Nat) :
    (s.emit i typ hdr more).lostEntries = s.lostEntries := by
  obtain ⟨o, e, -, hcount⟩ := s.emit_eq i typ hdr more
  rw [e]
  exact hcount _ (by simp)

/-- The collector's state and the count of lost entries, which no fence of an island touches. -/
def State.collector (s : State) : Faults × Nat := (s.faults, s.lostEntries)

theorem State.collector_eq_iff {s t : State} : t.collector = s.collector ↔ t.faults = s.faults ∧ t.lostEntries = s.lostEntries :=
  Prod.mk_inj

theorem State.unaccept_collector (s : State) (w : Word64) : (s.unaccept w).collector = s.collector := by
  unfold State.unaccept
  split <;> rfl

theorem State.forgetLoop_collector (s : State) : s.forgetLoop.collector = s.collector :=
  List.foldlRecOn (motive := fun t : State => t.collector = s.collector) s.fab.mb2Wait _ rfl
    fun t h w _ => (t.unaccept_collector w.1).trans h

theorem State.fence_collector (s : State) (i : Island) : (s.fence i).collector = s.collector := by
  cases i with
  | mgmt => rfl
  | aon => rfl
  | meas =>
    show State.collector (if _ then _ else _) = _
    split <;> rfl
  | loop =>
    refine (State.forgetLoop_collector _).trans ?_
    split <;> split <;> rfl

@[simp] theorem State.assertReset_collector (s : State) (i : Island) (origin : Byte) (stop : Bool) :
    (s.assertReset i origin stop).collector = s.collector := by
  unfold State.assertReset
  dsimp only
  split
  · split <;> rfl
  · simpa [State.collector, State.emitIsland] using s.fence_collector i

theorem State.carryResets_collector (s : State) (react det cause : Nat) : (s.carryResets react det cause).collector = s.collector :=
  List.foldlRecOn (motive := fun t : State => t.collector = s.collector) _ _ rfl fun t h i _ => (t.assertReset_collector i _ _).trans h

@[simp] theorem State.carryResets_faults (s : State) (react det cause : Nat) : (s.carryResets react det cause).faults = s.faults :=
  (State.collector_eq_iff.1 (s.carryResets_collector react det cause)).1

@[simp] theorem State.carryResets_lostEntries (s : State) (react det cause : Nat) :
    (s.carryResets react det cause).lostEntries = s.lostEntries :=
  (State.collector_eq_iff.1 (s.carryResets_collector react det cause)).2

/-! ## FLT_ACK acknowledges what is open, whatever the log holds -/

/-- Every open fault of a detector is acknowledged. -/
def Faults.ackedOf (f : Faults) (det : Nat) : Prop := ∀ o ∈ f.opens, o.det.toNat = det → o.acked = true

@[simp] theorem Faults.ackLog_opens (f : Faults) (ns : List (BitVec 16)) : (f.ackLog ns).opens = f.opens :=
  List.foldlRecOn (motive := fun g : Faults => g.opens = f.opens) ns _ rfl fun _ h _ _ => h

@[simp] theorem Faults.ackLog_clears (f : Faults) (ns : List (BitVec 16)) : (f.ackLog ns).clears = f.clears :=
  List.foldlRecOn (motive := fun g : Faults => g.clears = f.clears) ns _ rfl fun _ h _ _ => h

@[simp] theorem State.settleAlarm_faults (s : State) : s.settleAlarm.faults = s.faults := by
  unfold State.settleAlarm
  split <;> rfl

@[simp] theorem State.commandAlarm_lostEntries (s : State) : s.commandAlarm.lostEntries = s.lostEntries := rfl

/-- An open fault whose reaction is carried out (13 R318). -/
def Open.carried (n : BitVec 16) (det : Nat) (alarm : Bool) (o : Open) : Open :=
  if o.lseq = n ∧ o.det.toNat = det then { o with reacted := true, grace := none, alarm := o.alarm || alarm } else o

/-- What the collector holds after a reaction: the open fault and its log entry are marked. -/
theorem State.carryOut_faults (s : State) (n : BitVec 16) (det cause react : Nat) (alarm : Bool) :
    (s.carryOut n det cause react alarm).faults =
      ({ s.faults with opens := s.faults.opens.map (Open.carried n det alarm) }.editLog n
        fun e => { e with reacted := true }).showAlarms := by
  unfold State.carryOut
  simp only [State.carryResets_faults]
  cases alarm <;> rfl

@[simp] theorem State.carryOut_lostEntries (s : State) (n : BitVec 16) (det cause react : Nat) (alarm : Bool) :
    (s.carryOut n det cause react alarm).lostEntries = s.lostEntries := by
  unfold State.carryOut
  cases alarm <;> simp

@[simp] theorem Open.carried_det (n : BitVec 16) (det : Nat) (alarm : Bool) (o : Open) : (o.carried n det alarm).det = o.det := by
  unfold Open.carried; split <;> rfl

@[simp] theorem Open.carried_acked (n : BitVec 16) (det : Nat) (alarm : Bool) (o : Open) : (o.carried n det alarm).acked = o.acked := by
  unfold Open.carried; split <;> rfl

/-- A reaction withdraws no acknowledgement and takes no clearing. -/
theorem State.carryOut_ackedOf {s : State} {k : Nat} (h : s.faults.ackedOf k) (n : BitVec 16) (det cause react : Nat) (alarm : Bool) :
    (s.carryOut n det cause react alarm).faults.ackedOf k ∧ (s.carryOut n det cause react alarm).faults.clears = s.faults.clears := by
  rw [State.carryOut_faults]
  refine ⟨fun p hp hdet => ?_, rfl⟩
  obtain ⟨o, ho, rfl⟩ := List.mem_map.1 hp
  simpa using h o ho (by simpa using hdet)

/-- FLT_ACK of a detector leaves none of its faults unacknowledged (13 R317). -/
theorem State.hostAck_ackedOf (s : State) (det : Nat) :
    (s.hostAck det).faults.ackedOf det ∧ (s.hostAck det).faults.clears = s.faults.clears := by
  unfold State.hostAck
  extract_lets hit os wasAlarm order clear src f u v w
  have hu : u.faults.ackedOf det ∧ u.faults.clears = s.faults.clears := by
    refine ⟨fun p hp hdet => ?_, Faults.ackLog_clears _ _⟩
    have hmem : p ∈ s.faults.opens.map clear := by simpa [u, f, Faults.showAlarms] using hp
    obtain ⟨o, -, rfl⟩ := List.mem_map.1 hmem
    by_cases ho : o.det.toNat = det
    · simp [clear, hit, ho]
    · simp [clear, hit, ho] at hdet
  have hv : v.faults.ackedOf det ∧ v.faults.clears = s.faults.clears :=
    List.foldlRecOn (motive := fun t : State => t.faults.ackedOf det ∧ t.faults.clears = s.faults.clears) order _ hu
      fun t ht o _ => (State.carryOut_ackedOf ht.1 _ _ _ _ _).imp_right (·.trans ht.2)
  have hw : w.faults.ackedOf det ∧ w.faults.clears = s.faults.clears :=
    ⟨fun p hp => hv.1 p (List.mem_of_mem_filter hp), hv.2⟩
  split
  · simpa using hw
  · exact hw

/-- An acknowledgement that AON takes at a boundary at which no window ends. -/
theorem State.endCollect_hostAck {s : State} {det : BitVec 6} {n : Nat} (hgrace : s.graceDue = [])
    (hacks : s.faults.acks = [(det, true, n)]) (hclears : s.faults.clears = []) :
    s.endCollect.faults.ackedOf det.toNat := by
  obtain ⟨hack, hnone⟩ := (s.setFaults { s.faults with acks := [] }).hostAck_ackedOf det.toNat
  have hnone : _ = [] := hnone.trans hclears
  intro o ho
  exact hack o (by simpa [State.endCollect, State.endWindows, hgrace, State.takeAcks, hacks, hnone] using ho)

/-! ## What the collector keeps of its faults while it handles one -/

/-- An open fault continues as another one: its alarm may have been commanded, its window closed (13 R318, R327, R336). -/
structure Open.Continues (o p : Open) : Prop where
  lseq : p.lseq = o.lseq
  det : p.det = o.det
  cls : p.cls = o.cls
  acked : p.acked = o.acked
  alarm : o.alarm = true → p.alarm = true
  aux : p.aux = o.aux

theorem Open.Continues.refl (o : Open) : o.Continues o := ⟨rfl, rfl, rfl, rfl, id, rfl⟩

theorem Open.Continues.trans {o p q : Open} (h : o.Continues p) (k : p.Continues q) : o.Continues q :=
  ⟨k.lseq.trans h.lseq, k.det.trans h.det, k.cls.trans h.cls, k.acked.trans h.acked, k.alarm ∘ h.alarm, k.aux.trans h.aux⟩

theorem Open.carried_continues (n : BitVec 16) (det : Nat) (alarm : Bool) (o : Open) : o.Continues (o.carried n det alarm) := by
  unfold Open.carried
  split
  · exact ⟨rfl, rfl, rfl, rfl, fun h => by simp [h], rfl⟩
  · exact .refl o

/-- Every open fault is still held. -/
def Faults.Continue (f g : Faults) : Prop := ∀ o ∈ f.opens, ∃ p ∈ g.opens, o.Continues p

theorem Faults.Continue.of_subset {f g : Faults} (h : f.opens ⊆ g.opens) : f.Continue g := fun o ho => ⟨o, h ho, .refl o⟩

theorem Faults.Continue.of_eq {f g : Faults} (h : g.opens = f.opens) : f.Continue g := .of_subset fun _ ho => h ▸ ho

theorem Faults.Continue.of_map {f g : Faults} {c : Open → Open} (hc : ∀ o : Open, o.Continues (c o)) (h : g.opens = f.opens.map c) :
    f.Continue g := fun o ho => ⟨c o, h ▸ List.mem_map_of_mem ho, hc o⟩

theorem Faults.Continue.trans {f g k : Faults} (h : f.Continue g) (h' : g.Continue k) : f.Continue k := by
  intro o ho
  obtain ⟨p, hp, hop⟩ := h o ho
  obtain ⟨q, hq, hpq⟩ := h' p hp
  exact ⟨q, hq, hop.trans hpq⟩

/-- What no reaction changes of a log entry. -/
def LogEntry.label (e : LogEntry) : BitVec 16 × BitVec 6 × Count48 × Nat := (e.lseq, e.det, e.tick, e.cls)

def Faults.labels (f : Faults) : List (BitVec 16 × BitVec 6 × Count48 × Nat) := f.log.map LogEntry.label

theorem Faults.editLog_labels (f : Faults) (n : BitVec 16) {g : LogEntry → LogEntry} (h : ∀ e, (g e).label = e.label) :
    (f.editLog n g).labels = f.labels := by
  simp only [Faults.labels, Faults.editLog, List.map_map]
  refine List.map_congr_left fun e _ => ?_
  dsimp only [Function.comp_apply]
  split
  · exact h e
  · rfl

@[simp] theorem Faults.showAlarms_labels (f : Faults) : f.showAlarms.labels = f.labels := by
  simp only [Faults.labels, Faults.showAlarms, List.map_map]
  rfl

/-- The collector's faults continue: the open ones are still held, the log has the same entries in the same order, and none is lost. -/
structure State.Holds (s t : State) : Prop where
  labels : t.faults.labels = s.faults.labels
  opens : s.faults.Continue t.faults
  lseq : t.faults.lseq = s.faults.lseq
  lost : t.lostEntries = s.lostEntries

section
variable {s t u : State}

theorem State.Holds.trans (h : s.Holds t) (k : t.Holds u) : s.Holds u where
  labels := k.labels.trans h.labels
  opens := h.opens.trans k.opens
  lseq := k.lseq.trans h.lseq
  lost := k.lost.trans h.lost

/-- A change outside the log, the open faults and the count of lost entries. -/
theorem State.Holds.same (hl : t.faults.labels = s.faults.labels) (ho : t.faults.opens = s.faults.opens)
    (hn : t.faults.lseq = s.faults.lseq) (hc : t.lostEntries = s.lostEntries) : s.Holds t :=
  ⟨hl, .of_eq ho, hn, hc⟩

theorem State.Holds.refl (s : State) : s.Holds s := .same rfl rfl rfl rfl

/-- Each open fault is replaced by one as which it continues. -/
theorem State.Holds.map {g : Open → Open} (hl : t.faults.labels = s.faults.labels) (ho : t.faults.opens = s.faults.opens.map g)
    (hg : ∀ o : Open, o.Continues (g o)) (hn : t.faults.lseq = s.faults.lseq) (hc : t.lostEntries = s.lostEntries) : s.Holds t :=
  ⟨hl, .of_map hg ho, hn, hc⟩

end

theorem State.carryOut_holds (s : State) (n : BitVec 16) (det cause react : Nat) (alarm : Bool) :
    s.Holds (s.carryOut n det cause react alarm) := by
  have hf := s.carryOut_faults n det cause react alarm
  have hl : (s.carryOut n det cause react alarm).faults.labels = s.faults.labels := by
    rw [hf, Faults.showAlarms_labels]
    exact Faults.editLog_labels _ n fun _ => rfl
  exact .map hl (congrArg Faults.opens hf) (Open.carried_continues n det alarm) (congrArg Faults.lseq hf :) (by simp)

/-- Marking the log entries of several faults changes the log alone. -/
theorem Faults.foldl_editLog_eq (f : Faults) (os : List Open) {g : LogEntry → LogEntry} (h : ∀ e, (g e).label = e.label) :
    let f' := os.foldl (fun f o => f.editLog o.lseq g) f
    f'.labels = f.labels ∧ f'.opens = f.opens ∧ f'.lseq = f.lseq :=
  List.foldlRecOn (motive := fun f' : Faults => f'.labels = f.labels ∧ f'.opens = f.opens ∧ f'.lseq = f.lseq) os _ ⟨rfl, rfl, rfl⟩
    fun f' h' o _ => ⟨(f'.editLog_labels o.lseq h).trans h'.1, h'.2⟩

/-- A FATAL fault's resets may close windows; the faults stay (13 R327). -/
theorem State.closeWindows_holds (s : State) (isls : List Island) : s.Holds (s.closeWindows isls) := by
  unfold State.closeWindows
  extract_lets hit close src f
  obtain ⟨hl, ho, hn⟩ := f.foldl_editLog_eq (s.faults.opens.filter hit) (g := fun e => { e with reacted := true }) fun _ => rfl
  refine .map ((Faults.showAlarms_labels _).trans hl) ho (fun o => ?_) hn rfl
  by_cases h : hit o
  · simp only [close, if_pos h]
    exact ⟨rfl, rfl, rfl, rfl, fun ha => by simp [ha], rfl⟩
  · simp only [close, if_neg h]
    exact .refl o

theorem State.count_holds (s : State) {c : Ctr} (h : c ≠ .fltLogLost) : s.Holds (s.count c) :=
  .same rfl rfl rfl (s.count_lostEntries h)

/-- A fault's class brings its reaction, and the faults already held continue (13 Table 13-1). -/
theorem State.raise_holds (s : State) (f : Fault0) (cls : Nat) (n : BitVec 16) : s.Holds (s.raise f cls n) := by
  unfold State.raise
  extract_lets alm react o src s1 s2 s3 s4 s5
  have h1 : s.Holds s1 := ⟨rfl, .of_subset (List.subset_append_left _ _), rfl, rfl⟩
  have h2 : s1.Holds s2 := by
    simp only [s2]
    split
    · exact s1.count_holds (by decide)
    · exact .same rfl rfl rfl rfl
  have h3 : s2.Holds s3 := by
    simp only [s3]
    split
    · exact .same (Faults.showAlarms_labels _) rfl rfl rfl
    · exact .refl _
  have h := (h1.trans h2).trans h3
  split
  · have h4 : s3.Holds s4 := s3.closeWindows_holds _
    have h5 : s4.Holds s5 := s4.carryOut_holds ..
    clear_value s4 s5
    refine ((h.trans h4).trans h5).trans ?_
    split
    · exact .same rfl rfl rfl rfl
    · exact .refl _
  · exact h

/-- A fault that is not FATAL is added to the open ones, which stay as they are. -/
theorem State.raise_opens (s : State) (f : Fault0) {cls : Nat} (n : BitVec 16) (h : cls ≠ 2) :
    s.faults.opens <+: (s.raise f cls n).faults.opens := by
  unfold State.raise
  rw [if_neg h]
  split <;> split <;> exact List.prefix_append _ _

/-! ## A fault that is logged as a new entry -/

/-- A new entry is logged and traced, and a FATAL one sets FATAL_SEEN. -/
def State.filed (s : State) (e : LogEntry) : State := ((s.logEntry e).emitFault e).fatalLogged e.cls

/-- A fault of another detector than the newest entry's gets an entry of its own; it is raised unless a shadow covers it (13 R328, R330). -/
theorem State.handleFault_new (s : State) (f : Fault0)
    (h : ∀ x, s.faults.log.head? = some x → x.det ≠ BitVec.ofNat 6 f.det) :
    ∃ e : LogEntry, e.det = BitVec.ofNat 6 f.det ∧ e.tick = f.stamp ∧
      (s.handleFault f = (s.count .fltConseq).filed e ∨ s.handleFault f = (s.filed e).raise f e.cls s.faults.lseq) := by
  unfold State.handleFault
  extract_lets cfg shadow conseq rival first second older cls e s' same more n t
  refine ⟨e, rfl, rfl, ?_⟩
  have hlog : s'.faults.log = s.faults.log := by simp only [s']; split <;> rfl
  have hsame : same = none := by
    simp only [same, hlog]
    split
    · rfl
    next x xs hx =>
      have hdet : (x.det == e.det) = false := beq_false_of_ne (h x (by rw [hx]; rfl))
      simp [hdet]
  have ht : t = s'.filed e := rfl
  have hn : n = s'.faults.lseq := rfl
  clear_value same t n
  subst hsame ht hn
  by_cases hc : conseq = true
  · have hs : s' = s.count .fltConseq := if_pos hc
    left
    rw [← hs]
    exact if_pos hc
  · have hs : s' = s := if_neg hc
    right
    rw [← hs]
    exact if_neg hc

@[simp] theorem State.emitFault_faults (s : State) (e : LogEntry) : (s.emitFault e).faults = s.faults := s.emit_faults ..
@[simp] theorem State.emitFault_lostEntries (s : State) (e : LogEntry) : (s.emitFault e).lostEntries = s.lostEntries :=
  s.emit_lostEntries ..

/-- FATAL_SEEN is all that the logging of a FATAL fault adds. -/
theorem State.fatalLogged_eq (s : State) (cls : Nat) : ∃ b, s.fatalLogged cls = s.setFaults { s.faults with fatalSeen := b } := by
  unfold State.fatalLogged
  split
  · exact ⟨_, rfl⟩
  · exact ⟨s.faults.fatalSeen, rfl⟩

@[simp] theorem State.logEntry_opens (s : State) (e : LogEntry) : (s.logEntry e).faults.opens = s.faults.opens := by
  unfold State.logEntry
  extract_lets s1 full l s2
  show s2.faults.opens = s.faults.opens
  simp only [s2]
  split <;> rfl

/-- Logging leaves the open faults as they are. -/
@[simp] theorem State.filed_opens (s : State) (e : LogEntry) : (s.filed e).faults.opens = s.faults.opens := by
  obtain ⟨b, hb⟩ := ((s.logEntry e).emitFault e).fatalLogged_eq e.cls
  simp [State.filed, hb]

/-- Logging in a full log: one entry is removed and counted, and the new one is at index 0 (13 R336). -/
theorem State.logEntry_full (s : State) (e : LogEntry) (h : s.faults.log.length = 16) :
    (s.logEntry e).faults = { s.faults with log := { e with lseq := s.faults.lseq } :: s.faults.evict, lseq := s.faults.lseq + 1 } ∧
      (s.logEntry e).lostEntries = min (s.lostEntries + 1) 0xFFFFFFFF := by
  unfold State.logEntry
  extract_lets s1 full l s2
  have hfull : full = true := decide_eq_true h.ge
  have hl : l = s.faults.evict := if_pos hfull
  have hs : s2 = s1.count .fltLogLost := if_pos hfull
  clear_value l s2
  subst hl hs
  exact ⟨rfl, by simp [s1, State.count_lostEntries_self]⟩

/-- The full log of `s` has given up an entry for the new one `e`, and counted it; the faults that were open continue (13 R336). -/
structure State.MakesRoom (s t : State) (e : LogEntry) : Prop where
  labels : t.faults.labels = { e with lseq := s.faults.lseq }.label :: s.faults.evict.map LogEntry.label
  opens : s.faults.Continue t.faults
  lseq : t.faults.lseq = s.faults.lseq + 1
  lost : t.lostEntries = min (s.lostEntries + 1) 0xFFFFFFFF

theorem State.filed_makesRoom (s : State) (e : LogEntry) (h : s.faults.log.length = 16) : s.MakesRoom (s.filed e) e := by
  obtain ⟨hf, hc⟩ := s.logEntry_full e h
  obtain ⟨b, hb⟩ := ((s.logEntry e).emitFault e).fatalLogged_eq e.cls
  refine ⟨?_, .of_eq (s.filed_opens e), ?_, ?_⟩ <;> simp [State.filed, hb, hf, hc, Faults.labels]

/-- What continues the faults of a log that has made room keeps that room. -/
theorem State.MakesRoom.holds {s t u : State} {e : LogEntry} (h : s.MakesRoom t e) (k : t.Holds u) : s.MakesRoom u e where
  labels := k.labels.trans h.labels
  opens := h.opens.trans k.opens
  lseq := k.lseq.trans h.lseq
  lost := k.lost.trans h.lost

/-- An event counted before makes no difference, but for one of the lost entries. -/
theorem State.MakesRoom.of_count {s t : State} {e : LogEntry} {c : Ctr} (hc : c ≠ .fltLogLost) (h : (s.count c).MakesRoom t e) :
    s.MakesRoom t e :=
  ⟨h.labels, h.opens, h.lseq, by rw [h.lost, s.count_lostEntries hc]⟩

/-- A fault that a full log takes as a new entry (13 R336). -/
theorem State.handleFault_full (s : State) (f : Fault0) (hfull : s.faults.log.length = 16)
    (hnew : ∀ x, s.faults.log.head? = some x → x.det ≠ BitVec.ofNat 6 f.det) :
    ∃ e : LogEntry, e.det = BitVec.ofNat 6 f.det ∧ e.tick = f.stamp ∧ s.MakesRoom (s.handleFault f) e ∧
      (e.cls ≠ 2 → s.faults.opens <+: (s.handleFault f).faults.opens) := by
  obtain ⟨e, hdet, htick, hcase⟩ := s.handleFault_new f hnew
  refine ⟨e, hdet, htick, ?_⟩
  rcases hcase with hs | hs <;> rw [hs]
  · exact ⟨.of_count (by decide) ((s.count .fltConseq).filed_makesRoom e hfull), fun _ =>
      ((s.count .fltConseq).filed_opens e).symm ▸ List.prefix_rfl⟩
  · refine ⟨(s.filed_makesRoom e hfull).holds ((s.filed e).raise_holds ..), fun hcls => ?_⟩
    rw [← s.filed_opens e]
    exact (s.filed e).raise_opens f _ hcls

/-- A report, once it is consumed alone (13 R315). -/
def Report.alone (r : Report) : Fault0 :=
  { det := r.det.toNat, cause := r.cause.toNat, island := r.island, inj := r.inj, real := r.real, atLeast := r.atLeast, count := 1,
    stamp := r.stamp }

/-- The one report that is there is consumed at a boundary that follows its tick, or at once where it comes from AON (13 R314). -/
theorem State.collect_one {s : State} {r : Report} (h : s.faults.reports = [r]) (hdue : r.aon = true ∨ r.posted < s.now) :
    s.collect = (s.setFaults { s.faults with reports := [] }).handleFault r.alone := by
  have hd : dueOf s.now [] [r] = ([r], []) := by
    have : (r.aon || decide (r.posted < s.now)) = true := by simpa using hdue
    unfold dueOf
    simp only [this]
    cases r.from <;> rfl
  simp only [State.collect, State.dueReports, State.waitingReports, h, hd]
  rfl

theorem exec_faultReport_one {s : State} {r : Report} (hp : s.clock.powered = true) (h : s.faults.reports = [r])
    (hdue : r.aon = true ∨ r.posted < s.now) :
    exec (.faultReport []) s = .next ((s.setFaults { s.faults with reports := [] }).handleFault r.alone) := by
  show stepIf s.clock.powered s (s.checkAccesses []).collect = _
  rw [hp, ← State.collect_one h hdue]
  rfl

theorem exec_graceExpiry {s : State} (hp : s.clock.powered = true) : exec .graceExpiry s = .next s.endCollect := by
  show stepIf s.clock.powered s s.endCollect = _
  rw [hp]
  rfl

/-- Settles O57: a new entry in a full log removes the entry that 13 R336 names, and the open faults continue. -/
theorem fullLogRemovesOneEntry : Obligations.FullLogRemovesOneEntry := by
  constructor
  · intro s det n hp hgrace hacks hclears
    refine ⟨_, exec_graceExpiry hp, fun o ho hdet => ?_⟩
    exact State.endCollect_hostAck hgrace hacks hclears o ho (congrArg BitVec.toNat hdet)
  · intro s r hp hreport hdue hhead hfull done
    have hdet : BitVec.ofNat 6 r.alone.det = r.det := by simp [Report.alone]
    obtain ⟨pre, e, post, hlog, hevict, horder⟩ := s.faults.evict_order (List.ne_nil_of_length_pos (by omega))
    obtain ⟨x, hxdet, hxtick, hroom, hprefix⟩ :=
      (s.setFaults { s.faults with reports := [] }).handleFault_full r.alone hfull (by rwa [hdet])
    have hlabels := hroom.labels
    have hkept : ({ s.faults with reports := [] } : Faults).evict = pre ++ post := hevict
    rw [State.setFaults_faults, hkept] at hlabels
    refine ⟨_, pre, e, post, exec_faultReport_one hp hreport hdue, hlog, horder, ?_, ?_, ?_, hroom.lseq, hroom.lost⟩
    · simpa [Faults.labels, LogEntry.label, Function.comp_def] using congrArg (List.map Prod.fst) hlabels
    · obtain ⟨y, ys, hy, hlabel, -⟩ := List.map_eq_cons_iff.1 hlabels
      simp only [LogEntry.label, Prod.mk.injEq] at hlabel
      obtain ⟨-, hydet, hytick, hycls⟩ := hlabel
      exact ⟨y, ys, hy, hydet.trans (hxdet.trans hdet), hytick.trans hxtick, fun hcls => hprefix (hycls ▸ hcls)⟩
    · intro o ho
      obtain ⟨p, hp, hop⟩ := hroom.opens o ho
      exact ⟨p, hp, hop.lseq, hop.det, hop.cls, hop.acked, hop.alarm, hop.aux⟩

end Sys2Proof.Machine
end

section
/-! PROOFS. What every step keeps: the canonical form of the window's memory and of the images, the bounds of the result queue and of
the fault log, and the values that only grow or never change. One rule per operation of the model and one per instruction, in the
order of the model's files; each says that what held of the state before the operation, relative to a fixed earlier state `s`, holds
of the state after it. -/

namespace Sys2Proof.Machine
open Sys2Proof

/-- The signature counters in use are the newest record of their pages (12 R304, 14 Table 14-3). -/
def State.recorded (s : State) : Prop := s.nvm.ctrRecs.load true true = some (s.nvm.ctrVendor, s.nvm.ctrOem)

/-- What every step keeps. The signature counters are kept under a condition `c`, which a power-up needs. -/
structure State.Lasts (c : Prop) (s t : State) : Prop where
  memory : s.memoryOk → t.memoryOk
  images : s.imagesOk → t.imagesOk
  queue : s.queueOk → t.queueOk
  log : s.logOk → t.logOk
  oem : s.nvm.oem ≠ none → t.nvm.oem = s.nvm.oem
  fuses : ∀ i : Island, s.nvm.fuses.at i ≤ 63 → s.nvm.fuses.at i ≤ t.nvm.fuses.at i ∧ t.nvm.fuses.at i ≤ 63
  counters : c → s.recorded → s.nvm.ctrVendor ≤ t.nvm.ctrVendor ∧ s.nvm.ctrOem ≤ t.nvm.ctrOem ∧ t.recorded
  free : s.free ≤ t.free

/-- What of the NVM the steps keep: images, digest, fuses, signature counters. -/
def Nvm.vault (n : Nvm) : Quad (List Host.Cell) × Quad (List Host.Cell) × Option (List Byte) × Quad Nat × (Nat × Nat) × Alternate (Nat × Nat) :=
  (n.imgA, n.imgB, n.oem, n.fuses, (n.ctrVendor, n.ctrOem), n.ctrRecs)

/-- All that State.Lasts speaks of, read off a state. -/
def State.vault (s : State) := (s.free, s.win.mem, s.meas.queue.length, s.faults.log.length, s.nvm.vault)

/-- What a command's own rules leave. -/
def Done.state : Done → State
  | .done t _ _ | .wait t _ _ | .busy t | .reset t _ => t

/-! ## Lists under changes of the parts -/

/-- What each step of a fold keeps, the fold keeps. -/
theorem foldl_keeps {α β γ : Type} {f : β → α → β} {p : β → γ} (h : ∀ b a, p (f b a) = p b) (l : List α) (b : β) :
    p (l.foldl f b) = p b := by
  induction l generalizing b with
  | nil => rfl
  | cons a l ih => exact (ih (f b a)).trans (h b a)

@[simp] theorem Faults.showAlarms_length (f : Faults) : f.showAlarms.log.length = f.log.length := by simp [Faults.showAlarms]

@[simp] theorem Faults.ackLog_length (f : Faults) (ns : List (BitVec 16)) : (f.ackLog ns).log.length = f.log.length :=
  foldl_keeps (p := fun f => f.log.length) (fun f n => f.editLog_length n _) ns f

theorem Faults.foldl_editLog_length (f : Faults) (os : List Open) (g : LogEntry → LogEntry) :
    (os.foldl (fun f o => f.editLog o.lseq g) f).log.length = f.log.length :=
  foldl_keeps (p := fun f => f.log.length) (fun f o => f.editLog_length o.lseq g) os f

@[simp] theorem Meas.foldl_setSeq_queue (m : Meas) (qs : List Nat) (g : Meas → Nat → Seq) :
    (qs.foldl (fun m q => m.setSeq q (g m q)) m).queue = m.queue :=
  foldl_keeps (f := fun m q => m.setSeq q (g m q)) (p := Meas.queue) (fun _ _ => rfl) qs m

theorem Meas.swapTables_queue (m : Meas) (k : BitVec 20) : (m.swapTables k).queue = m.queue := by
  simp only [Meas.swapTables]

theorem Meas.windowsPass_queue (m : Meas) (pos : Nat) : (m.windowsPass pos).queue = m.queue := by
  refine foldl_keeps (p := Meas.queue) (fun m q => ?_) ..
  exact (apply_ite Meas.queue _ _ _).trans (ite_self _)

theorem Meas.sxPass_queue (m : Meas) (a : Alm) (now : Nat) (prev : Count48) (pos : Nat) : (m.sxPass a now prev pos).queue = m.queue := by
  unfold Meas.sxPass
  split
  · dsimp only
    split_ifs <;> rfl
  · rfl

theorem Meas.sxStart_queue (m : Meas) (a : Alm) (now pos : Nat) : (m.sxStart a now pos).queue = m.queue := by
  unfold Meas.sxStart
  dsimp only
  split_ifs <;> rfl

theorem foldl_cellWrite_wf {m : List Host.Cell} (cs : List (Nat × Byte)) (h : Memory.wf m = true) :
    Memory.wf (cs.foldl (fun m c => cellWrite m c.1 c.2) m) = true := by
  induction cs generalizing m with
  | nil => exact h
  | cons a cs ih => exact ih (cellWrite_wf _ _ h)

theorem inactiveMem_wf {s : State} (h : s.imagesOk) (i : Island) : Memory.wf (s.inactiveMem i) = true := by
  unfold State.inactiveMem
  split
  · exact (h i).1
  · exact (h i).2

/-- A record that has just been written is the one in force (14 R347). -/
theorem Alternate.load_put {α : Type} (r : Alternate α) (v : α) : (r.put v).load true true = some v := by
  unfold Alternate.put
  split
  · next h =>
    cases ha : r.a with
    | none => simp [Alternate.load]
    | some u => simp [Alternate.load, Alternate.seq, ha]
  · next h =>
    cases hb : r.b with
    | none => simp [Alternate.load]
    | some u => simp [Alternate.load, Alternate.seq, hb]; intro hu; omega

namespace State.Lasts
variable {c : Prop} {s x t u : State}

theorem refl (s : State) : s.Lasts c s :=
  ⟨id, id, id, id, fun _ => rfl, fun _ h => ⟨le_rfl, h⟩, fun _ h => ⟨le_rfl, le_rfl, h⟩, le_rfl⟩

theorem trans (h : s.Lasts c t) (k : t.Lasts c u) : s.Lasts c u where
  memory := k.memory ∘ h.memory
  images := k.images ∘ h.images
  queue := k.queue ∘ h.queue
  log := k.log ∘ h.log
  oem e := (k.oem (h.oem e ▸ e)).trans (h.oem e)
  fuses i b := ⟨(h.fuses i b).1.trans (k.fuses i (h.fuses i b).2).1, (k.fuses i (h.fuses i b).2).2⟩
  counters hc r := by
    obtain ⟨hv, ho, hr⟩ := h.counters hc r
    obtain ⟨kv, ko, kr⟩ := k.counters hc hr
    exact ⟨hv.trans kv, ho.trans ko, kr⟩
  free := h.free.trans k.free

theorem same (h : s.Lasts c x) (e : t.vault = x.vault) : s.Lasts c t := by
  simp only [State.vault, Nvm.vault, Prod.mk.injEq] at e
  obtain ⟨hfree, hmem, hqueue, hlog, hA, hB, hoem, hfuses, ⟨hv, ho⟩, hrec⟩ := e
  refine h.trans ⟨?_, ?_, ?_, ?_, fun _ => hoem, fun i b => by rw [hfuses]; exact ⟨le_rfl, b⟩, fun _ r => ?_, hfree.ge⟩
  · rw [State.memoryOk, State.memoryOk, hmem]; exact id
  · rw [State.imagesOk, State.imagesOk, hA, hB]; exact id
  · rw [State.queueOk, State.queueOk, hqueue]; exact id
  · rw [State.logOk, State.logOk, hlog]; exact id
  · exact ⟨hv.ge, ho.ge, by rw [State.recorded, hrec, hv, ho]; exact r⟩

theorem setMgmt {m} (h : s.Lasts c x) : s.Lasts c (x.setMgmt m) := h.same rfl
theorem setLoop {l} (h : s.Lasts c x) : s.Lasts c (x.setLoop l) := h.same rfl
theorem setFab {f} (h : s.Lasts c x) : s.Lasts c (x.setFab f) := h.same rfl
theorem setEnergy {e} (h : s.Lasts c x) : s.Lasts c (x.setEnergy e) := h.same rfl
theorem setObs {o} (h : s.Lasts c x) : s.Lasts c (x.setObs o) := h.same rfl
theorem setPort {p y} (h : s.Lasts c x) : s.Lasts c (x.setPort p y) := h.same rfl
theorem setIsl {i y} (h : s.Lasts c x) : s.Lasts c (x.setIsl i y) := h.same rfl
theorem setPins {p} (h : s.Lasts c x) : s.Lasts c (x.setPins p) := h.same rfl

theorem setWin {w : Window} (h : s.Lasts c x) (e : w.mem = x.win.mem) : s.Lasts c (x.setWin w) :=
  h.same (by simp [State.vault, e])

theorem setMeas {m : Meas} (h : s.Lasts c x) (e : m.queue.length = x.meas.queue.length) : s.Lasts c (x.setMeas m) :=
  h.same (by simp [State.vault, e])

theorem setFaults {f : Faults} (h : s.Lasts c x) (e : f.log.length = x.faults.log.length) : s.Lasts c (x.setFaults f) :=
  h.same (by simp [State.vault, e])

/-- A result queue that stays within its bound. -/
theorem boundMeas {m : Meas} (h : s.Lasts c x) (e : x.meas.queue.length ≤ 512 → m.queue.length ≤ 512) : s.Lasts c (x.setMeas m) :=
  h.trans { State.Lasts.refl x with queue := e }

/-- A fault log that stays within its bound. -/
theorem boundFaults {f : Faults} (h : s.Lasts c x) (e : x.faults.log.length ≤ 16 → f.log.length ≤ 16) : s.Lasts c (x.setFaults f) :=
  h.trans { State.Lasts.refl x with log := e }

theorem setNvm {n : Nvm} (h : s.Lasts c x) (e : n.vault = x.nvm.vault) : s.Lasts c (x.setNvm n) :=
  h.same (by simp [State.vault, e])

theorem drew {n} (h : s.Lasts c x) (e : x.free ≤ n) : s.Lasts c { x with free := n } :=
  h.trans { State.Lasts.refl x with free := e }

/-- A fuse that is blown further. -/
theorem raiseFuse {i k v} (h : s.Lasts c x) (e : x.nvm.fuses.at i ≤ k) :
    s.Lasts c (x.setNvm { x.nvm with fuses := x.nvm.fuses.put i (min 63 (max k v)) }) := by
  refine h.trans { State.Lasts.refl (c := c) x with fuses := fun j hj => ?_ }
  by_cases hji : j = i
  · subst hji
    simp only [State.setNvm_nvm, Quad.at_put_same]
    omega
  · simp only [State.setNvm_nvm, Quad.at_put_ne _ _ hji]
    exact ⟨le_rfl, hj⟩

/-- Written bytes keep the canonical form. -/
theorem winWrite {a bs} (h : s.Lasts c x) : s.Lasts c (x.winWrite a bs) :=
  h.trans { State.Lasts.refl x with memory := fun m => cellsWrite_wf a bs m }

theorem ite {p : Prop} [Decidable p] {a b : State} (h : s.Lasts c a) (k : s.Lasts c b) : s.Lasts c (if p then a else b) := by
  split <;> assumption

theorem fst_ite {β : Type} {p : Prop} [Decidable p] {a b : State × β} (h : s.Lasts c a.1) (k : s.Lasts c b.1) :
    s.Lasts c (if p then a else b).1 := by
  split <;> assumption

theorem foldl {α : Type} {f : State → α → State} {l : List α} (hf : ∀ y a, s.Lasts c y → s.Lasts c (f y a)) (h : s.Lasts c x) :
    s.Lasts c (l.foldl f x) := by
  induction l generalizing x with
  | nil => exact h
  | cons a l ih => exact ih (hf x a h)

theorem foldl_fst {α β : Type} {f : State × β → α → State × β} {l : List α} {y : State × β}
    (hf : ∀ y a, s.Lasts c y.1 → s.Lasts c (f y a).1) (h : s.Lasts c y.1) : s.Lasts c (l.foldl f y).1 := by
  induction l generalizing y with
  | nil => exact h
  | cons a l ih => exact ih (hf y a h)

theorem draw {w} (h : s.Lasts c x) : s.Lasts c (x.draw w).2 := h.drew (Nat.le_succ _)

theorem of_fst {β : Type} {p : State × β} {b : β} (e : p = (x, b)) (h : s.Lasts c p.1) : s.Lasts c x := by rwa [e] at h

theorem foldr {α : Type} {f : α → State → State} {l : List α} (hf : ∀ a y, s.Lasts c y → s.Lasts c (f a y)) (h : s.Lasts c x) :
    s.Lasts c (l.foldr f x) := by
  induction l with
  | nil => exact h
  | cons a l ih => exact hf a _ ih

/-- The two results of a command's own rules. -/
theorem iteDone {p : Prop} [Decidable p] {a b : Done} (h : s.Lasts c a.state) (k : s.Lasts c b.state) :
    s.Lasts c (if p then a else b).state := by
  split <;> assumption

end State.Lasts

/-- What a step answers keeps. -/
def Ans.Lasts (c : Prop) (s : State) (a : Ans) : Prop := ∀ t, a = .next t → s.Lasts c t

namespace Ans.Lasts
variable {c : Prop} {s x y : State}

theorem next (h : s.Lasts c x) : Ans.Lasts c s (.next x) := by rintro t ⟨⟩; exact h

theorem stepIf {b : Bool} (h : s.Lasts c x) (k : s.Lasts c y) : Ans.Lasts c s (stepIf b x y) := next (.ite k h)

theorem ite {p : Prop} [Decidable p] {a b : Ans} (h : Ans.Lasts c s a) (k : Ans.Lasts c s b) : Ans.Lasts c s (if p then a else b) := by
  split <;> assumption

end Ans.Lasts
namespace State.Lasts
variable {c : Prop} {s x : State}

/-! ## Flags -/

theorem updateRegister (h : s.Lasts c x) : s.Lasts c x.updateRegister := h.same rfl

/-! ## Ops -/

theorem countN {c' n} (h : s.Lasts c x) : s.Lasts c (x.countN c' n) := h.setObs

theorem count {c'} (h : s.Lasts c x) : s.Lasts c (x.count c') := h.countN

theorem traceLost {typ} (h : s.Lasts c x) : s.Lasts c (x.traceLost typ) := .ite h.setObs.count h

theorem emit {i typ hdr more} (h : s.Lasts c x) : s.Lasts c (x.emit i typ hdr more) := by
  unfold State.emit
  extract_lets q m src
  exact .ite h.setObs h.traceLost

theorem emitEnergy (h : s.Lasts c x) : s.Lasts c x.emitEnergy := h.emit

theorem emitIsland {i ev} (h : s.Lasts c x) : s.Lasts c (x.emitIsland i ev) := h.emit

theorem emitMailbox {mb ack held refused src n code} (h : s.Lasts c x) : s.Lasts c (x.emitMailbox mb ack held refused src n code) :=
  h.emit

theorem emitCommand {completion src op tag status} (h : s.Lasts c x) : s.Lasts c (x.emitCommand completion src op tag status) :=
  h.emit

theorem emitApply {i kind round} (h : s.Lasts c x) : s.Lasts c (x.emitApply i kind round) := h.emit

theorem emitSeq {q ev} (h : s.Lasts c x) : s.Lasts c (x.emitSeq q ev) := h.emit

theorem emitSlice {sl ev w} (h : s.Lasts c x) : s.Lasts c (x.emitSlice sl ev w) := h.emit

theorem emitResult {e dropped} (h : s.Lasts c x) : s.Lasts c (x.emitResult e dropped) := h.emit

theorem ring {bit} (h : s.Lasts c x) : s.Lasts c (x.ring bit) := h.setWin rfl

theorem report {det cause isl} (h : s.Lasts c x) : s.Lasts c (x.report det cause isl) := h.setFaults rfl

theorem setOwner {n o src} (h : s.Lasts c x) : s.Lasts c (x.setOwner n o src) := h.setWin rfl

theorem devWrite {n bs writer} (h : s.Lasts c x) : s.Lasts c (x.devWrite n bs writer) := .ite h.winWrite h.count.report

theorem postMb {k n held r} (h : s.Lasts c x) : s.Lasts c (x.postMb k n held r) :=
  .emitMailbox (h.setWin (by simp))

theorem postReq {k op r} (h : s.Lasts c x) : s.Lasts c (x.postReq k op r) := .ite h (.ite (h.setWin rfl) h.postMb)

theorem failPost {r} (h : s.Lasts c x) : s.Lasts c (x.failPost r) := by
  unfold State.failPost
  split
  · exact h.setFab
  · split
    · exact h.setMgmt
    · exact h

theorem postWaiting {k} (h : s.Lasts c x) : s.Lasts c (x.postWaiting k) := by
  unfold State.postWaiting
  split
  · exact h
  · split
    · exact .foldl (fun _ _ hy => hy.failPost) (h.setWin rfl)
    · split
      · exact h
      · exact .postMb (h.setWin rfl)

theorem ackEffect {k code src} (h : s.Lasts c x) : s.Lasts c (x.ackEffect k code src) := by
  unfold State.ackEffect
  extract_lets m m' s1 s2
  have hs1 : s.Lasts c s1 := h.setWin (by simp)
  have hs2 : s.Lasts c s2 := .ite hs1.ring hs1
  exact hs2.emitMailbox

theorem takeReq {k code} (h : s.Lasts c x) : s.Lasts c (x.takeReq k code) := by
  unfold State.takeReq
  extract_lets src src
  exact h.setWin (by simp)

theorem withdraw {k} (h : s.Lasts c x) : s.Lasts c (x.withdraw k) := by
  unfold State.withdraw
  extract_lets m
  exact h.setWin (by simp)

theorem withdrawReq {op n} (h : s.Lasts c x) : s.Lasts c (x.withdrawReq op n) := by
  unfold State.withdrawReq
  extract_lets mine k m here t src
  have ht : s.Lasts c t := h.withdraw
  exact .ite (ht.setWin (by simp)) (h.setWin rfl)

/-! ## Restart -/

theorem fenceMeas (h : s.Lasts c x) : s.Lasts c x.fenceMeas := by
  unfold State.fenceMeas
  extract_lets m coming s1 pins s2
  have hs1 : s.Lasts c s1 := .ite h.setMgmt h
  have hs2 : s.Lasts c s2 := .setWin hs1.setPins rfl
  exact hs2.boundMeas fun _ => Nat.zero_le _

theorem unaccept {w} (h : s.Lasts c x) : s.Lasts c (x.unaccept w) := by
  unfold State.unaccept
  split
  · exact h
  · exact h.setFab

theorem forgetLoop (h : s.Lasts c x) : s.Lasts c x.forgetLoop := by
  unfold State.forgetLoop
  extract_lets bufs s1 src src2
  have hs1 : s.Lasts c s1 := .foldl (fun _ _ hy => hy.unaccept) h
  exact hs1.same rfl

theorem fenceLoop (h : s.Lasts c x) : s.Lasts c x.fenceLoop := by
  unfold State.fenceLoop
  extract_lets lost held feeds s1 s2 stays again s3 src
  have hs1 : s.Lasts c s1 := .ite h.setMgmt h
  have hs2 : s.Lasts c s2 := .ite hs1.setMgmt hs1
  have hs3 : s.Lasts c s3 := hs2.forgetLoop
  exact hs3.same rfl

theorem fenceMgmt (h : s.Lasts c x) : s.Lasts c x.fenceMgmt := by
  unfold State.fenceMgmt
  extract_lets hold
  have hmem (w : Window) (k : Nat) : (hold w k).mem = w.mem := by
    unfold hold
    dsimp only
    split <;> rfl
  exact h.same (by simp [State.vault, Window.dropPosts, hmem])

theorem fenceAon (h : s.Lasts c x) : s.Lasts c x.fenceAon := h.setObs.setPins.setWin rfl

theorem fence {a} (h : s.Lasts c x) : s.Lasts c (x.fence a) := by
  unfold State.fence
  split
  · exact h.fenceMeas
  · exact h.fenceLoop
  · exact h.fenceMgmt
  · exact h.fenceAon

theorem assertReset {i origin stop} (h : s.Lasts c x) : s.Lasts c (x.assertReset i origin stop) := by
  unfold State.assertReset
  extract_lets x1 x'
  exact .ite (.ite h.setIsl h) h.fence.setIsl.emitIsland

theorem askReset {i} (h : s.Lasts c x) : s.Lasts c (x.askReset i) := h.setFaults rfl

theorem takeResets (h : s.Lasts c x) : s.Lasts c x.takeResets := .foldl (fun _ _ hy => hy.assertReset) (h.setFaults rfl)

theorem carryResets {react det cause} (h : s.Lasts c x) : s.Lasts c (x.carryResets react det cause) :=
  .foldl (fun _ _ hy => hy.assertReset) h

/-! ## Collector -/

theorem logEntry {e} (h : s.Lasts c x) : s.Lasts c (x.logEntry e) := by
  unfold State.logEntry
  extract_lets s1 full l s2
  have hs1 : s.Lasts c s1 := h.setNvm rfl
  have hs2 : s.Lasts c s2 := .ite hs1.count hs1
  have hf : s2.faults = s1.faults := by unfold s2; split <;> rfl
  refine .ring (hs2.boundFaults fun hb => ?_)
  rw [hf] at hb
  show l.length + 1 ≤ 16
  by_cases hfull : 16 ≤ s1.faults.log.length
  · obtain ⟨pre, e', post, hlog, hevict, -⟩ := s1.faults.evict_order (List.ne_nil_of_length_pos (by omega))
    have hl : l = s1.faults.evict := if_pos (decide_eq_true hfull)
    rw [hl, hevict]
    rw [hlog] at hb
    simp only [List.length_append, List.length_cons] at hb ⊢
    omega
  · have hl : l = s1.faults.log := if_neg (by simp [full, hfull])
    rw [hl]
    omega

theorem emitFault {e} (h : s.Lasts c x) : s.Lasts c (x.emitFault e) := h.emit

theorem schedule {t' a} (h : s.Lasts c x) : s.Lasts c (x.schedule t' a) := h.setLoop

theorem commandAlarm (h : s.Lasts c x) : s.Lasts c x.commandAlarm := h.schedule

theorem settleAlarm (h : s.Lasts c x) : s.Lasts c x.settleAlarm := .ite h h.schedule

theorem faultLow (h : s.Lasts c x) : s.Lasts c x.faultLow := h.setPins.setFaults rfl

theorem carryOut {n det cause react alarm} (h : s.Lasts c x) : s.Lasts c (x.carryOut n det cause react alarm) := by
  unfold State.carryOut
  extract_lets s1 mark f s2
  have hs1 : s.Lasts c s1 := h.carryResets
  have hs2 : s.Lasts c s2 := hs1.setFaults (by rw [Faults.showAlarms_length, Faults.editLog_length])
  exact .ite hs2.commandAlarm hs2

theorem closeWindows {isls} (h : s.Lasts c x) : s.Lasts c (x.closeWindows isls) :=
  h.setFaults (by rw [Faults.showAlarms_length, Faults.foldl_editLog_length])

theorem raise {f cls n} (h : s.Lasts c x) : s.Lasts c (x.raise f cls n) := by
  unfold State.raise
  extract_lets alm react o f s1 s2 s3 s4 s5
  have hs1 : s.Lasts c s1 := h.setFaults rfl
  have hs2 : s.Lasts c s2 := .ite hs1.count hs1.faultLow
  have hs3 : s.Lasts c s3 := .ite (.schedule (hs2.setFaults (Faults.showAlarms_length _))) hs2
  have hs5 : s.Lasts c s5 := hs3.closeWindows.carryOut
  refine .ite ?_ hs3
  split
  · exact hs5.setFaults rfl
  · exact hs5

theorem fatalLogged {cls} (h : s.Lasts c x) : s.Lasts c (x.fatalLogged cls) := .ite (h.setFaults rfl) h

theorem handleFault {f} (h : s.Lasts c x) : s.Lasts c (x.handleFault f) := by
  unfold State.handleFault
  extract_lets cfg shadow conseq rival first second older cls e s1 same more n s2
  have hs1 : s.Lasts c s1 := .ite h.count h
  have hs2 : s.Lasts c s2 := hs1.logEntry.emitFault.fatalLogged
  clear_value same s1 s2
  cases same with
  | some t =>
    have hf : s.Lasts c (s1.setFaults (s1.faults.editLog t.lseq more)) := hs1.setFaults (Faults.editLog_length ..)
    clear_value more
    exact .ite hf.emitFault.fatalLogged hf.emitFault.fatalLogged.ring.raise
  | none => exact .ite hs2 hs2.raise

theorem collect (h : s.Lasts c x) : s.Lasts c x.collect := by
  unfold State.collect
  extract_lets due src s1
  have hs1 : s.Lasts c s1 := h.setFaults rfl
  exact .foldl (fun _ _ hy => hy.handleFault) hs1

theorem accReport {a d inj real atLeast} (h : s.Lasts c x) : s.Lasts c (x.accReport a d inj real atLeast) := h.setFaults rfl

theorem loseWindowWord {w} (h : s.Lasts c x) : s.Lasts c (x.loseWindowWord w) := .ite h.draw.winWrite h

theorem struck {a} (h : s.Lasts c x) : s.Lasts c (x.struck a) := by
  unfold State.struck
  extract_lets hit
  split
  · exact h.setIsl.loseWindowWord
  · exact h.setIsl
  · exact h.setIsl
  · exact h.setIsl
  · exact h.setNvm rfl
  · exact h

theorem checkAccess {a} (h : s.Lasts c x) : s.Lasts c (x.checkAccess a) := by
  unfold State.checkAccess
  extract_lets s1 k usable d inj
  have hs1 : s.Lasts c s1 := h.struck
  clear_value s1 inj
  split
  · extract_lets real armed
    clear_value real armed
    cases armed <;> cases real
    · exact hs1
    · exact hs1.accReport
    · exact .accReport (hs1.setFaults rfl)
    · exact .accReport (hs1.setFaults rfl)
  · exact .ite (.accReport (hs1.setFaults rfl)) (.ite hs1.accReport hs1)

theorem nvmRead {pages} (h : s.Lasts c x) : s.Lasts c (x.nvmRead pages).1 := by
  induction pages generalizing x with
  | nil => exact h
  | cons g gs ih =>
    unfold State.nvmRead
    dsimp only
    split_ifs
    · exact .setFaults (h.setFaults rfl) rfl
    · exact .setFaults (h.setFaults rfl) rfl
    · exact ih (.setFaults (h.setFaults rfl) rfl)
    · exact h.setFaults rfl
    · exact ih h

theorem parityErrorAt {sender receiver real posted stamp} (h : s.Lasts c x) : s.Lasts c (x.parityErrorAt sender receiver real posted stamp) := by
  unfold State.parityErrorAt
  extract_lets d inj s1 src
  have hs1 : s.Lasts c s1 := .ite (h.setFaults rfl) h
  exact hs1.setFaults rfl

theorem parityError {sender receiver real} (h : s.Lasts c x) : s.Lasts c (x.parityError sender receiver real) := h.parityErrorAt

theorem relayWrite {n bs} (h : s.Lasts c x) : s.Lasts c (x.relayWrite n bs) := .ite h.parityError h.devWrite

theorem checkAccesses {as} (h : s.Lasts c x) : s.Lasts c (x.checkAccesses as) := .foldl (fun _ _ hy => hy.checkAccess) h

/-! ## Interp -/

theorem postReply {buf bytes} (h : s.Lasts c x) : s.Lasts c (x.postReply buf bytes) := by
  unfold State.postReply
  split
  · extract_lets s1 s2 s3
    have hs1 : s.Lasts c s1 := h.winWrite
    have hs2 : s.Lasts c s2 := hs1.setOwner
    have hs3 : s.Lasts c s3 := hs2.postMb
    exact hs3.ring
  · exact h.devWrite

theorem postNext (h : s.Lasts c x) : s.Lasts c x.postNext := by
  unfold State.postNext
  split
  · exact h
  · split
    · exact h
    · exact h.setMgmt.postReply

theorem freeBuf {b} (h : s.Lasts c x) : s.Lasts c (x.freeBuf b) := .ite h.setOwner h

theorem gotReply {n r} (h : s.Lasts c x) : s.Lasts c (x.gotReply n r) := by
  unfold State.gotReply
  extract_lets x1 s1
  have hs1 : s.Lasts c s1 := by
    unfold s1
    split
    · exact .ite h h.freeBuf
    · exact h
  exact .ite hs1.setFab hs1.freeBuf

theorem fabricReply {r} (h : s.Lasts c x) : s.Lasts c (x.fabricReply r) := by
  unfold State.fabricReply
  extract_lets s1 src
  have hs1 : s.Lasts c s1 := .ite h.winWrite h
  exact .ite hs1.postReq hs1.setFab

theorem sendReply {via p bytes} (h : s.Lasts c x) : s.Lasts c (x.sendReply via p bytes) := by
  unfold State.sendReply
  extract_lets src s1 r src2
  have hs1 : s.Lasts c s1 := h.setMgmt
  split
  · exact hs1.fabricReply
  · exact .ite hs1.setMgmt.postNext (.ite hs1.freeBuf hs1)

theorem finish {op via p status res} (h : s.Lasts c x) : s.Lasts c (x.finish op via p status res) := by
  unfold State.finish
  extract_lets s1 s2 kept src s3
  have hs1 : s.Lasts c s1 := h.count
  have hs2 : s.Lasts c s2 := hs1.emitCommand
  have hs3 : s.Lasts c s3 := hs2.setMgmt
  exact hs3.sendReply

theorem unreserve {op} (h : s.Lasts c x) : s.Lasts c (x.unreserve op) := h.setEnergy

theorem take_eq {y op p via} (h : s.Lasts c x) (e : x.take op p = some (y, via)) : s.Lasts c y := by
  unfold State.take at e
  split_ifs at e
  split at e
  · cases e; exact h
  · split_ifs at e; cases e; exact h.setMgmt

theorem touchUpd {p} (h : s.Lasts c x) : s.Lasts c (x.touchUpd p) := h.setMgmt

theorem started {op p} (h : s.Lasts c x) : s.Lasts c (x.started op p) := .ite h.touchUpd h

theorem begin {op p} (h : s.Lasts c x) : s.Lasts c (x.begin op p) := h.emitCommand.started

theorem settle {n} (h : s.Lasts c x) : s.Lasts c (State.settle n x) := by
  induction n generalizing x with
  | zero => exact h
  | succ n ih =>
    unfold State.settle
    split
    · exact h
    · exact .ite h (ih h.setMgmt.emitCommand.finish)

/-- A signature counter above the last accepted one. -/
theorem putCounter {oem n} (h : s.Lasts c x) (e : (if oem = true then x.nvm.ctrOem else x.nvm.ctrVendor) < n) :
    s.Lasts c (x.setNvm (x.nvm.putCounter oem n)) := by
  have hrec : (x.setNvm (x.nvm.putCounter oem n)).recorded := Alternate.load_put ..
  refine h.trans { State.Lasts.refl (c := c) x with counters := fun _ _ => ⟨?_, ?_, hrec⟩ } <;> cases oem
  · exact e.le
  · exact le_rfl
  · exact le_rfl
  · exact e.le

theorem checkSignature_eq {y op ps} (h : s.Lasts c x) (e : x.checkSignature op ps = some y) : s.Lasts c y := by
  unfold State.checkSignature at e
  extract_lets n tr ctr key msg keyOk last at e
  split at e
  · next hok =>
    have hlast : last < ctr := of_decide_eq_true (Bool.and_eq_true_iff.1 (Bool.and_eq_true_iff.1 hok).1).2
    cases e
    refine h.putCounter (lt_of_eq_of_lt ?_ hlast)
    unfold last
    by_cases hk : key = 0 <;> simp [hk]
  · cases e

theorem continuation {op via p} (h : s.Lasts c x) : s.Lasts c (x.continuation op via p) := by
  unfold State.continuation
  extract_lets answer off
  split
  · exact h.sendReply
  · split
    · exact h.sendReply
    · split
      · exact h.sendReply
      · exact .ite h.sendReply h.sendReply

theorem fragment {op via p} (h : s.Lasts c x) : s.Lasts c (x.fragment op via p) := by
  unfold State.fragment
  split
  · exact h.finish
  · extract_lets others old bytes src s1
    have hs1 : s.Lasts c s1 := h.setMgmt
    exact .ite h.setMgmt.finish hs1.sendReply

theorem assembled {op p} (h : s.Lasts c x) : s.Lasts c (x.assembled op p).1 := by
  unfold State.assembled
  split
  · exact h.setMgmt
  · exact h

theorem admitCmd_ok {y cmd p ps} (h : s.Lasts c x) (e : x.admitCmd cmd p ps = .ok y) : s.Lasts c y := by
  unfold State.admitCmd at e
  extract_lets long trailer body at e
  split at e; · cases e
  split at e; · cases e
  split at e; · cases e
  split at e; · cases e
  split at e; · cases e
  split at e
  · cases e
  · next t ht =>
    have hs : s.Lasts c t := by
      split at ht
      · exact h.checkSignature_eq ht
      · cases ht; exact h
    split at e; · cases e
    split at e; · cases e
    cases e; exact hs

theorem admitCmd_error {y cmd p ps r} (h : s.Lasts c x) (e : x.admitCmd cmd p ps = .error (y, r)) : s.Lasts c y := by
  unfold State.admitCmd at e
  extract_lets long trailer body at e
  split at e; · cases e; exact h
  split at e; · cases e; exact h
  split at e; · cases e; exact h
  split at e; · cases e; exact h
  split at e; · cases e; exact h.count
  split at e
  · cases e; exact h
  · next t ht =>
    have hs : s.Lasts c t := by
      split at ht
      · exact h.checkSignature_eq ht
      · cases ht; exact h
    split at e; · cases e; exact hs
    split at e
    · cases e; exact hs
    · cases e

theorem outstanding {y : State} {cmd via p cost isl got res} (h : s.Lasts c x) :
    s.Lasts c (y.outstanding x cmd via p cost isl got res) :=
  h.setEnergy.setMgmt

theorem complete {y : State} {cmd via p cost} {d : Done} (h : s.Lasts c d.state) : s.Lasts c (y.complete cmd via p cost d) := by
  cases d with
  | done t st res => exact State.Lasts.finish h
  | wait t isl res => exact State.Lasts.outstanding h
  | busy t => exact State.Lasts.outstanding h
  | reset t isl => exact (State.Lasts.finish h).postReq

theorem internal {cmd} (h : s.Lasts c x) : s.Lasts c (x.internal cmd).state := by
  unfold State.internal
  split <;> exact h

theorem runTaken {cmd via p} {own : State → Packet → List Byte → Done}
    (hown : ∀ y q ps, s.Lasts c y → s.Lasts c (own y q ps).state) (h : s.Lasts c x) : s.Lasts c (x.runTaken cmd via p own) := by
  unfold State.runTaken
  extract_lets s1
  have hs1 : s.Lasts c s1 := h.begin
  clear_value s1
  split
  · exact hs1.finish
  · refine .ite hs1.fragment (.ite hs1.continuation ?_)
    split
    next y ps e =>
    have hy : s.Lasts c y := of_fst e hs1.assembled
    refine .ite hy.finish ?_
    split
    · next e => exact (hy.admitCmd_error e).finish
    · next y' e =>
      have hy' : s.Lasts c y' := hy.admitCmd_ok e
      dsimp only
      refine .complete ?_
      split
      · exact hown _ _ _ hy'.nvmRead
      · exact hy'.nvmRead.internal

theorem runCmd {cmd p} {own : State → Packet → List Byte → Done}
    (hown : ∀ y q ps, s.Lasts c y → s.Lasts c (own y q ps).state) (h : s.Lasts c x) : s.Lasts c (x.runCmd cmd p own) := by
  unfold State.runCmd
  split
  · exact h
  · next e => exact .settle (.runTaken hown (h.take_eq e))

theorem outstDone {op status res} (h : s.Lasts c x) : s.Lasts c (x.outstDone op status res) := by
  unfold State.outstDone
  extract_lets mark src
  exact h.setMgmt

/-! ## FaultSteps -/

theorem execFaultReport {accs} (h : s.Lasts c x) : Ans.Lasts c s (Machine.execFaultReport accs x) :=
  .stepIf h h.checkAccesses.collect

theorem execWatchdogExpiry {isl} (h : s.Lasts c x) : Ans.Lasts c s (Machine.execWatchdogExpiry isl x) := by
  unfold Machine.execWatchdogExpiry
  extract_lets x1
  exact .stepIf h h.setIsl.report

theorem execClockOutOfLock {isl} (h : s.Lasts c x) : Ans.Lasts c s (Machine.execClockOutOfLock isl x) := by
  unfold Machine.execClockOutOfLock
  split
  · exact .stepIf h h.report
  · exact .stepIf h h.report
  · exact .stepIf h h.report
  · exact .next h

theorem execTempHigh (h : s.Lasts c x) : Ans.Lasts c s (Machine.execTempHigh x) := .stepIf h h.setEnergy.report

theorem execSupRail {rail} (h : s.Lasts c x) : Ans.Lasts c s (Machine.execSupRail rail x) := by
  unfold Machine.execSupRail
  extract_lets n src
  exact .stepIf h h.setEnergy.report

theorem execVioShort (h : s.Lasts c x) : Ans.Lasts c s (Machine.execVioShort x) := .stepIf h h.setEnergy.report

theorem endWindows (h : s.Lasts c x) : s.Lasts c x.endWindows := .foldl (fun _ _ hy => hy.carryOut) h

theorem autoAck {det} (h : s.Lasts c x) : s.Lasts c (x.autoAck det) := by
  unfold State.autoAck
  extract_lets hit os f f2 s1 s2
  have hs1 : s.Lasts c s1 := h.setFaults (by rw [Faults.ackLog_length])
  have hs2 : s.Lasts c s2 := .foldl (fun _ _ hy => hy.carryOut) hs1
  exact hs2.setFaults rfl

theorem hostAck {det} (h : s.Lasts c x) : s.Lasts c (x.hostAck det) := by
  unfold State.hostAck
  extract_lets hit os wasAlarm order clear f f2 s1 s2 s3
  have hs1 : s.Lasts c s1 := h.setFaults (by rw [Faults.showAlarms_length, Faults.ackLog_length])
  have hs2 : s.Lasts c s2 := .foldl (fun _ _ hy => hy.carryOut) hs1
  have hs3 : s.Lasts c s3 := hs2.setFaults rfl
  exact .ite hs3.settleAlarm hs3

theorem execAutoAck {det} (h : s.Lasts c x) : Ans.Lasts c s (Machine.execAutoAck det x) := .stepIf h h.postReq

theorem clearLog {scope} (h : s.Lasts c x) : s.Lasts c (x.clearLog scope) := by
  unfold State.clearLog
  extract_lets f s1
  have hs1 : s.Lasts c s1 := h.boundFaults fun hb => (List.length_filter_le ..).trans hb
  exact .ite (hs1.setNvm rfl) hs1

theorem takeAcks (h : s.Lasts c x) : s.Lasts c x.takeAcks := by
  unfold State.takeAcks
  extract_lets src t src2
  have ht : s.Lasts c t := .foldl (fun _ _ hy => .ite hy.hostAck hy.autoAck) (h.setFaults rfl)
  exact .foldl (fun _ _ hy => hy.clearLog) (ht.setFaults rfl)

theorem endCollect (h : s.Lasts c x) : s.Lasts c x.endCollect := h.endWindows.takeAcks

theorem execGraceExpiry (h : s.Lasts c x) : Ans.Lasts c s (Machine.execGraceExpiry x) := .stepIf h h.endCollect

theorem freeFaultN (h : s.Lasts c x) : s.Lasts c x.freeFaultN := .ite h.setPins h

theorem execFaultNRelease (h : s.Lasts c x) : Ans.Lasts c s (Machine.execFaultNRelease x) :=
  .stepIf h (.ite h.endCollect.freeFaultN h.endCollect)

theorem execSnapshotWrite (h : s.Lasts c x) : Ans.Lasts c s (Machine.execSnapshotWrite x) := by
  unfold Machine.execSnapshotWrite
  split
  · exact .next h
  · extract_lets n src src2
    exact .stepIf h (.setNvm (h.setFaults rfl) rfl)

theorem armDue (h : s.Lasts c x) : s.Lasts c x.armDue :=
  h.setFaults (foldl_keeps (f := fun (f : Faults) (r : BitVec 6 × Nat × Nat) => f.arm r.1 r.2.1) (p := fun f => f.log.length) (fun _ _ => rfl) _ _)

theorem execInjectionArm (h : s.Lasts c x) : Ans.Lasts c s (Machine.execInjectionArm x) := .stepIf h h.armDue

theorem execShadowEnd {isl holding} (h : s.Lasts c x) : Ans.Lasts c s (Machine.execShadowEnd isl holding x) := by
  unfold Machine.execShadowEnd
  extract_lets x1 due x' s' named again
  have hs' : s.Lasts c s' := h.setIsl.emitIsland
  exact .stepIf h (.foldl (fun _ _ hy => hy.report) hs')

/-! ## Spi -/

theorem spiEnd {f} (h : s.Lasts c x) : s.Lasts c (x.spiEnd f) := by
  unfold State.spiEnd
  extract_lets ok src s1 s2
  have hs1 : s.Lasts c s1 := h.setWin rfl
  have hs2 : s.Lasts c s2 := .ite hs1.count hs1
  exact .ite hs2.count hs2

theorem drive {bs n} (h : s.Lasts c x) : s.Lasts c (x.drive bs n) := h.setWin rfl

theorem driveWrite {n} (h : s.Lasts c x) : s.Lasts c (x.driveWrite n) := h.drive

theorem wordWrite {words} (h : s.Lasts c x) : s.Lasts c (x.wordWrite words) := h.driveWrite

theorem hostOwn {n own gen} (h : s.Lasts c x) : s.Lasts c (x.hostOwn n own gen).1 := by
  unfold State.hostOwn
  dsimp only
  split
  · exact h
  · split
    · exact h.setOwner
    · exact h

theorem islandOwn {n w} (h : s.Lasts c x) : s.Lasts c (x.islandOwn n w) := by
  unfold State.islandOwn
  split
  · exact h
  · exact .ite h.setOwner h

theorem ownCycle {n own gen others} (h : s.Lasts c x) : s.Lasts c (x.ownCycle n own gen others).1 :=
  .foldl (fun _ _ hy => hy.islandOwn) (State.Lasts.foldl (fun _ _ hy => hy.islandOwn) h).hostOwn

theorem turn {b on} (h : s.Lasts c x) : s.Lasts c (x.turn b on) := by
  unfold State.turn
  extract_lets rest src
  exact h.setWin rfl

theorem hostPost {w} (h : s.Lasts c x) : s.Lasts c (x.hostPost w).1 := by
  unfold State.hostPost
  extract_lets m n
  split_ifs
  · exact .emitMailbox (h.setWin rfl)
  · exact h.emitMailbox
  · exact h.setOwner.turn.postMb

theorem hostMb1Ack {v} (h : s.Lasts c x) : s.Lasts c (x.hostMb1Ack v).1 := by
  unfold State.hostMb1Ack
  extract_lets m code s1 s2
  have hs1 : s.Lasts c s1 := h.ackEffect
  have hs2 : s.Lasts c s2 := .ite hs1.setOwner.turn hs1
  split_ifs
  · exact h
  · exact hs2.postNext

theorem dbClear {ones} (h : s.Lasts c x) : s.Lasts c (x.dbClear ones) := h.setWin rfl

theorem lockRead {n who commit} (h : s.Lasts c x) : s.Lasts c (x.lockRead n who commit).1 := by
  unfold State.lockRead
  dsimp only
  split_ifs
  · exact h.setWin rfl
  · exact h

theorem islandLock {n who} (h : s.Lasts c x) : s.Lasts c (x.islandLock n who) := by
  unfold State.islandLock
  split
  · exact h
  · exact h.lockRead.setWin rfl

theorem lockCycle {n ask ps} (h : s.Lasts c x) : s.Lasts c (x.lockCycle n ask ps) :=
  .foldl (fun _ _ hy => hy.islandLock) h

theorem lockWrite {n who v} (h : s.Lasts c x) : s.Lasts c (x.lockWrite n who v).1 := by
  unfold State.lockWrite
  split_ifs
  · exact h.setWin rfl
  · exact h

theorem ackReadClear {commit} (h : s.Lasts c x) : s.Lasts c (x.ackReadClear commit) := .ite (h.setWin rfl) h

theorem readActions {a n commit} (h : s.Lasts c x) : s.Lasts c (x.readActions a n commit) := by
  unfold State.readActions
  extract_lets k covers s1 s2
  have hs1 : s.Lasts c s1 := .foldl (fun _ _ hy => .ite hy.lockRead hy) h
  have hs2 : s.Lasts c s2 := .ite hs1.ackReadClear hs1
  exact .ite (hs2.boundMeas fun hb => by simp [Meas.qDrop]; omega) hs2

theorem spiRead {a n len commit count} (h : s.Lasts c x) : s.Lasts c (x.spiRead a n len commit count) := by
  unfold State.spiRead
  extract_lets k bs data rsvd out s1
  have hs1 : s.Lasts c s1 := h.readActions
  exact hs1.drive.spiEnd

theorem spiReadRefused {cmd a n len f} (h : s.Lasts c x) : s.Lasts c (x.spiReadRefused cmd a n len f) := h.drive.spiEnd

theorem writeWord {a v} (h : s.Lasts c x) : s.Lasts c (x.writeWord a v).1 := by
  unfold State.writeWord
  refine .fst_ite ?_ (.fst_ite (h.setWin (Window.setMb_mem ..))
    (.fst_ite h.hostMb1Ack (.fst_ite h (.fst_ite (h.setWin rfl) (.fst_ite ?_ h)))))
  · rcases e : x.hostOwn _ _ _ with ⟨y, ok⟩
    exact .of_fst e h.hostOwn
  · rcases e : x.lockWrite _ _ _ with ⟨y, ok⟩
    exact .of_fst e h.lockWrite

theorem writeWords {n a bs} (h : s.Lasts c x) : s.Lasts c (State.writeWords n x a bs).1 := by
  induction n generalizing x a bs with
  | zero => exact h
  | succ n ih =>
    unfold State.writeWords
    split_ifs
    · exact ih h.hostPost
    · exact ih h
    · exact ih h.writeWord

theorem spiWrite {a bs} (h : s.Lasts c x) : s.Lasts c (x.spiWrite a bs) := by
  unfold State.spiWrite
  extract_lets n half inWin s1 ra regs s2
  have hs1 : s.Lasts c s1 := .ite h.winWrite h
  have hs2 : s.Lasts c s2 := .ite hs1.dbClear hs1
  exact .ite h.spiEnd (.ite h.count.spiEnd hs2.writeWords.spiEnd)

theorem spiTransaction {bytes whole} (h : s.Lasts c x) : s.Lasts c (x.spiTransaction bytes whole) := by
  unfold State.spiTransaction
  split
  · exact h.drive.spiEnd
  · extract_lets n a rsvdBits s1 crcBad count data
    have hs1 : s.Lasts c s1 := h.driveWrite
    exact .ite (.ite hs1.spiEnd (.ite hs1.spiEnd hs1.spiWrite)) (.ite h.driveWrite.spiEnd (.ite h.spiReadRefused (.ite h.spiReadRefused h.spiRead)))

theorem execSpiWrite {bytes whole} (h : s.Lasts c x) : Ans.Lasts c s (Machine.execSpiWrite bytes whole x) :=
  .stepIf h h.spiTransaction

theorem execBufferClaim {n ask} (h : s.Lasts c x) : Ans.Lasts c s (Machine.execBufferClaim n ask x) := by
  unfold Machine.execBufferClaim
  split
  · rename_i a1_0 a1_1 a1_2 a1_3
    have h1_0 := of_fst a1_3 (h.wordWrite.ownCycle)
    exact .stepIf h h1_0.spiEnd

theorem execBufferRelease {n ask} (h : s.Lasts c x) : Ans.Lasts c s (Machine.execBufferRelease n ask x) := by
  unfold Machine.execBufferRelease
  split
  · rename_i a1_0 a1_1 a1_2 a1_3
    have h1_0 := of_fst a1_3 (h.wordWrite.ownCycle)
    exact .stepIf h h1_0.spiEnd

theorem execMb0Post {notice} (h : s.Lasts c x) : Ans.Lasts c s (Machine.execMb0Post notice x) := by
  unfold Machine.execMb0Post
  split
  · rename_i a1_0 a1_1 a1_2 a1_3
    have h1_0 := of_fst a1_3 (h.wordWrite.hostPost)
    exact .stepIf h h1_0.spiEnd

theorem execMb1AckAccepted (h : s.Lasts c x) : Ans.Lasts c s (Machine.execMb1AckAccepted x) := by
  unfold Machine.execMb1AckAccepted
  split
  · rename_i a1_0 a1_1 a1_2 a1_3
    have h1_0 := of_fst a1_3 (h.wordWrite.hostMb1Ack)
    exact .stepIf h h1_0.spiEnd

theorem execMb1AckBadNotice (h : s.Lasts c x) : Ans.Lasts c s (Machine.execMb1AckBadNotice x) := by
  unfold Machine.execMb1AckBadNotice
  split
  · rename_i a1_0 a1_1 a1_2 a1_3
    have h1_0 := of_fst a1_3 (h.wordWrite.hostMb1Ack)
    exact .stepIf h h1_0.spiEnd

theorem execMb0AckRead {commit} (h : s.Lasts c x) : Ans.Lasts c s (Machine.execMb0AckRead commit x) := .stepIf h h.spiRead

theorem execDoorbellClear {ones} (h : s.Lasts c x) : Ans.Lasts c s (Machine.execDoorbellClear ones x) :=
  .stepIf h h.wordWrite.dbClear.spiEnd

theorem execLockAcquire {n ask commit} (h : s.Lasts c x) : Ans.Lasts c s (Machine.execLockAcquire n ask commit x) := by
  unfold Machine.execLockAcquire
  extract_lets k t taken u src
  have ht : s.Lasts c t := h.lockCycle
  have hu : s.Lasts c u := ht.spiRead
  exact .ite (.next (.ite hu (.ite (hu.setWin rfl) hu.islandLock))) (.stepIf h ht.lockCycle)

theorem execLockRelease {n who value} (h : s.Lasts c x) : Ans.Lasts c s (Machine.execLockRelease n who value x) := by
  unfold Machine.execLockRelease
  dsimp only
  have ht : s.Lasts c (x.lockWrite n.val who value).1 := h.lockWrite
  split
  · exact .stepIf h ht.drive.spiEnd
  · exact .stepIf h ht

theorem execQueueRead {addr len commit} (h : s.Lasts c x) : Ans.Lasts c s (Machine.execQueueRead addr len commit x) := by
  unfold Machine.execQueueRead
  extract_lets a ok
  exact .stepIf h (.ite h.spiReadRefused h.spiRead)

/-! ## Mail -/

theorem takeNotice {k sender} (h : s.Lasts c x) : s.Lasts c (x.takeNotice k sender) := by
  unfold State.takeNotice
  extract_lets m ack b len s1 q s2 src
  have hs1 : s.Lasts c s1 := h.takeReq
  have hs2 : s.Lasts c s2 := h.takeReq
  exact .ite h.takeReq (.ite (.ite hs1.setOwner hs1.setOwner) hs2.setMgmt.settle)

theorem execMb0NoticeConsume (h : s.Lasts c x) : Ans.Lasts c s (Machine.execMb0NoticeConsume x) := by
  unfold Machine.execMb0NoticeConsume
  extract_lets room
  exact .ite (.stepIf h h.takeNotice) (.stepIf h h.takeNotice)

theorem postFailed {w} (h : s.Lasts c x) : s.Lasts c (x.postFailed w) := by
  unfold State.postFailed
  extract_lets s1
  have hs1 : s.Lasts c s1 := h.freeBuf
  split
  · exact hs1
  · extract_lets x1 bytes
    split
    · exact hs1.setFab

theorem postMb2 (h : s.Lasts c x) : s.Lasts c x.postMb2 := by
  unfold State.postMb2
  split
  · exact h
  · extract_lets src t src2 t2
    have ht : s.Lasts c t := h.setFab
    have ht2 : s.Lasts c t2 := .ite ht.setFab ht
    exact .ite h (.ite ht.postFailed (.ite h ht2.postMb))

theorem afterAck {k} (h : s.Lasts c x) : s.Lasts c (x.afterAck k) := .ite h.postMb2 h.postWaiting

theorem execMbAcknowledge {mb} (h : s.Lasts c x) : Ans.Lasts c s (Machine.execMbAcknowledge mb x) := by
  unfold Machine.execMbAcknowledge
  split
  · exact .stepIf h h.ackEffect.afterAck
  · exact .next h

theorem lateAcks (h : s.Lasts c x) : s.Lasts c x.lateAcks := by
  unfold State.lateAcks
  refine .foldl (fun y a hy => ?_) ?_
  · split
    · exact .ite hy.ackEffect.afterAck hy
    · exact hy
  · exact h

theorem execMbTimeout {mb} (h : s.Lasts c x) : Ans.Lasts c s (Machine.execMbTimeout mb x) := by
  unfold Machine.execMbTimeout
  extract_lets k m due t src t2 t3
  have ht : s.Lasts c t := h.ackEffect
  have ht2 : s.Lasts c t2 := ht.setWin rfl
  have ht3 : s.Lasts c t3 := .ite ht2.setOwner.ring ht2
  exact .stepIf h ht3.count

theorem execCross {pair} (h : s.Lasts c x) : Ans.Lasts c s (Machine.execCross pair x) := by
  unfold Machine.execCross
  extract_lets p due both src w src2 w2 t t2 t3
  have ht : s.Lasts c t := h.setWin rfl
  have ht2 : s.Lasts c t2 := ht.report
  have ht3 : s.Lasts c t3 := .ite ht2.ring ht2
  exact .stepIf h ht3

theorem execCommandFragment {op p} (h : s.Lasts c x) : Ans.Lasts c s (Machine.execCommandFragment op p x) := by
  unfold Machine.execCommandFragment
  refine .ite ?_ (.next h)
  split
  · exact .next h
  · next t via e =>
    have ht : s.Lasts c (t.begin op.toNat p) := (h.take_eq e).begin
    refine .next (.settle ?_)
    split
    · exact ht.finish
    · exact ht.fragment

theorem execContinuationRead {op p} (h : s.Lasts c x) : Ans.Lasts c s (Machine.execContinuationRead op p x) := by
  unfold Machine.execContinuationRead
  refine .ite ?_ (.next h)
  split
  · exact .next h
  · next t via e =>
    have ht : s.Lasts c t := h.take_eq e
    refine .next (.settle ?_)
    split
    · exact ht.finish
    · exact ht.continuation

theorem execAssemblyDiscard {src} (h : s.Lasts c x) : Ans.Lasts c s (Machine.execAssemblyDiscard src x) := .next h.setMgmt

theorem execOutstandingCompletion {op} (h : s.Lasts c x) : Ans.Lasts c s (Machine.execOutstandingCompletion op x) := by
  unfold Machine.execOutstandingCompletion
  split
  · extract_lets src t
    have ht : s.Lasts c t := h.setMgmt
    split
    · exact .stepIf h ht.unreserve.finish.settle
  · exact .next h

theorem execIslandRequestTimeout {op} (h : s.Lasts c x) : Ans.Lasts c s (Machine.execIslandRequestTimeout op x) := by
  unfold Machine.execIslandRequestTimeout
  split
  · extract_lets t src t2
    have ht : s.Lasts c t := h.withdrawReq
    have ht2 : s.Lasts c t2 := ht.setMgmt
    exact .stepIf h ht2.unreserve.finish.settle
  · exact .next h

/-! ## Device -/

theorem runIdentify {cmd p} (h : s.Lasts c x) : s.Lasts c (x.runIdentify cmd p) := .runCmd (fun _ _ _ hy => hy) h

theorem clearOverrun (h : s.Lasts c x) : s.Lasts c x.clearOverrun := h.setMeas rfl

theorem runStatus {cmd p} (h : s.Lasts c x) : s.Lasts c (x.runStatus cmd p) := .runCmd (fun _ _ _ hy => hy.clearOverrun) h

theorem execDevIdentify {p} (h : s.Lasts c x) : Ans.Lasts c s (Machine.execDevIdentify p x) := .next h.runIdentify

theorem execDevStatus {p} (h : s.Lasts c x) : Ans.Lasts c s (Machine.execDevStatus p x) := .next h.runStatus

theorem execDevResetIsland {p} (h : s.Lasts c x) : Ans.Lasts c s (Machine.execDevResetIsland p x) := by
  unfold Machine.execDevResetIsland
  refine .next ?_
  refine .runCmd (fun y q ps hy => ?_) h
  split
  · exact hy
  · split
    · exact hy
    · exact hy
    · exact hy
    · exact hy.postReq

theorem execFltReadLog {p} (h : s.Lasts c x) : Ans.Lasts c s (Machine.execFltReadLog p x) := by
  unfold Machine.execFltReadLog
  extract_lets src c1
  refine .next ?_
  refine .runCmd (fun y q ps hy => ?_) h
  extract_lets src first n held
  exact .iteDone hy hy

theorem execFltAck {p} (h : s.Lasts c x) : Ans.Lasts c s (Machine.execFltAck p x) := by
  unfold Machine.execFltAck
  refine .next ?_
  refine .runCmd (fun y q ps hy => ?_) h
  extract_lets d
  exact .iteDone hy hy.postReq

theorem execFltInject {p} (h : s.Lasts c x) : Ans.Lasts c s (Machine.execFltInject p x) := by
  unfold Machine.execFltInject
  extract_lets src c1
  refine .next ?_
  refine .runCmd (fun y q ps hy => ?_) h
  extract_lets d n inj
  exact .iteDone hy hy.postReq

theorem execFltClear {p} (h : s.Lasts c x) : Ans.Lasts c s (Machine.execFltClear p x) := by
  unfold Machine.execFltClear
  extract_lets src c1
  refine .next ?_
  refine .runCmd (fun y q ps hy => ?_) h
  extract_lets scope
  exact .iteDone hy hy.postReq

theorem execObsCounters {p} (h : s.Lasts c x) : Ans.Lasts c s (Machine.execObsCounters p x) := by
  unfold Machine.execObsCounters
  refine .next ?_
  refine .runCmd (fun y q ps hy => ?_) h
  extract_lets first n
  exact .iteDone hy hy

theorem execObsTraceSelect {p} (h : s.Lasts c x) : Ans.Lasts c s (Machine.execObsTraceSelect p x) := by
  unfold Machine.execObsTraceSelect
  refine .next ?_
  refine .runCmd (fun y q ps hy => ?_) h
  extract_lets v old m src
  exact .iteDone hy hy.setObs.postReq

theorem execObsEnergy {p} (h : s.Lasts c x) : Ans.Lasts c s (Machine.execObsEnergy p x) := by
  unfold Machine.execObsEnergy
  refine .next ?_
  refine .runCmd (fun y q ps hy => ?_) h
  extract_lets e
  exact hy

/-! ## Almanac -/

theorem failRecord {field map apply} (h : s.Lasts c x) : s.Lasts c (x.failRecord field map apply).1 := by
  unfold State.failRecord
  dsimp only
  split
  · exact h.draw (w := 32)
  · exact ((h.draw (w := 32)).draw (w := 208)).draw (w := 32)

theorem postTokens {map} (h : s.Lasts c x) : s.Lasts c (x.postTokens map) := by
  unfold State.postTokens
  extract_lets m c1 put
  exact h.setMgmt

theorem writeEntries_eq {es y} (h : s.Lasts c x) (e : x.writeEntries es = .ok y) : s.Lasts c y := by
  unfold State.writeEntries at e
  dsimp only at e
  split at e
  · cases e
  · cases e; exact h.setMgmt

theorem clearDup (h : s.Lasts c x) : s.Lasts c x.clearDup := h.setFab

theorem execAlmWrite {p} (h : s.Lasts c x) : Ans.Lasts c s (Machine.execAlmWrite p x) := by
  refine .next (.runCmd (fun y q ps hy => ?_) h)
  refine .iteDone hy (.iteDone hy (.iteDone hy ?_))
  split
  · exact hy
  · next e => exact .ite (hy.writeEntries_eq e).clearDup (hy.writeEntries_eq e)

theorem execAlmRead {p} (h : s.Lasts c x) : Ans.Lasts c s (Machine.execAlmRead p x) := by
  unfold Machine.execAlmRead
  refine .next ?_
  refine .runCmd (fun y q ps hy => ?_) h
  extract_lets copy n ids a
  exact .iteDone hy hy

theorem execAlmCheck {p} (h : s.Lasts c x) : Ans.Lasts c s (Machine.execAlmCheck p x) := by
  unfold Machine.execAlmCheck
  refine .next ?_
  refine .runCmd (fun y q ps hy => ?_) h
  split
  · split
    · rename_i a1_0 a1_1 a1_2 a1_3
      have h1_0 := of_fst a1_3 (hy.failRecord)
      exact h1_0
  · exact hy

theorem commitShadow {m fs} (h : s.Lasts c x) : s.Lasts c (x.commitShadow m fs) := by
  unfold State.commitShadow
  extract_lets src s1 src2
  have hs1 : s.Lasts c s1 := h.setMgmt
  exact hs1.setEnergy.postTokens

theorem execAlmApply {p} (h : s.Lasts c x) : Ans.Lasts c s (Machine.execAlmApply p x) := by
  unfold Machine.execAlmApply
  extract_lets src c1
  refine .next ?_
  refine .runCmd (fun y q ps hy => ?_) h
  split
  · exact hy
  · split
    · split
      · rename_i a1_0 a1_1 a1_2 a1_3
        have h1_0 := of_fst a1_3 (hy.failRecord)
        exact h1_0
    · extract_lets rec_
      exact hy.commitShadow

theorem almSave {p} (h : s.Lasts c x) : s.Lasts c (x.almSave p).1 := by
  unfold State.almSave
  split
  · exact h
  · refine h.setNvm ?_
    unfold Nvm.saveAlm
    dsimp only
    split <;> rfl

theorem execAlmSave {p} (h : s.Lasts c x) : Ans.Lasts c s (Machine.execAlmSave p x) := by
  unfold Machine.execAlmSave
  extract_lets src c1
  refine .next ?_
  refine .runCmd (fun y q ps hy => ?_) h
  split
  · rename_i a1_0 a1_1 a1_2 a1_3 a1_4
    have h1_0 := of_fst a1_4 (hy.almSave)
    exact h1_0

theorem execQueueBind {p} (h : s.Lasts c x) : Ans.Lasts c s (Machine.execQueueBind p x) := by
  unfold Machine.execQueueBind
  extract_lets src c1
  refine .next ?_
  refine .runCmd (fun y q ps hy => ?_) h
  extract_lets k fs m
  exact .iteDone hy (.iteDone hy hy.setMgmt)

/-! ## Sequence -/

theorem trigger {q} (h : s.Lasts c x) : s.Lasts c (x.trigger q).1 := by
  unfold State.trigger
  extract_lets m fresh
  have hfresh : s.Lasts c fresh.1 := by
    unfold fresh
    dsimp only
    split
    · exact .emitSeq (.count (h.setMeas rfl))
    · exact .emitSeq (h.setMeas rfl)
  clear_value fresh
  split
  · split
    · exact h
    · exact hfresh
  · exact hfresh

theorem discardTriggers {q} (h : s.Lasts c x) : s.Lasts c (x.discardTriggers q) := by
  unfold State.discardTriggers
  extract_lets m x1
  split
  · exact .count (h.setMeas rfl)
  · exact .count (h.setMeas rfl)
  · exact h

theorem seqStart {ps} (h : s.Lasts c x) : s.Lasts c (x.seqStart ps).state := by
  unfold State.seqStart
  dsimp only
  split_ifs
  · exact h
  · exact h
  · exact h.postReq

theorem seqStop {ps} (h : s.Lasts c x) : s.Lasts c (x.seqStop ps).state := by
  unfold State.seqStop
  split_ifs
  · exact h
  · exact h.postReq

theorem seqTrigger {ps} (h : s.Lasts c x) : s.Lasts c (x.seqTrigger ps).state := by
  unfold State.seqTrigger
  split_ifs
  · exact h
  · exact h.postReq

theorem execSeqStart {p} (h : s.Lasts c x) : Ans.Lasts c s (Machine.execSeqStart p x) :=
  .next (.runCmd (fun _ _ _ hy => hy.seqStart) h)

theorem execSeqStop {p} (h : s.Lasts c x) : Ans.Lasts c s (Machine.execSeqStop p x) :=
  .next (.runCmd (fun _ _ _ hy => hy.seqStop) h)

theorem execSeqTrigger {p} (h : s.Lasts c x) : Ans.Lasts c s (Machine.execSeqTrigger p x) :=
  .next (.runCmd (fun _ _ _ hy => hy.seqTrigger) h)

theorem execGpioTrigger {pin} (h : s.Lasts c x) : Ans.Lasts c s (Machine.execGpioTrigger pin x) := by
  unfold Machine.execGpioTrigger
  extract_lets a qs used
  exact .stepIf h (.foldl (fun _ _ hy => hy.trigger) h.setPins)

/-! ## Security -/

theorem setDir {i d} (h : s.Lasts c x) : s.Lasts c (x.setDir i d) := h.setNvm rfl

theorem setInactiveMem {i m} (h : s.Lasts c x) (hm : x.imagesOk → Memory.wf m = true) : s.Lasts c (x.setInactiveMem i m) := by
  have put (q : Quad (List Host.Cell)) (hq : ∀ j, Memory.wf (q.at j) = true) (hw : Memory.wf m = true) (j : Island) :
      Memory.wf ((q.put i m).at j) = true := by
    by_cases e : j = i
    · rw [e, Quad.at_put_same]; exact hw
    · rw [Quad.at_put_ne _ _ e]; exact hq j
  unfold State.setInactiveMem
  split
  · exact h.trans { State.Lasts.refl x with images := fun k j => ⟨put _ (fun j => (k j).1) (hm k) j, (k j).2⟩ }
  · exact h.trans { State.Lasts.refl x with images := fun k j => ⟨(k j).1, put _ (fun j => (k j).2) (hm k) j⟩ }

theorem capture {a} (h : s.Lasts c x) : s.Lasts c (x.capture a) := (h.draw (w := 256)).setMgmt

theorem attestTick (h : s.Lasts c x) : s.Lasts c x.attestTick := by
  unfold State.attestTick
  split
  · exact h
  · split
    · exact h
    · split
      · exact .ite h.capture h
      · extract_lets n src
        exact .ite h.setMgmt.outstDone h.setMgmt

theorem execSecAttest {p} (h : s.Lasts c x) : Ans.Lasts c s (Machine.execSecAttest p x) := by
  unfold Machine.execSecAttest
  extract_lets src c1
  exact .next (.runCmd (fun _ _ _ hy => hy.setMgmt) h)

theorem execSecCertRead {p} (h : s.Lasts c x) : Ans.Lasts c s (Machine.execSecCertRead p x) :=
  .next (.runCmd (fun _ _ _ hy => hy) h)

theorem execSecGrant {p} (h : s.Lasts c x) : Ans.Lasts c s (Machine.execSecGrant p x) := by
  unfold Machine.execSecGrant
  extract_lets src c1
  refine .next ?_
  refine .runCmd (fun y q ps hy => ?_) h
  split
  · exact hy
  · split
    · exact hy
    · extract_lets g src2
      exact .iteDone hy (hy.setMgmt.setNvm rfl)

theorem execUpdBegin {p} (h : s.Lasts c x) : Ans.Lasts c s (Machine.execUpdBegin p x) := by
  unfold Machine.execUpdBegin
  extract_lets src c1
  refine .next ?_
  refine .runCmd (fun y q ps hy => ?_) h
  extract_lets len ver n
  split
  · exact hy
  · split
    · exact hy
    · split
      · exact hy
      · split
        · split
          · exact hy
          · extract_lets d s1 src2 s2
            have hs1 : s.Lasts c s1 := hy.setDir
            have hs2 : s.Lasts c s2 := hs1.setMgmt
            exact hs2
        · split
          · exact hy
          · extract_lets d s1 src2 s2
            have hs1 : s.Lasts c s1 := hy.setDir
            have hs2 : s.Lasts c s2 := hs1.setMgmt
            exact hs2

theorem execUpdChunk {p} (h : s.Lasts c x) : Ans.Lasts c s (Machine.execUpdChunk p x) := by
  refine .next (.runCmd (fun y q ps hy => ?_) h)
  split
  · exact hy
  · refine .iteDone hy (.iteDone hy (.iteDone hy ?_))
    refine .setMgmt (.setNvm (hy.setInactiveMem fun himg => ?_) rfl)
    exact foldl_cellWrite_wf _ (inactiveMem_wf himg _)

theorem execUpdVerify {p} (h : s.Lasts c x) : Ans.Lasts c s (Machine.execUpdVerify p x) := by
  unfold Machine.execUpdVerify
  extract_lets src c1
  refine .next ?_
  refine .runCmd (fun y q ps hy => ?_) h
  split
  · exact hy
  · split
    · exact hy
    · extract_lets own foreign st ready h1 src2
      split
      · exact hy
      · split
        · exact hy
        · exact hy.setMgmt

theorem execUpdActivate {p} (h : s.Lasts c x) : Ans.Lasts c s (Machine.execUpdActivate p x) := by
  unfold Machine.execUpdActivate
  extract_lets src c1
  refine .next ?_
  refine .runCmd (fun y q ps hy => ?_) h
  extract_lets x1 now x'
  split
  · exact hy
  · split
    · exact hy
    · split
      · exact hy
      · split
        · exact hy
        · split
          · exact hy
          · extract_lets d h1 info src2 s1 src3 s2 src4 s3 s4
            have hs1 : s.Lasts c s1 := hy.setDir
            have hs2 : s.Lasts c s2 := hs1.setMgmt
            have hs3 : s.Lasts c s3 := .ite hs2 hs2.setEnergy
            have hs4 : s.Lasts c s4 := hs3.postReq
            exact .iteDone hs4 hs4

theorem execUpdVersionInfo {p} (h : s.Lasts c x) : Ans.Lasts c s (Machine.execUpdVersionInfo p x) := by
  unfold Machine.execUpdVersionInfo
  refine .next ?_
  refine .runCmd (fun y q ps hy => ?_) h
  extract_lets one
  exact hy

theorem execActivation {isl} (h : s.Lasts c x) : Ans.Lasts c s (Machine.execActivation isl x) := by
  unfold Machine.execActivation
  extract_lets d x1 due sameBoundary onTime free src src2 d' t late src3 t2 src4 t3
  have ht : s.Lasts c t := h.setDir.setIsl.emitIsland
  have ht2 : s.Lasts c t2 := ht.setMgmt
  have ht3 : s.Lasts c t3 := .ite (ht2.same rfl) ht2
  exact .stepIf h ht3.assertReset

theorem releaseCommit {i} (h : s.Lasts c x) : s.Lasts c (x.releaseCommit i) := h.setEnergy

theorem execTrialCommit {isl} (h : s.Lasts c x) : Ans.Lasts c s (Machine.execTrialCommit isl x) := by
  unfold Machine.execTrialCommit
  extract_lets d y slot t1 n t2
  have ht1 : s.Lasts c t1 := h.setDir
  have ht2 : s.Lasts c t2 := ht1.raiseFuse le_rfl
  exact .stepIf h ht2.emitIsland.releaseCommit

theorem unverify {i} (h : s.Lasts c x) : s.Lasts c (x.unverify i) := h.setMgmt

theorem execTrialRevert {isl} (h : s.Lasts c x) : Ans.Lasts c s (Machine.execTrialRevert isl x) := by
  unfold Machine.execTrialRevert
  extract_lets d x1 faultReset late src src2 d' t
  have ht : s.Lasts c t := h.setDir.setIsl
  exact .stepIf h ht.count.emitIsland.releaseCommit.unverify

theorem execUpdSessionTimeout (h : s.Lasts c x) : Ans.Lasts c s (Machine.execUpdSessionTimeout x) := by
  unfold Machine.execUpdSessionTimeout
  split
  · exact .stepIf h h.setMgmt
  · exact .next h

theorem execOemDigestFuse {digest auth} (h : s.Lasts c x) : Ans.Lasts c s (Machine.execOemDigestFuse digest auth x) := by
  refine .next ?_
  split
  · next hok =>
    have hnone : x.nvm.oem = none := by
      simp only [Bool.and_eq_true, Option.isNone_iff_eq_none] at hok
      exact hok.1.1.2
    exact h.trans { State.Lasts.refl (c := c) x with oem := fun hn => absurd hnone hn }
  · exact h

/-! ## Convert -/

theorem takeConv {p c' gain} (h : s.Lasts c x) : s.Lasts c (x.takeConv p c' gain) := by
  unfold State.takeConv
  extract_lets m x1 x2 src
  exact h.setMeas rfl

theorem execCalibrationConversion {sl c'} (h : s.Lasts c x) : Ans.Lasts c s (Machine.execCalibrationConversion sl c' x) := by
  unfold Machine.execCalibrationConversion
  split
  · refine .stepIf h ?_
    extract_lets t src
    have ht : s.Lasts c t := h.takeConv
    exact ht.setMeas rfl
  · exact .next h

theorem execBreakCheck {sl c'} (h : s.Lasts c x) : Ans.Lasts c s (Machine.execBreakCheck sl c' x) := by
  unfold Machine.execBreakCheck
  split
  · split
    · extract_lets k2
      split
      · exact .stepIf h (.takeConv (h.setMeas rfl))
    · exact .next h
  · exact .next h

theorem sarCheck {sl nth c'} (h : s.Lasts c x) : s.Lasts c (x.sarCheck sl nth c') := by
  unfold State.sarCheck
  split
  · extract_lets x1 x2
    exact .count (h.setMeas rfl)
  · exact h

theorem calOffGain {sl tick p n} (h : s.Lasts c x) : s.Lasts c (x.calOffGain sl tick p n) := by
  unfold State.calOffGain
  extract_lets mOff mGain x1 y y2
  split
  · exact .ite (.emitSlice (h.setMeas rfl)) (.emitSlice (.count (h.setMeas rfl)))

theorem calSkew {sl tick u' d} (h : s.Lasts c x) : s.Lasts c (x.calSkew sl tick u' d) := by
  unfold State.calSkew
  extract_lets k x1 y y2
  exact .ite (.emitSlice (h.setMeas rfl)) (.emitSlice (.count (h.setMeas rfl)))

theorem calibrate {sl tick cv} (h : s.Lasts c x) : s.Lasts c (x.calibrate sl tick cv) := by
  unfold State.calibrate
  extract_lets v y put s'
  have hput (z : Slice) : s.Lasts c (put z) := h.setMeas rfl
  have hs' : s.Lasts c s' := by
    unfold s'
    clear_value put
    split_ifs
    · exact hput _
    · split
      · exact (hput _).calOffGain
      · exact hput _
    · exact hput _
    · split
      · exact (hput _).calSkew
      · exact hput _
  exact hs'.setMeas rfl

theorem feedChan {ch f} (h : s.Lasts c x) : s.Lasts c (x.feedChan ch f) := by
  unfold State.feedChan
  extract_lets m a
  split
  · split
    · exact h.setMeas rfl
    · extract_lets r2 src
      exact h.setMeas rfl

theorem enter {p ch half idx r reused} (h : s.Lasts c x) : s.Lasts c (x.enter p ch half idx r reused) := by
  unfold State.enter
  extract_lets a c1 c2 s1 f s2
  have hs1 : s.Lasts c s1 := h.setMeas rfl
  have hs2 : s.Lasts c s2 := hs1.setMeas rfl
  split
  · split
    · exact hs1.setMeas rfl
    · split
      · split
        · extract_lets ovr
          exact hs2.feedChan
  · split
    · split
      · extract_lets e es s3
        have hs3 : s.Lasts c s3 := hs1.setMeas rfl
        split
        · exact hs3
        · exact hs3.feedChan
    · exact hs1.feedChan

theorem correctOne {p} (h : s.Lasts c x) : s.Lasts c (x.correctOne p) := by
  unfold State.correctOne
  split
  · split
    · exact h.sarCheck.enter
  · exact h.enter
  · split
    · extract_lets s1
      have hs1 : s.Lasts c s1 := h.sarCheck
      exact hs1.setMeas rfl
  · exact h.sarCheck.calibrate
  · exact h

theorem commit {e} (h : s.Lasts c x) : s.Lasts c (x.commit e) := by
  unfold State.commit
  extract_lets m m'
  split
  · next hlt =>
    refine .emitResult (h.boundMeas fun _ => ?_)
    show (m.queue ++ [e]).length ≤ 512
    rw [List.length_append]
    exact hlt
  · exact .emitResult (.count (h.setMeas rfl))

theorem commitAll {es} (h : s.Lasts c x) : s.Lasts c (x.commitAll es) := .foldl (fun _ _ hy => hy.commit) h

theorem correct (h : s.Lasts c x) : s.Lasts c x.correct := by
  unfold State.correct
  extract_lets old ps src s1 s2 new due src2 s3
  have hs1 : s.Lasts c s1 := h.setMeas rfl
  have hs2 : s.Lasts c s2 := .foldl (fun _ _ hy => hy.correctOne) hs1
  have hs3 : s.Lasts c s3 := hs2.setMeas rfl
  exact hs3.commitAll

theorem execRawSampleCorrection (h : s.Lasts c x) : Ans.Lasts c s (Machine.execRawSampleCorrection x) := .stepIf h h.correct

theorem freshen {ch} (h : s.Lasts c x) : s.Lasts c (x.freshen ch) := by
  unfold State.freshen
  split
  · extract_lets s1
    have hs1 : s.Lasts c s1 := h.correct
    exact hs1.setMeas rfl
  · exact h

theorem execSlotConversion {sl c'} (h : s.Lasts c x) : Ans.Lasts c s (Machine.execSlotConversion sl c' x) := by
  unfold Machine.execSlotConversion
  split
  · split
    · extract_lets s1
      have hs1 : s.Lasts c s1 := h.freshen
      split
      · extract_lets m
        exact .next (.takeConv (hs1.setMeas rfl))
    · exact .next h
  · exact .next h

theorem failSlice {sl cause} (h : s.Lasts c x) : s.Lasts c (x.failSlice sl cause) := by
  unfold State.failSlice
  extract_lets m first sl0 y m2 m3 n s1
  have hm3 : m3.queue = x.meas.queue := by unfold m3; split <;> rfl
  have hs1 : s.Lasts c s1 := .setNvm (h.setMeas (by rw [hm3])) rfl
  exact hs1.report.emitSlice

theorem execSliceCheckFail {sl} (h : s.Lasts c x) : Ans.Lasts c s (Machine.execSliceCheckFail sl x) := by
  unfold Machine.execSliceCheckFail
  split
  · exact .stepIf h h.failSlice
  · exact .next h

/-! ## Streams -/

theorem handOver {k} (h : s.Lasts c x) : s.Lasts c (x.handOver k) := by
  unfold State.handOver
  extract_lets x1
  split
  · exact h
  · extract_lets s1 s2 src
    have hs1 : s.Lasts c s1 := h.devWrite
    have hs2 : s.Lasts c s2 := hs1.setMgmt
    exact .ite hs2.setFab hs2.setOwner.ring

theorem openBuffer {k e} (h : s.Lasts c x) : s.Lasts c (x.openBuffer k e) := by
  unfold State.openBuffer
  extract_lets x1 r fs at_ b
  exact .ite h.setOwner.setMgmt h.setMgmt

theorem fileInto {k e} (h : s.Lasts c x) : s.Lasts c (x.fileInto k e) := by
  unfold State.fileInto
  extract_lets x1 s1
  have hs1 : s.Lasts c s1 := h.setMgmt
  split
  · exact h.openBuffer
  · exact .ite h.handOver.openBuffer (.ite hs1 hs1.handOver)

theorem fileEntry {e} (h : s.Lasts c x) : s.Lasts c (x.fileEntry e) := by
  unfold State.fileEntry
  split
  · exact h.count
  · exact h.fileInto

theorem passDrain (h : s.Lasts c x) : s.Lasts c x.passDrain :=
  .setMgmt (h.boundMeas fun hb => by simp [Meas.qDrop]; omega)

theorem tapDrain (h : s.Lasts c x) : s.Lasts c x.tapDrain := by
  unfold State.tapDrain
  extract_lets src s1 src2
  have hs1 : s.Lasts c s1 := by
    unfold s1
    split
    · exact .ite (h.ring.setMeas rfl) h
    · exact h
  split
  · split
    · exact hs1.setMgmt
    · exact .foldl (fun _ _ hy => hy.fileEntry) hs1.passDrain
  · exact hs1

theorem execTapDrain (h : s.Lasts c x) : Ans.Lasts c s (Machine.execTapDrain x) := .stepIf h h.tapDrain

theorem execStreamFlush {st} (h : s.Lasts c x) : Ans.Lasts c s (Machine.execStreamFlush st x) := by
  unfold Machine.execStreamFlush
  extract_lets x1
  exact .stepIf h h.handOver

theorem takeStreams (h : s.Lasts c x) : s.Lasts c x.takeStreams := by
  unfold State.takeStreams
  extract_lets old new changed s1 src
  have hs1 : s.Lasts c s1 := .foldl (fun _ _ hy => .ite hy.handOver hy) h.tapDrain
  exact .ite h hs1.setMgmt

/-! ## Notices -/

theorem gotReq {op} (h : s.Lasts c x) : s.Lasts c (x.gotReq op) := by
  unfold State.gotReq
  split
  · exact h
  · exact h.setMgmt

theorem measEvent {op lag status res} (h : s.Lasts c x) : s.Lasts c (x.measEvent op lag status res) := by
  unfold State.measEvent
  refine .foldl (fun y a hy => ?_) ?_
  · split
    · exact hy.postReq
  · exact h

theorem loopEvent {op status res} (h : s.Lasts c x) : s.Lasts c (x.loopEvent op status res) := h.setMgmt

theorem loopReq {a} (h : s.Lasts c x) : s.Lasts c (x.loopReq a) := by
  unfold State.loopReq
  split
  · split
    · exact h.gotReply
    · exact h
  · exact h.gotReq.schedule
  · exact h.gotReq.schedule
  · extract_lets t src
    have ht : s.Lasts c t := h.gotReq
    exact ht.same rfl
  · exact h

theorem trigReq {mask} (h : s.Lasts c x) : s.Lasts c (x.trigReq mask) := by
  unfold State.trigReq
  dsimp only
  refine .measEvent (.gotReq (State.Lasts.foldl_fst (fun y q hy => ?_) h))
  split
  · exact hy.trigger
  · exact hy.draw (w := 8)

theorem measReq {r} (h : s.Lasts c x) : s.Lasts c (x.measReq r) := by
  unfold State.measReq
  split
  · dsimp only
    exact .ite (.gotReq (h.setMeas (by simp))) (.ite (.gotReq (h.setMeas (by simp))) h.trigReq)
  · exact .gotReq (h.setMeas rfl)
  · exact .gotReq (h.setMeas rfl)
  · exact .ite (.gotReq (h.setMeas rfl)) h
  · exact h

theorem owe {i} (h : s.Lasts c x) : s.Lasts c (x.owe i) := .ite h (h.setFaults rfl)

theorem aonReq {a} (h : s.Lasts c x) : s.Lasts c (x.aonReq a) := by
  unfold State.aonReq
  split
  · exact h.setFaults rfl
  · exact h.setFaults rfl
  · exact h.setFaults rfl
  · exact h.setObs
  · exact h.gotReq.owe.askReset
  · exact h.gotReq.owe
  · exact h

theorem reportUp {i} (h : s.Lasts c x) : s.Lasts c (x.reportUp i) := by
  unfold State.reportUp
  extract_lets mine mark src
  exact h.setMgmt

theorem mgmtReq {a} (h : s.Lasts c x) : s.Lasts c (x.mgmtReq a) := by
  unfold State.mgmtReq
  split
  · exact h.outstDone
  · exact h.reportUp
  · exact h

theorem takeMb {k up} {act : State → Req → State} (hact : ∀ y r, s.Lasts c y → s.Lasts c (act y r)) (h : s.Lasts c x) :
    s.Lasts c (x.takeMb k up act) :=
  .ite (hact _ _ h.takeReq) h

theorem takeMb4 (h : s.Lasts c x) : s.Lasts c x.takeMb4 := .takeMb (fun _ _ hy => hy.measReq) h

theorem takeEvents (h : s.Lasts c x) : s.Lasts c x.takeEvents := by
  unfold State.takeEvents
  split
  · extract_lets due src
    exact .foldl (fun _ _ hy => hy.outstDone) h.setMgmt
  · exact h

theorem takeNotices (h : s.Lasts c x) : s.Lasts c x.takeNotices := by
  unfold State.takeNotices
  extract_lets s1 s2 s3
  have hs1 : s.Lasts c s1 := .takeMb (fun _ _ hy => hy.loopReq) h
  have hs2 : s.Lasts c s2 := .ite hs1 hs1.takeMb4
  have hs3 : s.Lasts c s3 := .takeEvents (.takeMb (fun _ _ hy => hy.mgmtReq) hs2)
  exact .takeMb (fun _ _ hy => hy.aonReq) (.takeMb (fun _ _ hy => hy.mgmtReq) hs3)

/-! ## Output -/

theorem refreshLoop (h : s.Lasts c x) : s.Lasts c x.refreshLoop := by
  unfold State.refreshLoop
  extract_lets src s1
  have hs1 : s.Lasts c s1 := .ite h h.setLoop
  split
  · exact hs1.setLoop

theorem loopTrace {old} (h : s.Lasts c x) : s.Lasts c (x.loopTrace old) := by
  unfold State.loopTrace
  extract_lets l changed
  exact .ite h.emit h

/-! ## Apply -/

theorem finishWindows {m' new} (h : s.Lasts c x) : s.Lasts c (x.finishWindows m' new) := by
  unfold State.finishWindows
  refine .foldl (fun y a hy => ?_) ?_
  · extract_lets x1 done x2 next
    split
    · exact .ite (hy.setMeas rfl) hy
    · exact .ite (hy.setMeas rfl) hy
    · exact hy
  · exact h

theorem junction (h : s.Lasts c x) : s.Lasts c x.junction := by
  unfold State.junction
  split
  · split
    · extract_lets skips new src src2
      exact .foldl (fun _ _ hy => hy.emitSeq) (h.setMeas rfl)
    · exact h
  · exact h

theorem changeMap {new m' fbs} (h : s.Lasts c x) : s.Lasts c (x.changeMap new m' fbs) := by
  unfold State.changeMap
  extract_lets old m was s1 src s2 src2 s3 src3 s4 src4
  have hs1 : s.Lasts c s1 := .finishWindows (.foldl (fun _ _ hy => hy.discardTriggers) h)
  have hs2 : s.Lasts c s2 := hs1.setMgmt
  have hs3 : s.Lasts c s3 := hs2.setLoop
  have hs4 : s.Lasts c s4 := hs3.setEnergy
  exact hs4.setMeas rfl

theorem changeFields {new} (h : s.Lasts c x) : s.Lasts c (x.changeFields new) := by
  unfold State.changeFields
  extract_lets old m s1 src src2
  have hs1 : s.Lasts c s1 := .foldl (fun _ _ hy => hy.discardTriggers) h
  exact hs1.setMgmt.setMeas rfl

theorem takeMeasToken (h : s.Lasts c x) : s.Lasts c x.takeMeasToken := by
  unfold State.takeMeasToken
  split
  · exact h
  · next t =>
    refine .ite h ?_
    extract_lets new m s1 s2
    have hs1 : s.Lasts c s1 := h.setMgmt
    clear_value s1
    have hs2 : s.Lasts c s2 := by
      unfold s2
      split
      · exact hs1.changeFields
      · extract_lets gone
        clear_value gone
        split
        · exact hs1.changeMap
        · exact hs1.changeMap.emitSlice
        · exact hs1.changeMap.setMeas rfl
    exact hs2.emitApply

theorem setRetired {sl r} (h : s.Lasts c x) : s.Lasts c (x.setRetired sl r) := by
  unfold State.setRetired
  extract_lets bit src src2
  exact .setNvm (h.setMeas rfl) rfl

theorem roundJob (h : s.Lasts c x) : s.Lasts c x.roundJob := by
  unfold State.roundJob
  extract_lets count
  clear_value count
  split
  · split
    · extract_lets s1 m s2
      have hs1 : s.Lasts c s1 := h.setRetired.changeMap
      clear_value s1
      exact .measEvent (.emitSlice (hs1.setMeas rfl))
    · exact h
  · exact .ite (h.setMeas rfl) h
  · split
    · extract_lets s1 m s2
      have hs1 : s.Lasts c s1 := h.setRetired.changeMap
      clear_value s1
      exact .measEvent (.emitSlice (hs1.setMeas rfl))
    · exact h
  · exact h

theorem takeFailMap (h : s.Lasts c x) : s.Lasts c x.takeFailMap := by
  unfold State.takeFailMap
  split
  · split
    · extract_lets s1 src
      have hs1 : s.Lasts c s1 := h.changeMap
      exact hs1.setMeas rfl
    · exact h
  · exact h

theorem stopSeq {q} (h : s.Lasts c x) : s.Lasts c (x.stopSeq q) := by
  unfold State.stopSeq
  extract_lets s1 src s2 src2 m
  have hs1 : s.Lasts c s1 := h.discardTriggers
  have hs2 : s.Lasts c s2 := .ite hs1.setLoop hs1
  exact hs2.setMeas rfl

theorem startSeq {q} (h : s.Lasts c x) : s.Lasts c (x.startSeq q) := h.setMeas rfl

theorem roundSeqs {count} (h : s.Lasts c x) : s.Lasts c (x.roundSeqs count) := by
  unfold State.roundSeqs
  extract_lets stops s1 s2 s3 was starts s4 src s5
  have hs1 : s.Lasts c s1 := .foldl (fun _ _ hy => hy.stopSeq) h
  have hs2 : s.Lasts c s2 := .foldl (fun _ _ hy => hy.setMeas rfl) hs1
  have hs3 : s.Lasts c s3 := hs2.measEvent
  have hs4 : s.Lasts c s4 := .foldl (fun _ _ hy => hy.startSeq) hs3
  have hs5 : s.Lasts c s5 := .ite hs4.setLoop hs4
  exact hs5.measEvent

theorem auxCheck (h : s.Lasts c x) : s.Lasts c x.auxCheck := by
  unfold State.auxCheck
  split
  · extract_lets on mask s' src s'2
    have hs' : s.Lasts c s' := by
      unfold s'
      refine .foldl (fun y a hy => ?_) ?_
      · extract_lets s1 src2
        have hs1 : s.Lasts c s1 := .ite hy.stopSeq hy
        exact hs1.setMeas rfl
      · exact h
    have hs'2 : s.Lasts c s'2 := hs'.setEnergy
    exact .ite hs'2 hs'2.report
  · exact h.setEnergy

/-! ## Routing -/

theorem bufferCheck {ready} (h : s.Lasts c x) : s.Lasts c (x.bufferCheck ready) := by
  unfold State.bufferCheck
  extract_lets soon
  refine .foldl (fun y a hy => ?_) ?_
  · extract_lets x1
    split
    · extract_lets early
      exact .ite (hy.setMeas rfl) hy
    · exact hy
  · exact h

theorem visit (h : s.Lasts c x) : s.Lasts c x.visit := h.setMeas rfl

theorem driveExc (h : s.Lasts c x) : s.Lasts c x.driveExc := by
  unfold State.driveExc
  extract_lets soon us dwell src t src2
  have ht : s.Lasts c t := h.setPins
  exact .ite (ht.setMeas rfl) ht

/-! ## Rounds -/

theorem startRound (h : s.Lasts c x) : s.Lasts c x.startRound := by
  unfold State.startRound
  extract_lets s1 m s2 count
  have hs2 : s.Lasts c s2 := h.correct.takeStreams.setMeas rfl
  clear_value s2
  exact hs2.takeMeasToken.roundJob.takeFailMap.roundSeqs.auxCheck.junction.emitSeq.takeMb4

theorem missToken (h : s.Lasts c x) : s.Lasts c x.missToken := h.setMgmt

theorem regain (h : s.Lasts c x) : s.Lasts c x.regain := .ite h (h.same rfl)

theorem execRoundStart (h : s.Lasts c x) : Ans.Lasts c s (Machine.execRoundStart x) := by
  unfold Machine.execRoundStart
  extract_lets r src
  exact .stepIf h (.regain (.ite h.startRound.driveExc.refreshLoop.loopTrace (.takeStreams (.missToken (h.setMeas rfl)))))

theorem execFallbackMapSwitch (h : s.Lasts c x) : Ans.Lasts c s (Machine.execFallbackMapSwitch x) := by
  unfold Machine.execFallbackMapSwitch
  extract_lets m atStart u src
  have hu : s.Lasts c u := h.correct
  split
  · extract_lets fb usable u2 src2 src3 u3
    have hu2 : s.Lasts c u2 := .ite hu.changeMap.junction.emitSlice (hu.setMeas rfl)
    have hu3 : s.Lasts c u3 := hu2.setMeas rfl
    exact .stepIf h hu3.driveExc
  · exact .next h

theorem execTriggerWindowStart {q} (h : s.Lasts c x) : Ans.Lasts c s (Machine.execTriggerWindowStart q x) := by
  unfold Machine.execTriggerWindowStart
  extract_lets m x1
  split
  · exact .stepIf h (.driveExc (h.setMeas rfl))
  · exact .next h

theorem execTriggerWindowEnd {q} (h : s.Lasts c x) : Ans.Lasts c s (Machine.execTriggerWindowEnd q x) := by
  unfold Machine.execTriggerWindowEnd
  extract_lets m x1 next
  split
  · exact .stepIf h (h.setMeas rfl)
  · exact .stepIf h (h.setMeas rfl)
  · exact .next h

theorem execRoundAlignment (h : s.Lasts c x) : Ans.Lasts c s (Machine.execRoundAlignment x) := by
  unfold Machine.execRoundAlignment
  extract_lets a m t c1 e u
  have hu : s.Lasts c u := h.setMeas rfl
  exact .stepIf h (.ite hu.count.emitSeq hu)

theorem execBlankFreeze (h : s.Lasts c x) : Ans.Lasts c s (Machine.execBlankFreeze x) := by
  unfold Machine.execBlankFreeze
  extract_lets r freezable r' src
  exact .stepIf h (.emitSeq (.count (.driveExc (h.setMeas rfl))))

theorem resume (h : s.Lasts c x) : s.Lasts c x.resume := by
  unfold State.resume
  split
  · exact .emitSeq (h.setMeas rfl)
  · exact h

theorem execBlankResume (h : s.Lasts c x) : Ans.Lasts c s (Machine.execBlankResume x) := .stepIf h h.resume.driveExc

theorem execBlankStuck (h : s.Lasts c x) : Ans.Lasts c s (Machine.execBlankStuck x) := by
  unfold Machine.execBlankStuck
  extract_lets r src u
  have hu : s.Lasts c u := h.setMeas rfl
  exact .stepIf h hu.resume.driveExc.report

/-! ## Slices -/

theorem sliceRetire {ps} (h : s.Lasts c x) : s.Lasts c (x.sliceRetire ps).state := by
  unfold State.sliceRetire
  dsimp only
  split_ifs
  · exact h
  · exact h
  · exact h
  · split
    · exact h
    · exact h.postReq

theorem sliceRestore {ps} (h : s.Lasts c x) : s.Lasts c (x.sliceRestore ps).state := by
  unfold State.sliceRestore
  dsimp only
  split_ifs
  · exact h
  · exact h
  · exact h.postReq

theorem execSliceRetire {p} (h : s.Lasts c x) : Ans.Lasts c s (Machine.execSliceRetire p x) :=
  .next (.runCmd (fun _ _ _ hy => hy.sliceRetire) h)

theorem execSliceRestore {p} (h : s.Lasts c x) : Ans.Lasts c s (Machine.execSliceRestore p x) :=
  .next (.runCmd (fun _ _ _ hy => hy.sliceRestore) h)

theorem restoreFails {sl status} (h : s.Lasts c x) : s.Lasts c (x.restoreFails sl status) :=
  .measEvent (.emitSlice (h.setMeas rfl))

theorem qualify {sl convs} (h : s.Lasts c x) : s.Lasts c (x.qualify sl convs) := by
  unfold State.qualify
  extract_lets m0 m1 m2 m3 src x1 s1 slices src2
  have hs1 : s.Lasts c s1 := h.setMeas rfl
  split
  · exact h.restoreFails
  · split
    · exact hs1.restoreFails
    · exact hs1.setMeas rfl

theorem execQualificationEnd {given} (h : s.Lasts c x) : Ans.Lasts c s (Machine.execQualificationEnd given x) := by
  unfold Machine.execQualificationEnd
  split
  · extract_lets x1 u
    have hu : s.Lasts c u := .countN (h.setMeas rfl)
    refine .stepIf h ?_
    split
    · exact hu.report.emitSlice.restoreFails
    · exact hu.qualify
  · exact .next h

theorem execFailureMapCompile (h : s.Lasts c x) : Ans.Lasts c s (Machine.execFailureMapCompile x) := by
  unfold Machine.execFailureMapCompile
  split
  · exact .next h
  · extract_lets m t slices made
    have ht : s.Lasts c t := h.setMeas rfl
    clear_value made t
    refine .stepIf h ?_
    split
    · exact ht.setMeas rfl
    · exact (State.Lasts.foldl (fun _ _ hy => hy.stopSeq) ht).report

/-! ## Sextant -/

theorem plausibility {cause} (h : s.Lasts c x) : s.Lasts c (x.plausibility cause) := h.count.setFaults rfl

theorem sxCompare {w sx20 overload} (h : s.Lasts c x) : s.Lasts c (x.sxCompare w sx20 overload) := by
  unfold State.sxCompare
  extract_lets m0 t a fail ch m m2
  have ht : s.Lasts c t := h.setMeas rfl
  have hm2 : m2.queue = t.meas.queue := by unfold m2; split <;> rfl
  have hs : s.Lasts c (t.setMeas m2) := ht.setMeas (by rw [hm2])
  exact .ite ht.count (.ite hs.plausibility hs)

theorem execSextantComparison {i overload} (h : s.Lasts c x) : Ans.Lasts c s (Machine.execSextantComparison i overload x) := by
  unfold Machine.execSextantComparison
  split
  · extract_lets t
    have ht : s.Lasts c t := h.correct
    split
    · exact .next ht.sxCompare
    · exact .next h
  · exact .next h

theorem execSextantReferenceWindow {sx20} (h : s.Lasts c x) : Ans.Lasts c s (Machine.execSextantReferenceWindow sx20 x) := by
  unfold Machine.execSextantReferenceWindow
  split
  · extract_lets src t d fail
    have ht : s.Lasts c t := h.setMeas rfl
    exact .stepIf h (.ite ht.plausibility ht)
  · exact .next h

/-! ## Linear -/

theorem lineariseOne {r} (h : s.Lasts c x) : s.Lasts c (x.lineariseOne r) := by
  unfold State.lineariseOne
  extract_lets a m c1 t src seen bad vt y u rangeBad tags st
  split
  · extract_lets c' s1 s2
    have hs1 : s.Lasts c s1 := h.setMeas rfl
    have hs2 : s.Lasts c s2 := .ite hs1.count hs1
    exact .ite hs2.count hs2

theorem runVar {v} (h : s.Lasts c x) : s.Lasts c (x.runVar v) := by
  unfold State.runVar
  split
  · extract_lets st old x1 src s1
    have hs1 : s.Lasts c s1 := h.setMeas rfl
    exact .ite hs1.count hs1

theorem postFeed (h : s.Lasts c x) : s.Lasts c x.postFeed := by
  unfold State.postFeed
  extract_lets x1 f src l
  exact h.setLoop

theorem noteClosing {ch run} (h : s.Lasts c x) : s.Lasts c (x.noteClosing ch run) := by
  unfold State.noteClosing
  extract_lets a seen rest src s1
  have hs1 : s.Lasts c s1 := h.setMeas rfl
  exact .ite (.postFeed (.foldl (fun _ _ hy => hy.runVar) hs1)) (h.setMeas rfl)

theorem engine {r} (h : s.Lasts c x) : s.Lasts c (x.engine r) := by
  unfold State.engine
  split
  · extract_lets s1 s2
    have hs1 : s.Lasts c s1 := h.lineariseOne
    have hs2 : s.Lasts c s2 := .ite hs1.noteClosing hs1
    exact .foldl (fun _ _ hy => hy.runVar) hs2
  · exact h

theorem swapEffect (h : s.Lasts c x) : s.Lasts c x.swapEffect := by
  unfold State.swapEffect
  split
  · exact h
  · next w _ =>
    extract_lets primary m pre m2 s1 s2
    have hm : m.queue.length = x.meas.queue.length := congrArg List.length (Meas.swapTables_queue ..)
    clear_value m
    have hs1 : s.Lasts c s1 := h.setMeas hm
    clear_value s1
    have hs2 : s.Lasts c s2 := .ite (.foldl (fun _ _ hy => hy.setNvm rfl) hs1) hs1
    exact .ite hs2.emitApply.measEvent h

theorem execLinSwapEffect (h : s.Lasts c x) : Ans.Lasts c s (Machine.execLinSwapEffect x) := .stepIf h h.swapEffect

theorem lineariseAll (h : s.Lasts c x) : s.Lasts c x.lineariseAll := by
  unfold State.lineariseAll
  extract_lets s1 due src s2
  have hs1 : s.Lasts c s1 := h.swapEffect
  have hs2 : s.Lasts c s2 := hs1.setMeas rfl
  exact .foldl (fun _ _ hy => hy.engine) hs2

theorem execLinearisation (h : s.Lasts c x) : Ans.Lasts c s (Machine.execLinearisation x) := .stepIf h h.lineariseAll

theorem execLinLoad {p} (h : s.Lasts c x) : Ans.Lasts c s (Machine.execLinLoad p x) := by
  unfold Machine.execLinLoad
  refine .next ?_
  refine .runCmd (fun y q ps hy => ?_) h
  extract_lets ch form src put id src sh
  exact .iteDone hy (.iteDone (.iteDone (hy.setMeas rfl) hy) (.iteDone (hy.setMeas rfl) hy))

theorem execLinSwap {p} (h : s.Lasts c x) : Ans.Lasts c s (Machine.execLinSwap p x) := by
  unfold Machine.execLinSwap
  extract_lets src c1
  refine .next ?_
  refine .runCmd (fun y q ps hy => ?_) h
  extract_lets mask x1 now
  exact .iteDone hy (.iteDone hy (.iteDone hy hy.postReq))

theorem linRead {ps} (h : s.Lasts c x) : s.Lasts c (x.linRead ps).1 := by
  unfold State.linRead
  dsimp only
  split_ifs <;> exact h

theorem execLinRead {p} (h : s.Lasts c x) : Ans.Lasts c s (Machine.execLinRead p x) := by
  unfold Machine.execLinRead
  refine .next ?_
  refine .runCmd (fun y q ps hy => ?_) h
  split
  · rename_i a1_0 a1_1 a1_2 a1_3 a1_4
    have h1_0 := of_fst a1_4 (hy.linRead)
    exact h1_0

theorem varRead {ps} (h : s.Lasts c x) : s.Lasts c (x.varRead ps).1 := by
  unfold State.varRead
  dsimp only
  split_ifs <;> exact h

theorem execVarRead {p} (h : s.Lasts c x) : Ans.Lasts c s (Machine.execVarRead p x) := by
  unfold Machine.execVarRead
  refine .next ?_
  refine .runCmd (fun y q ps hy => ?_) h
  split
  · rename_i a1_0 a1_1 a1_2 a1_3 a1_4
    have h1_0 := of_fst a1_4 (hy.varRead)
    exact h1_0

/-! ## Loop -/

theorem compute {f u} (h : s.Lasts c x) : s.Lasts c (x.compute f u).1 := by
  unfold State.compute
  dsimp only
  split
  · exact h.setLoop
  · exact h

theorem takeLoopToken (h : s.Lasts c x) : s.Lasts c x.takeLoopToken := by
  unfold State.takeLoopToken
  split
  · exact .ite h.setMgmt.emitApply h
  · exact h

theorem earlyLoop (h : s.Lasts c x) : s.Lasts c x.earlyLoop := by
  unfold State.earlyLoop
  split
  · split
    · extract_lets a src
      exact h.setMgmt.emitApply.schedule
    · exact h
  · exact h

theorem applyEv {e} (h : s.Lasts c x) : s.Lasts c (x.applyEv e) := by
  unfold State.applyEv
  extract_lets l md m l2
  split
  · exact h.setLoop
  · exact h.setLoop
  · exact h.setLoop
  · exact h.setLoop.loopEvent
  · exact h.setLoop.loopEvent
  · exact h.setLoop

theorem applyDue (h : s.Lasts c x) : s.Lasts c x.applyDue := by
  unfold State.applyDue
  extract_lets due src
  exact .foldl (fun _ _ hy => hy.applyEv) h.setLoop

theorem countHold (h : s.Lasts c x) : s.Lasts c x.countHold := by
  unfold State.countHold
  extract_lets l
  exact .ite h.setLoop h

theorem loopTick (h : s.Lasts c x) : s.Lasts c x.loopTick := by
  unfold State.loopTick
  extract_lets old s1 src s2
  have hs1 : s.Lasts c s1 := h.countHold.applyDue.earlyLoop
  have hs2 : s.Lasts c s2 := hs1.setLoop
  exact hs2.refreshLoop.loopTrace

theorem applyLoop (h : s.Lasts c x) : s.Lasts c x.applyLoop := .ite h.takeLoopToken.refreshLoop.loopTrace h

theorem execLoopUpdate {parityOk} (h : s.Lasts c x) : Ans.Lasts c s (Machine.execLoopUpdate parityOk x) := by
  unfold Machine.execLoopUpdate
  split
  · extract_lets src t
    have ht : s.Lasts c t := h.setLoop
    split
    · rename_i a1_0 a1_1 a1_2 a1_3
      have h1_0 := of_fst a1_3 (ht.applyLoop.compute)
      exact .ite (.stepIf h ht.parityError) (.ite (.stepIf h h1_0.schedule) (.stepIf h ht.parityError))
  · exact .next h

theorem execHoldUpdate (h : s.Lasts c x) : Ans.Lasts c s (Machine.execHoldUpdate x) := by
  unfold Machine.execHoldUpdate
  extract_lets l held n
  exact .stepIf h h.applyLoop

theorem execInterruption (h : s.Lasts c x) : Ans.Lasts c s (Machine.execInterruption x) := by
  unfold Machine.execInterruption
  extract_lets l d t
  have ht : s.Lasts c t := h.setLoop
  exact .stepIf h ht.refreshLoop.loopTrace

theorem execHoldLimitExpiry (h : s.Lasts c x) : Ans.Lasts c s (Machine.execHoldLimitExpiry x) := by
  unfold Machine.execHoldLimitExpiry
  extract_lets l t
  have ht : s.Lasts c t := h.setLoop
  exact .stepIf h ht.refreshLoop.loopTrace

theorem execFeedReplay (h : s.Lasts c x) : Ans.Lasts c s (Machine.execFeedReplay x) := by
  unfold Machine.execFeedReplay
  extract_lets l
  split
  · exact .stepIf h h.setLoop
  · split
    · rename_i a1_0 a1_1 a1_2 a1_3
      have h1_0 := of_fst a1_3 (h.setLoop.applyLoop.compute)
      extract_lets src src2 t
      have ht : s.Lasts c t := .ite h1_0.schedule.setLoop h1_0.setLoop
      exact .stepIf h ht

theorem execComplianceEnter (h : s.Lasts c x) : Ans.Lasts c s (Machine.execComplianceEnter x) := by
  unfold Machine.execComplianceEnter
  extract_lets src t
  have ht : s.Lasts c t := h.setLoop.report
  split
  · exact .stepIf h ht.loopTrace
  · exact .next h

theorem execComplianceClear (h : s.Lasts c x) : Ans.Lasts c s (Machine.execComplianceClear x) := by
  unfold Machine.execComplianceClear
  extract_lets src t
  have ht : s.Lasts c t := h.setLoop.report
  split
  · exact .stepIf h ht.loopTrace
  · exact .next h

theorem setMiswire {m} (h : s.Lasts c x) : s.Lasts c (x.setMiswire m) := h.setLoop.refreshLoop.loopTrace

theorem execMiswireFold (h : s.Lasts c x) : Ans.Lasts c s (Machine.execMiswireFold x) := by
  unfold Machine.execMiswireFold
  extract_lets t on
  have ht : s.Lasts c t := h.setMiswire
  split
  · exact .stepIf h ht.report
  · exact .stepIf h ht.report
  · exact .next h

theorem execMiswireRetry (h : s.Lasts c x) : Ans.Lasts c s (Machine.execMiswireRetry x) := by
  unfold Machine.execMiswireRetry
  split
  · exact .stepIf h h.setMiswire
  · exact .next h

theorem execMiswireClear (h : s.Lasts c x) : Ans.Lasts c s (Machine.execMiswireClear x) := by
  unfold Machine.execMiswireClear
  split
  · exact .stepIf h h.setMiswire
  · exact .next h

theorem setFixed {ps} (h : s.Lasts c x) : s.Lasts c (x.setFixed ps).state := by
  unfold State.setFixed
  dsimp only
  split_ifs
  · exact h
  · exact h
  · exact h.postReq

theorem releaseFixed (h : s.Lasts c x) : s.Lasts c x.releaseFixed.state := by
  unfold State.releaseFixed
  split_ifs
  · exact h.postReq
  · exact h

theorem execLoopSetFixed {p} (h : s.Lasts c x) : Ans.Lasts c s (Machine.execLoopSetFixed p x) :=
  .next (.runCmd (fun _ _ _ hy => hy.setFixed) h)

theorem execLoopRelease {p} (h : s.Lasts c x) : Ans.Lasts c s (Machine.execLoopRelease p x) :=
  .next (.runCmd (fun _ _ _ hy => hy.releaseFixed) h)

theorem putTrim {m4 m20} (h : s.Lasts c x) : s.Lasts c (x.putTrim m4 m20) := h.setLoop.setNvm rfl

theorem loopTrim {ps} (h : s.Lasts c x) : s.Lasts c (x.loopTrim ps).1 := by
  unfold State.loopTrim
  extract_lets point v l done
  split_ifs
  · exact h
  · exact h.putTrim
  · exact h
  · exact h
  · exact h.putTrim
  · exact h.putTrim

theorem execLoopTrim {p} (h : s.Lasts c x) : Ans.Lasts c s (Machine.execLoopTrim p x) := by
  unfold Machine.execLoopTrim
  refine .next ?_
  refine .runCmd (fun y q ps hy => ?_) h
  split
  · rename_i a1_0 a1_1 a1_2 a1_3 a1_4
    have h1_0 := of_fst a1_4 (hy.loopTrim)
    exact h1_0

theorem execLoopStatus {p} (h : s.Lasts c x) : Ans.Lasts c s (Machine.execLoopStatus p x) :=
  .next (.runCmd (fun _ _ _ hy => hy) h)

/-! ## Modem -/

theorem emitModem {pt ev hdr} (h : s.Lasts c x) : s.Lasts c (x.emitModem pt ev hdr) := h.emit

theorem book {pt} (h : s.Lasts c x) : s.Lasts c (x.book pt) := by
  unfold State.book
  extract_lets x1
  split
  · split
    · extract_lets src
      have hsrc : s.Lasts c src := h.setPort
      exact hsrc.same rfl
    · exact h
  · exact h

theorem synth (h : s.Lasts c x) : s.Lasts c x.synth := h.same rfl

theorem endSeg {pt} {f : State → State} (hf : ∀ y, s.Lasts c y → s.Lasts c (f y)) (h : s.Lasts c x) : s.Lasts c (x.endSeg pt f) :=
  (hf _ h.setPort).book

theorem deliver {pt f} (h : s.Lasts c x) : s.Lasts c (x.deliver pt f) := by
  unfold State.deliver
  split
  · extract_lets old src
    exact h.setFab
  · exact h.count

theorem discardPacket {pt} (h : s.Lasts c x) : s.Lasts c (x.discardPacket pt) := by
  unfold State.discardPacket
  split
  · extract_lets x1 src
    have hsrc : s.Lasts c src := h.setPort
    exact hsrc.same rfl

theorem openWindow {pt} (h : s.Lasts c x) : s.Lasts c (x.openWindow pt) := by
  unfold State.openWindow
  extract_lets b src
  exact h.setPort.emitModem

theorem endWindow {pt} (h : s.Lasts c x) : s.Lasts c (x.endWindow pt) := .ite h.setPort.count h

theorem block {pt e} (h : s.Lasts c x) : s.Lasts c (x.block pt e) := by
  unfold State.block
  extract_lets s1 x1 row strong x' s'
  have hs1 : s.Lasts c s1 := h.endWindow
  have hs' : s.Lasts c s' := hs1.setPort
  exact .ite (.ite hs'.discardPacket.openWindow.count.emitModem hs') (.ite (.ite hs'.setPort hs'.openWindow) hs')

theorem execEnergyBlock {pt ys} (h : s.Lasts c x) : Ans.Lasts c s (Machine.execEnergyBlock pt ys x) := by
  unfold Machine.execEnergyBlock
  extract_lets e
  exact .stepIf h h.block

theorem execSync {pt ys} (h : s.Lasts c x) : Ans.Lasts c s (Machine.execSync pt ys x) := by
  unfold Machine.execSync
  extract_lets x1 t src
  have ht : s.Lasts c t := h.discardPacket
  split
  · exact .next h
  · extract_lets x'
    exact .stepIf h ht.setPort.emitModem

theorem execQualifierWindowEnd {pt} (h : s.Lasts c x) : Ans.Lasts c s (Machine.execQualifierWindowEnd pt x) :=
  .stepIf h h.endWindow

theorem trained {pt y0 y1} (h : s.Lasts c x) : s.Lasts c (x.trained pt y0 y1) := by
  unfold State.trained
  extract_lets m taps src
  exact h.setPort

theorem execModeDecision {pt y0 y1} (h : s.Lasts c x) : Ans.Lasts c s (Machine.execModeDecision pt y0 y1 x) :=
  .stepIf h (.endSeg (fun _ hy => hy.trained) h)

theorem paySymbol {pt y} (h : s.Lasts c x) : s.Lasts c (x.paySymbol pt y) := by
  unfold State.paySymbol
  extract_lets x1 llrs src x'
  split
  · exact h.setPort
  · split
    · exact h
    · extract_lets job x'2 src2
      have hsrc2 : s.Lasts c src2 := h.setPort
      exact hsrc2.same rfl

theorem headerSym {pt y} (h : s.Lasts c x) : s.Lasts c (x.headerSym pt y) := by
  unfold State.headerSym
  extract_lets x1
  exact h.setPort

theorem execSymbolDemod {pt y} (h : s.Lasts c x) : Ans.Lasts c s (Machine.execSymbolDemod pt y x) :=
  .ite (.stepIf h (.endSeg (fun _ hy => hy.headerSym) h)) (.stepIf h (.endSeg (fun _ hy => hy.paySymbol) h))

theorem verdict {pt} (h : s.Lasts c x) : s.Lasts c (x.verdict pt) := by
  unfold State.verdict
  extract_lets x1 w t src t2
  have ht : s.Lasts c t := h.discardPacket
  have ht2 : s.Lasts c t2 := ht.setPort.emitModem
  split
  · exact ht.setPort.count.emitModem
  · split
    · exact ht2.count.deliver
    · extract_lets n
      exact h.setPort.emitModem

theorem execHeaderVerdict {pt} (h : s.Lasts c x) : Ans.Lasts c s (Machine.execHeaderVerdict pt x) :=
  .stepIf h (.endSeg (fun _ hy => hy.verdict) h)

theorem packetDone {j bits} (h : s.Lasts c x) : s.Lasts c (x.packetDone j bits) := by
  unfold State.packetDone
  extract_lets n bs ps w src
  exact .ite h.count.emitModem.deliver h.count.emitModem

theorem execCodewordDecode (h : s.Lasts c x) : Ans.Lasts c s (Machine.execCodewordDecode x) := by
  unfold Machine.execCodewordDecode
  split
  · exact .next h
  · extract_lets at_ x1 bits src t
    have hsrc : s.Lasts c src := h.setPort
    have ht : s.Lasts c t := hsrc.same rfl
    exact .stepIf h (.ite ht.packetDone ht)

theorem execMuteEnd {pt} (h : s.Lasts c x) : Ans.Lasts c s (Machine.execMuteEnd pt x) := by
  unfold Machine.execMuteEnd
  extract_lets x1
  exact .stepIf h h.setPort

theorem execNoiseFloorUpdate {pt powers} (h : s.Lasts c x) : Ans.Lasts c s (Machine.execNoiseFloorUpdate pt powers x) := by
  unfold Machine.execNoiseFloorUpdate
  extract_lets x1
  exact .stepIf h h.setPort

theorem drivePort {pt} (h : s.Lasts c x) : s.Lasts c (x.drivePort pt) := by
  unfold State.drivePort
  split
  · exact h.setPort

theorem meetBusy {pt j} (h : s.Lasts c x) : s.Lasts c (x.meetBusy pt j) := by
  unfold State.meetBusy
  split
  · exact h.count
  · split
    · exact h
    · split
      · extract_lets s1 src
        have hs1 : s.Lasts c s1 := h.count
        split
        · exact hs1.setFab
        · exact hs1
      · split
        · extract_lets x1 free
          exact h.setPort
        · exact h.setFab

theorem meetBusies {pt js} (h : s.Lasts c x) : s.Lasts c (x.meetBusies pt js) := .foldr (fun _ _ hy => hy.meetBusy) h

theorem silenced {j} (h : s.Lasts c x) : s.Lasts c (x.silenced j) := by
  unfold State.silenced
  split
  · exact h.setFab
  · exact h

theorem missed {pt} (h : s.Lasts c x) : s.Lasts c (x.missed pt) := by
  unfold State.missed
  extract_lets x1 late
  exact .ite h.setPort.meetBusies h

theorem startPacket {pt j} (h : s.Lasts c x) : s.Lasts c (x.startPacket pt j) := by
  unfold State.startPacket
  extract_lets held s1 x1 s2 src s3
  have hs1 : s.Lasts c s1 := .ite h.discardPacket.count h
  have hs2 : s.Lasts c s2 := hs1.setPort.drivePort
  have hs3 : s.Lasts c s3 := .ite hs2.setFab hs2
  exact hs3.emitModem

theorem execPacketTransmitStart {pt} (h : s.Lasts c x) : Ans.Lasts c s (Machine.execPacketTransmitStart pt x) := by
  unfold Machine.execPacketTransmitStart
  extract_lets y ready due p s0
  have hs0 : s.Lasts c p := .foldr (fun _ _ hy => hy.silenced) h.setPort
  clear_value p
  split
  · exact .stepIf h hs0
  · exact .stepIf h (.ite hs0.meetBusies (.ite hs0.count.meetBusies hs0.startPacket.meetBusies))

theorem execPacketTransmitEnd {pt} (h : s.Lasts c x) : Ans.Lasts c s (Machine.execPacketTransmitEnd pt x) := by
  unfold Machine.execPacketTransmitEnd
  extract_lets x1 t t2
  have ht : s.Lasts c t := h.setPort.drivePort
  have ht2 : s.Lasts c t2 := ht.count
  split
  · exact .next h
  · extract_lets t3 t4
    have ht3 : s.Lasts c t3 := by
      unfold t3
      split
      · exact ht2.freeBuf
      · exact ht2
    have ht4 : s.Lasts c t4 := by
      unfold t4
      split
      · extract_lets y
        exact .ite ht3.setFab ht3
      · exact ht3
    exact .stepIf h ht4

theorem synthTick {pt} (h : s.Lasts c x) : s.Lasts c (x.synthTick pt) := by
  unfold State.synthTick
  extract_lets new x1 s1 s2
  have hs1 : s.Lasts c s1 := h.setPort
  have hs2 : s.Lasts c s2 := .ite hs1.synth hs1
  exact .foldl (fun _ _ hy => hy.synth) hs2

theorem quietTick {pt} (h : s.Lasts c x) : s.Lasts c (x.quietTick pt) := by
  unfold State.quietTick
  extract_lets x1 quiet b k done
  exact h.setPort

theorem portTick {pt} (h : s.Lasts c x) : s.Lasts c (x.portTick pt) := by
  unfold State.portTick
  extract_lets s1 s2 s3 s4
  have hs1 : s.Lasts c s1 := h.missed
  have hs2 : s.Lasts c s2 := hs1.setPort
  have hs3 : s.Lasts c s3 := .ite hs2.book hs2
  have hs4 : s.Lasts c s4 := by
    unfold s4
    split
    · exact hs3.same rfl
    · exact hs3
  exact hs4.synthTick.drivePort.quietTick

theorem freshFloor {pt old} (h : s.Lasts c x) : s.Lasts c (x.freshFloor pt old) := .ite h.setPort h

theorem afterLine {old} (h : s.Lasts c x) : s.Lasts c (x.afterLine old) := by
  unfold State.afterLine
  extract_lets a s1 moved src
  have hs1 : s.Lasts c s1 := h.freshFloor.freshFloor
  exact .ite (hs1.same rfl) hs1

theorem lineApply {t'} (h : s.Lasts c x) : s.Lasts c (x.lineApply t') := by
  unfold State.lineApply
  extract_lets old assignIdle new left src s1 src2 s2
  have hs1 : s.Lasts c s1 := h.setMgmt.afterLine
  have hs2 : s.Lasts c s2 := .ite hs1.setFab hs1
  exact .ite hs2 hs2.emitApply

theorem execIdleLineApply (h : s.Lasts c x) : Ans.Lasts c s (Machine.execIdleLineApply x) := by
  unfold Machine.execIdleLineApply
  split
  · exact .next h
  · exact .stepIf h h.lineApply

theorem execFskCarrierOn (h : s.Lasts c x) : Ans.Lasts c s (Machine.execFskCarrierOn x) := .stepIf h (h.same rfl)

theorem fskHandOver {flags} (h : s.Lasts c x) : s.Lasts c (x.fskHandOver flags) := by
  unfold State.fskHandOver
  split
  · exact h
  · extract_lets s1 src
    have hs1 : s.Lasts c s1 := h.relayWrite.setOwner
    exact .ring (hs1.same rfl)

theorem execFskCarrierOff (h : s.Lasts c x) : Ans.Lasts c s (Machine.execFskCarrierOff x) := .stepIf h (.fskHandOver (h.same rfl))

theorem fskOpen {o} (h : s.Lasts c x) : s.Lasts c (x.fskOpen o) := by
  unfold State.fskOpen
  split
  · extract_lets s1 src
    have hs1 : s.Lasts c s1 := h.setOwner
    exact hs1.same rfl
  · exact .count (h.same rfl)

theorem fskTake {o} (h : s.Lasts c x) : s.Lasts c (x.fskTake o) := by
  unfold State.fskTake
  extract_lets s1 src s2
  have hs1 : s.Lasts c s1 := h.count
  have hs2 : s.Lasts c s2 := hs1.same rfl
  split
  · exact hs1.fskOpen
  · exact .ite hs2 hs2.fskHandOver

theorem execFskOctetReceive {o} (h : s.Lasts c x) : Ans.Lasts c s (Machine.execFskOctetReceive o x) := .stepIf h h.fskTake

theorem execFskTransmitStart (h : s.Lasts c x) : Ans.Lasts c s (Machine.execFskTransmitStart x) := by
  unfold Machine.execFskTransmitStart
  split
  · exact .next h
  · have hd : s.Lasts c (x.draw 2).2 := h.draw
    exact .stepIf h (.loopEvent (.drivePort (hd.same rfl)))

theorem execFskPassTimeout (h : s.Lasts c x) : Ans.Lasts c s (Machine.execFskPassTimeout x) := by
  unfold Machine.execFskPassTimeout
  split
  · exact .next h
  · exact .stepIf h (.loopEvent (h.same rfl))

theorem execFskPass {p} (h : s.Lasts c x) : Ans.Lasts c s (Machine.execFskPass p x) :=
  .next (.runCmd (fun _ _ _ hy => .iteDone hy hy.postReq) h)

/-! ## Fabric -/

theorem setDup (h : s.Lasts c x) : s.Lasts c x.setDup := .ite h h.setFab.ring

theorem takeFrame_eq {pt f route y d} (h : s.Lasts c x) (e : x.takeFrame pt f route = some (y, d)) : s.Lasts c y := by
  unfold State.takeFrame at e
  split at e
  · cases e
  · split at e
    · cases e; exact h
    · split at e
      · cases e; exact h.setFab
      · cases e

theorem onFrame {pt f typ} {act : State → Nat → State} (hact : ∀ y d, s.Lasts c y → s.Lasts c (act y d)) (h : s.Lasts c x) :
    Ans.Lasts c s (x.onFrame pt f typ act) := by
  unfold State.onFrame
  refine .ite ?_ (.next h)
  split
  · exact .next h
  · next e => exact .next (.ite (hact _ _ (h.takeFrame_eq e)) (h.takeFrame_eq e).count)

theorem request {pt j} (h : s.Lasts c x) : s.Lasts c (x.request pt j) := by
  unfold State.request
  extract_lets x1
  exact h.setPort

theorem requestNow {pt j} (h : s.Lasts c x) : s.Lasts c (x.requestNow pt j) := .ite h.request h.synth.request

theorem looseReply {pt d f status} (h : s.Lasts c x) : s.Lasts c (x.looseReply pt d f status) :=
  have hd := h.draw (w := 8)
  .ite hd hd.request

theorem closeSession {n} (h : s.Lasts c x) : s.Lasts c (x.closeSession n) := by
  unfold State.closeSession
  extract_lets src s1 src s2
  have hs1 : s.Lasts c s1 := by
    unfold s1
    split
    · exact h.freeBuf
    · exact h
  have hs2 : s.Lasts c s2 := hs1.setMgmt
  exact hs2.setFab

theorem openSession {a use} (h : s.Lasts c x) : s.Lasts c (x.openSession a use).1 := by
  unfold State.openSession
  extract_lets fresh
  split
  · exact .ite h.setFab h
  · split
    · exact h.setFab
    · split
      · exact h.closeSession.setFab
      · exact h

theorem setDue {n d} (h : s.Lasts c x) : s.Lasts c (x.setDue n d) := h.setFab

theorem execSessionClose {ses} (h : s.Lasts c x) : Ans.Lasts c s (Machine.execSessionClose ses x) := by
  unfold Machine.execSessionClose
  extract_lets x1
  exact .stepIf h h.closeSession

theorem relayCmd_eq {f src y} (h : s.Lasts c x) (e : x.relayCmd f src = some y) : s.Lasts c y := by
  unfold State.relayCmd at e
  split at e
  · cases e
  · cases e; exact h.setOwner.relayWrite.setFab.postMb2

theorem sessionCmd {pt d f n} (h : s.Lasts c x) : s.Lasts c (x.sessionCmd pt d f n) := by
  unfold State.sessionCmd
  extract_lets y op tag due z t
  have ht : s.Lasts c t := by
    unfold t
    split
    · exact h.freeBuf
    · exact h
  refine .ite h.setDue (.ite h.setDue ?_)
  split
  · next e => exact ht.setFab.relayCmd_eq e
  · exact h.count

theorem cmdFrame {pt d f} (h : s.Lasts c x) : s.Lasts c (x.cmdFrame pt d f) := by
  unfold State.cmdFrame
  extract_lets s1
  have hs1 : s.Lasts c s1 := by
    unfold s1
    split
    · exact .ite h.setDup h
    · exact h
  clear_value s1
  split
  · exact hs1
  · cases e : s1.relayCmd f 0x90 with
    | none => exact hs1.count
    | some y => exact hs1.relayCmd_eq e
  · split
    · next e => exact (of_fst e hs1.openSession).sessionCmd
    · next e => exact (of_fst e hs1.openSession).count.looseReply

theorem execCmdFrame {pt f} (h : s.Lasts c x) : Ans.Lasts c s (Machine.execCmdFrame pt f x) := .onFrame (fun _ _ hy => hy.cmdFrame) h

theorem pollFrame {pt d f} (h : s.Lasts c x) : s.Lasts c (x.pollFrame pt d f) := by
  unfold State.pollFrame
  refine .ite h ?_
  split
  · next e => exact (of_fst e h.openSession).setDue
  · next e => exact (of_fst e h.openSession).count.looseReply

theorem execPollFrame {pt f} (h : s.Lasts c x) : Ans.Lasts c s (Machine.execPollFrame pt f x) := .onFrame (fun _ _ hy => hy.pollFrame) h

theorem execReplyTurnaround {ses} (h : s.Lasts c x) : Ans.Lasts c s (Machine.execReplyTurnaround ses x) := by
  unfold Machine.execReplyTurnaround
  extract_lets n x1 t
  have ht : s.Lasts c t := h.setFab
  split
  · exact .next h
  · split
    · extract_lets f f2
      exact .stepIf h (.ite ht ht.request)

theorem answerSweep {pt f a8} (h : s.Lasts c x) : s.Lasts c (x.answerSweep pt f a8) :=
  .ite h.count (.ite h (h.draw (w := 4)).setFab)

theorem sweepFrame {pt d f a8} (h : s.Lasts c x) : s.Lasts c (x.sweepFrame pt d f a8) := by
  unfold State.sweepFrame
  refine .ite h ?_
  split
  · next e => exact (of_fst e h.openSession).answerSweep
  · next e => exact (of_fst e h.openSession).count.looseReply

theorem execSweepFrame {pt f a8} (h : s.Lasts c x) : Ans.Lasts c s (Machine.execSweepFrame pt f a8 x) :=
  .onFrame (fun _ _ hy => hy.sweepFrame) h

theorem sendSweep {e} (h : s.Lasts c x) : s.Lasts c (x.sendSweep e) := .ite h.request h

theorem execSweepReplySlot (h : s.Lasts c x) : Ans.Lasts c s (Machine.execSweepReplySlot x) := by
  unfold Machine.execSweepReplySlot
  extract_lets come src t
  have ht : s.Lasts c t := h.setFab
  exact .stepIf h (.foldl (fun _ _ hy => hy.sendSweep) ht)

theorem execDeviceFrameReceive {pt f} (h : s.Lasts c x) : Ans.Lasts c s (Machine.execDeviceFrameReceive pt f x) :=
  .onFrame (fun _ _ hy => .ite hy.setDup hy) h

theorem noRoute {d f} (h : s.Lasts c x) : s.Lasts c (x.noRoute d f) := by
  unfold State.noRoute
  split
  · split
    · exact h.looseReply
    · exact h
  · exact h

theorem routeFrame {pt d f} (h : s.Lasts c x) : s.Lasts c (x.routeFrame pt d f) := by
  unfold State.routeFrame
  split
  · exact h
  · split
    · exact h.count.noRoute
    · exact .ite h (.ite h.count.noRoute (.ite h.count h.synth.setFab))

theorem execFrameForward {pt f} (h : s.Lasts c x) : Ans.Lasts c s (Machine.execFrameForward pt f x) := by
  unfold Machine.execFrameForward
  refine .ite ?_ (.next h)
  split
  · exact .next h
  · next e => exact .next (h.takeFrame_eq e).routeFrame

theorem execForwardTransmit {pt} (h : s.Lasts c x) : Ans.Lasts c s (Machine.execForwardTransmit pt x) := by
  unfold Machine.execForwardTransmit
  split
  · exact .next h
  · extract_lets x1 src
    exact .stepIf h h.setFab.request

theorem beacon {pt f a8} (h : s.Lasts c x) : s.Lasts c (x.beacon pt f a8) := by
  unfold State.beacon
  extract_lets full e c1 relay event src
  split
  · extract_lets clock s1 s2
    have hs1 : s.Lasts c s1 := h.same rfl
    have hs2 : s.Lasts c s2 := .ite hs1.count hs1
    exact hs2.emit

theorem beaconSession {pt d f} (h : s.Lasts c x) : s.Lasts c (x.beaconSession pt d f) := by
  unfold State.beaconSession
  refine .ite h ?_
  split
  · next e => exact of_fst e h.openSession
  · next e => exact (of_fst e h.openSession).count.looseReply

theorem execBeaconAccept {pt f a8} (h : s.Lasts c x) : Ans.Lasts c s (Machine.execBeaconAccept pt f a8 x) :=
  .onFrame (fun _ _ hy => .ite hy.beaconSession.beacon hy.beaconSession) h

theorem execBeaconTimeout (h : s.Lasts c x) : Ans.Lasts c s (Machine.execBeaconTimeout x) := by
  unfold Machine.execBeaconTimeout
  extract_lets due src
  exact .stepIf h h.setFab

theorem execBeaconRelay (h : s.Lasts c x) : Ans.Lasts c s (Machine.execBeaconRelay x) := by
  unfold Machine.execBeaconRelay
  split
  · exact .next h
  · extract_lets src u
    have hu : s.Lasts c u := h.setFab
    exact .stepIf h (.ite hu.request hu.count)

theorem execTimeEventFire (h : s.Lasts c x) : Ans.Lasts c s (Machine.execTimeEventFire x) := by
  unfold Machine.execTimeEventFire
  split
  · exact .next h
  · extract_lets a qs src t
    have ht : s.Lasts c t := h.setFab
    exact .stepIf h (.ite (.foldl (fun _ _ hy => hy.trigger) ht) ht)

theorem execPublishSlot {n} (h : s.Lasts c x) : Ans.Lasts c s (Machine.execPublishSlot n x) := by
  unfold Machine.execPublishSlot
  split
  · exact .next h
  · extract_lets due src t a src2
    have ht : s.Lasts c t := h.setFab
    split
    · exact .stepIf h ht
    · extract_lets bytes f
      exact .stepIf h ht.setFab.requestNow

theorem commitLine {fs} (h : s.Lasts c x) : s.Lasts c (x.commitLine fs) := by
  unfold State.commitLine
  extract_lets m
  exact h.setMgmt

theorem execFabAssign {p} (h : s.Lasts c x) : Ans.Lasts c s (Machine.execFabAssign p x) := by
  unfold Machine.execFabAssign
  refine .next ?_
  refine .runCmd (fun y q ps hy => ?_) h
  extract_lets uid addr s1 s2 src
  have hs1 : s.Lasts c s1 := .ite hy.setDup hy
  have hs2 : s.Lasts c s2 := hs1.commitLine
  exact .iteDone hs1 hs2.setFab

theorem execFabBearingWrite {p} (h : s.Lasts c x) : Ans.Lasts c s (Machine.execFabBearingWrite p x) := by
  unfold Machine.execFabBearingWrite
  refine .next ?_
  refine .runCmd (fun y q ps hy => ?_) h
  extract_lets first n codes es own
  exact .iteDone hy hy.commitLine

theorem execFabBearingRead {p} (h : s.Lasts c x) : Ans.Lasts c s (Machine.execFabBearingRead p x) :=
  .next (.runCmd (fun _ _ _ hy => hy) h)

theorem execFabSessions {p} (h : s.Lasts c x) : Ans.Lasts c s (Machine.execFabSessions p x) :=
  .next (.runCmd (fun _ _ _ hy => hy) h)

theorem floorBytes {pt} (h : s.Lasts c x) : s.Lasts c (x.floorBytes pt).1 := by
  unfold State.floorBytes
  split
  · exact h
  · refine .foldl_fst (fun y v hy => ?_) h
    split
    · exact hy.draw (w := 16)
    · exact hy

theorem ageBytes {t} (h : s.Lasts c x) : s.Lasts c (x.ageBytes t).1 := by
  unfold State.ageBytes
  split
  · exact h
  · exact h.draw (w := 32)

theorem execFabNoiseFloor {p} (h : s.Lasts c x) : Ans.Lasts c s (Machine.execFabNoiseFloor p x) := by
  unfold Machine.execFabNoiseFloor
  refine .next ?_
  refine .runCmd (fun y q ps hy => ?_) h
  extract_lets n pt
  split
  · exact hy
  · split
    · rename_i a1_0 a1_1 a1_2 a1_3
      have h1_0 := of_fst a1_3 (hy.floorBytes)
      split
      · rename_i a2_0 a2_1 a2_2 a2_3
        have h2_0 := of_fst a2_3 (h1_0.ageBytes)
        exact h2_0

theorem fabTimeBytes (h : s.Lasts c x) : s.Lasts c x.fabTimeBytes.1 := h.ageBytes

theorem fabTime {p} {act : State → Nat → Option State} (hact : ∀ y n z, s.Lasts c y → act y n = some z → s.Lasts c z)
    (h : s.Lasts c x) : s.Lasts c (x.fabTime p act) := by
  refine .runCmd (fun y q ps hy => ?_) h
  split
  · exact hy
  · split
    · exact hy
    · next z e => exact (hact _ _ _ hy e).fabTimeBytes

theorem execFabTimeRead {p} (h : s.Lasts c x) : Ans.Lasts c s (Machine.execFabTimeRead p x) :=
  .next (.ite h (.fabTime (by rintro y n z hy ⟨⟩; exact hy) h))

theorem execFabTimeSetEvent {p} (h : s.Lasts c x) : Ans.Lasts c s (Machine.execFabTimeSetEvent p x) :=
  .next (.ite (.fabTime (by rintro y n z hy ⟨⟩; exact hy.setFab) h) h)

theorem execFabTimeClearEvent {p} (h : s.Lasts c x) : Ans.Lasts c s (Machine.execFabTimeClearEvent p x) :=
  .next (.ite (.fabTime (by rintro y n z hy ⟨⟩; exact hy.setFab) h) h)

theorem execFabTimeSetCount {p} (h : s.Lasts c x) : Ans.Lasts c s (Machine.execFabTimeSetCount p x) := by
  refine .next (.ite (.fabTime (fun y n z hy e => ?_) h) h)
  split at e
  · cases e
  · cases e; exact hy.same rfl

theorem execFabPublishSlots {p} (h : s.Lasts c x) : Ans.Lasts c s (Machine.execFabPublishSlots p x) := by
  unfold Machine.execFabPublishSlots
  refine .next ?_
  refine .runCmd (fun y q ps hy => ?_) h
  extract_lets fs rsvd bad
  exact .iteDone hy hy.commitLine

/-! ## M16 -/

theorem m16Done {op st res} (h : s.Lasts c x) : s.Lasts c (Machine.m16Done op x st res).state := h

theorem toM16 {op} {d : Done} (h : s.Lasts c d.state) : s.Lasts c (d.toM16 op).state := by
  cases d <;> exact h

theorem runM16 {cmd p} {own : State → List Byte → Done} (hown : ∀ y ps, s.Lasts c y → s.Lasts c (own y ps).state)
    (h : s.Lasts c x) : s.Lasts c (x.runM16 cmd p own) :=
  .runCmd (fun _ _ _ hy => .toM16 (hown _ _ hy)) h

theorem execStartConv {p} (h : s.Lasts c x) : Ans.Lasts c s (Machine.execStartConv p x) := by
  unfold Machine.execStartConv
  refine .next ?_
  refine .runM16 (fun y ps hy => ?_) h
  exact hy.seqStart

theorem execStopConv {p} (h : s.Lasts c x) : Ans.Lasts c s (Machine.execStopConv p x) := by
  unfold Machine.execStopConv
  refine .next ?_
  refine .runM16 (fun y ps hy => ?_) h
  exact hy.seqStop

theorem execTrigConv {p} (h : s.Lasts c x) : Ans.Lasts c s (Machine.execTrigConv p x) := by
  unfold Machine.execTrigConv
  refine .next ?_
  refine .runM16 (fun y ps hy => ?_) h
  exact hy.seqTrigger

theorem execReadChannel {p} (h : s.Lasts c x) : Ans.Lasts c s (Machine.execReadChannel p x) :=
  .next (.runM16 (fun _ _ hy => .iteDone hy hy.linRead) h)

theorem execReadPv {p} (h : s.Lasts c x) : Ans.Lasts c s (Machine.execReadPv p x) := .next (.runM16 (fun _ _ hy => hy.varRead) h)

theorem execLoopFix {p} (h : s.Lasts c x) : Ans.Lasts c s (Machine.execLoopFix p x) := by
  unfold Machine.execLoopFix
  refine .next ?_
  refine .runM16 (fun y ps hy => ?_) h
  exact hy.setFixed

theorem execLoopFree {p} (h : s.Lasts c x) : Ans.Lasts c s (Machine.execLoopFree p x) :=
  .next (.runM16 (fun _ _ hy => hy.releaseFixed) h)

theorem runTrim {op point p} (h : s.Lasts c x) : s.Lasts c (x.runTrim op point p) := .runM16 (fun _ _ hy => hy.loopTrim) h

theorem execLoopTrimZero {p} (h : s.Lasts c x) : Ans.Lasts c s (Machine.execLoopTrimZero p x) := .next h.runTrim

theorem execLoopTrimSpan {p} (h : s.Lasts c x) : Ans.Lasts c s (Machine.execLoopTrimSpan p x) := .next h.runTrim

theorem execCalWrite {p} (h : s.Lasts c x) : Ans.Lasts c s (Machine.execCalWrite p x) :=
  .next (.runCmd (fun _ _ _ hy => hy.setNvm rfl) h)

theorem execCalRead {p} (h : s.Lasts c x) : Ans.Lasts c s (Machine.execCalRead p x) := .next (.runCmd (fun _ _ _ hy => hy) h)

theorem execSaveConfig {p} (h : s.Lasts c x) : Ans.Lasts c s (Machine.execSaveConfig p x) :=
  .next (.runCmd (fun _ _ _ hy => .toM16 hy.almSave) h)

theorem execIdentify {p} (h : s.Lasts c x) : Ans.Lasts c s (Machine.execIdentify p x) := .next (.runM16 (fun _ _ hy => hy) h)

theorem execStatus {p} (h : s.Lasts c x) : Ans.Lasts c s (Machine.execStatus p x) :=
  .next (.runM16 (fun _ _ hy => hy.clearOverrun) h)

theorem execRegRead {p} (h : s.Lasts c x) : Ans.Lasts c s (Machine.execRegRead p x) :=
  .next (.runCmd (fun _ _ _ hy => hy.draw (w := 512)) h)

theorem regWrite {ps} (h : s.Lasts c x) : s.Lasts c (x.regWrite ps).state := by
  unfold State.regWrite
  dsimp only
  split_ifs
  · exact h
  · split
    · exact h
    · exact h.setMgmt.postTokens

theorem execRegWrite {p} (h : s.Lasts c x) : Ans.Lasts c s (Machine.execRegWrite p x) :=
  .next (.runCmd (fun _ _ _ hy => .toM16 hy.regWrite) h)

/-! ## Tick -/

theorem flushTick (h : s.Lasts c x) : s.Lasts c x.flushTick := by
  unfold State.flushTick
  extract_lets s1 s2
  have hs1 : s.Lasts c s1 := .ite h h.endCollect
  have hs2 : s.Lasts c s2 := .ite hs1 hs1.armDue
  exact .ite hs2.correct hs2

theorem measTick {sampled passed was} (h : s.Lasts c x) : s.Lasts c (x.measTick sampled passed was) := by
  unfold State.measTick
  extract_lets a m r m1 m2
  have hm2 : m2.queue = x.meas.queue := by
    unfold m2
    split
    · rw [Meas.windowsPass_queue, Meas.sxPass_queue]
    · rfl
  refine h.setMeas (congrArg _ ?_)
  split
  · rw [Meas.sxStart_queue, hm2]
  · exact hm2

theorem traceSwitch (h : s.Lasts c x) : s.Lasts c x.traceSwitch := by
  unfold State.traceSwitch
  extract_lets on src n s1
  have hs1 : s.Lasts c s1 := h.setObs
  exact .ite h.setObs hs1.countN

theorem enterSeason {x'} (h : s.Lasts c x) : s.Lasts c (x.enterSeason x') :=
  .ite h h.setEnergy.ring.emitEnergy.updateRegister.traceSwitch

theorem auxLoss (h : s.Lasts c x) : s.Lasts c x.auxLoss := by
  unfold State.auxLoss
  extract_lets src e
  exact h.setEnergy.enterSeason.auxCheck

theorem withdrawAuxAlarm (h : s.Lasts c x) : s.Lasts c x.withdrawAuxAlarm :=
  .ite (.schedule (h.setFaults (Faults.showAlarms_length _))) h

theorem extraTick (h : s.Lasts c x) : s.Lasts c x.extraTick := by
  unfold State.extraTick
  extract_lets e
  exact h.setEnergy

theorem auxDetect (h : s.Lasts c x) : s.Lasts c x.auxDetect := .enterSeason (.setEnergy (h.setEnergy.setMeas (by simp)))

theorem auxTick (h : s.Lasts c x) : s.Lasts c x.auxTick := by
  unfold State.auxTick
  extract_lets src t
  have ht : s.Lasts c t := h.setEnergy
  split
  · exact ht.auxDetect
  · exact ht.auxLoss
  · exact .ite h.enterSeason h

theorem supplyTick {i} (h : s.Lasts c x) : s.Lasts c (x.supplyTick i) := by
  unfold State.supplyTick
  extract_lets s1 s2
  have hs1 : s.Lasts c s1 := h.auxTick
  have hs2 : s.Lasts c s2 := .ite hs1.enterSeason hs1
  exact hs2.setEnergy

theorem clockTick (h : s.Lasts c x) : s.Lasts c x.clockTick := by
  unfold State.clockTick
  extract_lets s1 s2 src
  have hs1 : s.Lasts c s1 := h.setEnergy
  have hs2 : s.Lasts c s2 := hs1.extraTick
  exact .ite hs2 hs2.setEnergy.emitEnergy

theorem powerTick {i} (h : s.Lasts c x) : s.Lasts c (x.powerTick i) := by
  unfold State.powerTick
  extract_lets t
  have ht : s.Lasts c t := h.supplyTick.clockTick
  exact .ite ht ht.updateRegister

theorem consumeTrace {m} (h : s.Lasts c x) : s.Lasts c (x.consumeTrace m) := by
  unfold State.consumeTrace
  extract_lets rest used src
  exact .ite h (.ite h.setObs h.traceLost)

theorem fileTrace (h : s.Lasts c x) : s.Lasts c x.fileTrace := .foldl (fun _ _ hy => hy.consumeTrace) h.setObs

theorem traceTick {moved toks} (h : s.Lasts c x) : s.Lasts c (x.traceTick moved toks) := h.setObs.traceSwitch.setObs.setPins

theorem execTraceSync (h : s.Lasts c x) : Ans.Lasts c s (Machine.execTraceSync x) := by
  unfold Machine.execTraceSync
  extract_lets o c1 t src
  have ht : s.Lasts c t := h.setObs
  exact .stepIf h ht.setPins

theorem loseMb {k} (h : s.Lasts c x) : s.Lasts c (x.loseMb k) := h.setWin rfl

theorem without_eq {t y} (h : s.Lasts c x) (e : x.without t = some y) : s.Lasts c y := by
  have hsome {p : Prop} [Decidable p] {z : State} (hz : s.Lasts c z) (e : (if p then some z else none) = some y) : s.Lasts c y := by
    split at e
    · cases e; exact hz
    · cases e
  have hdrop {u : Bool} {l : LoopOut} (e : (if x.loop.sched.any (·.crosses u x.now) then some (x.setLoop l) else none) = some y) :
    s.Lasts c y := hsome h.setLoop e
  cases t <;> unfold State.without at e <;> dsimp only at e
  case alarm =>
    split at e
    · exact hdrop e
    · cases e
  case dacHold => exact hdrop e
  case feed =>
    split at e
    · exact hsome h.setLoop e
    · cases e
  case relay =>
    split at e
    · exact hsome h.setFab e
    · cases e
  case report =>
    split at e
    · cases e; exact h.setFaults rfl
    · cases e
  case notice => exact hsome h.loseMb e
  case ack =>
    split at e
    · exact hsome h.loseMb e
    · cases e
  case measApply => exact hsome h.setMgmt e
  case loopApply =>
    split at e
    · cases e; exact h.setMgmt
    · exact hsome h.setMgmt e
  case lineApply => exact hsome h.setMgmt e
  case tapDrain =>
    split at e
    · cases e
    · cases e; exact h.passDrain
  case trace =>
    split at e
    · cases e
    · cases e; exact h.setObs

theorem checkCrossing {cr} (h : s.Lasts c x) : s.Lasts c (x.checkCrossing cr) := by
  unfold State.checkCrossing
  refine .ite ?_ h
  split
  · next e => exact .ite (h.without_eq e).parityErrorAt (h.without_eq e).parityError
  · exact h

theorem checkCrossings {real} (h : s.Lasts c x) : s.Lasts c (x.checkCrossings real) := .foldl (fun _ _ hy => hy.checkCrossing) h

theorem beats {b} (h : s.Lasts c x) : s.Lasts c (x.beats b) := h.same rfl

theorem endFsk (h : s.Lasts c x) : s.Lasts c x.endFsk := by
  unfold State.endFsk
  extract_lets ended src
  exact .ite (h.same rfl) h

theorem enterPosts (h : s.Lasts c x) : s.Lasts c x.enterPosts := .foldl (fun _ _ hy => hy.postWaiting) h

theorem relayTick (h : s.Lasts c x) : s.Lasts c x.relayTick := by
  unfold State.relayTick
  split
  · exact .ite h.setFab h
  · exact h

theorem mailTick (h : s.Lasts c x) : s.Lasts c x.mailTick := .ite h h.relayTick.lateAcks.takeNotices.enterPosts.postMb2.postNext

theorem boundary {i} (h : s.Lasts c x) : s.Lasts c (x.boundary i) := by
  unfold State.boundary
  extract_lets s1 sampled s2 passed was moved s3 s4 s5 toks s6 s7 s8 s9 src s10 s11 s12 src2
  have hs1 : s.Lasts c s1 := h.fileTrace.attestTick.flushTick
  have hs2 : s.Lasts c s2 := hs1.visit
  have hs3 : s.Lasts c s3 := hs2.setObs
  have hs4 : s.Lasts c s4 := hs3.same rfl
  have hs5 : s.Lasts c s5 := hs4.checkCrossings
  have hs6 : s.Lasts c s6 := hs5.setObs
  have hs7 : s.Lasts c s7 := hs6.setPins
  have hs8 : s.Lasts c s8 := hs7.measTick.bufferCheck.beats
  have hs9 : s.Lasts c s9 := hs8.powerTick
  have hs10 : s.Lasts c s10 := hs9.setLoop
  have hs11 : s.Lasts c s11 := hs10.loopTick.endFsk.portTick.portTick.mailTick.takeResets
  have hs12 : s.Lasts c s12 := hs11.driveExc
  exact hs12.setPins.traceTick

theorem execTickBoundary {i} (h : s.Lasts c x) : Ans.Lasts c s (Machine.execTickBoundary i x) := .stepIf h h.boundary

/-! ## Power -/

theorem unpowered (h : s.Lasts c x) : s.Lasts c x.unpowered :=
  h.trans { State.Lasts.refl x with memory := fun _ => rfl, queue := fun _ => Nat.zero_le _, log := fun _ => Nat.zero_le _ }

theorem execAonPowerOnReset (h : s.Lasts c x) : Ans.Lasts c s (Machine.execAonPowerOnReset x) := .stepIf h h.unpowered

theorem loadNvm (h : s.Lasts c x) (hc : c → ctrPages.1 ∉ x.nvm.bad ∧ ctrPages.2 ∉ x.nvm.bad) : s.Lasts c x.loadNvm := by
  unfold State.loadNvm
  extract_lets s1 n tables m p s2 l s3
  have hs1 : s.Lasts c s1 := by
    refine h.trans { State.Lasts.refl (c := c) x with counters := fun hp hr => ?_ }
    obtain ⟨hA, hB⟩ := hc hp
    have hl : x.nvm.loadRec x.nvm.ctrRecs ctrPages = some (x.nvm.ctrVendor, x.nvm.ctrOem) := by
      simpa [Nvm.loadRec, hA, hB] using (show x.nvm.ctrRecs.load true true = _ from hr)
    simp only [s1, State.recorded, State.setNvm_nvm, Nvm.loadIdentity, hl, Option.getD_some]
    exact ⟨le_rfl, le_rfl, hr⟩
  have hs2 : s.Lasts c s2 := hs1.setMeas rfl
  exact hs2.setLoop.setMgmt

theorem execAonPowerUp {testEn} (h : s.Lasts c x) (hc : c → ctrPages.1 ∉ x.nvm.bad ∧ ctrPages.2 ∉ x.nvm.bad) :
    Ans.Lasts c s (Machine.execAonPowerUp testEn x) := by
  have ht : s.Lasts c x.unpowered.loadNvm := h.unpowered.loadNvm hc
  exact .stepIf h (.setLoop (ht.same rfl))

theorem execCrystalStart (h : s.Lasts c x) : Ans.Lasts c s (Machine.execCrystalStart x) := .stepIf h (.setEnergy (h.same rfl))

theorem autoStart {a} (h : s.Lasts c x) : s.Lasts c (x.autoStart a) := h.setMeas (by simp)

theorem loadAlm {a m fs} (h : s.Lasts c x) : s.Lasts c (x.loadAlm a m fs) := by
  unfold State.loadAlm
  extract_lets old tok src s1 src2 s2 src3 s3 src4
  have hs1 : s.Lasts c s1 := h.setMgmt
  have hs2 : s.Lasts c s2 := hs1.setMeas rfl
  have hs3 : s.Lasts c s3 := hs2.setEnergy
  exact hs3.setLoop.autoStart

theorem startAlm (h : s.Lasts c x) : s.Lasts c x.startAlm := by
  unfold State.startAlm
  extract_lets a src src2
  split
  · exact h.loadAlm
  · exact h.setMgmt.setMeas rfl

theorem loadOnce (h : s.Lasts c x) : s.Lasts c x.loadOnce := .ite h.setMgmt.startAlm h

theorem bootOk (h : s.Lasts c x) : s.Lasts c x.bootOk := by
  unfold State.bootOk
  extract_lets src s1 src2 src3
  have hs1 : s.Lasts c s1 := .setIsl (h.same rfl)
  exact .ite (.freeFaultN (.setMgmt (hs1.setFaults rfl))) hs1

theorem execBootVerify {activeOk otherOk} (h : s.Lasts c x) : Ans.Lasts c s (Machine.execBootVerify activeOk otherOk x) := by
  unfold Machine.execBootVerify
  extract_lets d src d' other t
  have ht : s.Lasts c t := .ite h.bootOk (.ite h.setDir.bootOk (h.same rfl))
  exact .stepIf h ht

theorem resetIsland {i} (h : s.Lasts c x) : s.Lasts c (x.resetIsland i) := by
  unfold State.resetIsland
  extract_lets s1
  have hs1 : s.Lasts c s1 := .ite h h.fence.emitIsland
  exact hs1.setIsl

theorem discardAct {i} (h : s.Lasts c x) : s.Lasts c (x.discardAct i) := by
  unfold State.discardAct
  extract_lets d
  exact .ite h.setDir h

theorem rstN (h : s.Lasts c x) : s.Lasts c x.rstN := by
  unfold State.rstN
  extract_lets s1 s2 src src2 src3 src4 s3
  have hs1 : s.Lasts c s1 := h.resetIsland.resetIsland.resetIsland
  have hs2 : s.Lasts c s2 := .foldl (fun _ _ hy => hy.discardAct) hs1
  have hs3 : s.Lasts c s3 := hs2.same rfl
  split
  · exact hs3.setLoop

theorem rstNTraced (h : s.Lasts c x) : s.Lasts c x.rstNTraced := h.rstN.loopTrace

theorem execRstNAssert (h : s.Lasts c x) : Ans.Lasts c s (Machine.execRstNAssert x) := .stepIf h h.rstNTraced

theorem execRstNRelease {testEn} (h : s.Lasts c x) : Ans.Lasts c s (Machine.execRstNRelease testEn x) := .stepIf h h.setPins

theorem miswireReading {loopIn} (h : s.Lasts c x) : s.Lasts c (x.miswireReading loopIn) := .ite h.setLoop (.ite h h.setMiswire)

theorem execSupplyReading {r} (h : s.Lasts c x) : Ans.Lasts c s (Machine.execSupplyReading r x) := by
  unfold Machine.execSupplyReading
  extract_lets t src
  have ht : s.Lasts c t := h.setEnergy.miswireReading
  exact .stepIf h (.ite ht.setEnergy ht)

theorem bootWait (h : s.Lasts c x) : s.Lasts c x.bootWait := .ite (.emitIsland (h.same rfl)) h

theorem execEvaluationBoundary {i} (h : s.Lasts c x) : Ans.Lasts c s (Machine.execEvaluationBoundary i x) := by
  unfold Machine.execEvaluationBoundary
  extract_lets t t2 t3 src t4
  have ht : s.Lasts c t := h.setEnergy
  have ht2 : s.Lasts c t2 := .ite ht.report ht
  have ht3 : s.Lasts c t3 := ht2.enterSeason
  have ht4 : s.Lasts c t4 := .ite ht2 (.ite ht3.setEnergy.withdrawAuxAlarm ht3)
  exact .stepIf h ht4.auxCheck.bootWait.updateRegister

theorem execBoostRequest (h : s.Lasts c x) : Ans.Lasts c s (Machine.execBoostRequest x) := by
  unfold Machine.execBoostRequest
  extract_lets e f cost asked src granted
  have hasked : s.Lasts c asked := h.setEnergy
  have hgranted : s.Lasts c granted := hasked.setEnergy.emitEnergy
  exact .stepIf h (.ite hgranted hasked)

theorem stopIsland {i} (h : s.Lasts c x) : s.Lasts c (x.stopIsland i) := by
  unfold State.stopIsland
  extract_lets x1
  exact .ite h.setIsl h.assertReset

theorem execLoopLowStop (h : s.Lasts c x) : Ans.Lasts c s (Machine.execLoopLowStop x) := .stepIf h h.stopIsland.report

theorem execBuckUndervoltageStop (h : s.Lasts c x) : Ans.Lasts c s (Machine.execBuckUndervoltageStop x) := by
  unfold Machine.execBuckUndervoltageStop
  extract_lets t t2
  have ht : s.Lasts c t := h.stopIsland.stopIsland
  have ht2 : s.Lasts c t2 := .ite (ht.same rfl) ht
  exact .stepIf h ht2

theorem recover (h : s.Lasts c x) : s.Lasts c x.recover := by
  unfold State.recover
  extract_lets all go t
  have ht : s.Lasts c t := h.same rfl
  exact .ite ht (.ite (ht.same rfl) (.emitIsland (ht.same rfl)))

theorem execBrownoutRecovery (h : s.Lasts c x) : Ans.Lasts c s (Machine.execBrownoutRecovery x) := by
  unfold Machine.execBrownoutRecovery
  extract_lets any
  exact .stepIf h h.recover

theorem execClockLoss (h : s.Lasts c x) : Ans.Lasts c s (Machine.execClockLoss x) := by
  unfold Machine.execClockLoss
  extract_lets src src2 t start src3
  have ht : s.Lasts c t := h.same rfl
  have hstart : s.Lasts c start := h.same rfl
  exact .stepIf h (.ite ht.report hstart.setEnergy)

theorem execClockRestore (h : s.Lasts c x) : Ans.Lasts c s (Machine.execClockRestore x) := .stepIf h (h.same rfl)

theorem imageFault {isl} (h : s.Lasts c x) : s.Lasts c (x.imageFault isl) := h.setIsl.report

theorem execIslandResetRelease {isl digestOk} (h : s.Lasts c x) : Ans.Lasts c s (Machine.execIslandResetRelease isl digestOk x) := by
  unfold Machine.execIslandResetRelease
  extract_lets x1 good t
  have ht : s.Lasts c t := .emitIsland (.ite h.loadOnce h)
  exact .ite (.stepIf h (.ite h.setIsl h.imageFault)) (.ite (.stepIf h (.ite h.setIsl h.imageFault)) (.stepIf h (.ite ht.setIsl ht.imageFault)))

theorem freeLocks {i} (h : s.Lasts c x) : s.Lasts c (x.freeLocks i) := h.setWin rfl

theorem withdrawFree {k} (h : s.Lasts c x) : s.Lasts c (x.withdrawFree k) := by
  unfold State.withdrawFree
  extract_lets m t
  have ht : s.Lasts c t := h.withdraw
  exact .ite (.ite ht ht.setOwner) h

theorem oweUp {i} (h : s.Lasts c x) : s.Lasts c (x.oweUp i) := .ite (.postReq (h.setFaults rfl)) h

theorem dropRunning (h : s.Lasts c x) : s.Lasts c x.dropRunning := by
  unfold State.dropRunning
  extract_lets mb2 waiting kept lost src
  exact h.setFab

theorem returnBufs (h : s.Lasts c x) : s.Lasts c x.returnBufs := by
  unfold State.returnBufs
  extract_lets mb0 held
  refine .foldl (fun y a hy => ?_) ?_
  · extract_lets o
    exact .ite hy.setOwner hy
  · exact h

theorem repostMeas (h : s.Lasts c x) : s.Lasts c x.repostMeas := h.setMgmt

theorem upMgmt (h : s.Lasts c x) : s.Lasts c x.upMgmt := by
  unfold State.upMgmt
  extract_lets s1 s2 s3
  have hs1 : s.Lasts c s1 := by
    unfold s1
    dsimp only
    exact .ite h.withdraw h
  have hs3 : s.Lasts c s3 := hs1.withdrawFree.withdrawFree.withdrawFree.dropRunning.returnBufs
  clear_value s3
  exact .ring (hs3.same rfl)

theorem withdrawCmd {w} (h : s.Lasts c x) : s.Lasts c (x.withdrawCmd w) := h.freeBuf.unaccept

theorem upLoop (h : s.Lasts c x) : s.Lasts c x.upLoop := by
  unfold State.upLoop
  extract_lets mb2 s1 s2 src s3 l s4 rs src2
  have hs1 : s.Lasts c s1 := .ite h.withdraw.withdrawCmd h
  have hs2 : s.Lasts c s2 := .foldl (fun _ _ hy => hy.freeBuf) hs1
  have hs3 : s.Lasts c s3 := hs2.setFab
  have hs4 : s.Lasts c s4 := hs3.setLoop
  exact .foldl (fun _ _ hy => hy.fabricReply) hs4.setFab

theorem measBase (h : s.Lasts c x) : s.Lasts c x.measBase := h.boundMeas fun _ => Nat.zero_le _

theorem startMeas (h : s.Lasts c x) : s.Lasts c x.startMeas := by
  unfold State.startMeas
  extract_lets s1 src r a fresh src2
  have hs1 : s.Lasts c s1 := h.measBase
  exact hs1.setMeas rfl

theorem rejoinMeas (h : s.Lasts c x) : s.Lasts c x.rejoinMeas := by
  unfold State.rejoinMeas
  extract_lets s1 m src
  have hs1 : s.Lasts c s1 := h.measBase
  exact hs1.setMeas rfl

theorem upMeas (h : s.Lasts c x) : s.Lasts c x.upMeas := by
  unfold State.upMeas
  extract_lets s1
  have hs1 : s.Lasts c s1 := h.withdrawFree
  exact .repostMeas (.driveExc (.ite hs1.rejoinMeas hs1.startMeas))

theorem serve {a} (h : s.Lasts c x) : s.Lasts c (x.serve a) := by
  unfold State.serve
  split
  · exact h.upMgmt
  · exact h.upLoop
  · exact h.upMeas
  · exact h.withdrawFree

theorem execIslandUp {isl} (h : s.Lasts c x) : Ans.Lasts c s (Machine.execIslandUp isl x) := by
  unfold Machine.execIslandUp
  extract_lets x1 t src t2
  have ht : s.Lasts c t := h.setIsl.emitIsland.freeLocks
  have ht2 : s.Lasts c t2 := ht.setPins
  exact .stepIf h (.oweUp (.ite ht2.serve.loadOnce ht2.serve))

end State.Lasts

/-- Every instruction keeps it: each rule is the instruction's own. -/
theorem Ans.Lasts.exec {c : Prop} {s x : State} {i : Instr} (h : s.Lasts c x)
    (hc : ∀ b, i = .aonPowerUp b → c → ctrPages.1 ∉ x.nvm.bad ∧ ctrPages.2 ∉ x.nvm.bad) : Ans.Lasts c s (exec i x) := by
  cases i with
  | aonPowerUp b => exact h.execAonPowerUp (hc b rfl)
  | devIdentify => exact h.execDevIdentify
  | devStatus => exact h.execDevStatus
  | devResetIsland => exact h.execDevResetIsland
  | almWrite => exact h.execAlmWrite
  | almRead => exact h.execAlmRead
  | almApply => exact h.execAlmApply
  | almCheck => exact h.execAlmCheck
  | almSave => exact h.execAlmSave
  | seqStart => exact h.execSeqStart
  | seqStop => exact h.execSeqStop
  | seqTrigger => exact h.execSeqTrigger
  | queueBind => exact h.execQueueBind
  | sliceRetire => exact h.execSliceRetire
  | sliceRestore => exact h.execSliceRestore
  | linLoad => exact h.execLinLoad
  | linSwap => exact h.execLinSwap
  | linRead => exact h.execLinRead
  | varRead => exact h.execVarRead
  | loopSetFixed => exact h.execLoopSetFixed
  | loopRelease => exact h.execLoopRelease
  | loopTrim => exact h.execLoopTrim
  | loopStatus => exact h.execLoopStatus
  | fabAssign => exact h.execFabAssign
  | fabBearingWrite => exact h.execFabBearingWrite
  | fabBearingRead => exact h.execFabBearingRead
  | fabSessions => exact h.execFabSessions
  | fabNoiseFloor => exact h.execFabNoiseFloor
  | fabTimeRead => exact h.execFabTimeRead
  | fabTimeSetEvent => exact h.execFabTimeSetEvent
  | fabTimeClearEvent => exact h.execFabTimeClearEvent
  | fabTimeSetCount => exact h.execFabTimeSetCount
  | fabPublishSlots => exact h.execFabPublishSlots
  | fskPass => exact h.execFskPass
  | fltReadLog => exact h.execFltReadLog
  | fltAck => exact h.execFltAck
  | fltInject => exact h.execFltInject
  | fltClear => exact h.execFltClear
  | secAttest => exact h.execSecAttest
  | secCertRead => exact h.execSecCertRead
  | updBegin => exact h.execUpdBegin
  | updChunk => exact h.execUpdChunk
  | updVerify => exact h.execUpdVerify
  | updActivate => exact h.execUpdActivate
  | secGrant => exact h.execSecGrant
  | updVersionInfo => exact h.execUpdVersionInfo
  | obsCounters => exact h.execObsCounters
  | obsTraceSelect => exact h.execObsTraceSelect
  | obsEnergy => exact h.execObsEnergy
  | regRead => exact h.execRegRead
  | regWrite => exact h.execRegWrite
  | startConv => exact h.execStartConv
  | stopConv => exact h.execStopConv
  | trigConv => exact h.execTrigConv
  | readChannel => exact h.execReadChannel
  | readPv => exact h.execReadPv
  | loopFix => exact h.execLoopFix
  | loopFree => exact h.execLoopFree
  | loopTrimZero => exact h.execLoopTrimZero
  | loopTrimSpan => exact h.execLoopTrimSpan
  | calWrite => exact h.execCalWrite
  | calRead => exact h.execCalRead
  | saveConfig => exact h.execSaveConfig
  | identify => exact h.execIdentify
  | status => exact h.execStatus
  | commandFragment => exact h.execCommandFragment
  | continuationRead => exact h.execContinuationRead
  | assemblyDiscard => exact h.execAssemblyDiscard
  | outstandingCompletion => exact h.execOutstandingCompletion
  | spiWrite => exact h.execSpiWrite
  | bufferClaim => exact h.execBufferClaim
  | bufferRelease => exact h.execBufferRelease
  | mb0Post => exact h.execMb0Post
  | mb1AckAccepted => exact h.execMb1AckAccepted
  | mb1AckBadNotice => exact h.execMb1AckBadNotice
  | mb0AckRead => exact h.execMb0AckRead
  | doorbellClear => exact h.execDoorbellClear
  | lockAcquire => exact h.execLockAcquire
  | lockRelease => exact h.execLockRelease
  | queueRead => exact h.execQueueRead
  | mb0NoticeConsume => exact h.execMb0NoticeConsume
  | mbAcknowledge => exact h.execMbAcknowledge
  | mbTimeout => exact h.execMbTimeout
  | cross => exact h.execCross
  | crystalStart => exact h.execCrystalStart
  | aonPowerOnReset => exact h.execAonPowerOnReset
  | bootVerify => exact h.execBootVerify
  | rstNAssert => exact h.execRstNAssert
  | rstNRelease => exact h.execRstNRelease
  | tickBoundary => exact h.execTickBoundary
  | supplyReading => exact h.execSupplyReading
  | evaluationBoundary => exact h.execEvaluationBoundary
  | boostRequest => exact h.execBoostRequest
  | loopLowStop => exact h.execLoopLowStop
  | buckUndervoltageStop => exact h.execBuckUndervoltageStop
  | brownoutRecovery => exact h.execBrownoutRecovery
  | vioShort => exact h.execVioShort
  | complianceEnter => exact h.execComplianceEnter
  | complianceClear => exact h.execComplianceClear
  | miswireFold => exact h.execMiswireFold
  | miswireRetry => exact h.execMiswireRetry
  | miswireClear => exact h.execMiswireClear
  | clockLoss => exact h.execClockLoss
  | clockRestore => exact h.execClockRestore
  | blankFreeze => exact h.execBlankFreeze
  | blankResume => exact h.execBlankResume
  | blankStuck => exact h.execBlankStuck
  | gpioTrigger => exact h.execGpioTrigger
  | triggerWindowStart => exact h.execTriggerWindowStart
  | triggerWindowEnd => exact h.execTriggerWindowEnd
  | roundStart => exact h.execRoundStart
  | roundAlignment => exact h.execRoundAlignment
  | slotConversion => exact h.execSlotConversion
  | rawSampleCorrection => exact h.execRawSampleCorrection
  | linearisation => exact h.execLinearisation
  | calibrationConversion => exact h.execCalibrationConversion
  | breakCheck => exact h.execBreakCheck
  | sliceCheckFail => exact h.execSliceCheckFail
  | fallbackMapSwitch => exact h.execFallbackMapSwitch
  | failureMapCompile => exact h.execFailureMapCompile
  | qualificationEnd => exact h.execQualificationEnd
  | sextantComparison => exact h.execSextantComparison
  | sextantReferenceWindow => exact h.execSextantReferenceWindow
  | linSwapEffect => exact h.execLinSwapEffect
  | tapDrain => exact h.execTapDrain
  | streamFlush => exact h.execStreamFlush
  | loopUpdate => exact h.execLoopUpdate
  | holdUpdate => exact h.execHoldUpdate
  | interruption => exact h.execInterruption
  | holdLimitExpiry => exact h.execHoldLimitExpiry
  | feedReplay => exact h.execFeedReplay
  | energyBlock => exact h.execEnergyBlock
  | sync => exact h.execSync
  | qualifierWindowEnd => exact h.execQualifierWindowEnd
  | modeDecision => exact h.execModeDecision
  | symbolDemod => exact h.execSymbolDemod
  | headerVerdict => exact h.execHeaderVerdict
  | codewordDecode => exact h.execCodewordDecode
  | muteEnd => exact h.execMuteEnd
  | noiseFloorUpdate => exact h.execNoiseFloorUpdate
  | packetTransmitStart => exact h.execPacketTransmitStart
  | idleLineApply => exact h.execIdleLineApply
  | fskCarrierOn => exact h.execFskCarrierOn
  | fskCarrierOff => exact h.execFskCarrierOff
  | fskOctetReceive => exact h.execFskOctetReceive
  | fskTransmitStart => exact h.execFskTransmitStart
  | fskPassTimeout => exact h.execFskPassTimeout
  | cmdFrame => exact h.execCmdFrame
  | pollFrame => exact h.execPollFrame
  | sweepFrame => exact h.execSweepFrame
  | beaconAccept => exact h.execBeaconAccept
  | beaconTimeout => exact h.execBeaconTimeout
  | beaconRelay => exact h.execBeaconRelay
  | timeEventFire => exact h.execTimeEventFire
  | deviceFrameReceive => exact h.execDeviceFrameReceive
  | frameForward => exact h.execFrameForward
  | forwardTransmit => exact h.execForwardTransmit
  | replyTurnaround => exact h.execReplyTurnaround
  | sweepReplySlot => exact h.execSweepReplySlot
  | publishSlot => exact h.execPublishSlot
  | sessionClose => exact h.execSessionClose
  | faultReport => exact h.execFaultReport
  | watchdogExpiry => exact h.execWatchdogExpiry
  | clockOutOfLock => exact h.execClockOutOfLock
  | tempHigh => exact h.execTempHigh
  | supRail => exact h.execSupRail
  | graceExpiry => exact h.execGraceExpiry
  | autoAck => exact h.execAutoAck
  | faultNRelease => exact h.execFaultNRelease
  | snapshotWrite => exact h.execSnapshotWrite
  | injectionArm => exact h.execInjectionArm
  | shadowEnd => exact h.execShadowEnd
  | islandResetRelease => exact h.execIslandResetRelease
  | islandUp => exact h.execIslandUp
  | activation => exact h.execActivation
  | trialCommit => exact h.execTrialCommit
  | trialRevert => exact h.execTrialRevert
  | updSessionTimeout => exact h.execUpdSessionTimeout
  | traceSync => exact h.execTraceSync
  | packetTransmitEnd => exact h.execPacketTransmitEnd
  | islandRequestTimeout => exact h.execIslandRequestTimeout
  | oemDigestFuse => exact h.execOemDigestFuse

/-- The condition for the signature counters: the step is no power-up, or both their pages can be read. -/
def State.CtrRead (s : State) : Prop :=
  (∀ b, s.pending.head? ≠ some (.aonPowerUp b)) ∨ (ctrPages.1 ∉ s.nvm.bad ∧ ctrPages.2 ∉ s.nvm.bad)

theorem step_lasts {s t : State} (e : step s = .next t) : s.Lasts s.CtrRead t := by
  cases hp : s.pending with
  | nil =>
    rw [step, hp] at e
    cases e
    exact .refl s
  | cons i cs =>
    have e' : exec i { s with pending := cs } = .next t := by rwa [step, hp] at e
    have h : s.Lasts s.CtrRead { s with pending := cs } := (State.Lasts.refl s).same rfl
    refine Ans.Lasts.exec h (fun b hb hc => ?_) t e'
    exact hc.resolve_left fun hn => hn b (by rw [hp, hb]; rfl)

/-- Settles O18: every operation and every instruction keeps the canonical form. -/
theorem everyStepKeepsMemoryCanonical : Obligations.EveryStepKeepsMemoryCanonical :=
  fun _ _ hm hi e => ⟨(step_lasts e).memory hm, (step_lasts e).images hi⟩

/-- Settles O19: the queue and the log take an entry only where there is room. -/
theorem everyStepKeepsItsBounds : Obligations.EveryStepKeepsItsBounds :=
  fun _ _ hq hl e => ⟨(step_lasts e).queue hq, (step_lasts e).log hl⟩

/-- Settles O20: digest, fuses, counters and drawn values under every operation and every instruction. -/
theorem oneWayValuesNeverGoBack : Obligations.OneWayValuesNeverGoBack :=
  fun _ _ e => ⟨(step_lasts e).oem, (step_lasts e).fuses, fun hrec hread => (step_lasts e).counters hread hrec, (step_lasts e).free⟩

end Sys2Proof.Machine
end

section
/-! PROOFS. Fields of byte strings: a field that lies within one side of a concatenation, and a number read back. -/

namespace Sys2Proof.Machine

open Sys2Proof

set_option Elab.async false

@[simp] theorem leBytes_length (n v : Nat) : (leBytes n v).length = n := by
  induction n generalizing v with
  | zero => rfl
  | succ n ih => simp [leBytes, ih]

@[simp] theorem zeros_length (n : Nat) : (zeros n).length = n := by simp [zeros]

theorem leVal_leBytes (n v : Nat) : leVal (leBytes n v) = v % 256 ^ n := by
  induction n generalizing v with
  | zero => simp [leBytes, leVal, Nat.mod_one]
  | succ n ih => rw [leBytes, leVal, ih, BitVec.toNat_ofNat, pow_succ' 256 n, Nat.mod_mul]

/-- A field within the left part. -/
theorem leAt_append_left {a : List Byte} {off n : Nat} (b : List Byte) (h : off + n ≤ a.length) : leAt (a ++ b) off n = leAt a off n := by
  rw [leAt, leAt, List.drop_append_of_le_length (by omega), List.take_append_of_le_length (by simp; omega)]

/-- A field within the right part. -/
theorem leAt_append_right {a : List Byte} {off : Nat} (b : List Byte) (n : Nat) (h : a.length ≤ off) :
    leAt (a ++ b) off n = leAt b (off - a.length) n := by
  rw [leAt, leAt, List.drop_append, List.drop_eq_nil_of_le h, List.nil_append]

@[simp] theorem leAt_leBytes (n v : Nat) : leAt (leBytes n v) 0 n = v % 256 ^ n := by
  rw [leAt, List.drop_zero, List.take_of_length_le (leBytes_length n v).le, leVal_leBytes]

/-- A field that stands alone at its place. -/
theorem leAt_mid {a : List Byte} {off n v : Nat} (b : List Byte) (h : a.length = off) :
    leAt (a ++ leBytes n v ++ b) off n = v % 256 ^ n := by
  rw [List.append_assoc, leAt_append_right _ _ h.le, h, Nat.sub_self, leAt_append_left _ (by simp), leAt_leBytes]

/-- Reserved bytes that stand at their place. -/
theorem rsvdZero_mid {a : List Byte} {off n : Nat} (b : List Byte) (h : a.length = off) : rsvdZero (a ++ zeros n ++ b) off n = true := by
  rw [rsvdZero, List.append_assoc, List.drop_left' h, List.take_left' (zeros_length n)]
  simp [allZero, zeros]

theorem leVal_lt (bs : List Byte) : leVal bs < 256 ^ bs.length := by
  induction bs with
  | nil => simp [leVal]
  | cons b bs ih =>
    have := b.isLt
    rw [leVal, List.length_cons, pow_succ]
    omega

theorem leAt_lt (bs : List Byte) (off n : Nat) : leAt bs off n < 256 ^ n :=
  (leVal_lt _).trans_le (Nat.pow_le_pow_right (by decide) (by simp))

end Sys2Proof.Machine
end

section
/-! PROOFS. The shells of the commands: a command that is refused before its own rules run, one that completes at once, and the same
of an M16 command. -/

namespace Sys2Proof.Machine

open Sys2Proof

set_option Elab.async false

section
variable {s u v w : State} {op : Nat} {p : Packet} {own : State → Packet → List Byte → Done} {c : Cmd} {cost : Nat}
  {needs : List Island} {i : Instr}

/-- A state in which a packet has been taken, written out. -/
theorem State.TakenFrom.eq (h : u.TakenFrom v op p) : v = (u.setObs v.obs).setMgmt
    { u.mgmt with queue := u.queueRest, assemblies := (u.assembled op p).1.mgmt.assemblies } := by
  rw [← h.mgmt]
  obtain ⟨hpend, hpart⟩ := h.only
  have e : ∀ q : Part, q ∉ [Part.mgmt, .obs] → q.same u v := hpart
  cases v
  simp only [State.setMgmt, State.setObs, State.mk.injEq]
  exact ⟨hpend, e .free (by simp), e .clock (by simp), e .pins (by simp), e .energy (by simp), e .meas (by simp), e .loop (by simp),
    e .win (by simp), trivial, e .isl (by simp), e .ready (by simp), e .boot (by simp), e .faults (by simp), e .ports (by simp),
    e .decoder (by simp), e .decFree (by simp), e .dspFree (by simp), e .fsk (by simp), e .fab (by simp), e .nvm (by simp), trivial⟩

/-- An effect that does not touch the queue, the assemblies or observation is the same before and after a packet is taken. -/
theorem State.TakenFrom.map (h : u.TakenFrom v op p) (f : State → State)
    (hf : ∀ o q a, f ((u.setObs o).setMgmt { u.mgmt with queue := q, assemblies := a }) =
      ((f u).setObs o).setMgmt { (f u).mgmt with queue := q, assemblies := a })
    (ho : (f u).obs = u.obs := by rfl) (hq : (f u).mgmt.queue = u.mgmt.queue := by rfl)
    (ha : (f u).mgmt.assemblies = u.mgmt.assemblies := by rfl) : (f u).TakenFrom (f v) op p := by
  have e := hf v.obs u.queueRest (u.assembled op p).1.mgmt.assemblies
  rw [← h.eq] at e
  rw [e]
  refine ⟨⟨rfl, fun q hq => by cases q <;> first | rfl | simp at hq⟩, ?_, ?_⟩
  · have hqueue : (f u).queueRest = u.queueRest := congrArg List.tail hq
    rw [(State.assembled_congr (s := u) (t := f u) op p ha).1, hqueue]
    rfl
  · have ht := h.trace
    unfold State.OnlyTrace State.CountersBut at ht ⊢
    rw [ho]
    exact ht

/-- Taking the next packet, whatever becomes of it. -/
theorem State.Delivers.take (h : s.Delivers op p) : ∃ via, s.take op p = some (s.setMgmt { s.mgmt with queue := s.queueRest }, via) := by
  have ht : s.takes = true := by
    have := h.idle
    simpa [State.takes, h.up, h.ready, State.NoneWaits] using this
  simp only [State.take, ht, ↓reduceIte]
  rcases h.next with e | ⟨q, qs, e, hq, -⟩
  · refine ⟨false, ?_⟩
    have : s.queueRest = s.mgmt.queue := by simp [State.queueRest, e]
    rw [e, this]
    rfl
  · exact ⟨true, by simp [State.queueRest, e, hq]⟩

/-- How a command ends that the interpreter's checks refuse or let pass. -/
def Cmd.ends (c : Cmd) (via : Bool) (p : Packet) (params : List Byte) (own : State → Packet → List Byte → Done) :
    Except (State × Nat × List Byte) State → State
  | .error (w, st, res) => w.finish c.op via p st res
  | .ok w =>
    let body := c.body params
    let r := w.nvmRead (c.reads w body)
    r.1.complete c via { p with params := params } (c.cost w body) (if r.2 then own r.1 p body else r.1.internal c)

/-- The interpreter's checks of a packet that is taken, and then the command's own rules. -/
theorem State.Delivers.runCmd_eq (h : s.Delivers c.op p) : ∃ via, s.runCmd c p own =
    (c.ends via p (s.paramsOf c.op p) own ((s.taken c.op p).admitCmd c p (s.paramsOf c.op p))).settle 4 := by
  obtain ⟨via, e⟩ := h.take
  have e2 : ((s.setMgmt { s.mgmt with queue := s.queueRest }).begin c.op p).assembled c.op p =
      (s.taken c.op p, s.paramsOf c.op p) := by
    refine Prod.ext rfl (State.assembled_congr c.op p ?_).2
    obtain ⟨o, eo, -⟩ := (s.setMgmt { s.mgmt with queue := s.queueRest }).emit_eq .mgmt 8 (b2n false + 256 * p.src.toNat)
      [c.op + 65536 * p.tag.toNat + 16777216 * (0 % 256)]
    rw [State.begin, State.emitCommand, eo, State.started_eq]
    rfl
  have hb : ¬ 4096 < (s.paramsOf c.op p).length := Nat.not_lt.2 h.bounded
  refine ⟨via, ?_⟩
  rcases ha : (s.taken c.op p).admitCmd c p (s.paramsOf c.op p) with ⟨w, st, res⟩ | w <;>
    simp only [State.runCmd, e, State.runTaken, h.header, h.whole.1, h.whole.2, Bool.false_eq_true, ↓reduceIte, e2, hb, ha, Cmd.ends]

/-- What ends a command's step, from a state in which the command has been taken. -/
theorem State.Delivers.finished (h : s.Delivers op p) (hv : u.TakenFrom v op p) (hu : u.win.mem = s.win.mem)
    (hq : u.mgmt.queue = s.mgmt.queue) (hp : u.mgmt.replies = s.mgmt.replies) (via : Bool) (st : Nat) (res : List Byte) :
    u.Replied ((v.finish op via p st res).settle 4) op p st res := by
  refine State.finish_replied hv (by rw [State.memoryOk, hu]; exact h.memory) (by rw [hp]; exact h.replies) fun x hx => ?_
  rw [State.queueRest, hq] at hx
  rw [State.packetOf_congr (s := s) x (fun a _ => by rw [hu]), hp]
  exact h.next.rest x hx

/-- A command that an interpreter's check refuses; `u` is the state with what the check counts. -/
theorem State.Delivers.refused (h : s.Delivers c.op p) {st : Nat} {res : List Byte}
    (he : (s.taken c.op p).admitCmd c p (s.paramsOf c.op p) = .error (w, st, res)) (hv : u.TakenFrom w c.op p)
    (hu : u.win.mem = s.win.mem) (hq : u.mgmt.queue = s.mgmt.queue) (hp : u.mgmt.replies = s.mgmt.replies) :
    u.Replied (s.runCmd c p own) c.op p st res := by
  obtain ⟨via, e⟩ := h.runCmd_eq (own := own)
  rw [e, he]
  exact h.finished hv hu hq hp via st res

/-- A command whose parameters have another length than its own, signed or not. -/
theorem State.Delivers.badLength (h : s.Delivers c.op p)
    (hl : c.len (s.paramsOf c.op p).length = false)
    (hs : c.signable = false ∨ (s.paramsOf c.op p).length < trailerLen ∨ c.len ((s.paramsOf c.op p).length - trailerLen) = false) :
    (s.started c.op p).Replied (s.runCmd c p own) c.op p stBadLength [] := by
  refine h.refused (w := s.taken c.op p) ?_ (s.taken_from c.op p) (by rw [s.started_eq]; rfl) (by rw [s.started_eq]; rfl)
    (by rw [s.started_eq]; rfl)
  have : (c.signable && decide (trailerLen ≤ (s.paramsOf c.op p).length) && c.len ((s.paramsOf c.op p).length - trailerLen)) = false := by
    rcases hs with hs | hs | hs
    · simp [hs]
    · simp [Nat.not_le.2 hs]
    · simp [hs]
  simp [State.admitCmd, hl, this]

/-- A plain command that completes at once. -/
theorem State.Takes.completes (h : s.Takes op p cost needs) (he : exec i s = .next (s.runCmd c p own)) (hc : c.Plain s op p cost needs)
    (hl : c.len (s.paramsOf op p).length = true) {st : Nat} {res : List Byte}
    (ho : own (s.taken op p) p (s.paramsOf op p) = .done v st res) (hv : u.TakenFrom v op p)
    (hu : u.win.mem = s.win.mem := by rfl) (hq : u.mgmt.queue = s.mgmt.queue := by rfl)
    (hp : u.mgmt.replies = s.mgmt.replies := by rfl) :
    ∃ t, exec i s = .next t ∧ u.Replied t op p st res :=
  ⟨_, he, h.replied hc hl ho hv hu hq hp⟩

/-- A plain command that only reports. -/
theorem State.Takes.reports (h : s.Takes op p cost needs) (he : exec i s = .next (s.runCmd c p own)) (hc : c.Plain s op p cost needs) (hn : updateOp op = false)
    (hl : c.len (s.paramsOf op p).length = true) {st : Nat} {res : List Byte}
    (ho : own (s.taken op p) p (s.paramsOf op p) = .done (s.taken op p) st res) :
    ∃ t, exec i s = .next t ∧ s.Replied t op p st res :=
  h.completes he hc hl ho (s.taken_plain p hn)

/-- An M16 command that completes at once: with the M16's own length in its M16 form, else with ST_BAD_LENGTH. -/
theorem State.Takes.m16 (h : s.Takes op p cost needs) (he : exec i s = .next (s.runCmd c p own)) (hc : c.Plain s op p cost needs) (hn : updateOp op = false)
    (hl : c.len = Config.m16Length op) {st : Nat} {res : List Byte}
    (ho : own (s.taken op p) p (s.paramsOf op p) = m16Done op v st res) (hv : u.TakenFrom v op p)
    (hu : u.win.mem = s.win.mem := by rfl) (hq : u.mgmt.queue = s.mgmt.queue := by rfl)
    (hp : u.mgmt.replies = s.mgmt.replies := by rfl) :
    ∃ t, exec i s = .next t ∧
      (s.m16Fits op p → u.Replied t op p (m16Answer op st res).1 (m16Answer op st res).2) ∧
      (¬ s.m16Fits op p → s.Replied t op p stBadLength []) := by
  refine ⟨_, he, fun hf => h.replied hc (by rw [hl]; exact hf) ho hv hu hq hp, fun hf => ?_⟩
  obtain rfl := hc.opcode
  have := h.toDelivers.badLength (own := own) (by rw [hl]; exact Bool.eq_false_of_not_eq_true hf) (.inl hc.unsigned)
  rwa [s.started_of p hn] at this

/-- A plain command passes the interpreter's checks. -/
theorem State.Takes.admitted (h : s.Takes op p cost needs) (hc : ({ c with reads := fun _ _ => [] } : Cmd).Plain s op p cost needs)
    (hl : c.len (s.paramsOf op p).length = true) : (s.taken op p).admitCmd c p (s.paramsOf op p) = .ok (s.taken op p) := by
  obtain ⟨hop, hsig, hfree, hright, hcost, hneeds, hfits, -, hwaits⟩ := hc
  simp only at hop hsig hfree hright hcost hneeds hfits hwaits
  subst hop
  have hup : (needs.any fun i => !(s.taken c.op p).upAt i) = false := by simpa [State.taken_upAt] using h.islands
  have hout : (c.waits && (s.taken c.op p).mgmt.outst.any fun o => o.op == c.op) = false := by
    rw [State.taken_mgmt]
    cases hw : c.waits with
    | false => rfl
    | true => simpa [State.NoneWaits] using hwaits hw
  simp only [State.admitCmd, hsig, hl, hfits, hright, hfree, hcost, hneeds, State.taken_admits, h.energy, hup, hout, Bool.false_and,
    Bool.and_false, Bool.or_false, Bool.not_true, Bool.false_eq_true, ↓reduceIte]

/-- A plain command one of whose pages of the NVM holds an uncorrectable word. -/
theorem State.Takes.internal (h : s.Takes op p cost needs) (hc : ({ c with reads := fun _ _ => [] } : Cmd).Plain s op p cost needs)
    (hl : c.len (s.paramsOf op p).length = true)
    (hr : (s.taken op p).nvmRead (c.reads (s.taken op p) (s.paramsOf op p)) = (v, false)) (hv : u.TakenFrom v op p)
    (hu : u.win.mem = s.win.mem) (hq : u.mgmt.queue = s.mgmt.queue) (hp : u.mgmt.replies = s.mgmt.replies) :
    let a := if c.m16 then m16Answer op stInternal [] else (stInternal, [])
    u.Replied (s.runCmd c p own) op p a.1 a.2 := by
  have ha := h.admitted hc hl
  obtain rfl : c.op = op := hc.opcode
  have hb : c.body (s.paramsOf c.op p) = s.paramsOf c.op p := by simp [Cmd.body, show c.signable = false from hc.unsigned]
  obtain ⟨via, e⟩ := h.toDelivers.runCmd_eq (own := own)
  rw [e, ha]
  simp only [Cmd.ends, hb, hr]
  cases hm : c.m16 <;> simp only [State.internal, hm, State.complete, Bool.false_eq_true, ↓reduceIte] <;>
    exact h.toDelivers.finished hv hu hq hp via _ _

/-- The shell of a command that needs islands and may wait: LOOP's, MEAS's and the M16's are of this shape. -/
theorem shell_plain (h : s.Takes op p cost needs) (len : Nat → Bool) {waits m16 : Bool} (hw : waits = true → s.NoneWaits op) :
    ({ plainCmd op len with needs := fun _ _ => needs, waits := waits, m16 := m16 } : Cmd).Plain s op p 0 needs where
  opcode := rfl
  unsigned := rfl
  free := rfl
  right := (s.taken_rightOf op p op).trans h.right
  cost := rfl
  needs := rfl
  fits := rfl
  reads := rfl
  waits := hw

/-- The same for one that waits for nothing. -/
theorem needsCmd_plain (h : s.Takes op p cost needs) (len : Nat → Bool) {m16 : Bool} :
    ({ plainCmd op len with needs := fun _ _ => needs, waits := false, m16 := m16 } : Cmd).Plain s op p 0 needs :=
  shell_plain h len nofun

theorem m16Cmd_plain (h : s.Takes op p cost []) : (m16Cmd op).Plain s op p 0 [] := needsCmd_plain h _

/-- Pages that can be read can be read once a command has been taken. -/
theorem State.Readable.taken {pages : List Nat} (h : s.Readable pages) : (s.taken op p).nvmRead pages = (s.taken op p, true) :=
  State.nvmRead_ok (by simpa [State.Readable] using h)

/-- The same shell with pages that it reads. -/
theorem Cmd.Plain.withReads (h : c.Plain s op p cost needs) {r : State → List Byte → List Nat}
    (hr : (s.taken op p).nvmRead (r (s.taken op p) (s.paramsOf op p)) = (s.taken op p, true)) :
    ({ c with reads := r } : Cmd).Plain s op p cost needs := { h with reads := hr }

/-- The same shell with a check of the counts that the parameters state. -/
theorem Cmd.Plain.withFits (h : c.Plain s op p cost needs) {f : List Byte → Bool} (hf : f (s.paramsOf op p) = true) :
    ({ c with fits := f } : Cmd).Plain s op p cost needs := { h with fits := hf }

/-- The same shell with a cost. -/
theorem Cmd.Plain.withCost (h : c.Plain s op p cost needs) {k : State → List Byte → Nat} {n : Nat}
    (hk : k (s.taken op p) (s.paramsOf op p) = n) : ({ c with cost := k } : Cmd).Plain s op p n needs := { h with cost := hk }

/-- The same shell with a right of its own. -/
theorem Cmd.Plain.withRight (h : c.Plain s op p cost needs) {r : State → Packet → Bool} (hr : r (s.taken op p) p = true) :
    ({ c with right := r } : Cmd).Plain s op p cost needs := { h with right := hr }

end

end Sys2Proof.Machine
end

section
/-! PROOFS. Requests of MGMT to the other islands, and the commands that wait for their events (01 R18, 12 R299). -/

namespace Sys2Proof.Machine

open Sys2Proof

set_option Elab.async false

section
variable {s u v : State} {op : Nat} {p : Packet} {own : State → Packet → List Byte → Done} {c : Cmd} {cost : Nat}
  {needs : List Island} {i : Instr}

/-- What a request does: nothing while its receiver is down, one more waiting post behind a pending notice, or the notice in its mailbox. -/
theorem State.postReq_cases (s : State) (k op : Nat) (r : Req) :
    (s.reqUp k = false ∧ s.postReq k op r = s) ∨
    (s.reqUp k = true ∧ ((s.win.mbAt k).pending || s.win.posts.any (·.1 == k)) = true ∧
      s.postReq k op r = s.setWin { s.win with posts := s.win.posts ++ [(k, reqNotice k op r, r)] }) ∨
    s.Enters k := by
  by_cases hup : s.reqUp k = true
  · by_cases hb : ((s.win.mbAt k).pending || s.win.posts.any (·.1 == k)) = true
    · exact .inr (.inl ⟨hup, hb, by simp only [State.postReq, hup, hb, Bool.not_true, Bool.false_eq_true, if_false, if_true]⟩)
    · simp only [Bool.or_eq_true, not_or, Bool.not_eq_true] at hb
      exact .inr (.inr ⟨hup, hb.1, hb.2⟩)
  · exact .inl ⟨by simpa using hup, by simp [State.postReq, hup]⟩

theorem State.askWin_mem (s : State) (k op : Nat) (r : Req) : (s.askWin k op r).mem = s.win.mem := by
  rw [s.askWin_rest]

/-- A request leaves MGMT and the window's bytes as they are. -/
theorem State.postReq_frame (s : State) (k op : Nat) (r : Req) :
    s.Only [.win, .obs] (s.postReq k op r) ∧ (s.postReq k op r).win.mem = s.win.mem := by
  obtain ⟨-, e⟩ | ⟨-, -, e⟩ | h := s.postReq_cases k op r
  · rw [e]
    exact ⟨.refl _ s, rfl⟩
  · rw [e]
    exact ⟨(s.setWin_only _).mono (by simp), rfl⟩
  · obtain ⟨o, e, -⟩ := State.postReq_eq h op r
    rw [e]
    exact ⟨((s.setWin_only _).mono (by simp)).trans ((State.setObs_only _ _).mono (by simp)), s.askWin_mem k op r⟩

@[simp] theorem State.postReq_mem (s : State) (k op : Nat) (r : Req) : (s.postReq k op r).win.mem = s.win.mem := (s.postReq_frame k op r).2

@[simp] theorem State.postReq_mgmt (s : State) (k op : Nat) (r : Req) : (s.postReq k op r).mgmt = s.mgmt :=
  (s.postReq_frame k op r).1.2 .mgmt (by simp)

theorem State.TakenFrom.setWin (h : u.TakenFrom v op p) (w : Window) : (u.setWin w).TakenFrom (v.setWin w) op p :=
  h.map (fun t => t.setWin w) fun _ _ _ => rfl

/-- A request made from a state in which a command has been taken, and from the one before, whatever becomes of it. -/
theorem State.TakenFrom.postReq (h : u.TakenFrom v op p) {k : Nat} (hk : k ≠ 6) (n : Nat) (r : Req) :
    (u.postReq k n r).TakenFrom (v.postReq k n r) op p := by
  have hw : v.win = u.win := h.only.2 .win (by simp)
  have hi : v.isl = u.isl := h.only.2 .isl (by simp)
  have hup : v.reqUp k = u.reqUp k := by
    unfold State.reqUp State.upAt
    rw [hi]
  obtain ⟨hu, e⟩ | ⟨hu, hb, e⟩ | he := u.postReq_cases k n r
  · rw [e, show v.postReq k n r = v by simp [State.postReq, hup, hu]]
    exact h
  · have e' : v.postReq k n r = v.setWin { u.win with posts := u.win.posts ++ [(k, reqNotice k n r, r)] } := by
      simp only [State.postReq, hup, hu, hw, hb, Bool.not_true, Bool.false_eq_true, if_false, if_true]
    rw [e, e']
    exact h.setWin _
  · exact h.ask hk he n r

/-- A command that waits for its request's event. -/
theorem State.Takes.begins (h : s.Takes op p cost needs) (he : exec i s = .next (s.runCmd c p own)) (hc : c.Plain s op p cost needs)
    (hn : updateOp op = false) (hl : c.len (s.paramsOf op p).length = true) {isl : Option Island} {res : List Byte} {k n : Nat} {r : Req}
    (hk : k ≠ 6 := by decide) (ho : own (s.taken op p) p (s.paramsOf op p) = .wait ((s.taken op p).postReq k n r) isl res) :
    s.Begins (s.postReq k n r) i op p cost isl res :=
  ⟨_, he, h.begun hc hl ho ((s.taken_plain p hn).postReq hk n r) (by simp) (by simp)⟩

/-- An M16 command that waits for its request's event. -/
theorem State.Takes.m16Begins (h : s.Takes op p 0 needs) (he : exec i s = .next (s.runCmd c p own)) (hc : c.Plain s op p 0 needs)
    (hn : updateOp op = false) (hl : c.len = Config.m16Length op) {isl : Option Island} {res : List Byte} {k n : Nat} {r : Req}
    (hk : k ≠ 6 := by decide) (ho : own (s.taken op p) p (s.paramsOf op p) = .wait ((s.taken op p).postReq k n r) isl res) :
    s.M16Begins (s.postReq k n r) i op p isl res := by
  refine ⟨_, he, fun hf => h.begun hc (by rw [hl]; exact hf) ho ((s.taken_plain p hn).postReq hk n r) (by simp) (by simp), fun hf => ?_⟩
  obtain rfl := hc.opcode
  have := h.toDelivers.badLength (own := own) (by rw [hl]; exact Bool.eq_false_of_not_eq_true hf) (.inl hc.unsigned)
  rwa [s.started_of p hn] at this

end

end Sys2Proof.Machine
end


section
/-! PROOFS. The interpreter's checks of signed and unsigned commands as one chain (12 R298 to R300, R304), and replies that an island's
reset follows (13 R329). -/

namespace Sys2Proof.Machine

open Sys2Proof

set_option Elab.async false

section
variable {s u v w : State} {op : Nat} {p : Packet} {own : State → Packet → List Byte → Done} {c : Cmd} {cost n : Nat}
  {needs : List Island} {i : Instr} {ps : List Byte}

/-! ## The chain of checks -/

/-- The checks after the signature: the islands that a command needs, and the one outstanding command of its opcode. -/
def State.admitRest (s : State) (c : Cmd) (body : List Byte) : Except (State × Nat × List Byte) State :=
  if (c.needs s body).any fun i => !s.upAt i then .error (s, stIslandDown, [])
  else if c.waits && s.mgmt.outst.any fun o => o.op == c.op then
    .error (s, if c.m16 then m16Answer c.op stBusy [] else (stBusy, []))
  else .ok s

/-- What a command is refused with whose cost is not within the governor's limit. -/
def State.deferral (s : State) (c : Cmd) (body : List Byte) : Except (State × Nat × List Byte) State :=
  .error (s.count .energyDefer, stEnergyDeferred, if c.m16 then [] else leBytes 4 (s.deferTicks (c.cost s body)))

/-- A command without a trailer that passes the checks before its cost. -/
theorem State.admitCmd_unsigned (hl : c.len ps.length = true) (hf : c.fits ps = true) (hr : c.right s p = true)
    (hm : c.mustSign p.src = false) (hs : c.signable = false ∨ (pktSigned p = false ∧ ps.length < trailerLen)) :
    s.admitCmd c p ps = if s.admits (c.cost s ps) then s.admitRest c ps else s.deferral c ps := by
  have hlong : (c.signable && decide (trailerLen ≤ ps.length) && c.len (ps.length - trailerLen)) = false := by
    rcases hs with h | ⟨-, h⟩
    · simp [h]
    · simp [Nat.not_le.2 h]
  have hflag : (c.signable && pktSigned p) = false := by
    rcases hs with h | ⟨h, -⟩ <;> simp [h]
  cases ha : s.admits (c.cost s ps) <;>
    simp only [State.admitCmd, State.admitRest, State.deferral, hlong, hflag, hl, hf, hr, hm, ha, Bool.and_false, Bool.or_false, Bool.not_true,
      Bool.not_false, Bool.and_true, Bool.false_eq_true, if_true, if_false]

/-- A command with a trailer that passes the checks before its cost. -/
theorem State.admitCmd_signed (hsig : c.signable = true) (hflag : pktSigned p = true) (hlen : ps.length = n + 2432) (hl : c.len n = true)
    (hf : c.fits (ps.take n) = true) (hr : c.right s p = true) :
    s.admitCmd c p ps = if s.admits (c.cost s (ps.take n)) then
      (s.checkSignature c.op ps).elim (.error (s, stAuthFail, [])) fun t => t.admitRest c (ps.take n)
    else s.deferral c (ps.take n) := by
  have hn : ps.length - trailerLen = n := by rw [hlen]; exact Nat.add_sub_cancel n 2432
  have hle : trailerLen ≤ ps.length := by rw [hlen]; exact Nat.le_add_left 2432 n
  cases ha : s.admits (c.cost s (ps.take n)) <;> cases hc : s.checkSignature c.op ps <;>
    simp only [State.admitCmd, State.admitRest, State.deferral, hn, hle, hsig, hflag, hl, hf, hr, ha, hc, decide_true, Bool.and_self, Bool.or_true,
      Bool.and_true, Bool.not_true, Bool.and_false, Bool.or_false, Bool.false_eq_true, if_true, if_false, Option.elim] <;> rfl

theorem trailerZero {tr : List Byte} (h : ∀ i, i < 3 → byteAt tr (9 + i) = 0) : allZero ((tr.drop 9).take 3) = true := by
  simp only [allZero, List.all_eq_true, beq_iff_eq]
  intro x hx
  obtain ⟨i, hi, rfl⟩ := List.getElem_of_mem hx
  simp only [List.length_take, List.length_drop] at hi
  have := h i (by omega)
  simpa [byteAt, List.headD_eq_head?_getD, List.head?_drop, List.getElem?_eq_getElem (show 9 + i < tr.length by omega)] using this

/-- The check of a sound trailer is that of its signature. -/
theorem State.Signed.check (h : s.Signed op p n) : (s.taken op p).checkSignature op (s.paramsOf op p) =
    if Mldsa.verify (s.heldKey (leAt ((s.paramsOf op p).drop n) 8 1))
      (leBytes 8 Config.uid.toNat ++ leBytes 2 op ++ (s.paramsOf op p).take (n + 12)) ((((s.paramsOf op p).drop n).drop 12).take 2420) then
      some ((s.taken op p).countAccepted (leAt (s.paramsOf op p) n 8))
    else none := by
  obtain ⟨-, hlen, hkey, hzero, hfresh⟩ := h
  have hn : (s.paramsOf op p).length - trailerLen = n := by rw [hlen]; exact Nat.add_sub_cancel n 2432
  have hctr : leAt ((s.paramsOf op p).drop n) 0 8 = leAt (s.paramsOf op p) n 8 := rfl
  have hheld (k : Nat) : (s.taken op p).heldKey k = s.heldKey k := by simp [State.heldKey, State.activeMem]
  have hz := trailerZero hzero
  cases ho : s.nvm.oem.isSome <;>
    simp only [ho, Bool.false_eq_true, if_true, if_false, hctr] at hkey hfresh <;>
    simp only [State.checkSignature, State.countAccepted, State.taken_nvm, hn, hkey, hctr, hfresh, hheld, ho, hz, Bool.true_and,
      Bool.false_eq_true, if_true, if_false, decide_true, beq_self_eq_true, one_ne_zero] <;> rfl

theorem State.Signed.verified (h : s.Signed op p n) (hv : s.Verifies op p n) : (s.taken op p).checkSignature op (s.paramsOf op p) =
    some ((s.taken op p).countAccepted (leAt (s.paramsOf op p) n 8)) := h.check.trans (if_pos hv)

theorem State.Signed.unverified (h : s.Signed op p n) (hv : ¬ s.Verifies op p n) :
    (s.taken op p).checkSignature op (s.paramsOf op p) = none := h.check.trans (if_neg hv)

/-! ## A signed command -/

/-- The shell of a signed command asks for nothing beyond what State.Takes and State.Signed say. -/
structure Cmd.Sealed (c : Cmd) (s : State) (op : Nat) (p : Packet) (n k : Nat) (ns : List Island) : Prop where
  opcode : c.op = op
  signable : c.signable = true
  len : c.len n = true
  right : c.right (s.taken op p) p = true
  fits : c.fits ((s.paramsOf op p).take n) = true
  cost : ∀ w, w = s.taken op p ∨ w = (s.taken op p).countAccepted (leAt (s.paramsOf op p) n 8) → c.cost w ((s.paramsOf op p).take n) = k
  needs : ∀ w, c.needs w ((s.paramsOf op p).take n) = ns
  reads : ∀ w, c.reads w ((s.paramsOf op p).take n) = []
  waits : c.waits = true → s.NoneWaits op

theorem State.TakenFrom.countAccepted (h : u.TakenFrom v op p) (k : Nat) : (u.countAccepted k).TakenFrom (v.countAccepted k) op p :=
  h.map (fun t => t.countAccepted k) fun _ _ _ => rfl

/-- The counter of a verified signature is accepted before the command's own rules run. -/
theorem State.Takes.sealed (h : s.Takes op p cost needs) (hs : s.Signed op p n) (hc : c.Sealed s op p n cost needs) :
    (s.taken op p).admitCmd c p (s.paramsOf op p) = if Mldsa.verify (s.heldKey (leAt ((s.paramsOf op p).drop n) 8 1))
      (leBytes 8 Config.uid.toNat ++ leBytes 2 op ++ (s.paramsOf op p).take (n + 12)) ((((s.paramsOf op p).drop n).drop 12).take 2420) then
      .ok ((s.taken op p).countAccepted (leAt (s.paramsOf op p) n 8)) else .error (s.taken op p, stAuthFail, []) := by
  have hup : (needs.any fun i => !(s.taken op p).upAt i) = false := by simpa [State.taken_upAt] using h.islands
  have hout : (c.waits && (s.taken op p).mgmt.outst.any fun o => o.op == c.op) = false := by
    rw [State.taken_mgmt, hc.opcode]
    cases hw : c.waits with
    | false => rfl
    | true => simpa [State.NoneWaits] using hc.waits hw
  have hrest : ((s.taken op p).countAccepted (leAt (s.paramsOf op p) n 8)).admitRest c ((s.paramsOf op p).take n) =
      .ok ((s.taken op p).countAccepted (leAt (s.paramsOf op p) n 8)) := by
    rw [State.admitRest, hc.needs, if_neg (by simpa [State.countAccepted, State.upAt] using hup),
      if_neg (by simpa [State.countAccepted] using hout)]
  rw [State.admitCmd_signed hc.signable hs.flag hs.length hc.len hc.fits hc.right, hc.cost _ (.inl rfl), State.taken_admits, h.energy, hc.opcode, hs.check]
  simp only [if_true]
  split_ifs <;> simp [hrest]

theorem State.nvmRead_none (s : State) : s.nvmRead [] = (s, true) := rfl

/-- How a signed command goes on, its signature verified or not. -/
theorem State.Takes.signedRun (h : s.Takes op p cost needs) (hs : s.Signed op p n) (hc : c.Sealed s op p n cost needs) :
    ∃ via, (s.Verifies op p n → s.runCmd c p own = (((s.taken op p).countAccepted (leAt (s.paramsOf op p) n 8)).complete c via
        { p with params := s.paramsOf op p } cost
        (own ((s.taken op p).countAccepted (leAt (s.paramsOf op p) n 8)) p ((s.paramsOf op p).take n))).settle 4) ∧
      (¬ s.Verifies op p n → (s.started op p).Replied (s.runCmd c p own) op p stAuthFail []) := by
  have ha := h.sealed hs hc
  obtain rfl := hc.opcode
  obtain ⟨via, e⟩ := h.toDelivers.runCmd_eq (own := own)
  have hb : c.body (s.paramsOf c.op p) = (s.paramsOf c.op p).take n := by
    have hn : (s.paramsOf c.op p).length - trailerLen = n := by rw [hs.length]; exact Nat.add_sub_cancel n 2432
    have hle : trailerLen ≤ (s.paramsOf c.op p).length := by rw [hs.length]; exact Nat.le_add_left 2432 n
    simp [Cmd.body, hc.signable, hn, hle, hc.len]
  refine ⟨via, fun hv => ?_, fun hv => ?_⟩
  · rw [e, ha.trans (if_pos hv)]
    simp only [Cmd.ends, hb, hc.reads, State.nvmRead_none, if_true, hc.cost _ (.inr rfl)]
  · refine h.toDelivers.refused (ha.trans (if_neg hv)) (s.taken_from c.op p) ?_ ?_ ?_ <;> rw [s.started_eq] <;> rfl

/-- A signed command that completes at once; `u` is the state with its counter accepted and its effect. -/
theorem State.Takes.signed (h : s.Takes op p cost needs) (hs : s.Signed op p n) (he : exec i s = .next (s.runCmd c p own))
    (hc : c.Sealed s op p n cost needs) {res : List Byte}
    (ho : own ((s.taken op p).countAccepted (leAt (s.paramsOf op p) n 8)) p ((s.paramsOf op p).take n) = .done v stOk res)
    (hv : u.TakenFrom v op p) (hu : u.win.mem = s.win.mem) (hq : u.mgmt.queue = s.mgmt.queue) (hp : u.mgmt.replies = s.mgmt.replies) :
    s.SignedCompletes u i op p n res := by
  obtain ⟨via, hok, hbad⟩ := h.signedRun (own := own) hs hc
  refine ⟨_, he, fun hver => ?_, hbad⟩
  rw [hok hver, ho, State.complete, hc.opcode]
  exact h.toDelivers.finished hv hu hq hp via stOk res

end

/-! ## A reply before a reset -/

section
variable {s u v : State} {op : Nat} {p : Packet} {own : State → Packet → List Byte → Done} {c : Cmd} {cost : Nat}
  {needs : List Island} {i : Instr}

theorem State.emit_mgmt (s : State) (i : Island) (k a : Nat) (l : List Nat) : (s.emit i k a l).mgmt = s.mgmt := by
  obtain ⟨o, e, -⟩ := s.emit_eq i k a l
  rw [e]
  rfl

theorem State.postReply_mgmt (s : State) (n : Nat) (bs : List Byte) : (s.postReply n bs).mgmt = s.mgmt := by
  by_cases h : (s.win.ownAt n).own = .device
  · rw [State.postReply, if_pos h]
    exact State.emit_mgmt ..
  · rw [State.postReply, if_neg h, State.devWrite, if_neg h]
    rfl

theorem State.sendReply_queue (s : State) (via : Bool) (p : Packet) (bs : List Byte) : (s.sendReply via p bs).mgmt.queue = s.mgmt.queue := by
  unfold State.sendReply State.fabricReply State.postNext State.freeBuf
  dsimp only
  split
  · split_ifs <;> simp [State.winWrite]
  · split_ifs
    · rfl
    · split
      · rfl
      · rw [State.postReply_mgmt]; rfl
    · rfl
    · rfl
    · rfl

theorem State.finish_queue (s : State) (op : Nat) (via : Bool) (p : Packet) (st : Nat) (res : List Byte) :
    (s.finish op via p st res).mgmt.queue = s.mgmt.queue := by
  rw [State.finish, State.sendReply_queue]
  show ((s.count .cmdDone).emitCommand true p.src.toNat op p.tag.toNat st).mgmt.queue = _
  rw [State.emitCommand, State.emit_mgmt]
  rfl

theorem State.settle_length (n : Nat) (s : State) : (s.settle n).mgmt.queue.length ≤ s.mgmt.queue.length ∧
    ((s.settle n).mgmt.queue.length = s.mgmt.queue.length → s.settle n = s) := by
  induction n generalizing s with
  | zero => exact ⟨le_rfl, fun _ => rfl⟩
  | succ n ih =>
    unfold State.settle
    split
    · exact ⟨le_rfl, fun _ => rfl⟩
    · next q qs hq =>
      split
      next op p _ =>
      split_ifs
      · exact ⟨le_rfl, fun _ => rfl⟩
      · have hle := (ih ((((s.setMgmt { s.mgmt with queue := qs }).emitCommand false p.src.toNat op p.tag.toNat 0)).finish op true p
          stBadOpcode [])).1
        rw [State.finish_queue, State.emitCommand, State.emit_mgmt] at hle
        have hlt : qs.length < s.mgmt.queue.length := by simp [hq]
        simp only [State.setMgmt_mgmt] at hle
        exact ⟨hle.trans hlt.le, fun he => absurd (he ▸ hle) (Nat.not_le.2 hlt)⟩

/-- A command that is answered before an island's reset is asked of AON. -/
theorem State.Takes.resets (h : s.Takes op p cost needs) (he : exec i s = .next (s.runCmd c p own)) (hc : c.Plain s op p cost needs)
    (hn : updateOp op = false) (hl : c.len (s.paramsOf op p).length = true) {isl : Island}
    (ho : own (s.taken op p) p (s.paramsOf op p) = .reset (s.taken op p) isl) :
    ∃ v, exec i s = .next (v.postReq 7 op (.resetIsland isl)) ∧ s.Replied v op p stOk [] := by
  obtain ⟨rfl, h1, h2, h3, h4, h5, hf, hd, h6⟩ := hc
  obtain ⟨via, e⟩ := State.runCmd_admitted (own := own) h hl hf h1 h2 h3 h4 h5 hd h6
  have hr := h.toDelivers.finished (s.taken_plain p hn) rfl rfl rfl via stOk []
  have hq : ((s.taken c.op p).finish c.op via p stOk []).mgmt.queue = s.queueRest := by rw [State.finish_queue, State.taken_mgmt]
  have hstay : ((s.taken c.op p).finish c.op via p stOk []).settle 4 = (s.taken c.op p).finish c.op via p stOk [] := by
    refine (State.settle_length 4 _).2 ?_
    rw [hq, hr.mgmt]
  rw [hstay] at hr
  refine ⟨_, ?_, hr⟩
  have hp : (s.taken c.op p).finish c.op via { p with params := s.paramsOf c.op p } stOk [] = (s.taken c.op p).finish c.op via p stOk [] := rfl
  rw [he, e, ho, State.complete, hp, State.settle_stays 4 _ fun x hx => ?_]
  · rw [State.postReq_mgmt, hq] at hx
    obtain ⟨h1, h2, h3⟩ := h.next.rest x hx
    rw [State.packetOf_congr (s := s) x fun a ha => ?_]
    · exact h1
    · rw [State.postReq_mem]
      refine hr.bytes a ?_
      rw [ha]
      rintro (hb | ⟨r, hm, hb⟩)
      · exact h2 (BitVec.eq_of_toNat_eq hb)
      · exact h3 r hm (BitVec.eq_of_toNat_eq hb)

end

end Sys2Proof.Machine
end

section
/-! PROOFS. The commands that only report (12 R297): what each reads of the state is the same once the command has been taken. -/

namespace Sys2Proof.Machine
open Sys2Proof

set_option Elab.async false

section
variable (s : State) {op : Nat} (p : Packet)

theorem State.taken_identifyBytes : (s.taken op p).identifyBytes = s.identifyBytes := by
  simp [State.identifyBytes, State.taken_mgmt]

theorem State.taken_loopWord : (s.taken op p).loopWord = s.loopWord := by
  simp [State.loopWord, State.alarmHi, State.taken_mgmt]

theorem State.taken_statusBytes (h : updateOp op = false) : (s.taken op p).statusBytes = s.statusBytes := by
  simp [State.statusBytes, State.pendBits, State.faultSummary, State.qOcc, State.swapPending, State.jobPending, State.qReady,
    State.taken_mgmt, State.taken_loopWord, State.started_of, h]

theorem State.taken_sessionBytes (n : Nat) :
    (s.taken op p).sessionBytes n = (s.assembled op p).1.sessionBytes n := by
  rw [State.assembled_fst]
  simp [State.sessionBytes, State.taken_mgmt, State.now]

end

/-! ## Drawn values -/

/-- The state after `n` values have been drawn in all. -/
def State.drawn (s : State) (n : Nat) : State := { s with free := n }

theorem State.TakenFrom.drawn {u v : State} {op : Nat} {p : Packet} (h : u.TakenFrom v op p) (n : Nat) :
    (u.drawn n).TakenFrom (v.drawn n) op p :=
  ⟨⟨h.only.1, fun q hq => by have := h.only.2 q hq; cases q <;> first | exact this | rfl⟩, by
    rw [(State.assembled_congr (s := u) (t := u.drawn n) op p rfl).1]; exact h.mgmt, h.trace⟩

theorem State.drawn_only (s : State) (n : Nat) : s.Only [.free] (s.drawn n) :=
  ⟨rfl, fun q hq => by cases q <;> first | rfl | simp at hq⟩

theorem State.draw_eq (s : State) (w : Nat) : s.draw w = (Config.freeBits w s.free, s.drawn (s.free + 1)) := rfl

/-- Two computations draw the same values and give the same. -/
def State.SameDraws {α : Type} (s t : State) (x y : State × α) : Prop := ∃ n, x.1 = s.drawn n ∧ y.1 = t.drawn n ∧ y.2 = x.2

theorem State.ageBytes_draws {s t : State} (tick : Option Nat) (hf : t.free = s.free) (hn : t.now = s.now) :
    s.SameDraws t (s.ageBytes tick) (t.ageBytes tick) := by
  cases tick with
  | some k => exact ⟨s.free, rfl, by rw [← hf]; rfl, by simp [State.ageBytes, hn]⟩
  | none => exact ⟨s.free + 1, rfl, by rw [← hf]; rfl, by simp [State.ageBytes, State.draw, hf]⟩

theorem State.floorBytes_draws {s t : State} (pt : Port) (hf : t.free = s.free) (hp : t.ports = s.ports)
    (ha : t.mgmt.inForce = s.mgmt.inForce) : s.SameDraws t (s.floorBytes pt) (t.floorBytes pt) := by
  unfold State.floorBytes
  rw [hp, ha]
  split
  · exact ⟨s.free, rfl, by rw [← hf]; rfl, rfl⟩
  · refine List.foldl_rel (r := s.SameDraws t) ⟨s.free, rfl, by rw [← hf]; rfl, rfl⟩ fun v _ x y ⟨n, hx, hy, e⟩ => ?_
    split
    · exact ⟨n + 1, by rw [hx]; rfl, by rw [hy]; rfl, by rw [hx, hy, e]; rfl⟩
    · exact ⟨n, hx, hy, by rw [e]⟩

theorem unsignedOf_lt (w : Nat) (v : Int) : unsignedOf w v < 2 ^ w := by
  have := Int.emod_lt_of_pos v (b := ((2 ^ w : Nat) : Int)) (by positivity)
  have := Int.emod_nonneg v (b := ((2 ^ w : Nat) : Int)) (by positivity)
  unfold unsignedOf
  omega

/-! ## The SEQ_OVERRUN bits -/

theorem State.clearOverrun_from {u v : State} {op : Nat} {p : Packet} (h : u.TakenFrom v op p) :
    u.clearOverrun.TakenFrom v.clearOverrun op p := by
  have hm : v.meas = u.meas := h.only.2 .meas (by simp)
  rw [State.clearOverrun, State.clearOverrun, hm]
  exact h.setMeas _

theorem seqMask_eq (m : Meas) (f : Seq → Bool) : seqMask m f =
    b2n (f m.seqs[(0 : Fin 4)]) + 2 * b2n (f m.seqs[(1 : Fin 4)]) + 4 * b2n (f m.seqs[(2 : Fin 4)]) + 8 * b2n (f m.seqs[(3 : Fin 4)]) := by
  have h (i : Fin 4) : m.seqs.getD i.val Seq.reset = m.seqs[i] := by simp [Vector.getD]
  simp only [seqMask, List.range_succ, List.range_zero, List.nil_append, List.cons_append, List.foldl_cons, List.foldl_nil, ← h]
  simp

theorem seqMask_testBit (m : Meas) (f : Seq → Bool) (q : Fin 4) : (seqMask m f).testBit q.val = f m.seqs[q] := by
  have bits : ∀ (g : Fin 4 → Bool) (q : Fin 4), (b2n (g 0) + 2 * b2n (g 1) + 4 * b2n (g 2) + 8 * b2n (g 3)).testBit q.val = g q := by
    decide
  rw [seqMask_eq]
  exact bits (fun i => f m.seqs[i]) q

theorem seqMask_lt (m : Meas) (f : Seq → Bool) : seqMask m f < 16 := by
  have h (b : Bool) : b2n b ≤ 1 := by cases b <;> decide
  rw [seqMask_eq]
  linarith [h (f m.seqs[(0 : Fin 4)]), h (f m.seqs[(1 : Fin 4)]), h (f m.seqs[(2 : Fin 4)]), h (f m.seqs[(3 : Fin 4)])]

/-- Bits 4 to 7 of the first word are the overrun bits. -/
theorem statusBytes_overrun (s : State) (q : Fin 4) : (leAt s.statusBytes 0 2).testBit (4 + q.val) = s.meas.seqs[q].overrun := by
  have hq := q.isLt
  have word (a b d : Nat) (ha : a < 16) (hb : b < 16) : ((2 ^ 8 * d + (2 ^ 4 * b + a)) % 2 ^ 16).testBit (4 + q.val) = b.testBit q.val := by
    rw [Nat.testBit_mod_two_pow, Nat.testBit_two_pow_mul_add _ (by omega), Nat.testBit_two_pow_mul_add _ ha]
    simp [show 4 + q.val < 16 by omega, show 4 + q.val < 8 by omega]
  simp only [State.statusBytes, List.append_assoc]
  rw [leAt_append_left _ (by simp), leAt_leBytes, ← seqMask_testBit s.meas (·.overrun) q,
    ← word _ _ (s.meas.retiredMask + 16 * b2n s.meas.qovf + 32 * b2n s.fab.dup + 64 * b2n s.fab.locked + 128 * b2n s.energy.aux)
      (seqMask_lt s.meas (·.running)) (seqMask_lt s.meas (·.overrun))]
  congr 2
  ring

theorem statusBytes_season (s : State) : leAt s.statusBytes 3 1 = s.energy.season.code := by
  simp only [State.statusBytes, List.append_assoc]
  rw [leAt_append_right _ _ (by simp), leAt_append_right _ _ (by simp), leBytes_length, leBytes_length, leAt_append_left _ (by simp),
    leAt_leBytes]
  cases s.energy.season <;> rfl


/-! ## The commands -/

section
variable {s : State} {p : Packet}

theorem execUpdVersionInfo_completes (h : s.Takes 0x0708 p 0 []) (hp : s.paramsOf 0x0708 p = []) :
    ∃ res, s.Completes (s.touchUpd p) (.updVersionInfo p) 0x0708 p res ∧ res.length = 48 ∧
      ∀ i : Island, let k := (match i with | .mgmt => 0 | .loop => 12 | .meas => 24 | .aon => 36)
        leAt res (k + 2) 2 = s.nvm.fuses.at i % 65536 ∧ leAt res (k + 4) 4 = (s.nvm.dirs.at i).a.version % 4294967296 ∧
        leAt res (k + 8) 4 = (s.nvm.dirs.at i).b.version % 4294967296 := by
  refine ⟨_, h.completes rfl (plainCmd_plain h _) (by rw [hp]; rfl) rfl (s.taken_from 0x0708 p), by simp, fun i => ?_⟩
  cases i <;> simp [leAt_append_left, leAt_append_right]

theorem execObsEnergy_completes (h : s.Takes 0x0803 p 0 []) (hp : s.paramsOf 0x0803 p = []) :
    ∃ res, s.Completes s (.obsEnergy p) 0x0803 p res ∧
      leAt res 0 4 = s.energy.register.toNat ∧ leAt res 4 2 = min s.energy.loopAvg 65535 ∧
      leAt res 8 2 = min s.energy.resAvg 65535 ∧ leAt res 28 4 = s.energy.reservedUj % 4294967296 := by
  refine ⟨_, h.reports rfl (plainCmd_plain h _) rfl (by rw [hp]; rfl) rfl, ?_⟩
  have := s.energy.register.isLt
  simp [leAt_append_left, leAt_append_right]
  omega

theorem execLoopStatus_completes (h : s.Takes 0x0404 p 0 [.loop]) (hp : s.paramsOf 0x0404 p = []) :
    ∃ res, s.Completes s (.loopStatus p) 0x0404 p res ∧
      leAt res 0 2 = s.loopWord % 65536 ∧ leAt res 4 4 = unsignedOf 32 s.loop.cmd ∧ leAt res 8 4 = unsignedOf 32 s.loop.lim ∧
      leAt res 12 4 = unsignedOf 32 s.loop.shaped ∧ leAt res 16 4 = unsignedOf 32 s.loop.trim := by
  refine ⟨_, h.reports rfl (needsCmd_plain h _) rfl (by rw [hp]; rfl) rfl, ?_⟩
  have lt (v : Int) : unsignedOf 32 v % 256 ^ 4 = unsignedOf 32 v := Nat.mod_eq_of_lt (unsignedOf_lt 32 v)
  simp only [State.loopStatusBytes, List.append_assoc]
  refine ⟨?_, ?_, ?_, ?_, ?_⟩
  · rw [leAt_append_left _ (by simp), leAt_leBytes, State.taken_loopWord]
    norm_num
  all_goals simp [leAt_append_left, leAt_append_right, - Nat.reducePow, lt]

theorem execFabNoiseFloor_completes (n : Nat) (hn : n < 2) (h : s.Takes 0x0505 p 0 [.loop])
    (hp : s.paramsOf 0x0505 p = [BitVec.ofNat 8 n, 0, 0, 0]) :
    ∃ u fl age, s.Completes u (.fabNoiseFloor p) 0x0505 p (leBytes 1 n ++ zeros 1 ++ fl ++ age) ∧ s.Only [.free] u ∧
      (∀ t, (s.ports.at (if n = 0 then .loop else .spur)).floorTick = some t → age = leBytes 4 (min (s.now - t) 0xFFFFFFFF)) ∧
      ((s.ports.at (if n = 0 then .loop else .spur)).pg = [] →
        fl = (List.range 8).flatMap fun _ => leBytes 2 (unsignedOf 16 s.mgmt.inForce.mdmFloorInit)) := by
  have e0 : leAt (s.paramsOf 0x0505 p) 0 1 = n := by
    rw [hp]
    simp [leAt, leVal]
    omega
  generalize hpt : (if n = 0 then Port.loop else .spur) = pt
  obtain ⟨k, hs, ht, e⟩ := State.floorBytes_draws (s := s) (t := s.taken 0x0505 p) pt (by simp) (by simp) (by simp [State.taken_mgmt])
  obtain ⟨k', hs', ht', e'⟩ := State.ageBytes_draws (s := s.drawn k) (t := (s.taken 0x0505 p).drawn k) (s.ports.at pt).floorTick rfl
    (by simp [State.drawn, State.now])
  refine ⟨s.drawn k', (s.floorBytes pt).2, ((s.drawn k).ageBytes (s.ports.at pt).floorTick).2,
    h.completes (v := (s.taken 0x0505 p).drawn k') rfl (needsCmd_plain h _) (by rw [hp]; rfl) ?_ ((s.taken_plain p rfl).drawn k'), s.drawn_only k', ?_, ?_⟩
  · have bad : ¬ (1 < n ∨ (!rsvdZero (s.paramsOf 0x0505 p) 1 3) = true) := by
      rw [hp]
      simp [rsvdZero, allZero]
      omega
    dsimp only
    simp only [e0, bad, if_false, hpt]
    have hports : ((s.taken 0x0505 p).drawn k).ports = s.ports := s.taken_ports 0x0505 p
    rw [← Prod.eta (State.floorBytes (s.taken 0x0505 p) pt), ht, e, hports, ht', e']
    rfl
  · intro t ht
    rw [ht]
    rfl
  · intro hpg
    simp [State.floorBytes, hpg]

/-- Two states whose fabric time reads the same. -/
theorem State.fabTimeBytes_draws {s t : State} (hf : t.free = s.free) (hc : t.clock = s.clock) (hb : t.fab = s.fab) :
    s.SameDraws t s.fabTimeBytes t.fabTimeBytes := by
  obtain ⟨k, h, h', e⟩ := State.ageBytes_draws (s := s) (t := t) s.fab.bcnTick hf (by rw [State.now, hc, State.now])
  refine ⟨k, h, ?_, ?_⟩
  · rw [State.fabTimeBytes, hb]
    exact h'
  · simp only [State.fabTimeBytes, hb]
    rw [e, h, h']
    simp only [State.drawn, hc]

theorem State.fabTimeBytes_fields (s : State) : let res := s.fabTimeBytes.2
    leAt res 0 1 = b2n s.fab.locked ∧ leAt res 1 1 = s.fab.hop.toNat ∧ leAt res 4 4 = unsignedOf 32 s.fab.err ∧
      leAt res 8 6 = s.clock.meridian.toNat ∧ leAt res 14 1 = b2n s.fab.event.isSome := by
  obtain ⟨k, h, -, -⟩ := State.ageBytes_draws (s := s) (t := s) s.fab.bcnTick rfl rfl
  have hclock : (s.ageBytes s.fab.bcnTick).1.clock = s.clock := by rw [h]; rfl
  have hb (b : Bool) : b2n b % 256 = b2n b := by cases b <;> rfl
  have := s.fab.hop.isLt
  have := s.clock.meridian.isLt
  have he : unsignedOf 32 s.fab.err % 4294967296 = unsignedOf 32 s.fab.err := Nat.mod_eq_of_lt (unsignedOf_lt 32 _)
  simp [State.fabTimeBytes, leAt_append_left, leAt_append_right, hclock, hb, he]
  omega

/-- FAB_TIME's rules where its operation is in order and has this effect. -/
theorem State.fabTime_completes {i : Instr} {k t : Nat} {u v : State} {act : State → Nat → Option State}
    (h : s.Takes 0x0506 p 0 [.loop]) (he : exec i s = .next (s.fabTime p act)) (hr : fabTimeRight s p = true) (hk : k ≤ 3)
    (hp : s.paramsOf 0x0506 p = leBytes 1 k ++ [0] ++ leBytes 6 t) (ha : act (s.taken 0x0506 p) (t % 256 ^ 6) = some v)
    (hv : u.TakenFrom v 0x0506 p) (hw : u.win.mem = s.win.mem) (hq : u.mgmt.queue = s.mgmt.queue)
    (hl : u.mgmt.replies = s.mgmt.replies) :
    s.Completes (u.drawn u.fabTimeBytes.1.free) i 0x0506 p u.fabTimeBytes.2 := by
  have right : fabTimeRight (s.taken 0x0506 p) p = true := by
    simpa [fabTimeRight, State.hasRight, State.rights, State.addrRights, State.taken_mgmt] using hr
  obtain ⟨n, hn, hn', e⟩ := State.fabTimeBytes_draws (s := u) (t := v) (hv.only.2 .free (by simp)) (hv.only.2 .clock (by simp))
    (hv.only.2 .fab (by simp))
  have hk' : leAt (s.paramsOf 0x0506 p) 0 1 = k := by
    rw [hp, List.append_assoc, leAt_append_left _ (by simp), leAt_leBytes]
    omega
  have ht : leAt (s.paramsOf 0x0506 p) 2 6 = t % 256 ^ 6 := by
    rw [hp, leAt_append_right _ _ (by simp)]
    exact leAt_leBytes 6 t
  have hz : rsvdZero (s.paramsOf 0x0506 p) 1 1 = true := by rw [hp]; rfl
  refine h.completes (v := v.drawn n) he ((needsCmd_plain h _).withRight right) (by rw [hp]; simp [plainCmd]) ?_ ?_ hw hq hl
  · simp only [hk', ht, hz, Nat.not_lt.2 hk, ha, Bool.not_true, Bool.false_eq_true, or_self, if_false]
    rw [hn', e]
  · rw [show u.fabTimeBytes.1.free = n by rw [hn]; rfl]
    exact hv.drawn n

theorem execFabTimeRead_completes (t : Nat) (h : s.Takes 0x0506 p 0 [.loop]) (hr : s.hasRight p 0 = true) (h0 : fabTimeOp p = 0)
    (hp : s.paramsOf 0x0506 p = [0, 0] ++ leBytes 6 t) :
    ∃ u res, s.Completes u (.fabTimeRead p) 0x0506 p res ∧ s.Only [.free] u ∧
      leAt res 0 1 = b2n s.fab.locked ∧ leAt res 1 1 = s.fab.hop.toNat ∧ leAt res 4 4 = unsignedOf 32 s.fab.err ∧
      leAt res 8 6 = s.clock.meridian.toNat ∧ leAt res 14 1 = b2n s.fab.event.isSome := by
  have he : exec (.fabTimeRead p) s = .next (s.fabTime p fun s _ => some s) := by
    show execFabTimeRead p s = _
    simp [execFabTimeRead, h0]
  have right : fabTimeRight s p = true := by
    have : leAt p.params 0 1 = 0 := h0
    simpa [fabTimeRight, this] using hr
  refine ⟨_, _, State.fabTime_completes (k := 0) (t := t) h he right (by simp) hp rfl (s.taken_plain p rfl) rfl rfl rfl, s.drawn_only _, ?_⟩
  exact s.fabTimeBytes_fields


/-- Settles O1: each command's rules give its bytes from parts that taking the command leaves alone. -/
theorem commandsThatOnlyReportChangeNothingElse : Obligations.CommandsThatOnlyReportChangeNothingElse := by
  refine ⟨fun s p => ⟨fun h hp => ?_, fun h hp hr => ?_, fun h hp => execUpdVersionInfo_completes h hp,
      fun h hp => execObsEnergy_completes h hp, fun h hp => execLoopStatus_completes h hp, fun h hp => ?_, fun h hp => ?_⟩,
    fun s p => ⟨fun n hn h hp => execFabNoiseFloor_completes n hn h hp, fun t h hr h0 hp => execFabTimeRead_completes t h hr h0 hp,
      fun h => ?_, fun h hr => ?_⟩,
    fun s p => ⟨fun h hp => ?_, fun h => ?_, fun h => ?_⟩⟩
  · exact h.reports rfl (plainCmd_plain h _) rfl (by rw [hp]; rfl) (by rw [State.taken_identifyBytes])
  · exact h.reports rfl ((plainCmd_plain h _).withReads hr.taken) rfl (by rw [hp]; rfl) (by simp)
  · exact h.reports rfl (plainCmd_plain h _) rfl (by rw [hp]; rfl) (by simp [State.taken_mgmt])
  · exact h.reports rfl (needsCmd_plain h _) rfl (by rw [hp]; rfl) (by rw [funext (s.taken_sessionBytes p)])
  · exact h.m16 rfl (m16Cmd_plain h) rfl rfl (by simp only [State.draw_eq, State.taken_free, State.drawn, State.taken_mgmt])
      ((s.taken_plain p rfl).drawn (s.free + 1))
  · exact h.m16 rfl ((m16Cmd_plain h).withReads hr.taken) rfl rfl (by simp) (s.taken_plain p rfl)
  · refine ⟨s.clearOverrun, h.completes rfl (plainCmd_plain h _) (by rw [hp]; rfl)
      (by rw [State.taken_statusBytes s p rfl]) (State.clearOverrun_from (s.taken_plain p rfl)), ?_, ?_, rfl, statusBytes_overrun s,
      statusBytes_season s⟩
    · exact ⟨rfl, fun q hq => by cases q <;> first | rfl | simp at hq⟩
    · intro q
      simp [State.clearOverrun]
  · exact h.m16 rfl (m16Cmd_plain h) rfl rfl (by rw [← s.taken_statusBytes (op := 0x0F61) p rfl]; rfl) (State.clearOverrun_from (s.taken_plain p rfl))
  · exact h.m16 rfl (m16Cmd_plain h) rfl rfl (by rw [← s.taken_identifyBytes p]; rfl) (s.taken_plain p rfl)

end

end Sys2Proof.Machine
end

section
/-! PROOFS. The commands that read what MEAS, the almanac and AON hold (07 R180, 12 R307, 13 R337, 15 R379), and the commands that meet
an uncorrectable word of the NVM (13 R333). -/

namespace Sys2Proof.Machine

open Sys2Proof

set_option Elab.async false

/-! ## Values of MEAS -/

/-- LIN_READ's results (07 R180). -/
def Meas.reading (m : Meas) (ch which : Nat) : List Byte :=
  valueBytes (m.chan ch).lin (m.chan ch).linStatus (m.chan ch).linStamp ++ (if which = 0 then m.table ch else m.shadowTable ch)

/-- VAR_READ's results (07 R180). -/
def Meas.values (m : Meas) (mask : Nat) : List Byte :=
  ((List.range 8).filter mask.testBit).flatMap fun v => valueBytes (m.var v).value (m.var v).status (m.var v).stamp

theorem State.linRead_eq (s : State) (ps : List Byte) : s.linRead ps =
    if leAt ps 0 1 < 20 ∧ leAt ps 1 1 < 2 ∧ rsvdZero ps 2 2 = true then (s, stOk, s.meas.reading (leAt ps 0 1) (leAt ps 1 1))
    else (s, stBadParam, []) := by
  unfold State.linRead
  dsimp only
  cases rsvdZero ps 2 2 <;> simp only [Bool.not_true, Bool.not_false, or_true, or_false, and_false, and_true, if_true, if_false,
    Bool.false_eq_true]
  by_cases h : leAt ps 0 1 < 20 ∧ leAt ps 1 1 < 2
  · rw [if_pos h, if_neg (by omega)]
    rfl
  · rw [if_neg h, if_pos (by omega)]

theorem State.varRead_eq (s : State) (ps : List Byte) : s.varRead ps =
    if leAt ps 0 1 ≠ 0 ∧ rsvdZero ps 1 3 = true then (s, stOk, s.meas.values (leAt ps 0 1)) else (s, stBadParam, []) := by
  unfold State.varRead
  dsimp only
  cases rsvdZero ps 1 3 <;> by_cases h : leAt ps 0 1 = 0 <;> simp [h, Meas.values]

section
variable {s u v : State} {p : Packet}

theorem linRead_taken (op : Nat) (ps : List Byte) : (s.taken op p).linRead ps =
    if leAt ps 0 1 < 20 ∧ leAt ps 1 1 < 2 ∧ rsvdZero ps 2 2 = true then (s.taken op p, stOk, s.meas.reading (leAt ps 0 1) (leAt ps 1 1))
    else (s.taken op p, stBadParam, []) := by
  rw [State.linRead_eq, State.taken_meas]

theorem varRead_taken (op : Nat) (ps : List Byte) : (s.taken op p).varRead ps =
    if leAt ps 0 1 ≠ 0 ∧ rsvdZero ps 1 3 = true then (s.taken op p, stOk, s.meas.values (leAt ps 0 1))
    else (s.taken op p, stBadParam, []) := by
  rw [State.varRead_eq, State.taken_meas]

theorem execLinRead_completes {ch which : Nat} (hc : ch < 20) (hw : which < 2) (h : s.Takes 0x0303 p 0 [.meas])
    (hp : s.paramsOf 0x0303 p = [BitVec.ofNat 8 ch, BitVec.ofNat 8 which, 0, 0]) :
    s.Completes s (.linRead p) 0x0303 p (s.meas.reading ch which) := by
  have h0 : leAt (s.paramsOf 0x0303 p) 0 1 = ch := by rw [hp]; simp [leAt, leVal]; omega
  have h1 : leAt (s.paramsOf 0x0303 p) 1 1 = which := by rw [hp]; simp [leAt, leVal]; omega
  have h2 : rsvdZero (s.paramsOf 0x0303 p) 2 2 = true := by rw [hp]; rfl
  refine h.reports rfl (needsCmd_plain h _) rfl (by rw [hp]; rfl) ?_
  rw [linRead_taken, h0, h1, if_pos ⟨hc, hw, h2⟩]

theorem execVarRead_completes {mask : Byte} (hm : mask ≠ 0) (h : s.Takes 0x0304 p 0 [.meas])
    (hp : s.paramsOf 0x0304 p = [mask, 0, 0, 0]) : s.Completes s (.varRead p) 0x0304 p (s.meas.values mask.toNat) := by
  have h0 : leAt (s.paramsOf 0x0304 p) 0 1 = mask.toNat := by rw [hp]; simp [leAt, leVal]
  have h1 : rsvdZero (s.paramsOf 0x0304 p) 1 3 = true := by rw [hp]; rfl
  have hne : mask.toNat ≠ 0 := fun e => hm (BitVec.eq_of_toNat_eq e)
  refine h.reports rfl (needsCmd_plain h _) rfl (by rw [hp]; rfl) ?_
  rw [varRead_taken, h0, if_pos ⟨hne, h1⟩]

theorem execReadChannel_completes (h : s.Takes 0x0F20 p 0 [.meas]) : let ps := s.nativeOf 0x0F20 p
    if leAt ps 0 1 < 16 ∧ leAt ps 1 1 < 2 ∧ rsvdZero ps 2 2 = true then
      s.M16Completes s (.readChannel p) 0x0F20 p stOk (s.meas.reading (leAt ps 0 1) (leAt ps 1 1))
    else s.M16Completes s (.readChannel p) 0x0F20 p stBadParam [] := by
  intro ps
  split
  · next hok =>
    refine h.m16 rfl (needsCmd_plain h _) rfl rfl ?_ (s.taken_plain p rfl)
    show Done.toM16 _ (if 15 < leAt ps 0 1 then _ else answered ((s.taken 0x0F20 p).linRead ps)) = _
    rw [if_neg (by omega), linRead_taken, if_pos ⟨by omega, hok.2⟩]
    rfl
  · next hbad =>
    refine h.m16 rfl (needsCmd_plain h _) rfl rfl ?_ (s.taken_plain p rfl)
    show Done.toM16 _ (if 15 < leAt ps 0 1 then _ else answered ((s.taken 0x0F20 p).linRead ps)) = _
    split
    · rfl
    · next hc =>
      rw [linRead_taken, if_neg fun hx => hbad ⟨by omega, hx.2⟩]
      rfl

theorem execReadPv_completes (h : s.Takes 0x0F21 p 0 [.meas]) : let ps := s.nativeOf 0x0F21 p
    if leAt ps 0 1 ≠ 0 ∧ rsvdZero ps 1 3 = true then s.M16Completes s (.readPv p) 0x0F21 p stOk (s.meas.values (leAt ps 0 1))
    else s.M16Completes s (.readPv p) 0x0F21 p stBadParam [] := by
  intro ps
  have e := varRead_taken (s := s) (p := p) 0x0F21 ps
  split
  · next hok =>
    rw [if_pos hok] at e
    exact h.m16 rfl (needsCmd_plain h _) rfl rfl (congrArg (fun r => (answered r).toM16 0x0F21) e) (s.taken_plain p rfl)
  · next hbad =>
    rw [if_neg hbad] at e
    exact h.m16 rfl (needsCmd_plain h _) rfl rfl (congrArg (fun r => (answered r).toM16 0x0F21) e) (s.taken_plain p rfl)

/-! ## Fields of the almanac -/

theorem readIds_flatMap (ids : List Nat) (h : ∀ id ∈ ids, id < 65536) : readIds ids.length (ids.flatMap (leBytes 2)) = ids := by
  induction ids with
  | nil => rfl
  | cons id ids ih =>
    have hid : id % 256 ^ 2 = id := Nat.mod_eq_of_lt (h id (by simp))
    rw [List.length_cons, List.flatMap_cons, readIds, leAt_append_left _ (by simp), leAt_leBytes, hid,
      List.drop_left' (leBytes_length 2 id), ih fun x hx => h x (List.mem_cons_of_mem _ hx)]

theorem execAlmRead_completes {copy : Nat} {ids : List Nat} (hcopy : copy < 2) (hne : ids ≠ []) (hlen : ids.length ≤ 60)
    (hids : ∀ id ∈ ids, (fieldRow id).isSome ∧ id < 65536) (h : s.Takes 0x0102 p 0 [])
    (hp : s.paramsOf 0x0102 p = leBytes 1 copy ++ [0] ++ leBytes 2 ids.length ++ ids.flatMap (leBytes 2)) :
    s.Completes s (.almRead p) 0x0102 p (leBytes 2 ids.length ++ zeros 2 ++
      ids.flatMap fun id => fieldBytes (if copy = 0 then s.mgmt.shadow.val id else s.mgmt.committed.val id)) := by
  have hl : (ids.flatMap (leBytes 2)).length = 2 * ids.length := by simp [List.length_flatMap, mul_comm]
  have h0 : leAt (s.paramsOf 0x0102 p) 0 1 = copy := by
    rw [hp, List.append_assoc, List.append_assoc, leAt_append_left _ (by simp), leAt_leBytes]
    omega
  have h2 : leAt (s.paramsOf 0x0102 p) 2 2 = ids.length := by
    rw [hp, leAt_mid _ (by simp)]
    omega
  have hz : rsvdZero (s.paramsOf 0x0102 p) 1 1 = true := by rw [hp]; rfl
  have hi : readIds ids.length ((s.paramsOf 0x0102 p).drop 4) = ids := by
    rw [hp, List.drop_left' (by simp), readIds_flatMap ids fun id hid => (hids id hid).2]
  have hany : (ids.any fun id => (fieldRow id).isNone) = false := by
    simp only [List.any_eq_false, Option.isNone_iff_eq_none]
    intro id hid e
    simpa [e] using (hids id hid).1
  have hfit : (s.paramsOf 0x0102 p).length = 4 + 2 * ids.length := by
    rw [hp]
    simp [hl]
    omega
  refine h.reports rfl ((plainCmd_plain h _).withFits (by simp [hfit, h2])) rfl (by rw [hfit]; simp [plainCmd]) ?_
  have hn : ids.length ≠ 0 := fun e => hne (List.length_eq_zero_iff.1 e)
  simp only [h0, h2, hz, hi, hany, hn, Nat.not_lt.2 hlen, show ¬ 1 < copy by omega, Bool.not_true, Bool.false_eq_true, or_self, if_false,
    State.taken_mgmt]
  split <;> rfl

/-! ## Records of AON -/

theorem State.OnlyTrace.capture (h : u.OnlyTrace v) (n : Nat) : v.obs.capture n = u.obs.capture n := by
  rw [h.1]
  rfl

theorem execFltReadLog_completes {first n src : Nat} (hsrc : src < 2) (hf : first < 256) (h1 : 1 ≤ n) (h15 : n ≤ 15)
    (h : s.Takes 0x0601 p 0 []) (hr : src = 1 → s.Readable NvmArea.snapshot.all)
    (hp : s.paramsOf 0x0601 p = [BitVec.ofNat 8 src, BitVec.ofNat 8 first, BitVec.ofNat 8 n, 0]) :
    let held := if src = 0 then s.faults.log.map LogEntry.bytes else (s.nvm.snap.take 8).map fun r => r.2.bytes
    s.Completes s (.fltReadLog p) 0x0601 p (leBytes 1 held.length ++ zeros 3 ++ ((held.drop first).take n).flatten) := by
  have e0 : leAt (s.paramsOf 0x0601 p) 0 1 = src := by rw [hp]; simp [leAt, leVal]; omega
  have e1 : leAt (s.paramsOf 0x0601 p) 1 1 = first := by rw [hp]; simp [leAt, leVal]; omega
  have e2 : leAt (s.paramsOf 0x0601 p) 2 1 = n := by rw [hp]; simp [leAt, leVal]; omega
  have e3 : rsvdZero (s.paramsOf 0x0601 p) 3 1 = true := by rw [hp]; rfl
  have readable : (s.taken 0x0601 p).nvmRead (if leAt (s.paramsOf 0x0601 p) 0 1 = 1 then NvmArea.snapshot.all else []) =
      (s.taken 0x0601 p, true) := by
    rw [e0]
    split
    · next e => exact (hr e).taken
    · rfl
  refine h.reports rfl ((plainCmd_plain h _).withReads readable) rfl (by rw [hp]; rfl) ?_
  simp only [e0, e1, e2, e3, State.logBytes, State.taken_faults, State.taken_nvm, show ¬ 1 < src by omega, show n ≠ 0 by omega,
    show ¬ 15 < n by omega, Bool.not_true, Bool.false_eq_true, or_self, if_false]

theorem execObsCounters_completes {first n : Nat} (h1 : 1 ≤ n) (h48 : first + n ≤ 48) (h : s.Takes 0x0801 p 0 [])
    (hp : s.paramsOf 0x0801 p = [BitVec.ofNat 8 first, BitVec.ofNat 8 n, 0, 0]) :
    s.Completes s (.obsCounters p) 0x0801 p (leBytes 6 s.clock.meridian.toNat ++ zeros 2 ++
      (List.range n).flatMap fun i => leBytes 4 (s.obs.capture (first + i))) := by
  have e0 : leAt (s.paramsOf 0x0801 p) 0 1 = first := by rw [hp]; simp [leAt, leVal]; omega
  have e1 : leAt (s.paramsOf 0x0801 p) 1 1 = n := by rw [hp]; simp [leAt, leVal]; omega
  have e2 : rsvdZero (s.paramsOf 0x0801 p) 2 2 = true := by rw [hp]; rfl
  have ht := (s.taken_plain (op := 0x0801) p rfl).trace
  refine h.reports rfl (plainCmd_plain h _) rfl (by rw [hp]; rfl) ?_
  simp only [e0, e1, e2, ht.capture, State.taken_clock, show n ≠ 0 by omega, show ¬ 48 < n by omega, show ¬ 48 < first + n by omega,
    Bool.not_true, Bool.false_eq_true, or_self, if_false]

/-! ## Pages with an uncorrectable word -/

/-- ECC2_NVM is reported of a page. -/
def State.badPage (s : State) (g : Nat) : State := s.setFaults { s.faults with reports := s.faults.reports ++
  [{ det := 9, cause := BitVec.ofNat 16 g, island := 0x10, inj := false, real := false, atLeast := 0, posted := s.now,
     stamp := s.clock.meridian, aon := aonDet 9 }] }

theorem State.nvmRead_bad {pages : List Nat} {g : Nat} (h8 : s.faults.armedFor 8 = 0) (h9 : s.faults.armedFor 9 = 0)
    (hg : pages.find? s.nvm.bad.contains = some g) : s.nvmRead pages = (s.badPage g, false) := by
  induction pages with
  | nil => simp at hg
  | cons x l ih =>
    simp only [State.nvmRead, h8, h9, lt_self_iff_false, decide_false, Bool.false_and, Bool.false_eq_true, ↓reduceIte]
    rw [List.find?_cons] at hg
    split at hg
    · next hx =>
      cases hg
      rw [if_pos hx]
      rfl
    · next hx =>
      rw [if_neg (by simpa using hx)]
      exact ih hg

theorem State.TakenFrom.badPage {op : Nat} (h : u.TakenFrom v op p) (g : Nat) : (u.badPage g).TakenFrom (v.badPage g) op p := by
  have hf : v.faults = u.faults := h.only.2 .faults (by simp)
  have hc : v.clock = u.clock := h.only.2 .clock (by simp)
  unfold State.badPage State.now
  rw [hf, hc]
  exact h.setFaults _

theorem State.Takes.badPage {op cost : Nat} {c : Cmd} {own : State → Packet → List Byte → Done} {pages : List Nat} {g : Nat}
    (h : s.Takes op p cost []) (hc : ({ c with reads := fun _ _ => [] } : Cmd).Plain s op p cost []) (hn : updateOp op = false)
    (hl : c.len (s.paramsOf op p).length = true) (hr : c.reads (s.taken op p) (s.paramsOf op p) = pages)
    (h8 : s.faults.armedFor 8 = 0) (h9 : s.faults.armedFor 9 = 0) (hg : pages.find? s.nvm.bad.contains = some g) :
    let a := if c.m16 then m16Answer op stInternal [] else (stInternal, [])
    (s.badPage g).Replied (s.runCmd c p own) op p a.1 a.2 := by
  refine h.internal hc hl (v := (s.taken op p).badPage g) ?_ ((s.taken_plain p hn).badPage g) rfl rfl rfl
  rw [hr]
  exact State.nvmRead_bad (by simpa using h8) (by simpa using h9) (by simpa using hg)

end

/-- Settles O2: a read takes its bytes from parts that taking the command leaves alone; a page that cannot be read ends its command. -/
theorem readsGiveWhatTheDeviceHolds : Obligations.ReadsGiveWhatTheDeviceHolds := by
  refine ⟨fun s p => ⟨fun ch which hc hw h hp => execLinRead_completes hc hw h hp, fun mask hm h hp => execVarRead_completes hm h hp,
      execReadChannel_completes, execReadPv_completes⟩,
    fun s p copy ids hcopy hne hlen hids h hp => execAlmRead_completes hcopy hne hlen hids h hp,
    fun s p first n => ⟨fun src hsrc hf h1 h15 h hr hp => execFltReadLog_completes hsrc hf h1 h15 h hr hp,
      fun h1 h48 h hp => execObsCounters_completes h1 h48 h hp⟩,
    fun s p => ⟨fun first n hp h h8 h9 g hg => ?_, fun hp h h8 h9 g hg => ?_, fun hp h h8 h9 g hg => ?_, fun h h8 h9 g hg => ?_⟩⟩
  · exact ⟨_, rfl, h.badPage (plainCmd_plain h _) rfl (by rw [hp]; rfl) (by rw [hp]; rfl) h8 h9 hg⟩
  · exact ⟨_, rfl, h.badPage (plainCmd_plain h _) rfl (by rw [hp]; rfl) rfl h8 h9 hg⟩
  · exact ⟨_, rfl, h.badPage
      ⟨rfl, rfl, rfl, (s.taken_rightOf 0x0701 p 0x0701).trans h.right, rfl, rfl, rfl, rfl, nofun⟩ rfl (by simp [plainCmd, hp]) rfl h8 h9 hg⟩
  · refine ⟨_, rfl, fun hf => h.badPage (m16Cmd_plain h) rfl hf rfl h8 h9 hg, fun hf => ?_⟩
    have := h.toDelivers.badLength (c := { m16Cmd 0x0F41 with reads := fun _ _ => calPages }) (own := fun s _ ps => m16Done 0x0F41 s stOk (ps ++ s.nvm.calBlock))
      (Bool.eq_false_of_not_eq_true hf) (.inl rfl)
    rwa [s.started_of p rfl] at this

end Sys2Proof.Machine
end

section
/-! PROOFS. ALM_WRITE (12 R305, R308): an almanac copy after several writes, and what the entries of a sound packet do. -/

namespace Sys2Proof.Machine

open Sys2Proof

set_option Elab.async false

/-! ## Fields of a copy after writes -/

theorem assocGet_assocPut (l : List (Nat × Int)) (id : Nat) (v : Int) (x : Nat) :
    assocGet (assocPut l id v) x = if x = id then some v else assocGet l x := by
  induction l with
  | nil => simp [assocPut, assocGet, eq_comm]
  | cons e l ih =>
    obtain ⟨k, w⟩ := e
    simp only [assocPut]
    split
    · simp [assocGet, eq_comm]
    · split
      · next hk =>
        subst hk
        by_cases hx : x = id
        · simp [assocGet, hx]
        · simp [assocGet, hx, Ne.symm hx]
      · next hk =>
        simp only [assocGet, ih]
        by_cases hx : k = x
        · subst hx
          simp [Ne.symm hk]
        · simp [hx]

theorem assocGet_filter (l : List (Nat × Int)) (id x : Nat) :
    assocGet (l.filter fun e => e.1 ≠ id) x = if x = id then none else assocGet l x := by
  induction l with
  | nil => simp [assocGet]
  | cons e l ih =>
    obtain ⟨k, w⟩ := e
    by_cases hk : k = id
    · subst hk
      simp only [List.filter_cons, ne_eq, not_true_eq_false, decide_false, Bool.false_eq_true, if_false, ih, assocGet]
      by_cases hx : x = k <;> simp [hx, eq_comm]
    · simp only [List.filter_cons, ne_eq, hk, not_false_eq_true, decide_true, if_true, assocGet, ih]
      by_cases hx : k = x
      · subst hx
        simp [hk]
      · simp [hx]

/-- A field after one write. -/
theorem Alm.val_set (a : Alm) (id : Nat) (v : Int) (x : Nat) : (a.set id v).val x = if x = id then v else a.val x := by
  unfold Alm.set Alm.val
  split
  · next h =>
    rw [assocGet_filter]
    split
    · next hx => rw [hx, h]; rfl
    · rfl
  · rw [assocGet_assocPut]
    split <;> rfl

/-- A copy after several writes. -/
def Alm.writes (a : Alm) (fs : List (Nat × Int)) : Alm := fs.foldl (fun a f => a.set f.1 f.2) a

@[simp] theorem lastWrite_nil (id : Nat) : lastWrite [] id = none := rfl

theorem lastWrite_cons (f : Nat × Int) (fs : List (Nat × Int)) (id : Nat) :
    lastWrite (f :: fs) id = (lastWrite fs id).or (if f.1 = id then some f.2 else none) := by
  simp only [lastWrite, List.reverse_cons, List.find?_append, List.find?_singleton, beq_iff_eq]
  cases h : fs.reverse.find? fun f => f.1 == id with
  | some g => rfl
  | none => by_cases e : f.1 = id <;> simp [e]

/-- A field has the last value written, or the one that it had. -/
theorem Alm.val_writes (a : Alm) (fs : List (Nat × Int)) (id : Nat) : (a.writes fs).val id = (lastWrite fs id).getD (a.val id) := by
  induction fs generalizing a with
  | nil => rfl
  | cons f fs ih =>
    rw [lastWrite_cons, show a.writes (f :: fs) = (a.set f.1 f.2).writes fs from rfl, ih, Alm.val_set]
    cases lastWrite fs id with
    | some v => rfl
    | none => by_cases e : id = f.1 <;> simp [e, eq_comm]

/-- The writes of L fields. -/
def liveWrites (fs : List (Nat × Int)) : List (Nat × Int) := fs.filter fun f => liveField f.1

theorem lastWrite_liveWrites (fs : List (Nat × Int)) (id : Nat) :
    lastWrite (liveWrites fs) id = if liveField id then lastWrite fs id else none := by
  induction fs with
  | nil => simp [liveWrites]
  | cons f fs ih =>
    by_cases hf : liveField f.1 = true
    · rw [show liveWrites (f :: fs) = f :: liveWrites fs by simp [liveWrites, hf], lastWrite_cons, lastWrite_cons, ih]
      by_cases e : f.1 = id
      · subst e
        simp [hf]
      · simp [e]
    · rw [show liveWrites (f :: fs) = liveWrites fs by simp [liveWrites, hf], lastWrite_cons, ih]
      by_cases e : f.1 = id
      · subst e
        simp [hf]
      · simp [e]

/-- The three copies after several writes. -/
def Mgmt.writes (m : Mgmt) (fs : List (Nat × Int)) : Mgmt :=
  { m with shadow := m.shadow.writes fs, committed := m.committed.writes (liveWrites fs), inForce := m.inForce.writes (liveWrites fs) }

/-- What the writes leave of each copy: an L field is written in all three. -/
theorem Mgmt.writes_fields (m : Mgmt) (fs : List (Nat × Int)) : let n := m.writes fs
    n = { m with shadow := n.shadow, committed := n.committed, inForce := n.inForce } ∧
      (∀ id, n.shadow.val id = (lastWrite fs id).getD (m.shadow.val id)) ∧
      (∀ id, n.committed.val id = if liveField id then (lastWrite fs id).getD (m.committed.val id) else m.committed.val id) ∧
      (∀ id, n.inForce.val id = if liveField id then (lastWrite fs id).getD (m.inForce.val id) else m.inForce.val id) := by
  have hlive (a : Alm) (id : Nat) : (a.writes (liveWrites fs)).val id =
      if liveField id then (lastWrite fs id).getD (a.val id) else a.val id := by
    rw [Alm.val_writes, lastWrite_liveWrites]
    split <;> rfl
  exact ⟨rfl, Alm.val_writes _ fs, hlive _, hlive _⟩

theorem Mgmt.writeField_eq (m : Mgmt) {id : Nat} (v : Int) (h : (fieldRow id).isSome) : m.writeField id v = m.writes [(id, v)] := by
  obtain ⟨r, hr⟩ := Option.isSome_iff_exists.1 h
  by_cases hl : r.apply = .live <;> simp [Mgmt.writeField, Mgmt.writes, liveWrites, liveField, hr, hl, Alm.writes]

theorem Mgmt.writes_append (m : Mgmt) (fs gs : List (Nat × Int)) : (m.writes fs).writes gs = m.writes (fs ++ gs) := by
  simp [Mgmt.writes, Alm.writes, liveWrites]

/-! ## The entries of a packet -/

/-- The values of a list of entries, each within its field's range. -/
abbrev EntryValues (es : List (Nat × Nat)) (fs : List (Nat × Int)) : Prop :=
  List.Forall₂ (fun e f => f.1 = e.1 ∧ fieldOfWire e.1 e.2 = some f.2) es fs

theorem fieldRow_of_fieldOfWire {id w : Nat} {v : Int} (h : fieldOfWire id w = some v) : (fieldRow id).isSome := by
  unfold fieldOfWire at h
  cases hr : fieldRow id <;> simp [hr] at h ⊢

theorem foldl_writeField {es : List (Nat × Nat)} {fs : List (Nat × Int)} (h : EntryValues es fs) (m : Mgmt) :
    es.foldl (fun m e => match fieldOfWire e.1 e.2 with
      | some v => m.writeField e.1 v
      | none => m) m = m.writes fs := by
  induction h generalizing m with
  | nil => rfl
  | @cons e f es fs hef _ ih =>
    obtain ⟨hid, hv⟩ := hef
    have hrow : (fieldRow e.1).isSome := fieldRow_of_fieldOfWire hv
    rw [List.foldl_cons, hv]
    simp only []
    rw [Mgmt.writeField_eq _ _ hrow, ih, Mgmt.writes_append, ← hid]
    rfl

/-- Entries that pass every check are all written. -/
theorem State.writeEntries_ok {s : State} {es : List (Nat × Nat)} {fs : List (Nat × Int)} (h : EntryValues es fs)
    (hf : ∀ f ∈ fs, s.trigPinTaken f.1 f.2 = false ∧ s.stopBlocked f.1 = false)
    (hb : (∀ e ∈ es, e.1 / 2048 ≠ 0) ∨ s.overBudget (s.mgmt.shadow.withEntries es) = false) :
    s.writeEntries es = .ok (s.setMgmt (s.mgmt.writes fs)) := by
  have hpass : ∀ e ∈ es, s.entryStatus ((es.any fun e => e.1 / 2048 == 0) && s.overBudget (s.mgmt.shadow.withEntries es)) e = none := by
    intro e he
    obtain ⟨f, hfm, hid, hv⟩ : ∃ f ∈ fs, f.1 = e.1 ∧ fieldOfWire e.1 e.2 = some f.2 := by
      clear hf hb
      induction h with
      | nil => simp at he
      | @cons x g _ _ hx _ ih =>
        rcases List.mem_cons.1 he with rfl | he
        · exact ⟨g, List.mem_cons_self, hx⟩
        · obtain ⟨f, hf, hx⟩ := ih he
          exact ⟨f, List.mem_cons_of_mem _ hf, hx⟩
    obtain ⟨htrig, hstop⟩ := hf f hfm
    rw [hid] at htrig hstop
    have hdear : ((es.any fun e => e.1 / 2048 == 0) && s.overBudget (s.mgmt.shadow.withEntries es) && e.1 / 2048 == 0) = false := by
      rcases hb with hb | hb
      · simp [hb e he]
      · simp [hb]
    simp only [State.entryStatus, State.fieldStatus, hv, htrig, hstop, hdear, Bool.false_eq_true, if_false]
  have hnone : (es.zipIdx.findSome? fun (e, i) =>
      (s.entryStatus ((es.any fun e => e.1 / 2048 == 0) && s.overBudget (s.mgmt.shadow.withEntries es)) e).map fun st => (i, st)) = none := by
    rw [List.findSome?_eq_none_iff]
    rintro ⟨e, i⟩ hx
    exact congrArg (Option.map _) (hpass e (List.fst_mem_of_mem_zipIdx hx))
  unfold State.writeEntries
  simp only [hnone]
  exact congrArg (fun m => Except.ok (s.setMgmt m)) (foldl_writeField h s.mgmt)

theorem almEntries_flatMap {es : List (Nat × Nat)} (h : ∀ e ∈ es, e.1 < 65536 ∧ e.2 < 4294967296) :
    almEntries es.length (es.flatMap fun e => leBytes 2 e.1 ++ leBytes 4 e.2) = es := by
  induction es with
  | nil => rfl
  | cons e es ih =>
    obtain ⟨h1, h2⟩ := h e (by simp)
    have e1 : e.1 % 256 ^ 2 = e.1 := Nat.mod_eq_of_lt h1
    have e2 : e.2 % 256 ^ 4 = e.2 := Nat.mod_eq_of_lt h2
    rw [List.length_cons, List.flatMap_cons, almEntries, List.drop_left' (by simp), ih fun x hx => h x (List.mem_cons_of_mem _ hx),
      List.append_assoc, leAt_append_left _ (by simp), leAt_append_right _ _ (by simp), leBytes_length, Nat.sub_self,
      leAt_append_left _ (by simp), leAt_leBytes, leAt_leBytes, e1, e2]

section
variable {s u v : State} {op : Nat} {p : Packet}

theorem State.TakenFrom.writes (h : u.TakenFrom v op p) (fs : List (Nat × Int)) :
    (u.setMgmt (u.mgmt.writes fs)).TakenFrom (v.setMgmt (v.mgmt.writes fs)) op p :=
  h.setMgmt _ _ rfl (by rw [h.mgmt]; rfl)

theorem State.TakenFrom.clearDup (h : u.TakenFrom v op p) : u.clearDup.TakenFrom v.clearDup op p := by
  have hf : v.fab = u.fab := h.only.2 .fab (by simp)
  rw [State.clearDup, State.clearDup, hf]
  exact h.setFab _

end

/-- Settles O3: the entries pass the checks one by one, so that all are written, in their order. -/
theorem almanacWriteTakesEveryEntry : Obligations.AlmanacWriteTakesEveryEntry := by
  intro s p es fs _ _ _ hne hsize hval hpass hbudget hright hlock h hp
  have hlen : (s.paramsOf 0x0101 p).length = 2 + 6 * es.length := by
    rw [hp]
    simp [List.length_flatMap, mul_comm]
  have hn : leAt (s.paramsOf 0x0101 p) 0 2 = es.length := by
    have := h.bounded
    rw [hp, leAt_append_left _ (by simp), leAt_leBytes]
    omega
  have hes : almEntries es.length ((s.paramsOf 0x0101 p).drop 2) = es := by
    rw [hp, List.drop_left' (leBytes_length _ _), almEntries_flatMap hsize]
  have hwrite := State.writeEntries_ok (s := s.taken 0x0101 p) hval
    (by simpa [State.trigPinTaken, State.stopBlocked, State.taken_mgmt] using hpass)
    (by simpa [State.overBudget, State.taken_mgmt] using hbudget)
  have hallow : ((es.any fun e => bearingOrAddr e.1) && !(s.taken 0x0101 p).hasRight p 4) = false := by
    rcases hright with hr | hr
    · simp only [Bool.and_eq_false_iff, List.any_eq_false]
      exact .inl fun e he => by simp [hr e he]
    · have : (s.taken 0x0101 p).hasRight p 4 = s.hasRight p 4 := by
        simp [State.hasRight, State.rights, State.addrRights, State.taken_mgmt]
      simp [this, hr]
  have hfree : (s.taken 0x0101 p).almLocked p = false := by simpa [State.almLocked] using hlock
  have hlen0 : es.length ≠ 0 := fun e => hne (List.length_eq_zero_iff.1 e)
  let clears : Prop := p.src = 0x01 ∧ (es.any fun e => e.1 == fid 9 0 0) = true
  let wrote (t : State) : State := t.setMgmt (t.mgmt.writes fs)
  have hfrom : (wrote s).TakenFrom (wrote (s.taken 0x0101 p)) 0x0101 p := (s.taken_plain p rfl).writes fs
  have hc : ({ plainCmd 0x0101 (fun l => 2 ≤ l && (l - 2) % 6 == 0) with
      fits := fun ps => ps.length == 2 + 6 * leAt ps 0 2 } : Cmd).Plain s 0x0101 p 0 [] :=
    (plainCmd_plain h _).withFits (by simp [hlen, hn])
  have hl : (fun l => 2 ≤ l && (l - 2) % 6 == 0) (s.paramsOf 0x0101 p).length = true := by simp [hlen]
  by_cases hcl : clears
  · refine ⟨(wrote s).clearDup, h.completes (v := (wrote (s.taken 0x0101 p)).clearDup) rfl hc hl ?_ hfrom.clearDup, ?_, ?_⟩
    · simp only [hn, hes, hallow, hfree, hlen0, hwrite, Bool.false_eq_true, if_false]
      rw [if_pos hcl]
    · exact ⟨rfl, fun q hq => by cases q <;> first | rfl | simp at hq⟩
    · obtain ⟨h1, h2, h3, h4⟩ := s.mgmt.writes_fields fs
      refine ⟨h1, h2, h3, h4, ?_⟩
      show ({ s.fab with dup := false } : Fabric) = _
      simp [hcl.1, hcl.2]
  · refine ⟨wrote s, h.completes (v := wrote (s.taken 0x0101 p)) rfl hc hl ?_ hfrom, ?_, ?_⟩
    · simp only [hn, hes, hallow, hfree, hlen0, hwrite, Bool.false_eq_true, if_false]
      rw [if_neg hcl]
    · exact ⟨rfl, fun q hq => by cases q <;> first | rfl | simp at hq⟩
    · obtain ⟨h1, h2, h3, h4⟩ := s.mgmt.writes_fields fs
      refine ⟨h1, h2, h3, h4, ?_⟩
      have : (p.src == 0x01 && es.any fun e => e.1 == fid 9 0 0) = false :=
        Bool.eq_false_of_not_eq_true (by simpa only [Bool.and_eq_true, beq_iff_eq] using hcl)
      show s.fab = _
      rw [this, Bool.not_false, Bool.and_true]

end Sys2Proof.Machine
end

section
/-! PROOFS. ALM_CHECK and ALM_APPLY (12 R309, R310). -/

namespace Sys2Proof.Machine

open Sys2Proof

set_option Elab.async false

section
variable (s : State) {op : Nat} (p : Packet)

theorem State.taken_checkShadow : (s.taken op p).checkShadow = s.checkShadow := by
  have hsrc : (s.taken op p).sources = s.sources := by simp [State.sources, State.swapMasks]
  have hstop : (s.taken op p).stopBlocked = s.stopBlocked := by funext id; simp [State.stopBlocked]
  have hnew : (s.taken op p).newLevel = s.newLevel := by funext i; simp [State.newLevel, State.activeMem]
  simp [State.checkShadow, hsrc, hstop, hnew, State.taken_mgmt]

theorem State.taken_jskips (m : SlotMap) (a : Alm) : (s.taken op p).jskips m a = s.jskips m a := by
  simp [State.jskips, State.taken_mgmt]

theorem State.taken_roundFrom (t : Nat) : (s.taken op p).roundFrom t = s.roundFrom t := by simp [State.roundFrom]

theorem State.taken_applyNeeds : (s.taken op p).applyNeeds = s.applyNeeds := by
  simp [State.applyNeeds, State.taken_mgmt]

theorem State.taken_mapBusy : (s.taken op p).mapBusy = s.mapBusy := by simp [State.mapBusy, State.jobPending]

theorem State.taken_almLocked (q : Packet) : (s.taken op p).almLocked q = s.almLocked q := by simp [State.almLocked]

end

/-- FAILED_FIELD stands in a record of a failed check, and the cost of its map where there is one. -/
theorem SlotMap.record_fields (m : SlotMap) (jskip field round : Nat) :
    leAt (m.record jskip field round) 26 2 = field % 65536 ∧ leAt (m.record jskip field round) 0 4 = m.cost % 4294967296 := by
  simp [SlotMap.record, leAt_append_left, leAt_append_right]

/-- The record of a failed check, and the values drawn for it. -/
theorem State.failRecord_spec (s : State) (field : Nat) (map : Option SlotMap) (apply : Bool) : ∃ n res,
    s.failRecord field map apply = (s.drawn n, res) ∧ s.free ≤ n ∧ leAt res 26 2 = field % 65536 ∧
      ∀ m, map = some m → leAt res 0 4 = m.cost % 4294967296 := by
  cases map with
  | some m =>
    obtain ⟨h26, h0⟩ := m.record_fields (s.jskips m s.mgmt.shadow) field (if apply then (s.draw 32).1.toNat else 0)
    exact ⟨s.free + 1, _, rfl, Nat.le_succ _, h26, by rintro _ ⟨⟩; exact h0⟩
  | none =>
    refine ⟨s.free + 3, _, rfl, by omega, ?_, nofun⟩
    simp [leAt_append_left, leAt_append_right]

section
variable {s u v : State} {op : Nat} {p : Packet}

theorem State.TakenFrom.commitShadow (h : u.TakenFrom v op p) (m : SlotMap) (fs : List SlotMap) :
    (u.commitShadow m fs).TakenFrom (v.commitShadow m fs) op p :=
  h.map (fun t => t.commitShadow m fs) fun _ _ _ => rfl

/-- A command's rules that draw values and report a failed check. -/
theorem State.Takes.failsCheck {i : Instr} {c : Cmd} {own : State → Packet → List Byte → Done} {needs : List Island} {st field : Nat}
    {map : Option SlotMap} {apply : Bool} (h : s.Takes op p 0 needs) (he : exec i s = .next (s.runCmd c p own))
    (hc : c.Plain s op p 0 needs) (hn : updateOp op = false) (hl : c.len (s.paramsOf op p).length = true)
    (ho : own (s.taken op p) p (s.paramsOf op p) =
      .done ((s.taken op p).failRecord field map apply).1 st ((s.taken op p).failRecord field map apply).2) :
    ∃ t u res, exec i s = .next t ∧ u.Replied t op p st res ∧ s.Only [.free] u ∧
      leAt res 26 2 = field % 65536 ∧ ∀ m, map = some m → leAt res 0 4 = m.cost % 4294967296 := by
  obtain ⟨n, res, e, -, h26, h0⟩ := (s.taken op p).failRecord_spec field map apply
  rw [e] at ho
  obtain ⟨t, ht, hrep⟩ := h.completes he hc hl ho ((s.taken_plain p hn).drawn n)
  exact ⟨t, s.drawn n, res, ht, hrep, s.drawn_only n, h26, h0⟩

end

/-- ALM_APPLY's shell needs the islands whose fields differ. -/
theorem applyCmd_plain {s : State} {p : Packet} (h : s.Takes 0x0103 p 0 s.applyNeeds) :
    ({ plainCmd 0x0103 (· == 0) with needs := fun s _ => s.applyNeeds } : Cmd).Plain s 0x0103 p 0 s.applyNeeds :=
  { needsCmd_plain h (· == 0) (m16 := false) with needs := s.taken_applyNeeds p }

/-- Settles O4: both commands compile the shadow copy in the same way. -/
theorem checkAndApplyAgreeOnTheShadow : Obligations.CheckAndApplyAgreeOnTheShadow := by
  intro s p q
  refine ⟨fun h hp => ?_, fun hlock hbusy h hp => ?_, fun hbusy h hp => ?_⟩
  · have e := s.taken_checkShadow (op := 0x0104) p
    rcases hs : s.checkShadow with ⟨⟨st, field⟩, map⟩ | ⟨m, fs⟩ <;> rw [hs] at e
    · exact h.failsCheck (apply := false) rfl (plainCmd_plain h _) rfl (by rw [hp]; rfl) (by simp only [e])
    · exact h.reports rfl (plainCmd_plain h _) rfl (by rw [hp]; rfl) (by simp only [e, State.taken_jskips, State.taken_mgmt])
  · have e := s.taken_checkShadow (op := 0x0103) q
    have hfree : ((s.taken 0x0103 q).almLocked q || (s.taken 0x0103 q).mapBusy) = false := by
      rw [State.taken_almLocked, State.taken_mapBusy, hlock, hbusy]
      rfl
    rcases hs : s.checkShadow with ⟨⟨st, field⟩, map⟩ | ⟨m, fs⟩ <;> rw [hs] at e
    · exact h.failsCheck (apply := true) rfl (applyCmd_plain h) rfl (by rw [hp]; rfl)
        (by simp only [e, hfree, Bool.false_eq_true, if_false])
    · refine ⟨s.commitShadow m fs,
        h.completes rfl (applyCmd_plain h) (by rw [hp]; rfl) ?_ ((s.taken_plain q rfl).commitShadow m fs), ?_, rfl, rfl, ?_⟩
      · simp only [hfree, e, Bool.false_eq_true, if_false, State.taken_jskips, State.taken_roundFrom, State.taken_mgmt,
          State.tokenFrom, State.taken_now]
      · exact ⟨rfl, fun q hq => by cases q <;> first | rfl | simp at hq⟩
      · refine ⟨ite_congr rfl (fun _ => rfl) fun hn => ?_, ite_congr rfl (fun _ => rfl) fun hn => ?_,
          ite_congr rfl (fun _ => rfl) fun hn => ?_⟩
        all_goals exact Option.not_isSome_iff_eq_none.1 fun hx => hn (by rw [Bool.or_eq_true]; exact .inl hx)
  · have hsome : ((s.taken 0x0103 q).almLocked q || (s.taken 0x0103 q).mapBusy) = true := by
      rw [State.taken_almLocked, State.taken_mapBusy]
      simpa using hbusy
    rw [State.Declines, s.started_of q rfl]
    exact h.reports rfl (applyCmd_plain h) rfl (by rw [hp]; rfl) (by simp only [hsome, if_true])

end Sys2Proof.Machine
end

section
/-! PROOFS. ALM_SAVE and CAL_WRITE (12 R312, R313; 14 R363): the two saved copies of the almanac under a write of one. -/

namespace Sys2Proof.Machine

open Sys2Proof

set_option Elab.async false

theorem Nvm.wrote_bad (n : Nvm) (pages : List Nat) (g : Nat) : (n.wrote pages).bad.contains g = (n.bad.contains g && !pages.contains g) := by
  simp [Nvm.wrote, List.contains_eq_mem]

/-- The pages of the two copies are different ones. -/
theorem alm_pages_disjoint (b : Bool) {g : Nat} (h : g ∈ (NvmArea.alm b).all) : g ∉ (NvmArea.alm !b).all := by
  cases b <;> simp [NvmArea.all, NvmArea.first, NvmArea.pages] at h ⊢ <;> omega

/-- A copy whose digest is its own and whose pages have just been written. -/
theorem almCopy_written {n : Nvm} {b : Bool} {c : AlmCopy} (hc : c.valid = true) :
    ((some c).filter fun c => c.valid && !((NvmArea.alm b).all.any (n.wrote (NvmArea.alm b).all).bad.contains)) = some c := by
  have : (NvmArea.alm b).all.any (n.wrote (NvmArea.alm b).all).bad.contains = false := by
    simp only [List.any_eq_false, Nvm.wrote_bad]
    intro g hg
    simp [hg]
  simp [this, hc]

/-- The other copy is as it was. -/
theorem almCopy_kept {n : Nvm} {b : Bool} (x : Option AlmCopy) :
    (x.filter fun c => c.valid && !((NvmArea.alm b).all.any (n.wrote (NvmArea.alm !b).all).bad.contains)) =
      x.filter fun c => c.valid && !((NvmArea.alm b).all.any n.bad.contains) := by
  have : (NvmArea.alm b).all.any (n.wrote (NvmArea.alm !b).all).bad.contains = (NvmArea.alm b).all.any n.bad.contains := by
    rw [Bool.eq_iff_iff]
    simp only [List.any_eq_true, Nvm.wrote_bad]
    refine exists_congr fun g => and_congr_right fun hg => ?_
    simp [alm_pages_disjoint b hg]
  rw [this]

/-- The NVM once a copy has been saved over the older one. -/
def Nvm.savedOver (n : Nvm) (c : AlmCopy) : Nvm :=
  if copySeq (n.almCopy false) ≤ copySeq (n.almCopy true) then { n.wrote (NvmArea.alm false).all with almA := some c }
  else { n.wrote (NvmArea.alm true).all with almB := some c }

/-- The saved copy: the next sequence number, with its digest. -/
def Nvm.nextCopy (n : Nvm) (a : Alm) : AlmCopy :=
  let k := max (copySeq (n.almCopy false)) (copySeq (n.almCopy true)) + 1
  ⟨k, a, almDigest k a⟩

theorem Nvm.savedOver_spec (n : Nvm) (a : Alm) : let m := n.savedOver (n.nextCopy a)
    m.newestAlm = some (n.nextCopy a) ∧
      (if copySeq (n.almCopy false) ≤ copySeq (n.almCopy true) then m.almCopy true = n.almCopy true else m.almCopy false = n.almCopy false) := by
  have hv : (n.nextCopy a).valid = true := by simp [Nvm.nextCopy, AlmCopy.valid]
  by_cases h : copySeq (n.almCopy false) ≤ copySeq (n.almCopy true)
  · have hnew : (n.savedOver (n.nextCopy a)).almCopy false = some (n.nextCopy a) := by
      rw [Nvm.savedOver, if_pos h]
      exact almCopy_written hv
    have hold : (n.savedOver (n.nextCopy a)).almCopy true = n.almCopy true := by
      rw [Nvm.savedOver, if_pos h]
      exact almCopy_kept (b := true) n.almB
    refine ⟨?_, by rw [if_pos h]; exact hold⟩
    rw [Nvm.newestAlm, hnew, hold, if_neg]
    simp only [copySeq, Nvm.nextCopy] at h ⊢
    omega
  · have hnew : (n.savedOver (n.nextCopy a)).almCopy true = some (n.nextCopy a) := by
      rw [Nvm.savedOver, if_neg h]
      exact almCopy_written hv
    have hold : (n.savedOver (n.nextCopy a)).almCopy false = n.almCopy false := by
      rw [Nvm.savedOver, if_neg h]
      exact almCopy_kept (b := false) n.almA
    refine ⟨?_, by rw [if_neg h]; exact hold⟩
    rw [Nvm.newestAlm, hnew, hold, if_pos]
    simp only [copySeq, Nvm.nextCopy] at h ⊢
    omega

theorem Nvm.saveAlm_eq (n : Nvm) (a : Alm) : n.saveAlm a = (n.savedOver (n.nextCopy a), (n.nextCopy a).seq) := rfl

section
variable {s : State} {p : Packet}

theorem State.taken_almSave (op : Nat) (h : s.almLocked p = false) : (s.taken op p).almSave p =
    ((s.taken op p).setNvm (s.nvm.savedOver (s.nvm.nextCopy s.mgmt.committed)), stOk, leBytes 4 (s.nvm.nextCopy s.mgmt.committed).seq) := by
  simp [State.almSave, State.taken_almLocked, h, Nvm.saveAlm_eq, State.taken_mgmt]

end

/-- Settles O5: a saved copy has the next sequence number, so that it is the newest; no other part of the NVM is written. -/
theorem savesReplaceOnlyTheirBlocks : Obligations.SavesReplaceOnlyTheirBlocks := by
  refine ⟨fun s p hfree => ?_, fun s p h => ?_⟩
  · obtain ⟨hnew, hother⟩ := s.nvm.savedOver_spec s.mgmt.committed
    refine ⟨hnew, hother, fun h hp => ?_, fun h => ?_⟩
    · exact h.completes rfl ((needsCmd_plain (m16 := false) h _).withCost rfl) (by rw [hp]; rfl)
        (by rw [State.taken_almSave _ hfree]; rfl) ((s.taken_plain p rfl).setNvm _)
    · exact h.m16 rfl ((m16Cmd_plain h).withCost rfl) rfl rfl (by rw [State.taken_almSave _ hfree]; rfl)
        ((s.taken_plain p rfl).setNvm _)
  · exact h.m16 rfl ((m16Cmd_plain h).withCost rfl) rfl rfl (by rw [State.taken_nvm]) ((s.taken_plain p rfl).setNvm _)

end Sys2Proof.Machine
end

section
/-! PROOFS. QUEUE_BIND and REG_WRITE (06 R161; 12 R311, R313): the stream checks on the copy with one stream's fields replaced, and the
fields of a register block. -/

namespace Sys2Proof.Machine

open Sys2Proof

set_option Elab.async false

/-! ## Streams apart -/

/-- Two streams that are on share a channel or a buffer. -/
def Alm.streamsMeet (a : Alm) (q r : Nat) : Prop :=
  a.streamOn q = true ∧ a.streamOn r = true ∧ (a.qsChmask q &&& a.qsChmask r ≠ 0 ∨ ∃ b ∈ a.streamRange q, b ∈ a.streamRange r)

theorem Alm.streamsMeet_comm (a : Alm) (q r : Nat) : a.streamsMeet q r ↔ a.streamsMeet r q := by
  have one (q r : Nat) : a.streamsMeet q r → a.streamsMeet r q := by
    rintro ⟨hq, hr, hm | ⟨b, hb, hc⟩⟩
    · exact ⟨hr, hq, .inl (by rwa [Nat.and_comm])⟩
    · exact ⟨hr, hq, .inr ⟨b, hc, hb⟩⟩
  exact ⟨one q r, one r q⟩

/-- The stream checks fail exactly where two streams meet. -/
theorem Alm.streamChecks_fail (a : Alm) : (firstFail a.streamChecks).isSome = true ↔ ∃ q r, q < r ∧ r < 4 ∧ a.streamsMeet q r := by
  rw [firstFail, Option.isSome_map, List.find?_isSome]
  simp only [Alm.streamChecks, List.mem_flatMap, List.mem_range, List.mem_cons, List.not_mem_nil, or_false]
  constructor
  · rintro ⟨x, ⟨r, hr, hx | hx⟩, hf⟩ <;> subst hx <;>
      simp only [Bool.and_eq_true, List.any_eq_true, List.mem_filter, List.mem_range, bne_iff_ne, overlap, List.contains_iff_mem] at hf
    · obtain ⟨hon, q, ⟨hq, hqon⟩, hm⟩ := hf
      exact ⟨q, r, hq, hr, (a.streamsMeet_comm q r).2 ⟨hon, hqon, .inl hm⟩⟩
    · obtain ⟨hon, q, ⟨hq, hqon⟩, b, hb, hc⟩ := hf
      exact ⟨q, r, hq, hr, (a.streamsMeet_comm q r).2 ⟨hon, hqon, .inr ⟨b, hb, hc⟩⟩⟩
  · rintro ⟨q, r, hq, hr, hmeet⟩
    obtain ⟨hon, hqon, hm | ⟨b, hb, hc⟩⟩ := (a.streamsMeet_comm q r).1 hmeet
    · refine ⟨_, ⟨r, hr, .inl rfl⟩, ?_⟩
      simp only [Bool.and_eq_true, List.any_eq_true, List.mem_filter, List.mem_range, bne_iff_ne]
      exact ⟨hon, q, ⟨hq, hqon⟩, hm⟩
    · refine ⟨_, ⟨r, hr, .inr rfl⟩, ?_⟩
      simp only [Bool.and_eq_true, List.any_eq_true, List.mem_filter, List.mem_range, overlap, List.contains_iff_mem]
      exact ⟨hon, q, ⟨hq, hqon⟩, b, hb, hc⟩

/-! ## One stream's fields -/

/-- The five fields of a stream. -/
def streamWords (k mask dest first count flush : Nat) : List (Nat × Nat) :=
  [(fid 5 k 0, mask), (fid 5 k 1, dest), (fid 5 k 2, first), (fid 5 k 3, count), (fid 5 k 4, flush)]

/-- The same as field values. -/
def streamValues (k mask dest first count flush : Nat) : List (Nat × Int) :=
  (streamWords k mask dest first count flush).map fun f => (f.1, (f.2 : Int))

section
variable (a : Alm) (k mask dest first count flush : Nat)

theorem fid_stream_inj (k q : Nat) {i j : Nat} (hi : i < 5) (hj : j < 5) : fid 5 k i = fid 5 q j ↔ k = q ∧ i = j := by
  unfold fid
  omega

theorem lastWrite_stream (q j : Nat) (hj : j < 5) : lastWrite (streamValues k mask dest first count flush) (fid 5 q j) =
    if q = k then some (([mask, dest, first, count, flush].getD j 0 : Nat) : Int) else none := by
  have inj (i : Nat) (hi : i < 5) : fid 5 k i = fid 5 q j ↔ k = q ∧ i = j := fid_stream_inj k q hi hj
  simp only [streamValues, streamWords, List.map_cons, List.map_nil, lastWrite_cons, lastWrite_nil, inj 0 (by decide), inj 1 (by decide),
    inj 2 (by decide), inj 3 (by decide), inj 4 (by decide)]
  by_cases hq : k = q
  · subst hq
    clear inj
    interval_cases j <;> simp
  · simp [hq, Ne.symm hq]

theorem Alm.stream_written (q j : Nat) (hj : j < 5) :
    (a.writes (streamValues k mask dest first count flush)).nat (fid 5 q j) =
      if q = k then [mask, dest, first, count, flush].getD j 0 else a.nat (fid 5 q j) := by
  rw [Alm.nat, Alm.val_writes, lastWrite_stream _ _ _ _ _ _ _ _ hj]
  split
  · exact Int.toNat_natCast _
  · rfl

/-- The streams of a copy with one stream's fields replaced meet where the statement says so. -/
theorem Alm.streams_written (q r : Nat) : (a.writes (streamValues k mask dest first count flush)).streamsMeet q r ↔
    (if q = k then count ≠ 0 else a.streamOn q = true) ∧ (if r = k then count ≠ 0 else a.streamOn r = true) ∧
      ((if q = k then mask else a.qsChmask q) &&& (if r = k then mask else a.qsChmask r) ≠ 0 ∨
        ∃ b ∈ (if q = k then bufRange first count else a.streamRange q), b ∈ (if r = k then bufRange first count else a.streamRange r)) := by
  have hon (q : Nat) : (a.writes (streamValues k mask dest first count flush)).streamOn q = true ↔
      if q = k then count ≠ 0 else a.streamOn q = true := by
    rw [Alm.streamOn, Alm.qsBufCount, Alm.stream_written _ _ _ _ _ _ _ _ _ (by decide)]
    split
    · exact bne_iff_ne
    · rfl
  have hmask (q : Nat) : (a.writes (streamValues k mask dest first count flush)).qsChmask q = if q = k then mask else a.qsChmask q :=
    Alm.stream_written _ _ _ _ _ _ _ _ _ (by decide)
  have hrange (q : Nat) : (a.writes (streamValues k mask dest first count flush)).streamRange q =
      if q = k then bufRange first count else a.streamRange q := by
    rw [Alm.streamRange, Alm.qsBufFirst, Alm.qsBufCount, Alm.stream_written _ _ _ _ _ _ _ _ _ (by decide),
      Alm.stream_written _ _ _ _ _ _ _ _ _ (by decide)]
    split <;> rfl
  rw [Alm.streamsMeet, hon, hon, hmask, hmask, hrange, hrange]

end

theorem Mgmt.bindFields_eq (m : Mgmt) (fs : List (Nat × Int)) :
    m.bindFields fs = { m with shadow := m.shadow.writes fs, committed := m.committed.writes fs } := rfl


section
variable {s u v : State} {op : Nat} {p : Packet}

theorem State.TakenFrom.bindFields (h : u.TakenFrom v op p) (fs : List (Nat × Int)) :
    (u.setMgmt (u.mgmt.bindFields fs)).TakenFrom (v.setMgmt (v.mgmt.bindFields fs)) op p :=
  h.map (fun t => t.setMgmt (t.mgmt.bindFields fs)) fun _ _ _ => rfl

/-- QUEUE_BIND's parameters, read back. -/
theorem bindParams {k mask dest first count flush : Nat} {ps : List Byte} (hk : k < 4) (hm : mask < 4294967296) (hd : dest < 256)
    (hf : first < 256) (hc : count < 256) (hl : flush < 4294967296)
    (hp : ps = [BitVec.ofNat 8 k, 0, 0, 0] ++ leBytes 4 mask ++ leBytes 1 dest ++ leBytes 1 first ++ leBytes 1 count ++ [0] ++
      leBytes 4 flush) :
    ps.length = 16 ∧ leAt ps 0 1 = k ∧ leAt ps 4 4 = mask ∧ leAt ps 8 1 = dest ∧ leAt ps 9 1 = first ∧ leAt ps 10 1 = count ∧
      leAt ps 12 4 = flush ∧ rsvdZero ps 1 3 = true ∧ rsvdZero ps 11 1 = true := by
  have e : ps = leBytes 1 k ++ zeros 3 ++ leBytes 4 mask ++ leBytes 1 dest ++ leBytes 1 first ++ leBytes 1 count ++ zeros 1 ++
      leBytes 4 flush := hp
  have hz1 : rsvdZero ps 1 3 = true := by
    rw [e]
    simp only [List.append_assoc]
    rw [← List.append_assoc]
    exact rsvdZero_mid _ (leBytes_length 1 k)
  have hz11 : rsvdZero ps 11 1 = true := by
    rw [e]
    exact rsvdZero_mid _ (by simp)
  subst e
  refine ⟨by simp, ?_, ?_, ?_, ?_, ?_, ?_, hz1, hz11⟩
  all_goals
    simp [leAt_append_left, leAt_append_right]
    omega

/-- What QUEUE_BIND's own rules do with sound fields. -/
theorem bindOwn {k mask dest first count flush : Nat} (hk : k < 4) (hm : mask < 4294967296) (hd : dest < 256)
    (hf : first < 256) (hc : count < 256) (hl : flush < 4294967296) (h : s.Takes 0x0204 p 0 [.meas])
    (hp : s.paramsOf 0x0204 p = [BitVec.ofNat 8 k, 0, 0, 0] ++ leBytes 4 mask ++ leBytes 1 dest ++ leBytes 1 first ++ leBytes 1 count ++
      [0] ++ leBytes 4 flush)
    (hsound : ∀ f ∈ streamWords k mask dest first count flush, fieldOfWire f.1 f.2 = some (f.2 : Int)) :
    let fs := streamValues k mask dest first count flush
    ((∀ q r, q < r → r < 4 → ¬ (s.mgmt.committed.writes fs).streamsMeet q r) →
      s.Completes (s.setMgmt (s.mgmt.bindFields fs)) (.queueBind p) 0x0204 p []) ∧
    (¬ (∀ q r, q < r → r < 4 → ¬ (s.mgmt.committed.writes fs).streamsMeet q r) → s.Declines (.queueBind p) 0x0204 p stBadParam) := by
  obtain ⟨hlen, h0, h4, h8, h9, h10, h12, hz1, hz11⟩ := bindParams hk hm hd hf hc hl hp
  have hwire : ((streamWords k mask dest first count flush).any fun f => (fieldOfWire f.1 f.2).isNone) = false := by
    simp only [List.any_eq_false]
    intro f hf
    simp [hsound f hf]
  have hk3 : ¬ 3 < k := by omega
  have hcommitted : ((s.taken 0x0204 p).mgmt.bindFields (streamValues k mask dest first count flush)).committed =
      s.mgmt.committed.writes (streamValues k mask dest first count flush) := by
    rw [Mgmt.bindFields_eq, State.taken_mgmt]
  have hfail := (s.mgmt.committed.writes (streamValues k mask dest first count flush)).streamChecks_fail
  rw [← hcommitted] at hfail
  unfold streamValues streamWords at hfail hcommitted
  unfold streamWords at hwire
  constructor
  · intro hapart
    refine h.completes rfl (needsCmd_plain h _) (by rw [hlen]; rfl) ?_ ((s.taken_plain p rfl).bindFields _)
    have hno : ¬ (firstFail ((s.taken 0x0204 p).mgmt.bindFields _).committed.streamChecks).isSome = true := fun hx => by
      obtain ⟨q, r, hq, hr, hm⟩ := hfail.1 hx
      exact hapart q r hq hr (by rwa [hcommitted] at hm)
    simp only [h0, h4, h8, h9, h10, h12, hz1, hz11, hk3, hwire, Bool.not_true, Bool.false_eq_true, or_self, if_false]
    rw [if_neg hno]
    rfl
  · intro hmeet
    rw [State.Declines, s.started_of p rfl]
    refine h.reports rfl (needsCmd_plain h _) rfl (by rw [hlen]; rfl) ?_
    have hyes : (firstFail ((s.taken 0x0204 p).mgmt.bindFields _).committed.streamChecks).isSome = true := hfail.2 (by
      rw [hcommitted]
      simpa [streamValues, streamWords] using hmeet)
    simp only [h0, h4, h8, h9, h10, h12, hz1, hz11, hk3, hwire, Bool.not_true, Bool.false_eq_true, or_self, if_false]
    rw [if_pos hyes]

/-! ## Fields of a register block -/

theorem foldl_live (fs : List (Nat × Int)) (a : Alm) : fs.foldl (fun a f => match fieldRow f.1 with
    | some r => if r.apply = .live then a.set f.1 f.2 else a
    | none => a) a = a.writes (liveWrites fs) := by
  induction fs generalizing a with
  | nil => rfl
  | cons f fs ih =>
    rw [List.foldl_cons, ih]
    cases hr : fieldRow f.1 with
    | none => simp [liveWrites, liveField, hr]
    | some r => by_cases hl : r.apply = .live <;> simp [liveWrites, liveField, hr, hl, Alm.writes]

theorem Mgmt.commitFields_eq (m : Mgmt) (fs : List (Nat × Int)) : m.commitFields fs =
    { m with shadow := m.shadow.writes fs, committed := m.committed.writes fs, inForce := m.inForce.writes (liveWrites fs) } := by
  rw [← foldl_live]
  rfl

/-- A register block once it is committed. -/
def Mgmt.regBlock (m : Mgmt) (ps : List Byte) : Mgmt := (m.commitFields (m16Writes ps)).putRegs (Config.m16RegBytes ps)

/-- The state with a register block committed and its tokens posted. -/
def State.regBlock (s : State) (ps : List Byte) (map : Option (SlotMap × List SlotMap)) : State :=
  (s.setMgmt (s.mgmt.regBlock ps)).postTokens map

theorem State.TakenFrom.regBlock (h : u.TakenFrom v op p) (ps : List Byte) (map : Option (SlotMap × List SlotMap)) :
    (u.regBlock ps map).TakenFrom (v.regBlock ps map) op p := h.map (fun t => t.regBlock ps map) fun _ _ _ => rfl

theorem State.regBlock_only (s : State) (ps : List Byte) (map : Option (SlotMap × List SlotMap)) : s.Only [.mgmt] (s.regBlock ps map) :=
  (s.setMgmt_only _).trans (State.setMgmt_only _ _)

/-- What a register block leaves of MGMT. -/
theorem State.regBlock_fields (s : State) (ps : List Byte) (map : Option (SlotMap × List SlotMap)) : let u := s.regBlock ps map
    let fs := m16Writes ps
    u.mgmt = { s.mgmt with
      shadow := u.mgmt.shadow, committed := u.mgmt.committed, inForce := u.mgmt.inForce
      pendMeas := u.mgmt.pendMeas, pendLoop := u.mgmt.pendLoop, pendLine := u.mgmt.pendLine
      m16Regs := (Config.m16RegBytes ps).foldl (fun r w => r.setIfInBounds w.1 w.2) s.mgmt.m16Regs } ∧
    (∀ id, u.mgmt.committed.val id = (lastWrite fs id).getD (s.mgmt.committed.val id)) ∧
    (∀ id, u.mgmt.shadow.val id = (lastWrite fs id).getD (s.mgmt.shadow.val id)) ∧
    (∀ id, u.mgmt.inForce.val id = if liveField id then (lastWrite fs id).getD (s.mgmt.inForce.val id) else s.mgmt.inForce.val id) ∧
    u.mgmt.pendLoop = (if s.mgmt.pendLoop.isSome || u.mgmt.inForce.differKind u.mgmt.committed .loop then
      some ⟨u.mgmt.committed, s.now, none, false⟩ else none) := by
  refine ⟨rfl, Alm.val_writes _ _, Alm.val_writes _ _, fun id => ?_, ite_congr rfl (fun _ => rfl) fun hn => ?_⟩
  · have e : (s.regBlock ps map).mgmt.inForce = s.mgmt.inForce.writes (liveWrites (m16Writes ps)) := foldl_live _ _
    rw [e, Alm.val_writes, lastWrite_liveWrites]
    split <;> rfl
  · exact Option.not_isSome_iff_eq_none.1 fun hx => hn (by rw [Bool.or_eq_true]; exact .inl hx)

/-- The status that a sound field never has. -/
theorem State.fieldStatus_ne (s : State) {dear : Bool} {e : Nat × Nat} {st : Nat} (h : s.fieldStatus dear e = some st) : st ≠ stOk := by
  unfold State.fieldStatus at h
  split at h
  · cases h
    decide
  · split_ifs at h <;> cases h <;> decide

section
variable (s) (ps : List Byte)

/-- Whether the new values break the budget of 03 R50. -/
def State.regDear : Bool := (m16Writes ps).any (fun f => f.1 / 2048 == 0) &&
  s.overBudget (s.mgmt.shadow.withEntries ((m16Writes ps).map fun f => (f.1, unsignedOf 32 f.2)))

/-- The fields of a register block pass the checks of ALM_WRITE. -/
def State.regSound : Prop := ∀ f ∈ m16Writes ps, fieldOfWire f.1 (unsignedOf 32 f.2) = some f.2 ∧
  s.fieldStatus (s.regDear ps) (f.1, unsignedOf 32 f.2) = none

theorem State.regWrite_sound (h : s.regSound ps) : s.regWrite ps = .done (s.regBlock ps (s.regMap (s.mgmt.regBlock ps))) stOk [] := by
  have hnone : ((m16Writes ps).map fun f => (f.1, unsignedOf 32 f.2)).findSome? (s.fieldStatus (s.regDear ps)) = none := by
    rw [List.findSome?_eq_none_iff]
    intro e he
    obtain ⟨f, hf, rfl⟩ := List.mem_map.1 he
    exact (h f hf).2
  unfold State.regWrite
  dsimp only
  rw [if_neg]
  · unfold State.regDear at hnone
    rw [hnone]
    rfl
  · rw [List.any_eq_true]
    rintro ⟨f, hf, hne⟩
    simp [(h f hf).1] at hne

theorem State.regWrite_unsound (h : ¬ s.regSound ps) : ∃ st, s.regWrite ps = .done s st [] ∧ st ≠ stOk := by
  unfold State.regWrite
  dsimp only
  split
  · exact ⟨_, rfl, by decide⟩
  · next hall =>
    split
    · next st hst =>
      obtain ⟨e, -, he⟩ := List.exists_of_findSome?_eq_some hst
      exact ⟨st, rfl, s.fieldStatus_ne he⟩
    · next hnone =>
      refine absurd (fun f hf => ⟨?_, ?_⟩) h
      · by_contra hne
        exact hall (List.any_eq_true.2 ⟨f, hf, by simpa using hne⟩)
      · exact List.findSome?_eq_none_iff.1 hnone _ (List.mem_map.2 ⟨f, hf, rfl⟩)

end

theorem State.taken_regSound (ps : List Byte) : (s.taken op p).regSound ps ↔ s.regSound ps := by
  have hb (a : Alm) : (s.taken op p).overBudget a = s.overBudget a := by simp [State.overBudget]
  have hs (d : Bool) (e : Nat × Nat) : (s.taken op p).fieldStatus d e = s.fieldStatus d e := by
    simp [State.fieldStatus, State.stopBlocked]
  simp only [State.regSound, State.regDear, hb, hs, State.taken_mgmt]

theorem State.taken_regMap (ps : List Byte) :
    (s.taken op p).regMap ((s.taken op p).mgmt.regBlock ps) = s.regMap (s.mgmt.regBlock ps) := by
  have hsrc : (s.taken op p).sources = s.sources := by simp [State.sources, State.swapMasks]
  have hnew : (s.taken op p).newLevel = s.newLevel := by funext i; simp [State.newLevel, State.activeMem]
  have hc : ((s.taken op p).mgmt.regBlock ps).committed = (s.mgmt.regBlock ps).committed := by rw [State.taken_mgmt]; rfl
  unfold State.regMap
  rw [hc]
  simp only [hsrc, hnew, State.taken_mapBusy, State.taken_meas, State.taken_mgmt]

/-- Settles O6: the fields of one stream are written where the checks of all streams then pass; a register block is one list of
fields, checked one by one. -/
theorem bindsAndRegisterWritesCommitTheirFields : Obligations.BindsAndRegisterWritesCommitTheirFields := by
  refine ⟨fun s p k mask dest first count flush hk hm hd hf hc hl => ?_, fun s p h _ _ _ => ?_⟩
  · intro words fs a on channels buffers apart sound _ _ h hp
    have hown := fun hsound => bindOwn hk hm hd hf hc hl h hp hsound
    have hapart : apart ↔ ∀ q r, q < r → r < 4 → ¬ (a.writes fs).streamsMeet q r := by
      refine forall₂_congr fun q r => forall₂_congr fun _ _ => ?_
      rw [show fs = streamValues k mask dest first count flush from rfl, Alm.streams_written]
      simp only [not_and, not_or, not_not, not_exists]
      rfl
    refine ⟨fun hs hap => ⟨_, (hown hs).1 (hapart.1 hap), ?_, rfl, Alm.val_writes _ _, Alm.val_writes _ _⟩,
      fun hs hap => (hown hs).2 fun hn => hap (hapart.2 hn)⟩
    exact ⟨rfl, fun q hq => by cases q <;> first | rfl | simp at hq⟩
  · intro ps fs dear sound
    have hsound : sound ↔ s.regSound ps := Iff.rfl
    by_cases hs : s.regSound ps
    · have hown := (s.taken 0x0F02 p).regWrite_sound ps (State.taken_regSound ps |>.2 hs)
      rw [State.taken_regMap] at hown
      refine ⟨s.regBlock ps (s.regMap (s.mgmt.regBlock ps)), stOk,
        h.m16 rfl (m16Cmd_plain h) rfl rfl (by rw [hown]; rfl) ((s.taken_plain p rfl).regBlock ps _), fun hn => absurd hs hn, fun _ => ⟨rfl, s.regBlock_only ps _, s.regBlock_fields ps _⟩⟩
    · obtain ⟨st, hown, hne⟩ := (s.taken 0x0F02 p).regWrite_unsound ps (fun hx => hs (State.taken_regSound ps |>.1 hx))
      exact ⟨s, st, h.m16 rfl (m16Cmd_plain h) rfl rfl (by rw [hown]; rfl) (s.taken_plain p rfl), fun _ => ⟨rfl, hne⟩, fun hx => absurd hx hs⟩

end

end Sys2Proof.Machine
end

section
/-! PROOFS. Sequence and slice commands (05 R117, R118; 06 R136, R144; 12 R299, R313), and MEAS's side of their requests. -/

namespace Sys2Proof.Machine

open Sys2Proof

set_option Elab.async false

section
variable {s : State} {op : Nat} {p : Packet} {ps : List Byte}

theorem mem_maskSeqs {mask q : Nat} : q ∈ maskSeqs mask ↔ q < 4 ∧ mask.testBit q = true := by simp [maskSeqs]

theorem State.taken_auxBlocked : (s.taken op p).auxBlocked = s.auxBlocked := by simp [State.auxBlocked, State.taken_mgmt]

/-! ## Sequences -/

/-- Every selected sequence has a list, and AUX does not stand against a start. -/
def State.Startable (s : State) (m : Nat) : Prop :=
  (∀ q, q < 4 → m.testBit q = true → s.mgmt.committed.sqLen q ≠ 0) ∧ s.auxBlocked = false

theorem seqStart_taken (hm : badMask ps = false) (h : s.Startable (leAt ps 0 1)) : (s.taken op p).seqStart ps =
    .wait ((s.taken op p).postReq 4 0x0201 (.seqs 0x0201 (leAt ps 0 1))) (some .meas) (ps.take 1) := by
  have hlen : (maskSeqs (leAt ps 0 1)).any (fun q => s.mgmt.committed.sqLen q == 0) = false := by
    simp only [List.any_eq_false, mem_maskSeqs, beq_iff_eq]
    exact fun q hq => h.1 q hq.1 hq.2
  simp only [State.seqStart, State.taken_mgmt, State.taken_auxBlocked, hm, hlen, h.2, Bool.or_self, Bool.false_eq_true, if_false]

theorem seqStop_taken (hm : badMask ps = false) : (s.taken op p).seqStop ps =
    .wait ((s.taken op p).postReq 4 0x0202 (.seqs 0x0202 (leAt ps 0 1))) (some .meas) (ps.take 1) := by
  simp only [State.seqStop, hm, Bool.false_eq_true, if_false]

theorem seqTrigger_taken (hm : badMask ps = false)
    (h : ∀ q, q < 4 → (leAt ps 0 1).testBit q = true → s.mgmt.inForce.sqTriggered q = true) : (s.taken op p).seqTrigger ps =
    .wait ((s.taken op p).postReq 4 0x0203 (.seqs 0x0203 (leAt ps 0 1))) (some .meas) (ps.take 1) := by
  have htrig : (maskSeqs (leAt ps 0 1)).any (fun q => !s.mgmt.inForce.sqTriggered q) = false := by
    simp only [List.any_eq_false, mem_maskSeqs]
    intro q hq
    simp [h q hq.1 hq.2]
  simp only [State.seqTrigger, State.taken_mgmt, hm, htrig, Bool.or_self, Bool.false_eq_true, if_false]

theorem seqStart_bad (hm : badMask ps = true) : s.seqStart ps = .done s stBadParam [] := by
  simp only [State.seqStart, hm, Bool.true_or, if_true]

theorem seqStop_bad (hm : badMask ps = true) : s.seqStop ps = .done s stBadParam [] := by simp only [State.seqStop, hm, if_true]

theorem seqTrigger_bad (hm : badMask ps = true) : s.seqTrigger ps = .done s stBadParam [] := by
  simp only [State.seqTrigger, hm, Bool.true_or, if_true]

/-- A mask with its reserved bytes, read back. -/
theorem maskParams {mask : Byte} (h0 : mask ≠ 0) (h16 : mask.toNat < 16) : badMask [mask, 0, 0, 0] = false ∧ leAt [mask, 0, 0, 0] 0 1 = mask.toNat := by
  have hm : leAt [mask, 0, 0, 0] 0 1 = mask.toNat := by simp [leAt, leVal]
  have hz : rsvdZero [mask, 0, 0, 0] 1 3 = true := rfl
  have hne : mask.toNat ≠ 0 := fun e => h0 (BitVec.eq_of_toNat_eq e)
  refine ⟨?_, hm⟩
  rw [badMask, hm, hz]
  simp [hne]
  omega

/-! ## Slices -/

theorem State.taken_newLevel (i : Island) : (s.taken op p).newLevel i = s.newLevel i := by simp [State.newLevel, State.activeMem]

theorem slParams {sl : Nat} (h : sl < 4) : leAt [BitVec.ofNat 8 sl, 0, 0, 0] 0 1 = sl := by
  simp [leAt, leVal]
  omega

/-- A retirement of a slice in service, where others are left and nothing waits for a map. -/
theorem sliceRetire_taken {sl : Nat} (hsl : leAt ps 0 1 = sl) (hz : rsvdZero ps 1 3 = true) (hbusy : s.mapBusy = false)
    (hmem : sl ∈ s.meas.inService) (hleft : s.meas.inService.filter (· ≠ sl) ≠ []) : (s.taken op p).sliceRetire ps =
    match s.mgmt.committed.repack (s.newLevel .mgmt) (s.meas.inService.filter (· ≠ sl)) with
    | none => .done (s.taken op p) stInfeasible []
    | some (m, _) => .wait ((s.taken op p).postReq 4 0x0205 (.retire sl m)) (some .meas) [] := by
  have hcont : s.meas.inService.contains sl = true := List.contains_iff_mem.2 hmem
  have hne : (s.meas.inService.filter (· ≠ sl)).isEmpty = false := by simpa using hleft
  unfold State.sliceRetire
  simp only [hsl, hz, hcont, hne, State.taken_meas, State.taken_mapBusy, State.taken_newLevel, State.taken_mgmt, hbusy, Bool.not_true,
    Bool.or_self, Bool.false_eq_true, if_false] <;> rfl

/-! ## MEAS takes a request -/

theorem Meas.setSeq_seq (m : Meas) {q n : Nat} (x : Seq) (hq : q < 4) : (m.setSeq q x).seq n = if n = q then x else m.seq n := by
  simp only [Meas.setSeq, Meas.seq, Vector.toList_setIfInBounds, List.getD_eq_getElem?_getD, List.getElem?_set]
  by_cases h : n = q
  · subst h
    simp [hq]
  · simp [h, Ne.symm h]

theorem foldl_setSeq (f : Seq → Seq) (qs : List Nat) (hnd : qs.Nodup) (hq : ∀ q ∈ qs, q < 4) (m : Meas) (n : Nat) :
    (qs.foldl (fun m q => m.setSeq q (f (m.seq q))) m).seq n = if n ∈ qs then f (m.seq n) else m.seq n := by
  induction qs generalizing m with
  | nil => rfl
  | cons q qs ih =>
    obtain ⟨hmem, hnd'⟩ := List.nodup_cons.1 hnd
    rw [List.foldl_cons, ih hnd' fun x hx => hq x (List.mem_cons_of_mem _ hx), Meas.setSeq_seq m _ (hq q List.mem_cons_self)]
    by_cases h : n = q
    · subst h
      simp [hmem]
    · simp [h]

theorem foldl_setSeq_rest (f : Seq → Seq) (qs : List Nat) (m : Meas) :
    qs.foldl (fun m q => m.setSeq q (f (m.seq q))) m = { m with seqs := (qs.foldl (fun m q => m.setSeq q (f (m.seq q))) m).seqs } := by
  induction qs generalizing m with
  | nil => rfl
  | cons q qs ih =>
    rw [List.foldl_cons, ih]
    rfl

theorem State.gotReq_only (s : State) (op : Nat) : s.Only [.mgmt] (s.gotReq op) := by
  unfold State.gotReq
  split
  · exact .refl _ s
  · exact s.setMgmt_only _

theorem State.setMeas_only (s : State) (m : Meas) : s.Only [.meas] (s.setMeas m) :=
  ⟨rfl, fun q hq => by cases q <;> first | rfl | simp at hq⟩

/-- A change of MEAS with the note that the request was taken. -/
theorem State.measGot (s : State) (m : Meas) (op : Nat) : s.Only [.meas, .mgmt] ((s.setMeas m).gotReq op) ∧ ((s.setMeas m).gotReq op).meas = m :=
  ⟨((s.setMeas_only m).mono (by simp)).trans ((State.gotReq_only _ _).mono (by simp)), (State.gotReq_only _ op).2 .meas (by simp)⟩

/-- A start or a stop of the sequences of a mask. -/
theorem State.measReq_seqs (s : State) {mask op : Nat} {f : Seq → Seq}
    (h : s.measReq (.seqs op mask) = (s.setMeas ((maskSeqs mask).foldl (fun m q => m.setSeq q (f (m.seq q))) s.meas)).gotReq op) :
    s.Only [.meas, .mgmt] (s.measReq (.seqs op mask)) ∧
      (s.measReq (.seqs op mask)).meas = { s.meas with seqs := (s.measReq (.seqs op mask)).meas.seqs } ∧
      ∀ q, q < 4 → (s.measReq (.seqs op mask)).meas.seq q = if mask.testBit q then f (s.meas.seq q) else s.meas.seq q := by
  rw [h]
  obtain ⟨honly, hmeas⟩ := s.measGot ((maskSeqs mask).foldl (fun m q => m.setSeq q (f (m.seq q))) s.meas) op
  refine ⟨honly, by rw [hmeas]; exact foldl_setSeq_rest .., fun q hq => ?_⟩
  rw [hmeas, foldl_setSeq f (maskSeqs mask) (List.nodup_range.filter _) fun q hq => (mem_maskSeqs.1 hq).1]
  simp only [mem_maskSeqs, hq, true_and]

end

/-- Settles O7: each command's checks pass, so that its request is made; MEAS's side is one change of its sequences, job or swap. -/
theorem sequenceAndSliceCommandsAskMeas : Obligations.SequenceAndSliceCommandsAskMeas := by
  refine ⟨fun s p => ?_, fun s p sl hsl hbusy => ?_, fun s => ?_⟩
  · intro startable triggered asks m16Asks
    refine ⟨fun mask h0 h16 hmay h hp hw => ?_, fun mask h0 h16 hmay h hp hw => ?_, fun mask h0 h16 hmay h hp hw => ?_,
      fun h hw => ⟨fun hm hmay => ?_, fun hm => ?_⟩, fun h hw => ⟨fun hm hmay => ?_, fun hm => ?_⟩,
      fun h hw => ⟨fun hm hmay => ?_, fun hm => ?_⟩⟩
    · obtain ⟨hb, hm⟩ := maskParams h0 h16
      exact h.begins rfl (shell_plain h _ fun _ => hw) rfl (by rw [hp]; rfl) (ho := by
        rw [hp]
        have := seqStart_taken (op := 0x0201) (p := p) hb (by rw [hm]; exact hmay)
        rwa [hm] at this)
    · obtain ⟨hb, hm⟩ := maskParams h0 h16
      exact h.begins rfl (shell_plain h _ fun _ => hw) rfl (by rw [hp]; rfl) (ho := by
        rw [hp]
        have := seqStop_taken (s := s) (op := 0x0202) (p := p) hb
        rwa [hm] at this)
    · obtain ⟨hb, hm⟩ := maskParams h0 h16
      exact h.begins rfl (shell_plain h _ fun _ => hw) rfl (by rw [hp]; rfl) (ho := by
        rw [hp]
        have := seqTrigger_taken (op := 0x0203) (p := p) hb (by rw [hm]; exact hmay)
        rwa [hm] at this)
    · exact h.m16Begins rfl (shell_plain h _ fun _ => hw) rfl rfl (ho := congrArg (Done.toM16 0x0F10) (seqStart_taken hm hmay))
    · exact h.m16 rfl (shell_plain h _ fun _ => hw) rfl rfl (congrArg (Done.toM16 0x0F10) (seqStart_bad hm)) (s.taken_plain p rfl)
    · exact h.m16Begins rfl (shell_plain h _ fun _ => hw) rfl rfl (ho := congrArg (Done.toM16 0x0F11) (seqStop_taken hm))
    · exact h.m16 rfl (shell_plain h _ fun _ => hw) rfl rfl (congrArg (Done.toM16 0x0F11) (seqStop_bad hm)) (s.taken_plain p rfl)
    · exact h.m16Begins rfl (shell_plain h _ fun _ => hw) rfl rfl (ho := congrArg (Done.toM16 0x0F12) (seqTrigger_taken hm hmay))
    · exact h.m16 rfl (shell_plain h _ fun _ => hw) rfl rfl (congrArg (Done.toM16 0x0F12) (seqTrigger_bad hm)) (s.taken_plain p rfl)
  · intro left
    have hz : rsvdZero [BitVec.ofNat 8 sl, 0, 0, 0] 1 3 = true := rfl
    refine ⟨fun hmem hleft h hp hw => ?_, fun hmem h hp hw => ?_⟩
    · have hown := sliceRetire_taken (op := 0x0205) (p := p) (slParams hsl) hz hbusy hmem hleft
      rw [← hp] at hown
      cases hrep : s.mgmt.committed.repack (s.newLevel .mgmt) left with
      | none =>
        rw [hrep] at hown
        rw [State.Declines, s.started_of p rfl]
        exact h.reports rfl (shell_plain h _ fun _ => hw) rfl (by rw [hp]; rfl) hown
      | some r =>
        rw [hrep] at hown
        exact h.begins rfl (shell_plain h _ fun _ => hw) rfl (by rw [hp]; rfl) (ho := hown)
    · refine h.begins rfl (shell_plain h _ fun _ => hw) rfl (by rw [hp]; rfl) (ho := ?_)
      rw [hp]
      simp only [State.sliceRestore, slParams hsl, hz, State.taken_meas, State.taken_mapBusy, hbusy, show ¬ 3 < sl by omega,
        List.contains_iff_mem, hmem, Bool.not_true, Bool.false_eq_true, or_self, if_false]
  · refine ⟨fun hup hpend hack hlost hsince => ?_,
      fun mask _ => s.measReq_seqs (f := fun x => { x with startFrom := some (x.startFrom.getD (s.now + 2)) }) rfl,
      fun mask _ => s.measReq_seqs (f := fun x => { x with stopFrom := some (x.stopFrom.getD (s.now + 1)) }) rfl,
      fun sl m => s.measGot _ _,
      fun sl => s.measGot _ _, fun mask x save hout => ?_⟩
    · simp [State.takeMb4, State.takeMb, Mailbox.untaken, hup, hpend, hack, hlost, hsince]
    · have e : s.measReq (.swap mask x save) =
          (s.setMeas { s.meas with swap := some ⟨mask, effectTick x s.clock.meridian.toNat, save⟩ }).gotReq 0x0302 := if_pos hout
      rw [e]
      exact s.measGot _ _

end Sys2Proof.Machine
end

section
/-! PROOFS. LIN_LOAD and LIN_SWAP (07 R170 to R172). -/

namespace Sys2Proof.Machine

open Sys2Proof

set_option Elab.async false

section
variable {s : State} {op : Nat} {p : Packet} {ps : List Byte}

/-- The state with one channel's shadow table replaced. -/
def State.putShadow (s : State) (ch : Nat) (t : List Byte) : State :=
  s.setMeas { s.meas with shadowTables := s.meas.shadowTables.setIfInBounds ch t }

theorem State.putShadow_spec (s : State) (ch : Fin 20) (t : List Byte) : let u := s.putShadow ch t
    s.Only [.meas] u ∧ u.meas = { s.meas with shadowTables := u.meas.shadowTables } ∧
      ∀ c : Fin 20, u.meas.shadowTables[c] = if c = ch then t else s.meas.shadowTables[c] := by
  refine ⟨s.setMeas_only _, rfl, fun c => ?_⟩
  simp only [State.putShadow, State.setMeas_meas, Fin.getElem_fin, Vector.getElem_setIfInBounds, Fin.ext_iff, eq_comm]

theorem taken_putShadow (ch : Nat) (t : List Byte) (h : updateOp op = false) :
    (s.putShadow ch t).TakenFrom ((s.taken op p).putShadow ch t) op p :=
  (s.taken_plain p h).map (fun x => x.putShadow ch t) fun _ _ _ => rfl

theorem chParam (ch : Fin 20) (b : Byte) (l : List Byte) : leAt ([BitVec.ofNat 8 ch.val, b, 0, 0] ++ l) 0 1 = ch.val ∧
    leAt ([BitVec.ofNat 8 ch.val, b, 0, 0] ++ l) 1 1 = b.toNat ∧ rsvdZero ([BitVec.ofNat 8 ch.val, b, 0, 0] ++ l) 2 2 = true := by
  have := ch.isLt
  refine ⟨?_, ?_, rfl⟩
  · simp [leAt, leVal]
    omega
  · simp [leAt, leVal]

/-- The table of 112 bytes. -/
theorem execLinLoad_bytes {ch : Fin 20} {tb : List Byte} (h : s.Takes 0x0301 p 0 []) (ht : tableOk tb = true)
    (hp : s.paramsOf 0x0301 p = [BitVec.ofNat 8 ch.val, 0, 0, 0] ++ tb) : s.Completes (s.putShadow ch tb) (.linLoad p) 0x0301 p [] := by
  obtain ⟨h0, h1, hz⟩ := chParam ch 0 tb
  rw [← hp] at h0 h1 hz
  have hlen : tb.length = 112 := by
    simp only [tableOk, Bool.and_eq_true, beq_iff_eq] at ht
    exact ht.1.1.1.1
  have hplen : (s.paramsOf 0x0301 p).length = 116 := by simp [hp, hlen]
  have hdrop : (s.paramsOf 0x0301 p).drop 4 = tb := by rw [hp]; rfl
  have hch := ch.isLt
  refine h.completes rfl ((needsCmd_plain (m16 := false) h _).withFits (by simp [hplen, h1])) (by rw [hplen]; rfl) ?_
    (taken_putShadow ch tb rfl)
  simp only [h0, h1, hz, hdrop, ht, show ¬ 19 < ch.val by omega, show ((0 : Byte).toNat) = 0 from rfl, show ¬ 1 < 0 by decide,
    Bool.not_true, Bool.false_eq_true, or_self, if_false, if_true] <;> rfl

/-- A set of the ROM. -/
theorem execLinLoad_rom {ch : Fin 20} {id src sh k : Nat} (h : s.Takes 0x0301 p 0 []) (hid : romIds.contains id = true)
    (hok : srcOk src sh = true) (hsrc : src < 256) (hk : k < 4294967296)
    (hp : s.paramsOf 0x0301 p = [BitVec.ofNat 8 ch.val, 1, 0, 0] ++ leBytes 2 id ++ leBytes 1 src ++ leBytes 1 sh ++ leBytes 4 k) :
    s.Completes (s.putShadow ch (romTable id src sh k)) (.linLoad p) 0x0301 p [] := by
  have hp' : s.paramsOf 0x0301 p = [BitVec.ofNat 8 ch.val, 1, 0, 0] ++ (leBytes 2 id ++ leBytes 1 src ++ leBytes 1 sh ++ leBytes 4 k) := by
    rw [hp]
    simp only [List.append_assoc]
  obtain ⟨h0, h1, hz⟩ := chParam ch 1 (leBytes 2 id ++ leBytes 1 src ++ leBytes 1 sh ++ leBytes 4 k)
  rw [← hp'] at h0 h1 hz
  have hid' : id < 65536 := by
    have : ∀ x ∈ romIds, x < 65536 := by decide
    exact this id (List.contains_iff_mem.1 hid)
  have hsh : sh < 256 := by
    simp only [srcOk, Bool.and_eq_true, decide_eq_true_eq] at hok
    omega
  have e (off n : Nat) : leAt (s.paramsOf 0x0301 p) (4 + off) n =
      leAt (leBytes 2 id ++ leBytes 1 src ++ leBytes 1 sh ++ leBytes 4 k) off n := by
    rw [hp', leAt_append_right _ _ (by simp)]
    simp
  have h4 : leAt (s.paramsOf 0x0301 p) 4 2 = id := by
    rw [e 0]
    simp [leAt_append_left]
    omega
  have h6 : leAt (s.paramsOf 0x0301 p) 6 1 = src := by
    rw [e 2]
    simp [leAt_append_left, leAt_append_right]
    omega
  have h7 : leAt (s.paramsOf 0x0301 p) 7 1 = sh := by
    rw [e 3]
    simp [leAt_append_left, leAt_append_right]
    omega
  have h8 : leAt (s.paramsOf 0x0301 p) 8 4 = k := by
    rw [e 4]
    simp [leAt_append_right]
    omega
  have hplen : (s.paramsOf 0x0301 p).length = 12 := by simp [hp]
  have hch := ch.isLt
  refine h.completes rfl ((needsCmd_plain (m16 := false) h _).withFits (by simp [hplen, h1])) (by rw [hplen]; rfl) ?_
    (taken_putShadow ch _ rfl)
  simp only [h0, h1, hz, h4, h6, h7, h8, hid, hok, show ¬ 19 < ch.val by omega, show ((1 : Byte).toNat) = 1 from rfl,
    show ¬ 1 < 1 by decide, show ¬ 1 = 0 by decide, Bool.not_true, Bool.false_eq_true, or_self, if_false, if_true, Bool.and_self] <;> rfl

/-! ## The exchange -/

theorem State.taken_swapBad (mask : Nat) : (s.taken op p).swapBad mask = s.swapBad mask := by
  simp [State.swapBad, State.taken_mgmt]

theorem State.taken_swapPending : (s.taken op p).swapPending = s.swapPending := by simp [State.swapPending]

theorem swapParams {mask x : Nat} {save : Bool} (hm : mask < 1048576) (hx : x < 281474976710656)
    (hp : ps = leBytes 4 mask ++ leBytes 6 x ++ [if save then 1 else 0, 0]) :
    ps.length = 12 ∧ leAt ps 0 4 = mask ∧ leAt ps 4 6 = x ∧ leAt ps 10 1 = b2n save ∧ rsvdZero ps 11 1 = true := by
  have e : ps = leBytes 4 mask ++ leBytes 6 x ++ leBytes 1 (b2n save) ++ zeros 1 := by
    rw [hp]
    cases save <;> rfl
  have hz : rsvdZero ps 11 1 = true := by
    rw [e]
    simpa using rsvdZero_mid (n := 1) [] (a := leBytes 4 mask ++ leBytes 6 x ++ leBytes 1 (b2n save)) (off := 11) (by simp)
  subst e
  refine ⟨by simp, ?_, ?_, ?_, hz⟩
  · simp [leAt_append_left]
    omega
  · simp [leAt_append_left, leAt_append_right]
    omega
  · simp [leAt_append_left, leAt_append_right]
    cases save <;> decide

theorem linSwap_plain {mask x : Nat} {save : Bool} (hm : mask < 1048576) (hx : x < 281474976710656) (hw : s.NoneWaits 0x0302)
    (h : s.Takes 0x0302 p (if save then 6 * maskCount mask else 0) [.meas])
    (hp : s.paramsOf 0x0302 p = leBytes 4 mask ++ leBytes 6 x ++ [if save then 1 else 0, 0]) :
    ({ measCmd 0x0302 (· == 12) with
      cost := fun _ ps => if leAt ps 10 1 % 2 = 1 then 6 * maskCount (leAt ps 0 4) else 0 } : Cmd).Plain s 0x0302 p
        (if save then 6 * maskCount mask else 0) [.meas] := by
  obtain ⟨-, h0, -, h10, -⟩ := swapParams hm hx hp
  refine (shell_plain (m16 := false) h _ fun _ => hw).withCost ?_
  rw [h0, h10]
  cases save <;> rfl

end

/-- Settles O8: the shadow tables are one vector, of which one entry is set; a swap is one request. -/
theorem tablesAreLoadedAndTheirSwapScheduled : Obligations.TablesAreLoadedAndTheirSwapScheduled := by
  refine ⟨fun s p ch h => ⟨fun tb ht hp => ?_, fun id src sh k hid hok hsrc hk hp => ?_⟩,
    fun s p mask x save hm hx hbad hahead hw h hp => ?_⟩
  · exact ⟨_, execLinLoad_bytes h ht hp, s.putShadow_spec ch tb⟩
  · exact ⟨_, execLinLoad_rom h hid hok hsrc hk hp, s.putShadow_spec ch _⟩
  · obtain ⟨hlen, h0, h4, h10, hz⟩ := swapParams hm hx hp
    have hlate : (s.swapBad mask || (x != 0 && decide ((2147483648 : Int) < ahead x s.clock.meridian.toNat))) = false := by
      rcases hahead with hx0 | hle
      · simp [hbad, hx0]
      · simp [hbad, Int.not_lt.2 hle]
    have hb : ¬ (1048576 ≤ mask ∨ 1 < b2n save ∨ (!true) = true) := by
      have : b2n save ≤ 1 := by cases save <;> decide
      simp
      omega
    refine ⟨fun hfree => ?_, fun hbusy => ?_⟩
    · refine h.begins rfl (linSwap_plain hm hx hw h hp) rfl (by rw [hlen]; rfl) (ho := ?_)
      simp only [h0, h4, h10, hz, State.taken_clock, State.taken_swapBad, State.taken_swapPending, hlate, hfree, hb, Bool.false_eq_true,
        if_false]
      cases save <;> rfl
    · rw [State.Declines, s.started_of p rfl]
      refine h.reports rfl (linSwap_plain hm hx hw h hp) rfl (by rw [hlen]; rfl) ?_
      simp only [h0, h4, h10, hz, State.taken_clock, State.taken_swapBad, State.taken_swapPending, hlate, hbusy, hb, Bool.false_eq_true,
        if_false, if_true]

end Sys2Proof.Machine
end


section
/-! PROOFS. Fixed current and user trim (08 R192, R196, R202, R203). -/

namespace Sys2Proof.Machine

open Sys2Proof

set_option Elab.async false

section
variable {s : State} {op : Nat} {p : Packet} {ps : List Byte}

/-! ## Fixed current -/

theorem State.taken_willFix : (s.taken op p).willFix = s.willFix := by simp [State.willFix]

/-- The parameters of LOOP_SET_FIXED are in range. -/
def fixOk (ps : List Byte) : Prop := 34000 ≤ leAt ps 0 4 ∧ leAt ps 0 4 ≤ 230000 ∧ leAt ps 4 1 ≤ 1 ∧ rsvdZero ps 5 3 = true

theorem setFixed_bad (h : ¬ fixOk ps) : s.setFixed ps = .done s stBadParam [] := by
  refine if_pos ?_
  simp only [fixOk, Bool.not_eq_true'] at h ⊢
  by_cases hz : rsvdZero ps 5 3 = true
  · simp only [hz, and_true] at h
    omega
  · simp [hz]

theorem setFixed_ok (h : fixOk ps) : (s.taken op p).setFixed ps =
    if s.mgmt.inForce.multidrop then .done (s.taken op p) stNotPermitted []
    else .wait ((s.taken op p).postReq 3 0x0401 (.fix (leAt ps 0 4) (leAt ps 4 1 == 1))) (some .loop) [] := by
  obtain ⟨h1, h2, h3, hz⟩ := h
  rw [State.setFixed, if_neg (by simp [hz]; omega), State.taken_mgmt]

theorem fixParams {code : Nat} {b : Bool} (h1 : 34000 ≤ code) (h2 : code ≤ 230000)
    (hp : ps = leBytes 4 code ++ [if b then 1 else 0, 0, 0, 0]) :
    fixOk ps ∧ leAt ps 0 4 = code ∧ (leAt ps 4 1 == 1) = b ∧ ps.length = 8 := by
  have e : ps = leBytes 4 code ++ (leBytes 1 (b2n b) ++ zeros 3) := by
    rw [hp]
    cases b <;> rfl
  subst e
  have hc : leAt (leBytes 4 code ++ (leBytes 1 (b2n b) ++ zeros 3)) 0 4 = code := by
    rw [leAt_append_left _ (by simp)]
    simp
    omega
  have hb : leAt (leBytes 4 code ++ (leBytes 1 (b2n b) ++ zeros 3)) 4 1 = b2n b := by
    rw [leAt_append_right _ _ (by simp)]
    cases b <;> rfl
  refine ⟨⟨by omega, by omega, by rw [hb]; cases b <;> decide, ?_⟩, hc, by rw [hb]; cases b <;> rfl, by simp⟩
  cases b <;> rfl

theorem releaseFixed_taken : (s.taken op p).releaseFixed =
    if s.willFix then .wait ((s.taken op p).postReq 3 0x0402 .release) (some .loop) [] else .done (s.taken op p) stOk (zeros 6) := by
  rw [State.releaseFixed, State.taken_willFix]

/-- A change of the commanded code's source in LOOP, with the note that the request was taken. -/
theorem State.schedule_got (s : State) (op t : Nat) (a : CodeAct) : s.Only [.loop, .mgmt] ((s.gotReq op).schedule t a) ∧
    ((s.gotReq op).schedule t a).loop = { s.loop with sched := s.loop.sched ++ [⟨t, a⟩] } := by
  have hg : (s.gotReq op).loop = s.loop := (s.gotReq_only op).2 .loop (by simp)
  exact ⟨((s.gotReq_only op).mono (by simp)).trans ⟨rfl, fun q hq => by cases q <;> first | rfl | simp at hq⟩,
    by rw [State.schedule, hg]; rfl⟩

/-! ## Trims -/

/-- What LOOP_TRIM answers of two points. -/
def trimBytes (m4 m20 : Int) : List Byte :=
  leBytes 4 (unsignedOf 32 m4) ++ leBytes 4 (unsignedOf 32 m20) ++ leBytes 4 (unsignedOf 32 (floorDiv 671088640000 (m20 - m4).toNat))

theorem taken_putTrim (m4 m20 : Int) (h : updateOp op = false) : (s.putTrim m4 m20).TakenFrom ((s.taken op p).putTrim m4 m20) op p :=
  (s.taken_plain p h).map (fun x => x.putTrim m4 m20) fun _ _ _ => rfl

theorem loopTrim_reset (h0 : leAt ps 0 1 = 0) (hz : rsvdZero ps 1 3 = true) :
    s.loopTrim ps = (s.putTrim 40000 200000, stOk, trimBytes 40000 200000) := by
  simp only [State.loopTrim, h0, hz, Bool.not_true, Bool.false_eq_true, or_false, Nat.not_lt_zero, if_false, if_true]
  rfl

/-- A point, 1 or 2, at its fixed and untrimmed current. -/
theorem loopTrim_point {point : Nat} (h12 : point = 1 ∨ point = 2) (h0 : leAt ps 0 1 = point) (hz : rsvdZero ps 1 3 = true)
    (hfix : s.loop.fixed = some (pointCode point, true)) : s.loopTrim ps =
      if ((leAt ps 4 4 : Int) - pointCode point).natAbs ≤ 800 then
        if point = 1 then (s.putTrim (leAt ps 4 4 : Nat) s.loop.m20, stOk, trimBytes (leAt ps 4 4 : Nat) s.loop.m20)
        else (s.putTrim s.loop.m4 (leAt ps 4 4 : Nat), stOk, trimBytes s.loop.m4 (leAt ps 4 4 : Nat))
      else (s, stBadParam, []) := by
  have h2 : ¬ (2 < point ∨ (!true) = true) := by simp; omega
  by_cases hv : ((leAt ps 4 4 : Int) - pointCode point).natAbs ≤ 800
  · simp only [State.loopTrim, h0, hz, h2, hv, hfix, show ¬ point = 0 by omega, Nat.not_lt.2 hv, ne_eq, not_true_eq_false, if_false,
      if_true]
    split <;> rfl
  · simp only [State.loopTrim, h0, hz, h2, hv, show ¬ point = 0 by omega, Nat.not_le.1 hv, if_false, if_true]

theorem trimParams {a : Byte} {v : Nat} (hv : v < 4294967296) (hp : ps = [a, 0, 0, 0] ++ leBytes 4 v) :
    ps.length = 8 ∧ leAt ps 0 1 = a.toNat ∧ rsvdZero ps 1 3 = true ∧ leAt ps 4 4 = v := by
  subst hp
  refine ⟨by simp, by simp [leAt, leVal], rfl, ?_⟩
  rw [leAt_append_right _ _ (by simp)]
  simp
  omega

theorem pointParams {point : Nat} (h : point < 256) : let qs := leBytes 1 point ++ zeros 3 ++ (ps.drop 4).take 4
    leAt qs 0 1 = point ∧ rsvdZero qs 1 3 = true ∧ leAt qs 4 4 = leAt ps 4 4 := by
  refine ⟨?_, rfl, ?_⟩
  · simp [leAt_append_left]
    omega
  · simp [leAt, zeros, leBytes, List.take_take]

theorem loopTrim_plain (h : s.Takes op p 6 [.loop]) (len : Nat → Bool) (m16 : Bool) :
    ({ ({ plainCmd op len with needs := fun _ _ => [.loop], waits := false, m16 := m16 } : Cmd) with cost := fun _ _ => 6 } : Cmd).Plain
      s op p 6 [.loop] := (needsCmd_plain h len (m16 := m16)).withCost rfl

/-- LOOP_TRIM with an outcome of its own rules. -/
theorem execLoopTrim_completes (h : s.Takes 0x0403 p 6 [.loop]) (hlen : (s.paramsOf 0x0403 p).length = 8) {m4 m20 : Int} {res : List Byte}
    (ho : (s.taken 0x0403 p).loopTrim (s.paramsOf 0x0403 p) = ((s.taken 0x0403 p).putTrim m4 m20, stOk, res)) :
    s.Completes (s.putTrim m4 m20) (.loopTrim p) 0x0403 p res :=
  h.completes rfl (loopTrim_plain h _ false) (by rw [hlen]; rfl) (by rw [ho]) (taken_putTrim m4 m20 rfl)

/-- The M16's trim commands, at a point of their own. -/
theorem runTrim_completes {i : Instr} {point : Nat} (h12 : point = 1 ∨ point = 2) (h : s.Takes op p 6 [.loop]) (hu : updateOp op = false)
    (he : exec i s = .next (s.runTrim op point p)) (hfix : s.loop.fixed = some (pointCode point, true)) :
    ∃ w : Nat, w = leAt (s.nativeOf op p) 4 4 ∧
      if ((w : Int) - pointCode point).natAbs ≤ 800 then
        if point = 1 then s.M16Completes (s.putTrim w s.loop.m20) i op p stOk (trimBytes w s.loop.m20)
        else s.M16Completes (s.putTrim s.loop.m4 w) i op p stOk (trimBytes s.loop.m4 w)
      else s.M16Completes s i op p stBadParam [] := by
  refine ⟨_, rfl, ?_⟩
  obtain ⟨h0, hz, h4⟩ := pointParams (ps := s.nativeOf op p) (point := point) (by omega)
  have ho := loopTrim_point (s := s.taken op p) h12 h0 hz (by rw [State.taken_loop]; exact hfix)
  rw [h4, State.taken_loop] at ho
  have hpl := loopTrim_plain h (Config.m16Length op) true
  split_ifs with hv h1
  · rw [if_pos hv, if_pos h1] at ho
    exact h.m16 he hpl hu rfl (congrArg (fun r => (answered r).toM16 op) ho) (taken_putTrim _ _ hu)
  · rw [if_pos hv, if_neg h1] at ho
    exact h.m16 he hpl hu rfl (congrArg (fun r => (answered r).toM16 op) ho) (taken_putTrim _ _ hu)
  · rw [if_neg hv] at ho
    exact h.m16 he hpl hu rfl (congrArg (fun r => (answered r).toM16 op) ho) (s.taken_plain p hu)

end

/-- Settles O9: a fixed current is one request; a trim point is judged once for all of its commands. -/
theorem fixedCurrentAndTrimCommandsSetTheLoop : Obligations.FixedCurrentAndTrimCommandsSetTheLoop := by
  refine ⟨fun s p => ⟨fun code b h1 h2 h hw hp => ?_, fun h hw => ?_, fun h hw hp => ?_, fun h hw => ?_, ?_⟩, fun s p v hv => ?_⟩
  · obtain ⟨hok, hc, hb, hlen⟩ := fixParams h1 h2 hp
    have ho := setFixed_ok (s := s) (op := 0x0401) (p := p) hok
    rw [hc, hb] at ho
    refine ⟨fun hm => ?_, fun hm => ?_⟩
    · exact h.begins rfl (shell_plain h _ fun _ => hw) rfl (by rw [hlen]; rfl) (ho := by simpa [hm] using ho)
    · rw [State.Declines, s.started_of p rfl]
      exact h.reports rfl (shell_plain h _ fun _ => hw) rfl (by rw [hlen]; rfl) (by simpa [hm] using ho)
  · by_cases hok : fixOk (s.nativeOf 0x0F30 p)
    · refine (if_pos hok).mpr ?_
      have ho := setFixed_ok (s := s) (op := 0x0F30) (p := p) hok
      split_ifs with hm
      · exact h.m16 rfl (shell_plain h _ fun _ => hw) rfl rfl (congrArg (Done.toM16 0x0F30) (ho.trans (if_pos hm))) (s.taken_plain p rfl)
      · exact h.m16Begins rfl (shell_plain h _ fun _ => hw) rfl rfl (ho := congrArg (Done.toM16 0x0F30) (ho.trans (if_neg hm)))
    · refine (if_neg hok).mpr ?_
      exact h.m16 rfl (shell_plain h _ fun _ => hw) rfl rfl (congrArg (Done.toM16 0x0F30) (setFixed_bad hok)) (s.taken_plain p rfl)
  · have ho := releaseFixed_taken (s := s) (op := 0x0402) (p := p)
    split_ifs with hf
    · exact h.begins rfl (shell_plain h _ fun _ => hw) rfl (by rw [hp]; rfl) (ho := ho.trans (if_pos hf))
    · exact h.reports rfl (shell_plain h _ fun _ => hw) rfl (by rw [hp]; rfl) (ho.trans (if_neg hf))
  · have ho := releaseFixed_taken (s := s) (op := 0x0F31) (p := p)
    split_ifs with hf
    · exact h.m16Begins rfl (shell_plain h _ fun _ => hw) rfl rfl (ho := congrArg (Done.toM16 0x0F31) (ho.trans (if_pos hf)))
    · exact h.m16 rfl (shell_plain h _ fun _ => hw) rfl rfl (congrArg (Done.toM16 0x0F31) (ho.trans (if_neg hf))) (s.taken_plain p rfl)
  · rintro r a (⟨c, b, rfl, rfl⟩ | ⟨rfl, rfl⟩)
    · exact s.schedule_got _ _ _
    · exact s.schedule_got _ _ _
  · intro put res
    have hl := State.taken_loop (s := s) (op := 0x0403) (p := p)
    refine ⟨fun h hp => ?_, fun hfix hnear => ⟨fun h hp => ?_, fun h => ?_⟩, fun hfix hnear => ⟨fun h hp => ?_, fun h => ?_⟩⟩
    · obtain ⟨hlen, h0, hz, -⟩ := trimParams (a := 0) hv hp
      exact execLoopTrim_completes h hlen (loopTrim_reset h0 hz)
    · obtain ⟨hlen, h0, hz, h4⟩ := trimParams (a := 1) hv hp
      have ho := loopTrim_point (.inl rfl) h0 hz (by rw [hl]; exact hfix)
      rw [h4, if_pos (by exact hnear), if_pos rfl, hl] at ho
      exact execLoopTrim_completes h hlen ho
    · exact runTrim_completes (.inl rfl) h rfl rfl hfix
    · obtain ⟨hlen, h0, hz, h4⟩ := trimParams (a := 2) hv hp
      have ho := loopTrim_point (.inr rfl) h0 hz (by rw [hl]; exact hfix)
      rw [h4, if_pos (by exact hnear), if_neg (by decide), hl] at ho
      exact execLoopTrim_completes h hlen ho
    · exact runTrim_completes (.inr rfl) h rfl rfl hfix

end Sys2Proof.Machine
end


section
/-! PROOFS. Fabric fields that a command commits, and FAB_TIME (10 R242, R251, R253, R257, R260). -/

namespace Sys2Proof.Machine

open Sys2Proof

set_option Elab.async false

section
variable {s u v : State} {op : Nat} {p : Packet} {ps : List Byte}

/-! ## Fields for the next idle line -/

theorem State.TakenFrom.commitLine (h : u.TakenFrom v op p) (fs : List (Nat × Int)) :
    (u.commitLine fs).TakenFrom (v.commitLine fs) op p := by
  have e : v.commitLine fs = (fun t => t.setMgmt { t.mgmt.bindFields fs with
      pendLine := some ⟨(t.mgmt.bindFields fs).committed, u.now, none, false⟩ }) v := by
    have hnow : v.now = u.now := by rw [State.now, h.only.2 .clock (by simp), State.now]
    rw [State.commitLine, hnow]
  rw [e]
  exact h.map (fun t => t.setMgmt { t.mgmt.bindFields fs with
      pendLine := some ⟨(t.mgmt.bindFields fs).committed, u.now, none, false⟩ }) fun _ _ _ => rfl

/-- What committed fields leave of MGMT. -/
theorem State.commitLine_fields (s : State) (fs : List (Nat × Int)) : let u := s.commitLine fs
    u.mgmt = { s.mgmt with shadow := u.mgmt.shadow, committed := u.mgmt.committed, pendLine := u.mgmt.pendLine } ∧
      (∀ id, u.mgmt.committed.val id = (lastWrite fs id).getD (s.mgmt.committed.val id)) ∧
      (∀ id, u.mgmt.shadow.val id = (lastWrite fs id).getD (s.mgmt.shadow.val id)) ∧
      u.mgmt.pendLine = some ⟨u.mgmt.committed, s.now, none, false⟩ :=
  ⟨rfl, Alm.val_writes _ fs, Alm.val_writes _ fs, rfl⟩

theorem assignRight_taken : assignRight (s.taken op p) p = assignRight s p := by
  simp [assignRight, State.hasRight, State.rights, State.addrRights, State.taken_mgmt]

theorem assignParams {uid addr : Nat} (hu : uid < 2 ^ 64) (ha : addr < 4096) (hp : ps = leBytes 8 uid ++ leBytes 2 addr ++ zeros 2) :
    ps.length = 12 ∧ leAt ps 0 8 = uid ∧ leAt ps 8 2 = addr ∧ rsvdZero ps 10 2 = true := by
  have hz : rsvdZero ps 10 2 = true := by
    rw [hp]
    simpa using rsvdZero_mid (n := 2) [] (a := leBytes 8 uid ++ leBytes 2 addr) (off := 10) (by simp)
  subst hp
  refine ⟨by simp, ?_, ?_, hz⟩
  · simp [leAt_append_left]
    omega
  · simp [leAt_append_left, leAt_append_right]
    omega

/-- The device's own UID never clashes. -/
theorem State.assignClash_own (s : State) (addr : Nat) : s.assignClash Config.uid.toNat addr = false := by
  simp [State.assignClash]

theorem execFabAssign_completes {addr : Nat} (ha : addr < 4096) (hnode : addr % 64 ≠ 63) (h : s.Takes 0x0501 p 0 [])
    (hr : assignRight s p = true) (hp : s.paramsOf 0x0501 p = leBytes 8 Config.uid.toNat ++ leBytes 2 addr ++ zeros 2) :
    let u := s.commitLine [(fid 9 0 0, (addr : Int))]
    s.Completes (u.setFab { u.fab with assigned := true }) (.fabAssign p) 0x0501 p [] := by
  obtain ⟨hlen, h0, h8, hz⟩ := assignParams Config.uid.isLt ha hp
  refine h.completes rfl ((plainCmd_plain h _).withRight (assignRight_taken.trans hr)) (by rw [hlen]; rfl) ?_
    (((s.taken_plain p rfl).commitLine _).map (fun t => t.setFab { t.fab with assigned := true }) fun _ _ _ => rfl)
  simp only [h0, h8, hz, State.assignClash_own, hnode, Nat.not_le.2 ha, ne_eq, not_true_eq_false, Bool.not_true, Bool.false_eq_true,
    or_self, if_false]

/-- The entries of FAB_BEARING_WRITE. -/
def bearingEntries (first : Nat) (codes : List Byte) : List (Nat × Int) :=
  (List.range codes.length).map fun i => (fid 11 0 (first + i), ((codes.getD i 0).toNat : Int))

theorem execFabBearingWrite_completes {first : Nat} {codes : List Byte} (hne : codes ≠ []) (hlen : first + codes.length ≤ 64)
    (hc : ∀ b ∈ codes, b.toNat ≤ 2)
    (hown : ∀ i, i < codes.length → first + i = s.mgmt.committed.fabAddr / 64 → codes.getD i 0 = 1) (h : s.Takes 0x0502 p 0 [])
    (hp : s.paramsOf 0x0502 p = [BitVec.ofNat 8 first, BitVec.ofNat 8 codes.length] ++ codes) :
    s.Completes (s.commitLine (bearingEntries first codes)) (.fabBearingWrite p) 0x0502 p [] := by
  have hpos : 0 < codes.length := List.length_pos_iff.2 hne
  have h0 : leAt (s.paramsOf 0x0502 p) 0 1 = first := by
    rw [hp]
    simp [leAt, leVal]
    omega
  have h1 : leAt (s.paramsOf 0x0502 p) 1 1 = codes.length := by
    rw [hp]
    simp [leAt, leVal]
    omega
  have hdrop : (s.paramsOf 0x0502 p).drop 2 = codes := by rw [hp]; rfl
  have hplen : (s.paramsOf 0x0502 p).length = 2 + codes.length := by
    rw [hp]
    simp
    omega
  have hmap (i : Nat) : (codes.map fun b => b.toNat).getD i 0 = (codes.getD i 0).toNat := by
    exact List.getD_map codes 0 (f := fun b : Byte => b.toNat)
  have hok : ((List.range codes.length).map fun i => (first + i, (codes.getD i 0).toNat)).any
      (fun e => decide (2 < e.2) || (e.1 == s.mgmt.committed.fabAddr / 64 && e.2 != 1)) = false := by
    simp only [List.any_map, List.any_eq_false, List.mem_range, Function.comp_apply, Bool.or_eq_true, decide_eq_true_eq,
      Bool.and_eq_true, beq_iff_eq, bne_iff_ne, not_or, not_and, not_not]
    intro i hi
    refine ⟨?_, fun e => by rw [hown i hi e]; rfl⟩
    rw [List.getD_eq_getElem _ _ hi]
    exact Nat.not_lt.2 (hc _ (List.getElem_mem hi))
  refine h.completes rfl ((plainCmd_plain h _).withFits (by simp [hplen, h1])) (by rw [hplen]; simp [plainCmd]; omega) ?_
    ((s.taken_plain p rfl).commitLine _)
  simp only [h0, h1, hdrop, hmap, State.taken_mgmt, hok, Nat.not_lt.2 hlen, Bool.false_eq_true, or_self, if_false, List.map_map]
  rfl

theorem execFabPublishSlots_completes (h : s.Takes 0x0507 p 0 []) (hlen : (s.paramsOf 0x0507 p).length = 52)
    (hw : ∀ f ∈ publishFields (s.paramsOf 0x0507 p), fieldOfWire f.1 f.2 = some (f.2 : Int))
    (hz : rsvdZero (s.paramsOf 0x0507 p) 2 2 = true)
    (hn : ∀ n, n < 4 → rsvdZero (s.paramsOf 0x0507 p) (13 + 12 * n) 3 = true ∧
      firstFail (publishChecks n (leAt (s.paramsOf 0x0507 p) (4 + 12 * n) 4) (leAt (s.paramsOf 0x0507 p) (8 + 12 * n) 4)
        (leAt (s.paramsOf 0x0507 p) (12 + 12 * n) 1)) = none) :
    s.Completes (s.commitLine ((publishFields (s.paramsOf 0x0507 p)).map fun f => (f.1, (f.2 : Int)))) (.fabPublishSlots p) 0x0507 p [] := by
  have hrsvd : ((List.range 4).all fun n => rsvdZero (s.paramsOf 0x0507 p) (13 + 12 * n) 3) = true :=
    List.all_eq_true.2 fun n hx => (hn n (List.mem_range.1 hx)).1
  have hset : ((List.range 4).any fun n => (firstFail (publishChecks n (leAt (s.paramsOf 0x0507 p) (4 + 12 * n) 4)
      (leAt (s.paramsOf 0x0507 p) (8 + 12 * n) 4) (leAt (s.paramsOf 0x0507 p) (12 + 12 * n) 1))).isSome) = false :=
    List.any_eq_false.2 fun n hx => by simp [(hn n (List.mem_range.1 hx)).2]
  have hwire : ((publishFields (s.paramsOf 0x0507 p)).any fun f => (fieldOfWire f.1 f.2).isNone) = false :=
    List.any_eq_false.2 fun f hf => by simp [hw f hf]
  refine h.completes rfl (plainCmd_plain h _) (by rw [hlen]; rfl) ?_ ((s.taken_plain p rfl).commitLine _)
  simp only [hz, hrsvd, hset, hwire, Bool.and_self, Bool.not_true, Bool.or_self, Bool.false_eq_true, if_false]

/-! ## FAB_TIME -/

theorem State.fabTimeBytes_event (s : State) : leAt s.fabTimeBytes.2 16 6 = (s.fab.event.getD 0).toNat := by
  have hlt := (s.fab.event.getD 0).isLt
  cases he : s.fab.event with
  | none => simp [State.fabTimeBytes, he, leAt_append_left, leAt_append_right]
  | some c =>
    simp only [he, Option.getD_some] at hlt
    simp [State.fabTimeBytes, he, leAt_append_left, leAt_append_right]
    omega

/-- An operation of FAB_TIME on an event or a count. -/
theorem State.fabTime_reports {i : Instr} {k x : Nat} {act : State → Nat → Option State} (hk : k ≤ 3) (hx : x < 281474976710656)
    (h : s.Takes 0x0506 p 0 [.loop]) (he : exec i s = .next (s.fabTime p act)) (hr : fabTimeRight s p = true)
    (hp : s.paramsOf 0x0506 p = leBytes 1 k ++ [0] ++ leBytes 6 x) (ha : act (s.taken 0x0506 p) x = some v)
    (hv : u.TakenFrom v 0x0506 p) (hw : u.win.mem = s.win.mem) (hm : u.mgmt = s.mgmt) (hl : u.fab.locked = s.fab.locked)
    (hc : u.clock.meridian = s.clock.meridian) :
    ∃ w res, s.Completes w i 0x0506 p res ∧ u.Only [.free] w ∧ leAt res 0 1 = b2n s.fab.locked ∧
      leAt res 8 6 = s.clock.meridian.toNat ∧ leAt res 14 1 = b2n u.fab.event.isSome ∧
      leAt res 16 6 = (u.fab.event.getD 0).toNat := by
  obtain ⟨h0, -, -, h8, h14⟩ := u.fabTimeBytes_fields
  refine ⟨_, _, State.fabTime_completes h he hr hk hp (by rwa [Nat.mod_eq_of_lt (by omega)]) hv hw (by rw [hm]) (by rw [hm]),
    u.drawn_only _, ?_, ?_, h14, u.fabTimeBytes_event⟩
  · rw [h0, hl]
  · rw [h8, hc]

/-- An operation of FAB_TIME that does not take effect. -/
theorem State.fabTime_declines {i : Instr} {k x : Nat} {act : State → Nat → Option State} (hk : k ≤ 3)
    (h : s.Takes 0x0506 p 0 [.loop]) (he : exec i s = .next (s.fabTime p act)) (hr : fabTimeRight s p = true)
    (hp : s.paramsOf 0x0506 p = leBytes 1 k ++ [0] ++ leBytes 6 x) (ha : ∀ n, act (s.taken 0x0506 p) n = none) :
    ∃ t, exec i s = .next t ∧ s.Replied t 0x0506 p stNotPermitted [] := by
  have right : fabTimeRight (s.taken 0x0506 p) p = true := by
    simpa [fabTimeRight, State.hasRight, State.rights, State.addrRights, State.taken_mgmt] using hr
  have hk' : leAt (s.paramsOf 0x0506 p) 0 1 = k := by
    rw [hp, List.append_assoc, leAt_append_left _ (by simp), leAt_leBytes]
    omega
  have hz : rsvdZero (s.paramsOf 0x0506 p) 1 1 = true := by rw [hp]; rfl
  refine h.reports he ((needsCmd_plain (m16 := false) h _).withRight right) rfl (by rw [hp]; simp [plainCmd]) ?_
  simp only [hk', hz, Nat.not_lt.2 hk, ha, Bool.not_true, Bool.false_eq_true, or_self, if_false]

theorem fabTimeRight_of {k : Nat} (hop : fabTimeOp p = k) (h1 : 1 ≤ k) (h3 : k ≤ 3) (hr : s.hasRight p 2 = true) :
    fabTimeRight s p = true := by
  rw [fabTimeRight, show leAt p.params 0 1 = k from hop]
  simpa [h1, h3] using hr

end

/-- Settles O10: committed fields are one list of writes with a line token; FAB_TIME reports the state that its operation leaves. -/
theorem fabricCommandsCommitFieldsAndSetTime : Obligations.FabricCommandsCommitFieldsAndSetTime := by
  refine ⟨fun s p _ _ => ?_, fun s p x hx h hr => ?_⟩
  · intro commits
    refine ⟨fun addr ha hnode h hr hp => ?_, fun first codes hne hlen hc hown h hp => ?_, fun hlen hw hz hn h => ?_⟩
    · exact ⟨_, execFabAssign_completes ha hnode h hr hp, ⟨rfl, fun q hq => by cases q <;> first | rfl | simp at hq⟩, rfl,
        s.commitLine_fields _⟩
    · exact ⟨_, execFabBearingWrite_completes hne hlen hc hown h hp, s.setMgmt_only _, s.commitLine_fields _⟩
    · exact ⟨_, execFabPublishSlots_completes h hlen hw hz hn, s.setMgmt_only _, s.commitLine_fields _⟩
  · intro reports
    refine ⟨fun hop hp => ?_, fun hop hp => ?_, fun hop hp hu => ?_, fun hop hp hl => ?_⟩
    · exact State.fabTime_reports (k := 1) (by decide) hx h (congrArg Host.Outcome.next (if_pos hop)) (fabTimeRight_of hop (by decide) (by decide) hr)
        hp rfl ((s.taken_plain p rfl).map (fun t => t.setFab { t.fab with event := some (BitVec.ofNat 48 x) }) fun _ _ _ => rfl) rfl rfl rfl rfl
    · exact State.fabTime_reports (k := 2) (by decide) hx h (congrArg Host.Outcome.next (if_pos hop)) (fabTimeRight_of hop (by decide) (by decide) hr)
        hp rfl ((s.taken_plain p rfl).map (fun t => t.setFab { t.fab with event := none }) fun _ _ _ => rfl) rfl rfl rfl rfl
    · exact State.fabTime_reports (k := 3) (by decide) hx h (congrArg Host.Outcome.next (if_pos hop)) (fabTimeRight_of hop (by decide) (by decide) hr)
        hp (by rw [State.taken_fab, hu]; rfl) ((s.taken_plain p rfl).map (fun t => { t with clock := { t.clock with
          timeSet := some (BitVec.ofNat 48 x), slew := none } }) fun _ _ _ => rfl) rfl rfl rfl rfl
    · exact State.fabTime_declines (k := 3) (by decide) h (congrArg Host.Outcome.next (if_pos hop)) (fabTimeRight_of hop (by decide) (by decide) hr)
        hp fun n => by rw [State.taken_fab, hl]; rfl

end Sys2Proof.Machine
end


section
/-! PROOFS. Commands that reach AON on MB7 (12 R304; 13 R317, R329, R332, R337; 15 R377). -/

namespace Sys2Proof.Machine

open Sys2Proof

set_option Elab.async false

section
variable {s u v w : State} {op : Nat} {p : Packet} {own : State → Packet → List Byte → Done} {c : Cmd} {cost : Nat}
  {needs : List Island} {i : Instr} {ps b : List Byte} {st : Nat} {res : List Byte}

/-- A command whose checks pass and that completes at once. -/
theorem State.Takes.passes (h : s.Takes op p cost needs) (he : exec i s = .next (s.runCmd c p own)) (hop : c.op = op)
    (ha : (s.taken op p).admitCmd c p (s.paramsOf op p) = .ok w) (hb : c.body (s.paramsOf op p) = b)
    (hr : w.nvmRead (c.reads w b) = (w, true)) (ho : own w p b = .done v st res) (hv : u.TakenFrom v op p)
    (hu : u.win.mem = s.win.mem) (hq : u.mgmt.queue = s.mgmt.queue) (hl : u.mgmt.replies = s.mgmt.replies) :
    ∃ t, exec i s = .next t ∧ u.Replied t op p st res := by
  subst hop
  obtain ⟨via, e⟩ := h.toDelivers.runCmd_eq (own := own)
  refine ⟨_, he, ?_⟩
  rw [e, ha]
  simp only [Cmd.ends, hb, hr, ho, if_true]
  exact h.toDelivers.finished hv hu hq hl via st res

/-- A command of AON's that posts a request and is answered at once. -/
theorem State.Takes.asksAon (h : s.Takes op p cost needs) (he : exec i s = .next (s.runCmd c p own)) (hc : c.Plain s op p cost needs)
    (hn : updateOp op = false) (hl : c.len (s.paramsOf op p).length = true) {r : Req}
    (ho : own (s.taken op p) p (s.paramsOf op p) = .done ((s.taken op p).postReq 7 op r) stOk res) :
    s.Completes (s.postReq 7 op r) i op p res :=
  h.completes he hc hl ho ((s.taken_plain p hn).postReq (by decide) op r) (by simp) (by simp) (by simp)

/-- The packet's first byte with three reserved ones behind it. -/
theorem oneByteParams {a : Byte} (hp : ps = [a, 0, 0, 0]) : ps.length = 4 ∧ leAt ps 0 1 = a.toNat ∧ rsvdZero ps 1 3 = true := by
  subst hp
  exact ⟨rfl, by simp [leAt, leVal], rfl⟩

theorem detByte (d : BitVec 6) : (d.setWidth 8).toNat = d.toNat := by
  simp
  omega

theorem detOfByte (d : BitVec 6) : BitVec.ofNat 6 (d.setWidth 8).toNat = d := by
  rw [detByte, BitVec.ofNat_toNat, BitVec.setWidth_eq]

/-! ## FLT_INJECT -/

/-- The shell of FLT_INJECT. -/
def injectCmd (p : Packet) : Cmd :=
  { aonCmd 0x0603 (· == 4) with
    signable := true, mustSign := fun src => src != 0x01, cost := fun _ _ => if pktSigned p then 306 else 0 }

/-- FLT_INJECT's own rules. -/
def injectOwn (s : State) (_ : Packet) (ps : List Byte) : Done :=
  let d := leAt ps 0 1
  let n := leAt ps 1 1
  let inj := match detRow d with
    | some r => r.inj
    | none => false
  if !inj || n == 0 || !rsvdZero ps 2 2 then .done s stBadParam []
  else .done (s.postReq 7 0x0603 (.inject (BitVec.ofNat 6 d) n)) stOk []

theorem execFltInject_eq : exec (.fltInject p) s = .next (s.runCmd (injectCmd p) p injectOwn) := rfl

theorem injectOwn_ok {d : BitVec 6} {n : Byte} {r : DetRow} (hd : detRow d.toNat = some r) (hi : r.inj = true) (hn : n ≠ 0)
    (hp : ps = [d.setWidth 8, n, 0, 0]) : injectOwn s p ps = .done (s.postReq 7 0x0603 (.inject d n.toNat)) stOk [] := by
  have h0 : leAt ps 0 1 = (d.setWidth 8).toNat := by subst hp; simp [leAt, leVal]
  have h1 : leAt ps 1 1 = n.toNat := by subst hp; simp [leAt, leVal]
  have hz : rsvdZero ps 2 2 = true := by subst hp; rfl
  have hn' : (n.toNat == 0) = false := by
    simpa using fun e => hn (BitVec.eq_of_toNat_eq e)
  have hd' : detRow (d.setWidth 8).toNat = some r := by rw [detByte, hd]
  simp only [injectOwn, h0, h1, hz, hd', hi, hn', Bool.not_true, Bool.or_self, Bool.false_eq_true, if_false, detOfByte]

theorem inject_unsigned_body (hl : ps.length = 4) : (injectCmd p).body ps = ps := by
  simp [Cmd.body, hl, trailerLen]

theorem inject_local (h : s.Takes 0x0603 p 0 [.aon]) (hsrc : p.src = 0x01) (hflag : pktSigned p = false)
    (hl : (s.paramsOf 0x0603 p).length = 4) {r : Req}
    (ho : injectOwn (s.taken 0x0603 p) p (s.paramsOf 0x0603 p) = .done ((s.taken 0x0603 p).postReq 7 0x0603 r) stOk []) :
    s.Completes (s.postReq 7 0x0603 r) (.fltInject p) 0x0603 p [] := by
  have hup : s.upAt .aon = true := h.islands _ (by simp)
  have ha : (s.taken 0x0603 p).admitCmd (injectCmd p) p (s.paramsOf 0x0603 p) = .ok (s.taken 0x0603 p) := by
    rw [State.admitCmd_unsigned (by rw [hl]; rfl) rfl ((s.taken_rightOf 0x0603 p 0x0603).trans h.right) (by simp [injectCmd, hsrc])
      (.inr ⟨hflag, by rw [hl]; decide⟩)]
    simp [injectCmd, State.admitRest, hflag, aonCmd, plainCmd, State.taken_admits, h.energy, State.taken_upAt, hup]
  exact h.passes execFltInject_eq rfl ha (inject_unsigned_body hl) rfl ho ((s.taken_plain p rfl).postReq (by decide) _ r) (by simp) (by simp)
    (by simp)

theorem inject_fabric (h : s.Takes 0x0603 p 0 [.aon]) (hsrc : p.src ≠ 0x01) (hflag : pktSigned p = false)
    (hl : (s.paramsOf 0x0603 p).length = 4) : s.Declines (.fltInject p) 0x0603 p stAuthFail := by
  have hr : (injectCmd p).right (s.taken 0x0603 p) p = true := (s.taken_rightOf 0x0603 p 0x0603).trans h.right
  have ha : (s.taken 0x0603 p).admitCmd (injectCmd p) p (s.paramsOf 0x0603 p) = .error (s.taken 0x0603 p, stAuthFail, []) := by
    unfold State.admitCmd
    have hmust : (injectCmd p).mustSign p.src = true := by simpa [injectCmd] using hsrc
    simp only [hr, hmust, hflag, hl]
    simp [injectCmd, aonCmd, plainCmd, trailerLen]
  exact ⟨_, execFltInject_eq, h.toDelivers.refused ha (s.taken_from 0x0603 p) (by rw [s.started_eq]; rfl) (by rw [s.started_eq]; rfl)
    (by rw [s.started_eq]; rfl)⟩

theorem inject_sealed (h : s.Takes 0x0603 p 306 [.aon]) (hflag : pktSigned p = true) :
    (injectCmd p).Sealed s 0x0603 p 4 306 [.aon] where
  opcode := rfl
  signable := rfl
  len := rfl
  right := (s.taken_rightOf 0x0603 p 0x0603).trans h.right
  fits := rfl
  cost := fun _ _ => by simp [injectCmd, hflag]
  needs := fun _ => rfl
  reads := fun _ => rfl
  waits := nofun

/-- The mask that OBS_TRACE_SELECT asks for is kept. -/
theorem State.TakenFrom.askMask (h : u.TakenFrom v op p) (m : Word32) : (u.setObs { u.obs with maskNext := some m }).TakenFrom
    (v.setObs { v.obs with maskNext := some m }) op p := by
  obtain ⟨⟨hpend, hpart⟩, hm, htr, hctr⟩ := h
  have ha := (State.assembled_congr (s := u) (t := u.setObs { u.obs with maskNext := some m }) op p rfl).1
  refine ⟨⟨hpend, fun q hq => ?_⟩, by rw [ha]; exact hm, ?_, hctr⟩
  · have := hpart q hq
    cases q <;> first | exact this | simp at hq
  · rw [State.setObs_obs, htr]
    rfl

/-- A request of a signed command, from the state in which its counter has been accepted. -/
theorem State.TakenFrom.countedReq (h : u.TakenFrom v op p) (k n : Nat) (r : Req) :
    ((u.countAccepted k).postReq 7 n r).TakenFrom ((v.countAccepted k).postReq 7 n r) op p :=
  (h.countAccepted k).postReq (by decide) n r

end

/-- Settles O11: each command is a request on MB7, or a refusal; MGMT's own reset follows its reply. -/
theorem resetFaultAndTraceCommandsReachAon : Obligations.ResetFaultAndTraceCommandsReachAon := by
  refine ⟨fun s p h hw => ⟨fun i hi hp => ?_, fun hp => ?_, fun hp => ?_⟩,
    fun s p d => ⟨fun hopen h hp => ?_, fun hopen h hp => ?_, fun n r hd hi hn => ⟨fun hsrc hflag h hp => ?_, fun hsrc hflag h hp => ?_,
      fun hs h hp => ?_⟩, fun scope hscope h hp => ?_⟩, fun s p v hv heven h hp => ?_⟩
  · obtain ⟨hlen, h0, hz⟩ := oneByteParams hp
    refine h.begins rfl (shell_plain (m16 := false) h _ fun _ => hw) rfl (by rw [hlen]; rfl) (ho := ?_)
    rcases hi with rfl | rfl <;>
      simp only [h0, hz, Bool.not_true, Bool.false_eq_true, if_false] <;> rfl
  · obtain ⟨hlen, h0, hz⟩ := oneByteParams hp
    refine h.resets rfl (shell_plain (m16 := false) h _ fun _ => hw) rfl (by rw [hlen]; rfl) ?_
    simp only [h0, hz, Bool.not_true, Bool.false_eq_true, if_false]
    rfl
  · obtain ⟨hlen, h0, hz⟩ := oneByteParams hp
    rw [State.Declines, s.started_of p rfl]
    refine h.reports rfl (shell_plain (m16 := false) h _ fun _ => hw) rfl (by rw [hlen]; rfl) ?_
    simp only [h0, hz, Bool.not_true, Bool.false_eq_true, if_false]
    rfl
  · obtain ⟨hlen, h0, hz⟩ := oneByteParams hp
    obtain ⟨o, ho, hod⟩ := hopen
    have hany : (s.faults.opens.any fun o => o.det.toNat == (d.setWidth 8).toNat) = true :=
      List.any_eq_true.2 ⟨o, ho, by rw [detByte, hod, beq_self_eq_true]⟩
    refine h.asksAon rfl (needsCmd_plain (m16 := false) h _) rfl (by rw [hlen]; rfl) ?_
    simp only [h0, hz, State.taken_faults, hany, Bool.not_true, Bool.or_self, Bool.false_eq_true, if_false, detOfByte]
  · obtain ⟨hlen, h0, hz⟩ := oneByteParams hp
    have hany : (s.faults.opens.any fun o => o.det.toNat == (d.setWidth 8).toNat) = false :=
      List.any_eq_false.2 fun o ho => by
        rw [detByte, beq_iff_eq]
        exact fun e => hopen o ho (BitVec.eq_of_toNat_eq e)
    rw [State.Declines, s.started_of p rfl]
    refine h.reports rfl (needsCmd_plain (m16 := false) h _) rfl (by rw [hlen]; rfl) ?_
    simp only [h0, State.taken_faults, hany, Bool.not_false, Bool.or_true, if_true]
  · exact inject_local h hsrc hflag (by rw [hp]; rfl) (injectOwn_ok hd hi hn hp)
  · exact inject_fabric h hsrc hflag (by rw [hp]; rfl)
  · exact h.signed hs execFltInject_eq (inject_sealed h hs.flag) (injectOwn_ok hd hi hn hp)
      ((s.taken_plain p rfl).countedReq _ _ _) (by simp [State.countAccepted]) (by simp [State.countAccepted]) (by simp [State.countAccepted])
  · obtain ⟨hlen, h0, hz⟩ := oneByteParams hp
    have hsc : leAt (s.paramsOf 0x0604 p) 0 1 = scope := by
      rw [h0]
      simp
      omega
    refine h.asksAon rfl ((needsCmd_plain (m16 := false) h _).withCost ?_) rfl (by rw [hlen]; rfl) ?_
    · rw [hsc]
    · simp only [hsc, hz, show ¬ 1 < scope by omega, Bool.not_true, Bool.false_eq_true, or_self, if_false]
  · intro m
    have h0 : leAt (s.paramsOf 0x0802 p) 0 4 = v := by
      rw [hp, leAt_leBytes]
      omega
    obtain ⟨hobs, -⟩ := (s.taken_plain (op := 0x0802) p rfl).trace
    have hold : ((s.taken 0x0802 p).obs.maskNext.getD (s.taken 0x0802 p).obs.mask) = s.obs.maskNext.getD s.obs.mask := by rw [hobs]
    refine ⟨?_, State.setObs_only _ _, rfl⟩
    refine h.completes rfl (needsCmd_plain (m16 := false) h _) (by rw [hp]; rfl) ?_
      (((s.taken_plain p rfl).askMask m).postReq (by decide) _ _) (by simp) (by simp) (by simp)
    simp only [h0, hold, heven, show ¬ 32768 ≤ v by omega, or_self, if_false, zero_ne_one]
    rfl

end Sys2Proof.Machine
end


section
/-! PROOFS. SEC_ATTEST and the signed commands SEC_GRANT, UPD_BEGIN and UPD_ACTIVATE (12 R304, R306; 14 R348 to R350, R353, R356). -/

namespace Sys2Proof.Machine

open Sys2Proof

set_option Elab.async false

section
variable {s u v w : State} {op : Nat} {p : Packet} {own : State → Packet → List Byte → Done} {c : Cmd} {cost n : Nat}
  {needs : List Island} {i : Instr} {ps : List Byte} {res : List Byte}

/-! ## Attestation -/

theorem execSecAttest_waits (hlen : (s.paramsOf 0x0701 p).length = 32) (h : s.Takes 0x0701 p 1100 []) (hr : s.Readable [seedPage]) :
    ∃ t, exec (.secAttest p) s = .next t ∧ State.Waits s
      (s.setMgmt { s.mgmt with attest := some ⟨s.paramsOf 0x0701 p, s.now, none, 0⟩ }) t 0x0701 p 1100 none (some s.now) [] := by
  refine ⟨_, rfl, ?_⟩
  have hc : ({ plainCmd 0x0701 (· == 32) with cost := fun _ _ => 1100, reads := fun _ _ => [seedPage] } : Cmd).Plain s 0x0701 p 1100 [] :=
    ((needsCmd_plain (m16 := false) h _).withReads (r := fun _ _ => [seedPage]) hr.taken).withCost (k := fun _ _ => 1100) rfl
  obtain ⟨-, h1, h2, h3, h4, h5, hf, hd, h6⟩ := hc
  refine State.runCmd_busy h (show ((s.paramsOf 0x0701 p).length == 32) = true by rw [hlen]; rfl) hf h1 h2 h3 h4 h5 hd h6 rfl ?_ rfl rfl
  rw [State.taken_now]
  exact (s.taken_plain p rfl).map (fun t => t.setMgmt { t.mgmt with attest := some ⟨s.paramsOf 0x0701 p, s.now, none, 0⟩ }) fun _ _ _ => rfl

theorem State.attestRecord_split (s : State) (nonce : List Byte) : ∃ flags rest, s.attestRecord nonce =
    (leBytes 2 1 ++ leBytes 2 348 ++ leBytes 8 Config.uid.toNat ++ leBytes 6 s.clock.meridian.toNat ++ leBytes 2 flags) ++ (nonce ++ rest) := by
  unfold State.attestRecord
  simp only [List.append_assoc]
  exact ⟨_, _, rfl⟩

theorem State.attestRecord_nonce (s : State) {nonce : List Byte} (h : nonce.length = 32) :
    ((s.attestRecord nonce).drop 20).take 32 = nonce ∧ leAt (s.attestRecord nonce) 12 6 = s.clock.meridian.toNat := by
  obtain ⟨flags, rest, e⟩ := s.attestRecord_split nonce
  have hm := s.clock.meridian.isLt
  rw [e]
  constructor
  · rw [List.drop_left' (by simp), List.take_left' h]
  · rw [List.append_assoc, leAt_mid _ (by simp)]
    omega

/-- What the signature's outcome is answered with. -/
def signOut (r : List Byte) : Option (List Byte) → Nat × List Byte
  | some x => (stOk, r ++ x)
  | none => (stInternal, [])

theorem State.capture_eq {a : Attest} {sig : Option (List Byte)} {k : Nat}
    (h : Mldsa.sign s.nvm.seed (sha3 (s.attestRecord a.nonce)) (leBytes 32 (Config.freeBits 256 s.free).toNat) = (sig, k)) :
    s.capture a = (s.drawn (s.free + 1)).setMgmt { s.mgmt with attest := some { a with
      out := some (signOut (s.attestRecord a.nonce) sig), left := 260000 * k } } := by
  unfold State.capture
  rw [State.draw_eq]
  have h' : Mldsa.sign (s.drawn (s.free + 1)).nvm.seed (sha3 (s.attestRecord a.nonce)) (leBytes 32 (Config.freeBits 256 s.free).toNat) =
    (sig, k) := h
  generalize Config.freeBits 256 s.free = rnd at *
  dsimp only
  rw [h']
  cases sig <;> rfl

/-! ## SEC_GRANT -/

theorem grantEntries_bytes (es : List (BitVec 12 × BitVec 16)) (h : ∀ e ∈ es, e.2.toNat / 128 % 256 = 0) :
    grantEntries es.length (es.flatMap fun e => leBytes 2 e.1.toNat ++ leBytes 2 e.2.toNat) = some es := by
  induction es with
  | nil => rfl
  | cons e es ih =>
    have ha := e.1.isLt
    have hr := e.2.isLt
    have h0 (l : List Byte) : leAt (leBytes 2 e.1.toNat ++ leBytes 2 e.2.toNat ++ l) 0 2 = e.1.toNat := by
      simp [leAt_append_left]
      omega
    have h2 (l : List Byte) : leAt (leBytes 2 e.1.toNat ++ leBytes 2 e.2.toNat ++ l) 2 2 = e.2.toNat := by
      simp [leAt_append_left, leAt_append_right]
      omega
    have hd (l : List Byte) : (leBytes 2 e.1.toNat ++ leBytes 2 e.2.toNat ++ l).drop 4 = l := by simp [List.drop_append]
    have he := h e List.mem_cons_self
    simp only [List.length_cons, List.flatMap_cons, grantEntries, h0, h2, hd, he, ih fun x hx => h x (List.mem_cons_of_mem _ hx),
      show ¬ 4096 ≤ e.1.toNat by omega, not_true_eq_false, ne_eq, or_self, if_false, Option.map_some, BitVec.ofNat_toNat, BitVec.setWidth_eq]

/-- The shell of a signed command of this length and cost. -/
theorem sealedCmd (h : s.Takes op p cost []) {len : Nat → Bool} {fits : List Byte → Bool} (hl : len n = true)
    (hf : fits ((s.paramsOf op p).take n) = true) :
    ({ plainCmd op len with fits := fits, signable := true, mustSign := fun _ => true, cost := fun _ _ => cost } : Cmd).Sealed
      s op p n cost [] where
  opcode := rfl
  signable := rfl
  len := hl
  right := (s.taken_rightOf op p op).trans h.right
  fits := hf
  cost := fun _ _ => rfl
  needs := fun _ => rfl
  reads := fun _ => rfl
  waits := nofun

/-- The grant table replaced and saved. -/
def State.granted (s : State) (g : List (BitVec 12 × BitVec 16)) : State :=
  (s.setMgmt { s.mgmt with grants := g }).setNvm (s.nvm.putGrants g)

theorem execSecGrant_completes {es : List (BitVec 12 × BitVec 16)} (hne : es ≠ []) (h16 : es.length ≤ 16)
    (hr : ∀ e ∈ es, e.2.toNat / 128 % 256 = 0) (hroom : (es.foldl (fun g e => putGrant g e.1 e.2) s.mgmt.grants).length ≤ 32)
    (hs : s.Signed 0x0707 p (4 + 4 * es.length)) (h : s.Takes 0x0707 p 312 []) (hp : (s.paramsOf 0x0707 p).take (4 + 4 * es.length) =
      leBytes 1 es.length ++ zeros 3 ++ es.flatMap (fun e => leBytes 2 e.1.toNat ++ leBytes 2 e.2.toNat)) :
    let g := es.foldl (fun g e => putGrant g e.1 e.2) s.mgmt.grants
    s.SignedCompletes ((s.countAccepted (leAt (s.paramsOf 0x0707 p) (4 + 4 * es.length) 8)).granted g) (.secGrant p) 0x0707 p
      (4 + 4 * es.length) (leBytes 1 g.length ++ zeros 3) := by
  intro g
  have hpos : 0 < es.length := List.length_pos_iff.2 hne
  have hlen : ((s.paramsOf 0x0707 p).take (4 + 4 * es.length)).length = 4 + 4 * es.length := by
    rw [List.length_take, hs.length]
    omega
  have h0 : leAt ((s.paramsOf 0x0707 p).take (4 + 4 * es.length)) 0 1 = es.length := by
    rw [hp, List.append_assoc, leAt_append_left _ (by simp), leAt_leBytes]
    omega
  have hz : rsvdZero ((s.paramsOf 0x0707 p).take (4 + 4 * es.length)) 1 3 = true := by
    rw [hp]
    rfl
  have hd : ((s.paramsOf 0x0707 p).take (4 + 4 * es.length)).drop 4 = es.flatMap fun e => leBytes 2 e.1.toNat ++ leBytes 2 e.2.toNat := by
    rw [hp]
    simp [List.drop_append]
  refine h.signed hs rfl (sealedCmd h (by simp; omega) (by rw [hlen, h0]; exact beq_self_eq_true _)) ?_
    (((s.taken_plain p rfl).countAccepted _).map (fun t => t.granted g) fun _ _ _ => rfl) rfl rfl rfl
  have hg : ((s.taken 0x0707 p).countAccepted (leAt (s.paramsOf 0x0707 p) (4 + 4 * es.length) 8)).mgmt.grants = s.mgmt.grants := by
    simp [State.countAccepted, State.taken_mgmt]
  simp only [h0, hz, hd, grantEntries_bytes es hr, hg, Bool.not_true, Bool.false_eq_true, if_false, Nat.not_lt.2 hroom]
  rfl

/-! ## UPD_BEGIN -/

/-- An update session opened. -/
def State.opened (s : State) (i : Island) (p : Packet) (len ver : Nat) : State :=
  (s.setDir i ((s.nvm.dirs.at i).setInactive ⟨.writing, [], 0, 0⟩)).setMgmt { s.mgmt with
    upd := some ⟨i, p.src, p.sender, len, ver, s.now, [], []⟩, verified := s.mgmt.verified.put i false }

theorem islandOf_srcOf (i : Island) : islandOf (srcOf i).toNat = some i := by cases i <;> rfl

theorem owns_taken (h : ∀ u, s.mgmt.upd = some u → u.owns p = true) : ∀ u, (s.started op p).mgmt.upd = some u → u.owns p = true := by
  intro u hu
  by_cases ho : updateOp op = true
  · simp only [State.started, ho, if_true, State.touchUpd_upd, Option.map_eq_some_iff] at hu
    obtain ⟨x, hx, rfl⟩ := hu
    have := h x hx
    rw [if_pos this]
    exact this
  · rw [s.started_of p (by simpa using ho)] at hu
    exact h u hu

theorem execUpdBegin_completes {j : Island} {len ver : Nat} (hver : ver < 4294967296) (hmin : 64 + 3736 * s.nvm.nsig ≤ len)
    (hmax : len ≤ maxImage j s.nvm.nsig) (hroll : s.nvm.fuses.at j ≤ ver / 67108864) (howns : ∀ u, s.mgmt.upd = some u → u.owns p = true)
    (hact : s.actPending j = false) (hs : s.Signed 0x0703 p 12) (h : s.Takes 0x0703 p 312 [])
    (hp : (s.paramsOf 0x0703 p).take 12 = [srcOf j, 0, 0, 0] ++ leBytes 4 len ++ leBytes 4 ver) :
    s.SignedCompletes (((s.touchUpd p).countAccepted (leAt (s.paramsOf 0x0703 p) 12 8)).opened j p len ver) (.updBegin p) 0x0703 p 12
      (leBytes 1 (b2n (!(s.nvm.dirs.at j).activeB)) ++ zeros 3) := by
  have hlen32 : len < 4294967296 := by
    have : s.nvm.nsig ≤ 2 := by
      unfold Nvm.nsig
      split <;> omega
    cases j <;> simp only [maxImage] at hmax <;> omega
  have h0 : leAt ((s.paramsOf 0x0703 p).take 12) 0 1 = (srcOf j).toNat := by
    rw [hp]
    simp [leAt, leVal]
  have hz : rsvdZero ((s.paramsOf 0x0703 p).take 12) 1 3 = true := by
    rw [hp]
    rfl
  have h4 : leAt ((s.paramsOf 0x0703 p).take 12) 4 4 = len := by
    rw [hp, List.append_assoc, leAt_append_right _ _ (by simp), leAt_append_left _ (by simp)]
    simp
    omega
  have h8 : leAt ((s.paramsOf 0x0703 p).take 12) 8 4 = ver := by
    rw [hp, leAt_append_right _ _ (by simp)]
    simp
    omega
  refine h.signed hs rfl (sealedCmd h rfl rfl) ?_
    (((s.taken_from 0x0703 p).countAccepted _).map (fun t => t.opened j p len ver) fun _ _ _ => rfl) rfl rfl rfl
  have hupd : ((s.taken 0x0703 p).countAccepted (leAt (s.paramsOf 0x0703 p) 12 8)).mgmt.upd = (s.started 0x0703 p).mgmt.upd := by
    simp [State.countAccepted, State.taken_mgmt]
  have hnvm : ((s.taken 0x0703 p).countAccepted (leAt (s.paramsOf 0x0703 p) 12 8)).nvm =
    s.nvm.putCounter s.nvm.oem.isSome (leAt (s.paramsOf 0x0703 p) 12 8) := by simp [State.countAccepted]
  have hsig : ((s.taken 0x0703 p).countAccepted (leAt (s.paramsOf 0x0703 p) 12 8)).nvm.nsig = s.nvm.nsig := by rw [hnvm]; rfl
  have hfuse : ((s.taken 0x0703 p).countAccepted (leAt (s.paramsOf 0x0703 p) 12 8)).nvm.fuses = s.nvm.fuses := by rw [hnvm]; rfl
  have hdirs : ((s.taken 0x0703 p).countAccepted (leAt (s.paramsOf 0x0703 p) 12 8)).nvm.dirs = s.nvm.dirs := by rw [hnvm]; rfl
  have hpend : ((s.taken 0x0703 p).countAccepted (leAt (s.paramsOf 0x0703 p) 12 8)).actPending j = false := by
    rw [State.actPending, hdirs]
    exact hact
  have hmine := owns_taken (op := 0x0703) howns
  have hsize : ¬ ((!true) = true ∨ len < 64 + 3736 * s.nvm.nsig ∨ maxImage j s.nvm.nsig < len) := by simp; omega
  rw [← hdirs]
  generalize (s.taken 0x0703 p).countAccepted (leAt (s.paramsOf 0x0703 p) 12 8) = w at *
  simp only [h0, hz, h4, h8, islandOf_srcOf, hupd, hsig, hfuse, hpend, hsize, secVersion, Nat.not_lt.2 hroll, if_false, Bool.or_false]
  cases hx : (s.started 0x0703 p).mgmt.upd with
  | none =>
    simp only [Bool.false_eq_true, if_false]
    rfl
  | some x =>
    simp only [hmine x hx, Bool.not_true, Bool.false_eq_true, if_false]
    rfl

/-! ## UPD_ACTIVATE -/

/-- An activation recorded for a later tick. -/
def State.scheduled (s : State) (i : Island) (x : Nat) : State :=
  let d := s.nvm.dirs.at i
  let h := s.header i
  (s.setDir i { d.setInactive ⟨.ready, sha3 h, leAt h 8 4, leAt h 7 1⟩ with
    actTick := some x, wasCommitted := d.inactive.st == .committed }).setMgmt { s.mgmt with
      upd := s.mgmt.upd.filter fun u => u.island != i }

/-- The writes of the commit reserved, where the device lives on its reserve. -/
def State.reserveCommit (s : State) (i : Island) : State :=
  if s.energy.aux then s
  else s.setEnergy { s.energy with reserved := s.energy.reserved ++ [(commitKey i, 6 + s.fusesToBlow i)] }

/-- Both. -/
def State.activated (s : State) (i : Island) (x : Nat) : State :=
  (s.scheduled i x).setEnergy { s.energy with
    reserved := s.energy.reserved ++ if s.energy.aux then [] else [(commitKey i, 6 + s.fusesToBlow i)] }

/-- UPD_ACTIVATE's shell. -/
def activateCmd : Cmd :=
  { plainCmd 0x0706 (· == 8) with
    signable := true, mustSign := fun _ => true, needs := fun _ _ => [.aon], waits := true,
    cost := fun s ps => match islandOf (leAt ps 0 1) with
      | some i => 318 + s.fusesToBlow i
      | none => 318 }

/-- UPD_ACTIVATE's own rules. -/
def activateOwn (s : State) (_ : Packet) (ps : List Byte) : Done :=
  let x := leAt ps 2 6
  let now := s.clock.meridian.toNat
  match islandOf (leAt ps 0 1) with
  | none => .done s stBadParam []
  | some i =>
    if !rsvdZero ps 1 1 then .done s stBadParam []
    else if s.actPending i then .done s stBusy []
    else if !s.mgmt.verified.at i then .done s stNotPermitted []
    else if x ≠ 0 ∧ (2147483648 : Int) < ahead x now then .done s stBadParam []
    else
      let t := ((s.scheduled i (effectTick x now)).reserveCommit i).postReq 7 0x0706 (.activate i)
      if i = .mgmt then .done t stOk (leBytes 6 (effectTick x now)) else .wait t none (leBytes 6 (effectTick x now))

theorem execUpdActivate_eq : exec (.updActivate p) s = .next (s.runCmd activateCmd p activateOwn) := rfl

/-- A directory's new record of the inactive slot leaves that slot's image in its place. -/
theorem State.scheduled_fuses (s : State) (j : Island) (x : Nat) : (s.scheduled j x).fusesToBlow j = s.fusesToBlow j := by
  have hset (d : SlotDir) (y : SlotInfo) : (d.setInactive y).activeB = d.activeB := by
    unfold SlotDir.setInactive
    split <;> rfl
  have hdir (n : Nvm) (d : SlotDir) : ((n.putDir j d).dirs.at j) = d := by cases j <;> rfl
  have hrest (n : Nvm) (d : SlotDir) : (n.putDir j d).fuses = n.fuses ∧ (n.putDir j d).imgA = n.imgA ∧ (n.putDir j d).imgB = n.imgB :=
    ⟨rfl, rfl, rfl⟩
  simp only [State.fusesToBlow, State.header, State.inactiveMem, State.scheduled, State.setMgmt_nvm, State.setDir, State.setNvm_nvm, hdir, hrest,
    hset]

theorem State.reserveCommit_scheduled (s : State) (j : Island) (x : Nat) : (s.scheduled j x).reserveCommit j = s.activated j x := by
  have he : (s.scheduled j x).energy = s.energy := rfl
  rw [State.reserveCommit, State.activated, s.scheduled_fuses, he]
  generalize s.scheduled j x = t at *
  cases ha : s.energy.aux
  · rfl
  · simp only [if_true, List.append_nil, ← he]
    rfl

theorem activateOwn_ok {j : Island} {x x' : Nat} (h0 : leAt ps 0 1 = (srcOf j).toNat) (hz : rsvdZero ps 1 1 = true) (h2 : leAt ps 2 6 = x)
    (hact : s.actPending j = false) (hver : s.mgmt.verified.at j = true)
    (hx : x = 0 ∨ ahead x s.clock.meridian.toNat ≤ 2147483648) (hx' : effectTick x s.clock.meridian.toNat = x') : activateOwn s p ps =
      if j = .mgmt then .done ((s.activated j x').postReq 7 0x0706 (.activate j)) stOk (leBytes 6 x')
      else .wait ((s.activated j x').postReq 7 0x0706 (.activate j)) none (leBytes 6 x') := by
  have hlate : ¬ (x ≠ 0 ∧ (2147483648 : Int) < ahead x s.clock.meridian.toNat) := by omega
  simp only [activateOwn, h0, islandOf_srcOf, hz, h2, hact, hver, hlate, hx', State.reserveCommit_scheduled, Bool.not_true,
    Bool.false_eq_true, if_false]

theorem State.TakenFrom.activated (h : u.TakenFrom v op p) (j : Island) (x : Nat) : (u.activated j x).TakenFrom (v.activated j x) op p :=
  h.map (fun t => t.activated j x) fun _ _ _ => rfl

/-- A signed command that waits for its request's event. -/
theorem State.Takes.signedBegins (h : s.Takes op p cost needs) (hs : s.Signed op p n) (he : exec i s = .next (s.runCmd c p own))
    (hc : c.Sealed s op p n cost needs) {isl : Option Island} {res : List Byte}
    (ho : own ((s.taken op p).countAccepted (leAt (s.paramsOf op p) n 8)) p ((s.paramsOf op p).take n) = .wait v isl res)
    (hv : u.TakenFrom v op p) (hu : u.win.mem = s.win.mem) (hq : u.mgmt.queue = s.mgmt.queue) :
    ∃ t, exec i s = .next t ∧ (s.Verifies op p n → State.Waits s u t op p cost isl none res) ∧
      (¬ s.Verifies op p n → (s.started op p).Replied t op p stAuthFail []) := by
  obtain ⟨via, hok, hbad⟩ := h.signedRun (own := own) hs hc
  refine ⟨_, he, fun hver => ?_, hbad⟩
  obtain rfl := hc.opcode
  rw [hok hver, ho]
  exact State.outstanding_waits h hv hu hq via isl none res

theorem activate_sealed {j : Island} (h : s.Takes 0x0706 p (318 + s.fusesToBlow j) [.aon])
    (h0 : leAt ((s.paramsOf 0x0706 p).take 8) 0 1 = (srcOf j).toNat) (hw : s.NoneWaits 0x0706) :
    activateCmd.Sealed s 0x0706 p 8 (318 + s.fusesToBlow j) [.aon] where
  opcode := rfl
  signable := rfl
  len := rfl
  right := (s.taken_rightOf 0x0706 p 0x0706).trans h.right
  fits := rfl
  cost := by
    intro w hw
    have hf : w.fusesToBlow j = s.fusesToBlow j := by
      rcases hw with rfl | rfl <;> simp only [State.fusesToBlow, State.header, State.inactiveMem, State.countAccepted, State.setNvm_nvm,
        State.taken_nvm]
      rfl
    simp only [activateCmd, h0, islandOf_srcOf, hf]
  needs := fun _ => rfl
  reads := fun _ => rfl
  waits := fun _ => hw

theorem execUpdActivate_signed {j : Island} {x : Nat} (hx48 : x < 281474976710656) (hact : s.actPending j = false)
    (hver : s.mgmt.verified.at j = true) (hx : x = 0 ∨ ahead x s.clock.meridian.toNat ≤ 2147483648) (hw : s.NoneWaits 0x0706)
    (hs : s.Signed 0x0706 p 8) (h : s.Takes 0x0706 p (318 + s.fusesToBlow j) [.aon])
    (hp : (s.paramsOf 0x0706 p).take 8 = [srcOf j, 0] ++ leBytes 6 x) :
    let x' := effectTick x s.clock.meridian.toNat
    let u := (((s.touchUpd p).countAccepted (leAt (s.paramsOf 0x0706 p) 8 8)).activated j x').postReq 7 0x0706 (.activate j)
    (j = .mgmt → s.SignedCompletes u (.updActivate p) 0x0706 p 8 (leBytes 6 x')) ∧
      (j ≠ .mgmt → ∃ t, exec (.updActivate p) s = .next t ∧
        (s.Verifies 0x0706 p 8 → State.Waits s u t 0x0706 p (318 + s.fusesToBlow j) none none (leBytes 6 x')) ∧
        (¬ s.Verifies 0x0706 p 8 → (s.touchUpd p).Replied t 0x0706 p stAuthFail [])) := by
  intro x' u
  have h0 : leAt ((s.paramsOf 0x0706 p).take 8) 0 1 = (srcOf j).toNat := by
    rw [hp]
    simp [leAt, leVal]
  have hz : rsvdZero ((s.paramsOf 0x0706 p).take 8) 1 1 = true := by
    rw [hp]
    rfl
  have h2 : leAt ((s.paramsOf 0x0706 p).take 8) 2 6 = x := by
    rw [hp, leAt_append_right _ _ (by simp)]
    simp
    omega
  have hpend : ((s.taken 0x0706 p).countAccepted (leAt (s.paramsOf 0x0706 p) 8 8)).actPending j = false := by
    simp only [State.actPending, State.countAccepted, State.setNvm_nvm, State.taken_nvm]
    exact hact
  have hclock : ((s.taken 0x0706 p).countAccepted (leAt (s.paramsOf 0x0706 p) 8 8)).clock = s.clock := by simp [State.countAccepted]
  have hmgmt : ((s.taken 0x0706 p).countAccepted (leAt (s.paramsOf 0x0706 p) 8 8)).mgmt.verified = s.mgmt.verified := by
    simp [State.countAccepted, State.taken_mgmt]
  have ho := activateOwn_ok (p := p) h0 hz h2 hpend (by rw [hmgmt]; exact hver) (by rw [hclock]; exact hx) (by rw [hclock])
  have hv : u.TakenFrom ((((s.taken 0x0706 p).countAccepted (leAt (s.paramsOf 0x0706 p) 8 8)).activated j x').postReq 7 0x0706 (.activate j))
      0x0706 p :=
    (((s.taken_from 0x0706 p).countAccepted _).activated j x').postReq (by decide) _ _
  have hu : u.win.mem = s.win.mem := by
    rw [State.postReq_mem]
    rfl
  have hq : u.mgmt.queue = s.mgmt.queue ∧ u.mgmt.replies = s.mgmt.replies := by
    rw [State.postReq_mgmt]
    exact ⟨rfl, rfl⟩
  refine ⟨fun hj => ?_, fun hj => ?_⟩
  · exact h.signed hs execUpdActivate_eq (activate_sealed h h0 hw) (ho.trans (if_pos hj)) hv hu hq.1 hq.2
  · exact h.signedBegins hs execUpdActivate_eq (activate_sealed h h0 hw) (ho.trans (if_neg hj)) hv hu hq.1

end

/-- Settles O12: the tick's branches are those of the attestation's state; each signed command is its shell with its counter accepted. -/
theorem attestationAndSignedCommandsTakeEffect : Obligations.AttestationAndSignedCommandsTakeEffect := by
  refine ⟨⟨fun s p hlen h hr => execSecAttest_waits hlen h hr, fun s a ha hup hn => ⟨fun ho ht => ?_, fun ho ht => ?_, fun st res ho => ?_⟩⟩,
    fun s p j => ⟨fun es hne h16 hr hroom hs h hp => execSecGrant_completes hne h16 hr hroom hs h hp,
      fun len ver hver hmin hmax hroll howns hact hs h hp => execUpdBegin_completes hver hmin hmax hroll howns hact hs h hp,
      fun x hx48 hact hver hx hw hs h hp => execUpdActivate_signed hx48 hact hver hx hw hs h hp⟩⟩
  · simp [State.attestTick, ha, hup, ho, Nat.not_lt.2 ht]
  · obtain ⟨hnonce, hmer⟩ := s.attestRecord_nonce hn
    rcases hsign : Mldsa.sign s.nvm.seed (sha3 (s.attestRecord a.nonce)) (leBytes 32 (Config.freeBits 256 s.free).toNat) with ⟨sig, n⟩
    refine ⟨hnonce, hmer, sig, n, hsign, ?_⟩
    simp only [State.attestTick, ha, hup, ho, ht, Bool.not_true, Bool.false_eq_true, if_false, if_true]
    rw [State.capture_eq hsign]
    cases sig <;> rfl
  · simp only [State.attestTick, ha, hup, ho, Bool.not_true, Bool.false_eq_true, if_false]
    rfl

end Sys2Proof.Machine
end


section
/-! PROOFS. UPD_CHUNK and UPD_VERIFY (14 R354, R355): the page store, the inactive slot's cells, and the image's verdict. -/

namespace Sys2Proof.Machine

open Sys2Proof

set_option Elab.async false

/-! ## The page store -/

theorem mem_partPut {l : List Host.Cell} {k : Nat} {v : Byte} {c : Host.Cell} (h : c ∈ partPut l k v) : c = (k, v) ∨ c ∈ l := by
  induction l with
  | nil => simpa [partPut] using h
  | cons d l ih =>
    obtain ⟨a, w⟩ := d
    unfold partPut at h
    split_ifs at h with h1 h2
    · simpa using h
    · rcases List.mem_cons.1 h with h | h
      · exact .inl h
      · exact .inr (List.mem_cons_of_mem _ h)
    · rcases List.mem_cons.1 h with h | h
      · exact .inr (h ▸ List.mem_cons_self)
      · rcases ih h with h | h
        · exact .inl h
        · exact .inr (List.mem_cons_of_mem _ h)

theorem partPut_pairwise {l : List Host.Cell} (k : Nat) (v : Byte) (h : l.Pairwise fun x y => x.1 < y.1) :
    (partPut l k v).Pairwise fun x y => x.1 < y.1 := by
  induction l with
  | nil => simp [partPut]
  | cons d l ih =>
    obtain ⟨a, w⟩ := d
    obtain ⟨hd, hl⟩ := List.pairwise_cons.1 h
    unfold partPut
    split_ifs with h1 h2
    · refine List.pairwise_cons.2 ⟨fun c hc => ?_, h⟩
      rcases List.mem_cons.1 hc with rfl | hc
      · exact h1
      · exact h1.trans (hd c hc)
    · subst h2
      exact List.pairwise_cons.2 ⟨hd, hl⟩
    · refine List.pairwise_cons.2 ⟨fun c hc => ?_, ih hl⟩
      rcases mem_partPut hc with rfl | hc
      · exact Nat.lt_of_le_of_ne (Nat.not_lt.1 h1) fun e => h2 e.symm
      · exact hd c hc

theorem partsPut_pairwise {l : List Host.Cell} (a : Nat) (bs : List Byte) (h : l.Pairwise fun x y => x.1 < y.1) :
    (partsPut l a bs).Pairwise fun x y => x.1 < y.1 := by
  induction bs generalizing l a with
  | nil => exact h
  | cons b bs ih => exact ih (a + 1) (partPut_pairwise a b h)

/-- Cells written one after the other: a cell that is written reads as the store has it. -/
theorem cellRead_foldl (ps : List Host.Cell) (m : List Host.Cell) (hp : ps.Pairwise fun x y => x.1 < y.1)
    (hm : m.Pairwise fun x y => x.1 < y.1) (a : Nat) :
    cellRead (ps.foldl (fun m c => cellWrite m c.1 c.2) m) a = ((ps.find? fun c => c.1 == a).map (·.2)).getD (cellRead m a) := by
  induction ps generalizing m with
  | nil => rfl
  | cons c ps ih =>
    obtain ⟨hc, hps⟩ := List.pairwise_cons.1 hp
    rw [List.foldl_cons, ih _ hps (cellWrite_pairwise _ _ hm), cellRead_cellWrite _ _ _ _ hm]
    by_cases he : c.1 = a
    · have hnone : (ps.find? fun c => c.1 == a) = none := List.find?_eq_none.2 fun x hx => by
        have := hc x hx
        simp
        omega
      simp [he, hnone]
    · rw [if_neg (Ne.symm he), List.find?_cons_of_neg (by simpa using he)]

/-- The part of a store that lies in some pages. -/
theorem find_pages (ps : List Host.Cell) (pages : List Nat) (a : Nat) :
    ((ps.filter fun c => pages.contains (c.1 / 256)).find? fun c => c.1 == a) =
      if a / 256 ∈ pages then ps.find? fun c => c.1 == a else none := by
  rw [List.find?_filter]
  split_ifs with h
  · refine congrArg (fun f => List.find? f ps) (funext fun c => ?_)
    by_cases e : c.1 = a
    · subst e
      simp [h]
    · simp [e]
  · refine List.find?_eq_none.2 fun c _ => ?_
    by_cases e : c.1 = a
    · subst e
      simp [h]
    · simp [e]

section
variable {s : State} {p : Packet} {u : UpdSession} {off : Nat} {bs : List Byte}

/-! ## UPD_CHUNK -/

/-- The images with an island's inactive slot replaced. -/
def Nvm.putInactive (n : Nvm) (i : Island) (m : List Host.Cell) : Nvm :=
  { n with
    imgA := if (n.dirs.at i).activeB then n.imgA.put i m else n.imgA
    imgB := if (n.dirs.at i).activeB then n.imgB else n.imgB.put i m }

theorem State.setInactiveMem_eq (s : State) (i : Island) (m : List Host.Cell) :
    s.setInactiveMem i m = s.setNvm (s.nvm.putInactive i m) := by
  unfold State.setInactiveMem Nvm.putInactive
  split <;> rfl

/-- The inactive slot with a chunk's whole pages. -/
def Nvm.chunked (n : Nvm) (u : UpdSession) (off : Nat) (bs : List Byte) (m : List Host.Cell) : Nvm :=
  (n.putInactive u.island (((u.chunk off bs).1.filter fun c => (u.chunk off bs).2.1.contains (c.1 / 256)).foldl
    (fun m c => cellWrite m c.1 c.2) m)).wrote ((u.chunk off bs).2.1.flatMap (imagePage u.island !(n.dirs.at u.island).activeB))

/-- The session with what remains in part. -/
def UpdSession.chunked (u : UpdSession) (off : Nat) (bs : List Byte) : UpdSession :=
  { u with
    parts := (u.chunk off bs).1.filter fun c => !(u.chunk off bs).2.1.contains (c.1 / 256)
    written := (u.written ++ (u.chunk off bs).2.1).dedup }

/-- The state after a chunk of a session. -/
def State.chunked (s : State) (u : UpdSession) (off : Nat) (bs : List Byte) : State :=
  (s.setNvm (s.nvm.chunked u off bs (s.inactiveMem u.island))).setMgmt { s.mgmt with upd := some (u.chunked off bs) }

theorem State.taken_upd (h : s.mgmt.upd = some u) (ho : u.owns p = true) {op : Nat} (hop : updateOp op = true) :
    (s.taken op p).mgmt.upd = some { u with last := s.now } := by
  simp [State.taken_mgmt, State.started, hop, h, ho]

/-- A chunk has the same effect before and after its packet is taken. -/
theorem State.TakenFrom.chunked {v w : State} {op : Nat} (h : v.TakenFrom w op p) (u : UpdSession) (off : Nat) (bs : List Byte) :
    (v.chunked u off bs).TakenFrom (w.chunked u off bs) op p := by
  have hn : w.nvm = v.nvm := h.only.2 .nvm (by simp)
  have hi : w.inactiveMem u.island = v.inactiveMem u.island := by simp only [State.inactiveMem, hn]
  rw [State.chunked, State.chunked, hn, hi]
  exact h.map (fun t => (t.setNvm (v.nvm.chunked u off bs (v.inactiveMem u.island))).setMgmt { t.mgmt with upd := some (u.chunked off bs) })
    fun _ _ _ => rfl

/-- UPD_CHUNK's shell. -/
def chunkCmd : Cmd :=
  let pages : State → List Byte → Nat := fun s ps => match s.mgmt.upd with
    | some u => (u.chunk (leAt ps 0 4) (ps.drop 4)).2.1.length
    | none => 0
  { plainCmd 0x0704 (fun n => 5 ≤ n && n ≤ 244) with cost := fun s ps => 6 * pages s ps }

/-- UPD_CHUNK's own rules. -/
def chunkOwn (s : State) (p : Packet) (ps : List Byte) : Done :=
  match s.mgmt.upd with
  | none => .done s stNotPermitted []
  | some u =>
    let off := leAt ps 0 4
    let bs := ps.drop 4
    if !u.owns p then .done s stNotPermitted []
    else if u.len < off + bs.length then .done s stBadParam []
    else if 16 < (u.chunk off bs).2.2.length then .done s stBusy []
    else .done (s.chunked u off bs) stOk []

theorem execUpdChunk_eq : exec (.updChunk p) s = .next (s.runCmd chunkCmd p chunkOwn) := by
  have he : chunkOwn = fun s p ps => match s.mgmt.upd with
    | none => .done s stNotPermitted []
    | some u =>
      let off := leAt ps 0 4
      let bs := ps.drop 4
      let (parts, full, part) := u.chunk off bs
      if !u.owns p then .done s stNotPermitted []
      else if u.len < off + bs.length then .done s stBadParam []
      else if 16 < part.length then .done s stBusy []
      else
        let done := parts.filter fun c => full.contains (c.1 / 256)
        let mem := done.foldl (fun m c => cellWrite m c.1 c.2) (s.inactiveMem u.island)
        let s := s.setInactiveMem u.island mem
        let s := s.setNvm (s.nvm.wrote (full.flatMap (imagePage u.island !(s.nvm.dirs.at u.island).activeB)))
        .done (s.setMgmt { s.mgmt with
          upd := some { u with
            parts := parts.filter fun c => !full.contains (c.1 / 256), written := (u.written ++ full).dedup } })
          stOk [] := by
    funext s p ps
    unfold chunkOwn
    cases s.mgmt.upd with
    | none => rfl
    | some u =>
      simp only [State.setInactiveMem_eq]
      rfl
  rw [he]
  rfl

theorem execUpdChunk_completes (hu : s.mgmt.upd = some u) (ho : u.owns p = true) (hoff : off < 4294967296) (hne : bs ≠ [])
    (h240 : bs.length ≤ 240) (hin : off + bs.length ≤ u.len) (h16 : (u.chunk off bs).2.2.length ≤ 16)
    (h : s.Takes 0x0704 p (6 * (u.chunk off bs).2.1.length) []) (hp : s.paramsOf 0x0704 p = leBytes 4 off ++ bs) :
    s.Completes ((s.touchUpd p).chunked { u with last := s.now } off bs) (.updChunk p) 0x0704 p [] := by
  have hpos : 0 < bs.length := List.length_pos_iff.2 hne
  have h0 : leAt (s.paramsOf 0x0704 p) 0 4 = off := by
    rw [hp, leAt_append_left _ (by simp), leAt_leBytes]
    omega
  have hd : (s.paramsOf 0x0704 p).drop 4 = bs := by
    rw [hp, List.drop_left' (by simp)]
  have hlen : (decide (5 ≤ (s.paramsOf 0x0704 p).length) && decide ((s.paramsOf 0x0704 p).length ≤ 244)) = true := by
    simp [hp]
    omega
  have hupd := State.taken_upd hu ho (op := 0x0704) rfl
  have ho' : ({ u with last := s.now } : UpdSession).owns p = true := ho
  have hc : ({ u with last := s.now } : UpdSession).chunk off bs = u.chunk off bs := rfl
  refine h.completes execUpdChunk_eq ((needsCmd_plain (m16 := false) h _).withCost ?_) hlen ?_ ((s.taken_from 0x0704 p).chunked _ off bs)
  · simp only [hupd, h0, hd, hc]
  · simp only [chunkOwn, hupd, h0, hd, ho', hc, Nat.not_lt.2 hin, Nat.not_lt.2 h16, Bool.not_true, Bool.false_eq_true, if_false]

/-- What a chunk leaves of the NVM. -/
theorem State.chunked_nvm (s : State) (u : UpdSession) (off : Nat) (bs : List Byte) (himg : s.imagesOk)
    (hsort : u.parts.Pairwise fun x y => x.1 < y.1) :
    let v := s.chunked u off bs
    let pages := (u.chunk off bs).2.1
    let slotB := !(s.nvm.dirs.at u.island).activeB
    v.nvm = { s.nvm with imgA := v.nvm.imgA, imgB := v.nvm.imgB, bad := v.nvm.bad } ∧
    (∀ g, g ∈ v.nvm.bad ↔ g ∈ s.nvm.bad ∧ g ∉ pages.flatMap (imagePage u.island slotB)) ∧
    (∀ i, (i ≠ u.island ∨ slotB = true) → v.nvm.imgA.at i = s.nvm.imgA.at i) ∧
    (∀ i, (i ≠ u.island ∨ slotB = false) → v.nvm.imgB.at i = s.nvm.imgB.at i) ∧
    (∀ a, cellRead (v.inactiveMem u.island) a = if a / 256 ∈ pages then
      ((((u.chunk off bs).1.find? fun c => c.1 == a).map (·.2)).getD (cellRead (s.inactiveMem u.island) a))
      else cellRead (s.inactiveMem u.island) a) := by
  intro v pages slotB
  have hput (x : Quad (List Host.Cell)) (i j : Island) (m : List Host.Cell) : (x.put i m).at j = if j = i then m else x.at j := by
    cases i <;> cases j <;> rfl
  have hm : v.inactiveMem u.island = ((u.chunk off bs).1.filter fun c => pages.contains (c.1 / 256)).foldl
      (fun m c => cellWrite m c.1 c.2) (s.inactiveMem u.island) := by
    have hdirs : v.nvm.dirs = s.nvm.dirs := rfl
    rw [State.inactiveMem, hdirs]
    by_cases hb : (s.nvm.dirs.at u.island).activeB = true
    · rw [if_pos hb]
      simp only [v, State.chunked, State.setMgmt_nvm, State.setNvm_nvm, Nvm.chunked, Nvm.wrote, Nvm.putInactive, if_pos hb, hput]
      rfl
    · rw [if_neg hb]
      simp only [v, State.chunked, State.setMgmt_nvm, State.setNvm_nvm, Nvm.chunked, Nvm.wrote, Nvm.putInactive, if_neg hb, hput]
      rfl
  refine ⟨rfl, fun g => ?_, fun i hi => ?_, fun i hi => ?_, fun a => ?_⟩
  · simp [v, State.chunked, Nvm.chunked, Nvm.wrote, Nvm.putInactive, pages, slotB]
  · show (if (s.nvm.dirs.at u.island).activeB then _ else _ : Quad (List Host.Cell)).at i = _
    split_ifs with hb
    · rw [hput, if_neg]
      rintro rfl
      simp [slotB, hb] at hi
    · rfl
  · show (if (s.nvm.dirs.at u.island).activeB then _ else _ : Quad (List Host.Cell)).at i = _
    split_ifs with hb
    · rfl
    · rw [hput, if_neg]
      rintro rfl
      simp [slotB, hb] at hi
  · have hwf : Memory.wf (s.inactiveMem u.island) = true := by
      unfold State.inactiveMem
      split
      · exact (himg _).1
      · exact (himg _).2
    have hsorted : (u.chunk off bs).1.Pairwise fun x y => x.1 < y.1 := partsPut_pairwise off bs hsort
    rw [hm, cellRead_foldl _ _ (hsorted.filter _) ((Memory.wf_iff _).1 hwf).1, find_pages]
    split_ifs <;> rfl

/-! ## UPD_VERIFY -/

/-- The sessions of this owner count the command; nothing else of them changes. -/
theorem State.taken_touched (howns : ∀ u, s.mgmt.upd = some u → u.owns p = true) {op : Nat} (hop : updateOp op = true) :
    (s.taken op p).mgmt.upd = s.mgmt.upd.map fun u => { u with last := s.now } := by
  simp only [State.taken_mgmt, State.started, hop, if_true, State.touchUpd_upd]
  cases hu : s.mgmt.upd with
  | none => rfl
  | some u => simp only [Option.map_some, howns u hu, if_true]

/-- UPD_VERIFY's session of this island is complete, or the slot holds an image that was once in use. -/
def State.mayVerify (s : State) (i : Island) : Prop :=
  (∀ u, s.mgmt.upd.filter (fun u => u.island == i) = some u → ∀ g, g < ceilDiv u.len 256 → g ∈ u.written) ∧
    (s.mgmt.upd.filter (fun u => u.island == i) = none →
      (s.nvm.dirs.at i).inactive.st = .committed ∨ (s.nvm.dirs.at i).inactive.st = .failed)

variable {i : Island} {w : State} {ps : List Byte}

/-- UPD_VERIFY's shell. -/
def verifyCmd : Cmd :=
  { plainCmd 0x0705 (· == 4) with
    cost := fun s ps => match islandOf (leAt ps 0 1) with
      | some i => 300 * s.imageSigs i + ceilDiv (s.verifyLen i) 10240
      | none => 0
    reads := fun s ps => match islandOf (leAt ps 0 1) with
      | some i => (List.range (ceilDiv (s.verifyLen i) 256)).flatMap (imagePage i !(s.nvm.dirs.at i).activeB)
      | none => [] }

/-- A session that is another owner's. -/
def foreignUpd (p : Packet) : Option UpdSession → Bool
  | some u => !u.owns p
  | none => false

/-- Whether there is an image to verify. -/
def State.verifiable (s : State) (i : Island) : Option UpdSession → Bool
  | some u => decide ((List.range (ceilDiv u.len 256)).all u.written.contains)
  | none => (s.nvm.dirs.at i).inactive.st == .committed || (s.nvm.dirs.at i).inactive.st == .failed

/-- The image marked as verified, with its digest and version, or the status that fails. -/
def State.judged (s : State) (i : Island) : Option Nat → Done
  | some st => .done s st []
  | none => .done (s.setMgmt { s.mgmt with verified := s.mgmt.verified.put i true }) stOk (sha3 (s.header i) ++ leBytes 4 (leAt (s.header i) 8 4))

/-- UPD_VERIFY's own rules. -/
def verifyOwn (s : State) (p : Packet) (ps : List Byte) : Done :=
  match islandOf (leAt ps 0 1) with
  | none => .done s stBadParam []
  | some i =>
    let own := s.mgmt.upd.filter fun u => u.island == i
    if !rsvdZero ps 1 3 then .done s stBadParam []
    else if foreignUpd p s.mgmt.upd || !s.verifiable i own then .done s stNotPermitted []
    else s.judged i (s.imageStatus i (own.map (·.len)) (own.map (·.version)))

theorem execUpdVerify_eq : exec (.updVerify p) s = .next (s.runCmd verifyCmd p verifyOwn) := by
  have he : verifyOwn = fun s p ps => match islandOf (leAt ps 0 1) with
    | none => .done s stBadParam []
    | some i =>
      if !rsvdZero ps 1 3 then .done s stBadParam []
      else
        let own := s.mgmt.upd.filter fun u => u.island == i
        let foreign := match s.mgmt.upd with
          | some u => !u.owns p
          | none => false
        let st := (s.nvm.dirs.at i).inactive.st
        let ready := match own with
          | some u => decide ((List.range (ceilDiv u.len 256)).all u.written.contains)
          | none => st == .committed || st == .failed
        if foreign || !ready then .done s stNotPermitted []
        else match s.imageStatus i (own.map (·.len)) (own.map (·.version)) with
          | some st => .done s st []
          | none =>
            let h := s.header i
            .done (s.setMgmt { s.mgmt with verified := s.mgmt.verified.put i true }) stOk (sha3 h ++ leBytes 4 (leAt h 8 4)) := rfl
  rw [he]
  rfl

theorem State.taken_verifyLen (howns : ∀ u, s.mgmt.upd = some u → u.owns p = true) (i : Island) :
    (s.taken 0x0705 p).verifyLen i = s.verifyLen i := by
  have hh : (s.taken 0x0705 p).header i = s.header i := by simp only [State.header, State.inactiveMem, State.taken_nvm]
  rw [State.verifyLen, State.verifyLen, State.imageSigs, State.imageSigs, hh, State.taken_touched howns rfl]
  cases s.mgmt.upd <;> rfl

theorem verify_plain (howns : ∀ u, s.mgmt.upd = some u → u.owns p = true)
    (h : s.Takes 0x0705 p (300 * s.imageSigs i + ceilDiv (s.verifyLen i) 10240) []) (h0 : leAt (s.paramsOf 0x0705 p) 0 1 = (srcOf i).toNat)
    (hr : s.Readable ((List.range (ceilDiv (s.verifyLen i) 256)).flatMap (imagePage i !(s.nvm.dirs.at i).activeB))) :
    verifyCmd.Plain s 0x0705 p (300 * s.imageSigs i + ceilDiv (s.verifyLen i) 10240) [] := by
  have hlen := State.taken_verifyLen howns i
  have hsig : (s.taken 0x0705 p).imageSigs i = s.imageSigs i := by
    simp only [State.imageSigs, State.header, State.inactiveMem, State.taken_nvm]
  refine ⟨rfl, rfl, rfl, (s.taken_rightOf 0x0705 p 0x0705).trans h.right, ?_, rfl, rfl, ?_, nofun⟩
  · simp only [verifyCmd, h0, islandOf_srcOf, hsig, hlen]
  · simp only [verifyCmd, h0, islandOf_srcOf, hlen, State.taken_nvm]
    exact hr.taken

/-- The session of this island before and after the command counts for it. -/
theorem filter_touched (x : Option UpdSession) (i : Island) (t : Nat) :
    (x.map fun u => ({ u with last := t } : UpdSession)).filter (fun u => u.island == i) =
      (x.filter fun u => u.island == i).map fun u => { u with last := t } := by
  cases x with
  | none => rfl
  | some u => by_cases hi : (u.island == i) = true <;> simp [Option.filter, hi]

theorem verifyOwn_taken (howns : ∀ u, s.mgmt.upd = some u → u.owns p = true) (h0 : leAt ps 0 1 = (srcOf i).toNat)
    (hz : rsvdZero ps 1 3 = true)
    (hall : ∀ u, s.mgmt.upd.filter (fun u => u.island == i) = some u → ∀ g, g < ceilDiv u.len 256 → g ∈ u.written)
    (hnone : s.mgmt.upd.filter (fun u => u.island == i) = none →
      (s.nvm.dirs.at i).inactive.st = .committed ∨ (s.nvm.dirs.at i).inactive.st = .failed) :
    let own := s.mgmt.upd.filter fun u => u.island == i
    verifyOwn (s.taken 0x0705 p) p ps = (s.taken 0x0705 p).judged i (s.imageStatus i (own.map (·.len)) (own.map (·.version))) := by
  intro own
  have hupd := State.taken_touched howns (op := 0x0705) rfl
  have hfor : foreignUpd p ((s.taken 0x0705 p).mgmt.upd) = false := by
    rw [hupd]
    cases hu : s.mgmt.upd with
    | none => rfl
    | some u =>
      have := howns u hu
      rw [Option.map_some, foreignUpd, Bool.not_eq_false']
      exact this
  have hown : (s.taken 0x0705 p).mgmt.upd.filter (fun u => u.island == i) = own.map fun u => { u with last := s.now } := by
    rw [hupd, filter_touched]
  have hmay : (s.taken 0x0705 p).verifiable i (own.map fun u => { u with last := s.now }) = true := by
    cases ho : own with
    | none =>
      simp only [Option.map_none, State.verifiable, State.taken_nvm]
      simpa using hnone ho
    | some u =>
      simp only [Option.map_some, State.verifiable, decide_eq_true_eq, List.all_eq_true, List.mem_range, List.contains_iff_mem]
      exact hall u ho
  have hst : (s.taken 0x0705 p).imageStatus i = s.imageStatus i := by
    have hmem : (s.taken 0x0705 p).inactiveMem i = s.inactiveMem i := by simp only [State.inactiveMem, State.taken_nvm]
    have hsig : (s.taken 0x0705 p).sigEntryOk i = s.sigEntryOk i := by
      funext k
      simp only [State.sigEntryOk, State.entryOk, State.anchor, hmem, State.taken_nvm]
    funext l v
    simp only [State.imageStatus, State.header, hmem, hsig, State.taken_nvm] <;> rfl
  simp only [verifyOwn, h0, islandOf_srcOf, hz, hown, hfor, hmay, hst, Option.map_map, Bool.not_true, Bool.or_self, Bool.false_eq_true, if_false]
  rfl

end

/-- Settles O13: a chunk is one fold of cell writes over the whole pages; a verification is one verdict on the slot. -/
theorem chunksFillPagesAndVerifyMarksTheSlot : Obligations.ChunksFillPagesAndVerifyMarksTheSlot := by
  refine fun s p => ⟨fun u off bs hu ho hsort himg hoff hne h240 hin h16 h hp => ?_, fun i => ?_⟩
  · obtain ⟨hnvm, hbad, hA, hB, hcells⟩ := (s.touchUpd p).chunked_nvm { u with last := s.now } off bs himg hsort
    refine ⟨_, execUpdChunk_completes hu ho hoff hne h240 hin h16 h hp, ⟨rfl, fun q hq => by cases q <;> first | rfl | simp at hq⟩,
      hnvm, hbad, hA, hB, hcells, rfl, _, rfl, rfl, rfl, rfl, rfl, fun g => ?_⟩
    simp [UpdSession.chunked, UpdSession.chunk]
  · intro own howns hall hnone h hp hr v
    have h0 : leAt (s.paramsOf 0x0705 p) 0 1 = (srcOf i).toNat := by
      rw [hp]
      simp [leAt, leVal]
    have hz : rsvdZero (s.paramsOf 0x0705 p) 1 3 = true := by
      rw [hp]
      rfl
    have hown : verifyOwn (s.taken 0x0705 p) p (s.paramsOf 0x0705 p) =
        (s.taken 0x0705 p).judged i (s.imageStatus i (own.map (·.len)) (own.map (·.version))) := verifyOwn_taken howns h0 hz hall hnone
    have hheader : (s.taken 0x0705 p).header i = s.header i := by simp only [State.header, State.inactiveMem, State.taken_nvm]
    have hl : (s.paramsOf 0x0705 p).length = 4 := by rw [hp]; rfl
    refine ⟨fun u hu => ?_, ?_⟩
    · simp only [v, State.touchUpd_upd, Option.mem_def, Option.map_eq_some_iff] at hu
      obtain ⟨x, hx, rfl⟩ := hu
      rw [if_pos (howns x hx)]
    · have hver := verify_plain howns h h0 hr
      cases hst : s.imageStatus i (own.map (·.len)) (own.map (·.version)) with
      | none =>
        rw [hst] at hown
        refine h.completes execUpdVerify_eq hver (by rw [hl]; rfl) (hown.trans ?_) ((s.taken_from 0x0705 p).map (fun t =>
          t.setMgmt { t.mgmt with verified := s.mgmt.verified.put i true }) fun _ _ _ => rfl) rfl rfl rfl
        rw [State.judged, hheader, State.taken_mgmt]
      | some st =>
        rw [hst] at hown
        exact h.completes execUpdVerify_eq hver (by rw [hl]; rfl) hown (s.taken_from 0x0705 p) rfl rfl rfl

end Sys2Proof.Machine
end


section
/-! PROOFS. Commands that are turned away (12 R298 to R300, R304, R305; 03 R57, R58; 14 R353): which check refuses, and that nothing else
changes. -/

namespace Sys2Proof.Machine

open Sys2Proof

set_option Elab.async false

section
variable {s u v w : State} {op : Nat} {p : Packet} {own : State → Packet → List Byte → Done} {c : Cmd} {cost n : Nat}
  {i : Instr} {ps : List Byte} {st : Nat} {res : List Byte} {len : Nat → Bool} {isl : Island}

/-! ## Every command is a shell with the sender's right of its opcode -/

theorem exec_shell {i : Instr} (h : commandOf i = some (op, p)) : ∃ (c : Cmd) (own : State → Packet → List Byte → Done),
    c.op = op ∧ (∀ s, c.right s p = senderRight op s p) ∧ ∀ s, exec i s = .next (s.runCmd c p own) := by
  cases i <;> simp only [commandOf, reduceCtorEq, Option.some.injEq, Prod.mk.injEq, Option.ite_none_left_eq_some,
    Option.ite_none_right_eq_some] at h
  case fabTimeRead => obtain ⟨hk, rfl, rfl⟩ := h; exact ⟨_, _, rfl, fun _ => rfl, fun _ => congrArg Host.Outcome.next (if_neg hk)⟩
  case fabTimeSetEvent => obtain ⟨hk, rfl, rfl⟩ := h; exact ⟨_, _, rfl, fun _ => rfl, fun _ => congrArg Host.Outcome.next (if_pos hk)⟩
  case fabTimeClearEvent => obtain ⟨hk, rfl, rfl⟩ := h; exact ⟨_, _, rfl, fun _ => rfl, fun _ => congrArg Host.Outcome.next (if_pos hk)⟩
  case fabTimeSetCount => obtain ⟨hk, rfl, rfl⟩ := h; exact ⟨_, _, rfl, fun _ => rfl, fun _ => congrArg Host.Outcome.next (if_pos hk)⟩
  all_goals
    obtain ⟨rfl, rfl⟩ := h
    exact ⟨_, _, rfl, fun _ => rfl, fun _ => rfl⟩

theorem State.taken_senderRight (s : State) (op : Nat) (p : Packet) : senderRight op (s.taken op p) p = senderRight op s p := by
  have ht : fabTimeRight (s.taken op p) p = fabTimeRight s p := by
    simp [fabTimeRight, State.hasRight, State.rights, State.addrRights, State.taken_mgmt]
  rw [senderRight, senderRight, assignRight_taken, ht, State.taken_rightOf]

/-- While MGMT takes no commands a command's step comes to nothing. -/
theorem State.runCmd_idle (h : s.mgmtUp = false ∨ s.ready = false ∨ ¬ s.NoneWaits 0x0701) : s.runCmd c p own = s := by
  have ht : s.takes = false := by
    rcases h with h | h | h
    · simp [State.takes, h]
    · simp [State.takes, h]
    · simp only [State.NoneWaits, not_forall, not_not] at h
      obtain ⟨o, ho, e⟩ := h
      have : (s.mgmt.outst.any fun o => o.op == 0x0701) = true := List.any_eq_true.2 ⟨o, ho, by simp [e]⟩
      simp [State.takes, this]
  simp [State.runCmd, State.take, ht]

/-- A packet whose header is not in order ends no assembly. -/
theorem State.runCmd_badHeader (hm : s.memoryOk) (hl : ∀ r ∈ s.mgmt.replies, r.bytes.length ≤ 256) (hup : s.mgmtUp = true)
    (hr : s.ready = true) (hi : s.NoneWaits 0x0701) (hn : s.Next c.op p) (hs : headerStatus p = some st)
    (ha : ∀ a ∈ s.mgmt.assemblies, a.src = p.src → a.op = c.op → a.tag ≠ p.tag) :
    (s.started c.op p).Replied (s.runCmd c p own) c.op p st [] := by
  have ht : s.takes = true := by simpa [State.takes, hup, hr, State.NoneWaits] using hi
  obtain ⟨via, e⟩ : ∃ via, s.take c.op p = some (s.setMgmt { s.mgmt with queue := s.queueRest }, via) := by
    simp only [State.take, ht, ↓reduceIte]
    rcases hn with e | ⟨q, qs, e, hq, -⟩
    · refine ⟨false, ?_⟩
      have : s.queueRest = s.mgmt.queue := by simp [State.queueRest, e]
      rw [e, this]
      rfl
    · exact ⟨true, by simp [State.queueRest, e, hq]⟩
  have hnone (t : State) (h : t.mgmt.assemblies = s.mgmt.assemblies) : t.assembled c.op p = (t, p.params) := by
    have : (t.mgmt.assemblies.find? fun a => a.src == p.src && a.op == c.op && a.tag == p.tag) = none := by
      rw [h, List.find?_eq_none]
      intro a hmem
      simpa using ha a hmem
    rw [State.assembled, this]
  have hbegin : s.taken c.op p = (s.setMgmt { s.mgmt with queue := s.queueRest }).begin c.op p := by
    have hb : ((s.setMgmt { s.mgmt with queue := s.queueRest }).begin c.op p).mgmt.assemblies = s.mgmt.assemblies := by
      rw [State.begin, State.emitCommand, State.started_eq]
      show (State.emit _ _ _ _ _).mgmt.assemblies = _
      rw [State.emit_mgmt]
      rfl
    rw [State.taken, hnone _ hb]
  have hu : (s.started c.op p).win = s.win ∧ (s.started c.op p).mgmt.replies = s.mgmt.replies ∧
      (s.started c.op p).mgmt.queue = s.mgmt.queue := by
    rw [s.started_eq]
    exact ⟨rfl, rfl, rfl⟩
  simp only [State.runCmd, e, State.runTaken, hs]
  rw [← hbegin]
  refine State.finish_replied (s.taken_from c.op p) (by rw [State.memoryOk, hu.1]; exact hm) (by rw [hu.2.1]; exact hl) fun x hx => ?_
  rw [State.queueRest, hu.2.2] at hx
  rw [State.packetOf_congr (s := s) x (fun a _ => by rw [hu.1]), hu.2.1]
  exact hn.rest x hx

/-- A check of the interpreter that refuses a whole packet; the state after it is the one in which the packet has been taken. -/
theorem State.Delivers.turned (h : s.Delivers op p) (hop : c.op = op)
    (he : (s.taken op p).admitCmd c p (s.paramsOf op p) = .error (s.taken op p, st, res)) :
    (s.started op p).Replied (s.runCmd c p own) op p st res := by
  subst hop
  refine h.refused he (s.taken_from c.op p) ?_ ?_ ?_ <;> rw [s.started_eq] <;> rfl

theorem State.Delivers.noRight (h : s.Delivers op p) (hop : c.op = op) (hr : c.right (s.taken op p) p = false) :
    ∃ st, (s.started op p).Replied (s.runCmd c p own) op p st [] ∧ (st = stNotPermitted ∨ st = stBadLength) := by
  by_cases hl : (!(c.len (s.paramsOf op p).length || (c.signable && decide (trailerLen ≤ (s.paramsOf op p).length) &&
      c.len ((s.paramsOf op p).length - trailerLen))) || !c.fits (if (c.signable && decide (trailerLen ≤ (s.paramsOf op p).length) &&
      c.len ((s.paramsOf op p).length - trailerLen)) = true then (s.paramsOf op p).take ((s.paramsOf op p).length - trailerLen)
        else s.paramsOf op p)) = true
  · exact ⟨stBadLength, h.turned hop (if_pos hl), .inr rfl⟩
  · refine ⟨stNotPermitted, h.turned hop ((if_neg hl).trans (if_pos ?_)), .inl rfl⟩
    rw [hr]
    rfl

/-! ## The governor -/

theorem Obs.count_at (o : Obs) (d : Ctr) (k : Nat) : (o.count d k).live.getD d.idx 0 = min (o.live.getD d.idx 0 + k) 0xFFFFFFFF := by
  have : d.idx < 48 := by cases d <;> decide
  simp [Obs.count, Vector.getD, this]

/-- An event is counted before and after a packet is taken. -/
theorem State.TakenFrom.count (h : u.TakenFrom v op p) (d : Ctr) (hd : d ≠ .trcDrop) : (u.count d).TakenFrom (v.count d) op p := by
  obtain ⟨⟨hpend, hpart⟩, hm, htr, hctr⟩ := h
  have ha := (State.assembled_congr (s := u) (t := u.count d) op p rfl).1
  refine ⟨⟨hpend, fun q hq => ?_⟩, by rw [ha]; exact hm, ?_, fun e he => ?_⟩
  · have := hpart q hq
    cases q <;> first | exact this | simp at hq
  · exact congrArg (fun o : Obs => { o with live := (v.count d).obs.live }) htr
  · by_cases hed : e = d
    · subst hed
      show (v.obs.count e 1).live.getD e.idx 0 = (u.obs.count e 1).live.getD e.idx 0
      rw [Obs.count_at, Obs.count_at, hctr e he]
    · show (v.obs.count d 1).live.getD e.idx 0 = (u.obs.count d 1).live.getD e.idx 0
      rw [Obs.count_other _ _ hed, Obs.count_other _ _ hed, hctr e he]

theorem State.taken_deferTicks (s : State) (op : Nat) (p : Packet) (k : Nat) : (s.taken op p).deferTicks k = s.deferTicks k := by
  simp [State.deferTicks, State.reserveLeft, State.taken_mgmt]

/-- A command whose cost is not within the governor's limit. -/
theorem State.Delivers.deferred (h : s.Delivers op p) (hop : c.op = op)
    (he : (s.taken op p).admitCmd c p (s.paramsOf op p) = (s.taken op p).deferral c ps) (hc : c.cost (s.taken op p) ps = cost) :
    ((s.started op p).count .energyDefer).Replied (s.runCmd c p own) op p stEnergyDeferred
      (if c.m16 then [] else leBytes 4 (s.deferTicks cost)) := by
  subst hop
  rw [State.deferral, hc, State.taken_deferTicks] at he
  refine h.refused he ((s.taken_from c.op p).count _ (by decide)) ?_ ?_ ?_ <;> rw [s.started_eq] <;> rfl

/-! ## Commands in order up to their cost, islands and opcode -/

/-- A packet without a trailer that passes the checks before its cost. -/
structure Cmd.Bare (c : Cmd) (s : State) (op : Nat) (p : Packet) : Prop where
  opcode : c.op = op
  len : c.len (s.paramsOf op p).length = true
  fits : c.fits (s.paramsOf op p) = true
  right : c.right (s.taken op p) p = true
  free : c.mustSign p.src = false
  unsigned : c.signable = false ∨ (pktSigned p = false ∧ (s.paramsOf op p).length < trailerLen)

/-- A packet with a trailer that passes the checks before its cost. -/
structure Cmd.Marked (c : Cmd) (s : State) (op : Nat) (p : Packet) (n : Nat) : Prop where
  opcode : c.op = op
  signable : c.signable = true
  len : c.len n = true
  fits : c.fits ((s.paramsOf op p).take n) = true
  right : c.right (s.taken op p) p = true

theorem Cmd.Bare.admitted (hc : c.Bare s op p) : (s.taken op p).admitCmd c p (s.paramsOf op p) =
    if s.admits (c.cost (s.taken op p) (s.paramsOf op p)) then (s.taken op p).admitRest c (s.paramsOf op p)
    else (s.taken op p).deferral c (s.paramsOf op p) := by
  rw [State.admitCmd_unsigned hc.len hc.fits hc.right hc.free hc.unsigned, State.taken_admits]

theorem Cmd.Bare.deferred (hc : c.Bare s op p) (h : s.Delivers op p) (hk : c.cost (s.taken op p) (s.paramsOf op p) = cost)
    (ha : s.admits cost = false) : ((s.started op p).count .energyDefer).Replied (s.runCmd c p own) op p stEnergyDeferred
      (if c.m16 then [] else leBytes 4 (s.deferTicks cost)) :=
  h.deferred hc.opcode (hc.admitted.trans (if_neg (by simp [hk, ha]))) hk

theorem Cmd.Marked.deferred (hc : c.Marked s op p n) (h : s.Delivers op p) (hs : s.Signed op p n)
    (hk : c.cost (s.taken op p) ((s.paramsOf op p).take n) = cost) (ha : s.admits cost = false) :
    ((s.started op p).count .energyDefer).Replied (s.runCmd c p own) op p stEnergyDeferred
      (if c.m16 then [] else leBytes 4 (s.deferTicks cost)) := by
  refine h.deferred hc.opcode ?_ hk
  rw [State.admitCmd_signed hc.signable hs.flag hs.length hc.len hc.fits hc.right, State.taken_admits, hk, ha]
  rfl

theorem Cmd.Bare.down (hc : c.Bare s op p) (h : s.Delivers op p) (hn : updateOp op = false)
    (ha : s.admits (c.cost (s.taken op p) (s.paramsOf op p)) = true)
    (hd : ((c.needs (s.taken op p) (s.paramsOf op p)).any fun i => !s.upAt i) = true) :
    s.Replied (s.runCmd c p own) op p stIslandDown [] := by
  have := h.turned (own := own) hc.opcode (hc.admitted.trans ((if_pos ha).trans (if_pos (by simpa only [State.taken_upAt] using hd))))
  rwa [s.started_of p hn] at this

theorem Cmd.Bare.busy (hc : c.Bare s op p) (h : s.Delivers op p) (hn : updateOp op = false)
    (ha : s.admits (c.cost (s.taken op p) (s.paramsOf op p)) = true)
    (hd : ((c.needs (s.taken op p) (s.paramsOf op p)).any fun i => !s.upAt i) = false) (hw : c.waits = true) (hbusy : ¬ s.NoneWaits op) :
    s.Replied (s.runCmd c p own) op p (if c.m16 then m16Answer op stBusy [] else (stBusy, [])).1
      (if c.m16 then m16Answer op stBusy [] else (stBusy, [])).2 := by
  have hout : (c.waits && (s.taken op p).mgmt.outst.any fun o => o.op == c.op) = true := by
    simp only [State.NoneWaits, not_forall, not_not] at hbusy
    obtain ⟨o, ho, e⟩ := hbusy
    rw [hw, State.taken_mgmt, hc.opcode, Bool.true_and]
    exact List.any_eq_true.2 ⟨o, ho, by simp [e]⟩
  have he := hc.admitted.trans ((if_pos ha).trans ((if_neg (by simpa only [State.taken_upAt, Bool.not_eq_true] using hd)).trans (if_pos hout)))
  rw [hc.opcode] at he
  have := h.turned (own := own) hc.opcode he
  rwa [s.started_of p hn] at this

theorem State.admits_zero (s : State) : s.admits 0 = true := by simp [State.admits]

theorem State.started_countAccepted (s : State) (op : Nat) (p : Packet) (k : Nat) :
    (s.countAccepted k).started op p = (s.started op p).countAccepted k := by
  unfold State.started
  split <;> rfl

/-- A signed command that is refused after its counter has been accepted. -/
theorem Cmd.Marked.refused (hc : c.Marked s op p n) (h : s.Delivers op p) (hs : s.Signed op p n) (hv : s.Verifies op p n)
    (ha : s.admits (c.cost (s.taken op p) ((s.paramsOf op p).take n)) = true)
    (he : ((s.taken op p).countAccepted (leAt (s.paramsOf op p) n 8)).admitRest c ((s.paramsOf op p).take n) =
      .error ((s.taken op p).countAccepted (leAt (s.paramsOf op p) n 8), st, res)) :
    ((s.countAccepted (leAt (s.paramsOf op p) n 8)).started op p).Replied (s.runCmd c p own) op p st res := by
  have hadm : (s.taken op p).admitCmd c p (s.paramsOf op p) =
      .error ((s.taken op p).countAccepted (leAt (s.paramsOf op p) n 8), st, res) := by
    rw [State.admitCmd_signed hc.signable hs.flag hs.length hc.len hc.fits hc.right, State.taken_admits, if_pos ha, hc.opcode, hs.verified hv]
    exact he
  obtain rfl := hc.opcode
  rw [State.started_countAccepted]
  refine h.refused hadm ((s.taken_from c.op p).countAccepted _) ?_ ?_ ?_ <;> rw [s.started_eq] <;> rfl

theorem State.counted_upAt (k : Nat) (j : Island) : ((s.taken op p).countAccepted k).upAt j = s.upAt j := by
  simp [State.countAccepted, State.upAt]

/-- A signed command whose island is down. -/
theorem Cmd.Marked.down (hc : c.Marked s op p n) (h : s.Delivers op p) (hs : s.Signed op p n) (hv : s.Verifies op p n)
    (ha : s.admits (c.cost (s.taken op p) ((s.paramsOf op p).take n)) = true) (hneeds : ∀ w ps, c.needs w ps = [isl])
    (hd : s.upAt isl = false) :
    ((s.countAccepted (leAt (s.paramsOf op p) n 8)).started op p).Replied (s.runCmd c p own) op p stIslandDown [] :=
  hc.refused h hs hv ha (if_pos (by simp [hneeds, State.counted_upAt, hd]))

/-- A signed command of whose opcode one is outstanding. -/
theorem Cmd.Marked.busy (hc : c.Marked s op p n) (h : s.Delivers op p) (hs : s.Signed op p n) (hv : s.Verifies op p n)
    (ha : s.admits (c.cost (s.taken op p) ((s.paramsOf op p).take n)) = true) (hneeds : ∀ w ps, c.needs w ps = [isl])
    (hd : s.upAt isl = true) (hw : c.waits = true) (hm : c.m16 = false) (hbusy : ¬ s.NoneWaits op) :
    ((s.countAccepted (leAt (s.paramsOf op p) n 8)).started op p).Replied (s.runCmd c p own) op p stBusy [] := by
  have hout : (c.waits && ((s.taken op p).countAccepted (leAt (s.paramsOf op p) n 8)).mgmt.outst.any fun o => o.op == c.op) = true := by
    simp only [State.NoneWaits, not_forall, not_not] at hbusy
    obtain ⟨o, ho, e⟩ := hbusy
    rw [hw, hc.opcode, Bool.true_and, State.countAccepted, State.setNvm_mgmt, State.taken_mgmt]
    exact List.any_eq_true.2 ⟨o, ho, by simp [e]⟩
  refine hc.refused h hs hv ha ((if_neg (by simp [hneeds, State.counted_upAt, hd])).trans ((if_pos hout).trans ?_))
  rw [hm]
  rfl

/-- The packet is whole, its sender has the right, and its parameters have this length. -/
structure State.Offers (s : State) (op : Nat) (p : Packet) (len : Nat → Bool) : Prop where
  delivers : s.Delivers op p
  sender : senderRight op s p = true
  length : len (s.paramsOf op p).length = true

/-- An unsigned command's packet, in order up to its cost. -/
theorem State.Offers.bare (h : s.Offers op p len) (hop : c.op = op := by rfl) (hl : c.len = len := by rfl)
    (hr : ∀ w, c.right w p = senderRight op w p := by exact fun _ => rfl) (hf : c.fits (s.paramsOf op p) = true := by rfl)
    (hm : c.mustSign p.src = false := by rfl) (hs : c.signable = false := by rfl) : c.Bare s op p :=
  ⟨hop, by rw [hl]; exact h.length, hf, by rw [hr, State.taken_senderRight]; exact h.sender, hm, .inl hs⟩

/-- A signed command's packet, in order up to its cost. -/
theorem State.Offers.marked (h : s.Offers op p len) (hop : c.op = op := by rfl) (hl : c.len n = true := by rfl)
    (hr : ∀ w, c.right w p = senderRight op w p := by exact fun _ => rfl) (hf : c.fits ((s.paramsOf op p).take n) = true := by rfl)
    (hs : c.signable = true := by rfl) : c.Marked s op p n :=
  ⟨hop, hs, hl, hf, by rw [hr, State.taken_senderRight]; exact h.sender⟩

theorem leAt_take {l : List Byte} {off k n : Nat} (h : off + k ≤ n) : leAt (l.take n) off k = leAt l off k := by
  rw [leAt, leAt, List.drop_take, List.take_take, min_eq_left (by omega)]

theorem taken_fusesToBlow (j : Island) : (s.taken op p).fusesToBlow j = s.fusesToBlow j := by
  simp only [State.fusesToBlow, State.header, State.inactiveMem, State.taken_nvm]

theorem taken_imageSigs (j : Island) : (s.taken op p).imageSigs j = s.imageSigs j := by
  simp only [State.imageSigs, State.header, State.inactiveMem, State.taken_nvm]

theorem taken_verifyCost (j : Island) : (s.taken 0x0705 p).verifyLen j = s.verifyLen j := by
  have hh : (s.taken 0x0705 p).header j = s.header j := by simp only [State.header, State.inactiveMem, State.taken_nvm]
  have hupd : (s.taken 0x0705 p).mgmt.upd = (s.touchUpd p).mgmt.upd := by rw [State.taken_mgmt]; rfl
  rw [State.verifyLen, State.verifyLen, taken_imageSigs, hh, hupd, State.touchUpd_upd]
  cases s.mgmt.upd with
  | none => rfl
  | some u => by_cases ho : u.owns p = true <;> simp only [Option.map_some, ho, Bool.false_eq_true, if_true, if_false]

/-- The part of a one-island command's shell on which its refusals rest. -/
structure Cmd.Of (c : Cmd) (p : Packet) (op : Nat) (len : Nat → Bool) (isl : Island) (waits m16 : Bool) : Prop where
  opcode : c.op = op
  len : c.len = len
  right : ∀ w, c.right w p = senderRight op w p
  fits : ∀ ps, c.fits ps = true
  free : c.mustSign p.src = false
  unsigned : c.signable = false
  cost : ∀ w ps, c.cost w ps = 0
  needs : ∀ w ps, c.needs w ps = [isl]
  waits : c.waits = waits
  m16 : c.m16 = m16

theorem Cmd.Of.bare {wt m : Bool} (hc : c.Of p op len isl wt m) (h : s.Offers op p len) : c.Bare s op p :=
  h.bare hc.opcode hc.len hc.right (hc.fits _) hc.free hc.unsigned

theorem Cmd.Of.down {wt m : Bool} (hc : c.Of p op len isl wt m) (h : s.Offers op p len) (hn : updateOp op = false)
    (hd : s.upAt isl = false) : s.Replied (s.runCmd c p own) op p stIslandDown [] :=
  (hc.bare h).down h.delivers hn (by rw [hc.cost, State.admits_zero]) (by simp [hc.needs, hd])

theorem Cmd.Of.busy {m : Bool} (hc : c.Of p op len isl true m) (h : s.Offers op p len) (hn : updateOp op = false)
    (hd : s.upAt isl = true) (hb : ¬ s.NoneWaits op) : s.Replied (s.runCmd c p own) op p
      (if m then m16Answer op stBusy [] else (stBusy, [])).1 (if m then m16Answer op stBusy [] else (stBusy, [])).2 := by
  have := (hc.bare h).busy (own := own) h.delivers hn (by rw [hc.cost, State.admits_zero]) (by simp [hc.needs, hd]) hc.waits hb
  rwa [hc.m16] at this

end

section
variable {p : Packet} {c : Instr} {op n : Nat} {isl : Island}

/-- The commands that wait for an island's event. -/
theorem waiting_shell (h : (c, op, n, isl) ∈ [(Instr.seqStart p, 0x0201, 4, Island.meas), (.seqStop p, 0x0202, 4, .meas),
      (.seqTrigger p, 0x0203, 4, .meas), (.sliceRetire p, 0x0205, 4, .meas), (.sliceRestore p, 0x0206, 4, .meas),
      (.loopSetFixed p, 0x0401, 8, .loop), (.loopRelease p, 0x0402, 0, .loop), (.devResetIsland p, 0x0003, 4, .aon)]) :
    updateOp op = false ∧ ∃ (cmd : Cmd) (own : State → Packet → List Byte → Done), cmd.Of p op (· == n) isl true false ∧
      ∀ s, exec c s = .next (s.runCmd cmd p own) := by
  simp only [List.mem_cons, Prod.mk.injEq, List.not_mem_nil, or_false] at h
  rcases h with h | h | h | h | h | h | h | h <;> obtain ⟨rfl, rfl, rfl, rfl⟩ := h <;>
    exact ⟨rfl, _, _, ⟨rfl, rfl, fun _ => rfl, fun _ => rfl, rfl, rfl, fun _ _ => rfl, fun _ _ => rfl, rfl, rfl⟩, fun _ => rfl⟩

/-- The commands that need one island and wait for nothing. -/
theorem reading_shell (h : (c, op, n, isl) ∈ [(Instr.queueBind p, 0x0204, 16, Island.meas), (.linRead p, 0x0303, 4, .meas),
      (.varRead p, 0x0304, 4, .meas), (.loopStatus p, 0x0404, 0, .loop), (.fabSessions p, 0x0504, 0, .loop),
      (.fabNoiseFloor p, 0x0505, 4, .loop), (.fltAck p, 0x0602, 4, .aon), (.obsTraceSelect p, 0x0802, 4, .aon)]) :
    updateOp op = false ∧ ∃ (cmd : Cmd) (own : State → Packet → List Byte → Done), cmd.Of p op (· == n) isl false false ∧
      ∀ s, exec c s = .next (s.runCmd cmd p own) := by
  simp only [List.mem_cons, Prod.mk.injEq, List.not_mem_nil, or_false] at h
  rcases h with h | h | h | h | h | h | h | h <;> obtain ⟨rfl, rfl, rfl, rfl⟩ := h <;>
    exact ⟨rfl, _, _, ⟨rfl, rfl, fun _ => rfl, fun _ => rfl, rfl, rfl, fun _ _ => rfl, fun _ _ => rfl, rfl, rfl⟩, fun _ => rfl⟩

/-- The M16 commands that wait for an island's event. -/
theorem m16Waiting_shell (h : (c, op, isl) ∈ [(Instr.startConv p, 0x0F10, Island.meas), (.stopConv p, 0x0F11, .meas),
      (.trigConv p, 0x0F12, .meas), (.loopFix p, 0x0F30, .loop), (.loopFree p, 0x0F31, .loop)]) :
    updateOp op = false ∧ ∃ (cmd : Cmd) (own : State → Packet → List Byte → Done), cmd.Of p op (Config.m16Length op) isl true true ∧
      ∀ s, exec c s = .next (s.runCmd cmd p own) := by
  simp only [List.mem_cons, Prod.mk.injEq, List.not_mem_nil, or_false] at h
  rcases h with h | h | h | h | h <;> obtain ⟨rfl, rfl, rfl⟩ := h <;>
    exact ⟨rfl, _, _, ⟨rfl, rfl, fun _ => rfl, fun _ => rfl, rfl, rfl, fun _ _ => rfl, fun _ _ => rfl, rfl, rfl⟩, fun _ => rfl⟩

/-- The M16 commands that read from MEAS. -/
theorem m16Reading_shell (h : (c, op, isl) ∈ [(Instr.readChannel p, 0x0F20, Island.meas), (.readPv p, 0x0F21, .meas)]) :
    updateOp op = false ∧ ∃ (cmd : Cmd) (own : State → Packet → List Byte → Done), cmd.Of p op (Config.m16Length op) isl false true ∧
      ∀ s, exec c s = .next (s.runCmd cmd p own) := by
  simp only [List.mem_cons, Prod.mk.injEq, List.not_mem_nil, or_false] at h
  rcases h with h | h <;> obtain ⟨rfl, rfl, rfl⟩ := h <;>
    exact ⟨rfl, _, _, ⟨rfl, rfl, fun _ => rfl, fun _ => rfl, rfl, rfl, fun _ _ => rfl, fun _ _ => rfl, rfl, rfl⟩, fun _ => rfl⟩

/-- FAB_TIME, whatever its operation. -/
theorem fabTime_shell (h : commandOf c = some (0x0506, p)) : ∃ (cmd : Cmd) (own : State → Packet → List Byte → Done),
    cmd.Of p 0x0506 (· == 8) .loop false false ∧ ∀ s, exec c s = .next (s.runCmd cmd p own) := by
  have shell : ({ plainCmd 0x0506 (· == 8) with right := fabTimeRight, needs := fun _ _ => [.loop] } : Cmd).Of p 0x0506 (· == 8) .loop
      false false := ⟨rfl, rfl, fun _ => rfl, fun _ => rfl, rfl, rfl, fun _ _ => rfl, fun _ _ => rfl, rfl, rfl⟩
  cases c <;> simp only [commandOf, reduceCtorEq, Option.some.injEq, Prod.mk.injEq, Option.ite_none_left_eq_some,
    Option.ite_none_right_eq_some, Nat.reduceEqDiff, false_and, true_and] at h
  case fabTimeRead =>
    obtain ⟨hk, rfl⟩ := h
    exact ⟨_, _, shell, fun _ => congrArg Host.Outcome.next (if_neg hk)⟩
  all_goals
    obtain ⟨hk, rfl⟩ := h
    exact ⟨_, _, shell, fun _ => congrArg Host.Outcome.next (if_pos hk)⟩

/-- FSK_PASS. -/
theorem fskPass_shell : ∃ (cmd : Cmd) (own : State → Packet → List Byte → Done),
    cmd.Of p 0x0508 (fun n => 1 ≤ n && n ≤ 248) .loop true false ∧ ∀ s, exec (.fskPass p) s = .next (s.runCmd cmd p own) :=
  ⟨_, _, ⟨rfl, rfl, fun _ => rfl, fun _ => rfl, rfl, rfl, fun _ _ => rfl, fun _ _ => rfl, rfl, rfl⟩, fun _ => rfl⟩

end

/-- Settles O14: each command is a shell, and the first of the interpreter's checks that fails answers it. -/
theorem turnedAwayCommandsHaveNoEffect : Obligations.TurnedAwayCommandsHaveNoEffect := by
  refine ⟨fun s c op p hcmd => ?_, fun s p => ?_⟩
  · obtain ⟨cmd, own, rfl, hright, he⟩ := exec_shell hcmd
    refine ⟨fun h => by rw [he, State.runCmd_idle h], fun hm hl hup hr hi hn st hs ha => ⟨_, he s, State.runCmd_badHeader hm hl hup hr hi hn hs ha⟩,
      fun h hr => ?_⟩
    obtain ⟨st, ht, hst⟩ := h.noRight (own := own) rfl (by rw [hright, State.taken_senderRight, hr])
    exact ⟨_, st, he s, ht, hst⟩
  · intro offered answers deferred ps
    have offers {op : Nat} (len : Nat → Bool) (h : offered op len) : s.Offers op p len := ⟨h.1, h.2.1, h.2.2⟩
    refine ⟨?_, ?_, ?_, ?_, ?_, ?_, ?_, ?_, ?_, ?_, ?_, ?_, ?_, ?_, ?_, ?_, ?_, ?_, ?_, ?_, ?_, ?_, ?_, ?_, ?_, ?_, ?_, ?_, ?_⟩
    · exact fun h ha => ⟨_, rfl, (offers _ h).bare.deferred h.1 rfl ha⟩
    · exact fun h ha => ⟨_, rfl, (offers _ h).bare.deferred h.1 rfl ha⟩
    · exact fun h h1 ha => ⟨_, rfl, (offers _ h).bare.deferred h.1 (if_pos (by rw [h1])) ha⟩
    · exact fun h h1 ha => ⟨_, rfl, (offers _ h).bare.deferred h.1 (if_pos h1) ha⟩
    · exact fun h ha => ⟨_, rfl, (offers _ h).bare.deferred h.1 rfl ha⟩
    · intro n hs h1 h16 hn h ha
      refine ⟨_, rfl, Cmd.Marked.deferred (n := 4 + 4 * n) ⟨rfl, rfl, by simp [plainCmd]; omega, ?_, rfl⟩ h hs rfl ha⟩
      have hlen : ((s.paramsOf 0x0707 p).take (4 + 4 * n)).length = 4 + 4 * n := by
        rw [List.length_take, hs.length]
        omega
      show (((s.paramsOf 0x0707 p).take (4 + 4 * n)).length == 4 + 4 * leAt ((s.paramsOf 0x0707 p).take (4 + 4 * n)) 0 1) = true
      rw [hlen, leAt_take (by omega), show leAt (s.paramsOf 0x0707 p) 0 1 = n from hn]
      exact beq_self_eq_true _
    · exact fun hs h ha => ⟨_, rfl, (offers (· == 2444) h).marked.deferred h.1 hs rfl ha⟩
    · intro i hs h h0 ha
      refine ⟨_, execUpdActivate_eq, (offers (· == 2440) h).marked.deferred h.1 hs ?_ ha⟩
      simp only [activateCmd, leAt_take (show 0 + 1 ≤ 8 by decide), show leAt (s.paramsOf 0x0706 p) 0 1 = _ from h0, islandOf_srcOf,
        taken_fusesToBlow]
    · exact fun hs h ha => ⟨_, execFltInject_eq, (offers (· == 2436) h).marked.deferred h.1 hs (if_pos hs.flag) ha⟩
    · intro u hu h ha
      refine ⟨_, execUpdChunk_eq, (offers _ h).bare.deferred h.1 ?_ ha⟩
      have hupd : ∃ t, (s.taken 0x0704 p).mgmt.upd = some { u with last := t } := by
        simp only [State.taken_mgmt, State.started, show updateOp 0x0704 = true from rfl, if_true, State.touchUpd_upd, hu, Option.map_some]
        split
        · exact ⟨_, rfl⟩
        · exact ⟨u.last, rfl⟩
      obtain ⟨t, hupd⟩ := hupd
      simp only [chunkCmd, hupd]
      rfl
    · intro i h h0 ha
      refine ⟨_, execUpdVerify_eq, (offers _ h).bare.deferred h.1 ?_ ha⟩
      simp only [verifyCmd, show leAt (s.paramsOf 0x0705 p) 0 1 = _ from h0, islandOf_srcOf, taken_imageSigs, taken_verifyCost]
    · exact fun h ha => ⟨_, rfl, (offers _ h).bare.deferred h.1 rfl ha⟩
    · exact fun h ha => ⟨_, rfl, (offers _ h).bare.deferred h.1 rfl ha⟩
    · exact fun h ha => ⟨_, rfl, (offers _ h).bare.deferred h.1 rfl ha⟩
    · exact fun h ha => ⟨_, rfl, (offers _ h).bare.deferred h.1 rfl ha⟩
    · intro c op len i hc h
      obtain ⟨hn, cmd, own, hof, he⟩ := waiting_shell hc
      exact ⟨fun hd => ⟨_, he s, hof.down (offers _ h) hn hd⟩, fun hd hb => ⟨_, he s, hof.busy (offers _ h) hn hd hb⟩⟩
    · intro c op len i hc h hd
      obtain ⟨hn, cmd, own, hof, he⟩ := reading_shell hc
      exact ⟨_, he s, hof.down (offers _ h) hn hd⟩
    · intro c hc h hd
      obtain ⟨cmd, own, hof, he⟩ := fabTime_shell hc
      exact ⟨_, he s, hof.down (offers _ h) rfl hd⟩
    · intro h
      obtain ⟨cmd, own, hof, he⟩ := fskPass_shell (p := p)
      exact ⟨fun hd => ⟨_, he s, hof.down (offers _ h) rfl hd⟩, fun hd hb => ⟨_, he s, hof.busy (offers _ h) rfl hd hb⟩⟩
    · intro c op i hc h
      obtain ⟨hn, cmd, own, hof, he⟩ := m16Waiting_shell hc
      exact ⟨fun hd => ⟨_, he s, hof.down (offers _ h) hn hd⟩, fun hd hb => ⟨_, he s, hof.busy (offers _ h) hn hd hb⟩⟩
    · intro c op i hc h hd
      obtain ⟨hn, cmd, own, hof, he⟩ := m16Reading_shell hc
      exact ⟨_, he s, hof.down (offers _ h) hn hd⟩
    · exact fun h hd => ⟨_, rfl, (offers _ h).bare.down h.1 rfl s.admits_zero (by simpa only [State.taken_applyNeeds] using hd)⟩
    · intro h ha
      exact ⟨fun hd => ⟨_, rfl, (offers _ h).bare.down h.1 rfl ha (by simp [measCmd, hd])⟩,
        fun hd hb => ⟨_, rfl, (offers _ h).bare.busy h.1 rfl ha (by simp [measCmd, hd]) rfl hb⟩⟩
    · exact fun h ha hd => ⟨_, rfl, (offers _ h).bare.down h.1 rfl ha (by simp [loopCmd, hd])⟩
    · intro c op hc h ha hd
      simp only [List.mem_cons, Prod.mk.injEq, List.not_mem_nil, or_false] at hc
      rcases hc with hc | hc <;> obtain ⟨rfl, rfl⟩ := hc <;>
        exact ⟨_, rfl, (offers _ h).bare.down h.1 rfl ha (by simp [m16Loop, hd])⟩
    · exact fun h ha hd => ⟨_, rfl, (offers _ h).bare.down h.1 rfl ha (by simp [aonCmd, hd])⟩
    · intro h hsrc hflag hd
      have hlen : (s.paramsOf 0x0603 p).length = 4 := by simpa using h.2.2
      have hb : (injectCmd p).Bare s 0x0603 p := ⟨rfl, h.2.2, rfl, (s.taken_senderRight 0x0603 p).trans h.2.1, by simp [injectCmd, hsrc],
        .inr ⟨hflag, by rw [hlen]; decide⟩⟩
      exact ⟨_, execFltInject_eq, hb.down h.1 rfl (by simp [injectCmd, hflag, State.admits_zero]) (by simp [injectCmd, aonCmd, hd])⟩
    · intro hs h ha hv hd
      have := ((offers (· == 2436) h).marked (c := injectCmd p) (n := 4)).down (own := injectOwn) (isl := .aon) h.1 hs hv
        (by simpa [injectCmd, hs.flag] using ha) (fun _ _ => rfl) hd
      rw [State.started_of _ _ rfl] at this
      exact ⟨_, execFltInject_eq, this⟩
    · intro i hs h h0 ha hv u
      have hm : activateCmd.Marked s 0x0706 p 8 := (offers (· == 2440) h).marked
      have hcost : activateCmd.cost (s.taken 0x0706 p) ((s.paramsOf 0x0706 p).take 8) = 318 + s.fusesToBlow i := by
        simp only [activateCmd, leAt_take (show 0 + 1 ≤ 8 by decide), show leAt (s.paramsOf 0x0706 p) 0 1 = _ from h0, islandOf_srcOf,
          taken_fusesToBlow]
      exact ⟨fun hd => ⟨_, execUpdActivate_eq, hm.down h.1 hs hv (by rw [hcost]; exact ha) (fun _ _ => rfl) hd⟩,
        fun hd hb => ⟨_, execUpdActivate_eq, hm.busy h.1 hs hv (by rw [hcost]; exact ha) (fun _ _ => rfl) hd rfl rfl hb⟩⟩

end Sys2Proof.Machine
end



section
/-! PROOFS. SPI transactions (11 R263 to R268, R277): what the port drives and counts, and that a write is carried out whole or not
at all. -/

namespace Sys2Proof.Machine

open Sys2Proof

set_option Elab.async false

section
variable {s : State} {f : SpiFlags} {bytes : List Byte} {whole : Bool} {a n : Nat}

/-! ## The end of a transaction -/

/-- The status byte that flags leave (11 Table 11-4). -/
def SpiFlags.status (f : SpiFlags) : SpiStatus := ⟨!(f.crc || f.frame || f.own || f.post), f.crc, f.rsvd, f.own, f.post, f.frame⟩

/-- The counters of a transaction that ended with flags (15 Table 15-8). -/
def SpiFlags.counters (f : SpiFlags) : List Ctr := (if f.crc then [.spiCrcErr] else []) ++ if f.frame then [.spiFrameErr] else []

theorem State.spiEnd_eq (s : State) (f : SpiFlags) :
    ∃ o, s.spiEnd f = (s.setWin { s.win with status := f.status }).setObs o ∧ s.CountersBut f.counters (s.setObs o) := by
  obtain ⟨crc, rsvd, own, post, frame⟩ := f
  have one (c : Ctr) := s.countN_counters c 1
  cases crc <;> cases frame
  · exact ⟨s.obs, rfl, .refl _ s⟩
  · exact ⟨_, rfl, one .spiFrameErr⟩
  · exact ⟨_, rfl, one .spiCrcErr⟩
  · have two := (one .spiCrcErr).mono (ds := [Ctr.spiCrcErr, .spiFrameErr]) (by simp)
    exact ⟨_, rfl, two.trans (((s.count .spiCrcErr).countN_counters .spiFrameErr 1).mono (by simp))⟩

/-- What a transaction drives changes HMISO alone (11 R266). -/
theorem State.drive_eq (s : State) (bs : List Byte) (n : Nat) :
    s.drive bs n = s.setWin { s.win with out := if s.pins.started.mgmt then (bs ++ zeros n).take n else [] } := rfl

/-- HMISO of a write: the status byte, then zeros (11 Table 11-1). -/
theorem State.driveWrite_eq (s : State) (h : 0 < n) : s.driveWrite n = s.setWin { s.win with
    out := if s.pins.started.mgmt = true then s.spiStatusByte :: zeros (n - 1) else [] } := by
  obtain ⟨k, rfl⟩ : ∃ k, n = k + 1 := ⟨n - 1, by omega⟩
  simp [State.driveWrite, State.drive, zeros]

/-! ## Writes in the window -/

/-- A write to the window's bytes whose buffers are the host's is carried out and nothing else. -/
theorem State.spiWrite_window {bs : List Byte} (hn : bs ≠ []) (ha : a + bs.length ≤ 0x4000)
    (ho : ∀ b ∈ touchedBufs a bs.length, (s.win.ownAt b).own = .host) :
    s.spiWrite a bs = (s.winWrite a bs).spiEnd SpiFlags.none := by
  have hpos := List.length_pos_iff.2 hn
  have hregs : bs.drop (0x4000 - a) = [] := List.drop_eq_nil_of_le (by omega)
  have halign : badAlign a bs.length = false := by simp [badAlign, touchesRegs]; omega
  have hhalf : (decide ((a ≤ 0x4103 ∧ 0x4100 < a + bs.length) ∨ (a ≤ 0x4107 ∧ 0x4104 < a + bs.length)) &&
      !decide (a ≤ 0x4100 ∧ 0x4108 ≤ a + bs.length)) = false := by simp; omega
  have hown : ((touchedBufs a bs.length).any fun b => (s.win.ownAt b).own != .host) = false := by
    simp only [List.any_eq_false, bne_iff_ne, ne_eq, not_not]; exact ho
  have hmax : max a 0x4000 = 0x4000 := by omega
  have hend : decide (0x4600 < a + bs.length) = false := by simp; omega
  rw [State.spiWrite]
  simp only [halign, hhalf, hown, hregs, hmax, hend]
  simp [List.take_of_length_le (show bs.length ≤ 0x4000 - a by omega), show a < 0x4000 by omega, State.writeWords, SpiFlags.or,
    SpiFlags.none]

/-- A write that meets a buffer which the host does not own is discarded as a whole (11 R277). -/
theorem State.spiWrite_notOwned {bs : List Byte} (ha : a + bs.length ≤ 0x4000)
    (ho : ¬ ∀ b ∈ touchedBufs a bs.length, (s.win.ownAt b).own = .host) :
    s.spiWrite a bs = (s.count .ownViol).spiEnd ⟨false, false, true, false, false⟩ := by
  have halign : badAlign a bs.length = false := by simp [badAlign, touchesRegs]; omega
  have hhalf : (decide ((a ≤ 0x4103 ∧ 0x4100 < a + bs.length) ∨ (a ≤ 0x4107 ∧ 0x4104 < a + bs.length)) &&
      !decide (a ≤ 0x4100 ∧ 0x4108 ≤ a + bs.length)) = false := by simp; omega
  have hown : ((touchedBufs a bs.length).any fun b => (s.win.ownAt b).own != .host) = true := by
    simpa only [List.any_eq_true, bne_iff_ne, ne_eq, not_forall, exists_prop] using ho
  rw [State.spiWrite]
  simp only [halign, hhalf, hown, Bool.or_self, Bool.false_eq_true, ↓reduceIte]

/-! ## A write as the host's bytes -/

/-- The data bytes of a transaction, their address, and the rules of a sound write (11 R263, R265, Table 11-1). -/
def spiData (bytes : List Byte) : List Byte := (bytes.drop 3).take (spiLen (byteAt bytes 0).toNat)
def spiAddr (bytes : List Byte) : Nat := (byteAt bytes 1).toNat * 256 + (byteAt bytes 2).toNat
def SoundWrite (bytes : List Byte) (whole : Bool) : Prop :=
  let n := spiLen (byteAt bytes 0).toNat
  bytes.length = n + 4 ∧ whole = true ∧ (byteAt bytes 0).toNat % 16 = 0 ∧ crc8 (bytes.take (n + 3)) = byteAt bytes (n + 3)

theorem spiLen_pos (c : Nat) : 0 < spiLen c := by
  unfold spiLen
  dsimp only
  split <;> positivity

theorem spiData_length (h : SoundWrite bytes whole) : (spiData bytes).length = spiLen (byteAt bytes 0).toNat := by
  simp [spiData, h.1]

/-- A sound write goes on to its address; any other ends with a flag of its damage. -/
theorem State.spiTransaction_write (hb : bytes ≠ []) (hc : (byteAt bytes 0).toNat < 128) :
    (SoundWrite bytes whole → s.spiTransaction bytes whole = (s.driveWrite bytes.length).spiWrite (spiAddr bytes) (spiData bytes)) ∧
    (¬ SoundWrite bytes whole → ∃ f, s.spiTransaction bytes whole = (s.driveWrite bytes.length).spiEnd f ∧
      (f.crc = true ∨ f.frame = true)) := by
  obtain ⟨c, rest, rfl⟩ := List.exists_cons_of_ne_nil hb
  have hc' : c.toNat < 128 := hc
  have hs : SoundWrite (c :: rest) whole ↔ (c :: rest).length = spiLen c.toNat + 4 ∧ whole = true ∧ c.toNat % 16 = 0 ∧
      crc8 ((c :: rest).take (spiLen c.toNat + 3)) = byteAt (c :: rest) (spiLen c.toNat + 3) := Iff.rfl
  rw [hs]
  simp only [State.spiTransaction, hc', if_true]
  by_cases hl : ((c :: rest).length ≠ spiLen c.toNat + 4 || !whole) = true
  · refine ⟨fun h => ?_, fun _ => ⟨_, if_pos hl, Or.inr rfl⟩⟩
    simp only [h.1, h.2.1] at hl
    simp at hl
  · rw [if_neg hl]
    simp only [Bool.or_eq_true, decide_eq_true_eq, Bool.not_eq_true', not_or, not_not, Bool.not_eq_false] at hl
    by_cases hd : (crc8 ((c :: rest).take (spiLen c.toNat + 3)) != byteAt (c :: rest) (spiLen c.toNat + 3) ||
        decide (c.toNat % 16 ≠ 0)) = true
    · refine ⟨fun h => ?_, fun _ => ⟨_, if_pos hd, by simpa using hd⟩⟩
      rw [h.2.2.1, h.2.2.2] at hd
      simp at hd
    · rw [if_neg hd]
      simp only [Bool.or_eq_true, bne_iff_ne, decide_eq_true_eq, not_or, not_not] at hd
      exact ⟨fun _ => rfl, fun h => absurd ⟨hl.1, hl.2, hd.2, hd.1⟩ h⟩

theorem exec_spiWrite (h : s.spiOn = true) : exec (.spiWrite bytes whole) s = .next (s.spiTransaction bytes whole) := by
  show stepIf s.spiOn s _ = _
  rw [h]; rfl

end

/-- Settles O21: the port judges the bytes of a write before it carries anything out. -/
theorem spiWriteIsWholeOrNothing : Obligations.SpiWriteIsWholeOrNothing := by
  intro s bytes whole hon c n a data good hostOwned hmiso hb hc
  have hpos : 0 < bytes.length := List.length_pos_iff.2 hb
  have hn : 0 < n := spiLen_pos c
  obtain ⟨hsound, hbad⟩ := State.spiTransaction_write (s := s) (whole := whole) hb hc
  rw [State.driveWrite_eq s hpos] at hsound hbad
  rw [exec_spiWrite hon]
  have hlen : good → data.length = n := fun h => spiData_length h
  refine ⟨fun h => ?_, fun h => by rw [hsound h]; rfl, fun h hm ha ho => ?_, fun h ha ho => ?_⟩
  · obtain ⟨f, e, hf⟩ := hbad h
    obtain ⟨o, e', ho⟩ := State.spiEnd_eq (s.setWin { s.win with out := hmiso }) f
    refine ⟨_, f.status, congrArg Host.Outcome.next (e.trans e'), State.setWin_setObs_only _ _ _, rfl, ?_, hf, ?_⟩
    · rcases hf with hf | hf <;> simp [SpiFlags.status, hf]
    · exact State.CountersBut.mono ho (fun x hx => by
        simp only [SpiFlags.counters, List.mem_append] at hx
        rcases hx with hx | hx <;> split at hx <;> simp_all)
  · have ho' : ∀ b ∈ touchedBufs a data.length, ((s.setWin { s.win with out := hmiso }).win.ownAt b).own = .host := by
      rw [hlen h]; exact ho
    have e := State.spiWrite_window (List.ne_nil_of_length_pos (by rw [hlen h]; exact hn)) (by rw [hlen h]; exact ha) ho'
    refine ⟨_, congrArg Host.Outcome.next ((hsound h).trans e), s.setWin_only _, ?_, fun i hi => ?_, fun x hx => ?_⟩
    · rfl
    · have := cellRead_cellsWrite a data (a + i) hm
      rw [hlen h, if_pos (by omega), Nat.add_sub_cancel_left] at this
      refine this.trans ?_
      simp [data, byteAt, List.getD_eq_getElem?_getD, hi, List.headD_eq_head?_getD, List.head?_drop]
    · have := cellRead_cellsWrite a data x hm
      rwa [hlen h, if_neg (by omega)] at this
  · have ho' : ¬ ∀ b ∈ touchedBufs a data.length, ((s.setWin { s.win with out := hmiso }).win.ownAt b).own = .host := by
      rw [hlen h]; exact ho
    have e := State.spiWrite_notOwned (by rw [hlen h]; exact ha) ho'
    exact ⟨_, congrArg Host.Outcome.next ((hsound h).trans e), State.setWin_setObs_only _ _ _, rfl,
      State.countN_counters (s.setWin { s.win with out := hmiso }) .ownViol 1⟩

end Sys2Proof.Machine
end



section
/-! PROOFS. The mailboxes (11 R281 to R286, R290): what a post and an acknowledge change, and what posting a reply hands to the host. -/

namespace Sys2Proof.Machine

open Sys2Proof

set_option Elab.async false

section
variable {s : State} {w : Window} {k n : Nat} {i : Island}

/-! ## Doorbells of the islands -/

theorem Window.dbSet_rings (w : Window) (i : Island) {bit : Nat} (h : bit < 32) :
    ((w.dbSet (some i) bit true).idb.at i).getLsbD bit = true := by
  simp [Window.dbSet, h]

/-! ## A mailbox that changes -/

/-- A mailbox is replaced, and the pair's count of crossed waits follows it (11 R290). -/
def Window.putMb (w : Window) (k : Nat) (m : Mailbox) (now : Nat) : Window := (w.setMb k m).noteCross k now

theorem Window.putMb_rest (w : Window) (k : Nat) (m : Mailbox) (now : Nat) : w.putMb k m now = { w with
    mb := (w.putMb k m now).mb, crossSince := (w.putMb k m now).crossSince, crossRaised := (w.putMb k m now).crossRaised } := by
  rw [Window.putMb, Window.noteCross_rest]; rfl

@[simp] theorem Window.putMb_ownAt (w : Window) (k : Nat) (m : Mailbox) (now n : Nat) : (w.putMb k m now).ownAt n = w.ownAt n :=
  (w.setMb k m).noteCross_own k now n
@[simp] theorem Window.putMb_mem (w : Window) (k : Nat) (m : Mailbox) (now : Nat) : (w.putMb k m now).mem = w.mem :=
  (w.setMb k m).noteCross_bytes k now
@[simp] theorem Window.putMb_db (w : Window) (k : Nat) (m : Mailbox) (now : Nat) : (w.putMb k m now).db = w.db :=
  (w.setMb k m).noteCross_db k now
@[simp] theorem Window.putMb_idb (w : Window) (k : Nat) (m : Mailbox) (now : Nat) : (w.putMb k m now).idb = w.idb := by
  rw [Window.putMb_rest]

theorem Window.putMb_self (w : Window) {k : Nat} (m : Mailbox) (now : Nat) (h : k < 8) : (w.putMb k m now).mbAt k = m := by
  rw [Window.putMb, Window.noteCross_mbAt, Window.setMb_self _ _ h]

theorem Window.putMb_other (w : Window) {k n : Nat} (m : Mailbox) (now : Nat) (h : n ≠ k) : (w.putMb k m now).mbAt n = w.mbAt n := by
  rw [Window.putMb, Window.noteCross_mbAt, Window.setMb_other _ _ h]

/-! ## Posts (11 R282, R285) -/

/-- The mailbox that a post leaves. -/
def State.postedMb (s : State) (k : Nat) (n : Word64) (held : Bool) (r : Req) : Mailbox :=
  { s.win.mbAt k with
    notice := n, req := r, pending := true, held := held, posts := (s.win.mbAt k).posts + 1, since := s.now, ack := none, lost := false }

/-- The window that a post leaves. -/
def State.postedWin (s : State) (k : Nat) (n : Word64) (held : Bool) (r : Req) : Window :=
  ((s.win.putMb k (s.postedMb k n held r) s.now).dbSet (mbFrom k) (8 + k) false).dbSet (mbTo k) k true

theorem State.postMb_eq (s : State) (k : Nat) (n : Word64) (held : Bool) (r : Req) :
    ∃ o, s.postMb k n held r = (s.setWin (s.postedWin k n held r)).setObs o ∧ s.OnlyTrace (s.setObs o) :=
  (s.setWin (s.postedWin k n held r)).emit_eq .mgmt 7 _ _

theorem State.postedWin_rest (s : State) (k : Nat) (n : Word64) (held : Bool) (r : Req) :
    s.postedWin k n held r = { s.win with
      mb := (s.postedWin k n held r).mb, crossSince := (s.postedWin k n held r).crossSince
      crossRaised := (s.postedWin k n held r).crossRaised, idb := (s.postedWin k n held r).idb } := by
  unfold State.postedWin
  rw [Window.dbSet_rest, Window.dbSet_rest (Window.putMb _ _ _ _), Window.putMb_rest]

/-- What a post leaves of the mailboxes, the ownership words and the doorbells of islands. -/
theorem State.postedWin_fields (s : State) {k : Nat} (n : Word64) (held : Bool) (r : Req) (h : k < 8) :
    (s.postedWin k n held r).mbAt k = s.postedMb k n held r ∧
    (∀ j, j ≠ k → (s.postedWin k n held r).mbAt j = s.win.mbAt j) ∧
    (∀ i, mbTo k = some i → ((s.postedWin k n held r).idb.at i).getLsbD k = true) ∧
    (∀ i, mbFrom k ≠ some i → mbTo k ≠ some i → (s.postedWin k n held r).idb.at i = s.win.idb.at i) := by
  unfold State.postedWin
  refine ⟨?_, fun j hj => ?_, fun i hi => ?_, fun i hf ht => ?_⟩
  · rw [Window.dbSet_mbAt, Window.dbSet_mbAt, Window.putMb_self _ _ _ h]
  · rw [Window.dbSet_mbAt, Window.dbSet_mbAt, Window.putMb_other _ _ _ hj]
  · rw [hi]; exact Window.dbSet_rings _ _ (by omega)
  · rw [Window.dbSet_idb _ _ _ _ ht, Window.dbSet_idb _ _ _ _ hf, Window.putMb_idb]

/-! ## The host's posts -/

/-- The notice that a post to MB0 leaves, with the host's SRC_ID (11 R282). -/
def mb0Notice (x : Word64) : Word64 := mkNotice (nbBuf x) (nbLen x) 0x01 (nbHint x) (nbTag x)

/-- The buffer of an accepted post is the device's, and holds no reply that was turned back. -/
def Window.moved (w : Window) (x : Word64) : Window :=
  { w.setOwner (nbBuf x) .device 0x01 with turned := w.turned.filter (· != nbBuf x) }

/-- A post that finds MB0 free and its buffer the host's (11 R282, R286). -/
theorem State.hostPost_accepted (x : Word64) (h : (s.win.mbAt 0).pending = false) (ho : (s.win.ownAt (nbBuf x)).own = .host) :
    s.hostPost x = ((s.setWin (s.win.moved x)).postMb 0 (mb0Notice x) s.mgmtAsleep, SpiFlags.none) := by
  rw [State.hostPost, if_neg (by simp [h]), if_neg (not_not.2 ho)]
  rfl

theorem nbBuf_lt (x : Word64) : nbBuf x < 64 := Nat.mod_lt _ (by norm_num)

/-- The port carries out an accepted post: HMISO, the post, the status byte, and a traced message. -/
theorem exec_mb0Post_accepted {s : State} (x : Word64) (hon : s.spiOn = true) (h : (s.win.mbAt 0).pending = false)
    (ho : (s.win.ownAt (nbBuf x)).own = .host) : ∃ o w, s.OnlyTrace (s.setObs o) ∧
    w = { s.win.moved x with out := w.out } ∧ exec (.mb0Post x) s = .next ((s.setWin
      { (s.setWin w).postedWin 0 (mb0Notice x) s.mgmtAsleep .packet with status := ⟨true, false, false, false, false, false⟩ }).setObs o) := by
  obtain ⟨out, hw⟩ := s.wordWrite_eq 2
  have hacc := State.hostPost_accepted (s := s.setWin { s.win with out := out }) x h ho
  obtain ⟨o, ep, ht⟩ := (s.setWin { s.win.moved x with out := out }).postMb_eq 0 (mb0Notice x) s.mgmtAsleep .packet
  refine ⟨o, { s.win.moved x with out := out }, ht, rfl, ?_⟩
  rw [exec_mb0Post x hon, hw, hacc, State.spiEnd_sound _ rfl rfl]
  exact congrArg (fun t : State => Host.Outcome.next (t.setWin { t.win with status := ⟨true, false, false, false, false, false⟩ })) ep

end

/-- Settles O23: the post takes effect between what the port drives and what it leaves in the status byte. -/
theorem acceptedPostMovesItsBuffer : Obligations.AcceptedPostMovesItsBuffer := by
  intro s x hon hp ho
  obtain ⟨o, w, ht, hw, he⟩ := exec_mb0Post_accepted x hon hp ho
  obtain ⟨hself, hother, hring, hidle⟩ :=
    (s.setWin w).postedWin_fields (mb0Notice x) s.mgmtAsleep .packet (show 0 < 8 by norm_num)
  have hrest := (s.setWin w).postedWin_rest 0 (mb0Notice x) s.mgmtAsleep .packet
  generalize (s.setWin w).postedWin 0 (mb0Notice x) s.mgmtAsleep .packet = v at hself hother hring hidle hrest he
  have hown : ∀ k, v.ownAt k = (s.win.moved x).ownAt k := fun k => by rw [hrest, State.setWin_win, hw]; rfl
  refine ⟨_, he, State.setWin_setObs_only s _ o, ht, ?_, ?_, fun k hk => ?_, ?_, fun k hk => ?_, hring .mgmt rfl, fun i hi => ?_⟩
  · show { v with status := _ } = _
    rw [hrest, State.setWin_win, hw]; rfl
  · exact hself.trans (by rw [State.postedMb, State.setWin_win, hw]; rfl)
  · exact (hother k hk).trans (by rw [State.setWin_win, hw]; rfl)
  · exact (hown _).trans (Window.setOwner_self _ _ _ (nbBuf_lt x))
  · exact (hown _).trans (Window.setOwner_other _ _ _ hk)
  · exact (hidle i (by simp [mbFrom]) (by simp [mbTo]; exact fun e => hi e.symm)).trans (by rw [State.setWin_win, hw]; rfl)

end Sys2Proof.Machine
end



section
/-! PROOFS. The host's acknowledges of MB1, its reads of MB0_ACK and its doorbell clears (11 R266, R281, R284, R285). -/

namespace Sys2Proof.Machine

open Sys2Proof

set_option Elab.async false

section
variable {s : State} {w : Window} {k n a : Nat} {i : Island}

theorem leBytes_eq_map (n v : Nat) : leBytes n v = (List.range n).map fun i => BitVec.ofNat 8 (v / 256 ^ i) := by
  induction n generalizing v with
  | zero => rfl
  | succ n ih => simp [leBytes, ih, List.range_succ_eq_map, Nat.div_div_eq_div_mul, Nat.pow_succ, Nat.mul_comm]

/-! ## Reads of a register word -/

/-- A sound read of one register word: its actions, the word on HMISO, and the status byte (11 R266, R268). -/
theorem State.spiRead_word {v : Word32} (hv : s.regWord a = some v) (h0 : 0x4000 ≤ a) (h1 : a < 0x4600) (h4 : a % 4 = 0)
    (commit : Bool) : s.spiRead a 4 10 commit true =
      ((s.readActions a 4 commit).drive (s.readOut 0xA0 a (leBytes 4 v.toNat) true) 10).spiEnd ⟨!commit, false, false, false, false⟩ := by
  have hb (i : Nat) (hi : i < 4) (k : Nat) : s.readByte a k (a + i) = some (BitVec.ofNat 8 (v.toNat / 256 ^ i)) := by
    rw [State.readByte, if_neg (by omega), if_pos (by omega), show (a + i) / 4 * 4 = a by omega, show (a + i) % 4 = i by omega, hv]
    rfl
  have hbs (k : Nat) : ((List.range 4).map fun i => s.readByte a k (a + i)) = (leBytes 4 v.toNat).map some := by
    rw [leBytes_eq_map, List.map_map]
    exact List.map_congr_left fun i hi => hb i (List.mem_range.1 hi) k
  have hnone : (((leBytes 4 v.toNat).map some).any fun b => b.isNone) = false := by simp
  have hdata : ((leBytes 4 v.toNat).map some).map (fun b => b.getD 0) = leBytes 4 v.toNat := by simp
  simp only [State.spiRead, hbs, hnone, hdata, Bool.and_true, Bool.true_and, Bool.not_true]
  rfl


/-- HMISO of a read of one register word, ten bytes (11 Table 11-2). -/
theorem drive_readOut (t : State) (a v : Nat) : t.drive (s.readOut 0xA0 a (leBytes 4 v) true) 10 = t.setWin { t.win with
    out := if t.pins.started.mgmt = true then
      s.spiStatusByte :: zeros 3 ++ leBytes 4 v ++ [crc8 ([0xA0, BitVec.ofNat 8 (a / 256), BitVec.ofNat 8 a] ++ leBytes 4 v), 0] else [] } := by
  have hl : (s.readOut 0xA0 a (leBytes 4 v) true).length = 10 := by simp [State.readOut]
  rw [State.drive_eq, List.take_left' hl]
  rfl

/-- A committed read of MB0_ACK clears DONE; HMISO carries the word (11 R281, Table 11-2). -/
theorem exec_mb0AckRead (commit : Bool) (h : s.spiOn = true) : exec (.mb0AckRead commit) s = .next
    (((s.ackReadClear commit).drive (s.readOut 0xA0 0x4108 (leBytes 4 (s.win.mbAt 0).ackWord.toNat) true) 10).spiEnd
      ⟨!commit, false, false, false, false⟩) := by
  show stepIf s.spiOn s _ = _
  rw [h, State.spiRead_word (s := s) (a := 0x4108) (v := (s.win.mbAt 0).ackWord) rfl (by norm_num) (by norm_num) (by norm_num)]
  have hk : s.selects 0x4108 4 = 0 := rfl
  rw [State.readActions, hk, Bool.and_comm]
  rfl

/-! ## The acknowledge of MB1 (11 R284) -/

/-- The mailbox that an acknowledge leaves (11 R281). -/
def State.ackedMb (s : State) (k : Nat) (code src : Byte) : Mailbox :=
  { s.win.mbAt k with done := true, rcode := code, ackSrc := src, pending := false, held := false, ack := none, lost := false }

/-- The window that an acknowledge leaves for a mailbox other than MB0. -/
def State.ackedWin (s : State) (k : Nat) (code src : Byte) : Window :=
  (s.win.putMb k (s.ackedMb k code src) s.now).dbSet (mbFrom k) (8 + k) true

theorem State.ackEffect_eq (s : State) {k : Nat} (code src : Byte) (h : k ≠ 0) :
    ∃ o, s.ackEffect k code src = (s.setWin (s.ackedWin k code src)).setObs o ∧ s.OnlyTrace (s.setObs o) := by
  rw [State.ackEffect]
  simp only [if_neg h]
  exact (s.setWin (s.ackedWin k code src)).emit_eq .mgmt 7 _ _

theorem State.ackedWin_rest (s : State) (k : Nat) (code src : Byte) : s.ackedWin k code src = { s.win with
    mb := (s.ackedWin k code src).mb, crossSince := (s.ackedWin k code src).crossSince
    crossRaised := (s.ackedWin k code src).crossRaised, idb := (s.ackedWin k code src).idb } := by
  unfold State.ackedWin
  rw [Window.dbSet_rest, Window.putMb_rest]

/-- What an acknowledge leaves of the mailboxes and the doorbells of islands. -/
theorem State.ackedWin_fields (s : State) {k : Nat} (code src : Byte) (h : k < 8) :
    (s.ackedWin k code src).mbAt k = s.ackedMb k code src ∧
    (∀ j, j ≠ k → (s.ackedWin k code src).mbAt j = s.win.mbAt j) ∧
    (∀ i, mbFrom k = some i → ((s.ackedWin k code src).idb.at i).getLsbD (8 + k) = true) ∧
    (∀ i, mbFrom k ≠ some i → (s.ackedWin k code src).idb.at i = s.win.idb.at i) := by
  unfold State.ackedWin
  refine ⟨?_, fun j hj => ?_, fun i hi => ?_, fun i hf => ?_⟩
  · rw [Window.dbSet_mbAt, Window.putMb_self _ _ _ h]
  · rw [Window.dbSet_mbAt, Window.putMb_other _ _ _ hj]
  · rw [hi]; exact Window.dbSet_rings _ _ (by omega)
  · rw [Window.dbSet_idb _ _ _ _ hf, Window.putMb_idb]

/-! ## A reply that is handed to the host (11 R284, 12 R297) -/

theorem cellsRead_cellsWrite {m : List Host.Cell} (a : Nat) (bs : List Byte) (h : Memory.wf m = true) :
    cellsRead (cellsWrite m a bs) a bs.length = bs := by
  refine List.ext_getElem (by simp) fun i hi hj => ?_
  simp only [cellsRead, List.getElem_map, List.getElem_range, cellRead_cellsWrite _ _ _ h, Nat.add_sub_cancel_left]
  rw [if_pos ⟨by omega, by omega⟩, List.getD_eq_getElem _ _ hj]

theorem nbBuf_mkNotice {b : Nat} (h : b < 64) (len src hint tag : Nat) : nbBuf (mkNotice b len src hint tag) = b := by
  simp only [nbBuf, mkNotice, BitVec.toNat_ofNat]
  omega

/-- The notice of a reply (11 R284). -/
def replyNotice (n : Nat) (bs : List Byte) : Word64 := mkNotice n bs.length 0x10 (leAt bs 0 2) (leAt bs 2 1)

/-- The window with a reply's bytes in its buffer, which is the host's. -/
def Window.written (w : Window) (n : Nat) (bs : List Byte) : Window :=
  { w with mem := cellsWrite w.mem (bufAddr n) bs }.setOwner n .host 0x10

/-- The window that posting a reply leaves. -/
def State.replyWin (s : State) (n : Nat) (bs : List Byte) : Window :=
  let w := (s.setWin (s.win.written n bs)).postedWin 1 (replyNotice n bs) false .packet
  { w with db := w.db ||| BitVec.twoPow 32 0 }

theorem State.postReply_eq {bs : List Byte} (h : (s.win.ownAt n).own = .device) :
    ∃ o, s.postReply n bs = (s.setWin (s.replyWin n bs)).setObs o ∧ s.OnlyTrace (s.setObs o) := by
  obtain ⟨o, e, ht⟩ := (s.setWin (s.win.written n bs)).postMb_eq 1 (replyNotice n bs) false .packet
  refine ⟨o, ?_, ht⟩
  rw [State.postReply, if_pos h]
  exact congrArg (fun t => t.ring 0) e

theorem State.replyWin_rest (s : State) (n : Nat) (bs : List Byte) : s.replyWin n bs = { s.win with
    mem := cellsWrite s.win.mem (bufAddr n) bs, own := (s.win.written n bs).own, mb := (s.replyWin n bs).mb
    crossSince := (s.replyWin n bs).crossSince, crossRaised := (s.replyWin n bs).crossRaised, idb := (s.replyWin n bs).idb
    db := s.win.db ||| BitVec.twoPow 32 0 } := by
  have h := (s.setWin (s.win.written n bs)).postedWin_rest 1 (replyNotice n bs) false .packet
  unfold State.replyWin
  dsimp only
  rw [h]; rfl

/-- What posting a reply leaves of the mailboxes. -/
theorem State.replyWin_mb (s : State) (n : Nat) (bs : List Byte) :
    (s.replyWin n bs).mbAt 1 = s.postedMb 1 (replyNotice n bs) false .packet ∧ ∀ j, j ≠ 1 → (s.replyWin n bs).mbAt j = s.win.mbAt j :=
  have h := (s.setWin (s.win.written n bs)).postedWin_fields (replyNotice n bs) false .packet (show 1 < 8 by norm_num)
  ⟨h.1, h.2.1⟩

/-- What posting a reply leaves of the ownership words and of the buffers. -/
theorem State.replyWin_buffers {bs : List Byte} (hn : n < 64) (hm : s.memoryOk) (hl : bs.length ≤ 256) :
    (s.replyWin n bs).ownAt n = ⟨.host, (s.win.ownAt n).gen + 1, 0x10⟩ ∧
    (∀ k, k ≠ n → (s.replyWin n bs).ownAt k = s.win.ownAt k) ∧
    cellsRead (s.replyWin n bs).mem (bufAddr n) bs.length = bs ∧ Memory.wf (s.replyWin n bs).mem = true ∧
    ∀ a, a / 256 ≠ n → cellRead (s.replyWin n bs).mem a = cellRead s.win.mem a := by
  rw [s.replyWin_rest]
  refine ⟨Window.setOwner_self { s.win with mem := cellsWrite s.win.mem (bufAddr n) bs } _ _ hn,
    fun k hk => Window.setOwner_other { s.win with mem := cellsWrite s.win.mem (bufAddr n) bs } _ _ hk,
    cellsRead_cellsWrite _ _ hm, cellsWrite_wf _ _ hm, fun a ha => ?_⟩
  simp only [cellRead_cellsWrite _ _ _ hm]
  rw [if_neg]
  unfold bufAddr
  omega

theorem State.postNext_none (h : s.mgmt.replies = []) : s.postNext = s := by
  rw [State.postNext, h]; simp

theorem State.postNext_some {r : ReplyOut} {rs : List ReplyOut} (hp : (s.win.mbAt 1).pending = false) (h : s.mgmt.replies = r :: rs) :
    s.postNext = (s.setMgmt { s.mgmt with replies := rs }).postReply r.buf.toNat r.bytes := by
  rw [State.postNext, if_neg (by simp [hp]), h]

/-! ## The acknowledge as a transaction -/

/-- A buffer that the host turns back (11 R284). -/
def Window.turnedBack (w : Window) (b : Nat) : Window :=
  { w.setOwner b .device 0x01 with turned := b :: w.turned.filter (· != b) }

/-- The codes of an acknowledge of MB1, and what each does beside (11 R284). -/
def Window.answered (w : Window) (code : Byte) (b : Nat) : Window := if code = 0 then w else w.turnedBack b

theorem State.hostMb1Ack_none {v : Nat} (h : (s.win.mbAt 1).pending = false) :
    s.hostMb1Ack v = (s, ⟨false, false, false, true, false⟩) := by simp [State.hostMb1Ack, h]

theorem State.hostMb1Ack_taken {code : Byte} (hc : code.toNat < 2) (h : (s.win.mbAt 1).pending = true) :
    ∃ o, s.hostMb1Ack (1 + 256 * code.toNat) = ((((s.setWin ((s.ackedWin 1 code 0x01).answered code
      (nbBuf (s.win.mbAt 1).notice)))).setObs o).postNext, SpiFlags.none) ∧ s.OnlyTrace (s.setObs o) := by
  obtain ⟨o, e, ht⟩ := s.ackEffect_eq (k := 1) code 0x01 (by norm_num)
  refine ⟨o, ?_, ht⟩
  have hcode : code = 0 ∨ code = 1 := by
    have : code.toNat = 0 ∨ code.toNat = 1 := by omega
    rcases this with h | h
    · exact .inl (BitVec.eq_of_toNat_eq h)
    · exact .inr (BitVec.eq_of_toNat_eq h)
  rcases hcode with rfl | rfl
  · have hw : s.hostMb1Ack 1 = ((s.ackEffect 1 0 0x01).postNext, SpiFlags.none) := by simp [State.hostMb1Ack, h]
    exact hw.trans (by rw [e]; rfl)
  · have hw : s.hostMb1Ack 257 = ((((s.ackEffect 1 1 0x01).setOwner (nbBuf (s.win.mbAt 1).notice) .device 0x01).turn
        (nbBuf (s.win.mbAt 1).notice) true).postNext, SpiFlags.none) := by simp [State.hostMb1Ack, h]
    exact hw.trans (by rw [e]; rfl)

theorem exec_mb1Ack (h : s.spiOn = true) :
    exec .mb1AckAccepted s = .next (((s.wordWrite 1).hostMb1Ack 0x0001).1.spiEnd ((s.wordWrite 1).hostMb1Ack 0x0001).2) ∧
    exec .mb1AckBadNotice s = .next (((s.wordWrite 1).hostMb1Ack 0x0101).1.spiEnd ((s.wordWrite 1).hostMb1Ack 0x0101).2) := by
  refine ⟨?_, ?_⟩ <;> (show stepIf s.spiOn s _ = _; rw [h]; rfl)

/-- What an acknowledge of MB1 leaves of the window, HMISO and the buffers apart. -/
structure Window.Acked (w v : Window) (m : Mailbox) : Prop where
  self : v.mbAt 1 = m
  others : ∀ k, k ≠ 1 → v.mbAt k = w.mbAt k
  rings : (v.idb.at .mgmt).getLsbD 9 = true
  quiet : ∀ i, i ≠ .mgmt → v.idb.at i = w.idb.at i
  rest : v = { w with
    own := v.own, mb := v.mb, crossSince := v.crossSince, crossRaised := v.crossRaised, idb := v.idb, turned := v.turned, out := v.out }

theorem State.ackedWin_acked (s : State) (out : List Byte) (code : Byte) (b : Nat) :
    s.win.Acked ((((s.setWin { s.win with out := out }).ackedWin 1 code 0x01)).answered code b) (s.ackedMb 1 code 0x01) := by
  obtain ⟨h1, h2, h3, h4⟩ := (s.setWin { s.win with out := out }).ackedWin_fields code 0x01 (show 1 < 8 by norm_num)
  have hr := (s.setWin { s.win with out := out }).ackedWin_rest 1 code 0x01
  generalize (s.setWin { s.win with out := out }).ackedWin 1 code 0x01 = v at h1 h2 h3 h4 hr ⊢
  have hv : s.win.Acked v (s.ackedMb 1 code 0x01) :=
    ⟨h1, h2, h3 .mgmt rfl, fun i hi => h4 i (by simpa [mbFrom] using fun e => hi e.symm), by rw [hr]; rfl⟩
  unfold Window.answered
  split
  · exact hv
  · exact ⟨hv.self, hv.others, hv.rings, hv.quiet, by rw [hr]; rfl⟩

/-- The port's part of an acknowledge of MB1 that a pending notice takes. -/
theorem exec_mb1Ack_taken {c : Instr} {code : Byte} (hc : c = .mb1AckAccepted ∧ code = 0 ∨ c = .mb1AckBadNotice ∧ code = 1)
    (h : s.spiOn = true) (hp : (s.win.mbAt 1).pending = true) : ∃ o v, s.OnlyTrace (s.setObs o) ∧
      s.win.Acked v (s.ackedMb 1 code 0x01) ∧
      (code = 0 → v.own = s.win.own ∧ v.turned = s.win.turned) ∧
      (code ≠ 0 → v.own = (s.win.setOwner (nbBuf (s.win.mbAt 1).notice) .device 0x01).own ∧
        nbBuf (s.win.mbAt 1).notice ∈ v.turned) ∧
      exec c s = .next ((((s.setWin v).setObs o).postNext).spiEnd SpiFlags.none) := by
  obtain ⟨out, hw⟩ := s.wordWrite_eq 1
  have hcode : code.toNat < 2 := by rcases hc with ⟨_, rfl⟩ | ⟨_, rfl⟩ <;> decide
  obtain ⟨o, e, ht⟩ := State.hostMb1Ack_taken (s := s.setWin { s.win with out := out }) hcode hp
  have hr := (s.setWin { s.win with out := out }).ackedWin_rest 1 code 0x01
  refine ⟨o, _, ht, s.ackedWin_acked out code (nbBuf (s.win.mbAt 1).notice), fun h0 => ?_, fun h0 => ?_, ?_⟩
  · rw [Window.answered, if_pos h0, hr]; exact ⟨rfl, rfl⟩
  · rw [Window.answered, if_neg h0, hr]; exact ⟨rfl, List.mem_cons_self⟩
  · obtain ⟨ea, eb⟩ := exec_mb1Ack h
    rcases hc with ⟨rfl, rfl⟩ | ⟨rfl, rfl⟩
    · rw [ea, hw]
      exact congrArg (fun x : State × SpiFlags => Host.Outcome.next (x.1.spiEnd x.2)) e
    · rw [eb, hw]
      exact congrArg (fun x : State × SpiFlags => Host.Outcome.next (x.1.spiEnd x.2)) e

end

/-- Settles O24: each transaction is what the port drives, its one effect, and the status byte. -/
theorem hostAcknowledgesRepliesAndDoorbells : Obligations.HostAcknowledgesRepliesAndDoorbells := by
  have h41 : BitVec.ofNat 8 (0x4108 / 256) = 0x41 := rfl
  have h08 : BitVec.ofNat 8 0x4108 = 0x08 := rfl
  refine ⟨fun s hon => ⟨fun hp hr => ⟨?_, ?_⟩, fun r rs hp hr hm hl hb ho => ?_, fun hp c hc => ?_⟩, fun s ones hon => ⟨?_, ?_, ?_⟩⟩
  · obtain ⟨o, v, ht, hv, hsame, -, e⟩ := exec_mb1Ack_taken (.inl ⟨rfl, rfl⟩) hon hp
    rw [State.postNext_none (by exact hr), State.spiEnd_sound _ rfl rfl] at e
    have hown := (hsame rfl).1
    refine ⟨_, e, hv.self, ⟨s.setWin_setObs_only _ o, ht, hv.others, hv.rings, hv.quiet, ?_⟩, fun n => ?_, (hsame rfl).2⟩
    · show { v with status := _ } = _
      rw [hv.rest]; rfl
    · show v.ownAt n = _
      rw [Window.ownAt, hown]; rfl
  · obtain ⟨o, v, ht, hv, -, hback, e⟩ := exec_mb1Ack_taken (.inr ⟨rfl, rfl⟩) hon hp
    rw [State.postNext_none (by exact hr), State.spiEnd_sound _ rfl rfl] at e
    obtain ⟨hown, hturn⟩ := hback (by decide)
    refine ⟨_, e, hv.self, ⟨s.setWin_setObs_only _ o, ht, hv.others, hv.rings, hv.quiet, ?_⟩, ?_, hturn, fun k hk => ?_⟩
    · show { v with status := _ } = _
      rw [hv.rest]; rfl
    · show v.ownAt _ = _
      rw [Window.ownAt, hown]
      exact Window.setOwner_self _ _ _ (nbBuf_lt _)
    · show v.ownAt _ = _
      rw [Window.ownAt, hown]
      exact Window.setOwner_other _ _ _ hk
  · obtain ⟨o, v, ht, hv, hsame, -, e⟩ := exec_mb1Ack_taken (.inl ⟨rfl, rfl⟩) hon hp
    have hown : v.own = s.win.own := (hsame rfl).1
    have hmem : v.mem = s.win.mem := by rw [hv.rest]
    let u := ((s.setWin v).setObs o).setMgmt { s.mgmt with replies := rs }
    have hdev : (u.win.ownAt r.buf.toNat).own = .device := by
      show (v.ownAt r.buf.toNat).own = _
      rw [Window.ownAt, hown]; exact ho
    obtain ⟨o', e', ht'⟩ := State.postReply_eq (s := u) (bs := r.bytes) hdev
    have hfree : (((s.setWin v).setObs o).win.mbAt 1).pending = false := congrArg Mailbox.pending hv.self
    rw [State.postNext_some hfree (by exact hr)] at e
    have e2 := e.trans (congrArg (fun x : State => Host.Outcome.next (x.spiEnd SpiFlags.none)) e')
    rw [State.spiEnd_sound _ rfl rfl] at e2
    obtain ⟨h1, h2, h3, -, h5⟩ := State.replyWin_buffers (s := u) (n := r.buf.toNat) (bs := r.bytes) r.buf.isLt
      (show Memory.wf v.mem = true by rw [hmem]; exact hm) hl
    have hmb := (u.replyWin_mb r.buf.toNat r.bytes).1
    have hrest := u.replyWin_rest r.buf.toNat r.bytes
    have hbell : (u.replyWin r.buf.toNat r.bytes).db.getLsbD 0 = true := by rw [hrest]; simp
    have hnotice : nbBuf ((u.replyWin r.buf.toNat r.bytes).mbAt 1).notice = r.buf.toNat := by
      rw [hmb]; exact nbBuf_mkNotice r.buf.isLt _ _ _ _
    have hpend : ((u.replyWin r.buf.toNat r.bytes).mbAt 1).pending = true := by rw [hmb]; rfl
    clear hmb hrest
    generalize u.replyWin r.buf.toNat r.bytes = x at e2 h1 h2 h3 h5 hbell hnotice hpend
    have hmg : s.Only [.win, .mgmt, .obs] u := ⟨rfl, fun q hq => by cases q <;> first | exact absurd (by decide) hq | rfl⟩
    refine ⟨_, e2, hmg.trans ((State.setWin_setObs_only u _ o').mono (by simp)), rfl, hpend, hnotice, congrArg OwnWord.own h1, h3, hbell,
      fun a ha => ?_, fun k hk => ?_⟩
    · refine (h5 a ha).trans ?_
      show cellRead v.mem a = _
      rw [hmem]
    · refine (h2 k hk).trans ?_
      show v.ownAt k = _
      rw [Window.ownAt, hown]; rfl
  · obtain ⟨out, hw⟩ := s.wordWrite_eq 1
    obtain ⟨ea, eb⟩ := exec_mb1Ack hon
    rw [hw, State.hostMb1Ack_none (by exact hp), State.spiEnd_sound _ rfl rfl] at ea eb
    rcases List.mem_pair.1 hc with rfl | rfl
    · exact ⟨_, ea, s.setWin_only _, rfl⟩
    · exact ⟨_, eb, s.setWin_only _, rfl⟩
  · have e := exec_mb0AckRead true hon
    rw [drive_readOut, h41, h08, State.spiEnd_sound _ rfl rfl] at e
    refine ⟨_, e, ⟨rfl, fun q hq => by cases q <;> first | rfl | simp at hq⟩, rfl, ?_, fun k hk => ?_⟩
    · exact Window.setMb_self s.win _ (by norm_num)
    · exact Window.setMb_other s.win _ hk
  · have e := exec_mb0AckRead false hon
    rw [drive_readOut, h41, h08] at e
    obtain ⟨o, e', ht⟩ := State.spiEnd_eq _ ⟨!false, false, false, false, false⟩
    exact ⟨_, e.trans (congrArg Host.Outcome.next e'), State.setWin_setObs_only _ _ _, ht, rfl⟩
  · exact ⟨_, (show exec (.doorbellClear ones) s = stepIf s.spiOn s _ from rfl).trans (by rw [hon]; rfl), s.setWin_only _, rfl⟩

end Sys2Proof.Machine
end



section
/-! PROOFS. Locks and ownership words (11 R268, R274, R275, R292 to R294): what each request of one reference cycle finds and leaves. -/

namespace Sys2Proof.Machine

open Sys2Proof

set_option Elab.async false

section
variable {s t : State} {n : Nat} {who p : Party} {ps : List Party} {i j : Island}

/-! ## Locks of the window -/

/-- One lock replaced. -/
def Window.setLock (w : Window) (n : Nat) (b : Byte) : Window := { w with locks := w.locks.setIfInBounds n b }

theorem Window.setLock_self (w : Window) (b : Byte) (h : n < 8) : (w.setLock n b).lockAt n = b := by
  simp [Window.setLock, Window.lockAt, Vector.getD, h]

theorem Window.setLock_other (w : Window) (b : Byte) {k : Nat} (h : k ≠ n) : (w.setLock n b).lockAt k = w.lockAt k := by
  have : n ≠ k := fun e => h e.symm
  simp [Window.setLock, Window.lockAt, Vector.getD, this]

theorem partySrc_ne_zero (p : Party) : partySrc p ≠ 0 := by cases p <;> decide

/-- A party's read takes a free lock that it may have (11 R292, R294). -/
theorem State.lockRead_free {commit : Bool} (h : s.win.lockAt n = 0) (hm : mayLock n who = true) (hc : commit = true) :
    s.lockRead n who commit = (s.setWin (s.win.setLock n (partySrc who)), 0) := by
  simp [State.lockRead, h, hm, hc, Window.setLock]

theorem State.lockRead_stays {commit : Bool} (h : ¬ (s.win.lockAt n = 0 ∧ mayLock n who = true ∧ commit = true)) :
    s.lockRead n who commit = (s, s.win.lockAt n) := by rw [State.lockRead]; exact if_neg h

theorem mayLock_island (n : Nat) (h : partyIsland p = some i) : mayLock n p = true := by cases p <;> first | rfl | cases h

theorem partyIsland_inj {p q : Party} (h : partyIsland p = some i) (h' : partyIsland p = partyIsland q) : p = q := by
  cases p <;> cases q <;> simp_all [partyIsland]

/-! ## The islands' requests of one cycle (11 R293) -/

/-- `t` is `s` but for its locks and what they gave the islands; of the locks only `n` may differ. -/
structure State.Locks (n : Nat) (s t : State) : Prop where
  eq : t = s.setWin { s.win with locks := t.win.locks, lockVal := t.win.lockVal }
  alone : ∀ k, k ≠ n → t.win.lockAt k = s.win.lockAt k

theorem State.Locks.refl (n : Nat) (s : State) : s.Locks n s := ⟨rfl, fun _ _ => rfl⟩

theorem State.Locks.trans {u : State} (h : s.Locks n t) (k : t.Locks n u) : s.Locks n u :=
  ⟨by rw [k.eq, h.eq]; rfl, fun m hm => (k.alone m hm).trans (h.alone m hm)⟩

/-- What one island's request finds and leaves. -/
theorem State.islandLock_spec (hn : n < 8) (hp : partyIsland p = some i) : s.Locks n (s.islandLock n p) ∧
    (s.islandLock n p).win.lockAt n = (if s.win.lockAt n = 0 then partySrc p else s.win.lockAt n) ∧
    (s.islandLock n p).win.lockVal = s.win.lockVal.put i (s.win.lockAt n) := by
  have hm := mayLock_island n hp
  by_cases h : s.win.lockAt n = 0
  · have e : s.islandLock n p = s.setWin { s.win.setLock n (partySrc p) with lockVal := s.win.lockVal.put i 0 } := by
      simp only [State.islandLock, hp, State.lockRead_free h hm rfl]; rfl
    rw [e, if_pos h, h]
    exact ⟨⟨rfl, fun k hk => Window.setLock_other s.win _ hk⟩, Window.setLock_self s.win _ hn, rfl⟩
  · have e : s.islandLock n p = s.setWin { s.win with lockVal := s.win.lockVal.put i (s.win.lockAt n) } := by
      simp only [State.islandLock, hp, State.lockRead_stays (who := p) (commit := true) fun c => h c.1]
    rw [e, if_neg h]
    exact ⟨⟨rfl, fun _ _ => rfl⟩, rfl, rfl⟩

/-- A held lock stays its owner's, and each island that asks reads that owner. -/
theorem State.lockFold_held (hn : n < 8) (hps : ∀ p ∈ ps, ∃ i, partyIsland p = some i) (h : s.win.lockAt n ≠ 0) :
    let t := ps.foldl (fun s p => s.islandLock n p) s
    s.Locks n t ∧ t.win.lockAt n = s.win.lockAt n ∧
    (∀ p ∈ ps, ∀ j, partyIsland p = some j → t.win.lockVal.at j = s.win.lockAt n) ∧
    ∀ j, (∀ p ∈ ps, partyIsland p ≠ some j) → t.win.lockVal.at j = s.win.lockVal.at j := by
  induction ps generalizing s with
  | nil => exact ⟨.refl n s, rfl, fun p hp => absurd hp (by simp), fun _ _ => rfl⟩
  | cons q qs ih =>
    obtain ⟨i, hi⟩ := hps q (by simp)
    obtain ⟨h1, h2, h3⟩ := State.islandLock_spec (s := s) hn hi
    rw [if_neg h] at h2
    obtain ⟨k1, k2, k3, k4⟩ := ih (s := s.islandLock n q) (fun p hp => hps p (List.mem_cons_of_mem _ hp)) (by rw [h2]; exact h)
    rw [h2] at k2 k3
    refine ⟨h1.trans k1, k2, fun p hp j hj => ?_, fun j hj => ?_⟩
    · by_cases hq : ∃ r ∈ qs, partyIsland r = some j
      · obtain ⟨r, hr, hrj⟩ := hq
        exact k3 r hr j hrj
      · rw [List.mem_cons] at hp
        rcases hp with rfl | hp
        · rw [List.foldl_cons, k4 j (fun r hr hrj => hq ⟨r, hr, hrj⟩), h3]
          obtain rfl : i = j := Option.some.inj (hi.symm.trans hj)
          exact Quad.at_put_same _ _ _
        · exact absurd ⟨p, hp, hj⟩ hq
    · rw [List.foldl_cons, k4 j fun r hr => hj r (List.mem_cons_of_mem _ hr), h3]
      exact Quad.at_put_ne _ _ fun e => hj q (by simp) (hi.trans (by rw [e]))

/-- A lock after the requests of one cycle: held by its owner, or by the first that asks. -/
def lockAfter (lock : Byte) (ps : List Party) : Byte := if lock = 0 then (ps.head?.map partySrc).getD 0 else lock

/-- What one cycle's requests of islands, in their priority, find and leave (11 R292, R293). -/
theorem State.lockFold_spec (hn : n < 8) (hps : ∀ p ∈ ps, ∃ i, partyIsland p = some i) (hnd : ps.Nodup) :
    let t := ps.foldl (fun s p => s.islandLock n p) s
    s.Locks n t ∧ t.win.lockAt n = lockAfter (s.win.lockAt n) ps ∧
    ∀ p ∈ ps, ∀ j, partyIsland p = some j →
      t.win.lockVal.at j = if s.win.lockAt n = 0 ∧ ps.head? = some p then 0 else lockAfter (s.win.lockAt n) ps := by
  by_cases h : s.win.lockAt n = 0
  · cases ps with
    | nil => exact ⟨.refl n s, by simp [lockAfter, h], fun p hp => absurd hp (by simp)⟩
    | cons q qs =>
      obtain ⟨i, hi⟩ := hps q (by simp)
      obtain ⟨h1, h2, h3⟩ := State.islandLock_spec (s := s) hn hi
      rw [if_pos h] at h2
      obtain ⟨k1, k2, k3, k4⟩ := State.lockFold_held (s := s.islandLock n q) hn (fun p hp => hps p (List.mem_cons_of_mem _ hp))
        (by rw [h2]; exact partySrc_ne_zero q)
      have hlock : lockAfter (s.win.lockAt n) (q :: qs) = partySrc q := by simp [lockAfter, h]
      rw [hlock]
      rw [h2] at k2 k3
      refine ⟨h1.trans k1, k2, fun p hp j hj => ?_⟩
      rw [List.mem_cons] at hp
      have hq : q ∉ qs := (List.nodup_cons.1 hnd).1
      rcases hp with rfl | hp
      · rw [if_pos ⟨h, rfl⟩, List.foldl_cons, k4 j fun r hr hrj => hq ?_, h3]
        · obtain rfl : i = j := Option.some.inj (hi.symm.trans hj)
          rw [Quad.at_put_same, h]
        · rwa [partyIsland_inj hj (hj.trans hrj.symm)]
      · rw [if_neg fun c => hq (by rw [Option.some.inj (show some q = some p from c.2)]; exact hp)]
        exact k3 p hp j hj
  · obtain ⟨h1, h2, h3, -⟩ := State.lockFold_held (s := s) hn hps h
    have hlock : lockAfter (s.win.lockAt n) ps = s.win.lockAt n := if_neg h
    rw [hlock]
    exact ⟨h1, h2, fun p hp j hj => by rw [if_neg fun c => h c.1]; exact h3 p hp j hj⟩

/-! ## A cycle's requests as the model runs them -/

theorem asksLock_iff (who : Party) (others : List Party) (p : Party) :
    asksLock ⟨who, others⟩ p = (who :: others).contains p := by rw [asksLock, List.contains_cons]

/-- What the islands of a list that ask, in their priority, find and leave. -/
theorem State.lockCycle_spec (hn : n < 8) (ask : LockAsk) (hps : ∀ p ∈ ps, ∃ i, partyIsland p = some i) (hnd : ps.Nodup) :
    s.Locks n (s.lockCycle n ask ps) ∧
    (s.lockCycle n ask ps).win.lockAt n = lockAfter (s.win.lockAt n) (ps.filter (asksLock ask)) ∧
    ∀ p ∈ ps.filter (asksLock ask), ∀ j, partyIsland p = some j → (s.lockCycle n ask ps).win.lockVal.at j =
      if s.win.lockAt n = 0 ∧ (ps.filter (asksLock ask)).head? = some p then 0
      else lockAfter (s.win.lockAt n) (ps.filter (asksLock ask)) :=
  State.lockFold_spec hn (fun p hp => hps p (List.mem_of_mem_filter hp)) (hnd.filter _)

/-- A cycle in which the host does not ask, or takes no transactions. -/
theorem exec_lockAcquire_islands (n : Fin 8) (ask : LockAsk) (commit : Bool) (hh : asksLock ask .host = false)
    (hp : s.clock.powered = true) :
    exec (.lockAcquire n ask commit) s = .next (s.lockCycle n.val ask [.mgmt, .loop, .meas, .aon]) := by
  have e : (s.lockCycle n.val ask [.mgmt, .loop, .meas]).lockCycle n.val ask [.aon] =
      s.lockCycle n.val ask [.mgmt, .loop, .meas, .aon] := by
    rw [State.lockCycle, State.lockCycle, State.lockCycle, ← List.foldl_append, ← List.filter_append]; rfl
  show (if asksLock ask .host && s.spiOn then _ else stepIf s.clock.powered s _) = _
  rw [hh, hp]
  exact congrArg Host.Outcome.next e

/-! ## The host's read of a lock -/

theorem regWord_lock (s : State) (hn : n < 8) : s.regWord (0x4200 + 4 * n) = some (BitVec.ofNat 32 (s.win.lockAt n).toNat) := by
  simp only [State.regWord]
  rw [if_neg (by omega), if_neg (by omega), if_neg (by omega), if_neg (by omega), if_neg (by omega), if_neg (by omega), if_neg (by omega),
    if_neg (by omega), if_neg (by omega), if_neg (by omega), if_neg (by omega), if_pos (by omega),
    show (0x4200 + 4 * n - 0x4200) / 4 = n by omega]

/-- Of a read of a lock the actions are that of this lock. -/
theorem readActions_lock (s : State) (hn : n < 8) (commit : Bool) :
    s.readActions (0x4200 + 4 * n) 4 commit = (s.lockRead n .host commit).1 := by
  have hsel : s.selects (0x4200 + 4 * n) 4 = 0 := by rw [State.selects, if_neg (by omega)]
  have hcov (i : Nat) : decide (0x4200 + 4 * n ≤ 0x4200 + 4 * i ∧ 0x4200 + 4 * i < 0x4200 + 4 * n + 4) = decide (i = n) :=
    decide_eq_decide.2 (by omega)
  have hack : decide (0x4200 + 4 * n ≤ 0x4108 ∧ 0x4108 < 0x4200 + 4 * n + 4) = false := decide_eq_false (by omega)
  have hfold (f : State → Nat → State) : ∀ (l : List Nat) (x : State), l.Nodup →
      l.foldl (fun s i => if decide (i = n) = true then f s i else s) x = if n ∈ l then f x n else x := by
    intro l
    induction l with
    | nil => intro x _; rfl
    | cons a l ih =>
      intro x hnd
      rw [List.foldl_cons, ih _ (List.nodup_cons.1 hnd).2]
      by_cases ha : a = n
      · subst ha
        simp [(List.nodup_cons.1 hnd).1]
      · have : ¬ n = a := fun e => ha e.symm
        simp [ha, this]
  simp only [State.readActions, hsel, hcov, hack]
  rw [hfold _ _ _ List.nodup_range, if_pos (List.mem_range.2 hn)]
  simp

/-- What the host's read finds free and may have (11 R294). -/
def hostTakes (n : Nat) (found : Byte) : Bool := found == 0 && mayLock n .host

/-- The host's read of a lock: its value on HMISO, and the lock taken where the read stands (11 R266, R292, R294). -/
theorem State.spiRead_lock (t : State) (hn : n < 8) (commit : Bool) : ∃ o out, t.CountersBut [.spiCrcErr] (t.setObs o) ∧
    (t.pins.started.mgmt = true → byteAt out 4 = t.win.lockAt n) ∧
    t.spiRead (0x4200 + 4 * n) 4 10 commit true = (t.setWin
      { (if (hostTakes n (t.win.lockAt n) && commit) = true then t.win.setLock n 0x01 else t.win) with
        out := out, status := ⟨commit, !commit, false, false, false, false⟩ }).setObs o := by
  have hread := State.spiRead_word (s := t) (regWord_lock t hn) (by omega) (by omega) (by omega) commit
  have hlock : (t.lockRead n .host commit).1 =
      t.setWin (if (hostTakes n (t.win.lockAt n) && commit) = true then t.win.setLock n 0x01 else t.win) := by
    by_cases h : t.win.lockAt n = 0 ∧ mayLock n .host = true ∧ commit = true
    · rw [State.lockRead_free h.1 h.2.1 h.2.2, if_pos (by simp [hostTakes, h])]; rfl
    · rw [State.lockRead_stays h, if_neg]
      · rfl
      · simpa [hostTakes, and_assoc] using h
  rw [readActions_lock t hn, hlock] at hread
  generalize (if (hostTakes n (t.win.lockAt n) && commit) = true then t.win.setLock n 0x01 else t.win) = v at hread ⊢
  obtain ⟨out, hout, hd⟩ : ∃ out, (t.pins.started.mgmt = true → byteAt out 4 = t.win.lockAt n) ∧
      (t.setWin v).drive (t.readOut 0xA0 (0x4200 + 4 * n) (leBytes 4 (BitVec.ofNat 32 (t.win.lockAt n).toNat).toNat) true) 10 =
      t.setWin { v with out := out } := by
    refine ⟨_, fun hst => ?_, drive_readOut _ _ _⟩
    rw [if_pos (by exact hst)]
    show BitVec.ofNat 8 (BitVec.ofNat 32 (t.win.lockAt n).toNat).toNat = _
    exact BitVec.eq_of_toNat_eq (by simp; omega)
  rw [hd] at hread
  obtain ⟨o, e, ho⟩ := State.spiEnd_eq (t.setWin { v with out := out }) ⟨!commit, false, false, false, false⟩
  refine ⟨o, out, ho.mono ?_, hout, (hread.trans e).trans ?_⟩
  · cases commit <;> simp [SpiFlags.counters]
  · simp [SpiFlags.status]
    rfl

theorem exec_lockAcquire_host (n : Fin 8) (ask : LockAsk) (commit : Bool) (hh : asksLock ask .host = true) (hon : s.spiOn = true)
    {t u : State} (ht : t = s.lockCycle n.val ask [.mgmt, .loop, .meas]) (hu : u = t.spiRead (0x4200 + 4 * n.val) 4 10 commit true) :
    exec (.lockAcquire n ask commit) s = .next (if !asksLock ask .aon then u
      else if hostTakes n.val (t.win.lockAt n.val) then u.setWin { u.win with lockVal := u.win.lockVal.put .aon 0x01 }
      else u.islandLock n.val .aon) := by
  subst ht hu
  show (if asksLock ask .host && s.spiOn then _ else _) = _
  rw [hh, hon]
  rfl

/-- Whom a lock's read of the host leaves it to: itself where it may have a free lock, and AON after it (11 R266, R293, R294). -/
def lockLeft (n : Nat) (found : Byte) (commit aon : Bool) : Byte :=
  if hostTakes n found then (if commit then 0x01 else 0) else if found = 0 then (if aon then 0x40 else 0) else found

theorem lockLeft_read {found : Byte} {aon : Bool} (commit : Bool) (h : hostTakes n found = true ∨ aon = false) :
    (if (hostTakes n found && commit) = true then 0x01 else found) = lockLeft n found commit aon := by
  by_cases ht : hostTakes n found = true
  · have h0 : found = 0 := by simpa using (Bool.and_eq_true_iff.1 ht).1
    subst h0
    rw [lockLeft, if_pos ht, ht, Bool.true_and]
  · obtain rfl := h.resolve_left ht
    rw [lockLeft, if_neg ht, if_neg (by simp [ht])]
    split
    · next h0 => simp [h0]
    · rfl

/-- A cycle in which the host reads a lock. -/
theorem exec_lockAcquire_spec (n : Fin 8) (ask : LockAsk) (commit : Bool) (hh : asksLock ask .host = true) (hon : s.spiOn = true) :
    let before := [Party.mgmt, .loop, .meas].filter (asksLock ask)
    let lock := s.win.lockAt n.val
    let found := lockAfter lock before
    ∃ o w, exec (.lockAcquire n ask commit) s = .next ((s.setWin w).setObs o) ∧ s.CountersBut [.spiCrcErr] (s.setObs o) ∧
      w = { s.win with
        locks := w.locks, lockVal := w.lockVal, out := w.out, status := ⟨commit, !commit, false, false, false, false⟩ } ∧
      (∀ k, k ≠ n.val → w.lockAt k = s.win.lockAt k) ∧ w.lockAt n.val = lockLeft n.val found commit (asksLock ask .aon) ∧
      (s.pins.started.mgmt = true → byteAt w.out 4 = found) ∧
      (asksLock ask .aon = true → w.lockVal.at .aon = if hostTakes n.val found then 0x01 else found) ∧
      ∀ p ∈ before, ∀ j, partyIsland p = some j → w.lockVal.at j = if lock = 0 ∧ before.head? = some p then 0 else found := by
  intro before lock found
  have hex := exec_lockAcquire_host n ask commit hh hon rfl rfl
  obtain ⟨⟨heq, halone⟩, hlock, hvals⟩ := State.lockCycle_spec (s := s) (ps := [.mgmt, .loop, .meas]) n.isLt ask
    (by simp [partyIsland]) (by decide)
  generalize s.lockCycle n.val ask [.mgmt, .loop, .meas] = t at hex heq halone hlock hvals
  obtain ⟨o, out, ho, hout, hu⟩ := t.spiRead_lock n.isLt commit
  rw [hlock] at hout hu hex
  change (t.pins.started.mgmt = true → byteAt out 4 = found) at hout
  have hstarted : t.pins.started.mgmt = s.pins.started.mgmt := by rw [heq]; rfl
  have hobs : s.CountersBut [.spiCrcErr] (s.setObs o) := by
    have : t.obs = s.obs := by rw [heq]; rfl
    exact ⟨by simpa [this] using ho.1, fun c hc => by simpa [this] using ho.2 c hc⟩
  have hne : ∀ p ∈ before, ∀ j, partyIsland p = some j → j ≠ .aon := fun p hp j hj e => by
    have hmem := List.mem_of_mem_filter hp
    clear_value before found
    simp only [List.mem_cons, List.not_mem_nil, or_false] at hmem
    rcases hmem with rfl | rfl | rfl <;> cases hj <;> cases e
  have hlocked : ∃ w, t.spiRead (0x4200 + 4 * n.val) 4 10 commit true = (s.setWin w).setObs o ∧
      w = { s.win with
        locks := w.locks, lockVal := w.lockVal, out := w.out, status := ⟨commit, !commit, false, false, false, false⟩ } ∧
      (∀ k, k ≠ n.val → w.lockAt k = s.win.lockAt k) ∧
      w.lockAt n.val = (if (hostTakes n.val found && commit) = true then 0x01 else found) ∧ w.out = out ∧ w.lockVal = t.win.lockVal := by
    refine ⟨_, hu.trans (by rw [heq]; rfl), ?_⟩
    change _ ∧ _ ∧ _ = (if (hostTakes n.val (lockAfter (s.win.lockAt n.val) before) && commit) = true then _ else _) ∧ _ ∧ _
    split
    · exact ⟨by rw [heq]; rfl, fun k hk => (Window.setLock_other t.win _ hk).trans (halone k hk), Window.setLock_self t.win _ n.isLt,
        rfl, rfl⟩
    · exact ⟨by rw [heq]; rfl, halone, hlock, rfl, rfl⟩
  obtain ⟨w, hr, hw, hwalone, hwlock, hwout, hwval⟩ := hlocked
  rw [hr] at hex
  rw [← hwout] at hout
  by_cases haon : asksLock ask .aon = true
  · rw [if_neg (by simp [haon])] at hex
    by_cases htake : hostTakes n.val found = true
    · rw [if_pos htake] at hex
      refine ⟨o, { w with lockVal := w.lockVal.put .aon 0x01 }, hex, hobs, by rw [hw], hwalone, ?_, fun h => hout (hstarted.trans h), ?_,
        fun p hp j hj => ?_⟩
      · exact hwlock.trans (lockLeft_read commit (.inl htake))
      · rw [if_pos htake]
        exact fun _ => Quad.at_put_same w.lockVal .aon _
      · exact (Quad.at_put_ne _ _ (hne p hp j hj)).trans (by rw [hwval]; exact hvals p hp j hj)
    · rw [if_neg htake] at hex
      obtain ⟨⟨k1, k2⟩, k3, k4⟩ := State.islandLock_spec (s := (s.setWin w).setObs o) (p := .aon) (i := .aon) n.isLt rfl
      generalize ((s.setWin w).setObs o).islandLock n.val .aon = v at hex k1 k2 k3 k4
      have hfound : w.lockAt n.val = found := hwlock.trans (if_neg (by simp [htake]))
      have hv : v.win = { w with locks := v.win.locks, lockVal := v.win.lockVal } := by rw [k1]; rfl
      refine ⟨o, v.win, hex.trans (congrArg Host.Outcome.next ?_), hobs, ?_, fun k hk => (k2 k hk).trans (hwalone k hk), ?_,
        fun h => ?_, ?_, fun p hp j hj => ?_⟩
      · rw [k1]; rfl
      · rw [hv, hw]
      · refine k3.trans ?_
        change (if w.lockAt n.val = 0 then _ else w.lockAt n.val) = _
        rw [hfound, haon, lockLeft, if_neg htake]
        rfl
      · rw [hv]
        exact hout (hstarted.trans h)
      · rw [if_neg htake, k4]
        exact fun _ => (Quad.at_put_same w.lockVal .aon _).trans hfound
      · rw [k4]
        exact (Quad.at_put_ne w.lockVal _ (hne p hp j hj)).trans (by rw [hwval]; exact hvals p hp j hj)
  · rw [if_pos (by simp [haon])] at hex
    exact ⟨o, w, hex, hobs, hw, hwalone, hwlock.trans (lockLeft_read commit (.inr (by simpa using haon))), fun h => hout (hstarted.trans h), fun h => absurd h haon,
      fun p hp j hj => by rw [hwval]; exact hvals p hp j hj⟩

/-! ## Releases of a lock -/

/-- Whether a write of a lock frees it (11 R268, R292). -/
def frees (w : Window) (n : Nat) (who : Party) (v : Word32) : Bool := decide (v.toNat % 256 = 0 ∧ w.lockAt n = partySrc who)

/-- The window that a write of a lock leaves, HMISO and the status byte apart. -/
def Window.freed (w : Window) (n : Nat) (who : Party) (v : Word32) : Window := if frees w n who v then w.setLock n 0 else w

theorem Window.freed_spec (w : Window) (hn : n < 8) (who : Party) (v : Word32) :
    w.freed n who v = { w with locks := (w.freed n who v).locks } ∧
    (frees w n who v = true → (w.freed n who v).lockAt n = 0) ∧ (frees w n who v = false → (w.freed n who v).lockAt n = w.lockAt n) ∧
    ∀ k, k ≠ n → (w.freed n who v).lockAt k = w.lockAt k := by
  cases h : frees w n who v
  · rw [Window.freed, h, if_neg Bool.false_ne_true]
    exact ⟨rfl, fun c => absurd c (by decide), fun _ => rfl, fun _ _ => rfl⟩
  · rw [Window.freed, h, if_pos rfl]
    exact ⟨rfl, fun _ => w.setLock_self _ hn, fun c => absurd c (by decide), fun k hk => w.setLock_other _ hk⟩

theorem State.lockWrite_eq (s : State) (n : Nat) (who : Party) (v : Word32) :
    s.lockWrite n who v = (s.setWin (s.win.freed n who v), frees s.win n who v) := by
  by_cases h : v.toNat % 256 = 0 ∧ s.win.lockAt n = partySrc who
  · have hf : frees s.win n who v = true := decide_eq_true h
    rw [Window.freed, hf, if_pos rfl]; exact if_pos h
  · have hf : frees s.win n who v = false := decide_eq_false h
    rw [Window.freed, hf, if_neg Bool.false_ne_true]; exact if_neg h

theorem exec_lockRelease_host (n : Fin 8) (v : Word32) (h : s.spiOn = true) :
    ∃ out st, exec (.lockRelease n .host v) s = .next (s.setWin { s.win.freed n.val .host v with out := out, status := st }) ∧
      (frees s.win n.val .host v = false → st = ⟨true, false, true, false, false, false⟩) := by
  have e : exec (.lockRelease n .host v) s = .next (((s.lockWrite n.val .host v).1.drive [s.spiStatusByte] 8).spiEnd
      (if (s.lockWrite n.val .host v).2 then SpiFlags.none else SpiFlags.rsvdErr)) := by
    show stepIf s.spiOn s _ = _
    rw [h]; rfl
  rw [State.lockWrite_eq, State.drive_eq] at e
  cases hf : frees s.win n.val .host v
  · rw [hf, if_neg Bool.false_ne_true, State.spiEnd_sound _ rfl rfl] at e
    exact ⟨_, _, e, fun _ => rfl⟩
  · rw [hf, if_pos rfl, State.spiEnd_sound _ rfl rfl] at e
    exact ⟨_, _, e, fun c => absurd c (by decide)⟩

theorem exec_lockRelease_island (n : Fin 8) {who : Party} (v : Word32) (hw : who ≠ .host) (h : s.clock.powered = true) :
    exec (.lockRelease n who v) s = .next (s.setWin (s.win.freed n.val who v)) := by
  have e : exec (.lockRelease n who v) s = stepIf s.clock.powered s (s.lockWrite n.val who v).1 := by
    cases who <;> first | exact absurd rfl hw | rfl
  rw [e, h, State.lockWrite_eq]
  rfl

/-! ## Ownership words (11 R274, R275) -/

theorem State.hostOwn_takes {gen : BitVec 6} {o : Own} (hg : (s.win.ownAt n).gen = gen)
    (ht : hostTransition (s.win.ownAt n).own o = true) : s.hostOwn n (some o) gen = (s.setOwner n o 0x01, true) :=
  if_pos ⟨hg, ht⟩

theorem State.hostOwn_stays {gen : BitVec 6} {o : Own}
    (h : ¬ ((s.win.ownAt n).gen = gen ∧ hostTransition (s.win.ownAt n).own o = true)) :
    s.hostOwn n (some o) gen = (s, false) := if_neg h

/-- An island's write from another generation leaves the word. -/
theorem State.islandOwn_stale {w : OwnWrite} (h : (s.win.ownAt n).gen ≠ w.gen) : s.islandOwn n w = s := by
  unfold State.islandOwn
  split
  · rfl
  · exact if_neg fun c => h c.1

theorem State.islandOwn_foldl_stale {ws : List OwnWrite} (h : ∀ w ∈ ws, (s.win.ownAt n).gen ≠ w.gen) :
    ws.foldl (fun s w => s.islandOwn n w) s = s := by
  induction ws with
  | nil => rfl
  | cons w ws ih =>
    rw [List.foldl_cons, State.islandOwn_stale (h w (by simp))]
    exact ih fun x hx => h x (List.mem_cons_of_mem _ hx)

/-- The writes of the parties of a list, in that order. -/
def writesOf (others : List OwnWrite) (ps : List Party) : List OwnWrite := ps.flatMap fun p => others.filter (·.who == p)

/-- The host's write of one cycle (11 R275). -/
theorem State.ownCycle_eq (s : State) (n : Nat) (own : Option Own) (gen : BitVec 6) (others : List OwnWrite) :
    s.ownCycle n own gen others =
      let x := ((writesOf others [.mgmt, .loop, .meas]).foldl (fun s w => s.islandOwn n w) s).hostOwn n own gen
      ((writesOf others [.aon]).foldl (fun s w => s.islandOwn n w) x.1, x.2) := rfl

/-- A host's write that no island of a higher priority forestalls. -/
theorem State.ownCycle_takes {gen : BitVec 6} {o : Own} {others : List OwnWrite} (hn : n < 64)
    (ho : ∀ w ∈ others, w.who ≠ .mgmt ∧ w.who ≠ .loop ∧ w.who ≠ .meas ∧ w.gen = gen) (hg : (s.win.ownAt n).gen = gen)
    (ht : hostTransition (s.win.ownAt n).own o = true) : s.ownCycle n (some o) gen others = (s.setOwner n o 0x01, true) := by
  have hbefore : writesOf others [.mgmt, .loop, .meas] = [] := by
    simp only [writesOf, List.flatMap_cons, List.flatMap_nil, List.append_nil, List.append_eq_nil_iff, List.filter_eq_nil_iff,
      beq_iff_eq]
    exact ⟨fun w hw => (ho w hw).1, fun w hw => (ho w hw).2.1, fun w hw => (ho w hw).2.2.1⟩
  rw [State.ownCycle_eq, hbefore, List.foldl_nil, State.hostOwn_takes hg ht]
  have hafter : ∀ w ∈ writesOf others [.aon], ((s.setOwner n o 0x01).win.ownAt n).gen ≠ w.gen := fun w hw => by
    simp only [writesOf, List.flatMap_cons, List.flatMap_nil, List.append_nil, List.mem_filter] at hw
    rw [(ho w hw.1).2.2.2, ← hg]
    have : ((s.setOwner n o 0x01).win.ownAt n).gen = (s.win.ownAt n).gen + 1 :=
      congrArg OwnWord.gen (Window.setOwner_self s.win _ _ hn)
    rw [this]
    bv_omega
  exact congrArg (·, true) (State.islandOwn_foldl_stale hafter)

/-- What a transaction that writes one ownership word changes. -/
def State.EndsOwn (s : State) (c : Instr) (n : Nat) (x : OwnWord) (ok : Bool) : Prop := ∃ t, exec c s = .next t ∧ s.Only [.win] t ∧
  t.win = { s.win with own := t.win.own, out := t.win.out, status := ⟨ok, false, false, !ok, false, false⟩ } ∧
  t.win.ownAt n = x ∧ ∀ k, k ≠ n → t.win.ownAt k = s.win.ownAt k

/-- The host's change of a word to `o` (11 R274). -/
def ownInstr (n : Fin 64) (ask : OwnAsk) : Own → Instr
  | .free => .bufferRelease n ask
  | _ => .bufferClaim n ask

theorem exec_ownInstr (n : Fin 64) (ask : OwnAsk) {o : Own} (ho : o = .free ∨ o = .host) (h : s.spiOn = true) :
    exec (ownInstr n ask o) s = .next (((s.wordWrite 1).ownCycle n.val (some o) ask.gen ask.others).1.spiEnd
      ⟨false, false, !((s.wordWrite 1).ownCycle n.val (some o) ask.gen ask.others).2, false, false⟩) := by
  rcases ho with rfl | rfl <;> (show stepIf s.spiOn s _ = _; rw [h]; rfl)

/-- The transaction around one cycle's writes of a word. -/
theorem State.endsOwn_of (n : Fin 64) (ask : OwnAsk) {o : Own} (ho : o = .free ∨ o = .host) (h : s.spiOn = true) {x : OwnWord} {ok : Bool}
    (hc : ∀ out, ∃ v : Window, ((s.setWin { s.win with out := out }).ownCycle n.val (some o) ask.gen ask.others) = (s.setWin v, ok) ∧
      v = { s.win with own := v.own, out := out } ∧ v.ownAt n.val = x ∧ ∀ k, k ≠ n.val → v.ownAt k = s.win.ownAt k) :
    s.EndsOwn (ownInstr n ask o) n.val x ok := by
  obtain ⟨out, hw⟩ := s.wordWrite_eq 1
  obtain ⟨v, e, hv, hx, hk⟩ := hc out
  have he := exec_ownInstr n ask ho h
  rw [hw, e, State.spiEnd_sound _ rfl rfl] at he
  refine ⟨_, he, s.setWin_only _, ?_, hx, hk⟩
  rw [State.setWin_win, State.setWin_win, hv]
  cases ok <;> rfl

theorem State.EndsOwn.takes (n : Fin 64) {gen : BitVec 6} {others : List OwnWrite} {o : Own} (ho : o = .free ∨ o = .host)
    (h : s.spiOn = true) (hw : ∀ w ∈ others, w.who ≠ .mgmt ∧ w.who ≠ .loop ∧ w.who ≠ .meas ∧ w.gen = gen)
    (hg : (s.win.ownAt n.val).gen = gen) (ht : hostTransition (s.win.ownAt n.val).own o = true) :
    s.EndsOwn (ownInstr n ⟨gen, others⟩ o) n.val ⟨o, gen + 1, 0x01⟩ true :=
  State.endsOwn_of n ⟨gen, others⟩ ho h fun out => ⟨_, State.ownCycle_takes (s := s.setWin { s.win with out := out }) n.isLt hw hg ht, rfl,
    by rw [← hg]; exact Window.setOwner_self { s.win with out := out } _ _ n.isLt,
    fun k hk => Window.setOwner_other { s.win with out := out } _ _ hk⟩

theorem State.EndsOwn.stays (n : Fin 64) {gen : BitVec 6} {o : Own} (ho : o = .free ∨ o = .host) (h : s.spiOn = true)
    (ht : ¬ ((s.win.ownAt n.val).gen = gen ∧ hostTransition (s.win.ownAt n.val).own o = true)) :
    s.EndsOwn (ownInstr n ⟨gen, []⟩ o) n.val (s.win.ownAt n.val) false :=
  State.endsOwn_of n ⟨gen, []⟩ ho h fun out => ⟨{ s.win with out := out }, State.hostOwn_stays (s := s.setWin { s.win with out := out }) ht,
    rfl, rfl, fun _ _ => rfl⟩

theorem hostTransition_host (x : Own) : hostTransition x .host = true ↔ x = .free := by cases x <;> decide
theorem hostTransition_free (x : Own) : hostTransition x .free = true ↔ x = .host := by cases x <;> decide

/-- An island before the host in priority takes a FREE word for the device, and the host's claim of the same cycle fails. -/
theorem State.EndsOwn.forestalled (n : Fin 64) {w : OwnWrite} (hw : w.who = .mgmt ∨ w.who = .loop ∨ w.who = .meas) (ho : w.own = 2)
    (hg : (s.win.ownAt n.val).gen = w.gen) (hf : (s.win.ownAt n.val).own = .free) (h : s.spiOn = true) :
    s.EndsOwn (ownInstr n ⟨w.gen, [w]⟩ .host) n.val ⟨.device, w.gen + 1, partySrc w.who⟩ false := by
  refine State.endsOwn_of n ⟨w.gen, [w]⟩ (.inr rfl) h fun out => ?_
  let u := s.setWin { s.win with out := out }
  have hbefore : writesOf [w] [.mgmt, .loop, .meas] = [w] := by rcases hw with e | e | e <;> simp [writesOf, e]
  have hafter : writesOf [w] [.aon] = [] := by rcases hw with e | e | e <;> simp [writesOf, e]
  have hisl : u.islandOwn n.val w = u.setOwner n.val .device (partySrc w.who) := by
    rw [State.islandOwn, ho]
    exact if_pos ⟨hg, by rw [show (u.win.ownAt n.val).own = .free from hf]; rfl⟩
  have hself : (u.setOwner n.val .device (partySrc w.who)).win.ownAt n.val = ⟨.device, w.gen + 1, partySrc w.who⟩ := by
    rw [← hg]; exact Window.setOwner_self u.win _ _ n.isLt
  refine ⟨(u.setOwner n.val .device (partySrc w.who)).win, ?_, rfl, hself, fun k hk => Window.setOwner_other u.win _ _ hk⟩
  rw [State.ownCycle_eq, hbefore, hafter, List.foldl_cons, List.foldl_nil, hisl, State.hostOwn_stays]
  · rfl
  · rw [hself]
    exact fun c => Bool.false_ne_true c.2

end

theorem lockAfter_eq (lock : Byte) (ps : List Party) : lockAfter lock ps = if lock = 0 then (match ps with
    | [] => 0
    | p :: _ => partySrc p) else lock := by cases ps <;> rfl

theorem hostTakes_iff (n : Nat) (found : Byte) : hostTakes n found = true ↔ found = 0 ∧ ¬ (1 ≤ n ∧ n ≤ 3) := by
  simp only [hostTakes, mayLock, Bool.and_eq_true, beq_iff_eq]
  refine and_congr_right fun _ => ?_
  simp
  omega

/-- Settles O25: reads of a lock by the fold over a cycle's parties, ownership words by the order of a cycle's writes. -/
theorem locksAndOwnershipHaveOneHolder : Obligations.LocksAndOwnershipHaveOneHolder := by
  refine ⟨fun s n => ⟨fun i who others commit hi hh hp => ?_, fun who others commit hon hh => ?_, fun who v h => ?_⟩,
    fun s n gen others hon hw => ⟨fun hg hf => ?_, fun hf => ?_, fun hg hf => ?_, fun hf => ?_, fun w hwho hwg ho hg hf => ?_⟩⟩
  · have hask : asksLock ⟨who, others⟩ .host = false := by
      rw [asksLock_iff, List.contains_eq_mem, decide_eq_false_iff_not, List.mem_cons, not_or]
      exact ⟨fun e => by rw [← e] at hi; exact absurd hi (by simp [partyIsland]), hh⟩
    obtain ⟨h1, h2, h3⟩ := State.lockCycle_spec (s := s) (ps := [.mgmt, .loop, .meas, .aon]) n.isLt ⟨who, others⟩
      (by simp [partyIsland]) (by decide)
    have hasks : who ∈ [Party.mgmt, .loop, .meas, .aon].filter (asksLock ⟨who, others⟩) := by
      have hmem : who ∈ [Party.mgmt, .loop, .meas, .aon] := by cases who <;> simp_all [partyIsland]
      exact List.mem_filter.2 ⟨hmem, by simp [asksLock]⟩
    have he := exec_lockAcquire_islands n ⟨who, others⟩ commit hask hp
    generalize s.lockCycle n.val ⟨who, others⟩ [.mgmt, .loop, .meas, .aon] = t at he h1 h2 h3
    intro asks
    change t.win.lockAt n.val = lockAfter (s.win.lockAt n.val) asks at h2
    change ∀ p ∈ asks, ∀ j, partyIsland p = some j → t.win.lockVal.at j =
      if s.win.lockAt n.val = 0 ∧ asks.head? = some p then 0 else lockAfter (s.win.lockAt n.val) asks at h3
    obtain ⟨w, hw⟩ : ∃ w, asks.head? = some w := by
      rw [← Option.isSome_iff_exists, List.isSome_head?]
      exact List.ne_nil_of_mem hasks
    have hafter : lockAfter (s.win.lockAt n.val) asks = if s.win.lockAt n.val = 0 then partySrc w else s.win.lockAt n.val := by
      rw [lockAfter, hw]; rfl
    rw [hafter] at h2 h3
    refine ⟨t, w, he, h1.eq ▸ s.setWin_only _, by rw [h1.eq]; rfl, h1.alone, hw, h2, fun p hp j hj => (h3 p hp j hj).trans ?_⟩
    rw [hw]
    by_cases h0 : s.win.lockAt n.val = 0
    · by_cases hpw : p = w
      · rw [hpw, if_pos ⟨h0, rfl⟩, if_pos h0, if_pos rfl]
      · rw [if_neg fun c => hpw (Option.some.inj c.2).symm, if_pos h0, if_pos h0, if_neg hpw]
    · rw [if_neg fun c => h0 c.1, if_neg h0, if_neg h0]
  · obtain ⟨o, w, he, ho, hw, halone, hlock, hout, haon, hvals⟩ := exec_lockAcquire_spec (s := s) n ⟨who, others⟩ commit
      (by rw [asksLock_iff]; simpa using hh) hon
    intro before found mine aon
    have hfilter : [Party.mgmt, .loop, .meas].filter (asksLock ⟨who, others⟩) = before := List.filter_congr fun p _ => asksLock_iff _ _ p
    have hfound : lockAfter (s.win.lockAt n.val) before = found := lockAfter_eq _ _
    have hmine : hostTakes n.val found = true ↔ mine := hostTakes_iff _ _
    have haon' : asksLock ⟨who, others⟩ .aon = true ↔ aon := by rw [asksLock_iff, List.contains_eq_mem, decide_eq_true_iff]
    rw [hfilter, hfound] at hlock hout haon
    rw [hfilter, hfound] at hvals
    refine ⟨_, he, s.setWin_setObs_only _ o, ho, hw, halone, fun h => ?_, fun h0 hm => ?_, fun h0 => ?_, hout, fun h => ?_, hvals⟩
    · exact hlock.trans (if_pos (hmine.2 h))
    · refine (hlock.trans ((if_neg fun c => hm (hmine.1 c)).trans (if_pos h0))).trans ?_
      exact if_congr haon' rfl rfl
    · exact hlock.trans ((if_neg fun c => h0 (hmine.1 c).1).trans (if_neg h0))
    · exact (haon (haon'.2 h)).trans (if_congr hmine rfl rfl)
  · intro frees'
    by_cases hwho : who = .host
    · subst hwho
      obtain ⟨out, st, he, hst⟩ := exec_lockRelease_host (s := s) n v (by simpa using h)
      obtain ⟨hrest, hfree, hkeep, halone⟩ := s.win.freed_spec n.isLt .host v
      refine ⟨_, he, s.setWin_only _, ?_, fun hf => hfree (decide_eq_true hf), fun hf => hkeep (decide_eq_false hf), halone,
        fun _ hf => hst (decide_eq_false hf), fun c => absurd rfl c⟩
      rw [State.setWin_win, hrest]
    · obtain ⟨hrest, hfree, hkeep, halone⟩ := s.win.freed_spec n.isLt who v
      refine ⟨_, exec_lockRelease_island n v hwho (by simpa [hwho] using h), s.setWin_only _, ?_, fun hf => hfree (decide_eq_true hf),
        fun hf => hkeep (decide_eq_false hf), halone, fun c => absurd c hwho, fun _ => ?_⟩
      · rw [State.setWin_win, hrest]
      · rw [State.setWin_win, hrest]; exact ⟨rfl, rfl⟩
  · exact State.EndsOwn.takes n (.inr rfl) hon hw hg ((hostTransition_host _).2 hf)
  · exact State.EndsOwn.stays n (.inr rfl) hon fun c => hf ⟨c.1, (hostTransition_host _).1 c.2⟩
  · exact State.EndsOwn.takes n (.inl rfl) hon hw hg ((hostTransition_free _).2 hf)
  · exact State.EndsOwn.stays n (.inl rfl) hon fun c => hf ⟨c.1, (hostTransition_free _).1 c.2⟩
  · subst hwg
    exact State.EndsOwn.forestalled n hwho ho hg hf hon

end Sys2Proof.Machine
end



section
/-! PROOFS. Reads at the queue port (11 R273, 06 R159): what a place of the port reads, and what a committed read removes. -/

namespace Sys2Proof.Machine

open Sys2Proof

set_option Elab.async false

section
variable {s : State} {a n len : Nat}

/-- The 64 bits of a place of the port, of which `k` hold entries (11 R273). -/
def State.place (s : State) (k j : Nat) : Nat := if j < k then ((s.qReady[j]?).map QEntry.word).getD 0 else 0xFFFFFFFFFFFFFFFF

theorem State.portWord_eq {k : Nat} (hk : k ≤ s.qOcc) {j i : Nat} (hi : i < 8) :
    s.portWord a k (a + (8 * j + i)) = s.place k j := by
  have hj : (a + (8 * j + i) - a) / 8 = j := by omega
  simp only [State.portWord, hj, State.place]
  by_cases h : j < k
  · rw [if_pos h, if_pos h, List.getElem?_eq_getElem (show j < s.qReady.length from lt_of_lt_of_le h hk)]
    rfl
  · rw [if_neg h, if_neg h]

/-- A byte of the port in a read that starts on a place. -/
theorem State.readByte_port {k : Nat} (hk : k ≤ s.qOcc) (h8 : a % 8 = 0) (h0 : 0x4600 ≤ a) {j i : Nat} (hi : i < 8)
    (h1 : a + (8 * j + i) < 0x4700) :
    s.readByte a k (a + (8 * j + i)) = some (BitVec.ofNat 8 (s.place k j / 256 ^ i)) := by
  rw [State.readByte, if_neg (by omega), if_neg (by omega), if_pos h1, State.portWord_eq hk hi, show (a + (8 * j + i)) % 8 = i by omega]

theorem State.selects_le (s : State) (a n : Nat) : s.selects a n ≤ s.qOcc := by
  rw [State.selects]
  split
  · exact Nat.min_le_right _ _
  · exact Nat.zero_le _

/-- Of a read at the port the only action is the removal of what it selects (11 R266, R273). -/
theorem readActions_port (s : State) (h0 : 0x4600 ≤ a) (commit : Bool) : s.readActions a n commit =
    if (commit && s.selects a n != 0) = true then s.setMeas (s.meas.qDrop (s.selects a n)) else s := by
  have hcov (i : Nat) (hi : i < 8) : decide (a ≤ 0x4200 + 4 * i ∧ 0x4200 + 4 * i < a + n) = false := decide_eq_false (by omega)
  have hack : decide (a ≤ 0x4108 ∧ 0x4108 < a + n) = false := decide_eq_false (by omega)
  have hlocks : (List.range 8).foldl (fun s i => if decide (a ≤ 0x4200 + 4 * i ∧ 0x4200 + 4 * i < a + n) = true
      then (s.lockRead i .host commit).1 else s) s = s :=
    List.foldlRecOn (motive := fun x => x = s) _ _ rfl fun x hx i hi => by rw [hcov i (List.mem_range.1 hi), hx]; rfl
  simp only [State.readActions, hlocks, hack, Bool.false_eq_true, ↓reduceIte]

/-- The data bytes of a read at the port. -/
def State.portData (s : State) (a n : Nat) : List Byte := (List.range n).map fun i => (s.readByte a (s.selects a n) (a + i)).getD 0

/-- The data of a read follow the status byte and three zeros on HMISO (11 Table 11-2). -/
theorem byteAt_readOut (s : State) (cmd a : Nat) (data : List Byte) (sound : Bool) {i : Nat} (h : i < data.length) :
    byteAt (s.readOut cmd a data sound) (4 + i) = data.getD i 0 := by
  obtain ⟨x, y, e⟩ : ∃ x y, s.readOut cmd a data sound = [s.spiStatusByte, 0, 0, 0] ++ (data ++ [x, y]) := ⟨_, _, rfl⟩
  rw [byteAt, e, ← List.drop_drop, List.drop_left' (by rfl), List.drop_append_of_le_length h.le, List.drop_eq_getElem_cons h,
    List.getD_eq_getElem _ _ h]
  rfl

/-- A sound read at the port: its actions, its data on HMISO, and the status byte. -/
theorem State.spiRead_port (h0 : 0x4600 ≤ a) (h1 : a + n ≤ 0x4700) (h8 : a % 8 = 0) (commit : Bool) :
    s.spiRead a n (n + 6) commit true = ((s.readActions a n commit).drive
      (s.readOut (128 + 16 * lenCode n) a (s.portData a n) true) (n + 6)).spiEnd ⟨!commit, false, false, false, false⟩ := by
  have hsome : ((List.range n).map fun i => s.readByte a (s.selects a n) (a + i)).any (fun b => b.isNone) = false := by
    rw [List.any_eq_false]
    intro b hb
    obtain ⟨i, hi, rfl⟩ := List.mem_map.1 hb
    have hi' := List.mem_range.1 hi
    rw [show a + i = a + (8 * (i / 8) + i % 8) by omega, State.readByte_port (s.selects_le a n) h8 h0 (by omega) (by omega)]
    simp
  simp only [State.spiRead, hsome, List.map_map, Bool.and_true, Bool.true_and, Bool.not_true]
  rfl

end

/-- Settles O26: the data are read before the actions, and of these only the removal touches the queue. -/
theorem queueReadRemovesWhatItCommits : Obligations.QueueReadRemovesWhatItCommits := by
  intro s addr len commit hon h0 h1 hlen aligned k place
  have hcode : lenCode len < 8 := by
    simp only [List.mem_cons, List.not_mem_nil, or_false] at hlen
    rcases hlen with rfl | rfl | rfl | rfl | rfl | rfl | rfl | rfl <;> decide
  have he : exec (.queueRead addr len commit) s = .next (if badPort addr.toNat len
      then s.spiReadRefused (128 + 16 * lenCode len) addr.toNat len (len + 6) SpiFlags.frameErr
      else s.spiRead addr.toNat len (len + 6) commit true) := by
    have hok : (s.spiOn && decide (0x4600 ≤ addr.toNat ∧ addr.toNat < 0x4700 ∧ lenCode len < 8)) = true := by
      rw [hon, decide_eq_true ⟨h0, h1, hcode⟩]; rfl
    show stepIf _ s _ = _
    rw [hok]; rfl
  have hbad : badPort addr.toNat len = true ↔ ¬ aligned := by
    rw [badPort, decide_eq_true ⟨h0, h1⟩, Bool.true_and, Bool.not_eq_true', ← Bool.not_eq_true, Bool.and_eq_true, beq_iff_eq, beq_iff_eq]
  refine ⟨fun ha hend => ?_, fun ha => ?_⟩
  · rw [if_neg fun c => hbad.1 c ha, State.spiRead_port h0 hend ha.1] at he
    have hsel : s.selects addr.toNat len = k := by
      show _ = if s.mgmt.inForce.queueStream then 0 else min (len / 8) s.qOcc
      rw [State.selects, Nat.min_eq_left (show len ≤ 0x4700 - addr.toNat by omega)]
      by_cases hq : s.mgmt.inForce.queueStream = true <;> simp [hq, h0, h1]
    have hk : k ≤ s.qOcc := hsel ▸ s.selects_le _ _
    rw [readActions_port s h0, hsel] at he
    obtain ⟨m, hm, hq, hkeep⟩ : ∃ m : Meas, (if (commit && k != 0) = true then s.setMeas (s.meas.qDrop k) else s) = s.setMeas m ∧
        m = { s.meas with queue := if commit then s.meas.queue.drop k else s.meas.queue, qovf := m.qovf } ∧
        (commit = false → m = s.meas) := by
      by_cases hc : (commit && k != 0) = true
      · have hct : commit = true := (Bool.and_eq_true_iff.1 hc).1
        exact ⟨_, if_pos hc, by rw [hct]; rfl, fun c => absurd (hct.symm.trans c) (by decide)⟩
      · refine ⟨s.meas, if_neg hc, ?_, fun _ => rfl⟩
        cases commit
        · rfl
        · have hk0 : k = 0 := by simpa using hc
          rw [hk0]; rfl
    rw [hm, State.drive_eq] at he
    obtain ⟨out, hout⟩ : ∃ out, out = if (s.setMeas m).pins.started.mgmt = true
      then ((s.readOut (128 + 16 * lenCode len) addr.toNat (s.portData addr.toNat len) true) ++ zeros (len + 6)).take (len + 6)
      else [] := ⟨_, rfl⟩
    rw [← hout] at he
    obtain ⟨o, e, ho⟩ := State.spiEnd_eq ((s.setMeas m).setWin { (s.setMeas m).win with out := out })
      ⟨!commit, false, false, false, false⟩
    refine ⟨_, he.trans (congrArg Host.Outcome.next e), ⟨rfl, fun q hq => by cases q <;> first | exact absurd (by decide) hq | rfl⟩,
      ho.mono (by cases commit <;> simp [SpiFlags.counters]), ?_, fun hst => ?_, ?_, congrArg Meas.queue hq, hkeep⟩
    · simp [SpiFlags.status]
    · have hdata : (s.portData addr.toNat len).length = len := by simp [State.portData]
      have hl : (s.readOut (128 + 16 * lenCode len) addr.toNat (s.portData addr.toNat len) true).length = len + 6 := by
        simp [State.readOut, hdata]
        omega
      rw [if_pos (by exact hst), List.take_left' hl] at hout
      refine ⟨(congrArg List.length hout).trans hl, (congrArg (byteAt · 0) hout).trans rfl, fun j i hj hi => ?_⟩
      refine (congrArg (byteAt · (4 + 8 * j + i)) hout).trans ?_
      rw [Nat.add_assoc]
      refine (byteAt_readOut s _ _ (s.portData addr.toNat len) true (i := 8 * j + i) (by rw [hdata]; omega)).trans ?_
      rw [State.portData, List.getD_eq_getElem _ _ (by simp; omega), List.getElem_map, List.getElem_range, hsel,
        State.readByte_port hk ha.1 h0 hi (by omega)]
      rfl
    · show m = _
      rw [hq]; rfl
  · rw [if_pos (hbad.2 ha)] at he
    obtain ⟨o, e, ho⟩ := State.spiEnd_eq (s.drive (s.readOut (128 + 16 * lenCode len) addr.toNat (zeros len) false) (len + 6))
      SpiFlags.frameErr
    exact ⟨_, he.trans (congrArg Host.Outcome.next e), State.setWin_setObs_only _ _ _, ho, rfl⟩

end Sys2Proof.Machine
end



section
/-! PROOFS. MGMT's side of the mailboxes (11 R281, R285 to R290; 12 R299; 01 R18): taking notices, requests, acknowledges of earlier ticks,
the timeout of a held post, crossed waits. -/

namespace Sys2Proof.Machine

open Sys2Proof

set_option Elab.async false

section
variable {s t : State} {w : Window} {k n : Nat} {i : Island}

/-! ## Taking a notice (11 R281, 12 R299) -/

/-- The window of a notice that MGMT has answered: the acknowledge takes effect at the next boundary. -/
def State.answeredWin (s : State) (k : Nat) (code : Byte) : Window :=
  (s.win.setMb k { s.win.mbAt k with held := false, ack := some (code, 0x10, s.now) }).dbSet (some .mgmt) k false

theorem State.takeReq_eq (s : State) (hk : k = 0 ∨ k = 2) (code : Byte) : s.takeReq k code = s.setWin (s.answeredWin k code) := by
  rcases hk with rfl | rfl <;> rfl

theorem State.answeredWin_fields (s : State) (hk : k < 8) (code : Byte) :
    s.answeredWin k code = { s.win with mb := (s.answeredWin k code).mb, idb := (s.answeredWin k code).idb } ∧
    (s.answeredWin k code).mbAt k = { s.win.mbAt k with held := false, ack := some (code, 0x10, s.now) } ∧
    (∀ j, j ≠ k → (s.answeredWin k code).mbAt j = s.win.mbAt j) ∧
    ∀ i, i ≠ .mgmt → (s.answeredWin k code).idb.at i = s.win.idb.at i := by
  unfold State.answeredWin
  refine ⟨by rw [Window.dbSet_rest]; rfl, ?_, fun j hj => ?_, fun i hi => ?_⟩
  · rw [Window.dbSet_mbAt, Window.setMb_self _ _ hk]
  · rw [Window.dbSet_mbAt, Window.setMb_other _ _ hj]
  · exact Window.dbSet_idb _ _ _ _ fun e => hi (Option.some.inj e).symm

/-- MGMT takes from the mailbox whose notice reached it first (12 R299). -/
theorem exec_mb0NoticeConsume (hup : s.mgmtUp = true) (hr : s.ready = true) (hq : s.queueUse < 4)
    (hk : k = 0 ∧ s.mb0First = true ∨ k = 2 ∧ s.takeable 2 = true ∧ s.mb0First = false) : exec .mb0NoticeConsume s =
      .next (s.takeNotice k (if k = 0 then 0 else s.noticeSender (s.win.mbAt k).notice)) := by
  have hroom : (s.mgmtUp && s.ready && decide (s.queueUse < 4)) = true := by rw [hup, hr, decide_eq_true hq]; rfl
  show (if s.mb0First then stepIf _ s _ else stepIf (_ && s.takeable 2) s _) = _
  rw [hroom]
  rcases hk with ⟨rfl, h⟩ | ⟨rfl, h2, h⟩
  · rw [h]; rfl
  · rw [h, h2]; rfl

/-- What the notice's buffer must be and hold (12 R299). -/
def State.noticeFits (s : State) (k : Nat) : Prop :=
  let m := s.win.mbAt k
  1 ≤ nbLen m.notice ∧ nbLen m.notice ≤ 256 ∧ leAt (s.bufRead (nbBuf m.notice) 2) 0 2 = nbHint m.notice

theorem State.takeNotice_taken (sender : BitVec 12) (hk : k = 0 ∨ k = 2) (ho : (s.win.ownAt (nbBuf (s.win.mbAt k).notice)).own = .device)
    (hf : s.noticeFits k) : s.takeNotice k sender = State.settle 4 ((s.setWin (s.answeredWin k 0x00)).setMgmt { s.mgmt with
      queue := s.mgmt.queue ++ [⟨BitVec.ofNat 8 (nbSrc (s.win.mbAt k).notice), sender, BitVec.ofNat 6 (nbBuf (s.win.mbAt k).notice),
        nbLen (s.win.mbAt k).notice⟩] }) := by
  obtain ⟨h1, h2, h3⟩ := hf
  rw [State.takeNotice, if_neg (not_not.2 ho), if_neg (by rintro (c | c | c) <;> [omega; omega; exact c h3])]
  simp only [State.takeReq_eq s hk]
  rfl

theorem State.takeNotice_bad (sender : BitVec 12) (hk : k = 0 ∨ k = 2) (ho : (s.win.ownAt (nbBuf (s.win.mbAt k).notice)).own = .device)
    (hf : ¬ s.noticeFits k) : s.takeNotice k sender = (s.setWin (s.answeredWin k 0x01)).setOwner (nbBuf (s.win.mbAt k).notice)
      (if k = 0 then .host else .free) 0x10 := by
  have hbad : nbLen (s.win.mbAt k).notice = 0 ∨ 256 < nbLen (s.win.mbAt k).notice ∨
      leAt (s.bufRead (nbBuf (s.win.mbAt k).notice) 2) 0 2 ≠ nbHint (s.win.mbAt k).notice := by
    by_contra c
    simp only [not_or, not_not] at c
    exact hf ⟨by omega, by omega, c.2.2⟩
  rw [State.takeNotice, if_neg (not_not.2 ho), if_pos hbad]
  simp only [State.takeReq_eq s hk]
  rcases hk with rfl | rfl <;> rfl

theorem State.takeNotice_notOwned (sender : BitVec 12) (hk : k = 0 ∨ k = 2)
    (ho : (s.win.ownAt (nbBuf (s.win.mbAt k).notice)).own ≠ .device) : s.takeNotice k sender = s.setWin (s.answeredWin k 0x02) := by
  rw [State.takeNotice, if_pos ho]
  exact State.takeReq_eq s hk _

/-! ## Requests (01 R18, 11 R287) -/

theorem State.postReq_waits (op : Nat) (r : Req) (h : s.reqUp k = true) (hn : ¬ s.Enters k) :
    s.postReq k op r = s.setWin { s.win with posts := s.win.posts ++ [(k, reqNotice k op r, r)] } := by
  have hb : ((s.win.mbAt k).pending || s.win.posts.any (·.1 == k)) = true := by
    by_contra c
    rw [Bool.not_eq_true, Bool.or_eq_false_iff] at c
    exact hn ⟨h, c.1, c.2⟩
  rw [State.postReq, h, if_neg (by decide), if_pos hb]

theorem State.postReq_fails (op : Nat) (r : Req) (h : s.reqUp k = false) : s.postReq k op r = s := by
  rw [State.postReq, h]; rfl

/-! ## Acknowledges of earlier ticks (11 R281) -/

/-- The window that an acknowledge of an island leaves: that of MB0 rings DB_ACK0 as well. -/
def State.ackWin (s : State) (k : Nat) (code src : Byte) : Window :=
  { s.ackedWin k code src with db := if k = 0 then s.win.db ||| 0x2 else s.win.db }

theorem State.ackWin_rest (s : State) (k : Nat) (code src : Byte) : s.ackWin k code src = { s.win with
    mb := (s.ackWin k code src).mb, db := (s.ackWin k code src).db, crossSince := (s.ackWin k code src).crossSince
    crossRaised := (s.ackWin k code src).crossRaised, idb := (s.ackWin k code src).idb } := by
  unfold State.ackWin
  rw [State.ackedWin_rest]

theorem State.ackEffect_any (s : State) (k : Nat) (code src : Byte) :
    ∃ o, s.ackEffect k code src = (s.setWin (s.ackWin k code src)).setObs o ∧ s.OnlyTrace (s.setObs o) := by
  have hdb : (s.ackedWin k code src).db = s.win.db := by rw [State.ackedWin_rest]
  by_cases hk : k = 0
  · have hw : s.ackWin k code src = { s.ackedWin k code src with db := (s.ackedWin k code src).db ||| BitVec.twoPow 32 1 } := by
      rw [State.ackWin, if_pos hk, hdb]; rfl
    rw [State.ackEffect, hw]
    simp only [if_pos hk]
    exact (s.setWin _).emit_eq .mgmt 7 _ _
  · have hw : s.ackWin k code src = s.ackedWin k code src := by rw [State.ackWin, if_neg hk, ← hdb]
    rw [hw]
    exact s.ackEffect_eq code src hk

/-- An acknowledge that is due takes effect, and the mailbox takes its next post. -/
theorem exec_mbAcknowledge (k : Fin 8) {code src : Byte} {u : Nat} (hp : s.clock.powered = true)
    (ha : (s.win.mbAt k.val).ack = some (code, src, u)) (hl : (s.win.mbAt k.val).lost = false) (hu : u < s.now) :
    exec (.mbAcknowledge k) s = .next ((s.ackEffect k.val code src).afterAck k.val) := by
  show execMbAcknowledge k s = _
  rw [execMbAcknowledge, ha]
  simp only [hp, hl, decide_eq_true hu]
  rfl

theorem State.postWaiting_none (h : s.win.posts.find? (fun e => e.1 == k) = none) (hu : s.reqUp k = true) : s.postWaiting k = s := by
  rw [State.postWaiting, hu, h]
  simp

theorem State.postWaiting_some {e : Nat × Word64 × Req} (hp : (s.win.mbAt k).pending = false) (hu : s.reqUp k = true)
    (h : s.win.posts.find? (fun e => e.1 == k) = some e) : s.postWaiting k =
      (s.setWin { s.win with posts := s.win.posts.eraseP (·.1 == k) }).postMb k e.2.1 (k == 6 && s.mgmtAsleep) e.2.2 := by
  rw [State.postWaiting, if_neg (by simp [hp]), if_neg (by simp [hu]), h]

theorem State.failPost_only (s : State) (r : Req) : s.Only [.mgmt, .fab] (s.failPost r) := by
  unfold State.failPost
  split
  · exact (s.setFab_only _).mono (by simp)
  · split
    · exact (s.setMgmt_only _).mono (by simp)
    · exact .refl _ s

theorem State.failPosts_only (s : State) (rs : List Req) : s.Only [.mgmt, .fab] (rs.foldl State.failPost s) := by
  induction rs generalizing s with
  | nil => exact .refl _ s
  | cons r rs ih => exact (s.failPost_only r).trans (ih _)

/-- What an acknowledge leaves of the mailboxes and the doorbells of islands. -/
theorem State.ackWin_fields (s : State) (code src : Byte) (h : k < 8) : (s.ackWin k code src).mbAt k = s.ackedMb k code src ∧
    (∀ j, j ≠ k → (s.ackWin k code src).mbAt j = s.win.mbAt j) ∧
    (∀ i, mbFrom k = some i → ((s.ackWin k code src).idb.at i).getLsbD (8 + k) = true) ∧
    (∀ i, mbFrom k ≠ some i → (s.ackWin k code src).idb.at i = s.win.idb.at i) :=
  s.ackedWin_fields code src h

/-- An acknowledge takes effect where nothing waits for the mailbox. -/
theorem State.afterAck_free (o : Obs) (code src : Byte) (hw : s.fab.mb2Wait = []) (hu : k = 2 ∨ s.reqUp k = true)
    (h : k = 2 ∨ s.win.posts.find? (fun e => e.1 == k) = none) :
    ((s.setWin (s.ackWin k code src)).setObs o).afterAck k = (s.setWin (s.ackWin k code src)).setObs o := by
  by_cases hk : k = 2
  · rw [State.afterAck, if_pos hk, State.postMb2]
    rw [show ((s.setWin (s.ackWin k code src)).setObs o).fab.mb2Wait = [] from hw]
  · rw [State.afterAck, if_neg hk]
    refine State.postWaiting_none ?_ (hu.resolve_left hk)
    have : ((s.setWin (s.ackWin k code src)).setObs o).win.posts = s.win.posts := by
      show (s.ackWin k code src).posts = _
      rw [State.ackWin_rest]
    rw [this]
    exact h.resolve_left hk

/-- The acknowledge of a mailbox for which nothing waits. -/
theorem mbAcknowledge_free (k : Fin 8) {code src : Byte} {u : Nat} (hp : s.clock.powered = true)
    (ha : (s.win.mbAt k.val).ack = some (code, src, u)) (hl : (s.win.mbAt k.val).lost = false) (hu : u < s.now)
    (hw : s.fab.mb2Wait = []) (hup : k.val = 2 ∨ s.reqUp k.val = true)
    (h : k.val = 2 ∨ s.win.posts.find? (fun e => e.1 == k.val) = none) :
    ∃ o, exec (.mbAcknowledge k) s = .next ((s.setWin (s.ackWin k.val code src)).setObs o) ∧ s.OnlyTrace (s.setObs o) := by
  obtain ⟨o, e, ht⟩ := s.ackEffect_any k.val code src
  exact ⟨o, by rw [exec_mbAcknowledge k hp ha hl hu, e, State.afterAck_free o code src hw hup h], ht⟩

/-- The acknowledge of a mailbox for which a post waits: the post enters it. -/
theorem mbAcknowledge_next (k : Fin 8) {code src : Byte} {u : Nat} {e : Nat × Word64 × Req} (hp : s.clock.powered = true)
    (ha : (s.win.mbAt k.val).ack = some (code, src, u)) (hl : (s.win.mbAt k.val).lost = false) (hu : u < s.now)
    (hk : k.val ≠ 2) (hup : s.reqUp k.val = true) (h : s.win.posts.find? (fun e => e.1 == k.val) = some e) :
    ∃ o held, exec (.mbAcknowledge k) s = .next ((s.setWin ((s.setWin { s.ackWin k.val code src with
        posts := s.win.posts.eraseP (·.1 == k.val) }).postedWin k.val e.2.1 held e.2.2)).setObs o) ∧ s.OnlyTrace (s.setObs o) := by
  obtain ⟨o, ea, ht⟩ := s.ackEffect_any k.val code src
  have hposts : (s.ackWin k.val code src).posts = s.win.posts := by rw [State.ackWin_rest]
  have hfree : (((s.setWin (s.ackWin k.val code src)).setObs o).win.mbAt k.val).pending = false :=
    congrArg Mailbox.pending (s.ackWin_fields code src k.isLt).1
  have hw := State.postWaiting_some (s := (s.setWin (s.ackWin k.val code src)).setObs o) (k := k.val) (e := e) hfree hup
    (by show (s.ackWin k.val code src).posts.find? _ = _; rw [hposts]; exact h)
  obtain ⟨o', ep, ht'⟩ := ((((s.setWin (s.ackWin k.val code src)).setObs o)).setWin { s.ackWin k.val code src with
    posts := (s.ackWin k.val code src).posts.eraseP (·.1 == k.val) }).postMb_eq k.val e.2.1
    (k.val == 6 && ((s.setWin (s.ackWin k.val code src)).setObs o).mgmtAsleep) e.2.2
  refine ⟨o', k.val == 6 && ((s.setWin (s.ackWin k.val code src)).setObs o).mgmtAsleep, ?_, ht.trans ht'⟩
  rw [exec_mbAcknowledge k hp ha hl hu, ea, State.afterAck, if_neg hk, hw, ← hposts]
  exact congrArg Host.Outcome.next ep

/-- The acknowledge of a mailbox whose receiver is down by then: the posts that waited fail. -/
theorem mbAcknowledge_fails (k : Fin 8) {code src : Byte} {u : Nat} (hp : s.clock.powered = true)
    (ha : (s.win.mbAt k.val).ack = some (code, src, u)) (hl : (s.win.mbAt k.val).lost = false) (hu : u < s.now)
    (hk : k.val ≠ 2) (hdown : s.reqUp k.val = false) : ∃ t, exec (.mbAcknowledge k) s = .next t ∧ s.Only [.win, .mgmt, .fab, .obs] t ∧
      t.win = { s.ackWin k.val code src with posts := s.win.posts.filter (fun e => e.1 != k.val) } := by
  obtain ⟨o, ea, -⟩ := s.ackEffect_any k.val code src
  have hposts : (s.ackWin k.val code src).posts = s.win.posts := by rw [State.ackWin_rest]
  let v := ((s.setWin (s.ackWin k.val code src)).setObs o).setWin { s.ackWin k.val code src with
    posts := s.win.posts.filter (fun e => e.1 != k.val) }
  have hfree : (((s.setWin (s.ackWin k.val code src)).setObs o).win.mbAt k.val).pending = false :=
    congrArg Mailbox.pending (s.ackWin_fields code src k.isLt).1
  have hdown' : ((s.setWin (s.ackWin k.val code src)).setObs o).reqUp k.val = false := hdown
  have e : ((s.setWin (s.ackWin k.val code src)).setObs o).postWaiting k.val =
      ((s.win.posts.filter (·.1 == k.val)).map (·.2.2)).foldl State.failPost v := by
    rw [State.postWaiting, if_neg fun c => Bool.false_ne_true (hfree.symm.trans c), if_pos (by rw [hdown']; rfl)]
    show ((((s.ackWin k.val code src).posts.filter (·.1 == k.val)).map (·.2.2)).foldl State.failPost
      (((s.setWin (s.ackWin k.val code src)).setObs o).setWin { s.ackWin k.val code src with
        posts := (s.ackWin k.val code src).posts.filter (·.1 != k.val) })) = _
    rw [hposts]
  have honly := v.failPosts_only ((s.win.posts.filter (·.1 == k.val)).map (·.2.2))
  refine ⟨_, by rw [exec_mbAcknowledge k hp ha hl hu, ea, State.afterAck, if_neg hk, e], ?_, honly.2 .win (by simp)⟩
  exact State.Only.trans (t := v) ⟨rfl, fun q hq => by cases q <;> first | exact absurd (by decide) hq | rfl⟩ (honly.mono (by simp))

/-- What a post leaves, of a window that an acknowledge has left. -/
theorem withMailbox_of {x v w : Window}
    (hx : x = { v with mb := x.mb, crossSince := x.crossSince, crossRaised := x.crossRaised, idb := x.idb })
    (hv : v = { w with
      mb := v.mb, db := v.db, crossSince := v.crossSince, crossRaised := v.crossRaised, idb := v.idb, posts := v.posts }) :
    x = { w with
      mb := x.mb, db := x.db, crossSince := x.crossSince, crossRaised := x.crossRaised, idb := x.idb, posts := x.posts } := by
  have hdb : x.db = v.db := by rw [hx]
  have hposts : x.posts = v.posts := by rw [hx]
  rw [hdb, hposts]
  exact hx.trans (by rw [hv])

/-! ## The timeout of a held post, and crossed waits (11 R286, R290) -/

theorem State.withWin_setOwner (s : State) (w : Window) (o : Obs) (n : Nat) (x : Own) (src : Byte) :
    ((s.setWin w).setObs o).setOwner n x src = (s.setWin (w.setOwner n x src)).setObs o := rfl
theorem State.withWin_ring (s : State) (w : Window) (o : Obs) (bit : Nat) :
    ((s.setWin w).setObs o).ring bit = (s.setWin { w with db := w.db ||| BitVec.twoPow 32 bit }).setObs o := rfl
theorem State.withWin_count (s : State) (w : Window) (o : Obs) (c : Ctr) :
    ((s.setWin w).setObs o).count c = (s.setWin w).setObs (o.count c 1) := rfl

/-- The window of a held post that has timed out. -/
def State.timedOutWin (s : State) (k : Nat) : Window :=
  let w := (s.ackWin k 0x03 0x40).setMb k { s.ackedMb k 0x03 0x40 with timeout := true }
  if k = 0 then { w.setOwner (nbBuf (s.win.mbAt 0).notice) .host 0x40 with db := s.win.db ||| 0x802 } else w

theorem State.timedOutWin_fields (s : State) (hk : k < 8) :
    s.timedOutWin k = { s.win with
      own := (s.timedOutWin k).own, mb := (s.timedOutWin k).mb, db := (s.timedOutWin k).db
      crossSince := (s.timedOutWin k).crossSince, crossRaised := (s.timedOutWin k).crossRaised, idb := (s.timedOutWin k).idb } ∧
    (s.timedOutWin k).mbAt k = { s.ackedMb k 0x03 0x40 with timeout := true } ∧
    (∀ j, j ≠ k → (s.timedOutWin k).mbAt j = s.win.mbAt j) ∧
    (s.timedOutWin k).db = (if k = 0 then s.win.db ||| 0x802 else s.win.db) ∧
    (s.timedOutWin k).own = (if k = 0 then (s.win.setOwner (nbBuf (s.win.mbAt 0).notice) .host 0x40).own else s.win.own) := by
  have hrest := s.ackWin_rest k 0x03 0x40
  obtain ⟨-, hother, -, -⟩ := s.ackWin_fields 0x03 0x40 hk
  have hdb : (s.ackWin k 0x03 0x40).db = if k = 0 then s.win.db ||| 0x2 else s.win.db := rfl
  unfold State.timedOutWin
  generalize s.ackWin k 0x03 0x40 = v at hrest hother hdb ⊢
  have hown : v.own = s.win.own := by rw [hrest]
  have hat (n : Nat) : v.ownAt n = s.win.ownAt n := by rw [Window.ownAt, hown]; rfl
  have hset (n : Nat) : (v.setOwner n .host 0x40).own = (s.win.setOwner n .host 0x40).own := by
    simp only [Window.setOwner, hown, hat]
  by_cases h0 : k = 0
  · simp only [if_pos h0]
    exact ⟨by rw [hrest]; rfl, Window.setMb_self v _ hk, fun j hj => (Window.setMb_other v _ hj).trans (hother j hj), trivial, hset _⟩
  · simp only [if_neg h0] at hdb ⊢
    exact ⟨by rw [hrest]; rfl, Window.setMb_self v _ hk, fun j hj => (Window.setMb_other v _ hj).trans (hother j hj), hdb, hown⟩

theorem exec_mbTimeout (k : Fin 8) (hk : k.val = 0 ∨ k.val = 6) (hp : s.clock.powered = true) (hr : s.ready = false)
    (hpend : (s.win.mbAt k.val).pending = true) (hheld : (s.win.mbAt k.val).held = true) (hlong : 1000 ≤ s.now - (s.win.mbAt k.val).since) :
    ∃ o, exec (.mbTimeout k) s = .next ((s.setWin (s.timedOutWin k.val)).setObs o) ∧ s.CountersBut [.mbTimeout, .trcDrop] (s.setObs o) := by
  obtain ⟨o, ea, ht⟩ := s.ackEffect_any k.val 0x03 0x40
  have hmb := (s.ackWin_fields 0x03 0x40 k.isLt).1
  have hdue : (s.clock.powered && !s.ready && (k.val == 0 || k.val == 6) && (s.win.mbAt k.val).pending && (s.win.mbAt k.val).held &&
      decide (1000 ≤ s.now - (s.win.mbAt k.val).since)) = true := by
    rw [hp, hr, hpend, hheld, decide_eq_true hlong]
    rcases hk with h | h <;> rw [h] <;> rfl
  let t := (s.setWin (s.ackWin k.val 0x03 0x40)).setObs o
  let u := t.setWin (t.win.setMb k.val { t.win.mbAt k.val with timeout := true })
  have he : exec (.mbTimeout k) s =
      .next ((if k.val = 0 then (u.setOwner (nbBuf (s.win.mbAt k.val).notice) .host 0x40).ring 11 else u).count .mbTimeout) := by
    show stepIf _ s _ = _
    rw [hdue, ea]; rfl
  have hu : u = (s.setWin ((s.ackWin k.val 0x03 0x40).setMb k.val { s.ackedMb k.val 0x03 0x40 with timeout := true })).setObs o := by
    show t.setWin (_ : Window) = _
    rw [show t.win.mbAt k.val = s.ackedMb k.val 0x03 0x40 from hmb]; rfl
  refine ⟨o.count .mbTimeout 1, he.trans ?_, State.CountersBut.trans (ht.mono (by simp))
    (((s.setObs o).countN_counters .mbTimeout 1).mono (by simp))⟩
  have hdb : (s.win.db ||| 0x2) ||| BitVec.twoPow 32 11 = s.win.db ||| 0x802 := by rw [BitVec.or_assoc]; rfl
  rw [hu, State.timedOutWin]
  rcases hk with h | h
  · rw [if_pos h, if_pos h, h]
    let w := (s.ackWin 0 0x03 0x40).setMb 0 { s.ackedMb 0 0x03 0x40 with timeout := true }
    have hw : w.db ||| BitVec.twoPow 32 11 = s.win.db ||| 0x802 := hdb
    rw [← hw, State.withWin_setOwner, State.withWin_ring, State.withWin_count]
    rfl
  · have h0 : k.val ≠ 0 := by omega
    rw [if_neg h0, if_neg h0, State.withWin_count]

/-- Both mailboxes of a pair, marked. -/
def Window.crossed (w : Window) (p : Nat) : Window :=
  let v := w.setMb (2 * p) { w.mbAt (2 * p) with cross := true }
  let v := v.setMb (2 * p + 1) { v.mbAt (2 * p + 1) with cross := true }
  { v with crossRaised := v.crossRaised.set p true, db := if p = 0 then w.db ||| 0x1000 else w.db }

theorem Window.crossed_mbAt (w : Window) {p : Nat} (hp : p < 4) (j : Nat) : (w.crossed p).mbAt j =
    if j = 2 * p ∨ j = 2 * p + 1 then { w.mbAt j with cross := true } else w.mbAt j := by
  show ((w.setMb (2 * p) _).setMb (2 * p + 1) _).mbAt j = _
  by_cases h1 : j = 2 * p + 1
  · subst h1
    rw [Window.setMb_self _ _ (by omega), if_pos (.inr rfl), Window.setMb_other _ _ (by omega)]
  · rw [Window.setMb_other _ _ h1]
    by_cases h0 : j = 2 * p
    · subst h0
      rw [Window.setMb_self _ _ (by omega), if_pos (.inl rfl)]
    · rw [Window.setMb_other _ _ h0, if_neg (by omega)]

theorem exec_cross (p : Fin 4) {u : Nat} (hp : s.clock.powered = true) (hs : s.win.crossSince.getD p.val none = some u)
    (hu : 500 < s.now - u) (h0 : (s.win.mbAt (2 * p.val)).pending = true) (h1 : (s.win.mbAt (2 * p.val + 1)).pending = true)
    (hr : s.win.crossRaised.getD p.val false = false) :
    exec (.cross p) s = .next ((s.setWin (s.win.crossed p.val)).report 0x1F p.val 0x40) := by
  have hd : exec (.cross p) s = stepIf (s.clock.powered && (match s.win.crossSince.getD p.val none with
      | some t => decide (500 < s.now - t)
      | none => false) && ((s.win.mbAt (2 * p.val)).pending && (s.win.mbAt (2 * p.val + 1)).pending) &&
      !s.win.crossRaised.getD p.val false) s _ := rfl
  rw [hd, hs, hp, h0, h1, hr]
  simp only [decide_eq_true hu, Bool.and_self, Bool.not_false, stepIf, if_true]
  refine congrArg Host.Outcome.next ?_
  by_cases hz : p.val = 0
  · rw [if_pos hz, Window.crossed, if_pos hz]
    rfl
  · rw [if_neg hz, Window.crossed, if_neg hz]
    rfl

end

/-- Settles O27: each step as the window that it leaves, with the rules of the mailboxes. -/
theorem mailboxesTakeAnswerTimeOutAndCross : Obligations.MailboxesTakeAnswerTimeOutAndCross := by
  refine ⟨?_, fun s k op r h3 h8 => ⟨fun h => State.postReq_asks h8 h op r,
    fun h hn => State.postReq_waits op r h hn, fun h => State.postReq_fails op r h⟩, fun s hp => ⟨?_, ?_, ?_, ?_⟩⟩
  · intro s k hup hr hq hk m b len q fits answered
    have hk2 : k = 0 ∨ k = 2 := hk.imp And.left And.left
    have he := exec_mb0NoticeConsume hup hr hq hk
    have hw (code : Byte) := s.answeredWin_fields (k := k) (by omega) code
    refine ⟨fun ho hf hop => ?_, fun ho hf => ?_, fun ho => ?_⟩
    · rw [State.takeNotice_taken _ hk2 ho hf, State.settle_stays] at he
      · obtain ⟨h1, h2, h3, h4⟩ := hw 0x00
        exact ⟨_, he, ⟨rfl, fun q hq => by cases q <;> first | exact absurd (by decide) hq | rfl⟩, ⟨h2, h3, h4⟩, h1, rfl⟩
      · intro x hx
        rw [State.packetOf_congr (s := s)]
        · exact hop x hx
        · intro a _
          show cellRead (s.answeredWin k 0x00).mem a = _
          rw [(hw 0x00).1]
    · rw [State.takeNotice_bad _ hk2 ho hf] at he
      obtain ⟨h1, h2, h3, h4⟩ := hw 0x01
      have hown (n : Nat) : (s.answeredWin k 0x01).ownAt n = s.win.ownAt n := by rw [h1]; rfl
      refine ⟨_, he, s.setWin_only _, ⟨h2, h3, h4⟩, ?_, ?_, fun j hj => ?_⟩
      · show (s.answeredWin k 0x01).setOwner _ _ _ = _
        rw [h1]; rfl
      · exact (Window.setOwner_self _ _ _ (nbBuf_lt _)).trans (by rw [State.setWin_win, hown])
      · exact (Window.setOwner_other _ _ _ hj).trans (hown j)
    · rw [State.takeNotice_notOwned _ hk2 ho] at he
      obtain ⟨h1, h2, h3, h4⟩ := hw 0x02
      exact ⟨_, he, s.setWin_only _, ⟨h2, h3, h4⟩, h1⟩
  · intro k code src u ha hl hu hw hup
    have hrest := s.ackWin_rest k.val code src
    obtain ⟨hself, hother, hring, hquiet⟩ := s.ackWin_fields code src k.isLt
    have hposts0 : (s.ackWin k.val code src).posts = s.win.posts := by rw [hrest]
    have hrest' : s.ackWin k.val code src = { s.win with
        mb := (s.ackWin k.val code src).mb, db := (s.ackWin k.val code src).db, crossSince := (s.ackWin k.val code src).crossSince
        crossRaised := (s.ackWin k.val code src).crossRaised, idb := (s.ackWin k.val code src).idb
        posts := (s.ackWin k.val code src).posts } := by rw [hposts0]; exact hrest
    intro m
    cases hfind : s.win.posts.find? fun e => e.1 == k.val with
    | none =>
      obtain ⟨o, he, ht⟩ := mbAcknowledge_free k hp ha hl hu hw hup (.inr hfind)
      exact ⟨_, he, s.setWin_setObs_only _ o, ht, hrest', hother, rfl, fun i hf _ => hquiet i hf, hself,
        hposts0, hring⟩
    | some e =>
      by_cases hk : k.val = 2
      · obtain ⟨o, he, ht⟩ := mbAcknowledge_free k hp ha hl hu hw hup (.inl hk)
        exact ⟨_, he, s.setWin_setObs_only _ o, ht, hrest', hother, rfl, fun i hf _ => hquiet i hf,
          .inl hk⟩
      · obtain ⟨o, held, he, ht⟩ := mbAcknowledge_next k hp ha hl hu hk (hup.resolve_left hk) hfind
        let v := s.setWin { s.ackWin k.val code src with posts := s.win.posts.eraseP (·.1 == k.val) }
        obtain ⟨k1, k2, -, k4⟩ := v.postedWin_fields e.2.1 held e.2.2 k.isLt
        have hr := v.postedWin_rest k.val e.2.1 held e.2.2
        have hdb : (v.postedWin k.val e.2.1 held e.2.2).db = (s.ackWin k.val code src).db := by rw [hr]; rfl
        have hposts : (v.postedWin k.val e.2.1 held e.2.2).posts = s.win.posts.eraseP (·.1 == k.val) := by rw [hr]; rfl
        have hv : v.win = { s.win with
            mb := v.win.mb, db := v.win.db, crossSince := v.win.crossSince, crossRaised := v.win.crossRaised, idb := v.win.idb
            posts := v.win.posts } :=
          congrArg (fun w : Window => { w with posts := s.win.posts.eraseP (·.1 == k.val) }) hrest
        have hwin := withMailbox_of hr hv
        refine ⟨_, he, s.setWin_setObs_only _ o, ht, hwin, fun j hj => (k2 j hj).trans (hother j hj), hdb, fun i hf hto =>
          (k4 i hf hto).trans (hquiet i hf), .inr ⟨congrArg Mailbox.pending k1, congrArg Mailbox.notice k1, congrArg Mailbox.req k1,
          congrArg Mailbox.ack k1, hposts⟩⟩
  · intro k code src u ha hl hu hk hdown
    obtain ⟨t, he, honly, hwin⟩ := mbAcknowledge_fails k hp ha hl hu hk hdown
    exact ⟨t, he, honly, by rw [hwin], by rw [hwin]; exact (s.ackWin_fields code src k.isLt).1⟩
  · intro k hk hr hpend hheld hlong
    obtain ⟨o, he, ht⟩ := exec_mbTimeout k hk hp hr hpend hheld hlong
    obtain ⟨hrest, hself, hother, hdb, hown⟩ := s.timedOutWin_fields k.isLt
    have hat (j : Nat) : (s.timedOutWin k.val).ownAt j =
        (if k.val = 0 then s.win.setOwner (nbBuf (s.win.mbAt 0).notice) .host 0x40 else s.win).ownAt j := by
      rw [Window.ownAt, hown]
      split <;> rfl
    intro b
    refine ⟨_, he, s.setWin_setObs_only _ o, ht, hrest, hself, hother, hdb, fun h0 => ?_, fun j hj => ?_⟩
    · rw [show b = nbBuf (s.win.mbAt 0).notice by rw [← h0]]
      exact (hat _).trans (by rw [if_pos h0]; exact Window.setOwner_self _ _ _ (nbBuf_lt _))
    · refine (hat j).trans ?_
      by_cases h0 : k.val = 0
      · rw [if_pos h0]
        exact Window.setOwner_other _ _ _ (by rw [← h0]; exact hj h0)
      · rw [if_neg h0]
  · intro p u hs hu h0 h1 hr
    have he := exec_cross p hp hs hu h0 h1 hr
    exact ⟨_, he, ⟨rfl, fun q hq => by cases q <;> first | exact absurd (by decide) hq | rfl⟩, rfl, rfl,
      s.win.crossed_mbAt p.isLt, rfl⟩

end Sys2Proof.Machine
end



section
/-! PROOFS. Fragments, continuation reads and the ends of outstanding commands (12 R299, R300, R302, R303): each sends one reply, and what
waits in the queue stays there. -/

namespace Sys2Proof.Machine

open Sys2Proof

set_option Elab.async false

section
variable {s u v : State} {op n : Nat} {p : Packet} {bs : List Byte} {o : Outst}

/-! ## A reply that is sent -/

/-- What waits behind a packet: commands with assigned opcodes in buffers of their own. -/
def State.QueueStays (s : State) (p : Packet) (qs : List QueuedCmd) : Prop :=
  ∀ x ∈ qs, assignedOp (s.packetOf x).1 = true ∧ x.buf ≠ p.buf ∧ ∀ r ∈ s.mgmt.replies, x.buf ≠ r.buf

/-- Sending a reply changes what Sends says, and the queue stays as it is. -/
theorem State.QueueStays.sent (hq : s.QueueStays p v.mgmt.queue) (hm : s.memoryOk) (hl : ∀ r ∈ s.mgmt.replies, r.bytes.length ≤ 256)
    (hw : v.win.mem = s.win.mem) (hr : v.mgmt.replies = s.mgmt.replies) (hbs : bs.length ≤ 256) (via : Bool) :
    (v.setMgmt { v.mgmt with lastReply := bs }).Sends (s.ReplyBuf p) (s.ReplyBuf p) ((v.sendReply via p bs).settle 4) ∧
      (v.sendReply via p bs).settle 4 = v.sendReply via p bs := by
  have hs := State.Sends.sendReply (B := s.ReplyBuf p) (O := s.ReplyBuf p) v via p bs hbs (fun r h => by
    rw [hr] at h
    exact ⟨.inr ⟨r, h, rfl⟩, .inr ⟨r, h, rfl⟩, hl r h⟩) (.inl rfl) (.inl rfl)
  have hbytes : ∀ a, ¬ s.ReplyBuf p (a / 256) → cellRead (v.sendReply via p bs).win.mem a = cellRead s.win.mem a := fun a ha => by
    rw [hs.bytes (show Memory.wf v.win.mem = true by rw [hw]; exact hm) a ha]
    show cellRead v.win.mem a = _
    rw [hw]
  have hqueue : (v.sendReply via p bs).mgmt.queue = v.mgmt.queue := by rw [hs.mgmt]; rfl
  have e : (v.sendReply via p bs).settle 4 = v.sendReply via p bs := State.settle_stays 4 _ fun x hx => by
    rw [hqueue] at hx
    obtain ⟨h1, h2, h3⟩ := hq x hx
    rw [State.packetOf_congr (s := s) x fun a ha => hbytes a ?_]
    · exact h1
    · rw [ha]
      rintro (h | ⟨r, h, h'⟩)
      · exact h2 (BitVec.eq_of_toNat_eq h)
      · exact h3 r h (BitVec.eq_of_toNat_eq h')
  exact ⟨by rw [e]; exact hs, e⟩

/-- The end of a command is a counted and traced event, what is kept for continuation, and one reply. -/
theorem State.finish_eq (v : State) (op : Nat) (via : Bool) (p : Packet) (st : Nat) (res : List Byte) :
    ∃ o, v.finish op via p st res = ((v.setObs o).setMgmt { v.mgmt with
      kept := (v.mgmt.kept.filter fun k => k.src ≠ p.src) ++ (if 244 < res.length then [⟨p.src, op, p.tag, res, st⟩] else []) }).sendReply
        via p (firstReply op p.tag.toNat st p.src.toNat res) ∧ v.CountersBut [.cmdDone, .trcDrop] (v.setObs o) := by
  obtain ⟨o, e, h⟩ := (v.count .cmdDone).emit_eq .mgmt 8 (b2n true + 256 * p.src.toNat)
    [op + 65536 * p.tag.toNat + 16777216 * (st % 256)]
  refine ⟨o, ?_, ((v.countN_counters .cmdDone 1).mono (by simp)).trans (h.mono (by simp))⟩
  unfold State.finish
  dsimp only
  rw [show (v.count .cmdDone).emitCommand true p.src.toNat op p.tag.toNat st = v.setObs o from e]
  split
  · rfl
  · simp

/-! ## Fragments and continuation reads (12 R302, R303) -/

theorem State.take_next (h : s.Next op p) (hup : s.mgmtUp = true) (hr : s.ready = true) (hi : s.NoneWaits 0x0701) :
    ∃ via, s.take op p = some (s.setMgmt { s.mgmt with queue := s.queueRest }, via) := by
  have ht : s.takes = true := by simpa [State.takes, hup, hr, State.NoneWaits] using hi
  simp only [State.take, ht, ↓reduceIte]
  rcases h with e | ⟨q, qs, e, hq, -⟩
  · refine ⟨false, ?_⟩
    have : s.queueRest = s.mgmt.queue := by simp [State.queueRest, e]
    rw [e, this]
    rfl
  · exact ⟨true, by simp [State.queueRest, e, hq]⟩

/-- A packet that is taken is traced, and counts for its update session (12 R299, 14 R353). -/
theorem State.begun_eq (op : Nat) (p : Packet) : ∃ o, (s.setMgmt { s.mgmt with queue := s.queueRest }).begin op p =
    (s.setObs o).setMgmt { s.mgmt with queue := s.queueRest, upd := (s.started op p).mgmt.upd } ∧ s.OnlyTrace (s.setObs o) := by
  obtain ⟨o, e, h⟩ := (s.setMgmt { s.mgmt with queue := s.queueRest }).emit_eq .mgmt 8 (b2n false + 256 * p.src.toNat)
    [op + 65536 * p.tag.toNat + 16777216 * (0 % 256)]
  refine ⟨o, ?_, h⟩
  rw [State.begin, show (s.setMgmt { s.mgmt with queue := s.queueRest }).emitCommand false p.src.toNat op p.tag.toNat 0 = _ from e]
  unfold State.started
  split <;> rfl

/-- What a sender's packet adds to what its assembly holds. -/
def State.soFar (s : State) (op : Nat) (p : Packet) : List Byte :=
  ((s.mgmt.assemblies.find? fun a => a.src == p.src && a.op == op && a.tag == p.tag).map (·.bytes)).getD [] ++ p.params

theorem State.fragment_eq (via : Bool) (hf : fragmentable op = true) (hp : p.src ≠ 0x90) (hl : (s.soFar op p).length ≤ 4096) :
    s.fragment op via p = (s.setMgmt { s.mgmt with
      assemblies := (s.mgmt.assemblies.filter fun a => a.src ≠ p.src) ++ [⟨p.src, op, p.tag, s.soFar op p, s.now⟩] }).sendReply via p
        (firstReply op p.tag.toNat stOk p.src.toNat (leBytes 2 (s.soFar op p).length)) := by
  have hok : (!fragmentable op || p.src == 0x90) = false := by
    rw [hf, beq_eq_false_iff_ne.2 hp]; rfl
  rw [State.fragment, hok]
  cases hfind : s.mgmt.assemblies.find? fun a => a.src == p.src && a.op == op && a.tag == p.tag with
  | none =>
    have e : s.soFar op p = [] ++ p.params := by rw [State.soFar, hfind]; rfl
    rw [e] at hl ⊢
    exact if_neg (not_lt.2 hl)
  | some a =>
    have e : s.soFar op p = a.bytes ++ p.params := by rw [State.soFar, hfind]; rfl
    rw [e] at hl ⊢
    exact if_neg (not_lt.2 hl)

theorem State.continuation_eq (via : Bool) (hl : p.plen = 2) (hr : rightOf op s p = true) :
    (∀ k, (s.mgmt.kept.find? fun k => k.src == p.src && k.op == op && k.tag == p.tag) = some k → leAt p.params 0 2 < k.bytes.length →
      s.continuation op via p = s.sendReply via p (replyBytes op p.tag.toNat k.status p.src.toNat k.bytes.length
        (decide (leAt p.params 0 2 + 244 < k.bytes.length)) ((k.bytes.drop (leAt p.params 0 2)).take 244))) ∧
    ((s.mgmt.kept.find? fun k => k.src == p.src && k.op == op && k.tag == p.tag) = none →
      s.continuation op via p = s.sendReply via p (replyBytes op p.tag.toNat stBadParam p.src.toNat 0 false [])) := by
  refine ⟨fun k hk hoff => ?_, fun hk => ?_⟩
  · rw [State.continuation]
    simp only [if_neg (not_not.2 hl), hr, hk, Bool.not_true, Bool.false_eq_true, ↓reduceIte]
    rw [if_neg (by omega)]
  · rw [State.continuation]
    simp only [if_neg (not_not.2 hl), hr, hk, Bool.not_true, Bool.false_eq_true, ↓reduceIte]

/-- What an answer changes, the command's own effect apart. -/
structure State.Answered (s t : State) (p : Packet) (bs : List Byte) (cs : List Ctr) : Prop where
  reply : t.mgmt.lastReply = bs
  only : s.Only [.win, .mgmt, .faults, .fab, .obs] t
  bytes : ∀ a, ¬ s.ReplyBuf p (a / 256) → cellRead t.win.mem a = cellRead s.win.mem a
  counters : s.CountersBut cs t

/-- An answer sent from a state that differs from `s` in MGMT and in what is traced. -/
theorem State.QueueStays.answered {o : Obs} {m : Mgmt} {cs : List Ctr} (hq : s.QueueStays p m.queue) (hm : s.memoryOk)
    (hl : ∀ r ∈ s.mgmt.replies, r.bytes.length ≤ 256) (hr : m.replies = s.mgmt.replies) (hbs : bs.length ≤ 256) (via : Bool)
    (ho : s.CountersBut cs (s.setObs o)) (hcs : .ownViol ∈ cs ∧ .trcDrop ∈ cs) : let t := (((s.setObs o).setMgmt m).sendReply via p bs).settle 4
      s.Answered t p bs cs ∧ t.mgmt = { m with lastReply := t.mgmt.lastReply, replies := t.mgmt.replies } := by
  obtain ⟨hs, -⟩ := State.QueueStays.sent (v := (s.setObs o).setMgmt m) hq hm hl rfl hr hbs via
  have h0 : s.Only [.win, .mgmt, .faults, .fab, .obs] (((s.setObs o).setMgmt m).setMgmt { m with lastReply := bs }) :=
    ⟨rfl, fun q hq => by cases q <;> first | exact absurd (by decide) hq | rfl⟩
  exact ⟨⟨by rw [hs.mgmt]; rfl, h0.trans hs.only, hs.bytes hm, ho.trans (hs.counters.mono (by simpa using hcs))⟩,
    by rw [hs.mgmt]; rfl⟩

theorem replyBytes_short (op tag st src total : Nat) (more : Bool) (res : List Byte) :
    (replyBytes op tag st src total more (res.take 244)).length ≤ 256 := by
  rw [replyBytes_length, List.length_take]; omega

/-- A reply to the host leaves the other mailboxes. -/
theorem State.postNext_mbAt (s : State) {k : Nat} (hk : k ≠ 1) : s.postNext.win.mbAt k = s.win.mbAt k := by
  unfold State.postNext
  split
  · rfl
  · split
    · rfl
    · next r rs e =>
      by_cases hd : (s.win.ownAt r.buf.toNat).own = .device
      · obtain ⟨o, e', -⟩ := State.postReply_eq (s := s.setMgmt { s.mgmt with replies := rs }) (bs := r.bytes) hd
        rw [e']
        exact (State.replyWin_mb _ _ _).2 k hk
      · rw [State.postReply, if_neg (by exact hd), State.devWrite, if_neg (by exact hd)]
        rfl

theorem State.sendReply_host_mbAt (via : Bool) (hp : p.src = 0x01) {k : Nat} (hk : k ≠ 1) :
    (s.sendReply via p bs).win.mbAt k = s.win.mbAt k := by
  have hs : sessionOf p.src = none := by rw [hp]; rfl
  rw [State.sendReply]
  simp only [hs]
  split
  · rw [State.postNext_mbAt _ hk]; rfl
  · rw [if_neg fun c => absurd (hp.symm.trans c.1) (by decide)]
    rfl

/-! ## The end of an outstanding command (12 R299, R300) -/

theorem find?_unique {α : Type} {l : List α} {f : α → Bool} {x : α} (hx : x ∈ l) (hf : f x = true) (hu : ∀ y ∈ l, f y = true → y = x) :
    l.find? f = some x := by
  cases h : l.find? f with
  | none => exact absurd hf (List.find?_eq_none.1 h x hx)
  | some y => rw [hu y (List.mem_of_find?_eq_some h) (List.find?_some h)]

/-- The state in which a command has ended but for its reply: its request is gone from the window `w`, its reservation too. -/
def State.withoutOutst (s : State) (o : Outst) (w : Window) : State :=
  ((s.setWin w).setEnergy { s.energy with reserved := s.energy.reserved.filter fun e => e.1 ≠ o.op }).setMgmt
    { s.mgmt with outst := s.mgmt.outst.filter fun x => x.op ≠ o.op }

/-- What the end of an outstanding command changes. -/
structure State.Ended (s t : State) (o : Outst) (st : Nat) (res : List Byte) : Prop where
  reply : t.mgmt.lastReply = firstReply o.op o.pkt.tag.toNat st o.pkt.src.toNat res
  only : s.Only [.energy, .win, .mgmt, .faults, .fab, .obs] t
  energy : t.energy = { s.energy with reserved := s.energy.reserved.filter fun e => e.1 ≠ o.op }
  mgmt : t.mgmt = { s.mgmt with
    outst := s.mgmt.outst.filter fun x => x.op ≠ o.op, lastReply := t.mgmt.lastReply, replies := t.mgmt.replies
    kept := (s.mgmt.kept.filter fun k => k.src ≠ o.pkt.src) ++
      (if 244 < res.length then [⟨o.pkt.src, o.op, o.pkt.tag, res, st⟩] else []) }
  bytes : ∀ a, ¬ s.ReplyBuf o.pkt (a / 256) → cellRead t.win.mem a = cellRead s.win.mem a
  counters : s.CountersBut [.cmdDone, .ownViol, .trcDrop] t

theorem State.QueueStays.ended {w : Window} (hq : s.QueueStays o.pkt s.mgmt.queue) (hm : s.memoryOk)
    (hl : ∀ r ∈ s.mgmt.replies, r.bytes.length ≤ 256) (hw : w.mem = s.win.mem) (st : Nat) (res : List Byte) :
    s.Ended (((s.withoutOutst o w).finish o.op o.via o.pkt st res).settle 4) o st res ∧ (o.pkt.src = 0x01 → ∀ k, k ≠ 1 →
      (((s.withoutOutst o w).finish o.op o.via o.pkt st res).settle 4).win.mbAt k = w.mbAt k) := by
  obtain ⟨ob, e, hob⟩ := (s.withoutOutst o w).finish_eq o.op o.via o.pkt st res
  have hq' : (s.withoutOutst o w).QueueStays o.pkt s.mgmt.queue := fun x hx => by
    rw [State.packetOf_congr (s := s) x fun a _ => by show cellRead w.mem a = _; rw [hw]]
    exact hq x hx
  have hm' : (s.withoutOutst o w).memoryOk := by show Memory.wf w.mem = true; rw [hw]; exact hm
  let m : Mgmt := { (s.withoutOutst o w).mgmt with
    kept := (s.mgmt.kept.filter fun k => k.src ≠ o.pkt.src) ++ (if 244 < res.length then [⟨o.pkt.src, o.op, o.pkt.tag, res, st⟩] else []) }
  have hfirst := firstReply_length o.op o.pkt.tag.toNat st o.pkt.src.toNat res
  obtain ⟨-, hsettled⟩ := State.QueueStays.sent (v := ((s.withoutOutst o w).setObs ob).setMgmt m) hq' hm' hl rfl rfl hfirst o.via
  obtain ⟨h1, h2⟩ := State.QueueStays.answered (s := s.withoutOutst o w) (p := o.pkt) (o := ob) (m := m) hq' hm'
    hl rfl (firstReply_length o.op o.pkt.tag.toNat st o.pkt.src.toNat res) o.via
    (hob.mono (ds := [.cmdDone, .ownViol, .trcDrop]) (by simp)) (by simp)
  rw [e]
  have h0 : s.Only [.energy, .win, .mgmt, .faults, .fab, .obs] (s.withoutOutst o w) :=
    ⟨rfl, fun q hq => by cases q <;> first | exact absurd (by decide) hq | rfl⟩
  refine ⟨⟨h1.reply, h0.trans (h1.only.mono (by simp)), h1.only.2 .energy (by simp), h2,
    fun a ha => (h1.bytes a ha).trans (by show cellRead w.mem a = _; rw [hw]), h1.counters⟩, fun hsrc k hk => ?_⟩
  exact (congrArg (fun t : State => t.win.mbAt k) hsettled).trans (State.sendReply_host_mbAt o.via hsrc hk)

/-- The mailbox of a native opcode's request. -/
def reqMb (op : Nat) : Nat := if op = 0x0003 ∨ op = 0x0706 then 7 else if op / 256 = 2 ∨ op / 256 = 3 then 4 else 3

/-- A request that is withdrawn leaves the window's bytes; the first of its kind in its mailbox is no longer pending there (00 R3). -/
theorem State.withdrawReq_eq (s : State) (op n : Nat) : ∃ w, s.withdrawReq op n = s.setWin w ∧ w.mem = s.win.mem ∧
    (n = 0 → (s.win.mbAt (reqMb op)).unanswered = true → (s.win.mbAt (reqMb op)).req.native = some op →
      (w.mbAt (reqMb op)).pending = false) := by
  have hk : reqMb op < 8 := by unfold reqMb; split_ifs <;> norm_num
  obtain ⟨l, e⟩ : ∃ l, s.withdrawReq op n =
      if ((s.win.mbAt (reqMb op)).unanswered && (s.win.mbAt (reqMb op)).req.native == some op) = true ∧ n = 0
      then s.setWin ((s.win.putMb (reqMb op) { s.win.mbAt (reqMb op) with pending := false, held := false, ack := none, lost := false }
        s.now).dbSet (mbTo (reqMb op)) (reqMb op) false)
      else s.setWin { s.win with posts := l } := ⟨_, rfl⟩
  rw [e]
  split
  · refine ⟨_, rfl, by simp, fun _ _ _ => ?_⟩
    rw [Window.dbSet_mbAt, Window.putMb_self _ _ _ hk]
  · next h =>
    refine ⟨_, rfl, rfl, fun h0 h1 h2 => absurd ⟨?_, h0⟩ h⟩
    rw [h1, h2]; simp

theorem exec_outstandingCompletion {op : BitVec 16} {st : Nat} {res : List Byte} (hup : s.mgmtUp = true) (ho : o ∈ s.mgmt.outst)
    (hop : o.op = op.toNat) (hu : ∀ x ∈ s.mgmt.outst, x.op = o.op → x = o) (hd : o.done = some (st, res)) :
    exec (.outstandingCompletion op) s = .next (((s.withoutOutst o s.win).finish o.op o.via o.pkt st res).settle 4) := by
  have hf : s.mgmt.outst.find? (fun o => o.op == op.toNat && o.done.isSome) = some o :=
    find?_unique ho (by simp [hop, hd]) fun y hy h => hu y hy (by rw [hop]; simpa using (Bool.and_eq_true_iff.1 h).1)
  show execOutstandingCompletion op s = _
  rw [execOutstandingCompletion, hf]
  simp only [hd, hup, Option.getD_some, stepIf, if_true, ← hop]
  rfl

theorem exec_islandRequestTimeout {op : BitVec 16} (hup : s.mgmtUp = true) (ho : o ∈ s.mgmt.outst)
    (hop : o.op = op.toNat) (hu : ∀ x ∈ s.mgmt.outst, x.op = o.op → x = o) (hd : o.done = none) (hg : o.got = none)
    (ht : 5000 ≤ s.now - o.since) {w : Window} (hw : s.withdrawReq (nativeOf o.op) (s.mgmt.before o.op) = s.setWin w) :
    exec (.islandRequestTimeout op) s = .next (((s.withoutOutst o w).finish o.op o.via o.pkt stTimeout []).settle 4) := by
  have hf : s.mgmt.outst.find? (fun o => o.op == op.toNat && o.got.isNone && o.done.isNone) = some o :=
    find?_unique ho (by simp [hop, hd, hg]) fun y hy h => hu y hy (by
      rw [hop]; simpa using (Bool.and_eq_true_iff.1 (Bool.and_eq_true_iff.1 h).1).1)
  show execIslandRequestTimeout op s = _
  rw [execIslandRequestTimeout, hf]
  simp only [hup, decide_eq_true ht, Bool.and_self, stepIf, if_true, hw, ← hop]
  rfl

end

/-- Settles O28: each of the steps sends one reply, from the state that its own rule has left. -/
theorem fragmentsContinuationsAndOutstandingCommandsEnd : Obligations.FragmentsContinuationsAndOutstandingCommandsEnd := by
  refine ⟨fun s op p hup hr hi hm hl hnext hh => ?_, fun s op o hup hm hl hq ho hop huniq => ?_⟩
  · intro answers old
    have hold : s.soFar op.toNat p = old ++ p.params := by
      rw [State.soFar]
      simp only [old]
      cases s.mgmt.assemblies.find? fun a => a.src == p.src && a.op == op.toNat && a.tag == p.tag <;> rfl
    obtain ⟨via, htake⟩ := State.take_next hnext hup hr hi
    refine ⟨fun hmore hsrc hfrag hlen => ?_, fun hmore hcont hplen hright => ?_, fun src => rfl⟩
    · obtain ⟨ob, hb, hob⟩ := State.begun_eq (s := s) op.toNat p
      have he : exec (.commandFragment op p) s = .next ((((s.setMgmt { s.mgmt with queue := s.queueRest }).begin op.toNat p).fragment
          op.toNat via p).settle 4) := by
        show execCommandFragment op p s = _
        simp only [execCommandFragment, hmore, htake, hh, if_true]
      have hob' : ∀ c ∈ [Ctr.trcDrop], c ∈ [Ctr.ownViol, .trcDrop] := by simp
      rw [hb, State.fragment_eq via hfrag hsrc (by show (s.soFar op.toNat p).length ≤ 4096; rw [hold]; exact hlen)] at he
      obtain ⟨h1, h2⟩ := State.QueueStays.answered (s := s) (p := p) (o := ob) (m := { s.mgmt with
        queue := s.queueRest, upd := (s.started op.toNat p).mgmt.upd
        assemblies := (s.mgmt.assemblies.filter fun a => a.src ≠ p.src) ++ [⟨p.src, op.toNat, p.tag, old ++ p.params, s.now⟩] })
        hnext.rest hm hl rfl (firstReply_length op.toNat p.tag.toNat stOk p.src.toNat (leBytes 2 (old ++ p.params).length)) via (hob.mono hob') (by simp)
      rw [← hold] at h1 h2 ⊢
      exact ⟨_, he, ⟨h1.reply, h1.only, h1.bytes, h1.counters⟩, h2⟩
    · have he : exec (.continuationRead op p) s = .next (((s.setMgmt { s.mgmt with queue := s.queueRest }).continuation
          op.toNat via p).settle 4) := by
        show execContinuationRead op p s = _
        simp only [execContinuationRead, hmore, hcont, htake, hh, if_true, Bool.not_false, Bool.and_self]
      have hright' : rightOf op.toNat (s.setMgmt { s.mgmt with queue := s.queueRest }) p = true := hright
      obtain ⟨hkept, hnone⟩ := State.continuation_eq (s := s.setMgmt { s.mgmt with queue := s.queueRest }) via hplen hright'
      have hans (bs : List Byte) (hbs : bs.length ≤ 256) := State.QueueStays.answered (s := s) (p := p) (o := s.obs)
        (m := { s.mgmt with queue := s.queueRest }) hnext.rest hm hl rfl hbs via (State.CountersBut.refl [.ownViol, .trcDrop] s) (by simp)
      refine ⟨fun k hk hoff => ?_, fun hk => ?_⟩
      · rw [hkept k hk hoff] at he
        obtain ⟨h1, h2⟩ := hans _ (replyBytes_short op.toNat p.tag.toNat k.status p.src.toNat k.bytes.length
          (decide (leAt p.params 0 2 + 244 < k.bytes.length)) (k.bytes.drop (leAt p.params 0 2)))
        exact ⟨_, he, ⟨h1.reply, h1.only, h1.bytes, h1.counters⟩, h2⟩
      · rw [hnone hk] at he
        obtain ⟨h1, h2⟩ := hans _ (replyBytes_short op.toNat p.tag.toNat stBadParam p.src.toNat 0 false [])
        exact ⟨_, he, ⟨h1.reply, h1.only, h1.bytes, h1.counters⟩, h2⟩
  · have hstays : s.QueueStays o.pkt s.mgmt.queue := hq
    intro ends
    refine ⟨fun st res hd => ?_, fun hd hg ht => ?_, fun hd hg ht hsrc hbefore => ?_⟩
    · obtain ⟨h, -⟩ := hstays.ended hm hl rfl st res
      exact ⟨_, exec_outstandingCompletion hup ho hop huniq hd, h.reply, h.only, h.energy, h.mgmt, h.bytes, h.counters⟩
    · obtain ⟨w, hw, hmem, -⟩ := s.withdrawReq_eq (nativeOf o.op) (s.mgmt.before o.op)
      obtain ⟨h, -⟩ := hstays.ended hm hl hmem stTimeout []
      exact ⟨_, exec_islandRequestTimeout hup ho hop huniq hd hg ht hw, h.reply, h.only, h.energy, h.mgmt, h.bytes, h.counters⟩
    · obtain ⟨w, hw, hmem, hgone⟩ := s.withdrawReq_eq (nativeOf o.op) (s.mgmt.before o.op)
      obtain ⟨-, h⟩ := hstays.ended hm hl hmem stTimeout []
      intro n k hun hnat
      have hk : k ≠ 1 := by
        show (if _ then 7 else if _ then 4 else 3) ≠ 1
        split_ifs <;> decide
      exact ⟨_, exec_islandRequestTimeout hup ho hop huniq hd hg ht hw, by rw [h hsrc k hk]; exact hgone hbefore hun hnat⟩

end Sys2Proof.Machine
end



section
/-! PROOFS. Replies to the local host (11 R284, R290; 12 R297): their bytes, their buffer, their notice. -/

namespace Sys2Proof.Machine

open Sys2Proof

set_option Elab.async false

section
variable {s v t : State} {op n : Nat} {p : Packet} {bs : List Byte}

/-- A reply that has reached the host. -/
structure State.Handed (t : State) (n : Nat) (bs : List Byte) : Prop where
  bytes : t.bufRead n bs.length = bs
  owner : (t.win.ownAt n).own = .host
  pending : (t.win.mbAt 1).pending = true
  notice : (t.win.mbAt 1).notice = replyNotice n bs
  bell : t.win.db.getLsbD 0 = true
  replies : t.mgmt.replies = []

/-- The only reply leaves at once where MB1 is free (11 R284). -/
theorem State.sendReply_handed (via : Bool) (hm : s.memoryOk) (hp : p.src = 0x01) (ho : (s.win.ownAt p.buf.toNat).own = .device)
    (hf : (s.win.mbAt 1).pending = false) (hr : s.mgmt.replies = []) (hl : bs.length ≤ 256) :
    (s.sendReply via p bs).Handed p.buf.toNat bs := by
  have hs : sessionOf p.src = none := by rw [hp]; rfl
  let u := (s.setMgmt { s.mgmt with lastReply := bs }).setMgmt { s.mgmt with lastReply := bs, replies := [⟨p.src, p.buf, bs⟩] }
  have e : s.sendReply via p bs = u.postNext := by
    rw [State.sendReply]
    simp only [hs]
    rw [if_pos ⟨hp, .inr ho⟩]
    show ((s.setMgmt { s.mgmt with lastReply := bs }).setMgmt
      { { s.mgmt with lastReply := bs } with replies := s.mgmt.replies ++ [⟨p.src, p.buf, bs⟩] }).postNext = _
    rw [hr]; rfl
  obtain ⟨o, e', -⟩ := State.postReply_eq (s := u.setMgmt { u.mgmt with replies := [] }) (n := p.buf.toNat) (bs := bs) ho
  rw [e, State.postNext_some (s := u) (r := ⟨p.src, p.buf, bs⟩) (rs := []) hf rfl, e']
  have hb := State.replyWin_buffers (s := u.setMgmt { u.mgmt with replies := [] }) (n := p.buf.toNat) (bs := bs) p.buf.isLt hm hl
  have hmb := ((u.setMgmt { u.mgmt with replies := [] }).replyWin_mb p.buf.toNat bs).1
  have hbell : ((u.setMgmt { u.mgmt with replies := [] }).replyWin p.buf.toNat bs).db.getLsbD 0 = true := by
    rw [State.replyWin_rest]; simp
  generalize (u.setMgmt { u.mgmt with replies := [] }).replyWin p.buf.toNat bs = w at hb hmb hbell ⊢
  exact ⟨hb.2.2.1, congrArg OwnWord.own hb.1, congrArg Mailbox.pending hmb, congrArg Mailbox.notice hmb, hbell, rfl⟩

/-- A reply that meets a pending notice waits behind the others (11 R290). -/
theorem State.sendReply_waits (via : Bool) (hp : p.src = 0x01) (ho : (s.win.ownAt p.buf.toNat).own = .device)
    (hf : (s.win.mbAt 1).pending = true) :
    (s.sendReply via p bs).win = s.win ∧ (s.sendReply via p bs).mgmt.replies = s.mgmt.replies ++ [⟨p.src, p.buf, bs⟩] := by
  have hs : sessionOf p.src = none := by rw [hp]; rfl
  rw [State.sendReply]
  simp only [hs]
  rw [if_pos ⟨hp, .inr ho⟩, State.postNext, if_pos (by exact hf)]
  exact ⟨rfl, rfl⟩

theorem replyNotice_firstReply (n op tag st src : Nat) (ht : tag < 256) (res : List Byte) : let bs := firstReply op tag st src res
    replyNotice n bs = mkNotice n bs.length 0x10 (op % 32768 + 32768) tag := by
  intro bs
  obtain ⟨rest, e⟩ : ∃ rest, bs = leBytes 2 (op % 32768 + 32768) ++ (leBytes 1 tag ++ rest) :=
    ⟨_, by simp only [bs, firstReply, replyBytes, List.append_assoc]; rfl⟩
  have h0 : leAt bs 0 2 = op % 32768 + 32768 := by
    rw [e, leAt_append_left _ (by simp), leAt_leBytes]; omega
  have h2 : leAt bs 2 1 = tag := by
    rw [e, leAt_append_right _ _ (by simp), leBytes_length, leAt_append_left _ (by simp), leAt_leBytes]; omega
  rw [replyNotice, h0, h2]

/-- The end of a command of the host, whose reply leaves at once. -/
theorem State.finish_handed (via : Bool) (st : Nat) (res : List Byte) (hm : v.memoryOk) (hp : p.src = 0x01)
    (ho : (v.win.ownAt p.buf.toNat).own = .device) (hf : (v.win.mbAt 1).pending = false) (hr : v.mgmt.replies = []) :
    (v.finish op via p st res).Handed p.buf.toNat (firstReply op p.tag.toNat st p.src.toNat res) := by
  obtain ⟨o, e, -⟩ := v.finish_eq op via p st res
  rw [e]
  exact State.sendReply_handed (s := (v.setObs o).setMgmt _) via hm hp ho hf hr (firstReply_length _ _ _ _ _)

/-- The end of a command leaves what waits in the queue. -/
theorem State.QueueStays.finish (hq : s.QueueStays p v.mgmt.queue) (hm : s.memoryOk) (hl : ∀ r ∈ s.mgmt.replies, r.bytes.length ≤ 256)
    (hw : v.win = s.win) (hr : v.mgmt.replies = s.mgmt.replies) (via : Bool) (st : Nat) (res : List Byte) :
    (v.finish op via p st res).settle 4 = v.finish op via p st res := by
  obtain ⟨o, m, h1, h2, e⟩ : ∃ o m, m.queue = v.mgmt.queue ∧ m.replies = v.mgmt.replies ∧ v.finish op via p st res =
      ((v.setObs o).setMgmt m).sendReply via p (firstReply op p.tag.toNat st p.src.toNat res) := by
    obtain ⟨o, e, -⟩ := v.finish_eq op via p st res
    exact ⟨o, { v.mgmt with
      kept := (v.mgmt.kept.filter fun k => k.src ≠ p.src) ++ (if 244 < res.length then [⟨p.src, op, p.tag, res, st⟩] else []) },
      rfl, rfl, e⟩
  rw [← h1] at hq
  rw [e]
  exact (State.QueueStays.sent (v := (v.setObs o).setMgmt m) hq hm hl (congrArg Window.mem hw) (h2.trans hr)
    (firstReply_length _ _ _ _ _) via).2

end

/-- Settles O29: every command's end sends its reply, which is handed over or waits. -/
theorem replyReachesTheHost : Obligations.ReplyReachesTheHost := by
  refine ⟨fun s op via p st res hm hp ho => ⟨fun hf hr => ?_, fun hf => ?_⟩, fun s p ht hps hp ho hf hr => ?_⟩
  · have h := State.finish_handed (op := op) via st res hm hp ho hf hr
    rw [hp] at h
    exact ⟨h.bytes, h.owner, h.pending, h.notice.trans (replyNotice_firstReply _ _ _ _ _ p.tag.isLt _), h.bell, h.replies⟩
  · obtain ⟨o, e, -⟩ := s.finish_eq op via p st res
    obtain ⟨h1, h2⟩ := State.sendReply_waits (s := (s.setObs o).setMgmt { s.mgmt with
      kept := (s.mgmt.kept.filter fun k => k.src ≠ p.src) ++ (if 244 < res.length then [⟨p.src, op, p.tag, res, st⟩] else []) })
      (bs := firstReply op p.tag.toNat st p.src.toNat res) via hp ho hf
    show (s.finish op via p st res).win = _ ∧ (s.finish op via p st res).mgmt.replies = _
    rw [e]
    refine ⟨h1, h2.trans ?_⟩
    rw [hp]; rfl
  · have hright : rightOf 0x0001 (s.taken 0x0001 p) p = true := by rw [State.taken_rightOf]; exact ht.right
    have hlen : (plainCmd 0x0001 (· == 0)).len (s.paramsOf 0x0001 p).length = true := by rw [hps]; rfl
    obtain ⟨via, e⟩ := State.runCmd_admitted (c := plainCmd 0x0001 (· == 0)) (own := fun s _ _ => .done s stOk s.identifyBytes) ht
      hlen rfl rfl rfl hright rfl rfl (State.nvmRead_none _) (fun h => absurd h (by decide))
    have hid : (s.taken 0x0001 p).identifyBytes = s.identifyBytes := State.taken_identifyBytes s p
    have e' : exec (.devIdentify p) s = .next (((s.taken 0x0001 p).finish 0x0001 via { p with params := s.paramsOf 0x0001 p } stOk
        s.identifyBytes).settle 4) := by rw [← hid]; exact congrArg Host.Outcome.next e
    have hmem : (s.taken 0x0001 p).memoryOk := by rw [State.memoryOk, State.taken_win]; exact ht.memory
    have hreplies : (s.taken 0x0001 p).mgmt.replies = [] := by rw [State.taken_mgmt]; exact hr
    have hdone := State.finish_handed (v := s.taken 0x0001 p) (op := 0x0001) (p := { p with params := s.paramsOf 0x0001 p }) via stOk
      s.identifyBytes hmem hp (by rw [State.taken_win]; exact ho) (by rw [State.taken_win]; exact hf) hreplies
    have hqueue : (s.taken 0x0001 p).mgmt.queue = s.queueRest := by rw [State.taken_mgmt]
    have hrest : s.QueueStays { p with params := s.paramsOf 0x0001 p } (s.taken 0x0001 p).mgmt.queue := by
      rw [hqueue]; exact ht.next.rest
    have hl : ∀ r ∈ s.mgmt.replies, r.bytes.length ≤ 256 := by rw [hr]; simp
    have hs := State.QueueStays.finish hrest (op := 0x0001) ht.memory hl (State.taken_win s _ p) (hreplies.trans hr.symm) via stOk s.identifyBytes
    rw [hs] at e'
    generalize (s.taken 0x0001 p).finish 0x0001 via { p with params := s.paramsOf 0x0001 p } stOk s.identifyBytes = t at e' hdone
    change t.Handed p.buf.toNat (firstReply 0x0001 p.tag.toNat stOk p.src.toNat s.identifyBytes) at hdone
    rw [hp] at hdone
    exact ⟨t, e', hdone.bytes, hdone.owner, hdone.pending, hdone.notice.trans (replyNotice_firstReply _ _ _ _ _ p.tag.isLt _),
      hdone.bell, hdone.replies⟩

end Sys2Proof.Machine
end



section
/-! PROOFS. AON's power-up, the crystal and the power-on reset (01 R10, R14; 02 R34; 03 R63, R65; 14 R347). -/

namespace Sys2Proof.Machine

open Sys2Proof

set_option Elab.async false

/-- A loss of the supply leaves the NVM, but for pending activations. -/
theorem State.unpowered_dirs (s : State) (i : Island) : s.unpowered.nvm.dirs.at i = { s.nvm.dirs.at i with actTick := none } := by
  cases i <;> rfl

/-- The directories that a power-up finds (14 R347). -/
theorem Nvm.loadIdentity_dirs (n : Nvm) (i : Island) :
    n.loadIdentity.dirs.at i = { (n.loadRec (n.dirRecs.at i) (dirPages i)).getD (n.dirs.at i) with actTick := none } := by
  cases i <;> rfl

theorem loaded_dirs (s : State) (i : Island) : s.unpowered.nvm.loadIdentity.dirs.at i =
    { (s.nvm.loadRec (s.nvm.dirRecs.at i) (dirPages i)).getD (s.nvm.dirs.at i) with actTick := none } := by
  rw [Nvm.loadIdentity_dirs, State.unpowered_dirs]
  show { (s.nvm.loadRec (s.nvm.dirRecs.at i) (dirPages i)).getD _ with actTick := none } = _
  cases s.nvm.loadRec (s.nvm.dirRecs.at i) (dirPages i) <;> rfl

/-- Settles O30: a power-up is the reset state with what the NVM gives. -/
theorem powerUpStartsFromTheNvm : Obligations.PowerUpStartsFromTheNvm := by
  intro s testEn ctrs grants
  refine ⟨fun hp => ?_, fun hp hr => ?_, fun hp ha => ?_, fun ha => ?_, fun hp hin hl => ?_⟩
  · have he : exec (.aonPowerUp testEn) s = stepIf (!s.clock.powered) s _ := rfl
    rw [hp] at he
    refine ⟨_, he, rfl, rfl, rfl, loaded_dirs s, rfl, rfl, rfl, rfl, rfl, rfl, rfl, rfl, rfl, rfl, rfl, fun c => ⟨?_, ?_⟩, fun n => ?_, rfl, rfl,
      rfl⟩
    · exact Vector.getElem_ofFn _
    · exact Vector.getElem_ofFn _
    · exact congrArg Slice.retired (Vector.getElem_ofFn _)
  · have he : exec .crystalStart s = stepIf (s.clock.powered && !s.clock.running) s _ := rfl
    rw [he, hp, hr]; rfl
  · have he : exec .aonPowerOnReset s = stepIf (s.clock.powered && !s.energy.aux) s s.unpowered := rfl
    rw [hp, ha] at he
    exact ⟨_, he, rfl, rfl, s.unpowered_dirs⟩
  · have he : exec .aonPowerOnReset s = stepIf (s.clock.powered && !s.energy.aux) s s.unpowered := rfl
    rw [he, ha, Bool.not_true, Bool.and_false]; rfl
  · have he : exec (.rstNRelease testEn) s = stepIf (s.clock.powered && s.pins.inReset && s.pins.rstN.level) s _ := rfl
    rw [he, hp, hin, hl]; rfl

end Sys2Proof.Machine
end



section
/-! PROOFS. The image verification of a start and its almanac (03 R63, Table 3-10; 13 R325; 14 R345, R352, R359, R360). -/

namespace Sys2Proof.Machine

open Sys2Proof

set_option Elab.async false

section
variable {s : State}

/-! ## The image verification -/

/-- FAULT_N may be released: no CONT or FATAL fault is open and its minimum has passed (13 R325). -/
def State.mayFree (s : State) : Bool :=
  !s.pins.inReset && decide (s.faults.lowUntil ≤ s.now) && !(s.faults.opens.any fun o => decide (1 ≤ o.cls))

/-- MGMT goes on from a verified image (03 Table 3-10). -/
def State.goesOn (s : State) : State := { s with
  boot := .done, isl := s.isl.put .mgmt { s.isl.mgmt with released := true }
  faults := { s.faults with bootHold := false }
  mgmt := { s.mgmt with toLoad := s.mgmt.toLoad || s.faults.bootHold }
  pins := { s.pins with faultLow := s.pins.faultLow && !(s.faults.bootHold && s.mayFree) } }

theorem State.bootOk_eq (s : State) : s.bootOk = s.goesOn := by
  let u : State := { s with boot := .done, isl := s.isl.put .mgmt { s.isl.mgmt with released := true } }
  let v := (u.setFaults { s.faults with bootHold := false }).setMgmt { s.mgmt with toLoad := true }
  have e : s.bootOk = if s.faults.bootHold = true then v.freeFaultN else u := rfl
  have hfree : v.faultNFree = s.mayFree := rfl
  rw [e, State.goesOn]
  cases hh : s.faults.bootHold
  · rw [if_neg Bool.false_ne_true, Bool.or_false, Bool.false_and, Bool.not_false, Bool.and_true, ← hh]
  · rw [if_pos rfl, Bool.or_true, Bool.true_and, State.freeFaultN, hfree]
    cases s.mayFree
    · rw [if_neg Bool.false_ne_true, Bool.not_false, Bool.and_true]
      rfl
    · rw [if_pos rfl, Bool.not_true, Bool.and_false]
      rfl

/-- The directory in which a TRIAL slot that failed is marked (14 R359). -/
def SlotDir.trialFailed (d : SlotDir) : SlotDir := if d.active.st = .trial then d.setActive { d.active with st := .failed } else d

/-- The other slot may take over (14 R352, R360). -/
def State.otherAllowed (s : State) : Prop :=
  s.nvm.dirs.mgmt.inactive.st = .committed ∧ s.nvm.fuses.mgmt ≤ secVersion s.nvm.dirs.mgmt.inactive.version

theorem exec_bootVerify (activeOk otherOk : Bool) (hp : s.clock.powered = true) (hb : s.boot = .verify) :
    exec (.bootVerify activeOk otherOk) s = .next (if s.bootVerifies s.nvm.dirs.mgmt.active (s.activeMem .mgmt) activeOk then s.bootOk
      else if s.bootVerifies s.nvm.dirs.mgmt.inactive (s.inactiveMem .mgmt) otherOk && s.nvm.dirs.mgmt.inactive.st == .committed &&
        decide (s.nvm.fuses.mgmt ≤ secVersion s.nvm.dirs.mgmt.inactive.version)
      then (s.setDir .mgmt { s.nvm.dirs.mgmt.trialFailed with activeB := !s.nvm.dirs.mgmt.activeB }).bootOk
      else { s with boot := .recovery }) := by
  show stepIf (s.clock.powered && s.boot == .verify) s _ = _
  rw [hp, hb]; rfl

/-! ## The almanac of a start (03 Table 3-10) -/

/-- The almanac that a start finds. -/
def State.savedAlm (s : State) : Alm := (s.nvm.newestAlm.map (·.alm)).getD Alm.default

theorem savedAlm_eq (s : State) : s.savedAlm = (match s.nvm.newestAlm with
    | some x => x.alm
    | none => Alm.default) := by
  rw [State.savedAlm]
  cases s.nvm.newestAlm <;> rfl

theorem State.startAlm_ok {m : SlotMap} {fs : List SlotMap}
    (h : s.savedAlm.compile (s.newLevel .mgmt) s.meas.inService s.sources = .ok (m, fs)) : s.startAlm = s.loadAlm s.savedAlm m fs := by
  unfold State.startAlm
  cases hn : s.nvm.newestAlm <;> simp only [State.savedAlm, hn, Option.map, Option.getD] at h ⊢ <;> rw [h]

theorem State.startAlm_error {x : CompFail × Option SlotMap}
    (h : s.savedAlm.compile (s.newLevel .mgmt) s.meas.inService s.sources = .error x) : s.startAlm =
      (s.setMgmt { s.mgmt with shadow := Alm.default, committed := Alm.default, inForce := Alm.default }).setMeas
        { s.meas with map := SlotMap.empty 5000, fallback := [] } := by
  unfold State.startAlm
  cases hn : s.nvm.newestAlm <;> simp only [State.savedAlm, hn, Option.map, Option.getD] at h ⊢ <;> rw [h]

/-- What loading an almanac leaves of each part. -/
theorem State.loadAlm_spec (s : State) (a : Alm) (m : SlotMap) (fs : List SlotMap) : let t := s.loadAlm a m fs
    s.Only [.mgmt, .meas, .energy, .loop] t ∧ t.mgmt.toLoad = s.mgmt.toLoad ∧ t.mgmt.committed = a ∧ t.mgmt.shadow = a ∧
    t.meas.map = m ∧ t.meas.fallback = fs ∧ t.mgmt.pendMeas = none ∧ t.mgmt.startLoop = some ⟨a, s.now, none, false⟩ ∧
    t.mgmt.pendLoop = none ∧ t.mgmt.pendLine = some ⟨a, s.now, none, false⟩ ∧ t.meas.sxItem = a.sxChans.headD 20 ∧
    t.loop = { s.loop with duMax := m.duMax, g := m.g } ∧ t.energy = { s.energy with cost := m.cost, costLoop := m.costLoop } ∧
    ∀ q : Fin 4, t.meas.seqs[q] = if (a.sqAuto q.val && decide (0 < a.sqLen q.val)) = true then
      { s.meas.seqs[q] with startFrom := some 0 } else s.meas.seqs[q] := by
  intro t
  let qs := (List.range 4).filter fun q => a.sqAuto q && decide (0 < a.sqLen q)
  let m0 : Meas := { s.meas with map := m, fallback := fs, sxItem := a.sxChans.headD 20 }
  have hmeas : t.meas = qs.foldl (fun m q => m.setSeq q { m.seq q with startFrom := some 0 }) m0 := rfl
  have hrest := foldl_setSeq_rest (fun x => { x with startFrom := some 0 }) qs m0
  refine ⟨⟨rfl, fun q hq => by cases q <;> first | exact absurd (by decide) hq | rfl⟩, rfl, rfl, rfl, by rw [hmeas, hrest],
    by rw [hmeas, hrest], rfl, rfl, rfl, rfl, by rw [hmeas, hrest], rfl, rfl, fun q => ?_⟩
  have h := foldl_setSeq (fun x => { x with startFrom := some 0 }) qs (List.nodup_range.filter _)
    (fun q hq => List.mem_range.1 (List.mem_of_mem_filter hq)) m0 q.val
  have hseq (x : Meas) : x.seq q.val = x.seqs[q] := by simp [Meas.seq]
  rw [← hmeas, hseq, hseq] at h
  refine h.trans ?_
  have hq : q.val ∈ qs ↔ (a.sqAuto q.val && decide (0 < a.sqLen q.val)) = true :=
    List.mem_filter.trans (and_iff_right (List.mem_range.2 q.isLt))
  exact if_congr hq rfl rfl

theorem State.loadOnce_done (h : s.mgmt.toLoad = false) : s.loadOnce = s := by rw [State.loadOnce, h]; rfl

theorem State.loadOnce_due (h : s.mgmt.toLoad = true) : s.loadOnce = (s.setMgmt { s.mgmt with toLoad := false }).startAlm := by
  rw [State.loadOnce, h]; rfl

end

/-- Settles O31: the boot by its three outcomes, the almanac by its compiler's two. -/
theorem bootVerifyStartsMgmt : Obligations.BootVerifyStartsMgmt := by
  refine ⟨fun s activeOk otherOk hp hb => ?_, fun s hload => ?_⟩
  · intro freed d active other goes allowed
    have he := exec_bootVerify activeOk otherOk hp hb
    refine ⟨fun ha => ?_, fun ha ho hal => ⟨d.trialFailed, ?_, fun ht => if_neg ht, fun ht => (if_pos ht).trans (by rw [SlotDir.setActive, SlotDir.active]; split <;> rfl)⟩, fun ha hn => ?_⟩
    · rw [if_pos ha, State.bootOk_eq] at he
      exact he
    · have hcond : (other && d.inactive.st == .committed && decide (s.nvm.fuses.mgmt ≤ secVersion d.inactive.version)) = true := by
        rw [ho, hal.1, decide_eq_true hal.2]; rfl
      rw [if_neg fun c => Bool.false_ne_true (ha.symm.trans c), if_pos hcond, State.bootOk_eq] at he
      exact he
    · have hcond : ¬ (other && d.inactive.st == .committed && decide (s.nvm.fuses.mgmt ≤ secVersion d.inactive.version)) = true := by
        simp only [Bool.and_eq_true, beq_iff_eq, decide_eq_true_eq, not_and]
        intro c
        rcases hn with hn | hn
        · rw [hn] at c
          exact absurd c.1 (by decide)
        · exact fun hv => hn ⟨c.2, hv⟩
      rw [if_neg fun c => Bool.false_ne_true (ha.symm.trans c), if_neg hcond] at he
      exact he
  · intro saved t
    let u := s.setMgmt { s.mgmt with toLoad := false }
    have hsaved : u.savedAlm = saved := savedAlm_eq u
    have ht : t = u.startAlm := State.loadOnce_due hload
    cases hc : saved.compile (s.newLevel .mgmt) s.meas.inService s.sources with
    | ok r =>
      obtain ⟨m, fs⟩ := r
      have hok : u.savedAlm.compile (u.newLevel .mgmt) u.meas.inService u.sources = .ok (m, fs) := by rw [hsaved]; exact hc
      have hu : s.Only [.mgmt, .meas, .energy, .loop] u := (s.setMgmt_only _).mono (by simp)
      have hspec := u.loadAlm_spec saved m fs
      rw [State.startAlm_ok hok, hsaved] at ht
      rw [ht]
      obtain ⟨honly, hto, h1, h2, h3, h4, h5, h6, h7, h8, h9, h10, h11, h12⟩ := hspec
      exact ⟨hto, hu.trans honly, State.loadOnce_done hto, h1, h2, h3, h4, h5, h6, h7, h8, h9, h10, h11, h12⟩
    | error x =>
      have herr : u.savedAlm.compile (u.newLevel .mgmt) u.meas.inService u.sources = .error x := by rw [hsaved]; exact hc
      rw [State.startAlm_error herr] at ht
      rw [ht]
      exact ⟨rfl, ⟨rfl, fun q hq => by cases q <;> first | exact absurd (by decide) hq | rfl⟩, State.loadOnce_done rfl, rfl⟩

end Sys2Proof.Machine
end



section
/-! PROOFS. RST_N and the reset of an island (01 R18; 02 R31; 03 R64; 11 R279). -/

namespace Sys2Proof.Machine

open Sys2Proof

set_option Elab.async false

section
variable {s t : State}

/-! ## An island's fence -/

/-- What the fence of an island leaves alone. -/
structure State.Fenced (i : Island) (s t : State) : Prop where
  only : s.Only [.pins, .energy, .meas, .loop, .win, .mgmt, .ready, .ports, .decoder, .decFree, .dspFree, .fsk, .fab, .obs] t
  win : t.win = { s.win with mb := t.win.mb, posts := s.win.posts.filter fun e => mbFrom e.1 ≠ some i }
  others : ∀ k, k ≠ 0 → k ≠ 6 → t.win.mbAt k = s.win.mbAt k
  notices : ∀ k, (t.win.mbAt k).notice = (s.win.mbAt k).notice ∧ (t.win.mbAt k).pending = (s.win.mbAt k).pending
  copies : t.mgmt.committed = s.mgmt.committed ∧ t.mgmt.inForce = s.mgmt.inForce
  alarms : t.loop.hwAlarm = s.loop.hwAlarm ∧ t.loop.auxAlarm = s.loop.auxAlarm ∧ t.loop.miswire = s.loop.miswire
  pins : i ≠ .aon → t.pins = { s.pins with exc := t.pins.exc, excDrive := t.pins.excDrive, brk := t.pins.brk }

theorem State.fenceMeas_fenced (s : State) : State.Fenced .meas s s.fenceMeas := by
  have hm (b : Bool) : ∃ m, (if b = true then s.setMgmt (s.mgmt.cancel 0x0302) else s) = s.setMgmt m ∧
      m.committed = s.mgmt.committed ∧ m.inForce = s.mgmt.inForce := by
    cases b
    · exact ⟨s.mgmt, rfl, rfl, rfl⟩
    · exact ⟨_, rfl, rfl, rfl⟩
  unfold State.fenceMeas
  dsimp only
  obtain ⟨m, he, hc, hf⟩ := hm _
  rw [he]
  exact ⟨⟨rfl, fun q hq => by cases q <;> first | exact absurd (by decide) hq | rfl⟩, rfl, fun _ _ _ => rfl, fun _ => ⟨rfl, rfl⟩, ⟨hc, hf⟩,
    ⟨rfl, rfl, rfl⟩, fun _ => rfl⟩

theorem State.unaccept_eq (s : State) (w : Word64) : ∃ f, s.unaccept w = s.setFab f := by
  unfold State.unaccept
  split
  · exact ⟨s.fab, rfl⟩
  · exact ⟨_, rfl⟩

theorem State.forgetLoop_eq (s : State) : ∃ f k, s.forgetLoop = { s with fab := f, fsk := k } ∧ f.pubQueue = [] ∧ f.mb2Wait = [] ∧
    k.buf = none ∧ k.octets = [] ∧ k.send = [] := by
  have hfold (l : List (Word64 × BitVec 12)) : ∃ f, l.foldl (fun s w => s.unaccept w.1) s = s.setFab f :=
    List.foldlRecOn (motive := fun t : State => ∃ f, t = s.setFab f) l _ ⟨s.fab, rfl⟩ fun t ht w _ => by
      obtain ⟨f, rfl⟩ := ht
      obtain ⟨g, hg⟩ := (s.setFab f).unaccept_eq w.1
      exact ⟨g, hg⟩
  unfold State.forgetLoop
  dsimp only
  obtain ⟨f, hf⟩ := hfold s.fab.mb2Wait
  rw [hf]
  exact ⟨_, _, rfl, rfl, rfl, rfl, rfl, rfl⟩

theorem State.fenceLoop_fenced (s : State) : State.Fenced .loop s s.fenceLoop := by
  have hm (u : State) (b : Bool) (g : Mgmt → Mgmt) (hg : ∀ m, (g m).committed = m.committed ∧ (g m).inForce = m.inForce) :
      ∃ m, (if b = true then u.setMgmt (g u.mgmt) else u) = u.setMgmt m ∧ m.committed = u.mgmt.committed ∧ m.inForce = u.mgmt.inForce := by
    cases b
    · exact ⟨u.mgmt, rfl, rfl, rfl⟩
    · exact ⟨_, rfl, hg _⟩
  unfold State.fenceLoop
  dsimp only
  obtain ⟨m, he, hc, hf⟩ := hm s s.fsk.tx.isSome (fun m => m.cancel 0x0508) fun _ => ⟨rfl, rfl⟩
  rw [he]
  obtain ⟨n, he', hc', hf'⟩ := hm (s.setMgmt m) _ Mgmt.cancelFix fun _ => ⟨rfl, rfl⟩
  rw [he']
  obtain ⟨f, k, hfk, _⟩ := ((s.setMgmt m).setMgmt n).forgetLoop_eq
  rw [hfk]
  exact ⟨⟨rfl, fun q hq => by cases q <;> first | exact absurd (by decide) hq | rfl⟩, rfl, fun _ _ _ => rfl, fun _ => ⟨rfl, rfl⟩,
    ⟨hc'.trans hc, hf'.trans hf⟩, ⟨rfl, rfl, rfl⟩, fun _ => rfl⟩

/-- The window with a notice of mailbox `k` held that MGMT has not taken (11 R286). -/
def Window.heldAt (w : Window) (now k : Nat) : Window :=
  if (w.mbAt k).untaken then w.setMb k { w.mbAt k with held := true, since := now } else w

theorem Window.heldAt_spec (w : Window) (now k : Nat) : w.heldAt now k = { w with mb := (w.heldAt now k).mb } ∧
    (∀ j, j ≠ k → (w.heldAt now k).mbAt j = w.mbAt j) ∧
    ∀ j, ((w.heldAt now k).mbAt j).notice = (w.mbAt j).notice ∧ ((w.heldAt now k).mbAt j).pending = (w.mbAt j).pending := by
  unfold Window.heldAt
  split
  · have hother : ∀ j, j ≠ k → (w.setMb k { w.mbAt k with held := true, since := now }).mbAt j = w.mbAt j := fun j hj => w.setMb_other _ hj
    refine ⟨rfl, hother, fun j => ?_⟩
    by_cases hj : j = k
    · subst hj
      by_cases h8 : j < 8
      · rw [w.setMb_self _ h8]
        exact ⟨rfl, rfl⟩
      · rw [Window.setMb, Window.mbAt, Vector.setIfInBounds_eq_of_size_le (by omega)]
        exact ⟨rfl, rfl⟩
    · rw [hother j hj]
      exact ⟨rfl, rfl⟩
  · exact ⟨rfl, fun _ _ => rfl, fun _ => ⟨rfl, rfl⟩⟩

theorem State.fenceMgmt_fenced (s : State) : State.Fenced .mgmt s s.fenceMgmt := by
  obtain ⟨h0, o0, n0⟩ := s.win.heldAt_spec s.now 0
  obtain ⟨h6, o6, n6⟩ := (s.win.heldAt s.now 0).heldAt_spec s.now 6
  have hwin : s.fenceMgmt.win = ((s.win.heldAt s.now 0).heldAt s.now 6).dropPosts .mgmt := rfl
  refine ⟨⟨rfl, fun q hq => by cases q <;> first | exact absurd (by decide) hq | rfl⟩, ?_, fun k hk0 hk6 => ?_, fun k => ?_,
    ⟨rfl, rfl⟩, ⟨rfl, rfl, rfl⟩, fun _ => rfl⟩
  · rw [hwin, h6, h0]
    rfl
  · rw [hwin]
    exact (o6 k hk6).trans (o0 k hk0)
  · rw [hwin]
    exact ⟨(n6 k).1.trans (n0 k).1, (n6 k).2.trans (n0 k).2⟩

theorem State.fence_fenced (s : State) (i : Island) : State.Fenced i s (s.fence i) := by
  cases i with
  | mgmt => exact s.fenceMgmt_fenced
  | loop => exact s.fenceLoop_fenced
  | meas => exact s.fenceMeas_fenced
  | aon => exact ⟨⟨rfl, fun q hq => by cases q <;> first | exact absurd (by decide) hq | rfl⟩, rfl, fun _ _ _ => rfl, fun _ => ⟨rfl, rfl⟩,
      ⟨rfl, rfl⟩, ⟨rfl, rfl, rfl⟩, fun h => absurd rfl h⟩

/-! ## An island's reset -/

theorem State.assertReset_spec (s : State) (i : Island) (origin : Byte) (stop : Bool) : let t := s.assertReset i origin stop
    t.win = { s.win with mb := t.win.mb, posts := t.win.posts } ∧ (∀ k, k ≠ 0 → k ≠ 6 → t.win.mbAt k = s.win.mbAt k) ∧
    (∀ k, (t.win.mbAt k).notice = (s.win.mbAt k).notice ∧ (t.win.mbAt k).pending = (s.win.mbAt k).pending) ∧
    (((s.isl.at i).down = false ∨ (s.isl.at i).dead = true) → t.win.posts = s.win.posts.filter fun e => mbFrom e.1 ≠ some i) ∧
    t.nvm = s.nvm ∧ t.clock = s.clock := by
  intro t
  by_cases hx : ((s.isl.at i).down && !(s.isl.at i).dead) = true
  · have hdown : ¬ ((s.isl.at i).down = false ∨ (s.isl.at i).dead = true) := by
      rw [Bool.and_eq_true, Bool.not_eq_true'] at hx
      rintro (h | h)
      · exact Bool.false_ne_true (h.symm.trans hx.1)
      · exact Bool.false_ne_true (hx.2.symm.trans h)
    have ht : ∃ y, t = { s with isl := y } := by
      simp only [t, State.assertReset]
      rw [if_pos hx]
      split
      · exact ⟨_, rfl⟩
      · exact ⟨s.isl, rfl⟩
    obtain ⟨y, hy⟩ := ht
    rw [hy]
    exact ⟨rfl, fun _ _ _ => rfl, fun _ => ⟨rfl, rfl⟩, fun h => absurd h hdown, rfl, rfl⟩
  · have ht : ∃ y o, t = ((s.fence i).setIsl i y).setObs o := by
      simp only [t, State.assertReset]
      rw [if_neg hx]
      obtain ⟨o, ho, _⟩ := State.emit_eq ((s.fence i).setIsl i _) .aon 0xA ((srcOf i).toNat + 256 * 0) []
      exact ⟨_, o, ho⟩
    obtain ⟨y, o, hy⟩ := ht
    have hf := s.fence_fenced i
    have hwin : t.win = (s.fence i).win := by rw [hy]; rfl
    rw [hwin]
    refine ⟨?_, hf.others, hf.notices, fun _ => ?_, ?_, ?_⟩
    · rw [hf.win]
    · rw [hf.win]
    · rw [hy]
      exact hf.only.2 .nvm (by decide)
    · rw [hy]
      exact hf.only.2 .clock (by decide)

/-! ## RST_N -/

/-- What the resets and the discarded activations of RST_N leave alone. -/
structure State.Stays (s t : State) : Prop where
  queue : t.pending = s.pending ∧ t.free = s.free
  clock : t.clock = s.clock
  aon : t.isl.aon = s.isl.aon
  mem : t.win.mem = s.win.mem
  copies : t.mgmt.committed = s.mgmt.committed ∧ t.mgmt.inForce = s.mgmt.inForce
  alarms : t.loop.hwAlarm = s.loop.hwAlarm ∧ t.loop.auxAlarm = s.loop.auxAlarm ∧ t.loop.miswire = s.loop.miswire
  pins : t.pins = { s.pins with exc := t.pins.exc, excDrive := t.pins.excDrive, brk := t.pins.brk }
  nvm : t.nvm = { s.nvm with dirs := t.nvm.dirs, dirRecs := t.nvm.dirRecs, bad := t.nvm.bad }

theorem State.Stays.refl (s : State) : s.Stays s := ⟨⟨rfl, rfl⟩, rfl, rfl, rfl, ⟨rfl, rfl⟩, ⟨rfl, rfl, rfl⟩, rfl, rfl⟩

theorem State.Stays.trans {u : State} (h : s.Stays t) (k : t.Stays u) : s.Stays u where
  queue := ⟨k.queue.1.trans h.queue.1, k.queue.2.trans h.queue.2⟩
  clock := k.clock.trans h.clock
  aon := k.aon.trans h.aon
  mem := k.mem.trans h.mem
  copies := ⟨k.copies.1.trans h.copies.1, k.copies.2.trans h.copies.2⟩
  alarms := ⟨k.alarms.1.trans h.alarms.1, k.alarms.2.1.trans h.alarms.2.1, k.alarms.2.2.trans h.alarms.2.2⟩
  pins := by rw [k.pins, h.pins]
  nvm := by rw [k.nvm, h.nvm]

theorem State.Fenced.stays {i : Island} (h : State.Fenced i s t) (hi : i ≠ .aon) : s.Stays t where
  queue := ⟨h.only.1, h.only.2 .free (by decide)⟩
  clock := h.only.2 .clock (by decide)
  aon := congrArg Quad.aon (h.only.2 .isl (by decide))
  mem := by rw [h.win]
  copies := h.copies
  alarms := h.alarms
  pins := h.pins hi
  nvm := by rw [show t.nvm = s.nvm from h.only.2 .nvm (by decide)]

theorem State.setObs_stays (s : State) (o : Obs) : s.Stays (s.setObs o) :=
  ⟨⟨rfl, rfl⟩, rfl, rfl, rfl, ⟨rfl, rfl⟩, ⟨rfl, rfl, rfl⟩, rfl, rfl⟩

theorem State.resetIsland_stays (s : State) {i : Island} (hi : i ≠ .aon) : s.Stays (s.resetIsland i) ∧
    (s.resetIsland i).isl = s.isl.put i Isl.down0 := by
  have hpart : ∃ u, s.resetIsland i = u.setIsl i Isl.down0 ∧ s.Stays u ∧ u.isl = s.isl := by
    refine ⟨_, rfl, ?_⟩
    split
    · exact ⟨.refl s, rfl⟩
    · obtain ⟨o, ho, _⟩ := (s.fence i).emit_eq .aon 0xA ((srcOf i).toNat + 256 * 0) []
      have he : (s.fence i).emitIsland i 0 = (s.fence i).setObs o := ho
      rw [he]
      have hf := s.fence_fenced i
      exact ⟨(hf.stays hi).trans ((s.fence i).setObs_stays o), hf.only.2 .isl (by decide)⟩
  obtain ⟨u, hu, hs, hisl⟩ := hpart
  rw [hu]
  refine ⟨hs.trans ⟨⟨rfl, rfl⟩, rfl, ?_, rfl, ⟨rfl, rfl⟩, ⟨rfl, rfl, rfl⟩, rfl, rfl⟩, congrArg (·.put i Isl.down0) hisl⟩
  cases i <;> first | exact absurd rfl hi | rfl

theorem State.discardAct_stays (s : State) (i : Island) : s.Stays (s.discardAct i) ∧ (s.discardAct i).isl = s.isl := by
  unfold State.discardAct
  dsimp only
  split
  · exact ⟨⟨⟨rfl, rfl⟩, rfl, rfl, rfl, ⟨rfl, rfl⟩, ⟨rfl, rfl, rfl⟩, rfl, by cases i <;> rfl⟩, rfl⟩
  · exact ⟨.refl s, rfl⟩

/-- The state with its islands down and its activations discarded. -/
def State.cleared (s : State) : State :=
  [Island.mgmt, .loop, .meas, .aon].foldl State.discardAct (((s.resetIsland .meas).resetIsland .loop).resetIsland .mgmt)

theorem State.cleared_stays (s : State) : s.Stays s.cleared ∧
    s.cleared.isl = ((s.isl.put .meas Isl.down0).put .loop Isl.down0).put .mgmt Isl.down0 := by
  obtain ⟨h1, e1⟩ := s.resetIsland_stays (i := .meas) (by decide)
  obtain ⟨h2, e2⟩ := (s.resetIsland .meas).resetIsland_stays (i := .loop) (by decide)
  obtain ⟨h3, e3⟩ := ((s.resetIsland .meas).resetIsland .loop).resetIsland_stays (i := .mgmt) (by decide)
  have hd (u : State) : u.Stays ([Island.mgmt, .loop, .meas, .aon].foldl State.discardAct u) ∧
      ([Island.mgmt, .loop, .meas, .aon].foldl State.discardAct u).isl = u.isl :=
    List.foldlRecOn (motive := fun t : State => u.Stays t ∧ t.isl = u.isl) _ _ ⟨.refl u, rfl⟩ fun t ht i _ =>
      ⟨ht.1.trans (t.discardAct_stays i).1, (t.discardAct_stays i).2.trans ht.2⟩
  obtain ⟨h4, e4⟩ := hd (((s.resetIsland .meas).resetIsland .loop).resetIsland .mgmt)
  exact ⟨((h1.trans h2).trans h3).trans h4, by rw [State.cleared, e4, e3, e2, e1]⟩

/-- The registers and fields that RST_N clears in such a state. -/
def State.registersCleared (s : State) : State := { s with
  win := s.win.atReset, meas := s.meas.atReset, mgmt := s.mgmt.atReset s.nvm.grants, fab := s.fab.atReset
  energy := s.energy.atReset s.nvm.trials, loop := s.loop.atReset, ready := false, boot := .wait
  fsk := { s.fsk with buf := none, octets := [] }
  obs := { s.obs with mask := Obs.reset.mask, maskNext := none }
  faults := { s.faults with bootHold := true }
  pins := { s.pins with inReset := true, faultLow := true, gpioDrive := [none, none, none], exc := 0, trcWord := 0, trcMark := false } }

/-- The state with the code that its output then selects. -/
def State.recoded (s : State) : State :=
  let (src, c) := s.selectCode
  s.setLoop (s.loop.setAll src c)

theorem State.recoded_eq (s : State) : s.recoded = s.setLoop (s.loop.setAll s.selectCode.1 s.selectCode.2) := rfl

theorem State.rstN_eq (s : State) : s.rstN = s.cleared.registersCleared.recoded := by
  delta State.rstN State.recoded State.registersCleared State.cleared
  rfl

/-- Without an alarm or a fold-back the output goes to its start-up code (03 R64). -/
theorem State.registersCleared_code (s : State) {h : Nat} (hh : s.loop.hwAlarm = false) (ha : s.loop.auxAlarm = false)
    (hm : s.loop.miswire = .normal h) : s.registersCleared.selectCode = (0, 35000) := by
  have h1 : s.registersCleared.loop.hwAlarm = false := hh
  have h2 : s.registersCleared.loop.auxAlarm = false := ha
  have h3 : s.registersCleared.loop.miswire = .normal h := hm
  have h4 : s.registersCleared.loop.multidrop = false := rfl
  have h5 : s.registersCleared.loop.swAlarm = false := rfl
  have h6 : s.registersCleared.loop.fixed = none := rfl
  have h7 : s.registersCleared.loop.startup = true := rfl
  simp [State.selectCode, h1, h2, h3, h4, h5, h6, h7]

theorem State.loopTrace_eq (s : State) (old : LoopOut) : ∃ o, s.loopTrace old = s.setObs o ∧ s.OnlyTrace (s.setObs o) := by
  unfold State.loopTrace
  dsimp only
  split
  · exact s.emit_eq ..
  · exact ⟨s.obs, rfl, .refl _ s⟩

theorem exec_rstNAssert (hp : s.clock.powered = true) (hl : s.pins.rstN.level = false) (hr : s.pins.inReset = false) :
    exec .rstNAssert s = .next s.rstNTraced := by
  show stepIf (s.clock.powered && !s.pins.rstN.level && !s.pins.inReset) s _ = _
  rw [hp, hl, hr]
  rfl

end

theorem Window.atReset_clear (w : Window) : (∀ n, w.atReset.ownAt n = ⟨.free, 0, 0x00⟩) ∧ (∀ k, w.atReset.mbAt k = Mailbox.reset) ∧
    ∀ n, w.atReset.lockAt n = 0 := by
  refine ⟨fun n => ?_, fun k => ?_, fun n => ?_⟩
  · by_cases h : n < 64 <;> simp [Window.ownAt, Window.atReset, Window.reset, Vector.getD, h, OwnWord.reset]
  · by_cases h : k < 8 <;> simp [Window.mbAt, Window.atReset, Window.reset, Vector.getD, h]
  · by_cases h : n < 8 <;> simp [Window.lockAt, Window.atReset, Window.reset, Vector.getD, h]

/-- Settles O32: an island's fence leaves the window, its words and its notices; RST_N then clears its registers. -/
theorem resetPinClearsTheWindow : Obligations.ResetPinClearsTheWindow := by
  refine ⟨fun s hp hl hr => ?_, fun s i origin stop => s.assertReset_spec i origin stop⟩
  obtain ⟨o, ho, htr⟩ := s.rstN.loopTrace_eq s.loop
  obtain ⟨hst, hisl⟩ := s.cleared_stays
  have hmask : o.mask = 0x0000061E := (congrArg Obs.mask htr.1).trans rfl
  refine ⟨_, exec_rstNAssert hp hl hr, ?_⟩
  rw [State.rstNTraced, ho, s.rstN_eq]
  generalize s.cleared = u at *
  rw [State.recoded_eq]
  obtain ⟨hown, hmb, hlock⟩ := u.win.atReset_clear
  refine ⟨hst.queue.1, hst.queue.2, hst.clock, hown, hmb, rfl, rfl, hlock, fun a => congrArg (cellRead · a) hst.mem, congrArg Quad.mgmt hisl,
    congrArg Quad.loop hisl, congrArg Quad.meas hisl, hst.aon, rfl, ?_, rfl, rfl, rfl, hst.copies.1, hst.copies.2, hmask, hst.nvm,
    fun h hh ha hm => ?_⟩
  · show ({ u.pins with inReset := true, faultLow := true, gpioDrive := [none, none, none], exc := 0, trcWord := 0, trcMark := false } : Pins) = _
    rw [hst.pins]
    rfl
  · obtain ⟨hw, hx, hmw⟩ := hst.alarms
    have hc := u.registersCleared_code (hw.trans hh) (hx.trans ha) (hmw.trans hm)
    generalize u.registersCleared = v at *
    rw [hc]
    exact ⟨rfl, rfl, rfl, rfl⟩

end Sys2Proof.Machine
end



section
/-! PROOFS. Supply readings and the boost of MGMT (03 R47, R57, R60, R394; 08 R206; 16 R385). -/

namespace Sys2Proof.Machine

open Sys2Proof

set_option Elab.async false

section
variable {s : State}

theorem countUp_below {top n : Nat} (h : n < top) (hit : Bool) : countUp top n hit = if hit = true then n + 1 else 0 := by
  cases hit
  · rfl
  · show (if top < n then n else min top (n + 1)) = n + 1
    rw [if_neg (by omega), Nat.min_eq_right (by omega)]

theorem exec_supplyReading (r : SupplyRead) (hp : s.clock.powered = true) (hr : s.clock.running = true) (h64 : s.now % 64 = 0)
    (hn : s.energy.readAt ≠ some s.now) : exec (.supplyReading r) s = .next
      (if (((s.setEnergy (s.energy.read r s.now)).miswireReading (r.loopIn / 10 * 10)).energy.aux &&
          decide (r.auxIn / 10 * 10 < 9000)) = true then
        ((s.setEnergy (s.energy.read r s.now)).miswireReading (r.loopIn / 10 * 10)).setEnergy
          { ((s.setEnergy (s.energy.read r s.now)).miswireReading (r.loopIn / 10 * 10)).energy with auxNext := some false }
      else (s.setEnergy (s.energy.read r s.now)).miswireReading (r.loopIn / 10 * 10)) := by
  show stepIf (s.clock.powered && s.clock.running && s.now % 64 == 0 && s.energy.readAt != some s.now) s _ = _
  rw [hp, hr, h64, bne_iff_ne.2 hn]
  rfl

/-- The loop after its selection at this boundary. -/
def State.refreshed (s : State) : LoopOut :=
  let l : LoopOut := if s.primaryRuns then s.loop else { s.loop with interrupted := false }
  l.stages (s.setLoop l).selectCode.1 (s.setLoop l).selectCode.2 s.mgmt.inForce.slew

theorem State.refreshLoop_eq (s : State) : s.refreshLoop = s.setLoop s.refreshed := by
  unfold State.refreshLoop State.refreshed
  cases s.primaryRuns
  · rfl
  · rfl

theorem LoopOut.stages_miswire (l : LoopOut) (src : Nat) (c slew : Int) : (l.stages src c slew).miswire = l.miswire := rfl

theorem State.refreshed_miswire (s : State) : s.refreshed.miswire = s.loop.miswire := by
  unfold State.refreshed
  dsimp only
  rw [LoopOut.stages_miswire]
  split <;> rfl

theorem State.setMiswire_eq (s : State) (m : Miswire) : ∃ l o, s.setMiswire m = (s.setLoop l).setObs o ∧ s.OnlyTrace (s.setObs o) ∧
    l.miswire = m := by
  obtain ⟨o, ho, htr⟩ := (s.setLoop (s.setLoop { s.loop with miswire := m }).refreshed).loopTrace_eq s.loop
  refine ⟨_, o, ?_, htr, (s.setLoop { s.loop with miswire := m }).refreshed_miswire⟩
  rw [← ho, State.setMiswire, State.refreshLoop_eq]
  rfl

/-- A reading of LOOP_IN moves the loop's mis-wiring state and is traced (08 R206). -/
theorem State.miswireReading_eq (s : State) (v : Nat) : ∃ l o, s.miswireReading v = (s.setLoop l).setObs o ∧ s.OnlyTrace (s.setObs o) ∧
    (s.mgmt.inForce.mwEn = true →
      l = { s.loop with miswire := s.loop.miswire.reading (decide (31500 < v) && decide (120000 < s.loop.shaped)) }) ∧
    (s.mgmt.inForce.mwEn = false → l.miswire = .normal 0) := by
  unfold State.miswireReading
  by_cases hm : s.mgmt.inForce.mwEn = true
  · rw [if_pos hm]
    exact ⟨_, s.obs, rfl, .refl _ s, fun _ => rfl, fun h => absurd (h.symm.trans hm) Bool.false_ne_true⟩
  rw [if_neg hm]
  split
  · next h => exact ⟨s.loop, s.obs, rfl, .refl _ s, fun h => absurd h hm, fun _ => beq_iff_eq.1 h⟩
  · obtain ⟨l, o, he, htr, hl⟩ := s.setMiswire_eq (.normal 0)
    exact ⟨l, o, he, htr, fun h => absurd h hm, fun _ => hl⟩

theorem State.emitEnergy_eq (s : State) : ∃ o, s.emitEnergy = s.setObs o ∧ s.OnlyTrace (s.setObs o) := s.emit_eq ..

/-- What a boost of the frequency setting `f` costs (03 R57). -/
def boostCost (f : Nat) : Nat := if f = 1 then 1 else if f = 2 then 3 else 6

theorem exec_boostRequest (hup : s.mgmtUp = true) (hw : s.mgmtWork = true) (hs : s.energy.season = .autumn) (ha : s.energy.aux = false)
    (hf : s.mgmt.inForce.mgmtFmax ≠ 0) (he : s.energy.boostEnd = none) (hn : s.energy.boostNext ≤ s.now) :
    exec .boostRequest s = .next (if boostCost s.mgmt.inForce.mgmtFmax ≤ 10 * s.reserveField then
        (s.setEnergy { s.energy with boostNext := s.now + 500, boostEnd := some (s.now + 500), freq := s.mgmt.inForce.mgmtFmax
                                     reserved := s.energy.reserved ++ [(0xFFFE, boostCost s.mgmt.inForce.mgmtFmax)] }).emitEnergy
      else s.setEnergy { s.energy with boostNext := s.now + 500 }) := by
  have hg : (s.mgmtUp && s.mgmtWork && s.energy.season == .autumn && !s.energy.aux && s.mgmt.inForce.mgmtFmax != 0 &&
      s.energy.boostEnd.isNone && decide (s.energy.boostNext ≤ s.now)) = true := by
    rw [hup, hw, hs, ha, bne_iff_ne.2 hf, he, decide_eq_true hn]; rfl
  exact congrArg (stepIf · s _) hg

end

/-- Settles O33: a reading by AUX and MW_EN, a boost by what the reserve covers. -/
theorem supplyReadingsAndBoost : Obligations.SupplyReadingsAndBoost := by
  refine ⟨fun s r hp hr h64 hn => ?_, fun s hup hw hs ha hf he hn => ?_⟩
  · intro armed c
    obtain ⟨l, o, ht, htr, hon, hoff⟩ := (s.setEnergy (s.energy.read r s.now)).miswireReading_eq (r.loopIn / 10 * 10)
    have hex := exec_supplyReading r hp hr h64 hn
    rw [ht] at hex
    have hvio : s.energy.vioCount < 8 → countUp 8 s.energy.vioCount (armed && decide (r.vio < 2500)) =
        if armed = true ∧ r.vio < 2500 then s.energy.vioCount + 1 else 0 := fun h => by
      rw [countUp_below h]
      simp only [Bool.and_eq_true, decide_eq_true_eq]
    by_cases hc : (s.energy.aux && decide (r.auxIn / 10 * 10 < 9000)) = true
    · refine ⟨_, hex.trans (congrArg _ (if_pos hc)), ⟨rfl, fun q hq => by cases q <;> first | exact absurd (by decide) hq | rfl⟩, htr, ?_,
        hvio, fun h => countUp_below h _, hon, hoff⟩
      rw [if_pos hc]
      rfl
    · refine ⟨_, hex.trans (congrArg _ (if_neg hc)), ⟨rfl, fun q hq => by cases q <;> first | exact absurd (by decide) hq | rfl⟩, htr, ?_,
        hvio, fun h => countUp_below h _, hon, hoff⟩
      rw [if_neg hc]
      rfl
  · intro cost
    have hex := exec_boostRequest hup hw hs ha hf he hn
    have hcost : boostCost s.mgmt.inForce.mgmtFmax = cost := rfl
    refine ⟨fun hc => ?_, fun hc => ?_⟩
    · rw [hcost, if_pos hc] at hex
      obtain ⟨o, ho, htr⟩ := State.emitEnergy_eq (s.setEnergy { s.energy with
        boostNext := s.now + 500, boostEnd := some (s.now + 500), freq := s.mgmt.inForce.mgmtFmax
        reserved := s.energy.reserved ++ [(0xFFFE, cost)] })
      refine ⟨_, hex, ?_⟩
      rw [ho]
      exact ⟨⟨rfl, fun q hq => by cases q <;> first | exact absurd (by decide) hq | rfl⟩, htr, rfl⟩
    · rw [hcost, if_neg (Nat.not_le.2 hc)] at hex
      exact hex

end Sys2Proof.Machine
end



section
/-! PROOFS. Evaluation boundaries and the brown-out (03 R47, R52 to R56, R60, R63, R65; 13 R324; 15 R376). -/

namespace Sys2Proof.Machine

open Sys2Proof

set_option Elab.async false

section
variable {s : State}

/-! ## Evaluation boundaries -/

/-- Trace after a change of season: on or off, with nothing kept when it is off and a SYNC due when it comes on (15 R376). -/
structure Obs.Switched (old o : Obs) (traced : Bool) : Prop where
  on : o.on = traced
  off : traced = false → o.fifo = [] ∧ o.sending = []
  sync : traced = true → old.on = false → o.syncDue = true

theorem State.OnlyTrace.switched {a b c : State} {v : Bool} (h : b.OnlyTrace c) (hs : a.obs.Switched b.obs v) : a.obs.Switched c.obs v := by
  refine ⟨?_, fun hv => ?_, fun hv ho => ?_⟩ <;> rw [h.1]
  · exact hs.on
  · exact hs.off hv
  · exact hs.sync hv ho

theorem State.traceSwitch_eq (s : State) : ∃ o, s.traceSwitch = s.setObs o ∧ s.obs.Switched o s.traceOn := by
  unfold State.traceSwitch
  dsimp only
  cases h : s.traceOn
  · exact ⟨_, rfl, rfl, fun _ => ⟨rfl, rfl⟩, fun h => Bool.noConfusion h⟩
  · exact ⟨_, rfl, rfl, fun h => Bool.noConfusion h, fun _ ho => by simp [ho]⟩

/-- The season that a change to `x` leaves: the season holds while the AON core is down. -/
def State.enters (s : State) (x : Season) : Season := if s.isl.aon.up = false then s.energy.season else x

/-- Trace is on in a season (15 R376). -/
def State.tracedIn (s : State) (x : Season) : Bool := (s.setEnergy { s.energy with season := x }).traceOn

theorem State.enterSeason_eq (s : State) (x : Season) : ∃ r o, s.enterSeason x =
    ((s.setEnergy { s.energy with season := s.enters x, register := r }).setWin
      { s.win with db := if s.enters x = s.energy.season then s.win.db else s.win.db ||| 0x400 }).setObs o ∧
    (s.enters x = s.energy.season → o = s.obs) ∧ (s.enters x ≠ s.energy.season → s.obs.Switched o (s.tracedIn (s.enters x))) := by
  unfold State.enterSeason
  by_cases hc : s.energy.season = x ∨ (!s.isl.aon.up) = true
  · have hsame : s.enters x = s.energy.season := by
      unfold State.enters
      rcases hc with h | h
      · rw [h, ite_self]
      · rw [if_pos ((Bool.not_eq_true' _).mp h)]
    rw [if_pos hc, hsame, if_pos rfl]
    exact ⟨s.energy.register, s.obs, rfl, fun _ => rfl, fun h => absurd rfl h⟩
  · rw [not_or] at hc
    have hup : ¬ s.isl.aon.up = false := fun h => hc.2 (by rw [h]; rfl)
    have hnew : s.enters x = x := if_neg hup
    have hne : x ≠ s.energy.season := fun h => hc.1 h.symm
    rw [if_neg (not_or.2 hc), hnew, if_neg hne]
    let u := (s.setEnergy { s.energy with season := x }).ring 10
    obtain ⟨o, ho, htr⟩ := u.emitEnergy_eq
    obtain ⟨o', ho', hsw⟩ := (u.setObs o).updateRegister.traceSwitch_eq
    refine ⟨(u.setObs o).energyWord, o', ?_, fun h => absurd h hne, fun _ => ?_⟩
    · show (u.emitEnergy).updateRegister.traceSwitch = _
      rw [ho, ho']
      rfl
    · have hold : (u.setObs o).obs.on = s.obs.on := by rw [htr.1]; rfl
      exact ⟨hsw.on, hsw.off, fun hv hoff => hsw.sync hv (hold.trans hoff)⟩

/-- The faults and the output once the alarm of SUP_AUX is withdrawn (13 R324). -/
def Faults.auxGone (f : Faults) : Faults :=
  ({ f with opens := f.opens.map fun (o : Open) => { o with aux := false } } : Faults).showAlarms.prune

theorem Faults.auxGone_spec (f : Faults) : f.auxGone = { f with opens := f.auxGone.opens, log := f.auxGone.log } ∧
    f.auxGone.opens = (f.opens.map fun o => { o with aux := false }).filter fun o => !o.acked || o.alarm := by
  refine ⟨rfl, ?_⟩
  show (f.opens.map fun o : Open => { o with aux := false }).filter (fun o => !o.acked || o.alarm || o.aux) = _
  refine List.filter_congr fun o ho => ?_
  obtain ⟨x, _, rfl⟩ := List.mem_map.1 ho
  exact Bool.or_false _

theorem State.withdrawAuxAlarm_eq (s : State) : s.withdrawAuxAlarm = if (s.faults.opens.any fun o => o.aux) = true then
    (s.setFaults s.faults.auxGone).setLoop { s.loop with sched := s.loop.sched ++ [⟨s.now + 5, .auxAlarm false⟩] } else s := rfl

/-- The boot goes on to its verification (03 Table 3-10). -/
def State.bootNext (s : State) (avg : Nat) : Boot :=
  if s.boot = .wait ∧ 512 ≤ s.now ∧ 8500 ≤ avg ∧ s.pins.testMode = false ∧ s.pins.inReset = false then .verify else s.boot

theorem State.bootWait_eq (s : State) : ∃ o, s.bootWait = ({ s with boot := s.bootNext s.energy.loopAvg }).setObs o ∧
    s.OnlyTrace (s.setObs o) := by
  have hcond : (s.boot == .wait && decide (512 ≤ s.now) && decide (8500 ≤ s.energy.loopAvg) && !s.pins.testMode && !s.pins.inReset) = true ↔
      s.boot = .wait ∧ 512 ≤ s.now ∧ 8500 ≤ s.energy.loopAvg ∧ s.pins.testMode = false ∧ s.pins.inReset = false := by
    simp [and_assoc]
  unfold State.bootWait State.bootNext
  by_cases h : s.boot = .wait ∧ 512 ≤ s.now ∧ 8500 ≤ s.energy.loopAvg ∧ s.pins.testMode = false ∧ s.pins.inReset = false
  · rw [if_pos (hcond.2 h), if_pos h]
    obtain ⟨o, ho, htr⟩ := State.emit_eq { s with boot := .verify } .aon 0xA ((srcOf .mgmt).toNat + 256 * 1) []
    exact ⟨o, ho, htr⟩
  · rw [if_neg (hcond.not.2 h), if_neg h]
    exact ⟨s.obs, rfl, .refl _ s⟩

/-- What follows the season at an evaluation boundary. -/
theorem State.evalClose_eq (s : State) (h : s.mgmt.inForce.supplyAux = false) : ∃ r o, s.auxCheck.bootWait.updateRegister =
    ({ s with boot := s.bootNext s.energy.loopAvg, energy := { s.energy with auxLost := false, register := r } }).setObs o ∧
    s.OnlyTrace (s.setObs o) ∧ r = (s.auxCheck.bootWait.updateRegister).energyWord := by
  have hb : s.auxBlocked = false := by rw [State.auxBlocked, h]; rfl
  have ha : s.auxCheck = s.setEnergy { s.energy with auxLost := false } := by rw [State.auxCheck, hb]; rfl
  rw [ha]
  obtain ⟨o, ho, htr⟩ := (s.setEnergy { s.energy with auxLost := false }).bootWait_eq
  rw [ho]
  exact ⟨_, o, rfl, htr, rfl⟩

/-- The season after an evaluation boundary whose readings have been taken. -/
def State.evalSeason (s : State) : Season := if s.energy.aux = true then s.energy.season else s.enters s.energy.nextSeason

/-- AUX_IN has come back (03 R60). -/
def State.auxBack (s : State) : Bool := !s.energy.aux && decide (9500 ≤ s.energy.auxAvg)

/-- AUX_IN has come back while an alarm of SUP_AUX is in force. -/
def State.auxRelieved (s : State) : Bool := s.auxBack && s.faults.opens.any fun o => o.aux

/-- The season's part of an evaluation boundary. -/
def State.evalSeasoned (s : State) : State :=
  if s.energy.aux then s
  else
    let t := s.enterSeason s.energy.nextSeason
    if 9500 ≤ t.energy.auxAvg then (t.setEnergy { t.energy with auxNext := some true }).withdrawAuxAlarm else t

theorem State.evalSeasoned_eq (s : State) : ∃ r o, s.evalSeasoned = { s with
      energy := { s.energy with season := s.evalSeason, register := r, auxNext := if s.auxBack = true then some true else s.energy.auxNext }
      win := { s.win with db := if s.evalSeason = s.energy.season then s.win.db else s.win.db ||| 0x400 }
      faults := if s.auxRelieved = true then s.faults.auxGone else s.faults
      loop := if s.auxRelieved = true then { s.loop with sched := s.loop.sched ++ [⟨s.now + 5, .auxAlarm false⟩] } else s.loop
      obs := o } ∧
    (s.evalSeason = s.energy.season → o = s.obs) ∧ (s.evalSeason ≠ s.energy.season → s.obs.Switched o (s.tracedIn s.evalSeason)) := by
  unfold State.evalSeasoned
  by_cases ha : s.energy.aux = true
  · have hseason : s.evalSeason = s.energy.season := if_pos ha
    have hback : s.auxBack = false := by rw [State.auxBack, ha]; rfl
    have hrel : s.auxRelieved = false := by rw [State.auxRelieved, hback]; rfl
    rw [if_pos ha, hseason, hback, hrel]
    exact ⟨s.energy.register, s.obs, by rw [if_pos rfl]; rfl, fun _ => rfl, fun h => absurd rfl h⟩
  · have hseason : s.evalSeason = s.enters s.energy.nextSeason := if_neg ha
    have hback : s.auxBack = decide (9500 ≤ s.energy.auxAvg) := by rw [State.auxBack, Bool.eq_false_of_not_eq_true ha]; rfl
    obtain ⟨r, o, he, hs, hm⟩ := s.enterSeason_eq s.energy.nextSeason
    rw [if_neg ha, he, hseason]
    refine ⟨r, o, ?_, hs, hm⟩
    by_cases hx : 9500 ≤ s.energy.auxAvg
    · have hrel : s.auxRelieved = s.faults.opens.any fun o => o.aux := by rw [State.auxRelieved, hback, decide_eq_true hx]; rfl
      rw [hback, decide_eq_true hx, if_pos rfl, hrel]
      refine (if_pos hx).trans ?_
      rw [State.withdrawAuxAlarm_eq]
      cases hany : s.faults.opens.any fun o => o.aux
      · exact (if_neg fun c => Bool.false_ne_true (hany.symm.trans c)).trans rfl
      · exact (if_pos hany).trans rfl
    · have hrel : s.auxRelieved = false := by rw [State.auxRelieved, hback, decide_eq_false hx]; rfl
      rw [hback, decide_eq_false hx, hrel]
      exact (if_neg hx).trans rfl

/-- The readings' part of an evaluation boundary. -/
def State.evaluated (s : State) (e : EvalIn) : State :=
  (s.setEnergy (s.energy.evaluate e (s.senseUa e) s.now)).setFaults
    (if s.mgmt.inForce.vioLoad + 50 < e.vioUa then (s.report 0x16 0 0x40).faults else s.faults)

theorem exec_evaluationBoundary (e : EvalIn) (hp : s.clock.powered = true) (hr : s.clock.running = true) (h512 : s.now % 512 = 0)
    (hn : s.energy.evalAt ≠ some s.now) :
    exec (.evaluationBoundary e) s = .next (s.evaluated e).evalSeasoned.auxCheck.bootWait.updateRegister := by
  have hg : (s.clock.powered && s.clock.running && s.now % 512 == 0 && s.energy.evalAt != some s.now) = true := by
    rw [hp, hr, h512, bne_iff_ne.2 hn]; rfl
  let t := s.setEnergy (s.energy.evaluate e (s.senseUa e) s.now)
  have ht : (if t.mgmt.inForce.vioLoad + 50 < e.vioUa then t.report 0x16 0 0x40 else t) = s.evaluated e := by
    unfold State.evaluated
    by_cases h : s.mgmt.inForce.vioLoad + 50 < e.vioUa
    · exact (if_pos h).trans (congrArg (s.setEnergy _).setFaults (if_pos h).symm)
    · rw [if_neg h]
      exact if_neg h
  have hex : exec (.evaluationBoundary e) s = stepIf (s.clock.powered && s.clock.running && s.now % 512 == 0 && s.energy.evalAt != some s.now)
      s (if t.mgmt.inForce.vioLoad + 50 < e.vioUa then t.report 0x16 0 0x40 else t).evalSeasoned.auxCheck.bootWait.updateRegister := rfl
  rw [hex, hg, ht]
  rfl

/-! ## Brown-out -/

/-- MEAS after its fence (13 Table 13-5). -/
def Meas.fenced (m : Meas) : Meas := { m with
  preload := m.preloadNow, round := m.round.atReset, taken := [], sampled := [], results := [], sxEntries := [],
  queue := [], qovf := false, qRing := none, sxWindow := none, swap := none, closingSeen := [], closeAt := none, dwell := [],
  sxDrive := .off, slices := m.slices.map fun x => { x with path := .opened, lastKind := none, power := .asleep }
  job := m.job.map SliceJob.cut }

theorem State.fenceMeas_eq (s : State) : ∃ m, s.fenceMeas = { s with
      mgmt := m, meas := s.meas.fenced, win := s.win.dropPosts .meas
      pins := { s.pins with exc := 0, excDrive := Vector.replicate 4 .off, brk := [] } } ∧
    (s.meas.swap = none → (s.win.mbAt 4).pending = false → s.win.posts = [] → m = s.mgmt) := by
  have hm (b : Bool) : ∃ m, (if b = true then s.setMgmt (s.mgmt.cancel 0x0302) else s) = s.setMgmt m ∧ (b = false → m = s.mgmt) := by
    cases b
    · exact ⟨s.mgmt, rfl, fun _ => rfl⟩
    · exact ⟨_, rfl, fun h => Bool.noConfusion h⟩
  unfold State.fenceMeas
  dsimp only
  obtain ⟨m, he, hmm⟩ := hm _
  rw [he]
  refine ⟨m, rfl, fun h1 h2 h3 => hmm ?_⟩
  simp [h1, Window.onWay, Window.coming, Mailbox.untaken, h2, h3]

/-- An island that R65 has stopped. -/
def Isl.stoppedNow (x : Isl) : Isl := { x with
  up := false, down := true, resetAt := none, released := false, stopped := true, shadow := true, shadowEnd := none
  origin := 0x14, dead := false, wdtFired := false, checked := false, supply := true }

theorem State.stopIsland_eq (s : State) (i : Island) (h : (s.isl.at i).down = false) : ∃ o,
    s.stopIsland i = ((s.fence i).setIsl i (s.isl.at i).stoppedNow).setObs o ∧ (s.fence i).OnlyTrace ((s.fence i).setObs o) := by
  have he : s.stopIsland i = ((s.fence i).setIsl i (s.isl.at i).stoppedNow).emitIsland i 0 := by
    unfold State.stopIsland State.assertReset
    dsimp only
    rw [h]
    rfl
  obtain ⟨o, ho, htr⟩ := State.emit_eq ((s.fence i).setIsl i (s.isl.at i).stoppedNow) .aon 0xA ((srcOf i).toNat + 256 * 0) []
  exact ⟨o, he.trans ho, htr⟩

theorem exec_loopLowStop (hp : s.clock.powered = true) (hl : s.energy.lowCount = 9) (hs : s.isl.meas.stopped = false) :
    exec .loopLowStop s = .next ((s.stopIsland .meas).report 0x14 0 0x40) := by
  have hg : (s.clock.powered && s.energy.lowCount == 9 && !s.isl.meas.stopped) = true := by rw [hp, hl, hs]; rfl
  exact congrArg (stepIf · s _) hg

/-- A verification under way begins anew (03 Table 3-11). -/
def State.bootAgain (s : State) : Boot := if s.boot = .verify ∨ s.boot = .recovery then .wait else s.boot

theorem exec_buckUndervoltageStop (hp : s.clock.powered = true) (hl : s.energy.buckCount = 3) (hs : s.isl.mgmt.stopped = false)
    (hb : ((s.stopIsland .loop).stopIsland .mgmt).boot = s.boot) :
    exec .buckUndervoltageStop s = .next { (s.stopIsland .loop).stopIsland .mgmt with boot := s.bootAgain } := by
  have hg : (s.clock.powered && s.energy.buckCount == 3 && !s.isl.mgmt.stopped) = true := by rw [hp, hl, hs]; rfl
  refine (congrArg (stepIf · s _) hg).trans (congrArg Host.Outcome.next ?_)
  have hc : (s.boot == .verify || s.boot == .recovery) = true ↔ s.boot = .verify ∨ s.boot = .recovery := by simp
  show (if (s.boot == .verify || s.boot == .recovery) = true then
    { (s.stopIsland .loop).stopIsland .mgmt with boot := .wait } else (s.stopIsland .loop).stopIsland .mgmt) = _
  unfold State.bootAgain
  by_cases h : s.boot = .verify ∨ s.boot = .recovery
  · rw [if_pos (hc.2 h), if_pos h]
  · rw [if_neg (hc.not.2 h), if_neg h, ← hb]

theorem Window.eq_but_mb_posts {w v : Window} {m : Vector Mailbox 8} {l : List (Nat × Word64 × Req)} (h : v = { w with mb := m, posts := l }) :
    v = { w with mb := v.mb, posts := v.posts } := by
  rw [h]

/-- LOOP after its fence: its ports silent, its memory forgotten, what AON has not taken lost (08 R201; 13 R341). -/
theorem State.fenceLoop_eq (s : State) : ∃ m f k a b c d e, s.fenceLoop = { s with
      loop := { s.loop with feed := a, replaying := b, sched := c, skipped := d, todo := e }
      mgmt := m, fab := f, fsk := k, win := s.win.dropPosts .loop, ports := ⟨s.ports.loop.silent, s.ports.spur.silent⟩
      decoder := [], decFree := 0, dspFree := 0 } ∧
    f.pubQueue = [] ∧ f.mb2Wait = [] ∧ k.buf = none ∧ k.octets = [] ∧ k.send = [] := by
  have hm (u : State) (b : Bool) (g : Mgmt → Mgmt) : ∃ m, (if b = true then u.setMgmt (g u.mgmt) else u) = u.setMgmt m := by
    cases b
    · exact ⟨u.mgmt, rfl⟩
    · exact ⟨_, rfl⟩
  unfold State.fenceLoop
  dsimp only
  obtain ⟨m, he⟩ := hm s s.fsk.tx.isSome fun m => m.cancel 0x0508
  rw [he]
  obtain ⟨n, he'⟩ := hm (s.setMgmt m) _ Mgmt.cancelFix
  rw [he']
  obtain ⟨f, k, hfk, h1, h2, h3, h4, h5⟩ := ((s.setMgmt m).setMgmt n).forgetLoop_eq
  rw [hfk]
  exact ⟨n, f, k, _, _, _, _, _, rfl, h1, h2, h3, h4, h5⟩

/-- The islands that a recovery releases (03 Table 3-11). -/
def State.recovers (s : State) (x : Isl) : Isl :=
  if x.stopped = true then { x with stopped := false, resetAt := if (s.isl.mgmt.stopped || !s.meas.round.on) = true then none else some s.now }
  else x

theorem State.recover_eq (s : State) : ∃ o, s.recover = ({ s with
      isl := ⟨s.recovers s.isl.mgmt, s.recovers s.isl.loop, s.recovers s.isl.meas, s.isl.aon⟩
      boot := if s.isl.mgmt.stopped = true then (if s.pins.testMode = true then .wait else .verify) else s.boot }).setObs o ∧
    s.OnlyTrace (s.setObs o) := by
  unfold State.recover
  dsimp only
  cases hm : s.isl.mgmt.stopped
  · exact ⟨s.obs, by simp only [State.recovers, hm]; rfl, .refl _ s⟩
  · cases ht : s.pins.testMode
    · obtain ⟨o, ho, htr⟩ := State.emit_eq ({ s with
        isl := ⟨s.recovers s.isl.mgmt, s.recovers s.isl.loop, s.recovers s.isl.meas, s.isl.aon⟩, boot := .verify }) .aon 0xA
        ((srcOf .mgmt).toNat + 256 * 1) []
      refine ⟨o, ?_, htr⟩
      simp only [State.recovers, hm] at ho ⊢
      exact ho
    · exact ⟨s.obs, by simp only [State.recovers, hm]; rfl, .refl _ s⟩

theorem exec_brownoutRecovery (hp : s.clock.powered = true) (he : s.energy.evalAt = some s.now) (hl : 8500 ≤ s.energy.loopAvg)
    (hany : s.isl.mgmt.stopped = true ∨ s.isl.loop.stopped = true ∨ s.isl.meas.stopped = true) :
    exec .brownoutRecovery s = .next s.recover := by
  have hg : (s.clock.powered && s.energy.evalAt == some s.now && decide (8500 ≤ s.energy.loopAvg) &&
      (s.isl.mgmt.stopped || s.isl.loop.stopped || s.isl.meas.stopped)) = true := by
    simpa [hp, he, hl, or_assoc] using hany
  exact congrArg (stepIf · s _) hg

end

/-- Settles O34: the evaluation boundary part by part, then the two stops and the recovery. -/
theorem seasonsAndBrownOut : Obligations.SeasonsAndBrownOut := by
  refine ⟨fun s e hp hr h512 hn hsup => ?_, fun s hp => ?_⟩
  · intro l x r aux sense ceiling ua uw next season back alarmed fs traced
    have hsense : s.senseUa e = sense := by
      cases hc : s.loop.comply <;> simp [State.senseUa, LoopOut.complying, sense, hc]
    have hex := exec_evaluationBoundary e hp hr h512 hn
    obtain ⟨r1, o1, h1, hs, hm⟩ := (s.evaluated e).evalSeasoned_eq
    obtain ⟨r2, o2, h2, htr, hreg⟩ := (s.evaluated e).evalSeasoned.evalClose_eq (by rw [h1]; exact hsup)
    have hseason : (s.evaluated e).evalSeason = season := by
      show (if aux = true then s.energy.season else if s.isl.aon.up = false then s.energy.season else next) = season
      simp only [season]
      by_cases ha : aux = true
      · rw [if_pos ha, if_pos (.inl ha)]
      · rw [if_neg ha]
        exact if_congr (or_iff_right ha).symm rfl rfl
    have htraced : (s.evaluated e).tracedIn season = traced := by
      obtain ⟨y, hy⟩ : ∃ y, y = season := ⟨_, rfl⟩
      simp only [traced, ← hy, Bool.and_comm (!s.pins.inReset)]
      cases y <;> rfl
    have hback : (s.evaluated e).auxBack = back := rfl
    have hopens : fs.opens = s.faults.opens := by
      simp only [fs]
      split <;> rfl
    have hrel : (s.evaluated e).auxRelieved = (back && alarmed) := congrArg (fun l : List Open => back && l.any fun o => o.aux) hopens
    have hboot : (s.evaluated e).evalSeasoned.bootNext (s.evaluated e).evalSeasoned.energy.loopAvg = s.bootNext l := by
      rw [h1]; rfl
    rw [hboot] at h2
    rw [hseason, hback, hrel] at h1
    rw [hseason] at hs hm
    generalize (s.evaluated e).evalSeasoned = m at *
    refine ⟨_, hex, ?_⟩
    generalize m.auxCheck.bootWait.updateRegister = t at *
    subst h1
    have hen := congrArg State.energy h2
    have hlo : t.loop = if (back && alarmed) = true then { s.loop with sched := s.loop.sched ++ [⟨s.now + 5, .auxAlarm false⟩] }
        else s.loop := by rw [h2]; rfl
    have hfa : t.faults = if (back && alarmed) = true then fs.auxGone else fs := by rw [h2]; rfl
    have hE : (s.evaluated e).energy = s.energy.evaluate e sense s.now := congrArg (fun c => s.energy.evaluate e c s.now) hsense
    refine ⟨⟨by rw [h2]; rfl, fun q hq => ?_⟩, fun hsame => ?_, fun hnew => ?_, ?_, congrArg State.win h2, fun hb => ?_,
      fun hb => ?_, congrArg State.boot h2⟩
    · rw [h2]
      cases q <;> first | exact absurd (by decide) hq | rfl
    · rw [h2]
      have ho := hs hsame
      subst ho
      exact htr
    · rw [h2]
      have hw := htr.switched (hm hnew)
      rw [htraced] at hw
      exact ⟨hw.on, hw.off, hw.sync⟩
    · rw [← hreg]
      refine hen.trans ?_
      change ({ (s.evaluated e).energy with
        season := season, register := r2, auxNext := if back = true then some true else (s.evaluated e).energy.auxNext
        auxLost := false } : Energy) = _
      rw [hE]
      rfl
    · rw [hb, if_neg Bool.false_ne_true] at hlo hfa
      exact ⟨hlo, hfa⟩
    · rw [if_pos hb] at hlo hfa
      have hspec := fs.auxGone_spec
      rw [hopens] at hspec
      rw [hfa]
      exact ⟨hlo, hspec.1, hspec.2⟩
  · intro stopped
    refine ⟨fun hl hs hd => ?_, fun hl hs hdm hdl => ?_, fun he h85 hany => ?_⟩
    · obtain ⟨o, ho, htr⟩ := s.stopIsland_eq .meas hd
      obtain ⟨m, hf, hm⟩ := s.fenceMeas_eq
      have hfe : s.fence .meas = s.fenceMeas := rfl
      rw [hfe, hf] at ho htr
      refine ⟨_, exec_loopLowStop hp hl hs, ?_⟩
      rw [ho]
      exact ⟨⟨rfl, fun q hq => by cases q <;> first | exact absurd (by decide) hq | rfl⟩, htr, rfl, rfl, rfl, rfl, rfl, rfl, rfl, rfl, rfl,
        rfl, rfl, rfl, rfl, rfl, hm⟩
    · obtain ⟨o1, h1, tr1⟩ := s.stopIsland_eq .loop hdl
      obtain ⟨m, f, k, _, _, _, _, _, hf, p1, p2, p3, p4, p5⟩ := s.fenceLoop_eq
      have hfe : s.fence .loop = s.fenceLoop := rfl
      rw [hfe, hf] at h1 tr1
      have hcp := s.fenceLoop_fenced.copies
      rw [hf] at hcp
      obtain ⟨o2, h2, tr2⟩ := (s.stopIsland .loop).stopIsland_eq .mgmt (by rw [h1]; exact hdm)
      have hwin := (s.stopIsland .loop).fenceMgmt_fenced.win
      rw [h1] at h2 tr2 hwin
      refine ⟨_, exec_buckUndervoltageStop hp hl hs (by rw [h1, h2]; rfl), ?_⟩
      rw [h1, h2]
      refine ⟨⟨rfl, fun q hq => by cases q <;> first | exact absurd (by decide) hq | rfl⟩, tr1.trans tr2, rfl, rfl, rfl, rfl, hcp.1, hcp.1, hcp.2,
        rfl, rfl, rfl, rfl, rfl, Window.eq_but_mb_posts hwin, p1, rfl, p2, p3, p4, p5⟩
    · obtain ⟨o, ho, htr⟩ := s.recover_eq
      refine ⟨_, exec_brownoutRecovery hp he h85 hany, ?_⟩
      rw [ho]
      refine ⟨⟨rfl, fun q hq => by cases q <;> first | exact absurd (by decide) hq | rfl⟩, htr, rfl, rfl, fun i hi => ?_⟩
      cases i with
      | aon => exact absurd rfl hi
      | mgmt => rfl
      | loop => rfl
      | meas => rfl

end Sys2Proof.Machine
end



section
/-! PROOFS. Monitors, compliance, mis-wiring and the reference (01 R29; 08 R194, R205, R206; 13 Table 13-2; 15 R367; 16 R385). -/

namespace Sys2Proof.Machine

open Sys2Proof

set_option Elab.async false

section
variable {s : State}

/-! ## Steps under a condition -/

theorem stepIf_of {c : Bool} {s t : State} (h : c = true) : stepIf c s t = .next t := by rw [h]; rfl

theorem stepIf_not {c : Bool} {s t : State} (h : c = false) : stepIf c s t = .next s := by rw [h]; rfl

/-! ## Monitors -/

theorem State.report_energy_only (s : State) (e : Energy) (det cause : Nat) (isl : Byte) :
    s.Only [.faults, .energy] ((s.setEnergy e).report det cause isl) :=
  ⟨rfl, fun q hq => by cases q <;> first | exact absurd (by decide) hq | rfl⟩

theorem State.report_only (s : State) (det cause : Nat) (isl : Byte) : s.Only [.faults] (s.report det cause isl) :=
  ⟨rfl, fun q hq => by cases q <;> first | exact absurd (by decide) hq | rfl⟩

theorem exec_watchdogExpiry (i : Island) (hp : s.clock.powered = true) (hu : (s.isl.at i).up = true) (hf : (s.isl.at i).wdtFired = false)
    (hl : watchdogTicks i ≤ s.now - (s.isl.at i).lastBeat) : exec (.watchdogExpiry i) s =
      .next ((s.setIsl i { s.isl.at i with wdtFired := true }).report (watchdogDet i) 0 (srcOf i)) :=
  stepIf_of (by rw [hp, hu, hf, decide_eq_true hl]; rfl)

/-! ## The loop's source -/

/-- Only a fold-back has source 8 (08 R191). -/
theorem State.selectCode_src (s : State) (h : ∀ u, s.loop.miswire ≠ .folded u) : s.selectCode.1 ≠ 8 := by
  unfold State.selectCode
  dsimp only
  split
  · next u hu => exact absurd hu (h u)
  · repeat' split
    all_goals exact of_decide_eq_true rfl

theorem State.selectCode_folded (s : State) {u : Nat} (h : s.loop.miswire = .folded u) : s.selectCode.1 = 8 ∧ s.selectCode.2 ≤ 36000 := by
  unfold State.selectCode
  dsimp only
  rw [h]
  exact ⟨rfl, min_le_left _ _⟩

theorem State.refreshed_stages (s : State) : ∃ l : LoopOut, s.refreshed = l.stages (s.setLoop l).selectCode.1 (s.setLoop l).selectCode.2
    s.mgmt.inForce.slew ∧ l.miswire = s.loop.miswire ∧ l.prevSrc = s.loop.prevSrc := by
  unfold State.refreshed
  cases s.primaryRuns
  · exact ⟨_, rfl, rfl, rfl⟩
  · exact ⟨_, rfl, rfl, rfl⟩

theorem LoopOut.stages_bypass (l : LoopOut) (c slew : Int) (h : l.prevSrc ≠ 8) : (l.stages 8 c slew).lim = c := by
  have hb : (8 != l.prevSrc && (8 == 5 || 8 == 6 || 8 == 8)) = true := by
    rw [bne_iff_ne.2 h.symm]; rfl
  show (if (8 != l.prevSrc && (8 == 5 || 8 == 6 || 8 == 8)) = true then c else _) = c
  rw [if_pos hb]

/-! ## Mis-wiring -/

theorem State.setMiswire_refreshed (s : State) (m : Miswire) : ∃ o,
    s.setMiswire m = (s.setLoop (s.setLoop { s.loop with miswire := m }).refreshed).setObs o ∧ s.OnlyTrace (s.setObs o) := by
  obtain ⟨o, ho, htr⟩ := (s.setLoop (s.setLoop { s.loop with miswire := m }).refreshed).loopTrace_eq s.loop
  refine ⟨o, ?_, htr⟩
  rw [← ho, State.setMiswire, State.refreshLoop_eq]
  rfl

/-- A fold-back takes the output to 3.6 mA at most, past the limiter (08 R194, R206). -/
theorem State.setMiswire_folded (s : State) (u : Nat) : ∃ l o, s.setMiswire (.folded u) = (s.setLoop l).setObs o ∧ s.OnlyTrace (s.setObs o) ∧
    l.miswire = .folded u ∧ l.src = 8 ∧ l.cmd ≤ 36000 ∧ (s.loop.prevSrc ≠ 8 → l.lim = l.cmd) := by
  obtain ⟨o, he, htr⟩ := s.setMiswire_refreshed (.folded u)
  obtain ⟨l, hl, hm, hp⟩ := (s.setLoop { s.loop with miswire := .folded u }).refreshed_stages
  obtain ⟨hsrc, hcode⟩ := ((s.setLoop { s.loop with miswire := .folded u }).setLoop l).selectCode_folded (u := u) hm
  refine ⟨_, o, he, htr, State.refreshed_miswire _, ?_⟩
  rw [hl, hsrc]
  exact ⟨rfl, hcode, fun h => l.stages_bypass _ _ (by rw [hp]; exact h)⟩

/-- Without a fold-back the loop has another source. -/
theorem State.setMiswire_open (s : State) {m : Miswire} (h : ∀ u, m ≠ .folded u) : ∃ l o, s.setMiswire m = (s.setLoop l).setObs o ∧
    s.OnlyTrace (s.setObs o) ∧ l.miswire = m ∧ l.src ≠ 8 := by
  obtain ⟨o, he, htr⟩ := s.setMiswire_refreshed m
  obtain ⟨l, hl, hm, -⟩ := (s.setLoop { s.loop with miswire := m }).refreshed_stages
  refine ⟨_, o, he, htr, State.refreshed_miswire _, ?_⟩
  rw [hl]
  exact ((s.setLoop { s.loop with miswire := m }).setLoop l).selectCode_src fun u hu => h u (hm.symm.trans hu)

/-- A state with a new loop and what is traced of it. -/
theorem State.loop_obs_only (s : State) (l : LoopOut) (o : Obs) : s.Only [.loop, .obs] ((s.setLoop l).setObs o) :=
  ⟨rfl, fun q hq => by cases q <;> first | exact absurd (by decide) hq | rfl⟩

theorem State.loop_obs_report_only (s : State) (l : LoopOut) (o : Obs) (det cause : Nat) (isl : Byte) :
    s.Only [.loop, .faults, .obs] (((s.setLoop l).setObs o).report det cause isl) :=
  ⟨rfl, fun q hq => by cases q <;> first | exact absurd (by decide) hq | rfl⟩

theorem exec_miswireFold_normal {n : Nat} (hm : s.loop.miswire = .normal n) : exec .miswireFold s =
    stepIf (s.clock.powered && s.mgmt.inForce.mwEn && s.energy.readAt != some s.now && decide (391 ≤ n)) s
      ((s.setMiswire (.folded s.now)).report 0x24 0 0x40) := by
  show execMiswireFold s = _
  unfold execMiswireFold
  rw [hm]

theorem exec_miswireFold_retry {h m : Nat} (hm : s.loop.miswire = .retry h m) : exec .miswireFold s =
    stepIf (s.clock.powered && s.mgmt.inForce.mwEn && s.energy.readAt != some s.now && decide (391 ≤ h)) s
      ((s.setMiswire (.folded s.now)).report 0x24 1 0x40) := by
  show execMiswireFold s = _
  unfold execMiswireFold
  rw [hm]

theorem exec_miswireFold_off (h : s.mgmt.inForce.mwEn = false) : exec .miswireFold s = .next s := by
  cases hm : s.loop.miswire with
  | normal n => rw [exec_miswireFold_normal hm, h, Bool.and_false]; rfl
  | retry a b => rw [exec_miswireFold_retry hm, h, Bool.and_false]; rfl
  | folded u =>
    show execMiswireFold s = _
    unfold execMiswireFold
    rw [hm]

theorem exec_miswireRetry {u : Nat} (hp : s.clock.powered = true) (hm : s.loop.miswire = .folded u) (h : 1000000 ≤ s.now - u) :
    exec .miswireRetry s = .next (s.setMiswire (.retry 0 0)) := by
  show execMiswireRetry s = _
  unfold execMiswireRetry
  rw [hm]
  exact stepIf_of (by rw [hp, decide_eq_true h]; rfl)

theorem exec_miswireClear {h n : Nat} (hp : s.clock.powered = true) (hm : s.loop.miswire = .retry h n) (hn : 391 ≤ n) :
    exec .miswireClear s = .next (s.setMiswire (.normal 0)) := by
  show execMiswireClear s = _
  unfold execMiswireClear
  rw [hm]
  exact stepIf_of (by rw [hp, decide_eq_true hn]; rfl)

/-! ## Compliance -/

/-- A new compliance state with its report. -/
def State.complies (s : State) (c : Comply) (cause : Nat) : State :=
  ((s.setLoop { s.loop with comply := c }).report 0x23 cause 0x40).loopTrace s.loop

theorem State.complies_eq (s : State) (c : Comply) (cause : Nat) : ∃ o, s.complies c cause =
    ((s.setLoop { s.loop with comply := c }).report 0x23 cause 0x40).setObs o ∧ s.OnlyTrace (s.setObs o) :=
  State.loopTrace_eq ((s.setLoop { s.loop with comply := c }).report 0x23 cause 0x40) s.loop

theorem exec_complianceEnter {n : Nat} (hp : s.clock.powered = true) (hc : s.loop.comply = .dip n) (h : 4 ≤ n) :
    exec .complianceEnter s = .next (s.complies (.comply 0) 0) := by
  show execComplianceEnter s = _
  unfold execComplianceEnter
  rw [hc]
  exact stepIf_of (by rw [hp, decide_eq_true h]; rfl)

theorem exec_complianceClear {g : Nat} (hp : s.clock.powered = true) (hc : s.loop.comply = .comply g) (h : 64 ≤ g) :
    exec .complianceClear s = .next (s.complies .inReg 1) := by
  show execComplianceClear s = _
  unfold execComplianceClear
  rw [hc]
  exact stepIf_of (by rw [hp, decide_eq_true h]; rfl)

/-! ## The reference -/

theorem exec_clockLoss_running (hp : s.clock.powered = true) (hr : s.clock.running = true) (hi : s.clock.onInternal = false) :
    exec .clockLoss s = .next (({ s with
      clock := { s.clock with onInternal := true, lost := true, guarantee := false }, decoder := []
      ports := ⟨s.ports.loop.silent, s.ports.spur.silent⟩
      fab := { s.fab with
        locked := false, relay := none, sweep := [], sessions := s.fab.sessions.map fun (x : Session) => { x with due := none } } } :
      State).report 0x10 0 0x40) := by
  have hg : (s.clock.powered && !s.clock.onInternal) = true := by rw [hp, hi]; rfl
  exact (stepIf_of hg).trans (congrArg Host.Outcome.next (if_pos hr))

theorem exec_clockLoss_start (hp : s.clock.powered = true) (hr : s.clock.running = false) (hi : s.clock.onInternal = false) :
    exec .clockLoss s = .next { s with
      clock := { s.clock with running := true, onInternal := true, guarantee := false }
      energy := { s.energy with charging := true } } := by
  have hg : (s.clock.powered && !s.clock.onInternal) = true := by rw [hp, hi]; rfl
  exact (stepIf_of hg).trans (congrArg Host.Outcome.next (if_neg fun h => Bool.false_ne_true (hr.symm.trans h)))

theorem Fabric.sess_map (f : Fabric) (g : Session → Session) {n : Nat} (h : n < 16) :
    ({ f with sessions := f.sessions.map g } : Fabric).sess n = g (f.sess n) := by
  simp [Fabric.sess, Vector.getD, h]

end

/-- Settles O35: each monitor's step with its report; compliance and mis-wiring by the loop's state; loss and return of the reference. -/
theorem monitorsComplianceAndReference : Obligations.MonitorsComplianceAndReference := by
  refine ⟨fun s hp => ?_, fun s hp => ?_, fun s hp => ?_⟩
  · intro reports
    refine ⟨fun h => ?_, fun h => ?_, fun r h => ?_, ?_, ?_, ?_, fun i hu hf hl => ?_⟩
    · exact ⟨_, stepIf_of (by rw [hp, h]; rfl), s.report_energy_only _ _ _ _, rfl, rfl⟩
    · exact ⟨_, stepIf_of (by rw [hp, h]; rfl), s.report_energy_only _ _ _ _, rfl, rfl⟩
    · exact ⟨_, stepIf_of (by rw [hp, h]; rfl), s.report_energy_only _ _ _ _, rfl, rfl⟩
    · exact ⟨_, stepIf_of hp, s.report_only _ _ _, rfl, trivial⟩
    · exact ⟨_, stepIf_of hp, s.report_only _ _ _, rfl, trivial⟩
    · exact ⟨_, stepIf_of hp, s.report_only _ _ _, rfl, trivial⟩
    · have hex := exec_watchdogExpiry i hp hu hf (by cases i <;> exact hl)
      refine ⟨_, hex, ⟨rfl, fun q hq => by cases q <;> first | exact absurd (by decide) hq | rfl⟩, by cases i <;> rfl, rfl⟩
  · intro moves folds
    refine ⟨fun n hc h4 => ?_, fun g hc h64 => ?_, fun hon n hm hn hr => ?_, fun hon h m hm hn hr => ?_, exec_miswireFold_off,
      fun u hm hu => ?_, fun h n hm hn => ?_⟩
    · obtain ⟨o, ho, htr⟩ := s.complies_eq (.comply 0) 0
      refine ⟨_, exec_complianceEnter hp hc h4, ?_⟩
      rw [ho]
      exact ⟨⟨rfl, fun q hq => by cases q <;> first | exact absurd (by decide) hq | rfl⟩, htr, rfl, rfl⟩
    · obtain ⟨o, ho, htr⟩ := s.complies_eq .inReg 1
      refine ⟨_, exec_complianceClear hp hc h64, ?_⟩
      rw [ho]
      exact ⟨⟨rfl, fun q hq => by cases q <;> first | exact absurd (by decide) hq | rfl⟩, htr, rfl, rfl⟩
    · obtain ⟨l, o, he, htr, h1, h2, h3, h4⟩ := s.setMiswire_folded s.now
      have hg : (s.clock.powered && s.mgmt.inForce.mwEn && s.energy.readAt != some s.now && decide (391 ≤ n)) = true := by
        rw [hp, hon, bne_iff_ne.2 hr, decide_eq_true hn]; rfl
      refine ⟨_, (exec_miswireFold_normal hm).trans (stepIf_of hg), ?_⟩
      rw [he]
      exact ⟨s.loop_obs_report_only l o _ _ _, htr, h1, rfl, h2, h3, h4⟩
    · obtain ⟨l, o, he, htr, h1, h2, h3, h4⟩ := s.setMiswire_folded s.now
      have hg : (s.clock.powered && s.mgmt.inForce.mwEn && s.energy.readAt != some s.now && decide (391 ≤ h)) = true := by
        rw [hp, hon, bne_iff_ne.2 hr, decide_eq_true hn]; rfl
      refine ⟨_, (exec_miswireFold_retry hm).trans (stepIf_of hg), ?_⟩
      rw [he]
      exact ⟨s.loop_obs_report_only l o _ _ _, htr, h1, rfl, h2, h3, h4⟩
    · obtain ⟨l, o, he, htr, h1, h2⟩ := s.setMiswire_open (m := .retry 0 0) fun _ => nofun
      refine ⟨_, exec_miswireRetry hp hm hu, ?_⟩
      rw [he]
      exact ⟨s.loop_obs_only l o, htr, h1, h2⟩
    · obtain ⟨l, o, he, htr, h1, h2⟩ := s.setMiswire_open (m := .normal 0) fun _ => nofun
      refine ⟨_, exec_miswireClear hp hm hn, ?_⟩
      rw [he]
      exact ⟨s.loop_obs_only l o, htr, h1, h2⟩
  · refine ⟨fun hr hi => ⟨_, exec_clockLoss_running hp hr hi, ⟨rfl, fun q hq => by cases q <;> first | exact absurd (by decide) hq | rfl⟩,
      rfl, rfl, rfl, rfl, fun n hn => s.fab.sess_map _ hn, rfl⟩, fun hr hi => exec_clockLoss_start hp hr hi, fun hi => ?_⟩
    exact stepIf_of (by rw [hp, hi]; rfl)

end Sys2Proof.Machine
end



section
/-! PROOFS. What the sequencer sees of the state: nothing of observation. -/

namespace Sys2Proof.Machine

open Sys2Proof

set_option Elab.async false

section
variable {s t : State}

/-! ## States that differ in observation alone -/

/-- `t` is `s` but for observation. -/
structure State.Alike (s t : State) : Prop where
  but : ∃ o, t = s.setObs o

theorem State.Alike.refl (s : State) : s.Alike s := ⟨s.obs, rfl⟩

theorem State.Alike.trans {u : State} (h : s.Alike t) (k : t.Alike u) : s.Alike u := by
  obtain ⟨o, rfl⟩ := h
  obtain ⟨o', rfl⟩ := k
  exact ⟨o', rfl⟩

theorem State.Alike.symm (h : s.Alike t) : t.Alike s := by
  obtain ⟨o, rfl⟩ := h
  exact ⟨s.obs, rfl⟩

theorem State.setObs_alike (s : State) (o : Obs) : s.Alike (s.setObs o) := ⟨o, rfl⟩

theorem State.emit_alike (s : State) (i : Island) (typ hdr : Nat) (more : List Nat) : s.Alike (s.emit i typ hdr more) := by
  obtain ⟨o, ho, -⟩ := s.emit_eq i typ hdr more
  exact ⟨o, ho⟩

/-- Traced messages keep two states alike. -/
theorem State.Alike.emit (h : s.Alike t) (i j : Island) (typ typ' hdr hdr' : Nat) (more more' : List Nat) :
    (s.emit i typ hdr more).Alike (t.emit j typ' hdr' more') :=
  ((s.emit_alike i typ hdr more).symm.trans h).trans (t.emit_alike j typ' hdr' more')

theorem State.Alike.foldl {α : Type} {f : State → α → State} (hf : ∀ {x y : State} (a : α), x.Alike y → (f x a).Alike (f y a))
    (l : List α) (h : s.Alike t) : (l.foldl f s).Alike (l.foldl f t) := by
  induction l generalizing s t with
  | nil => exact h
  | cons a l ih => exact ih (hf a h)

theorem State.Alike.ite {c : Prop} [Decidable c] {a b x y : State} (h : a.Alike x) (k : b.Alike y) :
    (if c then a else b).Alike (if c then x else y) := by
  split
  · exact h
  · exact k

theorem State.Alike.discardTriggers (q : Nat) (h : s.Alike t) : (s.discardTriggers q).Alike (t.discardTriggers q) := by
  obtain ⟨o, rfl⟩ := h
  unfold State.discardTriggers
  cases hx : (s.meas.seq q).trig <;> simp only [State.setObs_meas, hx] <;> exact ⟨_, rfl⟩

/-- The loop's part of a sequence's stop. -/
def State.loopUntracked (s : State) (q : Nat) : State :=
  if q = s.mgmt.inForce.primary then s.setLoop { s.loop with interrupted := false } else s

/-- The sequence's own part of its stop. -/
def State.seqOff (s : State) (q : Nat) : State :=
  let m := s.meas.setSeq q { s.meas.seq q with running := false, stopFrom := none, trig := .idle }
  s.setMeas { m with chans := Vector.ofFn fun c =>
    let x := m.chan c.val
    { x with restart := x.restart || ((s.mgmt.inForce.seqsOf c.val).contains q && m.idleChan s.mgmt.inForce c.val) } }

theorem State.stopSeq_eq (s : State) (q : Nat) : s.stopSeq q = ((s.discardTriggers q).loopUntracked q).seqOff q := rfl

theorem State.Alike.stopSeq (q : Nat) (h : s.Alike t) : (s.stopSeq q).Alike (t.stopSeq q) := by
  obtain ⟨o, ho⟩ := h.discardTriggers q
  rw [s.stopSeq_eq, t.stopSeq_eq, ho]
  generalize s.discardTriggers q = u
  obtain ⟨o', ho'⟩ : (u.loopUntracked q).Alike ((u.setObs o).loopUntracked q) := .ite ⟨o, rfl⟩ ⟨o, rfl⟩
  rw [ho']
  exact ⟨o', rfl⟩

theorem State.Alike.finishWindows (m : SlotMap) (new : Alm) (h : s.Alike t) : (s.finishWindows m new).Alike (t.finishWindows m new) := by
  unfold State.finishWindows
  refine State.Alike.foldl (fun {x y} q hxy => ?_) _ h
  obtain ⟨o, rfl⟩ := hxy
  cases hx : (x.meas.seq q).trig <;> simp only [State.setObs_meas, hx]
  case running k => exact .ite ⟨o, rfl⟩ ⟨o, rfl⟩
  case runningPending k => exact .ite ⟨o, rfl⟩ ⟨o, rfl⟩
  all_goals exact ⟨o, rfl⟩

/-- The sequences whose windows differ lose their triggers. -/
def State.dropWindows (s : State) (old new : Alm) : State := ((List.range 4).filter (old.windowsDiffer new)).foldl State.discardTriggers s

theorem State.Alike.dropWindows (old new : Alm) (h : s.Alike t) : (s.dropWindows old new).Alike (t.dropWindows old new) :=
  .foldl (f := State.discardTriggers) (fun q => State.Alike.discardTriggers q) _ h

/-- A map put in the place of the one before, whose MEAS was `m`. -/
def State.mapSet (s : State) (old new : Alm) (m : Meas) (was : SlotMap × Alm) (m' : SlotMap) (fbs : List SlotMap) : State :=
  let s := s.setMgmt { s.mgmt with inForce := new }
  let s := s.setLoop { s.loop with duMax := max s.loop.duMax m'.duMax, g := m'.g, duFrom := s.now }
  let s := s.setEnergy { s.energy with cost := m'.cost, costLoop := m'.costLoop }
  s.setMeas { s.meas with
    map := m', prior := some (s.now, was), fallback := fbs, sxItem := sxAfter old new m.sxItem,
    chans := Vector.ofFn fun c => (m.chan c.val).atChange old new m.map m' c.val,
    slices := s.meas.slices.map fun x => { x with warm := true } }

theorem State.changeMap_eq (s : State) (new : Alm) (m' : SlotMap) (fbs : List SlotMap) : s.changeMap new m' fbs =
    ((s.dropWindows s.mgmt.inForce new).finishWindows m' new).mapSet s.mgmt.inForce new s.meas s.before m' fbs := by
  delta State.changeMap State.mapSet State.dropWindows
  rfl

theorem State.Alike.mapSet (old new : Alm) (m : Meas) (was : SlotMap × Alm) (m' : SlotMap) (fbs : List SlotMap) (h : s.Alike t) :
    (s.mapSet old new m was m' fbs).Alike (t.mapSet old new m was m' fbs) := by
  obtain ⟨o, rfl⟩ := h
  exact ⟨o, rfl⟩

theorem State.Alike.changeMap (new : Alm) (m : SlotMap) (fs : List SlotMap) (h : s.Alike t) :
    (s.changeMap new m fs).Alike (t.changeMap new m fs) := by
  have hm : t.mgmt = s.mgmt := by obtain ⟨o, rfl⟩ := h; rfl
  have he : t.meas = s.meas := by obtain ⟨o, rfl⟩ := h; rfl
  have hb : t.before = s.before := by obtain ⟨o, rfl⟩ := h; rfl
  rw [s.changeMap_eq, t.changeMap_eq, hm, he, hb]
  exact ((h.dropWindows _ _).finishWindows _ _).mapSet ..

/-- Fields put in force without a new map. -/
def State.fieldsSet (s : State) (old new : Alm) (m : Meas) : State :=
  (s.setMgmt { s.mgmt with inForce := new }).setMeas { s.meas with
    sxItem := sxAfter old new m.sxItem, chans := Vector.ofFn fun c => (m.chan c.val).atChange old new m.map m.map c.val }

theorem State.changeFields_eq (s : State) (new : Alm) : s.changeFields new =
    (s.dropWindows s.mgmt.inForce new).fieldsSet s.mgmt.inForce new s.meas := rfl

theorem State.Alike.fieldsSet (old new : Alm) (m : Meas) (h : s.Alike t) : (s.fieldsSet old new m).Alike (t.fieldsSet old new m) := by
  obtain ⟨o, rfl⟩ := h
  exact ⟨o, rfl⟩

theorem State.Alike.changeFields (new : Alm) (h : s.Alike t) : (s.changeFields new).Alike (t.changeFields new) := by
  have hm : t.mgmt = s.mgmt := by obtain ⟨o, rfl⟩ := h; rfl
  have he : t.meas = s.meas := by obtain ⟨o, rfl⟩ := h; rfl
  rw [s.changeFields_eq, t.changeFields_eq, hm, he]
  exact (h.dropWindows _ _).fieldsSet ..

theorem State.Alike.postReq (k op : Nat) (r : Req) (h : s.Alike t) : (s.postReq k op r).Alike (t.postReq k op r) := by
  obtain ⟨o, rfl⟩ := h
  unfold State.postReq
  refine .ite ⟨o, rfl⟩ (.ite ⟨o, rfl⟩ ?_)
  exact State.Alike.emit (s := s.setWin _) ⟨o, rfl⟩ ..

theorem State.Alike.measEvent (op lag status : Nat) (res : List Byte) (h : s.Alike t) :
    (s.measEvent op lag status res).Alike (t.measEvent op lag status res) := by
  have hl : t.takenBy op lag = s.takenBy op lag := by
    obtain ⟨o, rfl⟩ := h
    rfl
  unfold State.measEvent
  rw [hl]
  refine State.Alike.foldl (fun {x y} o hxy => ?_) _ h
  generalize o.answer op status res = e
  exact hxy.postReq 5 o.op _

theorem State.Alike.emitSlice (sl ev : Nat) (w w' : Int) (h : s.Alike t) : (s.emitSlice sl ev w).Alike (t.emitSlice sl ev w') := h.emit ..

theorem State.Alike.setMeas (h : s.Alike t) (m : Meas) : (s.setMeas m).Alike (t.setMeas m) := by
  obtain ⟨o, rfl⟩ := h
  exact ⟨o, rfl⟩

theorem State.Alike.setLoop (h : s.Alike t) (l : LoopOut) : (s.setLoop l).Alike (t.setLoop l) := by
  obtain ⟨o, rfl⟩ := h
  exact ⟨o, rfl⟩

theorem State.Alike.meas (h : s.Alike t) : t.meas = s.meas := by
  obtain ⟨o, rfl⟩ := h
  rfl

theorem State.Alike.mgmt (h : s.Alike t) : t.mgmt = s.mgmt := by
  obtain ⟨o, rfl⟩ := h
  rfl

theorem State.Alike.loop (h : s.Alike t) : t.loop = s.loop := by
  obtain ⟨o, rfl⟩ := h
  rfl

theorem State.Alike.now (h : s.Alike t) : t.now = s.now := by
  obtain ⟨o, rfl⟩ := h
  rfl

theorem State.Alike.takeFailMap (h : s.Alike t) : s.takeFailMap.Alike t.takeFailMap := by
  unfold State.takeFailMap
  rw [h.meas, h.now]
  cases s.meas.failMap with
  | none => exact h
  | some e =>
    refine .ite ?_ h
    rw [h.mgmt]
    have hc := h.changeMap s.mgmt.inForce e.1 []
    show (State.setMeas _ _).Alike (State.setMeas _ _)
    rw [hc.meas]
    exact hc.setMeas _

/-- A sequence stopped for want of AUX: it neither runs nor waits for a start. -/
def State.seqHalted (s : State) (q : Nat) : State :=
  let s := if (s.meas.seq q).running then s.stopSeq q else s
  s.setMeas (s.meas.setSeq q { s.meas.seq q with startFrom := none })

/-- The sequences that are running or wait for their start. -/
def Meas.onSeqs (m : Meas) : List Nat := (List.range 4).filter fun q => (m.seq q).running || (m.seq q).startFrom.isSome

/-- The loss of AUX is known; SUP_AUX is reported unless it was before. -/
def State.auxKnown (s : State) (mask : BitVec 4) (lost : Bool) : State :=
  if lost then s.setEnergy { s.energy with auxStopped := mask, auxLost := true }
  else (s.setEnergy { s.energy with auxStopped := mask, auxLost := true }).report 0x15 0 0x40

/-- The mask with the sequences of a list added. -/
def addSeqs (mask : BitVec 4) (on : List Nat) : BitVec 4 := on.foldl (fun m q => m ||| BitVec.twoPow 4 q) mask

theorem State.auxCheck_eq (s : State) : s.auxCheck = if s.auxBlocked = true then
      (s.meas.onSeqs.foldl State.seqHalted s).auxKnown (addSeqs s.energy.auxStopped s.meas.onSeqs) s.energy.auxLost
    else s.setEnergy { s.energy with auxLost := false } := by
  delta State.auxCheck State.auxKnown addSeqs Meas.onSeqs State.seqHalted
  rfl

theorem State.Alike.setMeasOf (f : Meas → Meas) (h : s.Alike t) : (s.setMeas (f s.meas)).Alike (t.setMeas (f t.meas)) := by
  rw [h.meas]
  exact h.setMeas _

theorem State.Alike.seqHalted (q : Nat) (h : s.Alike t) : (s.seqHalted q).Alike (t.seqHalted q) := by
  have h1 : (if (s.meas.seq q).running then s.stopSeq q else s).Alike (if (t.meas.seq q).running then t.stopSeq q else t) := by
    rw [h.meas]
    exact .ite (h.stopSeq q) h
  exact h1.setMeasOf fun m => m.setSeq q { m.seq q with startFrom := none }

theorem State.Alike.auxKnown (mask : BitVec 4) (lost : Bool) (h : s.Alike t) : (s.auxKnown mask lost).Alike (t.auxKnown mask lost) := by
  obtain ⟨o, rfl⟩ := h
  exact .ite ⟨o, rfl⟩ ⟨o, rfl⟩

theorem State.Alike.auxCheck (h : s.Alike t) : s.auxCheck.Alike t.auxCheck := by
  have hb : t.auxBlocked = s.auxBlocked := by obtain ⟨o, rfl⟩ := h; rfl
  have he : t.energy = s.energy := by obtain ⟨o, rfl⟩ := h; rfl
  rw [s.auxCheck_eq, t.auxCheck_eq, hb, he, h.meas]
  refine .ite ((State.Alike.foldl (f := State.seqHalted) (fun q => State.Alike.seqHalted q) _ h).auxKnown _ _) ?_
  obtain ⟨o, rfl⟩ := h
  exact ⟨o, rfl⟩

theorem State.Alike.setRetired (sl : Nat) (r : Bool) (h : s.Alike t) : (s.setRetired sl r).Alike (t.setRetired sl r) := by
  obtain ⟨o, rfl⟩ := h
  exact ⟨o, rfl⟩

/-- A slice's job is done at its map (05 R117, R118). -/
def State.jobDone (s : State) (sl : Nat) (r : Bool) (m : SlotMap) (fs : List SlotMap) (ev : Nat) : State :=
  let s := (s.setRetired sl r).changeMap s.mgmt.inForce m fs
  (s.setMeas { s.meas with job := none }).emitSlice sl ev s.meas.round.count

theorem State.Alike.jobDone (sl : Nat) (r : Bool) (m : SlotMap) (fs : List SlotMap) (ev : Nat) (h : s.Alike t) :
    (s.jobDone sl r m fs ev).Alike (t.jobDone sl r m fs ev) := by
  have h1 : ((s.setRetired sl r).changeMap s.mgmt.inForce m fs).Alike ((t.setRetired sl r).changeMap t.mgmt.inForce m fs) := by
    rw [h.mgmt]
    exact (h.setRetired sl r).changeMap _ _ _
  exact (h1.setMeasOf fun m => { m with job := none }).emitSlice ..

theorem State.roundJob_retire (s : State) {sl f : Nat} {m : SlotMap} (h : s.meas.job = some (.retire sl m f)) : s.roundJob =
    if f ≤ s.now then (s.jobDone sl true m [] 4).measEvent 0x0205 0 stOk (leBytes 4 s.meas.round.count) else s := by
  unfold State.roundJob
  rw [h]
  rfl

theorem State.roundJob_qualified (s : State) {sl f : Nat} {m : SlotMap} {fs : List SlotMap} (h : s.meas.job = some (.qualified sl m fs f)) :
    s.roundJob = if f ≤ s.now then (s.jobDone sl false m fs 5).measEvent 0x0206 0 stOk (leBytes 4 s.meas.round.count) else s := by
  unfold State.roundJob
  rw [h]
  rfl

theorem State.roundJob_restore (s : State) {sl f : Nat} (h : s.meas.job = some (.restore sl f)) : s.roundJob =
    if f ≤ s.now then s.setMeas { s.meas with job := some (.qualify sl s.now) } else s := by
  unfold State.roundJob
  rw [h]

theorem State.roundJob_other (s : State) (h1 : ∀ sl m f, s.meas.job ≠ some (.retire sl m f)) (h2 : ∀ sl f, s.meas.job ≠ some (.restore sl f))
    (h3 : ∀ sl m fs f, s.meas.job ≠ some (.qualified sl m fs f)) : s.roundJob = s := by
  unfold State.roundJob
  split
  · next h => exact absurd h (h1 _ _ _)
  · next h => exact absurd h (h2 _ _)
  · next h => exact absurd h (h3 _ _ _ _)
  · rfl

theorem State.Alike.roundJob (h : s.Alike t) : s.roundJob.Alike t.roundJob := by
  have hm := h.meas
  cases hj : s.meas.job with
  | none => rw [s.roundJob_other, t.roundJob_other] <;> simp [hm, hj, h]
  | some j =>
    cases j with
    | retire sl m f =>
      rw [s.roundJob_retire hj, t.roundJob_retire (hm ▸ hj), h.now, hm]
      exact .ite ((h.jobDone ..).measEvent ..) h
    | restore sl f =>
      rw [s.roundJob_restore hj, t.roundJob_restore (hm ▸ hj), h.now, hm]
      exact .ite (h.setMeas _) h
    | qualified sl m fs f =>
      rw [s.roundJob_qualified hj, t.roundJob_qualified (hm ▸ hj), h.now, hm]
      exact .ite ((h.jobDone ..).measEvent ..) h
    | qualify sl f => rw [s.roundJob_other, t.roundJob_other] <;> simp [hm, hj, h]

/-- The stops that are due at a round start. -/
def State.stopsDue (s : State) : List Nat := (List.range 4).filter fun q => dueBy (s.meas.seq q).stopFrom s.now

/-- The due stops carried out (06 R136). -/
def State.seqsStopped (s : State) : State :=
  let t := (s.stopsDue.filter fun q => (s.meas.seq q).running).foldl State.stopSeq s
  s.stopsDue.foldl (fun s q => s.setMeas (s.meas.setSeq q { s.meas.seq q with stopFrom := none })) t

/-- The starts that are due at a round start. -/
def State.startsDue (s : State) : List Nat :=
  (List.range 4).filter fun q => dueBy (s.meas.seq q).startFrom s.now && 0 < s.mgmt.inForce.sqLen q

/-- The due starts carried out (06 R136); the primary's start counts the loop's updates from here. -/
def State.seqsStarted (s : State) : State :=
  let t := s.startsDue.foldl State.startSeq s
  if !(s.meas.seq s.mgmt.inForce.primary).running && (t.meas.seq t.mgmt.inForce.primary).running then
    t.setLoop { t.loop with uUpd := t.now }
  else t

theorem State.roundSeqs_eq (s : State) (n : Nat) : s.roundSeqs n =
    (s.seqsStopped.measEvent 0x0202 1 stOk (leBytes 4 (n - 1))).seqsStarted.measEvent 0x0201 2 stOk (leBytes 4 n) := by
  delta State.roundSeqs State.seqsStopped State.seqsStarted State.stopsDue State.startsDue
  rfl

theorem State.Alike.seqsStopped (h : s.Alike t) : s.seqsStopped.Alike t.seqsStopped := by
  have hd : t.stopsDue = s.stopsDue := by rw [State.stopsDue, h.meas, h.now]; rfl
  unfold State.seqsStopped
  dsimp only
  rw [hd, h.meas]
  exact .foldl (fun q hxy => hxy.setMeasOf fun m => m.setSeq q { m.seq q with stopFrom := none }) _
    (.foldl (f := State.stopSeq) (fun q => State.Alike.stopSeq q) _ h)

theorem State.Alike.startSeq (q : Nat) (h : s.Alike t) : (s.startSeq q).Alike (t.startSeq q) :=
  h.setMeasOf fun m => m.setSeq q { m.seq q with running := true, startFrom := none }

theorem State.Alike.seqsStarted (h : s.Alike t) : s.seqsStarted.Alike t.seqsStarted := by
  have hd : t.startsDue = s.startsDue := by rw [State.startsDue, h.meas, h.mgmt, h.now]; rfl
  have hf := State.Alike.foldl (f := State.startSeq) (fun q => State.Alike.startSeq q) s.startsDue h
  unfold State.seqsStarted
  dsimp only
  rw [hd, h.meas, h.mgmt, hf.meas, hf.mgmt, hf.loop, hf.now]
  exact .ite (hf.setLoop _) hf

theorem State.Alike.roundSeqs (n : Nat) (h : s.Alike t) : (s.roundSeqs n).Alike (t.roundSeqs n) := by
  rw [s.roundSeqs_eq, t.roundSeqs_eq]
  exact (h.seqsStopped.measEvent ..).seqsStarted.measEvent ..

/-- The map that a token brings, with the slices `gone` that have retired since it was compiled (05 R114, R117). -/
def State.mapTaken (s : State) (new : Alm) (m : SlotMap) (fs : List SlotMap) (gone : List Nat) : State :=
  match gone, fs with
  | [], _ => s.changeMap new m fs
  | [n], [_, _, _, _] => (s.changeMap new (fs.getD n m) []).emitSlice n 3 s.meas.round.count
  | n :: _, _ =>
    let t := s.changeMap new m []
    t.setMeas { t.meas with failCompile := some n }

/-- What a token brings: its fields, with or without a map. -/
def State.tokenTaken (s : State) (new : Alm) (map : Option (SlotMap × List SlotMap)) : State :=
  (map.map fun e => s.mapTaken new e.1 e.2 (e.1.slices.filter fun n => (s.meas.slice n).retired)).getD (s.changeFields new)

theorem State.takeMeasToken_none (h : s.mgmt.pendMeas = none) : s.takeMeasToken = s := by
  unfold State.takeMeasToken
  rw [h]

theorem State.takeMeasToken_some {t : ApplyTok} (h : s.mgmt.pendMeas = some t) : s.takeMeasToken = if s.now < t.posted + 3 then s else
    ((s.setMgmt { s.mgmt with pendMeas := none }).tokenTaken (s.mgmt.inForce.takeKind t.alm .meas) t.map).emitApply .meas 0
      ((s.setMgmt { s.mgmt with pendMeas := none }).tokenTaken (s.mgmt.inForce.takeKind t.alm .meas) t.map).meas.round.count := by
  unfold State.takeMeasToken
  rw [h]
  dsimp only
  cases t.map with
  | none => rfl
  | some e => rfl

theorem State.Alike.mapTaken (new : Alm) (m : SlotMap) (fs : List SlotMap) (gone : List Nat) (h : s.Alike t) :
    (s.mapTaken new m fs gone).Alike (t.mapTaken new m fs gone) := by
  unfold State.mapTaken
  split
  · exact h.changeMap ..
  · exact (h.changeMap ..).emitSlice ..
  · exact (h.changeMap ..).setMeasOf fun m => { m with failCompile := some _ }

theorem State.Alike.tokenTaken (new : Alm) (map : Option (SlotMap × List SlotMap)) (h : s.Alike t) :
    (s.tokenTaken new map).Alike (t.tokenTaken new map) := by
  cases map with
  | none => exact h.changeFields new
  | some e =>
    unfold State.tokenTaken
    rw [h.meas]
    exact h.mapTaken ..

theorem State.Alike.takeMeasToken (h : s.Alike t) : s.takeMeasToken.Alike t.takeMeasToken := by
  have hm := h.mgmt
  cases ht : s.mgmt.pendMeas with
  | none =>
    rw [State.takeMeasToken_none ht, State.takeMeasToken_none (hm ▸ ht)]
    exact h
  | some tok =>
    rw [State.takeMeasToken_some ht, State.takeMeasToken_some (hm ▸ ht), h.now, hm]
    have h1 : (s.setMgmt { s.mgmt with pendMeas := none }).Alike (t.setMgmt { s.mgmt with pendMeas := none }) := by
      obtain ⟨o, rfl⟩ := h
      exact ⟨o, rfl⟩
    exact .ite h ((h1.tokenTaken _ _).emit ..)

/-- The state of the next round start before its apply points. -/
def State.nextRound (s : State) : State :=
  let r := s.meas.round
  let v := { s with clock := { s.clock with tick := s.now + r.untilNext s.meas.map.len } }
  v.setMeas { v.meas with round := { r with count := r.nextCount }, seqs := v.meas.seqs.map (·.afterLaps 1) }

/-- A fallback map that is due takes the place of the map in force (05 R114). -/
def State.fallBack (v : State) : State :=
  match v.meas.fallbackDue with
  | some (sl, t) =>
    let fb := v.meas.fallback.getD sl v.meas.map
    if t + 2 ≤ v.now && fb.slices.all (fun n => !(v.meas.slice n).retired) then v.changeMap v.mgmt.inForce fb [] else v
  | none => v

theorem State.nextView_eq (s : State) : s.nextView =
    (s.nextRound.takeMeasToken.roundJob.takeFailMap.roundSeqs s.meas.round.nextCount).auxCheck.fallBack := by
  unfold State.nextView
  extract_lets r clock v0 meas v1 v
  change _ = v.fallBack
  clear_value v
  rfl

theorem State.Alike.fallBack (h : s.Alike t) : s.fallBack.Alike t.fallBack := by
  unfold State.fallBack
  rw [h.meas, h.now, h.mgmt]
  cases s.meas.fallbackDue with
  | none => exact h
  | some e => exact .ite (h.changeMap ..) h

theorem State.Alike.nextView (h : s.Alike t) : s.nextView.Alike t.nextView := by
  have h1 : s.nextRound.Alike t.nextRound := by
    obtain ⟨o, rfl⟩ := h
    exact ⟨o, rfl⟩
  rw [s.nextView_eq, t.nextView_eq, h.meas]
  exact ((h1.takeMeasToken.roundJob.takeFailMap).roundSeqs _).auxCheck.fallBack

/-! ## What the sequencer sees of the positions to come -/

/-- A state without observation. -/
def State.unseen (s : State) : State := s.setObs Obs.reset

theorem State.Alike.unseen (h : s.Alike t) : t.unseen = s.unseen := by
  obtain ⟨o, rfl⟩ := h
  rfl

/-- A position to come, without observation. -/
def unseenPos (e : State × Pos × Nat) : State × Pos × Nat := (e.1.unseen, e.2)

/-- The positions of the round or ring that is played. -/
def State.here (s : State) : List (State × Pos × Nat) :=
  ((s.meas.round.playing s.meas.map.len s.meas.map.w).map fun t =>
    s.meas.map.pos.filterMap fun p => (s.meas.round.ahead s.meas.map.len t p).map fun d => (s, p, d)).getD []

theorem State.coming_eq (s : State) : s.coming = if s.meas.round.nears s.meas.map.len s.meas.map.w then
    s.here ++ s.nextView.roundsAhead (s.meas.round.untilNext s.meas.map.len) else s.here := by
  unfold State.coming State.here
  dsimp only
  cases s.meas.round.playing s.meas.map.len s.meas.map.w <;> rfl

theorem State.Alike.here (h : s.Alike t) : t.here.map unseenPos = s.here.map unseenPos := by
  unfold State.here
  rw [h.meas]
  cases s.meas.round.playing s.meas.map.len s.meas.map.w with
  | none => rfl
  | some n =>
    simp only [Option.map_some, Option.getD_some, List.map_filterMap, Option.map_map]
    refine congrArg (List.filterMap · _) (funext fun p => congrArg (Option.map · _) (funext fun d => ?_))
    show (t.unseen, p, d) = (s.unseen, p, d)
    rw [h.unseen]

theorem State.Alike.roundsAhead (n : Nat) (h : s.Alike t) : (t.roundsAhead n).map unseenPos = (s.roundsAhead n).map unseenPos := by
  have hl (j : Nat) : (if j = 0 then t else t.laterView j).unseen = (if j = 0 then s else s.laterView j).unseen := by
    obtain ⟨o, rfl⟩ := h
    split <;> rfl
  unfold State.roundsAhead
  simp only [h.meas, List.map_flatMap, List.map_map]
  exact congrArg (List.flatMap · _) (funext fun j => congrArg (List.map · _) (funext fun p => Prod.ext (hl j) rfl))

theorem State.Alike.coming (h : s.Alike t) : t.coming.map unseenPos = s.coming.map unseenPos := by
  rw [s.coming_eq, t.coming_eq, h.meas]
  split
  · rw [List.map_append, List.map_append, h.here, h.nextView.roundsAhead]
  · exact h.here

/-- The sequencer's drive for the positions of a list. -/
def State.driveBy (s : State) (soon : List (State × Pos × Nat)) : State :=
  let us := s.excUses soon
  let dwell := (soon.filterMap dwellChan).eraseDups
  let t := s.setPins { s.pins with
    exc := excMask us, excDrive := excDrives us
    brk := (dwell.filter fun c => decide (c.2.1 < 0x18)).map (·.2) }
  if s.measUp then
    t.setMeas { s.meas with
      dwell := (dwell.map (·.1)).eraseDups, sxDrive := s.sxInput soon, slices := Vector.ofFn fun n => s.routeSlice soon n.val }
  else t

theorem State.driveExc_eq (s : State) : s.driveExc = s.driveBy (if s.measUp then s.coming else []) := rfl

/-- The nearer of two positions to come. -/
def nearer (b : Option (State × Pos × Nat)) (e : State × Pos × Nat) : Option (State × Pos × Nat) :=
  match b with
  | none => some e
  | some x => if e.2.2 < x.2.2 then some e else some x

theorem nextOn_eq (l : List (State × Pos × Nat)) (n : Nat) : nextOn l n = (l.filter fun e => e.2.1.sl == n).foldl nearer none := rfl

theorem nextOn_unseen (l : List (State × Pos × Nat)) (n : Nat) : nextOn (l.map unseenPos) n = (nextOn l n).map unseenPos := by
  have hf (l : List (State × Pos × Nat)) (b : Option (State × Pos × Nat)) : (l.map unseenPos).foldl nearer (b.map unseenPos) =
      (l.foldl nearer b).map unseenPos := by
    induction l generalizing b with
    | nil => rfl
    | cons e l ih =>
      have hstep : nearer (b.map unseenPos) (unseenPos e) = (nearer b e).map unseenPos := by
        cases b with
        | none => rfl
        | some x =>
          show (if e.2.2 < x.2.2 then some (unseenPos e) else some (unseenPos x)) = (if e.2.2 < x.2.2 then some e else some x).map unseenPos
          split <;> rfl
      rw [List.map_cons, List.foldl_cons, List.foldl_cons, hstep, ih]
  rw [nextOn_eq, nextOn_eq, List.filter_map]
  exact hf _ none

theorem State.driveBy_unseen (s : State) (l : List (State × Pos × Nat)) : s.driveBy (l.map unseenPos) = s.driveBy l := by
  have h1 : s.excUses (l.map unseenPos) = s.excUses l := by
    simp only [State.excUses, List.flatMap_map]
    rfl
  have h2 : (l.map unseenPos).filterMap dwellChan = l.filterMap dwellChan := by
    simp only [List.filterMap_map]
    rfl
  have h3 : s.sxInput (l.map unseenPos) = s.sxInput l := by
    unfold State.sxInput
    simp only [List.find?_map, Option.isNone_map, Option.any_map]
    rfl
  have h4 (n : Nat) : s.routeSlice (l.map unseenPos) n = s.routeSlice l n := by
    unfold State.routeSlice
    rw [nextOn_unseen]
    cases nextOn l n <;> rfl
  unfold State.driveBy
  rw [h1, h2, h3]
  simp only [h4]

theorem State.Alike.driveBy (l : List (State × Pos × Nat)) (h : s.Alike t) : (s.driveBy l).Alike (t.driveBy l) := by
  obtain ⟨o, rfl⟩ := h
  exact .ite ⟨o, rfl⟩ ⟨o, rfl⟩

theorem State.Alike.driveExc (h : s.Alike t) : s.driveExc.Alike t.driveExc := by
  have hu : t.measUp = s.measUp := by
    obtain ⟨o, rfl⟩ := h
    rfl
  rw [s.driveExc_eq, t.driveExc_eq, hu]
  cases s.measUp
  · exact h.driveBy _
  · rw [if_pos rfl, if_pos rfl, ← s.driveBy_unseen, ← t.driveBy_unseen, h.coming]
    exact h.driveBy _

end

end Sys2Proof.Machine
end



section
/-! PROOFS. The sequencer's drive, blanking and the alignment with fabric time (04 R72, R76, R88, R89, R92; 05 R98, R113, R118, R123;
10 R261). -/

namespace Sys2Proof.Machine

open Sys2Proof

set_option Elab.async false

section
variable {s : State}

/-! ## The drive -/

theorem State.driveExc_down (h : s.measUp = false) : s.driveExc = s.setPins { s.pins with exc := 0, excDrive := excDrives [], brk := [] } := by
  rw [s.driveExc_eq, h]
  unfold State.driveBy State.excUses
  rw [h]
  rfl

theorem State.driveExc_up (h : s.measUp = true) : s.driveExc = (s.setPins { s.pins with
      exc := excMask (s.excUses s.coming), excDrive := excDrives (s.excUses s.coming)
      brk := (((s.coming.filterMap dwellChan).eraseDups).filter fun c => decide (c.2.1 < 0x18)).map (·.2) }).setMeas { s.meas with
        dwell := (((s.coming.filterMap dwellChan).eraseDups).map (·.1)).eraseDups, sxDrive := s.sxInput s.coming
        slices := Vector.ofFn fun n => s.routeSlice s.coming n.val } := by
  rw [s.driveExc_eq, h]
  unfold State.driveBy
  rw [h]
  rfl

theorem excMask_getLsbD (us : List PinUse) (m : BitVec 4) {n : Nat} (h : n < 4) :
    (us.foldl (fun m u => m ||| BitVec.twoPow 4 u.pin) m).getLsbD n = (m.getLsbD n || us.any fun u => u.pin == n) := by
  induction us generalizing m with
  | nil => simp
  | cons u us ih =>
    rw [List.foldl_cons, ih, List.any_cons, BitVec.getLsbD_or, Bool.or_assoc]
    congr 1
    congr 1
    rw [BitVec.getLsbD_twoPow]
    by_cases hu : u.pin = n
    · simp [hu, h]
    · simp [hu]

/-- A pin that nothing uses delivers nothing (04 R76). -/
theorem excDrives_off (us : List PinUse) (n : Fin 4) (h : (excMask us).getLsbD n.val = false) : (excDrives us)[n] = .off := by
  rw [excMask, excMask_getLsbD us 0 n.isLt, Bool.or_eq_false_iff] at h
  have hnone : us.find? (fun u => u.pin == n.val) = none := by
    rw [List.find?_eq_none]
    intro u hu
    rw [List.any_eq_false] at h
    exact h.2 u hu
  show (excDrives us)[n.val] = .off
  simp only [excDrives, Vector.getElem_ofFn, hnone]

theorem Meas.slice_eq (m : Meas) (n : Fin 4) : m.slice n.val = m.slices[n] := by
  simp [Meas.slice]

theorem Slice.towards_frame (x : Slice) (n d : Nat) (new : Path) : x.towards n d new = { x with
    path := (x.towards n d new).path, disch := (x.towards n d new).disch } := rfl

/-- Of a slice the sequencer drives its path, its discharge and its supply. -/
theorem State.routeSlice_frame (s : State) (soon : List (State × Pos × Nat)) (n : Nat) : s.routeSlice soon n = { s.meas.slice n with
    path := (s.routeSlice soon n).path, disch := (s.routeSlice soon n).disch, power := (s.routeSlice soon n).power } := by
  have hq (x : Slice) (o : Nat) : x.inQual o = { x with path := (x.inQual o).path, disch := (x.inQual o).disch, power := (x.inQual o).power } := by
    unfold Slice.inQual
    dsimp only
    split <;> split <;> rfl
  have hr : s.routeRetired n = { s.meas.slice n with
      path := (s.routeRetired n).path, disch := (s.routeRetired n).disch, power := (s.routeRetired n).power } := by
    unfold State.routeRetired
    dsimp only
    split
    · split
      · exact hq _ _
      · rfl
    · split <;> rfl
    · rfl
  unfold State.routeSlice
  dsimp only
  split
  · exact hr
  · split
    · split
      · rfl
      · split <;> rfl
    · split <;> rfl

/-- In a freeze no position comes (04 R88). -/
theorem State.coming_frozen {p : Nat} (h : s.meas.round.freeze = .frozen p) : s.coming = [] := by
  have hp : s.meas.round.playing s.meas.map.len s.meas.map.w = none := by
    unfold Round.playing
    rw [h]
    split <;> rfl
  have hn : s.meas.round.nears s.meas.map.len s.meas.map.w = false := by
    unfold Round.nears
    rw [h]
    simp
  rw [s.coming_eq, hn, State.here, hp]
  rfl

/-- In a freeze the continuous channels' pins are active and no others, and no break check's source (04 R88). -/
theorem State.driveExc_frozen {p : Nat} (hu : s.measUp = true) (h : s.meas.round.freeze = .frozen p) :
    s.driveExc.pins.exc = excMask (s.mgmt.inForce.continuousUses s.meas.map.len) ∧ s.driveExc.pins.brk = [] ∧ s.driveExc.meas.dwell = [] := by
  have hc := State.coming_frozen h
  rw [State.driveExc_up hu, hc]
  refine ⟨?_, rfl, rfl⟩
  show excMask (s.excUses []) = _
  rw [State.excUses, hu, if_pos rfl, List.flatMap_nil, List.append_nil]

/-- The slice that a qualification wakes. -/
def SliceJob.woken : SliceJob → Option Nat
  | .qualify sl _ => some sl
  | .qualified sl _ _ _ => some sl
  | _ => none

/-- A slice out of service is open and asleep, but for a qualification (05 R113, R118). -/
theorem State.routeRetired_off {n : Nat} (h : ∀ j, s.meas.job = some j → j.woken ≠ some n) :
    s.routeRetired n = { s.meas.slice n with path := .opened, power := .asleep } := by
  unfold State.routeRetired
  dsimp only
  split
  · next sl t hj => exact if_neg fun e => h _ hj (congrArg some e)
  · next sl m fs f hj => exact if_neg fun e => h _ hj (congrArg some e)
  · rfl

/-- The calibration inputs of a qualification come 16 ticks apart after a cold wake of 20 (05 R118). -/
theorem State.routeRetired_qualify {n since j : Nat} (h : s.meas.job = some (.qualify n since)) (hj : j < 16)
    (hn : s.now = since + 20 + 16 * j) : (s.routeRetired n).path = .cal (j % 4) ∧ (s.routeRetired n).power = .awake := by
  have h1 : s.now - since = 20 + 16 * j := by omega
  have h2 : (20 + 16 * j - 20 + 15) / 16 = j := by omega
  have h3 : 20 + 16 * j - (20 + 16 * j) = 0 := by omega
  unfold State.routeRetired
  rw [h]
  dsimp only
  rw [if_pos rfl, h1, Slice.inQual]
  dsimp only
  rw [if_neg (show ¬ 20 + 16 * j < 20 by omega), h2, if_neg (show ¬ 16 ≤ j by omega), h3]
  exact ⟨rfl, rfl⟩

theorem State.routeRetired_qualified {n at_ : Nat} {m : SlotMap} {fs : List SlotMap} (h : s.meas.job = some (.qualified n m fs at_)) :
    s.routeRetired n = { s.meas.slice n with path := .opened, power := .buffer } := by
  unfold State.routeRetired
  rw [h]
  exact if_pos rfl

theorem State.routeSlice_out {n : Nat} (soon : List (State × Pos × Nat))
    (h : (s.meas.slice n).retired = true ∨ ∃ k, (s.meas.slice n).fence = some k ∧ k ≤ s.now) : s.routeSlice soon n = s.routeRetired n := by
  have hc : ((s.meas.slice n).retired || (s.meas.slice n).fencedAt s.now) = true := by
    rcases h with h | ⟨k, hk, hn⟩
    · rw [h, Bool.true_or]
    · have hf : (s.meas.slice n).fencedAt s.now = true := by
        rw [Slice.fencedAt, hk]
        exact decide_eq_true hn
      rw [hf, Bool.or_true]
  exact if_pos hc

theorem State.driveExc_slice (hu : s.measUp = true) (n : Fin 4) : s.driveExc.meas.slices[n] = s.routeSlice s.coming n.val := by
  rw [State.driveExc_up hu]
  exact Vector.getElem_ofFn ..

theorem State.driveExc_frame (s : State) :
    s.driveExc.pins = { s.pins with exc := s.driveExc.pins.exc, excDrive := s.driveExc.pins.excDrive, brk := s.driveExc.pins.brk } ∧
    s.driveExc.meas = { s.meas with dwell := s.driveExc.meas.dwell, sxDrive := s.driveExc.meas.sxDrive, slices := s.driveExc.meas.slices } := by
  cases hu : s.measUp
  · rw [State.driveExc_down hu]
    exact ⟨rfl, rfl⟩
  · rw [State.driveExc_up hu]
    exact ⟨rfl, rfl⟩

theorem State.driveExc_slice_frame (s : State) (n : Fin 4) : s.driveExc.meas.slices[n] = { s.meas.slices[n] with
    path := s.driveExc.meas.slices[n].path, disch := s.driveExc.meas.slices[n].disch, power := s.driveExc.meas.slices[n].power } := by
  cases hu : s.measUp
  · rw [State.driveExc_down hu]
    rfl
  · rw [State.driveExc_slice hu, ← Meas.slice_eq]
    exact s.routeSlice_frame _ _

theorem State.driveExc_off (s : State) (n : Fin 4) (h : s.driveExc.pins.exc.getLsbD n.val = false) : s.driveExc.pins.excDrive[n] = .off := by
  cases hu : s.measUp
  · rw [State.driveExc_down hu]
    exact excDrives_off [] n (BitVec.getLsbD_zero ..)
  · rw [State.driveExc_up hu] at h ⊢
    exact excDrives_off _ n h

/-! ## The alignment -/

/-- e of R261 is the only distance of its residue in its range. -/
theorem alignErr_unique {c phase t : Nat} {e : Int} (h1 : 2 * e ≤ t) (h2 : 0 < 2 * e + t) (h : (((c : Int) + 1) - phase - e) % t = 0) :
    alignErr c phase t = e := by
  have hc : (((c + 1 : Nat) : Int) - phase) % t = e % t := by
    rw [Nat.cast_add, Nat.cast_one]
    exact (Int.emod_eq_emod_iff_emod_sub_eq_zero).2 h
  have hs : alignErr c phase t = if (t : Int) < 2 * (e % t) then e % t - t else e % t := by
    unfold alignErr
    rw [hc]
  rw [hs]
  by_cases h0 : 0 ≤ e
  · rw [Int.emod_eq_of_lt h0 (by omega), if_neg (by omega)]
  · have hm : e % t = e + t := by
      rw [← Int.add_emod_right, Int.emod_eq_of_lt (by omega) (by omega)]
    rw [hm, if_pos (by omega)]
    omega

/-- The hold of R261 leaves room for the preamble and ends where the count is right. -/
theorem alignHold_spec {c phase t w : Nat} (ht : 0 < t) (hw : w ≤ t) : w ≤ alignHold c phase t w ∧ alignHold c phase t w < w + t ∧
    (((c : Int) + 1) + alignHold c phase t w - phase) % t = 0 := by
  have h0 : 0 ≤ ((phase : Int) - c - 1) % t := Int.emod_nonneg _ (by omega)
  have hl : ((phase : Int) - c - 1) % t < t := Int.emod_lt_of_pos _ (by omega)
  have hd : (((phase : Int) - c - 1) - ((phase : Int) - c - 1) % t) % t = 0 := by
    rw [Int.sub_emod, Int.emod_emod, Int.sub_self, Int.zero_emod]
  unfold alignHold
  dsimp only
  generalize ((phase : Int) - c - 1) % t = r at *
  obtain ⟨k, hk⟩ := Int.dvd_of_emod_eq_zero hd
  split
  · refine ⟨by omega, by omega, Int.emod_eq_zero_of_dvd ⟨1 - k, ?_⟩⟩
    rw [Int.mul_sub, ← hk]
    push_cast [Int.toNat_of_nonneg h0]
    ring
  · refine ⟨by omega, by omega, Int.emod_eq_zero_of_dvd ⟨- k, ?_⟩⟩
    rw [Int.mul_neg, ← hk, Int.toNat_of_nonneg h0]
    ring

/-- The round after an alignment by `e`. -/
def State.aligned (s : State) (e : Int) : State :=
  let a := s.mgmt.inForce
  let hold := alignHold s.clock.meridian.toNat a.fabAlignPhase s.meas.map.len s.meas.map.w
  s.setMeas { s.meas with round := s.meas.round.align e hold s.now }

theorem natAbs_far {e : Int} (h : 2 ≤ e.natAbs) : e ≠ 0 ∧ e ≠ 1 ∧ e ≠ -1 := by omega

theorem State.aligned_meas {e : Int} (h0 : e ≠ 0) (h1 : e ≠ 1) (h2 : e ≠ -1) : (s.aligned e).meas = { s.meas with
    round := { s.meas.round with
      idle := alignHold s.clock.meridian.toNat s.mgmt.inForce.fabAlignPhase s.meas.map.len s.meas.map.w, held := true
      freezes := (s.now + 1) :: s.meas.round.freezes } } := by
  unfold State.aligned Round.align
  dsimp only
  rw [if_neg h0, if_neg h1, if_neg h2]
  rfl

theorem exec_roundAlignment (hu : s.measUp = true) (hp : s.meas.round.passing = true) (hl : s.meas.round.pos + 1 = s.meas.map.len)
    (hi : s.meas.round.idle = 0) (ha : s.mgmt.inForce.fabAlign = true) (hk : s.fab.locked = true) {e : Int}
    (he : alignErr s.clock.meridian.toNat s.mgmt.inForce.fabAlignPhase s.meas.map.len = e) : exec .roundAlignment s = .next
      (if 2 ≤ e.natAbs then ((s.aligned e).count .roundResync).emitSeq 0 6 else s.aligned e) := by
  subst he
  have hg : (s.measUp && s.meas.round.passing && s.meas.round.pos + 1 == s.meas.map.len && s.meas.round.idle == 0 &&
      s.mgmt.inForce.fabAlign && s.fab.locked) = true := by
    rw [hu, hp, hi, ha, hk, beq_iff_eq.2 hl]; rfl
  exact stepIf_of hg

/-! ## Blanking -/

/-- The freeze after the blanking's end: the preamble of W ticks (04 R89). -/
def State.thawed (s : State) : Freeze := match s.meas.round.freeze with
  | .frozen p => .preamble p s.meas.map.w
  | f => f

theorem State.thawed_of (h : ∀ p, s.meas.round.freeze ≠ .frozen p) : s.thawed = s.meas.round.freeze := by
  unfold State.thawed
  split
  · next p hp => exact absurd hp (h p)
  · rfl

theorem State.resume_of (h : ∀ p, s.meas.round.freeze ≠ .frozen p) : s.resume = s := by
  unfold State.resume
  split
  · next p hp => exact absurd hp (h p)
  · rfl

theorem State.resume_eq (s : State) : ∃ o, s.resume = (s.setMeas { s.meas with round := { s.meas.round with freeze := s.thawed } }).setObs o ∧
    s.OnlyTrace (s.setObs o) := by
  by_cases hf : ∃ p, s.meas.round.freeze = .frozen p
  · obtain ⟨p, hp⟩ := hf
    obtain ⟨o, ho, htr⟩ := (s.setMeas { s.meas with round := { s.meas.round with freeze := .preamble p s.meas.map.w } }).emit_eq .meas 0xD 20 []
    refine ⟨o, ?_, htr⟩
    unfold State.resume State.thawed
    rw [hp]
    exact ho
  · have hn : ∀ p, s.meas.round.freeze ≠ .frozen p := fun p hp => hf ⟨p, hp⟩
    rw [State.resume_of hn, State.thawed_of hn]
    exact ⟨s.obs, rfl, .refl _ s⟩

theorem State.driveExc_only (s : State) : s.Only [.pins, .meas] s.driveExc := by
  cases hu : s.measUp
  · rw [State.driveExc_down hu]
    exact ⟨rfl, fun q hq => by cases q <;> first | exact absurd (by decide) hq | rfl⟩
  · rw [State.driveExc_up hu]
    exact ⟨rfl, fun q hq => by cases q <;> first | exact absurd (by decide) hq | rfl⟩

/-- The drive does not see observation. -/
theorem State.driveExc_setObs (s : State) (o : Obs) : (s.setObs o).driveExc = s.driveExc.setObs o := by
  obtain ⟨o', ho⟩ := (s.setObs_alike o).driveExc
  have h1 : (s.setObs o).driveExc.obs = o := (s.setObs o).driveExc_only.2 .obs (by decide)
  rw [ho] at h1 ⊢
  exact congrArg s.driveExc.setObs h1

theorem State.CountersBut.of_obs {cs : List Ctr} {t u : State} (h : t.CountersBut cs u) (ho : t.obs = s.obs) : s.CountersBut cs u := by
  unfold State.CountersBut at h ⊢
  rw [ho] at h
  exact h

theorem State.report_faults_congr {t : State} (hf : t.faults = s.faults) (hc : t.clock = s.clock) (det cause : Nat) (isl : Byte) :
    (t.report det cause isl).faults = (s.report det cause isl).faults := by
  have hn : t.now = s.now := congrArg Clock.tick hc
  unfold State.report
  rw [hf, hc, hn]
  rfl

/-- A new round and what the sequencer then drives. -/
theorem State.round_driven_only (s : State) (r : Round) (o : Obs) :
    s.Only [.meas, .pins, .obs] ((s.setMeas { s.meas with round := r }).driveExc.setObs o) :=
  (((s.setMeas_only _).mono (by simp)).trans ((State.driveExc_only _).mono (by simp))).trans ((State.setObs_only _ o).mono (by simp))

theorem exec_blankFreeze (hu : s.measUp = true) (ho : s.meas.round.on = true) (hb : s.blanked = true) (hk : s.mgmt.inForce.blankSkip = false)
    (hf : ∀ p, s.meas.round.freeze ≠ .frozen p) : exec .blankFreeze s = .next
      (((s.setMeas { s.meas with round := { s.meas.round with
        freeze := .frozen (if s.meas.round.due then 0 else s.meas.round.at), freezes := s.now :: s.meas.round.freezes } }).driveExc.count
        .blankDeferrals).emitSeq 0 4) := by
  show execBlankFreeze s = _
  unfold execBlankFreeze
  refine stepIf_of ?_
  rw [hu, ho, hb, hk]
  cases hz : s.meas.round.freeze with
  | frozen p => exact absurd hz (hf p)
  | run => rfl
  | preamble p l => rfl

theorem exec_blankResume (hu : s.measUp = true) (hl : s.pins.blank.level = false) : exec .blankResume s = .next s.resume.driveExc :=
  stepIf_of (by rw [hu, hl]; rfl)

theorem exec_blankStuck (hu : s.measUp = true) (hb : s.blanked = true) (hc : s.mgmt.inForce.blankCap ≤ s.meas.round.blankTicks) :
    exec .blankStuck s = .next
      ((s.setMeas { s.meas with round := { s.meas.round with blankIgnored := true } }).resume.driveExc.report 0x22 0 0x30) :=
  stepIf_of (by rw [hu, hb, decide_eq_true hc]; rfl)

/-- What a step of the blanking leaves: a new round, what the sequencer then drives, and parts of its own (04 R88, R89, R92). -/
def State.Replays (s : State) (ps : List Part) (r : Round) (t : State) : Prop :=
  s.Only ([.meas, .pins, .obs] ++ ps) t ∧ t.meas = (s.setMeas { s.meas with round := r }).driveExc.meas ∧
    t.pins = (s.setMeas { s.meas with round := r }).driveExc.pins

theorem State.Replays.of_driven (r : Round) (o : Obs) :
    s.Replays [] r ((s.setMeas { s.meas with round := r }).driveExc.setObs o) := ⟨s.round_driven_only r o, rfl, rfl⟩

theorem blankFreeze_spec (hu : s.measUp = true) (hon : s.meas.round.on = true) (hb : s.blanked = true)
    (hk : s.mgmt.inForce.blankSkip = false) (hf : ∀ p, s.meas.round.freeze ≠ .frozen p) :
    ∃ t, exec .blankFreeze s = .next t ∧ s.CountersBut [.blankDeferrals, .trcDrop] t ∧
      s.Replays [] { s.meas.round with
        freeze := .frozen (if s.meas.round.due then 0 else s.meas.round.at), freezes := s.now :: s.meas.round.freezes } t ∧
      t.pins.exc = excMask (s.mgmt.inForce.continuousUses s.meas.map.len) ∧
      t.obs.live.getD 3 0 = min (s.obs.live.getD 3 0 + 1) 0xFFFFFFFF := by
  have hex := exec_blankFreeze hu hon hb hk hf
  generalize hr : ({ s.meas.round with
    freeze := .frozen (if s.meas.round.due then 0 else s.meas.round.at), freezes := s.now :: s.meas.round.freezes } : Round) = r at hex ⊢
  have hfz : r.freeze = .frozen (if s.meas.round.due then 0 else s.meas.round.at) := hr ▸ rfl
  have hpin := (State.driveExc_frozen (s := s.setMeas { s.meas with round := r }) hu hfz).1
  have hobs : (s.setMeas { s.meas with round := r }).driveExc.obs = s.obs := (State.driveExc_only _).2 .obs (by decide)
  have hre : ∀ o, s.Replays [] r ((s.setMeas { s.meas with round := r }).driveExc.setObs o) := .of_driven r
  generalize (s.setMeas { s.meas with round := r }).driveExc = u at hex hpin hobs hre
  obtain ⟨o, ho, htr⟩ := (u.count .blankDeferrals).emit_eq .meas 0xD 16 []
  have he : (u.count .blankDeferrals).emitSeq 0 4 = u.setObs o := ho
  have hlive : o.live.getD 3 0 = min (u.obs.live.getD 3 0 + 1) 0xFFFFFFFF :=
    (htr.2 .blankDeferrals (by decide)).trans (Obs.count_self ..)
  rw [he] at hex
  exact ⟨_, hex, (((u.countN_counters .blankDeferrals 1).mono (by simp)).trans (htr.mono (by simp))).of_obs hobs, hre o, hpin,
    by rw [← hobs]; exact hlive⟩

theorem blankResume_spec (hu : s.measUp = true) (hl : s.pins.blank.level = false) :
    ∃ t, exec .blankResume s = .next t ∧ s.OnlyTrace t ∧ s.Replays [] { s.meas.round with freeze := s.thawed } t := by
  obtain ⟨o, ho, htr⟩ := s.resume_eq
  have hex := exec_blankResume hu hl
  rw [ho, State.driveExc_setObs] at hex
  exact ⟨_, hex, htr, .of_driven _ o⟩

theorem State.replays_reported (r : Round) (o : Obs) :
    s.Replays [.faults] r (((s.setMeas { s.meas with round := r }).driveExc.setObs o).report 0x22 0 0x30) ∧
    (((s.setMeas { s.meas with round := r }).driveExc.setObs o).report 0x22 0 0x30).faults = (s.report 0x22 0 0x30).faults := by
  obtain ⟨h1, h2, h3⟩ := State.Replays.of_driven (s := s) r o
  have hf : (s.setMeas { s.meas with round := r }).driveExc.faults = s.faults := (State.driveExc_only _).2 .faults (by decide)
  have hc : (s.setMeas { s.meas with round := r }).driveExc.clock = s.clock := (State.driveExc_only _).2 .clock (by decide)
  unfold State.Replays
  generalize (s.setMeas { s.meas with round := r }).driveExc = u at h1 h2 h3 hf hc ⊢
  exact ⟨⟨(h1.mono (by simp)).trans ((State.report_only _ _ _ _).mono (by simp)), h2, h3⟩, State.report_faults_congr hf hc _ _ _⟩

theorem blankStuck_spec (hu : s.measUp = true) (hb : s.blanked = true) (hc : s.mgmt.inForce.blankCap ≤ s.meas.round.blankTicks) :
    ∃ t, exec .blankStuck s = .next t ∧ s.OnlyTrace t ∧
      s.Replays [.faults] { s.meas.round with freeze := s.thawed, blankIgnored := true } t ∧ t.faults = (s.report 0x22 0 0x30).faults := by
  obtain ⟨o, ho, htr⟩ := (s.setMeas { s.meas with round := { s.meas.round with blankIgnored := true } }).resume_eq
  have hex := exec_blankStuck hu hb hc
  rw [ho, State.driveExc_setObs] at hex
  obtain ⟨h1, h2⟩ := s.replays_reported { s.meas.round with freeze := s.thawed, blankIgnored := true } o
  have htr' : s.OnlyTrace (s.setObs o) := htr
  exact ⟨_, hex, htr', h1, h2⟩

theorem roundAlignment_far (hu : s.measUp = true) (hp : s.meas.round.passing = true) (hl : s.meas.round.pos + 1 = s.meas.map.len)
    (hi : s.meas.round.idle = 0) (ha : s.mgmt.inForce.fabAlign = true) (hk : s.fab.locked = true) (hw : s.meas.map.w ≤ s.meas.map.len)
    {e : Int} (he : alignErr s.clock.meridian.toNat s.mgmt.inForce.fabAlignPhase s.meas.map.len = e) (hfar : 2 ≤ e.natAbs) :
    ∃ t hold, exec .roundAlignment s = .next t ∧ s.Only [.meas, .obs] t ∧ s.CountersBut [.roundResync, .trcDrop] t ∧
      t.meas = { s.meas with round := { s.meas.round with
        idle := hold, held := true, freezes := (s.now + 1) :: s.meas.round.freezes } } ∧
      s.meas.map.w ≤ hold ∧ hold < s.meas.map.w + s.meas.map.len ∧
      (((s.clock.meridian.toNat : Int) + 1) + hold - s.mgmt.inForce.fabAlignPhase) % s.meas.map.len = 0 := by
  have hex := exec_roundAlignment hu hp hl hi ha hk he
  have hlen : 0 < s.meas.map.len := hl ▸ Nat.succ_pos _
  obtain ⟨hz, hp1, hm1⟩ := natAbs_far hfar
  have hm := State.aligned_meas (s := s) hz hp1 hm1
  have hobs : (s.aligned e).obs = s.obs := rfl
  have honly : s.Only [.meas] (s.aligned e) := s.setMeas_only _
  rw [if_pos hfar] at hex
  generalize s.aligned e = u at hex hm hobs honly
  obtain ⟨o, ho, htr⟩ := (u.count .roundResync).emit_eq .meas 0xD 24 []
  have he : (u.count .roundResync).emitSeq 0 6 = u.setObs o := ho
  have hcnt : u.CountersBut [.roundResync, .trcDrop] (u.setObs o) :=
    ((u.countN_counters .roundResync 1).mono (by simp)).trans (htr.mono (by simp))
  rw [he] at hex
  exact ⟨_, _, hex, (honly.mono (by simp)).trans ((State.setObs_only _ o).mono (by simp)), hcnt.of_obs hobs, hm,
    alignHold_spec hlen hw⟩

/-- A slice out of service is driven for its qualification alone (05 R98, R113, R118). -/
theorem State.driveExc_retired (hu : s.measUp = true) (n : Fin 4)
    (h : s.meas.slices[n].retired = true ∨ ∃ k, s.meas.slices[n].fence = some k ∧ k ≤ s.now) :
    s.driveExc.meas.slices[n] = s.routeRetired n.val := by
  rw [State.driveExc_slice hu n]
  exact State.routeSlice_out _ (by rw [Meas.slice_eq]; exact h)

end

/-- Settles O37: the drive by what comes, blanking by the freeze that it leaves, the alignment by its distance. -/
theorem blankingAndAlignmentMoveTheRound : Obligations.BlankingAndAlignmentMoveTheRound := by
  refine ⟨fun u => ?_, fun s hu => ?_, fun s e hu hp hl hi ha hk hw => ?_⟩
  · intro t
    refine ⟨u.driveExc_only, u.driveExc_frame.1, u.driveExc_frame.2, u.driveExc_slice_frame, u.driveExc_off, fun hd => ?_, fun hup hf => ?_,
      fun hup n hout => ?_⟩
    · have ht : t = _ := State.driveExc_down hd
      rw [ht]
      exact ⟨rfl, rfl, rfl⟩
    · obtain ⟨p, hp⟩ := hf
      obtain ⟨h1, h2, h3⟩ := State.driveExc_frozen hup hp
      exact ⟨h2, h3, h1⟩
    · rw [State.driveExc_retired hup n hout, ← Meas.slice_eq]
      refine ⟨fun hj => State.routeRetired_off fun j h => ?_, fun since j h hj hn => State.routeRetired_qualify h hj hn,
        fun m fs at_ h => State.routeRetired_qualified h⟩
      rw [h] at hj
      cases j with
      | qualify sl t => exact fun e => hj (Option.some.inj e)
      | qualified sl m fs f => exact fun e => hj (Option.some.inj e)
      | retire sl m f => exact nofun
      | restore sl f => exact nofun
  · intro r ends gives
    have hends : ends r.freeze = s.thawed := by
      simp only [State.thawed, ends, r] <;> cases s.meas.round.freeze <;> rfl
    rw [hends]
    exact ⟨blankFreeze_spec hu, blankResume_spec hu, blankStuck_spec hu⟩
  · intro len next h1 h2 h3 ends
    have herr : alignErr s.clock.meridian.toNat s.mgmt.inForce.fabAlignPhase s.meas.map.len = e := alignErr_unique h1 h2 h3
    have hex := exec_roundAlignment hu hp hl hi ha hk herr
    refine ⟨fun h => ?_, fun h => ?_, fun h => ?_, fun h => roundAlignment_far hu hp hl hi ha hk hw herr (by omega)⟩
    · rw [h] at hex
      exact hex
    · rw [h] at hex
      exact hex
    · rw [h] at hex
      exact hex

end Sys2Proof.Machine
end



section
/-! PROOFS. Triggers and their windows (06 R144 to R146; 10 R260). -/

namespace Sys2Proof.Machine

open Sys2Proof

set_option Elab.async false

section
variable {s : State}

/-! ## A trigger -/

/-- A sequence after a trigger at `now` that selects the window `w`; a further one of the same boundary is the same one (06 R144). -/
def Seq.hit (x : Seq) (now : Nat) (w : Option Nat) : Seq :=
  if x.trigAt.map (·.1) = some now then x else { (x.trigger w).1 with trigAt := some (now, (x.trigger w).2) }

/-- The window that a trigger of a sequence selects now. -/
def State.windowNow (s : State) (q : Nat) : Option Nat := s.meas.map.selectWindow s.mgmt.inForce q s.meas.round.at

theorem Meas.setSeq_self (m : Meas) (q : Nat) : m.setSeq q (m.seq q) = m := by
  have h : m.seqs.setIfInBounds q (m.seq q) = m.seqs := by
    refine Vector.ext fun i hi => ?_
    rw [Vector.getElem_setIfInBounds]
    split
    · next he => subst he; simp [Meas.seq, hi]
    · rfl
  rw [Meas.setSeq, h]

theorem State.trigger_eq (s : State) (q : Nat) : ∃ o, (s.trigger q).1 =
    (s.setMeas (s.meas.setSeq q ((s.meas.seq q).hit s.now (s.windowNow q)))).setObs o ∧
    s.CountersBut [.trigLost, .trcDrop] (s.setObs o) := by
  by_cases hn : (s.meas.seq q).trigAt.map (·.1) = some s.now
  · have ht : (s.trigger q).1 = s := by
      unfold State.trigger
      cases ha : (s.meas.seq q).trigAt with
      | none => rw [ha] at hn; exact absurd hn (by simp)
      | some e =>
        rw [ha] at hn
        simp only [ha]
        rw [if_pos (Option.some.inj hn)]
    rw [ht, Seq.hit, if_pos hn, Meas.setSeq_self]
    exact ⟨s.obs, rfl, .refl _ s⟩
  · rw [Seq.hit, if_neg hn]
    let e := (s.meas.seq q).trigger (s.windowNow q)
    let u := s.setMeas (s.meas.setSeq q { e.1 with trigAt := some (s.now, e.2) })
    have ht : (s.trigger q).1 = if e.2 = 2 then (u.count .trigLost).emitSeq q 3 else u.emitSeq q (e.2 + 1) := by
      have he : (s.meas.seq q).trigger (s.meas.map.selectWindow s.mgmt.inForce q s.meas.round.at) = e := rfl
      unfold State.trigger
      simp only [he]
      cases ha : (s.meas.seq q).trigAt with
      | none =>
        dsimp only
        split <;> rfl
      | some t =>
        have hne : t.1 ≠ s.now := fun h => hn (by rw [ha]; exact congrArg some h)
        dsimp only
        rw [if_neg hne]
        split <;> rfl
    rw [ht]
    split
    · obtain ⟨o, ho, htr⟩ := (u.count .trigLost).emit_eq .meas 0xD (q + 4 * 3) []
      exact ⟨o, ho, ((u.countN_counters .trigLost 1).mono (by simp)).trans (htr.mono (by simp))⟩
    · obtain ⟨o, ho, htr⟩ := u.emit_eq .meas 0xD (q + 4 * (e.2 + 1)) []
      exact ⟨o, ho, htr.mono (by simp)⟩

/-- Triggers of several sequences at one boundary. -/
def State.triggers (s : State) (qs : List Nat) : State := qs.foldl (fun s q => (s.trigger q).1) s

/-- Each is triggered by itself, and the others stay. -/
theorem State.triggers_eq (qs : List Nat) (hnd : qs.Nodup) (hq : ∀ q ∈ qs, q < 4) (s : State) : ∃ m o, s.triggers qs = (s.setMeas m).setObs o ∧
    s.CountersBut [.trigLost, .trcDrop] (s.setObs o) ∧ m = { s.meas with seqs := m.seqs } ∧
    ∀ n, m.seq n = if n ∈ qs then (s.meas.seq n).hit s.now (s.windowNow n) else s.meas.seq n := by
  induction qs generalizing s with
  | nil => exact ⟨s.meas, s.obs, rfl, .refl _ s, rfl, fun n => rfl⟩
  | cons q qs ih =>
    obtain ⟨hmem, hnd'⟩ := List.nodup_cons.1 hnd
    obtain ⟨o1, h1, c1⟩ := s.trigger_eq q
    obtain ⟨m, o, he, c2, hm, hseq⟩ := ih hnd' (fun x hx => hq x (List.mem_cons_of_mem _ hx)) (s.trigger q).1
    rw [h1] at he c2 hm hseq
    refine ⟨m, o, ?_, c1.trans c2, hm, fun n => (hseq n).trans ?_⟩
    · exact (congrArg (State.triggers · qs) h1).trans he
    · have hn := s.meas.setSeq_seq (n := n) ((s.meas.seq q).hit s.now (s.windowNow q)) (hq q List.mem_cons_self)
      by_cases h : n = q
      · subst h
        rw [if_neg hmem, if_pos List.mem_cons_self]
        exact hn.trans (if_pos rfl)
      · rw [if_neg h] at hn
        have hw : (((s.setMeas (s.meas.setSeq q ((s.meas.seq q).hit s.now (s.windowNow q)))).setObs o1).meas.seq n) = s.meas.seq n := hn
        rw [hw]
        exact if_congr (List.mem_cons.trans (or_iff_right h)).symm rfl rfl

/-- The triggered sequences in use whose SQ_TRIG is a source (06 R144). -/
def State.named (s : State) (source : Nat) : List Nat :=
  (List.range 4).filter fun q => s.mgmt.inForce.sqTriggered q && decide (0 < s.mgmt.inForce.sqLen q) && s.mgmt.inForce.sqTrig q == source

theorem State.mem_named {source q : Nat} : q ∈ s.named source ↔ q < 4 ∧ (s.mgmt.inForce.sqTriggered q &&
    decide (0 < s.mgmt.inForce.sqLen q) && s.mgmt.inForce.sqTrig q == source) = true :=
  List.mem_filter.trans (and_congr_left fun _ => List.mem_range)

theorem Meas.seq_fin (m : Meas) (q : Fin 4) : m.seq q.val = m.seqs[q] := by simp [Meas.seq]

/-- A pin's accepted edge used up. -/
def Pins.used (p : Pins) (pin : Fin 3) : Pins :=
  if pin = 0 then { p with trig0 := { p.trig0 with edge := false } }
  else if pin = 1 then { p with trig1 := { p.trig1 with edge := false } }
  else { p with trig2 := { p.trig2 with edge := false } }

theorem Pins.used_spec (p : Pins) (pin : Fin 3) : ((p.used pin).trig pin).edge = false ∧
    p.used pin = { p with trig0 := (p.used pin).trig0, trig1 := (p.used pin).trig1, trig2 := (p.used pin).trig2 } ∧
    ∀ n, n ≠ pin → (p.used pin).trig n = p.trig n := by
  fin_cases pin
  · exact ⟨rfl, rfl, fun n hn => by fin_cases n <;> first | exact absurd rfl hn | rfl⟩
  · exact ⟨rfl, rfl, fun n hn => by fin_cases n <;> first | exact absurd rfl hn | rfl⟩
  · exact ⟨rfl, rfl, fun n hn => by fin_cases n <;> first | exact absurd rfl hn | rfl⟩

theorem exec_gpioTrigger (pin : Fin 3) (hu : s.measUp = true) (he : (s.pins.trig pin).edge = true) : exec (.gpioTrigger pin) s =
    .next ((s.setPins (s.pins.used pin)).triggers (s.named (pin.val + 2))) :=
  stepIf_of (by rw [hu, he]; rfl)

theorem exec_timeEventFire {v : Count48} (hv : s.fab.event = some v) (hl : s.loopUp = true) (hu : s.measUp = true)
    (hc : v.toNat ≤ s.clock.meridian.toNat) : exec .timeEventFire s =
    .next ((s.setFab { s.fab with event := none }).triggers (s.named 1)) := by
  show execTimeEventFire s = _
  unfold execTimeEventFire
  rw [hv]
  refine (stepIf_of ?_).trans (congrArg Host.Outcome.next (if_pos hu))
  rw [hl, decide_eq_true hc]
  rfl

/-! ## Windows -/

theorem SlotMap.commitPos_of {m : SlotMap} {a : Alm} {q k p : Nat} {c : Int} (h : m.commitAt a q k = some c) (hc : c % m.len = p) :
    m.commitPos a q k = some p ∧ m.commitLaps a q k = (-(c / m.len)).toNat := by
  unfold SlotMap.commitPos SlotMap.commitLaps
  rw [h]
  exact ⟨congrArg some (congrArg Int.toNat hc), rfl⟩

theorem exec_triggerWindowStart {q : Fin 4} {k : Nat} {c : Int} (hu : s.measUp = true) (hx : (s.meas.seq q.val).trig = .armed k)
    (hp : s.meas.round.passing = true) (hd : s.meas.round.due = false) (h : s.meas.map.commitAt s.mgmt.inForce q.val k = some c)
    (hc : c % s.meas.map.len = s.meas.round.pos) : exec (.triggerWindowStart q) s =
    .next (s.setMeas (s.meas.setSeq q.val { s.meas.seq q.val with
      trig := .running k, laps := (-(c / s.meas.map.len)).toNat, ended := false })).driveExc := by
  obtain ⟨h1, h2⟩ := SlotMap.commitPos_of h hc
  show execTriggerWindowStart q s = _
  unfold execTriggerWindowStart
  simp only [hx, h2]
  refine stepIf_of ?_
  rw [hu, hp, hd, h1]
  exact beq_self_eq_true _

theorem exec_triggerWindowEnd_running {q : Fin 4} {k : Nat} (hu : s.measUp = true) (hx : (s.meas.seq q.val).trig = .running k)
    (he : (s.meas.seq q.val).ended = true) : exec (.triggerWindowEnd q) s =
    .next (s.setMeas (s.meas.setSeq q.val { s.meas.seq q.val with trig := .idle, ended := false })) := by
  show execTriggerWindowEnd q s = _
  unfold execTriggerWindowEnd
  simp only [hx]
  exact stepIf_of (by rw [hu, he]; rfl)

/-- The window that a held trigger selects. -/
def heldTrig (w : Option Nat) : TrigState := (w.map TrigState.armed).getD .idle

theorem exec_triggerWindowEnd_pending {q : Fin 4} {k : Nat} (hu : s.measUp = true) (hx : (s.meas.seq q.val).trig = .runningPending k)
    (he : (s.meas.seq q.val).ended = true) : exec (.triggerWindowEnd q) s =
    .next (s.setMeas (s.meas.setSeq q.val { s.meas.seq q.val with
      trig := heldTrig (s.meas.map.selectWindow s.mgmt.inForce q.val s.meas.round.pos), ended := false })) := by
  show execTriggerWindowEnd q s = _
  unfold execTriggerWindowEnd
  simp only [hx]
  refine (stepIf_of (by rw [hu, he]; rfl)).trans ?_
  cases s.meas.map.selectWindow s.mgmt.inForce q.val s.meas.round.pos <;> rfl

/-- The window that a sequence runs. -/
def TrigState.window : TrigState → Option Nat
  | .running k => some k
  | .runningPending k => some k
  | _ => none

/-- A sequence after its tick at a round position: the last position of its window ends it (06 R145). -/
def Seq.passed (x : Seq) (m : SlotMap) (q pos : Nat) : Seq :=
  if (x.trig.window.any fun k => x.laps == 0 && m.lastPos q k == some pos) = true then { x with ended := true } else x

/-- A sequence's part of the passing of windows. -/
def Meas.windowPass (pos : Nat) (m : Meas) (q : Nat) : Meas := m.setSeq q ((m.seq q).passed m.map q pos)

theorem Meas.windowsPass_eq (m : Meas) (pos : Nat) : m.windowsPass pos = (List.range 4).foldl (Meas.windowPass pos) m := by
  unfold Meas.windowsPass
  congr 1
  funext m q
  have h (b : Bool) (hb : b = (m.seq q).trig.window.any fun k => (m.seq q).laps == 0 && m.map.lastPos q k == some pos) :
      (if b = true then m.setSeq q { m.seq q with ended := true } else m) = m.windowPass pos q := by
    subst hb
    unfold Meas.windowPass Seq.passed
    split
    · rfl
    · exact (m.setSeq_self q).symm
  exact h _ (by cases (m.seq q).trig <;> rfl)

theorem Meas.windowPass_foldl (pos : Nat) (qs : List Nat) (hnd : qs.Nodup) (hq : ∀ q ∈ qs, q < 4) (m : Meas) (n : Nat) :
    (qs.foldl (Meas.windowPass pos) m).seq n = if n ∈ qs then (m.seq n).passed m.map n pos else m.seq n := by
  induction qs generalizing m with
  | nil => rfl
  | cons q qs ih =>
    obtain ⟨hmem, hnd'⟩ := List.nodup_cons.1 hnd
    rw [List.foldl_cons, ih hnd' fun x hx => hq x (List.mem_cons_of_mem _ hx), Meas.windowPass,
      Meas.setSeq_seq m _ (hq q List.mem_cons_self)]
    by_cases h : n = q
    · subst h
      rw [if_neg hmem, if_pos rfl, if_pos List.mem_cons_self]
    · rw [if_neg h]
      exact if_congr (List.mem_cons.trans (or_iff_right h)).symm rfl rfl

theorem Meas.windowsPass_seq (m : Meas) (pos : Nat) (q : Fin 4) : (m.windowsPass pos).seqs[q] = (m.seqs[q]).passed m.map q.val pos := by
  rw [← Meas.seq_fin, ← Meas.seq_fin, m.windowsPass_eq, Meas.windowPass_foldl pos _ List.nodup_range fun x hx => List.mem_range.1 hx]
  exact if_pos (List.mem_range.2 q.isLt)

end

/-- Settles O38: a trigger sequence by sequence, then the window's two ends. -/
theorem triggersSelectWindowsThatStartAndEnd : Obligations.TriggersSelectWindowsThatStartAndEnd := by
  refine ⟨fun s hp => ?_, fun s q k hu => ?_, fun m pos k q hk => ?_⟩
  · intro hit named triggers
    have hhit (q : Fin 4) : (s.meas.seqs[q]).hit s.now (s.windowNow q.val) = hit q.val s.meas.seqs[q] := by
      simp only [hit, Seq.hit, Seq.trigger, State.windowNow]
      generalize s.meas.seqs[q] = x
      generalize s.meas.map.selectWindow s.mgmt.inForce q.val s.meas.round.at = w
      split
      · rfl
      · cases hr : x.running
        · rfl
        · cases hx : x.trig <;> cases w <;> rfl
    have htrig (u : State) (source : Nat) (hm : u.meas = s.meas) (hc : u.clock = s.clock) (hg : u.mgmt = s.mgmt) (ho : u.obs = s.obs) :
        ∃ m o, u.triggers (s.named source) = (u.setMeas m).setObs o ∧ triggers ((u.setMeas m).setObs o) source := by
      obtain ⟨m, o, he, hcnt, hrest, hseq⟩ := State.triggers_eq (s.named source) (List.nodup_range.filter _)
        (fun q hq => (State.mem_named.1 hq).1) u
      refine ⟨m, o, he, ?_, hcnt.of_obs ho, fun q => ?_⟩
      · rw [← hm]
        exact hrest
      · have hn : u.now = s.now := congrArg Clock.tick hc
        have hw : u.windowNow q.val = s.windowNow q.val := by rw [State.windowNow, hm, hg]; rfl
        have h := hseq q.val
        rw [hm, hn, hw, Meas.seq_fin, Meas.seq_fin, hhit] at h
        exact h.trans (if_congr (State.mem_named.trans (and_iff_right q.isLt)) rfl rfl)
    refine ⟨fun pin hu he => ?_, fun v hv hl hu hc => ?_⟩
    · obtain ⟨m, o, ht, htr⟩ := htrig (s.setPins (s.pins.used pin)) (pin.val + 2) rfl rfl rfl rfl
      have hex := exec_gpioTrigger pin hu he
      rw [ht] at hex
      obtain ⟨h1, h2, h3⟩ := s.pins.used_spec pin
      exact ⟨_, hex, ⟨rfl, fun q hq => by cases q <;> first | exact absurd (by decide) hq | rfl⟩, htr, h1, h2, h3⟩
    · obtain ⟨m, o, ht, htr⟩ := htrig (s.setFab { s.fab with event := none }) 1 rfl rfl rfl rfl
      have hex := exec_timeEventFire hv hl hu hc
      rw [ht] at hex
      exact ⟨_, hex, ⟨rfl, fun q hq => by cases q <;> first | exact absurd (by decide) hq | rfl⟩, htr, rfl⟩
  · intro x becomes ended
    have hx : s.meas.seq q.val = x := s.meas.seq_fin q
    have hset (y : Seq) : s.setMeas (s.meas.setSeq q.val y) = becomes y := by
      have hv : s.meas.seqs.setIfInBounds q.val y = s.meas.seqs.set q.val y :=
        Vector.ext fun i hi => by rw [Vector.getElem_setIfInBounds, Vector.getElem_set]
      rw [Meas.setSeq, hv]
      rfl
    refine ⟨fun c ht hp hd hc hpos => ?_, fun ht he => ?_, fun ht he => ⟨fun w hw => ?_, fun hw => ?_⟩⟩
    · have hex := exec_triggerWindowStart hu (by rw [hx]; exact ht) hp hd hc hpos
      rw [hset, hx] at hex
      exact hex
    · have hex := exec_triggerWindowEnd_running hu (by rw [hx]; exact ht) (by rw [hx]; exact he)
      rw [hset, hx] at hex
      exact hex
    · have hex := exec_triggerWindowEnd_pending hu (by rw [hx]; exact ht) (by rw [hx]; exact he)
      rw [hset, hx, hw] at hex
      exact hex
    · have hex := exec_triggerWindowEnd_pending hu (by rw [hx]; exact ht) (by rw [hx]; exact he)
      rw [hset, hx, hw] at hex
      exact hex
  · have hw : m.seqs[q].trig.window = some k := by
      rcases hk with hk | hk <;> rw [hk] <;> rfl
    rw [m.windowsPass_seq, Seq.passed, hw]
    refine if_congr ?_ rfl rfl
    simp [SlotMap.lastPos]

end Sys2Proof.Machine
end



section
/-! PROOFS. What a round start does: its posts, its stops and starts, and the maps that fall due (05 R114; 06 R131, R136, R148). -/

namespace Sys2Proof.Machine

open Sys2Proof

set_option Elab.async false

section
variable {s t : State}

/-! ## Posts of an island -/

/-- What posts on mailbox `k` leave: the window's other mailboxes, its words and bytes; what was coming still comes. -/
structure State.Posts (k : Nat) (s t : State) : Prop where
  only : s.Only [.win, .obs] t
  traced : s.OnlyTrace t
  win : t.win = { s.win with
    mb := t.win.mb, crossSince := t.win.crossSince, crossRaised := t.win.crossRaised, idb := t.win.idb, posts := t.win.posts }
  others : ∀ n, n ≠ k → t.win.mbAt n = s.win.mbAt n
  coming : ∀ r ∈ s.win.coming k, r ∈ t.win.coming k

theorem State.Posts.refl (k : Nat) (s : State) : State.Posts k s s := ⟨.refl _ s, .refl _ s, rfl, fun _ _ => rfl, fun _ h => h⟩

theorem State.Posts.trans {k : Nat} {u : State} (h : State.Posts k s t) (g : State.Posts k t u) : State.Posts k s u where
  only := h.only.trans g.only
  traced := h.traced.trans g.traced
  win := by rw [g.win, h.win]
  others n hn := (g.others n hn).trans (h.others n hn)
  coming r hr := g.coming r (h.coming r hr)

theorem Window.mem_coming {w : Window} {k : Nat} {r : Req} : r ∈ w.coming k ↔
    ((w.mbAt k).untaken = true ∧ r = (w.mbAt k).req) ∨ ∃ e ∈ w.posts, e.1 = k ∧ e.2.2 = r := by
  unfold Window.coming
  rw [List.mem_append]
  refine or_congr ?_ ?_
  · split
    · next h => simp [h]
    · next h => simp [h]
  · simp only [List.mem_map, List.mem_filter, beq_iff_eq]
    exact ⟨fun ⟨e, ⟨he, hk⟩, hr⟩ => ⟨e, he, hk, hr⟩, fun ⟨e, he, hk, hr⟩ => ⟨e, ⟨he, hk⟩, hr⟩⟩

/-- A request is posted, or its receiver is down (11 R287). -/
theorem State.postReq_posts (s : State) {k : Nat} (hk : k < 8) (op : Nat) (r : Req) : State.Posts k s (s.postReq k op r) ∧
    (s.reqUp k = true → r ∈ (s.postReq k op r).win.coming k) := by
  by_cases hup : s.reqUp k = true
  · by_cases hent : s.Enters k
    · obtain ⟨hreq, hpend, hposts⟩ := hent
      have hask := State.postReq_asks hk ⟨hreq, hpend, hposts⟩ op r
      obtain ⟨o, he, htr⟩ := State.postReq_eq ⟨hreq, hpend, hposts⟩ op r
      have hwin : (s.postReq k op r).win = s.askWin k op r := by rw [he]; rfl
      have hmb : (s.askWin k op r).mbAt k = { s.win.mbAt k with
          notice := reqNotice k op r, req := r, pending := true, held := k == 6 && s.mgmtAsleep, posts := (s.win.mbAt k).posts + 1
          since := s.now, ack := none, lost := false } := by
        simp only [State.askWin, Window.dbSet_mbAt, Window.noteCross_mbAt, Window.setMb_self _ _ hk]
      refine ⟨⟨(s.postReq_frame k op r).1, by rw [he]; exact htr, ?_, fun n hn => ?_, fun q hq => ?_⟩, fun _ => ?_⟩
      · rw [hwin, s.askWin_rest]
      · rw [hwin]
        simp only [State.askWin, Window.dbSet_mbAt, Window.noteCross_mbAt]
        exact Window.setMb_other _ _ hn
      · exfalso
        rcases Window.mem_coming.1 hq with ⟨hu, -⟩ | ⟨e, he, hek, -⟩
        · rw [Mailbox.untaken, hpend] at hu
          exact Bool.false_ne_true hu
        · rw [List.any_eq_false] at hposts
          exact hposts e he (beq_iff_eq.2 hek)
      · rw [hwin]
        refine Window.mem_coming.2 (.inl ?_)
        rw [hmb]
        exact ⟨rfl, rfl⟩
    · rw [State.postReq_waits op r hup hent]
      refine ⟨⟨(s.setWin_only _).mono (by simp), .refl _ s, rfl, fun _ _ => rfl, fun q hq => ?_⟩, fun _ => ?_⟩
      · rcases Window.mem_coming.1 hq with h | ⟨e, he, hek, hr⟩
        · exact Window.mem_coming.2 (.inl h)
        · exact Window.mem_coming.2 (.inr ⟨e, List.mem_append_left _ he, hek, hr⟩)
      · exact Window.mem_coming.2 (.inr ⟨(k, reqNotice k op r, r), List.mem_append_right _ (List.mem_singleton.2 rfl), rfl, rfl⟩)
  · rw [State.postReq_fails op r (Bool.eq_false_of_not_eq_true hup)]
    exact ⟨.refl k s, fun h => absurd h hup⟩

/-- The event that MEAS posts to a command that has waited for it. -/
def Outst.event (o : Outst) (op status : Nat) (res : List Byte) : Req := .event o.op (o.answer op status res).1 (o.answer op status res).2

theorem State.measEvent_eq (s : State) (op lag status : Nat) (res : List Byte) : s.measEvent op lag status res =
    (s.takenBy op lag).foldl (fun s o => s.postReq 5 o.op (o.event op status res)) s := by
  unfold State.measEvent
  congr 1

theorem State.measEvent_posts (s : State) (op lag status : Nat) (res : List Byte) : State.Posts 5 s (s.measEvent op lag status res) ∧
    (s.upAt .mgmt = true → ∀ o ∈ s.takenBy op lag, o.event op status res ∈ (s.measEvent op lag status res).win.coming 5) := by
  rw [s.measEvent_eq]
  generalize s.takenBy op lag = os
  induction os generalizing s with
  | nil => exact ⟨.refl 5 s, fun _ => nofun⟩
  | cons o os ih =>
    obtain ⟨hp, hc⟩ := s.postReq_posts (k := 5) (by decide) o.op (o.event op status res)
    obtain ⟨hps, hcs⟩ := ih (s.postReq 5 o.op (o.event op status res))
    have hisl : (s.postReq 5 o.op (o.event op status res)).isl = s.isl := hp.only.2 .isl (by decide)
    refine ⟨hp.trans hps, fun hu x hx => ?_⟩
    rcases List.mem_cons.1 hx with rfl | hx
    · exact hps.coming _ (hc (by rw [State.reqUp]; exact Bool.or_eq_true_iff.2 (.inl hu)))
    · exact hcs (by rw [State.upAt, hisl]; exact hu) x hx

/-! ## Stops and starts -/

/-- What stops and starts of sequences touch. -/
structure State.SeqsMoved (s t : State) : Prop where
  only : s.Only [.meas, .loop, .obs] t
  meas : t.meas = { s.meas with seqs := t.meas.seqs, chans := t.meas.chans }
  chans : ∀ c : Fin 20, t.meas.chans[c] = { s.meas.chans[c] with restart := t.meas.chans[c].restart }
  loop : t.loop = { s.loop with interrupted := t.loop.interrupted, uUpd := t.loop.uUpd }
  counters : s.CountersBut [.trigLost, .trcDrop] t

theorem State.SeqsMoved.refl (s : State) : s.SeqsMoved s := ⟨.refl _ s, rfl, fun _ => rfl, rfl, .refl _ s⟩

theorem State.SeqsMoved.trans {u : State} (h : s.SeqsMoved t) (g : t.SeqsMoved u) : s.SeqsMoved u where
  only := h.only.trans g.only
  meas := by rw [g.meas, h.meas]
  chans c := by rw [g.chans c, h.chans c]
  loop := by rw [g.loop, h.loop]
  counters := h.counters.trans g.counters

theorem State.setSeq_moved (s : State) (q : Nat) (x : Seq) : s.SeqsMoved (s.setMeas (s.meas.setSeq q x)) :=
  ⟨(s.setMeas_only _).mono (by simp), rfl, fun _ => rfl, rfl, .refl _ s⟩

/-- A sequence without the trigger that it had armed or held (06 R147). -/
def Seq.disarmed (x : Seq) : Seq := { x with trig := match x.trig with
  | .armed _ => .idle
  | .runningPending k => .running k
  | y => y }

theorem State.discardTriggers_eq (s : State) (q : Nat) : ∃ o, s.discardTriggers q = (s.setMeas (s.meas.setSeq q (s.meas.seq q).disarmed)).setObs o ∧
    s.CountersBut [.trigLost] (s.setObs o) := by
  unfold State.discardTriggers
  cases hx : (s.meas.seq q).trig <;> simp only [hx]
  case armed k => exact ⟨_, by simp only [Seq.disarmed, hx]; rfl, s.countN_counters .trigLost 1⟩
  case runningPending k => exact ⟨_, by simp only [Seq.disarmed, hx]; rfl, s.countN_counters .trigLost 1⟩
  case idle =>
    have hd : (s.meas.seq q).disarmed = s.meas.seq q := by simp only [Seq.disarmed, hx]; rw [← hx]
    rw [hd, Meas.setSeq_self]
    exact ⟨s.obs, rfl, .refl _ s⟩
  case running k =>
    have hd : (s.meas.seq q).disarmed = s.meas.seq q := by simp only [Seq.disarmed, hx]; rw [← hx]
    rw [hd, Meas.setSeq_self]
    exact ⟨s.obs, rfl, .refl _ s⟩

/-- A sequence that has been stopped. -/
def Seq.stopped (x : Seq) : Seq := { x with running := false, stopFrom := none, trig := .idle }

theorem Meas.chan_fin (m : Meas) (c : Fin 20) : m.chan c.val = m.chans[c] := by simp [Meas.chan]

theorem State.seqOff_moved (s : State) (q : Nat) : s.SeqsMoved (s.seqOff q) := by
  let m := s.meas.setSeq q (s.meas.seq q).stopped
  let f (c : Fin 20) : Chan := { m.chan c.val with
    restart := (m.chan c.val).restart || ((s.mgmt.inForce.seqsOf c.val).contains q && m.idleChan s.mgmt.inForce c.val) }
  have he : s.seqOff q = s.setMeas { m with chans := Vector.ofFn f } := rfl
  have hm : ∀ c : Fin 20, m.chan c.val = s.meas.chans[c] := fun c => s.meas.chan_fin c
  rw [he]
  refine ⟨(s.setMeas_only _).mono (by simp), rfl, fun c => ?_, rfl, .refl _ s⟩
  have hc : (Vector.ofFn f)[c] = f c := Vector.getElem_ofFn ..
  show (Vector.ofFn f)[c] = { s.meas.chans[c] with restart := (Vector.ofFn f)[c].restart }
  rw [hc, ← hm c]

theorem State.seqOff_seq (s : State) (q n : Nat) : (s.seqOff q).meas.seq n = (s.meas.setSeq q (s.meas.seq q).stopped).seq n := by
  unfold State.seqOff Meas.seq
  rfl

theorem State.stopSeq_moved (s : State) {q : Nat} (hq : q < 4) : s.SeqsMoved (s.stopSeq q) ∧
    ∀ n, (s.stopSeq q).meas.seq n = if n = q then (s.meas.seq n).stopped else s.meas.seq n := by
  obtain ⟨o, ho, hcnt⟩ := s.discardTriggers_eq q
  rw [s.stopSeq_eq, ho]
  have hd : s.SeqsMoved ((s.setMeas (s.meas.setSeq q (s.meas.seq q).disarmed)).setObs o) :=
    ⟨⟨rfl, fun p hp => by cases p <;> first | exact absurd (by decide) hp | rfl⟩, rfl, fun _ => rfl, rfl, hcnt.mono (by simp)⟩
  have hself (n : Nat) := s.meas.setSeq_seq (n := n) (s.meas.seq q).disarmed hq
  have hu : ∀ n, ((s.setMeas (s.meas.setSeq q (s.meas.seq q).disarmed)).setObs o).meas.seq n =
      if n = q then (s.meas.seq q).disarmed else s.meas.seq n := hself
  generalize (s.setMeas (s.meas.setSeq q (s.meas.seq q).disarmed)).setObs o = u at hd hu
  have hl : u.SeqsMoved (u.loopUntracked q) ∧ (u.loopUntracked q).meas = u.meas := by
    unfold State.loopUntracked
    split
    · exact ⟨⟨⟨rfl, fun p hp => by cases p <;> first | exact absurd (by decide) hp | rfl⟩, rfl, fun _ => rfl, rfl, .refl _ u⟩, rfl⟩
    · exact ⟨.refl u, rfl⟩
  obtain ⟨hl, hm⟩ := hl
  refine ⟨(hd.trans hl).trans ?_, fun n => ?_⟩
  · exact (u.loopUntracked q).seqOff_moved q
  · have hs : ((u.loopUntracked q).seqOff q).meas.seq n = (u.meas.setSeq q (u.meas.seq q).stopped).seq n := by
      rw [State.seqOff_seq, hm]
    rw [hs, Meas.setSeq_seq _ _ hq, hu]
    by_cases hn : n = q
    · rw [if_pos hn, if_pos hn, hn, if_pos rfl]
      rfl
    · rw [if_neg hn, if_neg hn, hu, if_neg hn]

/-- Steps that each change one sequence. -/
theorem State.foldl_seqsMoved {f : State → Nat → State} {g : Seq → Seq}
    (hf : ∀ (u : State) (q : Nat), q < 4 → u.SeqsMoved (f u q) ∧ ∀ n, (f u q).meas.seq n = if n = q then g (u.meas.seq n) else u.meas.seq n)
    (qs : List Nat) (hnd : qs.Nodup) (hq : ∀ q ∈ qs, q < 4) (s : State) : s.SeqsMoved (qs.foldl f s) ∧
    ∀ n, (qs.foldl f s).meas.seq n = if n ∈ qs then g (s.meas.seq n) else s.meas.seq n := by
  induction qs generalizing s with
  | nil => exact ⟨.refl s, fun n => rfl⟩
  | cons q qs ih =>
    obtain ⟨hmem, hnd'⟩ := List.nodup_cons.1 hnd
    obtain ⟨h1, e1⟩ := hf s q (hq q List.mem_cons_self)
    obtain ⟨h2, e2⟩ := ih hnd' (fun x hx => hq x (List.mem_cons_of_mem _ hx)) (f s q)
    refine ⟨h1.trans h2, fun n => (e2 n).trans ?_⟩
    rw [e1 n]
    by_cases h : n = q
    · subst h
      rw [if_neg hmem, if_pos rfl, if_pos List.mem_cons_self]
    · rw [if_neg h]
      exact if_congr (List.mem_cons.trans (or_iff_right h)).symm rfl rfl

/-- A sequence at a round start, by its due stop (06 R136). -/
def Seq.afterStop (x : Seq) (now : Nat) : Seq :=
  if dueBy x.stopFrom now = true then { x with running := false, stopFrom := none, trig := if x.running then .idle else x.trig } else x

theorem State.seqsStopped_moved (s : State) : s.SeqsMoved s.seqsStopped ∧ ∀ n, n < 4 → s.seqsStopped.meas.seq n = (s.meas.seq n).afterStop s.now := by
  have hmem (n : Nat) : n ∈ s.stopsDue ↔ n < 4 ∧ dueBy (s.meas.seq n).stopFrom s.now = true :=
    List.mem_filter.trans (and_congr_left fun _ => List.mem_range)
  have hlt : ∀ q ∈ s.stopsDue, q < 4 := fun q h => ((hmem q).1 h).1
  have hnd : s.stopsDue.Nodup := List.nodup_range.filter _
  obtain ⟨h1, e1⟩ := State.foldl_seqsMoved (f := State.stopSeq) (g := Seq.stopped) (fun u q hq => u.stopSeq_moved hq)
    (s.stopsDue.filter fun q => (s.meas.seq q).running) (hnd.filter _) (fun q h => hlt q (List.mem_of_mem_filter h)) s
  obtain ⟨h2, e2⟩ := State.foldl_seqsMoved (f := fun s q => s.setMeas (s.meas.setSeq q { s.meas.seq q with stopFrom := none }))
    (g := fun x => { x with stopFrom := none }) (fun u q hq => ⟨u.setSeq_moved q _, fun n => (Meas.setSeq_seq _ _ hq).trans (by
      split
      · next h => rw [h]
      · rfl)⟩) s.stopsDue hnd hlt ((s.stopsDue.filter fun q => (s.meas.seq q).running).foldl State.stopSeq s)
  refine ⟨h1.trans h2, fun n hn => (e2 n).trans ?_⟩
  rw [e1 n, Seq.afterStop]
  by_cases hd : dueBy (s.meas.seq n).stopFrom s.now = true
  · rw [if_pos ((hmem n).2 ⟨hn, hd⟩), if_pos hd]
    by_cases hr : (s.meas.seq n).running = true
    · have hin : n ∈ s.stopsDue.filter fun q => (s.meas.seq q).running := List.mem_filter.2 ⟨(hmem n).2 ⟨hn, hd⟩, hr⟩
      rw [if_pos hin, if_pos hr]
      rfl
    · have hin : n ∉ s.stopsDue.filter fun q => (s.meas.seq q).running := fun h => hr (List.mem_filter.1 h).2
      rw [if_neg hin, if_neg hr]
      cases hx : s.meas.seq n
      rw [hx] at hr
      simp only [Bool.not_eq_true] at hr
      subst hr
      rfl
  · rw [if_neg fun h => hd ((hmem n).1 h).2, if_neg hd, if_neg fun h => hd ((hmem n).1 (List.mem_of_mem_filter h)).2]

/-- A sequence's due start at a round start (06 R136). -/
def Seq.afterStart (x : Seq) (now len : Nat) : Seq :=
  if (dueBy x.startFrom now && decide (0 < len)) = true then { x with running := true, startFrom := none } else x

theorem State.seqsStarted_moved (s : State) : s.SeqsMoved s.seqsStarted ∧
    ∀ n, n < 4 → s.seqsStarted.meas.seq n = (s.meas.seq n).afterStart s.now (s.mgmt.inForce.sqLen n) := by
  have hmem (n : Nat) : n ∈ s.startsDue ↔ n < 4 ∧ (dueBy (s.meas.seq n).startFrom s.now && decide (0 < s.mgmt.inForce.sqLen n)) = true :=
    List.mem_filter.trans (and_congr_left fun _ => List.mem_range)
  obtain ⟨h1, e1⟩ := State.foldl_seqsMoved (f := State.startSeq) (g := fun x => { x with running := true, startFrom := none })
    (fun u q hq => ⟨u.setSeq_moved q _, fun n => (Meas.setSeq_seq _ _ hq).trans (by
      split
      · next h => rw [h]
      · rfl)⟩) s.startsDue (List.nodup_range.filter _) (fun q h => ((hmem q).1 h).1) s
  have hpart : (s.startsDue.foldl State.startSeq s).SeqsMoved s.seqsStarted ∧
      s.seqsStarted.meas = (s.startsDue.foldl State.startSeq s).meas := by
    unfold State.seqsStarted
    generalize s.startsDue.foldl State.startSeq s = u
    dsimp only
    split
    · exact ⟨⟨⟨rfl, fun p hp => by cases p <;> first | exact absurd (by decide) hp | rfl⟩, rfl, fun _ => rfl, rfl, .refl _ u⟩, rfl⟩
    · exact ⟨.refl u, rfl⟩
  refine ⟨h1.trans hpart.1, fun n hn => ?_⟩
  rw [hpart.2, e1 n]
  exact if_congr ((hmem n).trans (and_iff_right hn)) rfl rfl

/-! ## The sequences of a round start -/

/-- What the sequences' part of a round start touches. -/
structure State.RoundMoved (s t : State) : Prop where
  only : s.Only [.meas, .loop, .win, .obs] t
  meas : t.meas = { s.meas with seqs := t.meas.seqs, chans := t.meas.chans }
  chans : ∀ c : Fin 20, t.meas.chans[c] = { s.meas.chans[c] with restart := t.meas.chans[c].restart }
  loop : t.loop = { s.loop with interrupted := t.loop.interrupted, uUpd := t.loop.uUpd }
  counters : s.CountersBut [.trigLost, .trcDrop] t
  win : t.win = { s.win with
    mb := t.win.mb, crossSince := t.win.crossSince, crossRaised := t.win.crossRaised, idb := t.win.idb, posts := t.win.posts }
  others : ∀ n, n ≠ 5 → t.win.mbAt n = s.win.mbAt n

theorem State.RoundMoved.trans {u : State} (h : s.RoundMoved t) (g : t.RoundMoved u) : s.RoundMoved u where
  only := h.only.trans g.only
  meas := by rw [g.meas, h.meas]
  chans c := by rw [g.chans c, h.chans c]
  loop := by rw [g.loop, h.loop]
  counters := h.counters.trans g.counters
  win := by rw [g.win, h.win]
  others n hn := (g.others n hn).trans (h.others n hn)

theorem State.SeqsMoved.round (h : s.SeqsMoved t) : s.RoundMoved t :=
  have hw : t.win = s.win := h.only.2 .win (by decide)
  ⟨h.only.mono (by simp), h.meas, h.chans, h.loop, h.counters, by rw [hw], fun n _ => by rw [hw]⟩

theorem State.Posts.round (h : State.Posts 5 s t) : s.RoundMoved t := by
  have hm : t.meas = s.meas := h.only.2 .meas (by decide)
  have hl : t.loop = s.loop := h.only.2 .loop (by decide)
  exact ⟨h.only.mono (by simp), by rw [hm], fun c => by rw [hm], by rw [hl], h.traced.mono (by simp), h.win, h.others⟩

theorem State.RoundMoved.now (h : s.RoundMoved t) : t.now = s.now := congrArg Clock.tick (h.only.2 .clock (by decide))

theorem State.roundSeqs_moved (s : State) (n : Nat) : s.RoundMoved (s.roundSeqs n) ∧
    (∀ q, q < 4 → (s.roundSeqs n).meas.seq q = ((s.meas.seq q).afterStop s.now).afterStart s.now (s.mgmt.inForce.sqLen q)) ∧
    (s.upAt .mgmt = true → ∀ o ∈ s.takenBy 0x0201 2, o.event 0x0201 stOk (leBytes 4 n) ∈ (s.roundSeqs n).win.coming 5) := by
  obtain ⟨h1, e1⟩ := s.seqsStopped_moved
  obtain ⟨h2, -⟩ := s.seqsStopped.measEvent_posts 0x0202 1 stOk (leBytes 4 (n - 1))
  obtain ⟨h3, e3⟩ := (s.seqsStopped.measEvent 0x0202 1 stOk (leBytes 4 (n - 1))).seqsStarted_moved
  obtain ⟨h4, c4⟩ := (s.seqsStopped.measEvent 0x0202 1 stOk (leBytes 4 (n - 1))).seqsStarted.measEvent_posts 0x0201 2 stOk (leBytes 4 n)
  rw [s.roundSeqs_eq]
  have h12 := h1.round.trans h2.round
  have h123 := h12.trans h3.round
  refine ⟨h123.trans h4.round, fun q hq => ?_, fun hu o ho => ?_⟩
  · have hm4 : ∀ u v : State, State.Posts 5 u v → v.meas = u.meas := fun u v h => h.only.2 .meas (by decide)
    rw [hm4 _ _ h4, e3 q hq, hm4 _ _ h2, e1 q hq, h12.now, show _ = s.mgmt from h12.only.2 .mgmt (by decide)]
  · have hisl := h123.only.2 .isl (by decide)
    have hmg := h123.only.2 .mgmt (by decide)
    refine c4 ?_ o ?_
    · rw [State.upAt, show _ = s.isl from hisl]
      exact hu
    · rw [State.takenBy, show _ = s.mgmt from hmg, h123.now]
      exact ho

/-! ## What leaves a quiet round alone -/

theorem State.correct_idle (h1 : s.meas.sampled = []) (h2 : s.meas.sxEntries = []) : s.correct = s := by
  have hm : ({ s.meas with sampled := [], results := s.meas.results ++ [], sxEntries := [] } : Meas) = s.meas := by
    cases hs : s.meas
    rw [hs] at h1 h2
    simp only at h1 h2
    rw [h1, h2, List.append_nil]
  unfold State.correct
  rw [h1]
  dsimp only [List.foldl_nil, State.setMeas_meas, State.setMeas_mgmt]
  rw [h2]
  exact congrArg s.setMeas hm

theorem State.takeStreams_idle (h : s.mgmt.inForce.takeKind s.mgmt.committed .stream = s.mgmt.inForce) : s.takeStreams = s := by
  unfold State.takeStreams
  dsimp only
  rw [h]
  exact if_pos (by rw [beq_self_eq_true, Bool.true_or])

theorem State.junction_idle (h : ∀ x, s.meas.prior = some x → x.1 ≠ s.now) : s.junction = s := by
  unfold State.junction
  cases hp : s.meas.prior with
  | none => rfl
  | some x => exact if_neg (h x hp)

theorem State.takeMb_idle {k : Nat} (up : Bool) (act : State → Req → State) (h : (s.win.mbAt k).pending = false) : s.takeMb k up act = s := by
  unfold State.takeMb
  exact if_neg (by rw [Mailbox.untaken, h]; simp)

theorem State.auxCheck_free (h : s.mgmt.inForce.supplyAux = false) : s.auxCheck = s.setEnergy { s.energy with auxLost := false } := by
  have hb : s.auxBlocked = false := by rw [State.auxBlocked, h]; rfl
  rw [State.auxCheck, hb]
  rfl

theorem State.takeFailMap_idle (h : s.meas.failMap = none) : s.takeFailMap = s := by
  unfold State.takeFailMap
  rw [h]

/-- The timing guarantee resumes on the crystal (01 R29). -/
def Clock.regained (c : Clock) : Clock := { c with guarantee := c.guarantee || !c.onInternal }

theorem Clock.regained_internal {c : Clock} (h : c.onInternal = true) : c.regained = c := by
  cases c
  simp only at h
  subst h
  simp only [Clock.regained, Bool.not_true, Bool.or_false]

theorem Clock.regained_external {c : Clock} (h : c.onInternal = false) : c.regained = { c with guarantee := true } := by
  cases c
  simp only at h
  subst h
  simp only [Clock.regained, Bool.not_false, Bool.or_true]

theorem State.regain_eq (s : State) : s.regain = { s with clock := s.clock.regained } := by
  unfold State.regain
  split
  · next h => rw [Clock.regained_internal h]
  · next h => rw [Clock.regained_external (Bool.eq_false_of_not_eq_true h)]

/-! ## The source after a refresh -/

theorem State.refreshed_source (s : State) : (s.refreshed.src, s.refreshed.cmd) = (s.setLoop s.refreshed).selectCode := by
  obtain ⟨l, hl, -⟩ := s.refreshed_stages
  have hs (a : Nat) (b c : Int) : (s.setLoop (l.stages a b c)).selectCode = (s.setLoop l).selectCode := rfl
  rw [hl, hs]
  rfl

theorem State.refreshed_frame (s : State) : s.refreshed = { s.loop with
    interrupted := s.refreshed.interrupted, src := s.refreshed.src, cmd := s.refreshed.cmd, lim := s.refreshed.lim
    shaped := s.refreshed.shaped, trim := s.refreshed.trim } := by
  unfold State.refreshed
  cases s.primaryRuns <;> rfl

/-! ## The round start -/

theorem exec_roundStart_down (hp : s.clock.powered = true) (ho : s.meas.round.on = true) (hd : s.meas.round.due = true) (hu : s.measUp = false) :
    exec .roundStart s = .next ((s.setMeas { s.meas with round := s.meas.round.start s.now }).missToken.takeStreams).regain := by
  refine (stepIf_of ?_).trans (congrArg (fun t => Host.Outcome.next (State.regain t)) (if_neg fun h => Bool.false_ne_true (hu.symm.trans h)))
  rw [hp, ho, hd]
  rfl

theorem exec_roundStart_up (hp : s.clock.powered = true) (ho : s.meas.round.on = true) (hd : s.meas.round.due = true) (hu : s.measUp = true) :
    exec .roundStart s = .next ((s.startRound.driveExc.refreshLoop).loopTrace s.loop).regain := by
  refine (stepIf_of ?_).trans (congrArg (fun t => Host.Outcome.next (State.regain t)) (if_pos hu))
  rw [hp, ho, hd]
  rfl

/-- MEAS at the start of a round, before the sequences' stops and starts. -/
def State.roundBegun (s : State) : State :=
  s.setMeas { s.meas with round := s.meas.round.start s.now, sxNext := 2, seqs := s.meas.seqs.map Seq.lap }

/-- Nothing waits for a round start but stops and starts. -/
structure State.Quiet (s : State) : Prop where
  sampled : s.meas.sampled = []
  sextant : s.meas.sxEntries = []
  token : s.mgmt.pendMeas = none
  job : s.meas.job = none
  failMap : s.meas.failMap = none
  prior : ∀ x, s.meas.prior = some x → x.1 ≠ s.now
  aux : s.mgmt.inForce.supplyAux = false
  mb4 : (s.win.mbAt 4).pending = false
  streams : s.mgmt.inForce.takeKind s.mgmt.committed .stream = s.mgmt.inForce

theorem State.startRound_eq (s : State) : s.startRound = ((((s.correct.takeStreams.roundBegun).takeMeasToken.roundJob.takeFailMap.roundSeqs
    (s.correct.takeStreams.roundBegun).meas.round.count).auxCheck.junction).emitSeq 0 0).takeMb4 := by
  delta State.startRound State.roundBegun
  rfl

/-- The end of a round start at which nothing is due. -/
theorem State.roundEnd_quiet {s v : State} (h : s.Quiet) (hmg : v.mgmt = s.mgmt) (hen : v.energy = s.energy) (hnow : v.now = s.now)
    (hpr : v.meas.prior = s.meas.prior) (hmb : v.win.mbAt 4 = s.win.mbAt 4) : ∃ o,
    (v.auxCheck.junction.emitSeq 0 0).takeMb4 = (v.setEnergy { s.energy with auxLost := false }).setObs o ∧ v.OnlyTrace (v.setObs o) := by
  have haux : v.auxCheck = v.setEnergy { s.energy with auxLost := false } := by
    rw [State.auxCheck_free (by rw [hmg]; exact h.aux), hen]
  have hj : (v.setEnergy { s.energy with auxLost := false }).junction = v.setEnergy { s.energy with auxLost := false } :=
    State.junction_idle fun x hx => by
      have hx' : s.meas.prior = some x := hpr.symm.trans hx
      exact fun e => h.prior x hx' (e.trans hnow)
  obtain ⟨o, ho, htr⟩ := (v.setEnergy { s.energy with auxLost := false }).emit_eq .meas 0xD 0 []
  have he : (v.setEnergy { s.energy with auxLost := false }).emitSeq 0 0 = (v.setEnergy { s.energy with auxLost := false }).setObs o := ho
  refine ⟨o, ?_, htr⟩
  rw [haux, hj, he]
  exact State.takeMb_idle _ _ (by rw [State.setObs_win, State.setEnergy_win, hmb]; exact h.mb4)

theorem State.Quiet.startRound (h : s.Quiet) : ∃ v o, s.startRound = (v.setEnergy { s.energy with auxLost := false }).setObs o ∧
    v = s.roundBegun.roundSeqs s.roundBegun.meas.round.count ∧ v.OnlyTrace (v.setObs o) := by
  obtain ⟨hm, -, -⟩ := s.roundBegun.roundSeqs_moved s.roundBegun.meas.round.count
  have hq : s.roundBegun.takeMeasToken.roundJob.takeFailMap = s.roundBegun := by
    rw [State.takeMeasToken_none (s := s.roundBegun) h.token, s.roundBegun.roundJob_other, State.takeFailMap_idle (s := s.roundBegun) h.failMap]
    · exact fun sl m f e => nomatch h.job.symm.trans e
    · exact fun sl f e => nomatch h.job.symm.trans e
    · exact fun sl m fs f e => nomatch h.job.symm.trans e
  have hs : s.correct.takeStreams = s := by rw [State.correct_idle h.sampled h.sextant, State.takeStreams_idle h.streams]
  obtain ⟨o, ho, htr⟩ := State.roundEnd_quiet h (hm.only.2 .mgmt (by decide)) (hm.only.2 .energy (by decide)) hm.now
    (by rw [hm.meas]; rfl) (hm.others 4 (by decide))
  exact ⟨_, o, by rw [s.startRound_eq, hs, hq, ho], rfl, htr⟩

/-! ## A fallback map -/

theorem Alm.windowsDiffer_self (a : Alm) (q : Nat) : a.windowsDiffer a q = false := by
  simp [Alm.windowsDiffer]

theorem State.dropWindows_self (s : State) (a : Alm) : s.dropWindows a a = s := by
  have h : (List.range 4).filter (a.windowsDiffer a) = [] := List.filter_eq_nil_iff.2 fun q _ => by rw [a.windowsDiffer_self]; decide
  rw [State.dropWindows, h]
  rfl

theorem sxAfter_self (a : Alm) (n : Nat) : sxAfter a a n = n := if_pos (beq_self_eq_true _)

/-- Sequences of which only the trigger and the mark of a window's end may have changed. -/
structure Meas.WindowsMoved (m n : Meas) : Prop where
  rest : n = { m with seqs := n.seqs }
  seqs : ∀ q : Fin 4, n.seqs[q] = { m.seqs[q] with trig := n.seqs[q].trig, ended := n.seqs[q].ended }

theorem Meas.WindowsMoved.refl (m : Meas) : m.WindowsMoved m := ⟨rfl, fun _ => rfl⟩

theorem Meas.WindowsMoved.trans {m n k : Meas} (h : m.WindowsMoved n) (g : n.WindowsMoved k) : m.WindowsMoved k :=
  ⟨by rw [g.rest, h.rest], fun q => by rw [g.seqs q, h.seqs q]⟩

theorem Meas.setSeq_windowsMoved (m : Meas) {q : Nat} (hq : q < 4) (x : TrigState) (b : Bool) :
    m.WindowsMoved (m.setSeq q { m.seq q with trig := x, ended := b }) := by
  refine ⟨rfl, fun p => ?_⟩
  rw [← Meas.seq_fin, ← Meas.seq_fin, Meas.setSeq_seq _ _ hq]
  split
  · next h => rw [h]
  · rfl

theorem State.finishWindows_eq (s : State) (m' : SlotMap) (a : Alm) : ∃ m, s.finishWindows m' a = s.setMeas m ∧ s.meas.WindowsMoved m := by
  unfold State.finishWindows
  refine List.foldlRecOn (motive := fun t : State => ∃ m, t = s.setMeas m ∧ s.meas.WindowsMoved m) _ _ ⟨s.meas, rfl, .refl _⟩ ?_
  rintro t ⟨m, rfl, hm⟩ q hq
  have hq4 : q < 4 := List.mem_range.1 hq
  cases hx : ((s.setMeas m).meas.seq q).trig <;> simp only [hx]
  case running k =>
    split
    · exact ⟨_, rfl, hm.trans (m.setSeq_windowsMoved hq4 _ _)⟩
    · exact ⟨m, rfl, hm⟩
  case runningPending k =>
    split
    · exact ⟨_, rfl, hm.trans (m.setSeq_windowsMoved hq4 _ _)⟩
    · exact ⟨m, rfl, hm⟩
  all_goals exact ⟨m, rfl, hm⟩

theorem State.foldl_emitSeq (l : List (Nat × Nat)) (a b : Nat) (s : State) : ∃ o, l.foldl (fun s _ => s.emitSeq a b) s = s.setObs o ∧
    s.OnlyTrace (s.setObs o) := by
  induction l generalizing s with
  | nil => exact ⟨s.obs, rfl, .refl _ s⟩
  | cons x l ih =>
    obtain ⟨o, ho, htr⟩ := s.emit_eq .meas 0xD (a + 4 * b) []
    obtain ⟨o', ho', htr'⟩ := ih (s.setObs o)
    refine ⟨o', ?_, htr.trans htr'⟩
    rw [List.foldl_cons, show s.emitSeq a b = s.setObs o from ho, ho']
    rfl

theorem dueBy_iff {x : Option Nat} {now : Nat} : dueBy x now = true ↔ ∃ n, x = some n ∧ n ≤ now := by
  cases x <;> simp [dueBy]

theorem Seq.afterStop_startFrom (x : Seq) (now : Nat) : (x.afterStop now).startFrom = x.startFrom := by
  unfold Seq.afterStop
  split <;> rfl

theorem Seq.afterStart_not {x : Seq} {now len : Nat} (h : ¬ (dueBy x.startFrom now = true ∧ 0 < len)) : x.afterStart now len = x :=
  if_neg fun c => h (by simpa using c)

theorem Seq.afterStart_due {x : Seq} {now len : Nat} (h : dueBy x.startFrom now = true) (hl : 0 < len) :
    x.afterStart now len = { x with running := true, startFrom := none } :=
  if_pos (by rw [h, decide_eq_true hl]; rfl)

theorem State.setLoop_only (s : State) (l : LoopOut) : s.Only [.loop] (s.setLoop l) :=
  ⟨rfl, fun q hq => by cases q <;> first | exact absurd (by decide) hq | rfl⟩

theorem State.setClock_only (s : State) (c : Clock) : s.Only [.clock] { s with clock := c } :=
  ⟨rfl, fun q hq => by cases q <;> first | exact absurd (by decide) hq | rfl⟩

theorem State.roundBegun_seq (s : State) (q : Fin 4) : s.roundBegun.meas.seq q.val = s.meas.seqs[q].lap := by
  rw [Meas.seq_fin]
  exact Vector.getElem_map ..

/-- The state once the fallback map `fb` of slice `sl` has taken its place (05 R114). -/
def State.fellBack (s : State) (sl : Nat) (fb : SlotMap) : State :=
  let u := (s.changeMap s.mgmt.inForce fb []).junction.emitSlice sl 3 s.meas.round.count
  u.setMeas ({ u.meas with fallbackDue := none, fallback := [] }.setSlice sl { u.meas.slice sl with fence := none })

/-- Two maps of one boundary skip what conflicts between them (06 R148). -/
theorem State.junction_now {was : SlotMap × Alm} (h : s.meas.prior = some (s.now, was)) : ∃ o, s.OnlyTrace (s.setObs o) ∧
    s.junction = (s.setMeas { s.meas with
      round := { s.meas.round with skipped := junctionSkips was.1 was.2 s.meas.map s.mgmt.inForce } }).setObs o := by
  obtain ⟨o, ho, htr⟩ := State.foldl_emitSeq
    ((junctionSkips was.1 was.2 s.meas.map s.mgmt.inForce).filter fun p => !s.meas.round.skipped.contains p) 0 7
    (s.setMeas { s.meas with round := { s.meas.round with skipped := junctionSkips was.1 was.2 s.meas.map s.mgmt.inForce } })
  refine ⟨o, htr, Eq.trans ?_ ho⟩
  unfold State.junction
  rw [h]
  exact if_pos rfl

def Slice.warmed (x : Slice) : Slice := { x with warm := true }

/-- Slice `sl` no longer fenced, every slice warm. -/
def Meas.slicesAfter (m : Meas) (sl : Nat) : Vector Slice 4 :=
  (m.slices.map Slice.warmed).setIfInBounds sl { ({ m with slices := m.slices.map Slice.warmed } : Meas).slice sl with fence := none }

/-- The channels where the map `m'` takes the place of that in force. -/
def Meas.chansAfter (m : Meas) (a : Alm) (m' : SlotMap) : Vector Chan 20 := Vector.ofFn fun c => (m.chan c.val).atChange a a m.map m' c.val

/-- A map in the place of that in force, the almanac the same. -/
def State.mapped (s : State) (m : Meas) (fb : SlotMap) : State := { s with
  meas := { s.meas with
    map := fb, prior := some (s.now, s.before), fallback := [], chans := s.meas.chansAfter s.mgmt.inForce fb, seqs := m.seqs
    slices := s.meas.slices.map Slice.warmed }
  loop := { s.loop with duMax := max s.loop.duMax fb.duMax, g := fb.g, duFrom := s.now }
  energy := { s.energy with cost := fb.cost, costLoop := fb.costLoop } }

theorem State.changeMap_same (s : State) (fb : SlotMap) : ∃ m, s.meas.WindowsMoved m ∧
    s.changeMap s.mgmt.inForce fb [] = s.mapped m fb := by
  obtain ⟨m, hm, hw⟩ := s.finishWindows_eq fb s.mgmt.inForce
  refine ⟨m, hw, ?_⟩
  rw [State.changeMap_eq, State.dropWindows_self, hm, hw.rest]
  unfold State.mapSet
  rw [sxAfter_self]
  rfl

theorem State.fellBack_eq (s : State) (sl : Nat) (fb : SlotMap) : ∃ m o, s.meas.WindowsMoved m ∧ s.OnlyTrace (s.setObs o) ∧
    s.fellBack sl fb = { s with
      meas := { s.meas with
        map := fb, prior := some (s.now, s.before), fallback := [], fallbackDue := none, seqs := m.seqs
        chans := s.meas.chansAfter s.mgmt.inForce fb, slices := s.meas.slicesAfter sl
        round := { s.meas.round with skipped := junctionSkips s.before.1 s.before.2 fb s.mgmt.inForce } }
      loop := { s.loop with duMax := max s.loop.duMax fb.duMax, g := fb.g, duFrom := s.now }
      energy := { s.energy with cost := fb.cost, costLoop := fb.costLoop }
      obs := o } := by
  obtain ⟨m, hw, hc⟩ := s.changeMap_same fb
  obtain ⟨o, htr, hj⟩ := State.junction_now (s := s.mapped m fb) (was := s.before) rfl
  obtain ⟨o', he, htr'⟩ := (s.mapped m fb).junction.emit_eq .meas 0xE (sl + 4 * 3) [unsignedOf 32 s.meas.round.count]
  refine ⟨m, o', hw, ?_, ?_⟩
  · rw [hj] at htr'
    exact State.CountersBut.trans (t := s.setObs o) htr htr'
  · unfold State.fellBack
    rw [hc, State.emitSlice]
    dsimp only
    rw [he, hj]
    rfl

theorem exec_fallbackMapSwitch {sl n : Nat} {fb : SlotMap} (hu : s.measUp = true) (ho : s.meas.round.on = true)
    (hd : s.meas.round.due = true) (hfd : s.meas.fallbackDue = some (sl, n)) (hn : n + 2 ≤ s.now) (hfb : s.meas.fallback[sl]? = some fb)
    (hall : ∀ i ∈ fb.slices, (s.meas.slice i).retired = false) (h1 : s.meas.sampled = []) (h2 : s.meas.sxEntries = []) :
    exec .fallbackMapSwitch s = .next (s.fellBack sl fb).driveExc := by
  have hget : s.meas.fallback.getD sl s.meas.map = fb := by rw [List.getD_eq_getElem?_getD, hfb]; rfl
  have huse : (fb.slices.all fun n => !(s.meas.slice n).retired) = true := List.all_eq_true.2 fun i hi => by rw [hall i hi]; rfl
  show execFallbackMapSwitch s = _
  unfold execFallbackMapSwitch
  dsimp only
  rw [hfd]
  dsimp only
  rw [State.correct_idle h1 h2, hget, huse]
  refine (stepIf_of ?_).trans ?_
  · rw [hu, ho, hd, decide_eq_true hn]
    rfl
  · rw [if_pos rfl, if_pos rfl]
    unfold State.fellBack
    rfl

theorem State.CountersBut.to_obs {cs : List Ctr} {u : State} (h : s.CountersBut cs t) (ho : u.obs = t.obs) : s.CountersBut cs u := by
  unfold State.CountersBut at h ⊢
  rw [ho]
  exact h

theorem Meas.slice_beyond (m : Meas) {n : Nat} (h : 4 ≤ n) : m.slice n = Slice.fresh n := by
  simp [Meas.slice, List.getD_eq_getElem?_getD, h]

theorem Meas.slicesAfter_fin (m : Meas) (sl : Nat) (n : Fin 4) : ∃ w f, (m.slicesAfter sl)[n] = { m.slices[n] with warm := w, fence := f } ∧
    (n.val = sl → f = none) ∧ (n.val ≠ sl → f = m.slices[n].fence) := by
  have hmap (n : Fin 4) : (m.slices.map Slice.warmed)[n] = m.slices[n].warmed := Vector.getElem_map ..
  show ∃ w f, (m.slicesAfter sl)[n.val] = _ ∧ _
  unfold Meas.slicesAfter
  by_cases h : n.val = sl
  · subst h
    refine ⟨true, none, ?_, fun _ => rfl, fun h => absurd rfl h⟩
    rw [Vector.getElem_setIfInBounds_self, Meas.slice_eq]
    dsimp only
    rw [hmap]
    rfl
  · refine ⟨true, _, ?_, fun hn => absurd hn h, fun _ => rfl⟩
    rw [Vector.getElem_setIfInBounds_ne _ (Ne.symm h)]
    exact hmap n

end

/-- Settles O39: a quiet round start by its stops, starts and drive; a fallback map by its change of map. -/
theorem roundStartsWithItsSequences : Obligations.RoundStartsWithItsSequences := by
  intro s hp hon hdue r count begins guarded due routed
  have hguard : s.clock.regained = guarded := rfl
  refine ⟨fun hu hst => ?_, fun hu h1 h2 h3 h4 h5 h6 h7 h8 h9 => ?_, fun sl n fb hu h1 h2 hfd hn hfb hall hsl => ?_⟩
  · have hex := exec_roundStart_down hp hon hdue hu
    rw [State.takeStreams_idle (by exact hst), State.regain_eq] at hex
    exact hex
  · have hq : s.Quiet := ⟨h1, h2, h3, h4, h5, h6, h7, h8, h9⟩
    have hex := exec_roundStart_up hp hon hdue hu
    obtain ⟨v, o, hv, hvr, htr⟩ := hq.startRound
    obtain ⟨hm, hseq, hev⟩ := s.roundBegun.roundSeqs_moved s.roundBegun.meas.round.count
    rw [← hvr] at hm hseq hev
    let w := (v.setEnergy { s.energy with auxLost := false }).setObs o
    obtain ⟨o', ho', htr'⟩ := (w.driveExc.setLoop w.driveExc.refreshed).loopTrace_eq s.loop
    rw [hv, State.refreshLoop_eq, ho', State.regain_eq] at hex
    have hdr := w.driveExc_only
    have hbegun : s.Only [.meas] s.roundBegun := s.setMeas_only _
    have honly : s.Only [.clock, .meas, .loop, .win, .energy, .pins, .obs] w.driveExc :=
      (((hbegun.mono (by simp)).trans (hm.only.mono (by simp))).trans
        (((v.setEnergy_only _).mono (by simp)).trans ((State.setObs_only _ o).mono (by simp)))).trans (hdr.mono (by simp))
    have hfm := w.driveExc_frame.2
    have hvm : w.meas = { s.roundBegun.meas with seqs := v.meas.seqs, chans := v.meas.chans } := hm.meas
    have hfs (n : Fin 4) : w.driveExc.meas.slices[n] = { s.meas.slices[n] with
        path := w.driveExc.meas.slices[n].path, disch := w.driveExc.meas.slices[n].disch, power := w.driveExc.meas.slices[n].power } := by
      have h := w.driveExc_slice_frame n
      rw [hvm] at h
      exact h
    have hkeep (n : Fin 4) : w.driveExc.meas.slices[n].warm = s.meas.slices[n].warm ∧
        w.driveExc.meas.slices[n].fence = s.meas.slices[n].fence := by
      rw [hfs n]
      exact ⟨rfl, rfl⟩
    have hwin : w.driveExc.win = v.win := hdr.2 .win (by decide)
    have hloop : w.driveExc.loop = v.loop := hdr.2 .loop (by decide)
    have hseqs (q : Fin 4) : w.driveExc.meas.seqs[q] = ((s.meas.seqs[q].lap).afterStop s.now).afterStart s.now (s.mgmt.inForce.sqLen q.val) := by
      have h := hseq q.val q.isLt
      rw [s.roundBegun_seq] at h
      rw [hfm, ← Meas.seq_fin]
      exact h
    refine ⟨_, hex, ?_, ?_, ?_, ⟨fun n => ?_, ?_⟩, fun n => hkeep n, fun c => ?_, fun q hns => ?_,
      fun q hst hlen => ?_, ?_, fun k hk => ?_, fun hmu x hx hop hdone hgot => ?_, ?_, w.driveExc.refreshed_source, ?_, ?_⟩
    · exact ((honly.trans ((State.setLoop_only _ _).mono (by simp))).trans ((State.setObs_only _ _).mono (by simp))).trans
        ((State.setClock_only _ _).mono (by simp))
    · have hobs : (w.driveExc.setLoop w.driveExc.refreshed).obs = (v.setObs o).obs := hdr.2 .obs (by decide)
      exact (hm.counters.trans (htr.mono (by simp))).trans ((State.CountersBut.of_obs htr' hobs).mono (by simp))
    · show w.driveExc.meas = { s.meas with
        round := begins, seqs := w.driveExc.meas.seqs, chans := w.driveExc.meas.chans, sxNext := 2, dwell := w.driveExc.meas.dwell
        sxDrive := w.driveExc.meas.sxDrive, slices := w.driveExc.meas.slices }
      rw [hfm, hvm]
      rfl
    · show w.driveExc.meas.slices[n] = { s.meas.slices[n] with
        path := w.driveExc.meas.slices[n].path, disch := w.driveExc.meas.slices[n].disch, power := w.driveExc.meas.slices[n].power
        warm := w.driveExc.meas.slices[n].warm, fence := w.driveExc.meas.slices[n].fence }
      rw [hfs n]
    · have h := w.driveExc_frame.1
      rw [show w.pins = s.pins from hm.only.2 .pins (by decide)] at h
      exact h
    · have hc : w.driveExc.meas.chans = v.meas.chans := by rw [hfm]; rfl
      have h := hm.chans c
      show w.driveExc.meas.chans[c] = { s.meas.chans[c] with restart := w.driveExc.meas.chans[c].restart }
      rw [hc]
      exact h
    · have hn : ¬ (dueBy (s.meas.seqs[q].lap.afterStop s.now).startFrom s.now = true ∧ 0 < s.mgmt.inForce.sqLen q.val) := fun ⟨h, hl⟩ => by
        rw [Seq.afterStop_startFrom] at h
        exact hns.elim (fun hd => hd (dueBy_iff.1 h)) fun hz => absurd hl (by omega)
      have h := hseqs q
      rw [Seq.afterStart_not hn] at h
      exact ⟨fun hd => h.trans (if_neg fun c => hd (dueBy_iff.1 c)), fun hd => h.trans (if_pos (dueBy_iff.2 hd))⟩
    · have hst' : dueBy (s.meas.seqs[q].lap.afterStop s.now).startFrom s.now = true := by
        rw [Seq.afterStop_startFrom]
        exact dueBy_iff.2 hst
      have h := hseqs q
      rw [Seq.afterStart_due hst' hlen] at h
      show w.driveExc.meas.seqs[q].running = true ∧ w.driveExc.meas.seqs[q].startFrom = none
      rw [h]
      exact ⟨rfl, rfl⟩
    · show w.driveExc.win = { s.win with
        mb := w.driveExc.win.mb, crossSince := w.driveExc.win.crossSince, crossRaised := w.driveExc.win.crossRaised
        idb := w.driveExc.win.idb, posts := w.driveExc.win.posts }
      rw [hwin]
      exact hm.win
    · show w.driveExc.win.mbAt k = s.win.mbAt k
      rw [hwin]
      exact hm.others k hk
    · show w.driveExc.win.onWay 5 (· == .event 0x0201 stOk (leBytes 4 count)) = true
      rw [hwin]
      have htaken : x ∈ s.takenBy 0x0201 2 := by
        obtain ⟨g, hg, hle⟩ := hgot
        refine List.mem_filter.2 ⟨hx, ?_⟩
        rw [hop, hdone, hg]
        exact decide_eq_true hle
      have hevent : x.event 0x0201 stOk (leBytes 4 count) = .event 0x0201 stOk (leBytes 4 count) := by
        rw [Outst.event, Outst.answer, if_pos hop, hop]
      exact List.any_eq_true.2 ⟨_, hev hmu x htaken, by rw [show s.roundBegun.meas.round.count = count from rfl, hevent]; exact beq_self_eq_true _⟩
    · have hl : w.driveExc.loop = { s.loop with interrupted := v.loop.interrupted, uUpd := v.loop.uUpd } := hloop.trans hm.loop
      show w.driveExc.refreshed = { s.loop with
        uUpd := w.driveExc.refreshed.uUpd, interrupted := w.driveExc.refreshed.interrupted, src := w.driveExc.refreshed.src
        cmd := w.driveExc.refreshed.cmd, lim := w.driveExc.refreshed.lim, shaped := w.driveExc.refreshed.shaped
        trim := w.driveExc.refreshed.trim }
      have hf := w.driveExc.refreshed_frame
      rw [hl] at hf
      have hu : w.driveExc.refreshed.uUpd = v.loop.uUpd := by rw [hf]
      rw [hu]
      exact hf
    · exact hdr.2 .energy (by decide)
    · show w.driveExc.clock.regained = guarded
      have hc : w.driveExc.clock = s.clock := (hdr.2 .clock (by decide)).trans (hm.only.2 .clock (by decide))
      rw [hc, hguard]
  · have hex := exec_fallbackMapSwitch hu hon hdue hfd hn hfb hall h1 h2
    obtain ⟨m, o, hw, htr, hv⟩ := s.fellBack_eq sl fb
    generalize s.fellBack sl fb = v at hex hv
    have hdr := v.driveExc_only
    obtain ⟨hpins, hmeas⟩ := v.driveExc_frame
    have honly : s.Only [.meas, .loop, .energy, .obs] v := by
      rw [hv]
      exact ⟨rfl, fun q hq => by cases q <;> first | exact absurd (by decide) hq | rfl⟩
    have hslice (n : Fin 4) : ∃ w f, v.meas.slices[n] = { s.meas.slices[n] with warm := w, fence := f } ∧
        (n.val = sl → f = none) ∧ (n.val ≠ sl → f = s.meas.slices[n].fence) := by
      rw [hv]
      exact s.meas.slicesAfter_fin sl n
    have hfence (n : Fin 4) : (v.driveExc.meas.slice n.val).fence = v.meas.slices[n].fence := by
      rw [Meas.slice_eq, v.driveExc_slice_frame n]
    refine ⟨_, hex, (honly.mono (by simp)).trans (hdr.mono (by simp)), ?_, ?_, ?_, fun q => ?_, ⟨fun n => ?_, ?_⟩, ?_, fun n hn => ?_, ?_, ?_⟩
    · refine State.CountersBut.to_obs htr ((hdr.2 .obs (by decide)).trans ?_)
      rw [hv]
      rfl
    · rw [hmeas, hv]
    · rw [hmeas, hv]
    · rw [hmeas, hv]
      exact hw.seqs q
    · obtain ⟨w, f, hn, _⟩ := hslice n
      rw [v.driveExc_slice_frame n, hn]
    · rw [hpins, hv]
    · obtain ⟨w, f, hn, hf, _⟩ := hslice ⟨sl, hsl⟩
      rw [hfence ⟨sl, hsl⟩, hn]
      exact hf rfl
    · rcases Nat.lt_or_ge n 4 with h4 | h4
      · obtain ⟨w, f, hx, _, hf⟩ := hslice ⟨n, h4⟩
        rw [hfence ⟨n, h4⟩, hx, s.meas.slice_eq ⟨n, h4⟩]
        exact hf hn
      · rw [Meas.slice_beyond _ h4, Meas.slice_beyond _ h4]
    · rw [show v.driveExc.loop = v.loop from hdr.2 .loop (by decide), hv]
    · rw [show v.driveExc.energy = v.energy from hdr.2 .energy (by decide), hv]

end Sys2Proof.Machine
end



section
/-! PROOFS. A waiting conversion bears the count of its slice with itself in it (05 R97, Table 5-5). -/

namespace Sys2Proof.Machine

open Sys2Proof

set_option Elab.async false

section
variable {s : State}

/-- The conversion that waits has the number that its slice's count then has. -/
theorem State.takeConv_taken (s : State) (p : Pos) (c : Conv) (g : Nat) :
    (s.takeConv p c g).meas.taken = s.meas.taken ++ [⟨p.sl, p.kind, c, g, (s.meas.slice p.sl).convs + 1⟩] := rfl

/-- A calibration that is due converts, and its slice's time of calibration is the present. -/
theorem exec_calibrationConversion {sl : Fin 4} {c : Conv} {p : Pos} (hp : s.posNow sl.val (· == .cal) = some p)
    (hd : (s.meas.slice sl.val).calDue s.now = true) : exec (.calibrationConversion sl c) s = .next
      ((s.takeConv p c 0).setMeas ((s.takeConv p c 0).meas.setSlice sl.val
        { (s.takeConv p c 0).meas.slice sl.val with lastCal := s.now })) := by
  show execCalibrationConversion sl c s = _
  unfold execCalibrationConversion
  rw [hp]
  exact stepIf_of hd

end

/-- A slice that has made no conversion and is due for calibration. -/
def Slice.calibrating : Slice :=
  ⟨0, 0, 0, none, 255, 0, 0, none, none, 0, 0, 0, none, 0, false, false, none, none, false, .opened, 0, none, .awake⟩

/-- MEAS in a round whose first position is a calibration of slice 0. -/
def State.calibrating : State := { State.reset with
  clock := { Clock.reset with powered := true, running := true, tick := 1000 }
  isl := Quad.all Isl.aon0
  meas := { Meas.reset with
    round := { Round.reset with on := true }, map := { SlotMap.empty 500 with pos := [⟨0, 0, .cal⟩] }
    slices := Vector.replicate 4 Slice.calibrating } }

theorem State.calibrating_posNow : State.calibrating.posNow (0 : Fin 4).val (· == .cal) = some ⟨0, 0, .cal⟩ := by decide

/-- Refutes O40: the first conversion of a slice waits with the number 1, not with the count 0 of before it. -/
theorem not_conversionsWaitForCorrection : ¬ Obligations.ConversionsWaitForCorrection := by
  intro h
  obtain ⟨-, hcal, -⟩ := h State.calibrating 0 ⟨0, false, false, false⟩ ⟨0, 0, .cal⟩
  obtain ⟨t, hex, -, hm, -⟩ := (hcal State.calibrating_posNow).1 (.inl (Nat.le_refl 255))
  have hdue : (State.calibrating.meas.slice (0 : Fin 4).val).calDue State.calibrating.now = true := by decide
  rw [exec_calibrationConversion State.calibrating_posNow hdue] at hex
  obtain rfl := Host.Outcome.next.inj hex
  have hnth := congrArg Meas.taken hm
  exact absurd hnth (by decide)

end Sys2Proof.Machine
end



section
/-! PROOFS. Correction of what the tick before sampled: the model's arithmetic in the spec's words, the filter path sample by sample (05
R102; 06 R150 to R157; 07 R178). -/

namespace Sys2Proof.Machine

open Sys2Proof

set_option Elab.async false

section

/-! ## Arithmetic -/

theorem asl_eq (v : Int) (n : Nat) : asl v n = v * 2 ^ n := by
  rw [asl, Nat.cast_pow]
  rfl

theorem asr_eq (v : Int) (n : Nat) : asr v n = v / 2 ^ n := by
  rw [asr, Nat.cast_pow]
  rfl

/-- The 64-bit accumulator's wrap is the balanced remainder (06 R150). -/
theorem wrap64_eq (v : Int) : wrap64 v = v.bmod 18446744073709551616 := by
  unfold wrap64 signed unsignedOf
  rw [Int.bmod_def]
  norm_num
  split <;> split <;> omega

theorem signed_18 (x : BitVec 18) : signed 18 x.toNat = x.toInt := by
  have hx := x.isLt
  unfold signed
  rw [BitVec.toInt_eq_toNat_cond]
  norm_num at hx ⊢
  split <;> split <;> omega

/-- The limits of a 24-bit code. -/
def lim24 (v : Int) : Int := max (-8388608) (min 8388607 v)

def beyond24 (v : Int) : Bool := decide (v < -8388608 ∨ 8388607 < v)

theorem clampI_code (v : Int) : clampI codeMin codeMax v = lim24 v := by
  unfold clampI codeMin codeMax lim24
  split
  · omega
  · split <;> omega

theorem beyond_code (v : Int) : decide (v < codeMin ∨ codeMax < v) = beyond24 v := rfl

theorem fitsS_32 (v : Int) : fitsS 32 v = true ↔ -2147483648 ≤ v ∧ v ≤ 2147483647 := by
  unfold fitsS satS
  norm_num
  split
  · exact ⟨nofun, fun h => by omega⟩
  · split
    · exact ⟨nofun, fun h => by omega⟩
    · exact ⟨fun _ => by omega, fun _ => rfl⟩

end

/-! ## A result of the filter path -/

section
variable (c : Chan) (a : Alm) (ch : Nat) (f : Feedin) (z : Int) (xf : Bool)

/-- A comb output at the scale of the gain of its last sample (07 R178). -/
def Alm.descaled (g : Nat) : Int := if a.arEn ch then z / 2 ^ (a.arGmax ch - g) else z

/-- The gain differs from that of the result before. -/
def Chan.regained (g : Nat) : Bool := a.arEn ch && g != c.resGain

/-- A value of the histories brought to a new gain (07 R178). -/
def Chan.shift (g : Nat) (v : Int) : Int :=
  if !c.regained a ch g then v else if c.resGain < g then v * 2 ^ (g - c.resGain) else v / 2 ^ (c.resGain - g)

def Chan.firLine : List Int :=
  if a.fFir ch then (lim24 (a.descaled ch z f.gain) :: c.zh.map (c.shift a ch f.gain)).take 16 else c.zh.map (c.shift a ch f.gain)

def firAcc (zh : List Int) : Int := ((firCoef.zip zh).map fun e => e.1 * e.2).sum / 8388608

theorem firOut_eq (zh : List Int) : firOut zh = (lim24 (firAcc zh), beyond24 (firAcc zh)) := by
  show (clampI codeMin codeMax (firAcc zh), _) = _
  rw [clampI_code]
  rfl

/-- The compensator's output, or the comb output without it (06 R150). -/
def Chan.compensated : Int := if a.fFir ch then lim24 (firAcc (c.firLine a ch f z)) else lim24 (a.descaled ch z f.gain)

def Chan.notchLine : List Int :=
  if 1 < a.notchOf ch f.nc then (c.compensated a ch f z :: c.nh.map (c.shift a ch f.gain)).take (a.notchOf ch f.nc)
  else c.nh.map (c.shift a ch f.gain)

def Chan.notched : Int :=
  if 1 < a.notchOf ch f.nc then (c.notchLine a ch f z).sum / (a.notchOf ch f.nc : Int) else c.compensated a ch f z

def tagBit (b : Bool) (k : Nat) : Nat := if b then 2 ^ k else 0

def Chan.tagSum : Nat :=
  tagBit (c.ovrAcc || beyond24 (a.descaled ch z f.gain) || a.fFir ch && beyond24 (firAcc (c.firLine a ch f z))) 0 + tagBit (decide (0 < c.settle)) 1 +
    tagBit c.deferAcc 2 + tagBit (c.regained a ch f.gain) 3 + tagBit xf 4 + 64 * f.sl

theorem Chan.shift_map (l : List Int) : (if c.regained a ch f.gain then l.map (regain c.resGain f.gain) else l) = l.map (c.shift a ch f.gain) := by
  cases h : c.regained a ch f.gain
  · have hs : c.shift a ch f.gain = id := by
      funext v
      simp [Chan.shift, h]
    rw [hs, List.map_id]
    rfl
  · have hs : c.shift a ch f.gain = regain c.resGain f.gain := by
      funext v
      simp [Chan.shift, h, regain, asl_eq, asr_eq]
    rw [hs]
    rfl

theorem tagBit_b2n (b : Bool) (k : Nat) : 2 ^ k * b2n b = tagBit b k := by cases b <;> simp [tagBit, b2n]

/-- A result leaves the chain (06 R150, R151, R157; 07 R178). -/
theorem Chan.emit_eq : c.emit a ch f z xf = ({ c with
    zh := c.firLine a ch f z, nh := c.notchLine a ch f z, settle := c.settle - 1, ovrAcc := false, deferAcc := false, first := none, zLast := z
    resGain := f.gain, lastBound := (f.round, f.idx) }, c.notched a ch f z, c.tagSum a ch f z xf) := by
  have hzs : (if a.arEn ch then asr z (a.arGmax ch - f.gain) else z) = a.descaled ch z f.gain := by
    unfold Alm.descaled
    rw [asr_eq]
  have hzh : (if a.fFir ch then (lim24 (a.descaled ch z f.gain) :: c.zh.map (c.shift a ch f.gain)).take 16
      else c.zh.map (c.shift a ch f.gain)) = c.firLine a ch f z := rfl
  have hrg : (a.arEn ch && f.gain != c.resGain) = c.regained a ch f.gain := rfl
  unfold Chan.emit
  dsimp only
  rw [hzs, clampI_code, beyond_code, hrg, Chan.shift_map, Chan.shift_map, hzh]
  have hy : (if a.fFir ch then firOut (c.firLine a ch f z) else (lim24 (a.descaled ch z f.gain), false)) =
      (c.compensated a ch f z, a.fFir ch && beyond24 (firAcc (c.firLine a ch f z))) := by
    unfold Chan.compensated
    rw [firOut_eq]
    split
    · next h => rw [h, Bool.true_and]
    · next h => rw [Bool.eq_false_of_not_eq_true h, Bool.false_and]
  rw [hy]
  dsimp only
  have hnh : (if 1 < a.notchOf ch f.nc then (c.compensated a ch f z :: c.nh.map (c.shift a ch f.gain)).take (a.notchOf ch f.nc)
      else c.nh.map (c.shift a ch f.gain)) = c.notchLine a ch f z := rfl
  have htag : b2n (c.ovrAcc || beyond24 (a.descaled ch z f.gain) || a.fFir ch && beyond24 (firAcc (c.firLine a ch f z))) +
      2 * b2n (decide (0 < c.settle)) + 4 * b2n c.deferAcc + 8 * b2n (c.regained a ch f.gain) + 16 * b2n xf + 64 * f.sl =
      c.tagSum a ch f z xf := by
    unfold Chan.tagSum
    rw [← tagBit_b2n, ← tagBit_b2n, ← tagBit_b2n, ← tagBit_b2n, ← tagBit_b2n, Nat.pow_zero, Nat.one_mul]
    rfl
  rw [hnh, htag]
  rfl

/-! ## A sample into the decimator -/

variable (fz : List Nat) (now : Nat)

/-- Where a sample stands in its channel's sequence of samples. -/
def Feedin.place : Nat := f.round * f.nc + f.idx

/-- The results with SETTLE that are still to come, a flush counted with the first sample after it (06 R155). -/
def Chan.settleNow : Nat := if c.flushed then
    (if f.place % a.fOsr ch = 0 then 2 else 3) + (if a.fFir ch then 15 else 0) + (a.notchOf ch f.nc - 1) else c.settle

/-- A sample at the scale of the integrators (07 R178). -/
def Feedin.scaled : Int := if a.arEn ch then f.x * 2 ^ (a.arGmax ch - f.scale) else f.x

def word64 (v : Int) : Int := v.bmod 18446744073709551616

def Chan.sum1 : Int := word64 (c.i1 + f.scaled a ch)
def Chan.sum2 : Int := word64 (c.i2 + c.sum1 a ch f)
def Chan.sum3 : Int := word64 (c.i3 + c.sum2 a ch f)

/-- A freeze lies between the period's first sample and this one, or DEFER stands already (04 R90). -/
def Chan.lateNow : Bool :=
  c.deferAcc || (f.defer || fz.any fun t => decide (c.first.getD f.tick < t) && decide (t ≤ f.tick))

/-- XFAIL as it is in force for a result of the present tick (05 R126). -/
def Chan.xfailNow : Bool := match c.xfailNext with
  | some (b, t) => if t ≤ now then b else c.xfail
  | none => c.xfail

/-- The channel with a sample in its integrators. -/
def Chan.entered : Chan := { c with
  xfail := c.xfailNow now, xfailNext := (c.xfailAt now).xfailNext, flushed := false, settle := c.settleNow a ch f, ovrAcc := c.ovrAcc || f.ovr, deferAcc := c.lateNow f fz, first := some (c.first.getD f.tick)
  i1 := c.sum1 a ch f, i2 := c.sum2 a ch f, i3 := c.sum3 a ch f }

theorem Chan.xfailAt_frame : c.xfailAt now = { c with xfail := c.xfailNow now, xfailNext := (c.xfailAt now).xfailNext } := by
  unfold Chan.xfailAt Chan.xfailNow
  cases c.xfailNext with
  | none => rfl
  | some x =>
    dsimp only
    split <;> rfl

theorem settleCount_eq (p : Prop) [Decidable p] (b : Bool) (m : Nat) :
    settleCount (decide p) b m = (if p then 2 else 3) + (if b then 15 else 0) + (m - 1) := by
  unfold settleCount
  cases b <;> simp [b2n]

/-- The combs at a decimation boundary (06 R150). -/
def Chan.comb1 : Int := word64 (c.i3 - c.d1)
def Chan.comb2 : Int := word64 (c.comb1 - c.d2)
def Chan.combed (n : Nat) : Int := word64 (c.comb2 - c.d3) / ((n * n * n : Nat) : Int)

theorem Chan.decimate_eq (n : Nat) : c.decimate n = ({ c with d1 := c.i3, d2 := c.comb1, d3 := c.comb2 }, c.combed n) := by
  unfold Chan.decimate
  simp only [wrap64_eq]
  rfl

/-- The channel with the combs moved on. -/
def Chan.boundary : Chan := { c with d1 := c.i3, d2 := c.comb1, d3 := c.comb2 }

/-- A result of the channel that takes a sample. -/
def Chan.resultOf (e : Chan) (n : Nat) : Result :=
  ⟨ch, e.boundary.notched a ch f (e.combed n), if a.arEn ch then f.gain else a.fixedGain ch,
    BitVec.ofNat 8 (e.boundary.tagSum a ch f (e.combed n) e.xfail), f.stamp, now, f.lastTick, false, (f.round, f.idx)⟩

theorem Chan.flushed_counted : (if c.flushed then
      { c with flushed := false, settle := settleCount (decide (f.place % a.fOsr ch = 0)) (a.fFir ch) (a.notchOf ch f.nc) } else c) =
    { c with flushed := false, settle := c.settleNow a ch f } := by
  unfold Chan.settleNow
  rw [settleCount_eq]
  split
  · rfl
  · next h => rw [← Bool.eq_false_of_not_eq_true h]

theorem Chan.integrate_eq (x : Int) : c.integrate x = { c with
    i1 := word64 (c.i1 + x), i2 := word64 (c.i2 + word64 (c.i1 + x)), i3 := word64 (c.i3 + word64 (c.i2 + word64 (c.i1 + x))) } := by
  unfold Chan.integrate word64
  simp only [wrap64_eq]

/-- The sample's tags and its code in a channel that is past its flush. -/
def Chan.summed : Chan := { c with
  ovrAcc := c.ovrAcc || f.ovr, deferAcc := c.deferAcc || f.defer || straddles fz (c.first.getD f.tick) f.tick, first := some (c.first.getD f.tick)
  }.integrate (f.scaled a ch)

/-- What a sample in the integrators brings. -/
def Chan.emerges : Chan × Option Result :=
  if (f.place + 1) % a.fOsr ch = 0 then
    ((c.boundary.emit a ch f (c.combed (a.fOsr ch)) c.xfail).1, some (c.resultOf a ch f now (a.fOsr ch)))
  else (c, none)

theorem Chan.summed_counted : ({ c.xfailAt now with flushed := false, settle := (c.xfailAt now).settleNow a ch f } : Chan).summed a ch f fz =
    c.entered a ch f fz now := by
  rw [Chan.summed, Chan.integrate_eq, Chan.entered, Chan.settleNow, Chan.settleNow, c.xfailAt_frame now, Bool.or_assoc]
  rfl

theorem Chan.feed_eq : c.feed a ch f fz now = (c.entered a ch f fz now).emerges a ch f now := by
  have hin : (if a.arEn ch then asl f.x (a.arGmax ch - f.scale) else f.x) = f.scaled a ch := by
    unfold Feedin.scaled
    rw [asl_eq]
  have hbody (u : Chan) : (if (f.place + 1) % a.fOsr ch = 0 then
      ((((u.decimate (a.fOsr ch)).1.emit a ch f (u.decimate (a.fOsr ch)).2 (u.decimate (a.fOsr ch)).1.xfail).1,
        some (⟨ch, ((u.decimate (a.fOsr ch)).1.emit a ch f (u.decimate (a.fOsr ch)).2 (u.decimate (a.fOsr ch)).1.xfail).2.1,
          if a.arEn ch then f.gain else a.fixedGain ch,
          BitVec.ofNat 8 ((u.decimate (a.fOsr ch)).1.emit a ch f (u.decimate (a.fOsr ch)).2 (u.decimate (a.fOsr ch)).1.xfail).2.2, f.stamp, now,
          f.lastTick, false, (f.round, f.idx)⟩ : Result)) : Chan × Option Result) else (u, none)) = u.emerges a ch f now := by
    unfold Chan.emerges Chan.resultOf Chan.boundary
    rw [Chan.decimate_eq, Chan.emit_eq]
  rw [← c.summed_counted, ← Chan.flushed_counted, ← hbody, Chan.summed, ← hin]
  rfl

end

end Sys2Proof.Machine
end



section
/-! PROOFS. The correction of a tick: what it changes, and what a conversion, a calibration and a check bring (05 R97, R101 to R107; 04 R85). -/

namespace Sys2Proof.Machine

open Sys2Proof

set_option Elab.async false

section
variable {s t : State}

/-! ## Channels and slices in their places -/

theorem vector_set_self {α : Type} {n : Nat} (v : Vector α n) (i : Fin n) (x : α) : (v.setIfInBounds i.val x)[i] = x := by
  show (v.setIfInBounds i.val x)[i.val] = x
  simp

theorem vector_set_other {α : Type} {n k : Nat} (v : Vector α n) {i : Fin n} (x : α) (h : i.val ≠ k) : (v.setIfInBounds k x)[i] = v[i] := by
  show (v.setIfInBounds k x)[i.val] = v[i.val]
  exact Vector.getElem_setIfInBounds_ne _ (Ne.symm h)

theorem Meas.chan_setChan_self (m : Meas) {c : Nat} (x : Chan) (h : c < 20) : (m.setChan c x).chan c = x :=
  ((m.setChan c x).chan_fin ⟨c, h⟩).trans (vector_set_self m.chans ⟨c, h⟩ x)

/-! ## What correction leaves alone -/

/-- What the correction of a position can change. -/
structure State.Adjusts (s t : State) : Prop where
  only : s.Only [.meas, .obs] t
  counters : s.CountersBut [.sarErr, .calReject, .trcDrop] t
  meas : t.meas = { s.meas with
    results := t.meas.results, slices := t.meas.slices, chans := t.meas.chans, sxWindow := t.meas.sxWindow, preload := t.meas.preload }
  results : ∃ l, t.meas.results = s.meas.results ++ l ∧ ∀ r ∈ l, r.tick = s.now

theorem State.Adjusts.now (h : s.Adjusts t) : t.now = s.now := congrArg Clock.tick (h.only.2 .clock (by decide))

theorem State.Adjusts.refl (s : State) : s.Adjusts s := ⟨.refl _ s, .refl _ s, rfl, [], (List.append_nil _).symm, nofun⟩

theorem State.Adjusts.trans {u : State} (h : s.Adjusts t) (g : t.Adjusts u) : s.Adjusts u where
  only := h.only.trans g.only
  counters := h.counters.trans g.counters
  meas := by rw [g.meas, h.meas]
  results := by
    obtain ⟨l, hl, hlt⟩ := h.results
    obtain ⟨k, hk, hkt⟩ := g.results
    refine ⟨l ++ k, by rw [hk, hl, List.append_assoc], fun r hr => ?_⟩
    rcases List.mem_append.1 hr with hr | hr
    · exact hlt r hr
    · exact (hkt r hr).trans h.now

theorem State.Adjusts.obs {o : Obs} (h : s.CountersBut [.sarErr, .calReject, .trcDrop] (s.setObs o)) : s.Adjusts (s.setObs o) :=
  ⟨(State.setObs_only s o).mono (by simp), h, rfl, [], (List.append_nil _).symm, nofun⟩

theorem State.Adjusts.channels (s : State) (cs : Vector Chan 20) (w : Option SxWindow) :
    s.Adjusts (s.setMeas { s.meas with chans := cs, sxWindow := w }) :=
  ⟨(s.setMeas_only _).mono (by simp), .refl _ s, rfl, [], (List.append_nil _).symm, nofun⟩

theorem State.Adjusts.slices (s : State) (xs : Vector Slice 4) (p : Preload) :
    s.Adjusts (s.setMeas { s.meas with slices := xs, preload := p }) :=
  ⟨(s.setMeas_only _).mono (by simp), .refl _ s, rfl, [], (List.append_nil _).symm, nofun⟩

theorem State.Adjusts.count (s : State) {c : Ctr} (h : c ∈ [Ctr.sarErr, .calReject, .trcDrop]) : s.Adjusts (s.count c) :=
  .obs ((s.countN_counters c 1).mono (by simpa using h))

theorem State.Adjusts.emit (s : State) (i : Island) (typ hdr : Nat) (more : List Nat) : s.Adjusts (s.emit i typ hdr more) := by
  obtain ⟨o, ho, htr⟩ := s.emit_eq i typ hdr more
  rw [ho]
  exact .obs (htr.mono (by simp))

theorem State.sarCheck_adjusts (s : State) (sl nth : Nat) (c : Conv) : s.Adjusts (s.sarCheck sl nth c) := by
  unfold State.sarCheck
  split
  · exact (State.Adjusts.slices s _ s.meas.preload).trans (.count _ (by simp))
  · exact .refl s

theorem State.calOffGain_adjusts (s : State) (sl tick : Nat) (p n : Int) : s.Adjusts (s.calOffGain sl tick p n) := by
  unfold State.calOffGain
  dsimp only
  split
  · exact (State.Adjusts.slices s _ _).trans (.emit ..)
  · exact ((State.Adjusts.slices s _ s.meas.preload).trans (.count _ (by simp))).trans (.emit ..)

theorem State.calSkew_adjusts (s : State) (sl tick : Nat) (u d : Int) : s.Adjusts (s.calSkew sl tick u d) := by
  unfold State.calSkew
  dsimp only
  split
  · exact (State.Adjusts.slices s _ _).trans (.emit ..)
  · exact ((State.Adjusts.slices s _ s.meas.preload).trans (.count _ (by simp))).trans (.emit ..)

theorem State.calibrate_adjusts (s : State) (sl tick : Nat) (c : Conv) : s.Adjusts (s.calibrate sl tick c) := by
  have hput (y : Slice) : s.Adjusts (s.setMeas (s.meas.setSlice sl y)) := .slices s _ s.meas.preload
  have hend (u : State) (h : s.Adjusts u) : s.Adjusts (u.setMeas u.meas.storeCoef) := h.trans (.slices u u.meas.slices _)
  unfold State.calibrate
  refine hend _ ?_
  split
  · exact hput _
  · split
    · split
      · exact (hput _).trans (State.calOffGain_adjusts ..)
      · exact hput _
    · split
      · exact hput _
      · split
        · exact (hput _).trans (State.calSkew_adjusts ..)
        · exact hput _

/-- What a channel's filter gives out bears the present tick. -/
theorem Chan.feed_tick {c : Chan} {a : Alm} {ch : Nat} {f : Feedin} {fz : List Nat} {now : Nat} {x : Chan} {r : Result}
    (h : c.feed a ch f fz now = (x, some r)) : r.tick = now := by
  rw [Chan.feed_eq, Chan.emerges] at h
  split at h
  · obtain ⟨-, hr⟩ := Prod.mk.inj h
    rw [← Option.some.inj hr]
    rfl
  · exact nomatch (Prod.mk.inj h).2

theorem State.feedChan_adjusts (s : State) (ch : Nat) (f : Feedin) : s.Adjusts (s.feedChan ch f) := by
  unfold State.feedChan
  dsimp only
  generalize hx : ((s.meas.sxSample ch f.tick f.x f.ovr).chan ch).feed _ _ _ _ _ = x
  obtain ⟨c, _ | r⟩ := x
  · exact .channels s _ _
  · have hr : r.tick = s.now := Chan.feed_tick hx
    exact ⟨(s.setMeas_only _).mono (by simp), .refl _ s, rfl, [{ r with closing := s.mgmt.inForce.isPrimary ch }], rfl, by simpa using hr⟩

theorem State.enter_adjusts (s : State) (p : Sampled) (ch half idx : Nat) (r : RawRef) (reused : Bool) :
    s.Adjusts (s.enter p ch half idx r reused) := by
  have hchan (u : State) (c : Chan) : u.Adjusts (u.setMeas (u.meas.setChan ch c)) := .channels u _ u.meas.sxWindow
  have hfirst (c : Chan) (bad : Bool) : s.Adjusts (s.setMeas ((s.meas.setChan ch c).sxSpoil ch p.tick bad)) := .channels s _ _
  unfold State.enter
  extract_lets a c₀ c s₁ f
  have h₁ : s.Adjusts s₁ := hfirst _ _
  clear_value c f s₁
  split
  · split
    · exact h₁.trans (hchan _ _)
    · exact (h₁.trans (hchan _ _)).trans (State.feedChan_adjusts ..)
  · split
    · split
      extract_lets e es s₂
      have h₂ : s.Adjusts s₂ := h₁.trans (hchan _ _)
      clear_value es s₂
      split
      · exact h₂
      · exact h₂.trans (State.feedChan_adjusts ..)
    · exact h₁.trans (State.feedChan_adjusts ..)

theorem State.correctOne_adjusts (s : State) (p : Sampled) : s.Adjusts (s.correctOne p) := by
  have hchan (u : State) (c : Chan) (ch : Nat) : u.Adjusts (u.setMeas (u.meas.setChan ch c)) := .channels u _ u.meas.sxWindow
  unfold State.correctOne
  split
  · exact (State.sarCheck_adjusts ..).trans (State.enter_adjusts ..)
  · exact State.enter_adjusts ..
  · exact (State.sarCheck_adjusts ..).trans (hchan _ _ _)
  · exact (State.sarCheck_adjusts ..).trans (State.calibrate_adjusts ..)
  · exact .refl s

/-! ## The commits of a tick -/

/-- What commits leave: nothing but the queue and its marks has changed, and what joined it was committed. -/
structure State.Commits (es : List QEntry) (s t : State) : Prop where
  only : s.Only [.meas, .obs] t
  counters : s.CountersBut [.qdrop, .trcDrop] t
  meas : t.meas = { s.meas with queue := t.meas.queue, qovf := t.meas.qovf, qRing := t.meas.qRing }
  queue : ∃ l, t.meas.queue = s.meas.queue ++ l ∧ ∀ e ∈ l, e ∈ es

theorem State.Commits.refl (es : List QEntry) (s : State) : State.Commits es s s :=
  ⟨.refl _ s, .refl _ s, rfl, [], (List.append_nil _).symm, nofun⟩

theorem State.Commits.trans {es : List QEntry} {u : State} (h : State.Commits es s t) (g : State.Commits es t u) : State.Commits es s u where
  only := h.only.trans g.only
  counters := h.counters.trans g.counters
  meas := by rw [g.meas, h.meas]
  queue := by
    obtain ⟨l, hl, hle⟩ := h.queue
    obtain ⟨k, hk, hke⟩ := g.queue
    exact ⟨l ++ k, by rw [hk, hl, List.append_assoc], fun e he => (List.mem_append.1 he).elim (hle e) (hke e)⟩

theorem State.commit_room {e : QEntry} (h : s.meas.queue.length < 512) : ∃ o, s.OnlyTrace (s.setObs o) ∧ s.commit e = (s.setMeas { s.meas with
    queue := s.meas.queue ++ [e]
    qRing := if s.meas.queue.length + 1 = s.mgmt.inForce.qIrqLvl then some e.commit else s.meas.qRing }).setObs o := by
  obtain ⟨o, ho, htr⟩ := State.emit_eq (s.setMeas { s.meas with
    queue := s.meas.queue ++ [e]
    qRing := if s.meas.queue.length + 1 = s.mgmt.inForce.qIrqLvl then some e.commit else s.meas.qRing })
    .meas 6 (e.tags.toNat + 256 * e.chan.toNat + 8192 * b2n false) [e.value.toNat, stamp27 e.stamp]
  refine ⟨o, htr, ?_⟩
  unfold State.commit
  dsimp only
  rw [if_pos h]
  exact ho

theorem State.commit_full {e : QEntry} (h : ¬ s.meas.queue.length < 512) : ∃ o, (s.count .qdrop).OnlyTrace (s.setObs o) ∧
    s.commit e = (s.setMeas { s.meas with qovf := true }).setObs o := by
  obtain ⟨o, ho, htr⟩ := State.emit_eq ((s.setMeas { s.meas with qovf := true }).count .qdrop) .meas 6
    (e.tags.toNat + 256 * e.chan.toNat + 8192 * b2n true) [e.value.toNat, stamp27 e.stamp]
  refine ⟨o, htr, ?_⟩
  unfold State.commit
  dsimp only
  rw [if_neg h]
  exact ho

theorem State.commit_commits (s : State) {e : QEntry} {es : List QEntry} (he : e ∈ es) : State.Commits es s (s.commit e) := by
  by_cases h : s.meas.queue.length < 512
  · obtain ⟨o, htr, ho⟩ := State.commit_room (e := e) h
    rw [ho]
    exact ⟨((s.setMeas_only _).mono (by simp)).trans ((State.setObs_only _ o).mono (by simp)), htr.mono (by simp), rfl,
      [e], rfl, by simpa using he⟩
  · obtain ⟨o, htr, ho⟩ := State.commit_full (e := e) h
    rw [ho]
    exact ⟨((s.setMeas_only _).mono (by simp)).trans ((State.setObs_only _ o).mono (by simp)),
      ((s.countN_counters .qdrop 1).mono (by simp)).trans (htr.mono (by simp)), rfl, [], (List.append_nil _).symm, nofun⟩

theorem mem_insertBy {α : Type} {le : α → α → Bool} {x y : α} {l : List α} : y ∈ insertBy le x l ↔ y = x ∨ y ∈ l := by
  induction l with
  | nil => simp [insertBy]
  | cons z l ih =>
    unfold insertBy
    split
    · simp
    · simp [ih, or_left_comm]

theorem mem_sortBy {α : Type} {le : α → α → Bool} {y : α} {l : List α} : y ∈ sortBy le l ↔ y ∈ l := by
  induction l with
  | nil => simp [sortBy]
  | cons z l ih =>
    show y ∈ insertBy le z (sortBy le l) ↔ _
    rw [mem_insertBy, ih, List.mem_cons]

theorem State.commitAll_commits (s : State) (es : List QEntry) : State.Commits es s (s.commitAll es) := by
  unfold State.commitAll
  refine List.foldlRecOn (motive := State.Commits es s) _ _ (.refl es s) fun t ht e he => ?_
  exact ht.trans (t.commit_commits (mem_sortBy.1 he))

/-! ## The correction of a tick -/

/-- The state in which the positions of the tick before are corrected. -/
def State.unsampled (s : State) : State := s.setMeas { s.meas with sampled := [], results := [] }

/-- The positions corrected. -/
def State.adjusted (s : State) : State := s.meas.sampled.foldl State.correctOne s.unsampled

/-- The results that emerge, in commit order. -/
def State.emerged (s : State) : List Result := sortBy (resultLe s.adjusted.now) s.adjusted.meas.results

def State.gathered (s : State) : State := s.adjusted.setMeas { s.adjusted.meas with
  results := s.meas.results ++ s.emerged, sxEntries := s.adjusted.meas.sxEntries.filter fun e => decide (s.adjusted.now < e.2) }

/-- The entries of a tick. -/
def State.toCommit (s : State) : List QEntry :=
  (s.emerged.filter fun r => s.gathered.mgmt.inForce.qEn r.chan).map (fun r => r.entry s.gathered.now) ++
    (s.adjusted.meas.sxEntries.filter fun e => decide (e.2 ≤ s.adjusted.now)).map fun e => { e.1 with commit := s.gathered.now }

theorem State.correct_eq (s : State) : s.correct = s.gathered.commitAll s.toCommit := rfl

theorem State.adjusted_adjusts (s : State) : s.unsampled.Adjusts s.adjusted :=
  List.foldlRecOn (motive := s.unsampled.Adjusts) _ _ (.refl _) fun u hu p _ => hu.trans (u.correctOne_adjusts p)

theorem State.adjusted_now (s : State) : s.adjusted.now = s.now := s.adjusted_adjusts.now

theorem State.adjusted_inForce (s : State) : s.adjusted.mgmt = s.mgmt := s.adjusted_adjusts.only.2 .mgmt (by decide)

theorem State.emerged_tick {r : Result} (h : r ∈ s.emerged) : r.tick = s.now := by
  obtain ⟨l, hl, hlt⟩ := s.adjusted_adjusts.results
  refine hlt r ?_
  rw [show s.unsampled.meas.results = [] from rfl, List.nil_append] at hl
  exact hl ▸ mem_sortBy.1 h

theorem State.toCommit_now {e : QEntry} (h : e ∈ s.toCommit) : e.commit = s.now := by
  rcases List.mem_append.1 h with h | h
  · obtain ⟨r, -, rfl⟩ := List.mem_map.1 h
    exact s.adjusted_now
  · obtain ⟨x, -, rfl⟩ := List.mem_map.1 h
    exact s.adjusted_now

/-! ## A sample that neither pairs nor is deskewed -/

/-- The channel once it has taken a sample. -/
def Chan.fed (c : Chan) (a : Alm) (ch : Nat) (f : Feedin) (fz : List Nat) (now : Nat) : Chan :=
  let e := c.entered a ch f fz now
  if (f.place + 1) % a.fOsr ch = 0 then
    (e.boundary.emit a ch f (e.combed (a.fOsr ch)) e.xfail).1.rangeCheck a ch (e.boundary.notched a ch f (e.combed (a.fOsr ch)))
  else e

/-- The result that a sample brings, if any. -/
def Chan.gives (c : Chan) (a : Alm) (ch : Nat) (f : Feedin) (fz : List Nat) (now : Nat) : List Result :=
  if (f.place + 1) % a.fOsr ch = 0 then
    [{ (c.entered a ch f fz now).resultOf a ch f now (a.fOsr ch) with closing := a.isPrimary ch }] else []

theorem State.feedChan_eq (s : State) (ch : Nat) (f : Feedin) : ∃ w, s.feedChan ch f = s.setMeas { s.meas with
    sxWindow := w, chans := s.meas.chans.setIfInBounds ch ((s.meas.chan ch).fed s.mgmt.inForce ch f s.meas.round.freezes s.now)
    results := s.meas.results ++ (s.meas.chan ch).gives s.mgmt.inForce ch f s.meas.round.freezes s.now } := by
  have hc : (s.meas.sxSample ch f.tick f.x f.ovr).chan ch = s.meas.chan ch := rfl
  refine ⟨(s.meas.sxSample ch f.tick f.x f.ovr).sxWindow, ?_⟩
  unfold State.feedChan
  dsimp only
  rw [hc, Chan.feed_eq, Chan.fed, Chan.gives]
  unfold Chan.emerges
  by_cases h : (f.place + 1) % s.mgmt.inForce.fOsr ch = 0
  · rw [if_pos h, if_pos h, if_pos h]
    rfl
  · rw [if_neg h, if_neg h, if_neg h, List.append_nil]
    rfl

/-- The sample of a conversion on its way to the decimator. -/
def Sampled.feedin (p : Sampled) (idx : Nat) (x : Int × Bool) : Feedin :=
  ⟨x.1, p.gain, p.gain, x.2, false, p.sl, p.stamp, p.tick, p.round, idx, p.nc, p.tick⟩

/-- After a conversion's redundancy check only marks of its slice have changed, and the count of a failure. -/
def State.sarChecked (s : State) (c : Conv) (y : Slice) (sl : Nat) : State :=
  (s.setMeas (s.meas.setSlice sl y)).setObs (if c.disagree then s.obs.count .sarErr 1 else s.obs)

theorem Meas.setSlice_slice (m : Meas) (sl : Nat) : m.setSlice sl (m.slice sl) = m := by
  have hv : m.slices.setIfInBounds sl (m.slice sl) = m.slices := by
    refine Vector.ext fun i hi => ?_
    rw [Vector.getElem_setIfInBounds]
    split
    · next he => subst he; simp [Meas.slice, hi]
    · rfl
  rw [Meas.setSlice, hv]

theorem State.sarCheck_eq (s : State) (sl nth : Nat) (c : Conv) : ∃ err fl,
    s.sarCheck sl nth c = s.sarChecked c { s.meas.slice sl with lastErr := err, failed := fl } sl := by
  unfold State.sarCheck State.sarChecked
  cases c.disagree
  · refine ⟨(s.meas.slice sl).lastErr, (s.meas.slice sl).failed, ?_⟩
    have hself : s.meas.setSlice sl { s.meas.slice sl with lastErr := (s.meas.slice sl).lastErr, failed := (s.meas.slice sl).failed } = s.meas :=
      Meas.setSlice_slice _ _
    rw [hself]
    rfl
  · exact ⟨_, _, rfl⟩

theorem State.enter_direct (s : State) (p : Sampled) {ch idx : Nat} {r : RawRef} (hch : ch < 20) (he : s.mgmt.inForce.excModeInUse ch ≠ 3)
    (hi : s.meas.map.interleaved ch = false) : ∃ w, s.enter p ch 0 idx r false =
      s.setMeas { s.meas with
        sxWindow := w
        chans := s.meas.chans.setIfInBounds ch (((s.meas.chan ch).remember 0 r).fed s.mgmt.inForce ch
          ⟨r.x, r.gain, r.scale, r.ovr, false, p.sl, p.stamp, p.tick, p.round, idx, p.nc, p.tick⟩ s.meas.round.freezes s.now)
        results := s.meas.results ++ ((s.meas.chan ch).remember 0 r).gives s.mgmt.inForce ch
          ⟨r.x, r.gain, r.scale, r.ovr, false, p.sl, p.stamp, p.tick, p.round, idx, p.nc, p.tick⟩ s.meas.round.freezes s.now } := by
  let u := s.setMeas ((s.meas.setChan ch ((s.meas.chan ch).remember 0 r)).sxSpoil ch p.tick (r.ovr || false))
  obtain ⟨w, hw⟩ := u.feedChan_eq ch ⟨r.x, r.gain, r.scale, r.ovr, false, p.sl, p.stamp, p.tick, p.round, idx, p.nc, p.tick⟩
  have hu : u.meas.chan ch = (s.meas.chan ch).remember 0 r := Meas.chan_setChan_self _ _ hch
  refine ⟨w, ?_⟩
  have hen : s.enter p ch 0 idx r false =
      u.feedChan ch ⟨r.x, r.gain, r.scale, r.ovr, false, p.sl, p.stamp, p.tick, p.round, idx, p.nc, p.tick⟩ := by
    unfold State.enter
    dsimp only
    rw [if_neg he, if_neg (by exact ne_true_of_eq_false hi)]
    rfl
  rw [hen, hw, hu, show u.meas.chans = s.meas.chans.setIfInBounds ch _ from rfl, Vector.setIfInBounds_setIfInBounds]
  rfl

theorem State.correctOne_direct (s : State) {sl ch idx q run : Nat} {c : Conv} {g tick : Nat} {stamp : Count48} {round nc nth : Nat}
    (hch : ch < 20) (he : s.mgmt.inForce.excModeInUse ch ≠ 3) (hi : s.meas.map.interleaved ch = false) {x : Int} {ovr : Bool}
    (hx : (s.meas.slice sl).correct s.meas.cal sl g tick c = (x, ovr)) : ∃ w xs,
    s.correctOne ⟨sl, .slot ch 0 idx q run, .conv c, g, tick, stamp, round, nc, nth⟩ =
      (s.setMeas { s.meas with
        sxWindow := w, slices := xs
        chans := s.meas.chans.setIfInBounds ch (((s.meas.chan ch).remember 0 ⟨x, g, g, ovr⟩).fed s.mgmt.inForce ch
          ⟨x, g, g, ovr, false, sl, stamp, tick, round, idx, nc, tick⟩ s.meas.round.freezes s.now)
        results := s.meas.results ++ ((s.meas.chan ch).remember 0 ⟨x, g, g, ovr⟩).gives s.mgmt.inForce ch
          ⟨x, g, g, ovr, false, sl, stamp, tick, round, idx, nc, tick⟩ s.meas.round.freezes s.now }).setObs
        (if c.disagree then s.obs.count .sarErr 1 else s.obs) := by
  obtain ⟨err, fl, hs⟩ := s.sarCheck_eq sl nth c
  have h1 : s.correctOne ⟨sl, .slot ch 0 idx q run, .conv c, g, tick, stamp, round, nc, nth⟩ =
      (s.sarCheck sl nth c).enter ⟨sl, .slot ch 0 idx q run, .conv c, g, tick, stamp, round, nc, nth⟩ ch 0 idx ⟨x, g, g, ovr⟩ false := by
    unfold State.correctOne
    dsimp only
    rw [hx]
  let u := s.sarChecked c { s.meas.slice sl with lastErr := err, failed := fl } sl
  obtain ⟨w, hw⟩ := u.enter_direct (r := ⟨x, g, g, ovr⟩) (idx := idx)
    ⟨sl, .slot ch 0 idx q run, .conv c, g, tick, stamp, round, nc, nth⟩ hch (by exact he) (by exact hi)
  refine ⟨w, u.meas.slices, ?_⟩
  rw [h1, hs, hw]
  rfl

theorem Chan.fed_on {c : Chan} {a : Alm} {ch : Nat} {f : Feedin} {fz : List Nat} {now : Nat} (h : (f.place + 1) % a.fOsr ch = 0) :
    c.fed a ch f fz now =
      let e := c.entered a ch f fz now
      let z := e.combed (a.fOsr ch)
      { e with
        d1 := e.i3, d2 := e.comb1, d3 := e.comb2, zh := e.boundary.firLine a ch f z, nh := e.boundary.notchLine a ch f z
        settle := e.settle - 1, ovrAcc := false, deferAcc := false, first := none, zLast := z, resGain := f.gain, lastBound := (f.round, f.idx)
        sensorRange := decide (e.boundary.notched a ch f z / 256 < a.rngLo ch ∨ a.rngHi ch < e.boundary.notched a ch f z / 256) } := by
  rw [Chan.fed, if_pos h, Chan.emit_eq]
  unfold Chan.rangeCheck
  rw [asr_eq]
  rfl

theorem Chan.fed_off {c : Chan} {a : Alm} {ch : Nat} {f : Feedin} {fz : List Nat} {now : Nat} (h : ¬ (f.place + 1) % a.fOsr ch = 0) :
    c.fed a ch f fz now = c.entered a ch f fz now := if_neg h

theorem Chan.fed_prevNorm (c : Chan) (a : Alm) (ch : Nat) (f : Feedin) (fz : List Nat) (now : Nat) :
    (c.fed a ch f fz now).prevNorm = c.prevNorm := by
  by_cases h : (f.place + 1) % a.fOsr ch = 0
  · rw [Chan.fed_on h]
    rfl
  · rw [Chan.fed_off h]
    rfl

theorem Chan.fed_sums (c : Chan) (a : Alm) (ch : Nat) (f : Feedin) (fz : List Nat) (now : Nat) :
    ((c.fed a ch f fz now).i1, (c.fed a ch f fz now).i2, (c.fed a ch f fz now).i3) = (c.sum1 a ch f, c.sum2 a ch f, c.sum3 a ch f) := by
  by_cases h : (f.place + 1) % a.fOsr ch = 0
  · rw [Chan.fed_on h]
    rfl
  · rw [Chan.fed_off h]
    rfl

theorem sortBy_gives (le : Result → Result → Bool) (c : Chan) (a : Alm) (ch : Nat) (f : Feedin) (fz : List Nat) (now : Nat) :
    sortBy le (c.gives a ch f fz now) = c.gives a ch f fz now := by
  unfold Chan.gives
  split <;> rfl

/-! ## The value of a conversion -/

/-- The clamp code of a sign. -/
def limitCode (negative : Bool) : Int := if negative then -0x800000 else 0x7FFFFF

/-- A conversion's code and OVR, where the correction's formula gives `v` (05 R101, R102). -/
def judgedCode (c : Conv) (v : Int) : Int × Bool :=
  if c.disagree then (limitCode (decide (c.code.toInt < 0)), true) else if c.overload then (limitCode c.negative, true)
  else if 0x7FFFFF < v then (0x7FFFFF, true) else if v < -0x800000 then (-0x800000, true) else (v, false)

/-- The formula of R102. -/
def Slice.formula (x : Slice) (cal : List Byte) (sl g : Nat) (c : Conv) : Int :=
  (c.code.toInt * 64 - x.offAcc / 8) * (x.gainAcc / 8) / 8388608 * Config.calGain cal sl g / 8388608 - Config.calOff cal sl g

theorem Slice.correct_eq {x : Slice} (h : x.old = none) (cal : List Byte) (sl g tick : Nat) (c : Conv) :
    x.correct cal sl g tick c = judgedCode c (x.formula cal sl g c) := by
  have hco : x.coefAt tick = (x.offAcc, x.gainAcc, x.skewAcc) := by
    unfold Slice.coefAt
    rw [h]
  have hv : asr (asr ((asl (signed 18 c.code.toNat) 6 - asr x.offAcc 3) * asr x.gainAcc 3) 23 * Config.calGain cal sl g) 23 -
      Config.calOff cal sl g = x.formula cal sl g c := by
    rw [signed_18, asl_eq, asr_eq, asr_eq, asr_eq, asr_eq]
    rfl
  unfold Slice.correct judgedCode convClamp
  rw [hco]
  dsimp only
  rw [hv, signed_18]
  cases c.disagree
  · cases c.overload <;> rfl
  · rfl

/-! ## One slot -/

/-- The feed of a slot's sample. -/
def slotFeed (sl idx g tick : Nat) (stamp : Count48) (round nc : Nat) (x : Int) (ovr : Bool) : Feedin :=
  ⟨x, g, g, ovr, false, sl, stamp, tick, round, idx, nc, tick⟩

/-- One slot was sampled, on a channel that neither pairs nor is deskewed. -/
structure State.OneSlot (s : State) (ch : Nat) (c : Conv) (f : Feedin) : Prop where
  inRange : ch < 20
  adjusted : ∃ w xs, s.adjusted = (s.setMeas { s.meas with
      sampled := [], sxWindow := w, slices := xs
      chans := s.meas.chans.setIfInBounds ch (((s.meas.chan ch).remember 0 ⟨f.x, f.gain, f.gain, f.ovr⟩).fed s.mgmt.inForce ch f
        s.meas.round.freezes s.now)
      results := ((s.meas.chan ch).remember 0 ⟨f.x, f.gain, f.gain, f.ovr⟩).gives s.mgmt.inForce ch f s.meas.round.freezes s.now }).setObs
    (if c.disagree then s.obs.count .sarErr 1 else s.obs)

theorem State.oneSlot {sl ch idx q run : Nat} {c : Conv} {g tick : Nat} {stamp : Count48} {round nc nth : Nat} (hch : ch < 20)
    (hs : s.meas.sampled = [⟨sl, .slot ch 0 idx q run, .conv c, g, tick, stamp, round, nc, nth⟩])
    (he : s.mgmt.inForce.excModeInUse ch ≠ 3) (hi : s.meas.map.interleaved ch = false) {x : Int} {ovr : Bool}
    (hx : (s.meas.slice sl).correct s.meas.cal sl g tick c = (x, ovr)) : s.OneSlot ch c (slotFeed sl idx g tick stamp round nc x ovr) := by
  refine ⟨hch, ?_⟩
  obtain ⟨w, xs, h⟩ := s.unsampled.correctOne_direct (sl := sl) (idx := idx) (q := q) (run := run) (stamp := stamp) (round := round) (nc := nc)
    (nth := nth) hch he hi hx
  refine ⟨w, xs, ?_⟩
  unfold State.adjusted
  rw [hs]
  exact h

section
variable {ch : Nat} {c : Conv} {f : Feedin}

theorem State.OneSlot.results (h : s.OneSlot ch c f) : s.adjusted.meas.results =
    ((s.meas.chan ch).remember 0 ⟨f.x, f.gain, f.gain, f.ovr⟩).gives s.mgmt.inForce ch f s.meas.round.freezes s.now := by
  obtain ⟨w, xs, ha⟩ := h.adjusted
  rw [ha]
  rfl

theorem State.OneSlot.emerged (h : s.OneSlot ch c f) : s.emerged =
    ((s.meas.chan ch).remember 0 ⟨f.x, f.gain, f.gain, f.ovr⟩).gives s.mgmt.inForce ch f s.meas.round.freezes s.now := by
  unfold State.emerged
  rw [h.results]
  exact sortBy_gives ..

theorem State.OneSlot.chan (h : s.OneSlot ch c f) : s.correct.meas.chan ch =
    ((s.meas.chan ch).remember 0 ⟨f.x, f.gain, f.gain, f.ovr⟩).fed s.mgmt.inForce ch f s.meas.round.freezes s.now := by
  obtain ⟨w, xs, ha⟩ := h.adjusted
  have hc := (s.gathered.commitAll_commits s.toCommit).meas
  have hg : s.gathered.meas.chans = s.meas.chans.setIfInBounds ch _ := congrArg (fun u : State => u.meas.chans) ha
  rw [State.correct_eq, hc]
  unfold Meas.chan
  dsimp only
  rw [hg]
  exact s.meas.chan_setChan_self _ h.inRange

theorem State.OneSlot.obs (h : s.OneSlot ch c f) : s.gathered.obs = if c.disagree then s.obs.count .sarErr 1 else s.obs := by
  obtain ⟨w, xs, ha⟩ := h.adjusted
  exact congrArg State.obs ha

end

/-! ## A calibration conversion -/

/-- A slice after an offset and gain measurement, and whether it was rejected (05 R105, Table 5-3). -/
def Slice.judgeOg (x : Slice) (tick : Nat) (p n : Int) : Slice × Bool :=
  let ok := x.ogOk (asr (p + n) 1) (mGainOf p n)
  if ok.1 && ok.2 then ({ x with
    offAcc := x.offAcc + asr (asl (asr (p + n) 1) 3 - x.offAcc) 3, gainAcc := x.gainAcc + asr (asl (mGainOf p n) 3 - x.gainAcc) 3
    old := some (x.offAcc, x.gainAcc, x.skewAcc, tick + 2), rejOg := 0 }, false)
  else ({ x with rejOg := x.rejOg + 1, failed := if 1 ≤ x.rejOg then some 1 else x.failed }, true)

/-- A slice after a skew measurement, and whether it was rejected. -/
def Slice.judgeSkew (x : Slice) (tick : Nat) (u d : Int) : Slice × Bool :=
  if x.skewOk (skewOf u d) then ({ x with
    skewAcc := x.skewAcc + asr (skewOf u d - x.skewAcc) 3, old := some (x.offAcc, x.gainAcc, x.skewAcc, tick + 2), rejSkew := 0 }, false)
  else ({ x with rejSkew := x.rejSkew + 1, failed := if 1 ≤ x.rejSkew then some 2 else x.failed }, true)

/-- The slice at the next of its four inputs. -/
def Slice.onward (x : Slice) : Slice := { x with phase := (x.phase + 1) % 4 }

/-- A slice after a calibration conversion of code `v`, and whether a measurement was rejected (05 R104, R105). -/
def Slice.calNext (x : Slice) (tick : Nat) (v : Int) : Slice × Bool :=
  if x.phase % 4 = 0 then ({ x with latestP := some v }.onward, false)
  else if x.phase % 4 = 1 then (x.latestP.elim (x.onward, false) fun p => x.onward.judgeOg tick p v)
  else if x.phase % 4 = 2 then ({ x with latestU := some v }.onward, false)
  else x.latestU.elim (x.onward, false) fun u => x.onward.judgeSkew tick u v

/-- The state once slice `sl` has become `y`, with the count of a rejected measurement. -/
def State.Judged (s t : State) (sl : Nat) (y : Slice × Bool) : Prop :=
  ∃ m o, t = (s.setMeas m).setObs o ∧ m.storeCoef = (s.meas.setSlice sl y.1).storeCoef ∧
    (if y.2 then s.count .calReject else s).OnlyTrace (s.setObs o)

theorem State.Judged.quiet (s : State) (sl : Nat) (y : Slice) : s.Judged (s.setMeas (s.meas.setSlice sl y)) sl (y, false) :=
  ⟨_, s.obs, rfl, rfl, .refl _ s⟩

theorem State.calOffGain_judged (s : State) (sl tick : Nat) (p n : Int) :
    s.Judged (s.calOffGain sl tick p n) sl ((s.meas.slice sl).judgeOg tick p n) := by
  unfold State.calOffGain Slice.judgeOg
  dsimp only
  split
  · obtain ⟨o, ho, htr⟩ := State.emit_eq (s.setMeas (s.meas.setSlice sl _).storeCoef) .meas 0xE (sl + 4 * 0) [unsignedOf 32 (asr (p + n) 1)]
    exact ⟨_, o, ho, rfl, htr⟩
  · obtain ⟨o, ho, htr⟩ := State.emit_eq ((s.setMeas (s.meas.setSlice sl _)).count .calReject) .meas 0xE (sl + 4 * 1) [unsignedOf 32 _]
    exact ⟨_, o, ho, rfl, htr⟩

theorem State.calSkew_judged (s : State) (sl tick : Nat) (u d : Int) :
    s.Judged (s.calSkew sl tick u d) sl ((s.meas.slice sl).judgeSkew tick u d) := by
  unfold State.calSkew Slice.judgeSkew
  dsimp only
  split
  · obtain ⟨o, ho, htr⟩ := State.emit_eq (s.setMeas (s.meas.setSlice sl _).storeCoef) .meas 0xE (sl + 4 * 0) [unsignedOf 32 (skewOf u d)]
    exact ⟨_, o, ho, rfl, htr⟩
  · obtain ⟨o, ho, htr⟩ := State.emit_eq ((s.setMeas (s.meas.setSlice sl _)).count .calReject) .meas 0xE (sl + 4 * 1) [unsignedOf 32 _]
    exact ⟨_, o, ho, rfl, htr⟩

theorem Meas.slice_setSlice_self (m : Meas) {sl : Nat} (x : Slice) (h : sl < 4) : (m.setSlice sl x).slice sl = x :=
  ((m.setSlice sl x).slice_eq ⟨sl, h⟩).trans (vector_set_self m.slices ⟨sl, h⟩ x)

theorem State.Judged.after {t : State} {sl : Nat} {x : Slice} {y : Slice × Bool} (h : (s.setMeas (s.meas.setSlice sl x)).Judged t sl y) :
    s.Judged t sl y := by
  obtain ⟨m, o, ht, hm, htr⟩ := h
  refine ⟨m, o, ht, hm.trans ?_, ?_⟩
  · show ({ s.meas with slices := (s.meas.slices.setIfInBounds sl x).setIfInBounds sl y.1 } : Meas).storeCoef = _
    rw [Vector.setIfInBounds_setIfInBounds]
    rfl
  · cases h2 : y.2 <;> rw [h2] at htr <;> exact htr

theorem elim_some {α β : Type} {o : Option α} {x : α} (h : o = some x) (e : β) (f : α → β) : o.elim e f = f x := by
  rw [h]
  rfl

theorem elim_none {α β : Type} {o : Option α} (h : o = none) (e : β) (f : α → β) : o.elim e f = e := by
  rw [h]
  rfl

theorem State.calibrate_eq (s : State) {sl : Nat} (tick : Nat) (c : Conv) (h : sl < 4) : ∃ o,
    s.calibrate sl tick c = (s.setMeas (s.meas.setSlice sl ((s.meas.slice sl).calNext tick (convCode c)).1).storeCoef).setObs o ∧
    (if ((s.meas.slice sl).calNext tick (convCode c)).2 then s.count .calReject else s).OnlyTrace (s.setObs o) := by
  have hend {t : State} {y : Slice × Bool} (h : s.Judged t sl y) : ∃ o,
      t.setMeas t.meas.storeCoef = (s.setMeas (s.meas.setSlice sl y.1).storeCoef).setObs o ∧
      (if y.2 then s.count .calReject else s).OnlyTrace (s.setObs o) := by
    obtain ⟨m, o, rfl, hm, htr⟩ := h
    refine ⟨o, ?_, htr⟩
    rw [← hm]
    rfl
  have hself (x : Slice) : (s.setMeas (s.meas.setSlice sl x)).meas.slice sl = x := s.meas.slice_setSlice_self x h
  unfold State.calibrate Slice.calNext
  dsimp only
  split
  · exact hend (.quiet s sl _)
  · split
    · split
      · next p hp =>
        rw [elim_some hp]
        refine hend (State.Judged.after (x := (s.meas.slice sl).onward) ?_)
        have := State.calOffGain_judged (s.setMeas (s.meas.setSlice sl (s.meas.slice sl).onward)) sl tick p (convCode c)
        rw [hself] at this
        exact this
      · next hp =>
        rw [elim_none hp]
        exact hend (.quiet s sl _)
    · split
      · exact hend (.quiet s sl _)
      · split
        · next u hu =>
          rw [elim_some hu]
          refine hend (State.Judged.after (x := (s.meas.slice sl).onward) ?_)
          have := State.calSkew_judged (s.setMeas (s.meas.setSlice sl (s.meas.slice sl).onward)) sl tick u (convCode c)
          rw [hself] at this
          exact this
        · next hu =>
          rw [elim_none hu]
          exact hend (.quiet s sl _)

/-! ## A tick that brings no result -/

theorem State.toCommit_quiet (h : s.adjusted.meas.results = []) (hx : s.meas.sxEntries = []) : s.toCommit = [] := by
  have he : s.emerged = [] := by rw [State.emerged, h]; rfl
  have hs : s.adjusted.meas.sxEntries = [] := by rw [s.adjusted_adjusts.meas]; exact hx
  rw [State.toCommit, he, hs]
  rfl

theorem State.toCommit_of (hx : s.meas.sxEntries = []) :
    s.toCommit = (s.emerged.filter fun r => s.mgmt.inForce.qEn r.chan).map fun r => r.entry s.now := by
  have hs : s.adjusted.meas.sxEntries = [] := by rw [s.adjusted_adjusts.meas]; exact hx
  have hm : s.gathered.mgmt = s.mgmt := s.adjusted_inForce
  have hn : s.gathered.now = s.now := s.adjusted_now
  rw [State.toCommit, hs, hm, hn]
  exact List.append_nil _

theorem State.commitAll_one (s : State) (e : QEntry) : s.commitAll [e] = s.commit e := rfl

theorem State.correct_quiet (h : s.adjusted.meas.results = []) (hx : s.meas.sxEntries = []) : s.correct = s.gathered := by
  rw [State.correct_eq, State.toCommit_quiet h hx]
  rfl

theorem State.gathered_quiet (h : s.adjusted.meas.results = []) : s.gathered.meas.results = s.meas.results := by
  show s.meas.results ++ s.emerged = _
  rw [State.emerged, h]
  exact List.append_nil _

theorem State.gathered_meas (s : State) : s.gathered.meas = { s.meas with
    sampled := [], results := s.meas.results ++ s.emerged, sxEntries := s.meas.sxEntries.filter fun e => decide (s.now < e.2)
    slices := s.adjusted.meas.slices, chans := s.adjusted.meas.chans, sxWindow := s.adjusted.meas.sxWindow, preload := s.adjusted.meas.preload } := by
  unfold State.gathered
  rw [s.adjusted_now, s.adjusted_adjusts.meas]
  rfl

/-- One calibration conversion was sampled (05 R104, R105). -/
theorem State.oneCal {sl : Nat} {cv : Conv} {g tick : Nat} {stamp : Count48} {round nc nth : Nat} (hsl : sl < 4)
    (hs : s.meas.sampled = [⟨sl, .cal, .conv cv, g, tick, stamp, round, nc, nth⟩]) : ∃ err fl o,
    s.adjusted = (s.setMeas (({ s.meas with sampled := [], results := [] } : Meas).setSlice sl
      (Slice.calNext { s.meas.slice sl with lastErr := err, failed := fl } tick (convCode cv)).1).storeCoef).setObs o ∧
    ((Slice.calNext { s.meas.slice sl with lastErr := err, failed := fl } tick (convCode cv)).2 = true →
      o.live.getD 6 0 = min (s.obs.live.getD 6 0 + 1) 0xFFFFFFFF) := by
  obtain ⟨err, fl, hsar⟩ := s.unsampled.sarCheck_eq sl nth cv
  let z : Slice := { s.meas.slice sl with lastErr := err, failed := fl }
  let u := s.unsampled.sarChecked cv z sl
  have hz : u.meas.slice sl = z := s.unsampled.meas.slice_setSlice_self z hsl
  obtain ⟨o, ho, htr⟩ := u.calibrate_eq tick cv hsl
  rw [hz] at ho htr
  refine ⟨err, fl, o, ?_, fun hrej => ?_⟩
  · have h1 : s.adjusted = (s.unsampled.sarCheck sl nth cv).calibrate sl tick cv := by
      unfold State.adjusted
      rw [hs]
      rfl
    rw [h1, hsar]
    refine Eq.trans ho ?_
    have hset : u.meas.setSlice sl (z.calNext tick (convCode cv)).1 =
        ({ s.meas with sampled := [], results := [] } : Meas).setSlice sl (z.calNext tick (convCode cv)).1 := by
      show ({ s.unsampled.meas with slices := (s.meas.slices.setIfInBounds sl z).setIfInBounds sl _ } : Meas) = _
      rw [Vector.setIfInBounds_setIfInBounds]
      rfl
    rw [hset]
    rfl
  · rw [if_pos hrej] at htr
    have h6 : u.obs.live.getD 6 0 = s.obs.live.getD 6 0 := by
      show (if cv.disagree then s.obs.count .sarErr 1 else s.obs).live.getD 6 0 = _
      split
      · exact Obs.count_other (c := .sarErr) (d := .calReject) s.obs 1 (by decide)
      · rfl
    have hc : o.live.getD 6 0 = (u.count .calReject).obs.live.getD 6 0 := htr.2 .calReject (by decide)
    rw [hc, ← h6]
    exact Obs.count_self ..

/-- One firing check was sampled (04 R85). -/
theorem State.oneCheck {sl ch : Nat} {cv : Conv} {g tick : Nat} {stamp : Count48} {round nc nth : Nat} {x : Int} {ovr : Bool}
    (hs : s.meas.sampled = [⟨sl, .check ch, .conv cv, g, tick, stamp, round, nc, nth⟩])
    (hx : (s.meas.slice sl).correct s.meas.cal sl g tick cv = (x, ovr)) : ∃ z,
    s.adjusted = (s.setMeas ((({ s.meas with sampled := [], results := [] } : Meas).setSlice sl z).setChan ch
      ((s.meas.chan ch).breakCheck s.mgmt.inForce ch g x ovr))).setObs (if cv.disagree then s.obs.count .sarErr 1 else s.obs) := by
  obtain ⟨err, fl, hsar⟩ := s.unsampled.sarCheck_eq sl nth cv
  refine ⟨{ s.meas.slice sl with lastErr := err, failed := fl }, ?_⟩
  have h1 : s.adjusted = (s.unsampled.sarCheck sl nth cv).setMeas ((s.unsampled.sarCheck sl nth cv).meas.setChan ch
      (((s.unsampled.sarCheck sl nth cv).meas.chan ch).breakCheck (s.unsampled.sarCheck sl nth cv).mgmt.inForce ch g x ovr)) := by
    have hx' : (s.unsampled.meas.slice sl).correct s.unsampled.meas.cal sl g tick cv = (x, ovr) := hx
    unfold State.adjusted
    rw [hs, List.foldl_cons, List.foldl_nil]
    unfold State.correctOne
    dsimp only
    rw [hx']
  rw [h1, hsar]
  rfl

end

theorem Slice.ogOk_iff (x : Slice) (off gain : Int) : ((x.ogOk off gain).1 && (x.ogOk off gain).2) = true ↔
    off.natAbs ≤ 4096 ∧ (off - x.offAcc / 8).natAbs ≤ 256 ∧ (gain - 8388608).natAbs ≤ 41943 ∧ (gain - x.gainAcc / 8).natAbs ≤ 1678 := by
  simp [Slice.ogOk, asr_eq, and_assoc]

theorem Slice.skewOk_iff (x : Slice) (k : Int) : x.skewOk k = true ↔ k.natAbs ≤ 800 ∧ (k / 8 - x.skewAcc / 8).natAbs ≤ 20 := by
  simp [Slice.skewOk, asr_eq]

theorem mGainOf_eq (p n : Int) : mGainOf p n =
    if p = n ∨ ¬ (-2147483648 ≤ (2 * Config.cCal * 8388608).tdiv (p - n) ∧ (2 * Config.cCal * 8388608).tdiv (p - n) ≤ 2147483647) then
      Config.mGainOpen p n else (2 * Config.cCal * 8388608).tdiv (p - n) := by
  refine if_congr (or_congr_right ?_) rfl rfl
  rw [← fitsS_32, Bool.not_eq_true]

theorem skewOf_eq (u d : Int) : skewOf u d = (u - d) / 2 * 15625 / 65536 := by
  simp [skewOf, asr_eq]

theorem convCode_eq (c : Conv) : convCode c = if c.disagree then limitCode (decide (c.code.toInt < 0)) else if c.overload then limitCode c.negative
    else 64 * c.code.toInt := by
  unfold convCode convClamp
  rw [signed_18, asl_eq]
  cases c.disagree
  · cases c.overload
    · exact Int.mul_comm _ _
    · rfl
  · rfl

section
variable {x : Slice} {tick : Nat} {v : Int}

theorem Slice.calNext_p (h : x.phase % 4 = 0) : x.calNext tick v = ({ x with latestP := some v }.onward, false) := if_pos h

theorem Slice.calNext_n {p : Int} (h : x.phase % 4 = 1) (hp : x.latestP = some p) : x.calNext tick v = x.onward.judgeOg tick p v := by
  rw [Slice.calNext, if_neg (by omega), if_pos h, elim_some hp]

theorem Slice.calNext_u (h : x.phase % 4 = 2) : x.calNext tick v = ({ x with latestU := some v }.onward, false) := by
  rw [Slice.calNext, if_neg (by omega), if_neg (by omega), if_pos h]

theorem Slice.calNext_d {u : Int} (h : x.phase % 4 = 3) (hu : x.latestU = some u) : x.calNext tick v = x.onward.judgeSkew tick u v := by
  rw [Slice.calNext, if_neg (by omega), if_neg (by omega), if_neg (by omega), elim_some hu]

theorem Slice.judgeOg_phase (x : Slice) (p n : Int) : (x.judgeOg tick p n).1.phase = x.phase := by
  unfold Slice.judgeOg
  dsimp only
  split <;> rfl

theorem Slice.judgeSkew_phase (x : Slice) (u d : Int) : (x.judgeSkew tick u d).1.phase = x.phase := by
  unfold Slice.judgeSkew
  split <;> rfl

theorem Slice.calNext_phase : (x.calNext tick v).1.phase = (x.phase + 1) % 4 := by
  unfold Slice.calNext
  split
  · rfl
  · split
    · cases x.latestP with
      | none => rfl
      | some p => exact Slice.judgeOg_phase ..
    · split
      · rfl
      · cases x.latestU with
        | none => rfl
        | some u => exact Slice.judgeSkew_phase ..

theorem Slice.judgeOg_ok {p n : Int} (h : ((x.ogOk ((p + n) / 2) (mGainOf p n)).1 && (x.ogOk ((p + n) / 2) (mGainOf p n)).2) = true) :
    x.judgeOg tick p n = ({ x with
      offAcc := x.offAcc + (8 * ((p + n) / 2) - x.offAcc) / 8, gainAcc := x.gainAcc + (8 * mGainOf p n - x.gainAcc) / 8
      old := some (x.offAcc, x.gainAcc, x.skewAcc, tick + 2), rejOg := 0 }, false) := by
  have h2 : asr (p + n) 1 = (p + n) / 2 := by simp [asr_eq]
  unfold Slice.judgeOg
  dsimp only
  rw [h2, if_pos h, asl_eq, asl_eq, asr_eq, asr_eq, Int.mul_comm _ (2 ^ 3), Int.mul_comm _ (2 ^ 3)]
  rfl

theorem Slice.judgeOg_rejected {p n : Int} (h : ¬ ((x.ogOk ((p + n) / 2) (mGainOf p n)).1 && (x.ogOk ((p + n) / 2) (mGainOf p n)).2) = true) :
    x.judgeOg tick p n = ({ x with rejOg := x.rejOg + 1, failed := if 1 ≤ x.rejOg then some 1 else x.failed }, true) := by
  have h2 : asr (p + n) 1 = (p + n) / 2 := by simp [asr_eq]
  unfold Slice.judgeOg
  dsimp only
  rw [h2, if_neg h]

theorem Slice.judgeSkew_ok {u d : Int} (h : x.skewOk (skewOf u d) = true) : x.judgeSkew tick u d = ({ x with
    skewAcc := x.skewAcc + (skewOf u d - x.skewAcc) / 8, old := some (x.offAcc, x.gainAcc, x.skewAcc, tick + 2), rejSkew := 0 }, false) := by
  rw [Slice.judgeSkew, if_pos h, asr_eq]
  rfl

theorem Slice.judgeSkew_rejected {u d : Int} (h : ¬ x.skewOk (skewOf u d) = true) : x.judgeSkew tick u d =
    ({ x with rejSkew := x.rejSkew + 1, failed := if 1 ≤ x.rejSkew then some 2 else x.failed }, true) := if_neg h

end

theorem Slice.fencedAt_false {x : Slice} {now : Nat} (h : ∀ k, x.fence = some k → now < k) : x.fencedAt now = false := by
  unfold Slice.fencedAt
  split
  · next k hk => exact decide_eq_false (Nat.not_le.2 (h k hk))
  · rfl

theorem State.visitSlice_ext {s : State} {sl : Nat} {p : Pos} (hp : s.played sl = some p) (hf : (s.meas.slice sl).fencedAt s.now = false) :
    (s.visitSlice sl).ext = ((s.meas.slice sl).ext && (s.skipping || !(s.meas.slice sl).switches p.kind) || s.tookOver sl) := by
  unfold State.visitSlice
  rw [hp]
  dsimp only
  rw [hf]
  split <;> rfl

theorem Chan.breakCheck_some {c : Chan} {a : Alm} {ch g : Nat} {x : Int} {ovr : Bool} {y : Int} {k : Nat} (h : c.checkRef = some (y, k)) :
    c.breakCheck a ch g x ovr = c.brk (ovr || decide ((a.brkThr ch : Int) * 65536 <
      (x - if k < g then y * 2 ^ (g - k) else y / 2 ^ (k - g)).natAbs)) := by
  unfold Chan.breakCheck
  rw [h]
  dsimp only
  rw [regain, asl_eq, asr_eq]

theorem Chan.breakCheck_ovr (c : Chan) (a : Alm) (ch g : Nat) (x : Int) : c.breakCheck a ch g x true = c.brk true := by
  cases h : c.checkRef with
  | none => rw [Chan.breakCheck, h]; rfl
  | some r => rw [Chan.breakCheck_some h, Bool.true_or]

theorem Chan.brk_pass (c : Chan) : c.brk (false || false) = { c with
    brkPass := c.brkPass + 1, brkFail := 0, sensorOpen := c.sensorOpen && decide (c.brkPass = 0) } := by
  have h : (!decide (1 ≤ c.brkPass)) = decide (c.brkPass = 0) := by
    rw [← decide_not]
    exact decide_eq_decide.2 (by omega)
  unfold Chan.brk
  rw [h]
  rfl

/-- Settles O41: by what the correction of each position can change, and by one slot, one calibration and one check. -/
theorem correctionGivesTheRawSample : Obligations.CorrectionGivesTheRawSample := by
  have hexec {s : State} (hu : s.measUp = true) : exec .rawSampleCorrection s = .next s.correct := stepIf_of hu
  refine ⟨fun s hu => ⟨⟨s.correct, hexec hu, ?_, ?_, ?_, ?_, ?_⟩, ?_, ?_⟩, ?_, ?_⟩
  · exact ((s.setMeas_only _).mono (by simp)).trans ((s.adjusted_adjusts.only.trans ((s.adjusted.setMeas_only _).mono (by simp))).trans
      (s.gathered.commitAll_commits s.toCommit).only)
  · have hadj : s.CountersBut [.sarErr, .calReject, .trcDrop] s.gathered := s.adjusted_adjusts.counters
    exact (hadj.mono (by simp)).trans ((s.gathered.commitAll_commits s.toCommit).counters.mono (by simp))
  · rw [State.correct_eq, (s.gathered.commitAll_commits s.toCommit).meas, s.gathered_meas]
  · obtain ⟨l, hl, hle⟩ := (s.gathered.commitAll_commits s.toCommit).queue
    rw [s.gathered_meas] at hl
    exact ⟨l, hl, fun e he => State.toCommit_now (hle e he)⟩
  · refine ⟨s.emerged, ?_, fun r hr => State.emerged_tick hr⟩
    rw [State.correct_eq, (s.gathered.commitAll_commits s.toCommit).meas, s.gathered_meas]
  · intro sl ch c g idx q run tick stamp round nc nth hs hold he hi r x1 x2 x limit sample
    have hx : (s.meas.slice sl.val).correct s.meas.cal sl.val g tick c = (sample.1, sample.2) := by
      rw [Meas.slice_eq, Slice.correct_eq hold]
      rfl
    have h := State.oneSlot ch.isLt hs he hi hx
    refine ⟨s.correct, hexec hu, ?_, ?_⟩
    · rw [← Meas.chan_fin, h.chan, Chan.fed_prevNorm]
      rfl
    · have hc : s.correct.obs.live.getD 5 0 = s.gathered.obs.live.getD 5 0 :=
        (s.gathered.commitAll_commits s.toCommit).counters.2 .sarErr (by decide)
      rw [hc, h.obs]
      split
      · exact Obs.count_self ..
      · rfl
  · intro sl p hp hf x
    have hfence : (s.meas.slice sl.val).fencedAt s.now = false := by
      rw [Meas.slice_eq]
      exact Slice.fencedAt_false hf
    have hv : s.visit.meas.slices[sl] = s.visitSlice sl.val := Vector.getElem_ofFn ..
    rw [hv, State.visitSlice_ext hp hfence, Meas.slice_eq, Bool.or_comm]
  · intro s sl ch cv g idx q run tick round nc nth stamp hu hs hx he hi
    rcases hv : (s.meas.slice sl.val).correct s.meas.cal sl.val g tick cv with ⟨x, ovr⟩
    have h := State.oneSlot ch.isLt hs he hi hv
    let f := slotFeed sl idx g tick stamp round nc x ovr
    let d : Chan := { s.meas.chans[ch] with prevNorm := some ⟨x, g, g, ovr⟩, checkRef := some (x, g) }
    have hd : (s.meas.chan ch.val).remember 0 ⟨f.x, f.gain, f.gain, f.ovr⟩ = d := by
      rw [Meas.chan_fin]
      rfl
    have hch : s.correct.meas.chans[ch] = d.fed s.mgmt.inForce ch f s.meas.round.freezes s.now := by
      rw [← Meas.chan_fin, h.chan, hd]
    have hem : s.emerged = d.gives s.mgmt.inForce ch f s.meas.round.freezes s.now := by
      rw [h.emerged, hd]
    have hcm := s.gathered.commitAll_commits s.toCommit
    have hres : s.correct.meas.results = s.meas.results ++ s.emerged := by
      rw [State.correct_eq, hcm.meas, s.gathered_meas]
    refine ⟨s.correct, x, ovr, hexec hu, ?_, ?_⟩
    · rw [hch, Chan.fed_prevNorm]
    · intro a c n w lim beyond i1 i2 i3 sampleOvr late notch settle c1 c2 z zs rchg shift zh fir y nh res xfail bit tags e y'
      have hy : y' = d.fed a ch f s.meas.round.freezes s.now := hch
      have hi : (y'.i1, y'.i2, y'.i3) = (i1, i2, i3) := by
        rw [hy]
        exact d.fed_sums a ch f s.meas.round.freezes s.now
      refine ⟨hi, fun hn => ?_, fun hn => ?_⟩
      · have hoff : ¬ (f.place + 1) % a.fOsr ch = 0 := hn
        have hg : s.emerged = [] := hem.trans (if_neg hoff)
        have hnone : s.adjusted.meas.results = [] := by
          rw [h.results, hd]
          exact if_neg hoff
        rw [Chan.fed_off hoff] at hy
        refine ⟨by rw [hres, hg, List.append_nil], ?_, ?_, ?_⟩
        · rw [State.correct_quiet hnone hx, s.gathered_meas]
        · rw [hy]
          rfl
        · rw [hy]
          rfl
      · have hon : (f.place + 1) % a.fOsr ch = 0 := hn
        have hg : s.emerged = [{ (d.entered a ch f s.meas.round.freezes s.now).resultOf a ch f s.now (a.fOsr ch) with
          closing := a.isPrimary ch }] := hem.trans (if_pos hon)
        rw [Chan.fed_on hon] at hy
        have hto : s.toCommit = if a.qEn ch.val then [e] else [] := by
          rw [State.toCommit_of hx, hg]
          cases hq : a.qEn ch.val
          · rw [List.filter_cons_of_neg (by exact ne_true_of_eq_false hq)]
            rfl
          · rw [List.filter_cons_of_pos (by exact hq)]
            rfl
        have hq0 : s.gathered.meas.queue = s.meas.queue := by rw [s.gathered_meas]
        refine ⟨?_, ?_, ?_, ?_, ?_, ?_, ?_, ?_, ?_, ?_, ?_⟩
        · rw [hres, hg]
          rfl
        · rw [hy]
          rfl
        · rw [hy]
          rfl
        · rw [hy]
          rfl
        · rw [hy]
          rfl
        · rw [hy]
          rfl
        · rw [hy]
          rfl
        · rw [hy]
          rfl
        · intro hq
          rw [State.correct_eq, hto, if_neg (ne_true_of_eq_false hq)]
          exact hq0
        · intro hq hl
          obtain ⟨o, -, ho⟩ := State.commit_room (s := s.gathered) (e := e) (by rw [hq0]; exact hl)
          rw [State.correct_eq, hto, if_pos hq, State.commitAll_one, ho]
          refine ⟨congrArg (· ++ [e]) hq0, by rw [State.setObs_meas, State.setMeas_meas, s.gathered_meas], ?_⟩
          rw [State.setObs_meas, State.setMeas_meas, s.gathered_meas]
          dsimp only
          rw [show s.gathered.mgmt = s.mgmt from s.adjusted_inForce]
        · intro hq hl
          obtain ⟨o, htr, ho⟩ := State.commit_full (s := s.gathered) (e := e) (by rw [hq0]; omega)
          rw [State.correct_eq, hto, if_pos hq, State.commitAll_one, ho]
          refine ⟨hq0, rfl, ?_⟩
          have h0 : s.gathered.obs.live.getD 0 0 = s.obs.live.getD 0 0 := by
            rw [h.obs]
            split
            · exact Obs.count_other (c := .sarErr) (d := .qdrop) s.obs 1 (by decide)
            · rfl
          have hcount : o.live.getD 0 0 = (s.gathered.count .qdrop).obs.live.getD 0 0 := htr.2 .qdrop (by decide)
          show o.live.getD 0 0 = _
          rw [hcount, ← h0]
          exact Obs.count_self ..
  · intro s sl cv g tick round nc nth stamp hu hx x sign r more quiet
    have hchans : s.correct.meas.chans = s.adjusted.meas.chans := by
      rw [State.correct_eq, (s.gathered.commitAll_commits s.toCommit).meas]
      rfl
    refine ⟨fun hs => ?_, fun ch hs hold => ?_⟩
    · intro v
      obtain ⟨err, fl, o, ha, hrej⟩ := State.oneCal sl.isLt hs
      have hv : convCode cv = v := convCode_eq cv
      rw [hv, Meas.slice_eq] at ha hrej
      let z : Slice := { s.meas.slices[sl] with lastErr := err, failed := fl }
      have hres : s.adjusted.meas.results = [] := by
        rw [ha]
        rfl
      have hq : s.correct = s.gathered := State.correct_quiet hres hx
      have hsl : s.correct.meas.slices = s.meas.slices.setIfInBounds sl.val (z.calNext tick v).1 := by
        rw [hq]
        exact congrArg (fun u : State => u.meas.slices) ha
      have hy : s.correct.meas.slices[sl] = (z.calNext tick v).1 := by
        rw [hsl]
        exact vector_set_self ..
      have hmore (h : (z.calNext tick v).2 = true) : more 6 s.correct := by
        have ho : s.correct.obs = o := by
          rw [hq]
          exact congrArg State.obs ha
        show s.correct.obs.live.getD 6 0 = _
        rw [ho]
        exact hrej h
      refine ⟨s.correct, hexec hu, ⟨?_, ?_, fun n hn => ?_⟩, ?_, ?_⟩
      · rw [hq, s.gathered_meas]
      · rw [hq, State.gathered_quiet hres]
      · rw [hsl]
        exact vector_set_other _ _ (fun h => hn (Fin.ext h))
      · rw [hchans, ha]
        rfl
      · intro y kept before
        have hy' : y = (z.calNext tick v).1 := hy
        refine ⟨hy' ▸ Slice.calNext_phase, ?_, fun hp => ?_, fun hp => ?_, fun p hph hp => ?_, fun u hph hlu => ?_⟩
        · rw [hsl, hq]
          exact congrArg (fun u : State => u.meas.preload.coef) ha
        · rw [Slice.calNext_p (x := z) hp] at hy'
          exact ⟨by rw [hy']; rfl, by show (y.offAcc, y.gainAcc, y.skewAcc, y.old) = _; rw [hy']; rfl⟩
        · rw [Slice.calNext_u (x := z) hp] at hy'
          exact ⟨by rw [hy']; rfl, by show (y.offAcc, y.gainAcc, y.skewAcc, y.old) = _; rw [hy']; rfl⟩
        · intro off q gain good
          have hgain : mGainOf p v = gain := mGainOf_eq p v
          rw [Slice.calNext_n (x := z) hph hp] at hy' hmore
          have hok : ((z.onward.ogOk ((p + v) / 2) (mGainOf p v)).1 && (z.onward.ogOk ((p + v) / 2) (mGainOf p v)).2) = true ↔ good := by
            rw [hgain]
            exact Slice.ogOk_iff ..
          refine ⟨fun hg => ?_, fun hg => ?_⟩
          · rw [Slice.judgeOg_ok (hok.2 hg), hgain] at hy'
            rw [hy']
            exact ⟨rfl, rfl, rfl, rfl, rfl⟩
          · rw [Slice.judgeOg_rejected (fun h => hg (hok.1 h))] at hy' hmore
            refine ⟨?_, by rw [hy']; rfl, fun h1 => by rw [hy']; exact if_pos h1, hmore rfl⟩
            show (y.offAcc, y.gainAcc, y.skewAcc, y.old) = _
            rw [hy']
            rfl
        · intro skew good
          have hskew : skewOf u v = skew := skewOf_eq u v
          rw [Slice.calNext_d (x := z) hph hlu] at hy' hmore
          have hok : z.onward.skewOk (skewOf u v) = true ↔ good := by
            rw [hskew]
            exact Slice.skewOk_iff ..
          refine ⟨fun hg => ?_, fun hg => ?_⟩
          · rw [Slice.judgeSkew_ok (hok.2 hg), hskew] at hy'
            rw [hy']
            exact ⟨rfl, rfl, rfl, rfl, rfl⟩
          · rw [Slice.judgeSkew_rejected (fun h => hg (hok.1 h))] at hy' hmore
            refine ⟨?_, by rw [hy']; rfl, fun h1 => by rw [hy']; exact if_pos h1, hmore rfl⟩
            show (y.offAcc, y.gainAcc, y.skewAcc, y.old) = _
            rw [hy']
            rfl
    · intro c x1 x2 sample differs
      have hv : (s.meas.slice sl.val).correct s.meas.cal sl.val g tick cv = (sample.1, sample.2) := by
        rw [Meas.slice_eq, Slice.correct_eq hold]
        rfl
      obtain ⟨z, ha⟩ := State.oneCheck hs hv
      rw [Meas.chan_fin] at ha
      have hres : s.adjusted.meas.results = [] := by
        rw [ha]
        rfl
      have hq : s.correct = s.gathered := State.correct_quiet hres hx
      have hset : s.correct.meas.chans = s.meas.chans.setIfInBounds ch.val (c.breakCheck s.mgmt.inForce ch.val g sample.1 sample.2) := by
        rw [hchans, ha]
        rfl
      have hch : s.correct.meas.chans[ch] = c.breakCheck s.mgmt.inForce ch.val g sample.1 sample.2 := by
        rw [hset]
        exact vector_set_self ..
      refine ⟨s.correct, hexec hu, ⟨?_, ?_, fun n hn => ?_⟩, fun n hn => ?_, fun h => ?_, fun h hd => ?_, fun h hn => ?_⟩
      · rw [hq, s.gathered_meas]
      · rw [hq, State.gathered_quiet hres]
      · have hsl : s.correct.meas.slices = s.meas.slices.setIfInBounds sl.val z := by
          rw [hq]
          exact congrArg (fun u : State => u.meas.slices) ha
        rw [hsl]
        exact vector_set_other _ _ (fun h => hn (Fin.ext h))
      · rw [hset]
        exact vector_set_other _ _ (fun h => hn (Fin.ext h))
      · rw [hch]
        rcases h with h | ⟨y, k, hr, hd⟩
        · rw [h]
          exact Chan.breakCheck_ovr ..
        · rw [Chan.breakCheck_some hr, show decide _ = true from hd, Bool.or_true]
          rfl
      · obtain ⟨y, k, hr, hd⟩ := hd
        rw [hch, Chan.breakCheck_some hr, h, show decide _ = false from hd]
        exact Chan.brk_pass _
      · rw [hch, h, Chan.breakCheck, hn]
        rfl

end Sys2Proof.Machine
end



section
/-! PROOFS. Slices that fail and slices that qualify (05 R101, R105, R112 to R118). -/

namespace Sys2Proof.Machine

open Sys2Proof

set_option Elab.async false

section
variable {s t : State}

/-! ## A slice that fails -/

theorem vector_setIfInBounds_fin {α : Type} {n : Nat} (v : Vector α n) (i : Fin n) (x : α) : v.setIfInBounds i.val x = v.set i.val x := by
  refine Vector.ext fun k hk => ?_
  rw [Vector.getElem_setIfInBounds, Vector.getElem_set]

theorem exec_sliceCheckFail {sl : Fin 4} {cause : Nat} (hu : s.measUp = true) (hf : s.meas.slices[sl].failed = some cause)
    (hn : s.meas.slices[sl].fence = none) : exec (.sliceCheckFail sl) s = .next (s.failSlice sl.val cause) := by
  show execSliceCheckFail sl s = _
  unfold execSliceCheckFail
  rw [Meas.slice_eq, hf]
  refine stepIf_of ?_
  rw [hu, hn]
  rfl

/-- A failed slice: fenced, and retired here and in NVM (05 R112, R113, R119). -/
def State.sliceFenced (s : State) (sl : Fin 4) : State := { s with
  meas := { s.meas with
    slices := s.meas.slices.set sl.val { s.meas.slices[sl] with failed := none, fence := some (s.now + 1), retired := true }
    fallbackDue := if s.meas.inService.length == 4 && s.meas.fallback.length == 4 then some (sl.val, s.now + 1) else s.meas.fallbackDue
    failCompile := if s.meas.inService.length == 4 && s.meas.fallback.length == 4 then s.meas.failCompile else some sl.val }
  nvm := { s.nvm with retired := s.nvm.retired ||| BitVec.twoPow 4 sl.val } }

theorem State.failSlice_eq (s : State) (sl : Fin 4) (cause : Nat) : ∃ o, s.OnlyTrace (s.setObs o) ∧
    s.failSlice sl.val cause = ((s.sliceFenced sl).report 0x20 (cause + 256 * sl.val) 0x30).setObs o := by
  obtain ⟨o, ho, htr⟩ := State.emit_eq ((s.sliceFenced sl).report 0x20 (cause + 256 * sl.val) 0x30) .meas 0xE (sl.val + 4 * 2)
    [unsignedOf 32 ((cause + 256 * sl.val : Nat) : Int)]
  refine ⟨o, htr, Eq.trans ?_ ho⟩
  unfold State.failSlice State.sliceFenced
  dsimp only
  rw [Meas.slice_eq, Meas.setSlice, vector_setIfInBounds_fin]
  cases s.meas.inService.length == 4 && s.meas.fallback.length == 4 <;> rfl

/-! ## A map for the slices left -/

theorem State.stopSeq_uUpd (s : State) (q : Nat) : (s.stopSeq q).loop.uUpd = s.loop.uUpd := by
  obtain ⟨o, ho, -⟩ := s.discardTriggers_eq q
  rw [s.stopSeq_eq, ho]
  unfold State.loopUntracked
  split <;> rfl

/-- Every sequence stopped. -/
def State.stopped (s : State) : State := (List.range 4).foldl State.stopSeq s

theorem State.stopped_moved (s : State) : s.SeqsMoved s.stopped ∧ (∀ q : Fin 4, s.stopped.meas.seqs[q].running = false) ∧
    s.stopped.loop.uUpd = s.loop.uUpd := by
  obtain ⟨hm, hq⟩ := State.foldl_seqsMoved (f := State.stopSeq) (g := Seq.stopped) (fun u q hq => u.stopSeq_moved hq) (List.range 4)
    List.nodup_range (fun q h => List.mem_range.1 h) s
  refine ⟨hm, fun q => ?_, ?_⟩
  · rw [← Meas.seq_fin]
    refine (congrArg Seq.running (hq q.val)).trans ?_
    rw [if_pos (List.mem_range.2 q.isLt)]
    rfl
  · exact List.foldlRecOn (motive := fun t : State => t.loop.uUpd = s.loop.uUpd) _ _ rfl fun u hu q _ => (u.stopSeq_uUpd q).trans hu

/-- The map that MGMT compiles for the slices left, if there is one (05 R116). -/
def State.mapLeft (s : State) : Option SlotMap :=
  if s.meas.inService = [] then none else (s.mgmt.committed.lowered (s.newLevel .mgmt) s.meas.inService false).toOption

/-- The order to compile taken. -/
def State.compiles (s : State) : State := s.setMeas { s.meas with failCompile := none }

theorem exec_failureMapCompile {sl : Nat} (hu : s.mgmtUp = true) (hf : s.meas.failCompile = some sl) : exec .failureMapCompile s = .next
    (s.mapLeft.elim (s.compiles.stopped.report 0x20 (5 + 256 * sl) 0x30) fun m =>
      s.compiles.setMeas { s.compiles.meas with failMap := some (m, s.now + 1) }) := by
  show execFailureMapCompile s = _
  unfold execFailureMapCompile
  rw [hf]
  refine (stepIf_of hu).trans ?_
  unfold State.mapLeft State.stopped State.compiles
  generalize s.meas.inService = l
  generalize (s.setMeas { s.meas with failCompile := none }) = t
  cases l with
  | nil => rfl
  | cons n l =>
    rw [if_neg (List.cons_ne_nil n l), if_neg (by simp)]
    generalize s.mgmt.committed.lowered (s.newLevel .mgmt) (n :: l) false = r
    cases r <;> rfl

/-! ## The conversions of a qualification -/

/-- The numbers of the conversions whose decisions disagree, the first being the `n`th. -/
def failMarks : Nat → List Conv → List Nat
  | _, [] => []
  | n, c :: cs => if c.disagree then n :: failMarks (n + 1) cs else failMarks (n + 1) cs

/-- Two neighbours lie within 256. -/
def anyClose (l : List Nat) : Bool := (l.zip l.tail).any fun e => decide (e.2 < e.1 + 256)

theorem failMarks_eq (n : Nat) (cs : List Conv) :
    failMarks n cs = ((List.range cs.length).filter fun i => cs[i]?.any (·.disagree)).map (n + ·) := by
  induction cs generalizing n with
  | nil => rfl
  | cons c cs ih =>
    have hrest : failMarks (n + 1) cs = (((List.range cs.length).map Nat.succ).filter fun i => (c :: cs)[i]?.any (·.disagree)).map (n + ·) := by
      rw [ih, List.filter_map, List.map_map]
      refine List.map_congr_left fun i _ => ?_
      simp only [Function.comp]
      omega
    rw [List.length_cons, List.range_succ_eq_map, failMarks, hrest]
    cases hd : c.disagree
    · rw [List.filter_cons_of_neg (by simp [hd])]
      rfl
    · rw [List.filter_cons_of_pos (by simp [hd])]
      rfl

theorem failMarks_length (n : Nat) (cs : List Conv) : (failMarks n cs).length = (cs.filter (·.disagree)).length := by
  induction cs generalizing n with
  | nil => rfl
  | cons c cs ih =>
    rw [failMarks]
    cases hd : c.disagree
    · rw [List.filter_cons_of_neg (by simp [hd])]
      exact ih _
    · rw [List.filter_cons_of_pos (by simp [hd])]
      exact congrArg (· + 1) (ih _)

theorem anyClose_marks (o : Option Nat) (n : Nat) (l : List Nat) : anyClose (o.toList ++ n :: l) = (errAgain o n || anyClose (n :: l)) := by
  cases o <;> simp [anyClose, errAgain]

/-- One conversion counted, as `Slice.countConvs` counts it. -/
def countConv (acc : Slice × Bool) (c : Conv) : Slice × Bool :=
  let y := { acc.1 with convs := acc.1.convs + 1 }
  if c.disagree then ({ y with lastErr := some acc.1.convs }, acc.2 || errAgain acc.1.lastErr acc.1.convs) else (y, acc.2)

theorem foldl_countConv (x : Slice) (b : Bool) (cs : List Conv) : cs.foldl countConv (x, b) =
    ({ x with convs := x.convs + cs.length, lastErr := (x.lastErr.toList ++ failMarks x.convs cs).getLast? },
      b || anyClose (x.lastErr.toList ++ failMarks x.convs cs)) := by
  induction cs generalizing x b with
  | nil =>
    have h : (x.lastErr.toList ++ failMarks x.convs []).getLast? = x.lastErr := by cases x.lastErr <;> rfl
    have hc : anyClose (x.lastErr.toList ++ failMarks x.convs []) = false := by cases x.lastErr <;> rfl
    rw [h, hc, Bool.or_false]
    rfl
  | cons c cs ih =>
    rw [List.foldl_cons, failMarks]
    unfold countConv
    cases hd : c.disagree
    · refine (ih _ b).trans ?_
      dsimp only
      rw [List.length_cons, Nat.add_assoc, Nat.add_comm 1]
      rfl
    · refine (ih _ _).trans ?_
      have hl : (x.lastErr.toList ++ x.convs :: failMarks (x.convs + 1) cs).getLast? = (x.convs :: failMarks (x.convs + 1) cs).getLast? := by
        rw [List.getLast?_append]
        exact Option.or_of_isSome (by simp)
      dsimp only
      rw [if_pos rfl, anyClose_marks, hl, List.length_cons, Nat.add_assoc, Nat.add_comm 1, ← Bool.or_assoc]
      rfl

/-- The slice after a qualification's conversions, and whether two failures lie within 256 (05 R101, Table 5-5). -/
theorem Slice.countConvs_eq (x : Slice) (cs : List Conv) : x.countConvs cs =
    ({ x with convs := x.convs + cs.length, lastErr := (x.lastErr.toList ++ failMarks x.convs cs).getLast? },
      anyClose (x.lastErr.toList ++ failMarks x.convs cs)) := by
  refine (foldl_countConv x false cs).trans ?_
  rw [Bool.false_or]

/-! ## The verdict on a qualification -/

theorem forall_lt_three {p : Nat → Prop} : (∀ k, k < 3 → p k) ↔ p 0 ∧ p 1 ∧ p 2 :=
  ⟨fun h => ⟨h 0 (by omega), h 1 (by omega), h 2 (by omega)⟩, fun ⟨h0, h1, h2⟩ k hk => by
    rcases k with _ | _ | _ | k
    · exact h0
    · exact h1
    · exact h2
    · omega⟩

theorem forall_lt_four {p : Nat → Prop} : (∀ k, k < 4 → p k) ↔ p 0 ∧ p 1 ∧ p 2 ∧ p 3 :=
  ⟨fun h => ⟨h 0 (by omega), h 1 (by omega), h 2 (by omega), h 3 (by omega)⟩, fun ⟨h0, h1, h2, h3⟩ k hk => by
    rcases k with _ | _ | _ | _ | k
    · exact h0
    · exact h1
    · exact h2
    · exact h3
    · omega⟩

/-- The code of a qualification's conversion. -/
def qualCode (cs : List Conv) (i : Nat) : Int := (cs[i]?.map convCode).getD 0

theorem qualMeasure_eq (cs : List Conv) (k : Nat) : qualMeasure cs k =
    ((qualCode cs (4 * k) + qualCode cs (4 * k + 1)) / 2, mGainOf (qualCode cs (4 * k)) (qualCode cs (4 * k + 1)),
      (qualCode cs (4 * k + 2) - qualCode cs (4 * k + 3)) / 2 * 15625 / 65536) := by
  rw [← skewOf_eq, ← Int.pow_one 2, ← asr_eq]
  rfl

/-- The verdict of `State.qualify` on the four measurements. -/
def qualGood (cs : List Conv) : Bool :=
  let m := qualMeasure cs
  [m 0, m 1, m 2, m 3].all withinAbs && withinJump (m 0) (m 1) && withinJump (m 1) (m 2) && withinJump (m 2) (m 3)

theorem withinAbs_iff (a b c : Int) : withinAbs (a, b, c) = true ↔ a.natAbs ≤ 4096 ∧ (b - 8388608).natAbs ≤ 41943 ∧ c.natAbs ≤ 800 := by
  simp [withinAbs, and_assoc]

theorem withinJump_iff (a b c x y z : Int) : withinJump (a, b, c) (x, y, z) = true ↔
    (x - a).natAbs ≤ 256 ∧ (y - b).natAbs ≤ 1678 ∧ (z / 8 - c / 8).natAbs ≤ 20 := by
  simp [withinJump, asr_eq, and_assoc]

theorem qualGood_iff (cs : List Conv) : qualGood cs = true ↔
    (∀ k, k < 4 → withinAbs (qualMeasure cs k) = true) ∧ ∀ k, k < 3 → withinJump (qualMeasure cs k) (qualMeasure cs (k + 1)) = true := by
  rw [forall_lt_four, forall_lt_three]
  simp [qualGood, and_assoc]

/-- A restoration that ends without success (05 R118). -/
theorem State.restoreFails_ends (s : State) (sl status : Nat) : s.Only [.meas, .win, .obs] (s.restoreFails sl status) ∧
    s.OnlyTrace (s.restoreFails sl status) ∧ (s.restoreFails sl status).meas = { s.meas with job := none } ∧
    (∀ k, k ≠ 5 → (s.restoreFails sl status).win.mbAt k = s.win.mbAt k) ∧
    (s.upAt .mgmt = true → ∀ o ∈ s.mgmt.outst, o.op = 0x0206 → o.done = none → (∃ g, o.got = some g ∧ g ≤ s.now) →
      (s.restoreFails sl status).win.onWay 5 (· == .event 0x0206 status []) = true) := by
  obtain ⟨o, ho, htr⟩ := (s.setMeas { s.meas with job := none }).emit_eq .meas 0xE (sl + 4 * 6) [unsignedOf 32 s.meas.round.count]
  let u := (s.setMeas { s.meas with job := none }).setObs o
  obtain ⟨hp, hc⟩ := u.measEvent_posts 0x0206 0 status []
  have hr : s.restoreFails sl status = u.measEvent 0x0206 0 status [] := congrArg (fun v => State.measEvent v 0x0206 0 status []) ho
  rw [hr]
  have honly : s.Only [.meas, .win, .obs] u := ((s.setMeas_only _).mono (by simp)).trans ((State.setObs_only _ o).mono (by simp))
  refine ⟨honly.trans (hp.only.mono (by simp)), State.CountersBut.trans htr hp.traced, hp.only.2 .meas (by decide), hp.others,
    fun hu x hx hop hdone hgot => ?_⟩
  have htaken : x ∈ u.takenBy 0x0206 0 := by
    obtain ⟨g, hg, hle⟩ := hgot
    refine List.mem_filter.2 ⟨hx, ?_⟩
    rw [hop, hdone, hg]
    exact decide_eq_true hle
  have hevent : x.event 0x0206 status [] = .event 0x0206 status [] := by
    rw [Outst.event, Outst.answer, if_pos hop, hop]
  exact List.any_eq_true.2 ⟨_, hc hu x htaken, by rw [hevent]; exact beq_self_eq_true _⟩

end

section
variable {s : State}

/-- The state with a qualification's conversions counted. -/
def State.convsCounted (s : State) (sl : Nat) (cs : List Conv) : State :=
  (s.setMeas (s.meas.setSlice sl ((s.meas.slice sl).countConvs cs).1)).countN .sarErr (cs.filter (·.disagree)).length

theorem exec_qualificationEnd_fails {sl since : Nat} {cs : List Conv} {ready : Bool} {k : Nat} (hu : s.measUp = true)
    (hj : s.meas.job = some (.qualify sl since)) (ht : since + 261 ≤ s.now) (hk : (s.meas.slice sl).qualCause cs ready = some k) :
    exec (.qualificationEnd ⟨cs, ready⟩) s = .next
      ((((s.convsCounted sl cs).report 0x20 (k + 256 * sl) 0x30).emitSlice sl 2 (k + 256 * sl)).restoreFails sl stNotPermitted) := by
  show execQualificationEnd ⟨cs, ready⟩ s = _
  unfold execQualificationEnd
  rw [hj]
  dsimp only
  rw [hk]
  refine stepIf_of ?_
  rw [hu, decide_eq_true ht]
  rfl

theorem exec_qualificationEnd_judged {sl since : Nat} {cs : List Conv} {ready : Bool} (hu : s.measUp = true)
    (hj : s.meas.job = some (.qualify sl since)) (ht : since + 261 ≤ s.now) (hk : (s.meas.slice sl).qualCause cs ready = none) :
    exec (.qualificationEnd ⟨cs, ready⟩) s = .next ((s.convsCounted sl cs).qualify sl cs) := by
  show execQualificationEnd ⟨cs, ready⟩ s = _
  unfold execQualificationEnd
  rw [hj]
  dsimp only
  rw [hk]
  refine stepIf_of ?_
  rw [hu, decide_eq_true ht]
  rfl

/-- The slice qualified, with the coefficients of its fourth cycle. -/
def State.qualifiedAt (s : State) (sl : Nat) (cs : List Conv) : State :=
  s.setMeas (s.meas.setSlice sl { (s.meas.slice sl).qualified (qualMeasure cs 3) with lastCal := s.now }).storeCoef

/-- The slices with which a map is sought. -/
def Meas.slicesWith (m : Meas) (sl : Nat) : List Nat := (List.range 4).filter fun n => n == sl || m.inService.contains n

theorem State.qualify_bad {sl : Nat} {cs : List Conv} (h : qualGood cs = false) : s.qualify sl cs = s.restoreFails sl stNotPermitted := by
  unfold State.qualify
  refine if_pos ?_
  show (!qualGood cs) = true
  rw [h]
  rfl

theorem State.qualify_noMap {sl : Nat} {cs : List Conv} (h : qualGood cs = true)
    (hm : s.mgmt.committed.repack (s.newLevel .mgmt) ((s.qualifiedAt sl cs).meas.slicesWith sl) = none) :
    s.qualify sl cs = (s.qualifiedAt sl cs).restoreFails sl stInfeasible := by
  unfold State.qualify
  refine (if_neg ?_).trans ?_
  · show ¬ (!qualGood cs) = true
    rw [h]
    exact nofun
  · extract_lets x u slices
    split
    · rfl
    · next m fs hs => exact absurd (hs.symm.trans hm) nofun

theorem State.qualify_map {sl : Nat} {cs : List Conv} {m : SlotMap} {fs : List SlotMap} (h : qualGood cs = true)
    (hm : s.mgmt.committed.repack (s.newLevel .mgmt) ((s.qualifiedAt sl cs).meas.slicesWith sl) = some (m, fs)) :
    s.qualify sl cs = (s.qualifiedAt sl cs).setMeas { (s.qualifiedAt sl cs).meas with job := some (.qualified sl m fs (s.now + 2)) } := by
  unfold State.qualify
  refine (if_neg ?_).trans ?_
  · show ¬ (!qualGood cs) = true
    rw [h]
    exact nofun
  · extract_lets x u slices
    split
    · next hs => exact absurd (hs.symm.trans hm) nofun
    · next m' fs' hs =>
      obtain ⟨rfl, rfl⟩ := Prod.mk.inj (Option.some.inj (hs.symm.trans hm))
      rfl

/-- The slices in service do not depend on anything but their retirement. -/
theorem Meas.inService_congr {m n : Meas} (h : ∀ k : Fin 4, n.slices[k].retired = m.slices[k].retired) : n.inService = m.inService := by
  refine List.filter_congr fun k hk => ?_
  have hk4 : k < 4 := List.mem_range.1 hk
  have hr := h ⟨k, hk4⟩
  have hget (v : Vector Slice 4) : v.toList[k]? = some v[k] := by simp [hk4]
  rw [hget, hget]
  exact congrArg (fun b => !b) hr

end

/-- What every end of slice `sl`'s qualification has, `n` of its conversions having failed. -/
structure State.Qualifies (s t : State) (sl : Fin 4) (n : Nat) : Prop where
  only : s.Only [.meas, .win, .faults, .obs] t
  counters : s.CountersBut [.sarErr, .trcDrop] t
  sar : t.obs.live.getD 5 0 = min (s.obs.live.getD 5 0 + n) 0xFFFFFFFF
  meas : t.meas = { s.meas with job := t.meas.job, slices := t.meas.slices, preload := t.meas.preload }
  slices : ∀ k : Fin 4, k ≠ sl → t.meas.slices[k] = s.meas.slices[k]
  mailboxes : ∀ k, k ≠ 5 → t.win.mbAt k = s.win.mbAt k

section
variable {s t u : State} {sl : Fin 4} {n : Nat}

theorem State.Qualifies.step (h : s.Qualifies t sl n) (ho : t.Only [.meas, .win, .faults, .obs] u) (ht : t.OnlyTrace u)
    (hm : u.meas = { t.meas with job := u.meas.job, slices := u.meas.slices, preload := u.meas.preload })
    (hs : ∀ k : Fin 4, k ≠ sl → u.meas.slices[k] = t.meas.slices[k]) (hb : ∀ k, k ≠ 5 → u.win.mbAt k = t.win.mbAt k) : s.Qualifies u sl n where
  only := h.only.trans ho
  counters := h.counters.trans (ht.mono (by simp))
  sar := (ht.2 .sarErr (by decide)).trans h.sar
  meas := by rw [hm, h.meas]
  slices k hk := (hs k hk).trans (h.slices k hk)
  mailboxes k hk := (hb k hk).trans (h.mailboxes k hk)

theorem State.Qualifies.restoreFails (h : s.Qualifies t sl n) (k status : Nat) : s.Qualifies (t.restoreFails k status) sl n := by
  obtain ⟨ho, htr, hm, hb, -⟩ := t.restoreFails_ends k status
  exact h.step (ho.mono (by simp)) htr (by rw [hm]) (fun k _ => by rw [hm]) hb

theorem State.Qualifies.ends (h : s.Qualifies t sl n) (k status : Nat) : (t.restoreFails k status).meas.job = none ∧ (s.upAt .mgmt = true →
    ∀ o ∈ s.mgmt.outst, o.op = 0x0206 → o.done = none → (∃ g, o.got = some g ∧ g ≤ s.now) →
      (t.restoreFails k status).win.onWay 5 (· == .event 0x0206 status []) = true) := by
  obtain ⟨-, -, hm, -, hev⟩ := t.restoreFails_ends k status
  have hisl : t.isl = s.isl := h.only.2 .isl (by decide)
  have hmg : t.mgmt = s.mgmt := h.only.2 .mgmt (by decide)
  have hclock : t.clock = s.clock := h.only.2 .clock (by decide)
  refine ⟨by rw [hm], fun hu => ?_⟩
  rw [State.upAt, hisl, hmg, State.now, hclock] at hev
  exact hev hu

theorem State.Qualifies.reported (h : s.Qualifies t sl n) (cause : Nat) (k ev : Nat) (w : Int) :
    s.Qualifies ((t.report 0x20 cause 0x30).emitSlice k ev w) sl n := by
  obtain ⟨o, ho, htr⟩ := (t.report 0x20 cause 0x30).emit_eq .meas 0xE (k + 4 * ev) [unsignedOf 32 w]
  rw [State.emitSlice, ho]
  exact h.step (((State.report_only _ _ _ _).mono (by simp)).trans ((State.setObs_only _ o).mono (by simp))) htr rfl (fun _ _ => rfl)
    (fun _ _ => rfl)

/-- A qualification that ends with a failed self-check: counted, reported, without success. -/
theorem State.Qualifies.fails (h : s.Qualifies t sl n) (hf : t.faults = s.faults) (cause : Nat) (w : Int) :
    s.Qualifies (((t.report 0x20 cause 0x30).emitSlice sl.val 2 w).restoreFails sl.val stNotPermitted) sl n ∧
    (((t.report 0x20 cause 0x30).emitSlice sl.val 2 w).restoreFails sl.val stNotPermitted).meas.slices = t.meas.slices ∧
    (((t.report 0x20 cause 0x30).emitSlice sl.val 2 w).restoreFails sl.val stNotPermitted).faults = (s.report 0x20 cause 0x30).faults := by
  obtain ⟨o, ho, -⟩ := (t.report 0x20 cause 0x30).emit_eq .meas 0xE (sl.val + 4 * 2) [unsignedOf 32 w]
  have hr := (h.reported cause sl.val 2 w).restoreFails sl.val stNotPermitted
  rw [State.emitSlice, ho] at hr ⊢
  obtain ⟨hres, -, hm, -, -⟩ := ((t.report 0x20 cause 0x30).setObs o).restoreFails_ends sl.val stNotPermitted
  refine ⟨hr, by rw [hm]; rfl, (hres.2 .faults (by decide)).trans ?_⟩
  exact State.report_faults_congr hf (h.only.2 .clock (by decide)) _ _ _

theorem State.Qualifies.setMeas (h : s.Qualifies t sl n) {m : Meas}
    (hm : m = { t.meas with job := m.job, slices := m.slices, preload := m.preload })
    (hs : ∀ k : Fin 4, k ≠ sl → m.slices[k] = t.meas.slices[k]) : s.Qualifies (t.setMeas m) sl n :=
  h.step ((t.setMeas_only m).mono (by simp)) (.refl _ t) hm hs (fun _ _ => rfl)

end

/-- Settles O42: a failed slice by what fences it, a map for the rest by its compilation, a qualification by its conversions and its verdict. -/
theorem slicesFailAndQualify : Obligations.SlicesFailAndQualify := by
  refine ⟨⟨fun s sl cause hu hf hn => ?_, fun s sl hu hf => ?_⟩, fun s sl since cs ready hu hj ht => ?_⟩
  · obtain ⟨o, htr, ho⟩ := s.failSlice_eq sl cause
    refine ⟨_, exec_sliceCheckFail hu hf hn, ?_⟩
    rw [ho]
    exact ⟨⟨rfl, fun q hq => by cases q <;> first | exact absurd (by decide) hq | rfl⟩, htr, rfl, rfl, rfl⟩
  · refine ⟨_, exec_failureMapCompile hu hf, ?_⟩
    have hm : (if s.meas.inService = [] then none
      else (s.mgmt.committed.lowered (s.newLevel .mgmt) s.meas.inService false).toOption) = s.mapLeft := rfl
    rw [hm]
    cases hl : s.mapLeft with
    | some m => rfl
    | none =>
      obtain ⟨hmv, hq, huu⟩ := s.compiles.stopped_moved
      have hc : s.Only [.meas] s.compiles := s.setMeas_only _
      generalize s.compiles.stopped = w at hmv hq huu ⊢
      have hall : s.Only [.meas, .loop, .obs] w := (hc.mono (by simp)).trans hmv.only
      have hcount : s.CountersBut [.trigLost, .trcDrop] w := hmv.counters
      have hmeas : w.meas = { s.meas with failCompile := none, seqs := w.meas.seqs, chans := w.meas.chans } := hmv.meas
      have hloop : w.loop = { s.loop with interrupted := w.loop.interrupted, uUpd := w.loop.uUpd } := hmv.loop
      rw [huu] at hloop
      exact ⟨(hall.mono (by simp)).trans ((State.report_only _ _ _ _).mono (by simp)), hcount, hmeas, hq, hloop,
        State.report_faults_congr (hmv.only.2 .faults (by decide)) (hmv.only.2 .clock (by decide)) _ _ _⟩
  · intro sign v gain off skew x disagreeing marks again counted good ends slices
    have hx : s.meas.slice sl.val = x := s.meas.slice_eq sl
    have hmarks : failMarks x.convs cs = disagreeing := failMarks_eq x.convs cs
    have hcnt : (s.meas.slice sl.val).countConvs cs = (counted, again) := by
      rw [hx, Slice.countConvs_eq, hmarks]
      rfl
    have hcode (i : Nat) : qualCode cs i = v i := by
      show (cs[i]?.map convCode).getD 0 = _
      unfold v
      cases cs[i]? with
      | none => rfl
      | some c => exact convCode_eq c
    have hmeasure (k : Nat) : qualMeasure cs k = (off k, gain k, skew k) := by
      rw [qualMeasure_eq, mGainOf_eq, hcode, hcode, hcode, hcode]
    have hgood : qualGood cs = true ↔ good := by
      simp only [qualGood_iff, hmeasure, withinAbs_iff, withinJump_iff]
      rfl
    have hu0 : s.convsCounted sl.val cs =
        (s.setMeas { s.meas with slices := s.meas.slices.setIfInBounds sl.val counted }).countN .sarErr disagreeing.length := by
      show (s.setMeas (s.meas.setSlice sl.val ((s.meas.slice sl.val).countConvs cs).1)).countN .sarErr _ = _
      rw [hcnt, ← failMarks_length x.convs cs, hmarks]
      rfl
    have hq0 : s.Qualifies (s.convsCounted sl.val cs) sl disagreeing.length := by
      rw [hu0]
      exact ⟨((s.setMeas_only _).mono (by simp)).trans ((State.setObs_only _ _).mono (by simp)), (s.countN_counters .sarErr _).mono (by simp),
        Obs.count_self .., rfl, fun k hk => vector_set_other _ _ fun h => hk (Fin.ext h), fun _ _ => rfl⟩
    have hsl : (s.convsCounted sl.val cs).meas.slices[sl] = counted := by
      rw [hu0]
      exact vector_set_self ..
    have hcause : (s.meas.slice sl.val).qualCause cs ready = if !ready then some 4 else if again then some 3 else none := by
      unfold Slice.qualCause
      rw [hcnt]
    have hclock : (s.convsCounted sl.val cs).clock = s.clock := hq0.only.2 .clock (by decide)
    by_cases hbad : ready = false ∨ again = true
    · have hk : (s.meas.slice sl.val).qualCause cs ready = some (if ready then 3 else 4) := by
        rw [hcause]
        cases hr : ready
        · rfl
        · rw [hbad.resolve_left (by rw [hr]; nofun)]
          rfl
      have hex := exec_qualificationEnd_fails hu hj ht hk
      obtain ⟨hqf, hsf, hff⟩ := hq0.fails (by rw [hu0]; rfl) ((if ready then 3 else 4) + 256 * sl.val)
        (((if ready then 3 else 4 : Nat) : Int) + 256 * ((sl.val : Nat) : Int))
      have hends := (hq0.reported ((if ready then 3 else 4) + 256 * sl.val) sl.val 2
        (((if ready then 3 else 4 : Nat) : Int) + 256 * ((sl.val : Nat) : Int))).ends sl.val stNotPermitted
      refine ⟨_, hex, hqf.only, hqf.counters, hqf.sar, hqf.meas, hqf.slices, hqf.mailboxes, fun _ => ⟨?_, hends, hff⟩, fun hg => ?_⟩
      · rw [hsf]
        exact hsl
      · exact absurd hbad (by rw [hg.1, hg.2]; nofun)
    · have hready : ready = true := by
        cases hr : ready
        · exact absurd (.inl hr) hbad
        · rfl
      have hagain : again = false := Bool.eq_false_of_not_eq_true fun h => hbad (.inr h)
      have hk : (s.meas.slice sl.val).qualCause cs ready = none := by
        rw [hcause, hready, hagain]
        rfl
      have hex := exec_qualificationEnd_judged hu hj ht hk
      have hf0 : (s.convsCounted sl.val cs).faults = s.faults := by
        rw [hu0]
        rfl
      cases hg : qualGood cs
      · rw [State.qualify_bad hg] at hex
        have hq := hq0.restoreFails sl.val stNotPermitted
        obtain ⟨ho, -, hm, -, -⟩ := (s.convsCounted sl.val cs).restoreFails_ends sl.val stNotPermitted
        refine ⟨_, hex, hq.only, hq.counters, hq.sar, hq.meas, hq.slices, hq.mailboxes, fun h => absurd h hbad,
          fun _ => ⟨(ho.2 .faults (by decide)).trans hf0, fun _ => ⟨?_, hq0.ends ..⟩, fun h => ?_⟩⟩
        · rw [hm]
          exact hsl
        · exact absurd (hgood.2 h) (by rw [hg]; nofun)
      · have hq1 : s.Qualifies ((s.convsCounted sl.val cs).qualifiedAt sl.val cs) sl disagreeing.length :=
          hq0.setMeas rfl fun k hk => vector_set_other _ _ fun h => hk (Fin.ext h)
        have hsl1 : ((s.convsCounted sl.val cs).qualifiedAt sl.val cs).meas.slices[sl] = { counted with
            offAcc := 8 * off 3, gainAcc := 8 * gain 3, skewAcc := skew 3, old := none, rejOg := 0, rejSkew := 0
            latestP := none, latestU := none, phase := 0, since := 0, lastCal := s.now } := by
          have hown : ((s.convsCounted sl.val cs).qualifiedAt sl.val cs).meas.slices[sl] =
              { ((s.convsCounted sl.val cs).meas.slice sl.val).qualified (qualMeasure cs 3) with lastCal := (s.convsCounted sl.val cs).now } :=
            vector_set_self ..
          rw [hown, Meas.slice_eq, hsl, hmeasure, State.now, hclock, Slice.qualified, asl_eq, asl_eq, Int.mul_comm _ (2 ^ 3),
            Int.mul_comm _ (2 ^ 3)]
          rfl
        have hwith : ((s.convsCounted sl.val cs).qualifiedAt sl.val cs).meas.slicesWith sl.val = slices := by
          have hserv : ((s.convsCounted sl.val cs).qualifiedAt sl.val cs).meas.inService = s.meas.inService := by
            refine Meas.inService_congr fun k => ?_
            by_cases hks : k = sl
            · rw [hks, hsl1]
            · rw [hq1.slices k hks]
          rw [Meas.slicesWith, hserv]
        have hmgmt : (s.convsCounted sl.val cs).mgmt = s.mgmt := by rw [hu0]; rfl
        have hlevel : (s.convsCounted sl.val cs).newLevel .mgmt = s.newLevel .mgmt := by rw [hu0]; rfl
        cases hm : s.mgmt.committed.repack (s.newLevel .mgmt) slices with
        | none =>
          rw [State.qualify_noMap hg (by rw [hwith, hmgmt, hlevel, hm])] at hex
          have hq := hq1.restoreFails sl.val stInfeasible
          obtain ⟨ho, -, hmm, -, -⟩ := ((s.convsCounted sl.val cs).qualifiedAt sl.val cs).restoreFails_ends sl.val stInfeasible
          refine ⟨_, hex, hq.only, hq.counters, hq.sar, hq.meas, hq.slices, hq.mailboxes, fun h => absurd h hbad,
            fun _ => ⟨(ho.2 .faults (by decide)).trans hf0, fun h => absurd (hgood.1 hg) h, fun _ => ⟨?_, hq1.ends ..⟩⟩⟩
          rw [hmm]
          exact hsl1
        | some x =>
          obtain ⟨m, fs⟩ := x
          rw [State.qualify_map hg (by rw [hwith, hmgmt, hlevel, hm]), State.now, hclock] at hex
          have hq := hq1.setMeas (m := { ((s.convsCounted sl.val cs).qualifiedAt sl.val cs).meas with
            job := some (.qualified sl.val m fs (s.clock.tick + 2)) }) rfl (fun _ _ => rfl)
          refine ⟨_, hex, hq.only, hq.counters, hq.sar, hq.meas, hq.slices, hq.mailboxes, fun h => absurd h hbad,
            fun _ => ⟨hf0, fun h => absurd (hgood.1 hg) h, fun _ => ⟨hsl1, ?_, rfl⟩⟩⟩
          show (s.convsCounted sl.val cs).win = s.win
          rw [hu0]
          rfl

end Sys2Proof.Machine
end



section
/-! PROOFS. Sextant's windows: their codes, their verdicts and their reports (05 R121 to R128). -/

namespace Sys2Proof.Machine

open Sys2Proof

set_option Elab.async false

section
variable {s t : State}

theorem fitsS_20 (v : Int) : fitsS 20 v = true ↔ -524288 ≤ v ∧ v ≤ 524287 := by
  unfold fitsS satS
  norm_num
  split
  · exact ⟨nofun, fun h => by omega⟩
  · split
    · exact ⟨nofun, fun h => by omega⟩
    · exact ⟨fun _ => by omega, fun _ => rfl⟩

theorem sxCode_eq (b : Bool) (i : SxIn) : sxCode b i = if b = false then i.code
    else if 0 < i.iRef ∧ -524288 ≤ i.iIn * 524288 / i.iRef ∧ i.iIn * 524288 / i.iRef ≤ 524287 then
      BitVec.ofInt 20 (i.iIn * 524288 / i.iRef) else Config.sxOpen i.iIn i.iRef := by
  unfold sxCode
  cases b
  · rfl
  · refine (if_neg (by simp)).trans (Eq.trans ?_ (if_neg (by simp)).symm)
    by_cases h : 0 < i.iRef
    · rw [Int.fdiv_eq_ediv_of_nonneg _ (Int.le_of_lt h)]
      exact if_congr (and_congr_right fun _ => fitsS_20 _) rfl rfl
    · exact (if_neg fun c => h c.1).trans (if_neg fun c => h c.1).symm

theorem sxFails_eq (sum : Int) (count : Nat) (code : BitVec 20) (thr : Nat) :
    sxFails sum count code thr = decide (thr * 8388608 < (sum / (count : Int) - 16 * code.toInt).natAbs * 1000000) := by
  unfold sxFails
  dsimp only
  rw [asl_eq, Int.mul_comm _ (2 ^ 4)]
  rfl

theorem State.sxEnded_of {w : SxWindow} (hw : s.meas.sxWindow = some w) (hl : w.left = 0) (he : w.last < s.now) (b : Bool)
    (hb : decide (20 ≤ w.item) = b) : s.sxEnded b = some w := by
  unfold State.sxEnded
  rw [hw, Option.filter_some, hl, decide_eq_true he, hb, beq_self_eq_true b]
  rfl

/-- The report of a Sextant window that fails. -/
def State.sxReport (s : State) (cause : Nat) : Report :=
  ⟨0x21, BitVec.ofNat 16 cause, 0x30, false, false, 0, s.now + 1, s.clock.meridian + 1, false⟩

theorem State.plausibility_eq (s : State) (cause : Nat) : s.plausibility cause =
    { s with obs := s.obs.count .sxFail 1, faults := { s.faults with reports := s.faults.reports ++ [s.sxReport cause] } } := rfl

/-- A verdict on a window: MEAS becomes `m`, and a failure is reported. -/
def State.sxVerdict (s : State) (m : Meas) (bad : Bool) (cause : Nat) : State := if bad then (s.setMeas m).plausibility cause else s.setMeas m

theorem State.sxVerdict_spec (s : State) (m : Meas) (bad : Bool) (cause : Nat) : s.Only [.meas, .faults, .obs] (s.sxVerdict m bad cause) ∧
    (s.sxVerdict m bad cause).meas = m ∧
    (s.sxVerdict m bad cause).faults = (if bad then { s.faults with reports := s.faults.reports ++ [s.sxReport cause] } else s.faults) ∧
    (if bad then s.CountersBut [.sxFail] (s.sxVerdict m bad cause) ∧
      (s.sxVerdict m bad cause).obs.live.getD 8 0 = min (s.obs.live.getD 8 0 + 1) 0xFFFFFFFF else (s.sxVerdict m bad cause).obs = s.obs) := by
  have hm := s.setMeas_only m
  cases bad
  · exact ⟨hm.mono (by simp), rfl, rfl, rfl⟩
  · refine ⟨(hm.mono (by simp)).trans ⟨rfl, fun q hq => by cases q <;> first | exact absurd (by decide) hq | rfl⟩, rfl, rfl, ?_, ?_⟩
    · exact (s.setMeas m).countN_counters .sxFail 1
    · exact Obs.count_self ..

theorem exec_sextantReferenceWindow {w : SxWindow} {sx20 : BitVec 20} (hu : s.measUp = true) (h : s.sxEnded true = some w) :
    exec (.sextantReferenceWindow sx20) s = .next
      (s.sxVerdict { s.meas with sxWindow := none }
        (decide (s.mgmt.inForce.sxRefThr * 524288 < (sx20.toInt - Config.sxRecorded (w.item - 20)).natAbs * 1000000)) (0x100 + (w.item - 20))) := by
  show execSextantReferenceWindow sx20 s = _
  unfold execSextantReferenceWindow
  rw [h]
  exact stepIf_of hu

theorem exec_sextantComparison {w : SxWindow} {i : SxIn} {overload : Bool} (hu : s.measUp = true) (hs : s.meas.sampled = [])
    (hx : s.meas.sxEntries = []) (h : s.sxEnded false = some w) : exec (.sextantComparison i overload) s = .next
      (s.sxCompare w (sxCode (s.mgmt.inForce.refSel w.item) i) overload) := by
  show execSextantComparison i overload s = _
  unfold execSextantComparison
  rw [State.correct_idle hs hx, hu, h]
  dsimp only
  rw [h]
  rfl

theorem State.sxCompare_none {w : SxWindow} {code : BitVec 20} {overload : Bool} (h : w.spoiled = true ∨ w.count = 0 ∨ overload = true) :
    s.sxCompare w code overload = (s.setMeas { s.meas with sxWindow := none }).count .sxNocmp :=
  if_pos (by simpa [or_assoc] using h)

/-- MEAS after a comparison that stands. -/
def Meas.sxCompared (m : Meas) (w : SxWindow) (e : Option (QEntry × Nat)) (fail : Bool) (now : Nat) : Meas := { m with
  sxWindow := none, sxEntries := e.elim m.sxEntries fun e => m.sxEntries ++ [e]
  chans := m.chans.setIfInBounds w.item { m.chan w.item with xfailNext := some (fail, now + 1) } }

/-- The queue entry that a comparison brings with SX_Q (05 R128). -/
def State.sxBrings (s : State) (w : SxWindow) (code : BitVec 20) (fail : Bool) : Option (QEntry × Nat) :=
  if s.mgmt.inForce.sxQ then some (sxEntry w code fail (s.now + 1), s.now + 1) else none

theorem State.sxCompare_judged {w : SxWindow} {code : BitVec 20} {overload : Bool} (h : ¬ (w.spoiled = true ∨ w.count = 0 ∨ overload = true))
    {fail : Bool} (hf : sxFails w.sum w.count code (s.mgmt.inForce.sxThr w.item) = fail) :
    s.sxCompare w code overload = s.sxVerdict (s.meas.sxCompared w (s.sxBrings w code fail) fail s.now) fail w.item := by
  unfold State.sxCompare
  refine (if_neg (by simpa [or_assoc] using h)).trans ?_
  dsimp only
  rw [hf]
  unfold Meas.sxCompared State.sxBrings State.sxVerdict
  cases s.mgmt.inForce.sxQ <;> rfl

end

/-- Settles O43: by the verdict on a window, with none for a window that is spoiled or empty. -/
theorem sextantComparesItsWindows : Obligations.SextantComparesItsWindows := by
  intro s w i sx20 overload hu hw hl he fault ratio code none_ fail refFail reports
  refine ⟨fun hit hs hx => ⟨fun hn => ?_, fun hn => ?_⟩, fun hit => ?_⟩
  · have hex := exec_sextantComparison (i := i) (overload := overload) hu hs hx (State.sxEnded_of hw hl he false (decide_eq_false (by omega)))
    rw [State.sxCompare_none hn] at hex
    exact ⟨_, hex, ((s.setMeas_only _).mono (by simp)).trans ((State.setObs_only _ _).mono (by simp)), s.countN_counters .sxNocmp 1,
      Obs.count_self .., rfl⟩
  · have hcode : sxCode (s.mgmt.inForce.refSel w.item) i = code := sxCode_eq _ i
    have hex := exec_sextantComparison (i := i) (overload := overload) hu hs hx (State.sxEnded_of hw hl he false (decide_eq_false (by omega)))
    rw [hcode, State.sxCompare_judged (fail := fail) hn (sxFails_eq ..)] at hex
    have hm : s.meas.sxCompared w (s.sxBrings w code fail) fail s.now = { s.meas with
        sxWindow := none, chans := s.meas.chans.setIfInBounds w.item { s.meas.chan w.item with xfailNext := some (fail, s.now + 1) }
        sxEntries := if s.mgmt.inForce.sxQ then [(sxEntry w code fail (s.now + 1), s.now + 1)] else [] } := by
      unfold Meas.sxCompared State.sxBrings
      rw [hx]
      cases s.mgmt.inForce.sxQ <;> rfl
    have hch (c : Fin 20) : (s.meas.sxCompared w (s.sxBrings w code fail) fail s.now).chans[c] =
        if c.val = w.item then { s.meas.chans[c] with xfailNext := some (fail, s.now + 1) } else s.meas.chans[c] := by
      have hcs : (s.meas.sxCompared w (s.sxBrings w code fail) fail s.now).chans =
        s.meas.chans.setIfInBounds w.item { s.meas.chan w.item with xfailNext := some (fail, s.now + 1) } := rfl
      rw [hcs]
      by_cases h : c.val = w.item
      · rw [if_pos h, ← h, Meas.chan_fin]
        exact vector_set_self ..
      · rw [if_neg h]
        exact vector_set_other _ _ h
    obtain ⟨ho, hmeas, hr⟩ := s.sxVerdict_spec (s.meas.sxCompared w (s.sxBrings w code fail) fail s.now) fail w.item
    refine ⟨_, hex, ho, ?_, fun c => ?_, hr⟩
    · rw [hmeas, hm]
    · rw [hmeas]
      exact hch c
  · obtain ⟨ho, hmeas, hr⟩ := s.sxVerdict_spec { s.meas with sxWindow := none } refFail (0x100 + (w.item - 20))
    exact ⟨_, exec_sextantReferenceWindow hu (State.sxEnded_of hw hl he true (decide_eq_true hit)), ho, hmeas, hr⟩

end Sys2Proof.Machine
end



section
/-! PROOFS. Linearisation: what one result, one variable and one run change (07 R174, R176, R182 to R184). -/

namespace Sys2Proof.Machine

open Sys2Proof

set_option Elab.async false

section
variable {s t : State}

/-! ## One variable -/

/-- The variable after an evaluation (07 R182 to R184). -/
def State.newVar (s : State) (v : Nat) : Var :=
  let e := s.evalVar v
  let st := withValid e.2.1
  let old := s.meas.var v
  e.1.elim (old.lastValid.elim { old with value := 0, status := st, stamp := 0 } fun x => { old with value := x.1, status := st, stamp := x.2 })
    fun y => ⟨y, st, e.2.2, if isValid st then some (y, e.2.2) else old.lastValid⟩

theorem State.runVar_eq (s : State) (v : Nat) : s.runVar v =
    (s.setMeas { s.meas with vars := s.meas.vars.setIfInBounds v (s.newVar v) }).setObs
      (if (s.evalVar v).2.1.testBit 5 then s.obs.count .linSat 1 else s.obs) := by
  unfold State.runVar State.newVar
  rcases s.evalVar v with ⟨_ | y, flags, stamp⟩
  · dsimp only
    cases (s.meas.var v).lastValid <;> cases flags.testBit 5 <;> rfl
  · dsimp only
    cases flags.testBit 5 <;> rfl

/-! ## What linearisation can change -/

/-- What a result's engines can change. -/
structure State.Linearises (s t : State) : Prop where
  only : s.Only [.meas, .loop, .obs] t
  counters : s.CountersBut [.linSat, .rangeChg] t
  meas : t.meas = { s.meas with
    chans := t.meas.chans, vars := t.meas.vars, closingSeen := t.meas.closingSeen, closeAt := t.meas.closeAt }
  loop : t.loop = { s.loop with feed := t.loop.feed, record := t.loop.record, todo := t.loop.todo }

theorem State.Linearises.refl (s : State) : s.Linearises s := ⟨.refl _ s, .refl _ s, rfl, rfl⟩

theorem State.Linearises.trans {u : State} (h : s.Linearises t) (g : t.Linearises u) : s.Linearises u where
  only := h.only.trans g.only
  counters := h.counters.trans g.counters
  meas := by rw [g.meas, h.meas]
  loop := by rw [g.loop, h.loop]

theorem State.Linearises.setMeas (s : State) (cs : Vector Chan 20) (vs : Vector Var 8) (l : List ((Nat × Nat) × List Nat)) (n : Option Nat) :
    s.Linearises (s.setMeas { s.meas with chans := cs, vars := vs, closingSeen := l, closeAt := n }) :=
  ⟨(s.setMeas_only _).mono (by simp), .refl _ s, rfl, rfl⟩

theorem State.Linearises.count (s : State) {c : Ctr} (h : c ∈ [Ctr.linSat, .rangeChg]) : s.Linearises (s.count c) :=
  ⟨(State.setObs_only s _).mono (by simp), (s.countN_counters c 1).mono (by simpa using h), rfl, rfl⟩

theorem State.runVar_linearises (s : State) (v : Nat) : s.Linearises (s.runVar v) := by
  rw [s.runVar_eq]
  have h := State.Linearises.setMeas s s.meas.chans (s.meas.vars.setIfInBounds v (s.newVar v)) s.meas.closingSeen s.meas.closeAt
  split
  · exact h.trans (.count _ (by simp))
  · exact h

theorem State.runVars_linearises (s : State) (vs : List Nat) : s.Linearises (vs.foldl State.runVar s) :=
  List.foldlRecOn (motive := s.Linearises) _ _ (.refl s) fun t ht v _ => ht.trans (t.runVar_linearises v)

/-- The feed that PV gives now (07 R174). -/
def State.newFeed (s : State) : Feed := ⟨(s.meas.var 0).value, (s.meas.var 0).status, (s.meas.var 0).stamp, s.now⟩

theorem State.postFeed_eq (s : State) : s.postFeed = s.setLoop { s.loop with
    record := (s.newFeed :: s.loop.record).take 128
    feed := if s.loopUp && !s.loop.replaying then some s.newFeed else s.loop.feed
    todo := if s.loopUp && !s.loop.replaying then s.loop.todo else (s.loop.todo ++ [s.newFeed]).drop ((s.loop.todo ++ [s.newFeed]).length - 128) } := by
  have hf : (⟨(s.meas.var 0).value, (s.meas.var 0).status, (s.meas.var 0).stamp, s.now⟩ : Feed) = s.newFeed := rfl
  unfold State.postFeed lastFeeds
  dsimp only
  rw [hf]
  generalize (s.newFeed :: s.loop.record).take 128 = r
  generalize (s.loop.todo ++ [s.newFeed]).drop _ = l
  cases s.loopUp && !s.loop.replaying <;> rfl

theorem State.Linearises.setLoop (s : State) (f : Option Feed) (r l : List Feed) :
    s.Linearises (s.setLoop { s.loop with feed := f, record := r, todo := l }) :=
  ⟨(s.setLoop_only _).mono (by simp), .refl _ s, rfl, rfl⟩

theorem State.postFeed_linearises (s : State) : s.Linearises s.postFeed := by
  rw [s.postFeed_eq]
  generalize (s.loop.todo ++ [s.newFeed]).drop _ = l
  exact .setLoop s _ _ _

theorem State.noteClosing_linearises (s : State) (ch : Nat) (run : Nat × Nat) : s.Linearises (s.noteClosing ch run) := by
  unfold State.noteClosing
  dsimp only
  split
  · exact ((State.Linearises.setMeas s s.meas.chans s.meas.vars _ _).trans (State.runVars_linearises _ _)).trans (State.postFeed_linearises _)
  · exact State.Linearises.setMeas s s.meas.chans s.meas.vars _ _

/-! ## One result -/

/-- What a channel's table sees of its source, if it names one (07 R167). -/
def State.sourceOf (s : State) (ch : Nat) : Option (Int × BitVec 16) :=
  (tableSource (s.meas.table ch)).bind fun k => (s.meas.chan k).earlier s.now

/-- The source's value is not valid, or there is none (07 R168). -/
def State.sourceBad (s : State) (ch : Nat) : Bool :=
  (tableSource (s.meas.table ch)).isSome && (s.sourceOf ch).elim true fun x => !isValid x.2

/-- The value of a result (07 R166). -/
def State.linValue (s : State) (r : Result) : Clamped :=
  linearise (s.meas.table r.chan) r.res r.gain (s.mgmt.inForce.gMin r.chan) ((s.sourceOf r.chan).elim 0 (·.1))

/-- The status of a result's value (07 Table 7-6). -/
def State.linStatus (s : State) (r : Result) : BitVec 16 :=
  let c := s.meas.chan r.chan
  let a := s.mgmt.inForce
  withValid (r.tags.toNat % 32 + 32 * b2n (s.linValue r).sat + 64 * b2n c.sensorOpen +
    128 * b2n (decide (asr r.res 8 < a.rngLo r.chan ∨ a.rngHi r.chan < asr r.res 8)) + 256 * b2n (s.sourceBad r.chan))

/-- The channel's range decision on a result. -/
def State.rangeOn (s : State) (r : Result) : Chan × Bool :=
  (s.meas.chan r.chan).range s.mgmt.inForce r.chan r.res (r.tags.toNat % 32) s.now

/-- The channel after a result. -/
def State.linearised (s : State) (r : Result) : Chan :=
  let c := (s.rangeOn r).1
  { c with
    linPrev := if c.linTick < s.now then c.lin else c.linPrev
    linPrevStatus := if c.linTick < s.now then c.linStatus else c.linPrevStatus
    hasPrev := if c.linTick < s.now then c.hasLin else c.hasPrev
    lin := (s.linValue r).v, linStatus := s.linStatus r, linStamp := r.stamp, hasLin := true, linTick := s.now }

/-- The counters after a result. -/
def State.linObs (s : State) (r : Result) : Obs :=
  let o := if (s.linValue r).sat then s.obs.count .linSat 1 else s.obs
  if (s.rangeOn r).2 then o.count .rangeChg 1 else o

theorem State.lineariseOne_eq (s : State) (r : Result) :
    s.lineariseOne r = (s.setMeas (s.meas.setChan r.chan (s.linearised r))).setObs (s.linObs r) := by
  unfold State.lineariseOne
  extract_lets a m c t src seen bad vt y u rangeBad tags st
  have hseen : seen = s.sourceOf r.chan := by
    show seen = (tableSource t).bind _
    unfold seen src
    cases tableSource t <;> rfl
  have hvt : vt = (s.sourceOf r.chan).elim 0 (·.1) := by
    rw [← hseen]
    unfold vt
    cases seen <;> rfl
  have hbad : bad = s.sourceBad r.chan := by
    unfold State.sourceBad
    rw [← hseen]
    unfold bad
    cases seen <;> rfl
  have hy : y = s.linValue r := congrArg (linearise t r.res r.gain (a.gMin r.chan)) hvt
  have hst : st = s.linStatus r := by
    unfold State.linStatus
    rw [← hy, ← hbad]
  rcases hr : c.range a r.chan r.res tags s.now with ⟨d, changed⟩
  have hon : s.rangeOn r = (d, changed) := hr
  unfold State.linearised State.linObs
  rw [hon, ← hy, ← hst]
  clear_value y st
  cases y.sat <;> cases changed <;> rfl

theorem State.lineariseOne_linearises (s : State) (r : Result) : s.Linearises (s.lineariseOne r) := by
  have h := State.Linearises.setMeas s (s.meas.setChan r.chan (s.linearised r)).chans s.meas.vars s.meas.closingSeen s.meas.closeAt
  rw [s.lineariseOne_eq]
  unfold State.linObs
  dsimp only
  cases (s.linValue r).sat <;> cases (s.rangeOn r).2
  · exact h
  · exact h.trans (.count _ (by simp))
  · exact h.trans (.count _ (by simp))
  · exact (h.trans (.count (c := .linSat) _ (by simp))).trans (.count (c := .rangeChg) _ (by simp))

theorem State.engine_linearises (s : State) (r : Result) : s.Linearises (s.engine r) := by
  unfold State.engine
  split
  · dsimp only
    split
    · exact ((s.lineariseOne_linearises r).trans (State.noteClosing_linearises ..)).trans (State.runVars_linearises ..)
    · exact (s.lineariseOne_linearises r).trans (State.runVars_linearises ..)
  · exact .refl s

theorem exec_linearisation (hu : s.measUp = true) (hw : s.meas.swap = none) : exec .linearisation s = .next
    ((s.meas.results.filter fun r => decide (r.tick < s.now)).foldl State.engine
      (s.setMeas { s.meas with results := s.meas.results.filter fun r => decide (s.now ≤ r.tick) })) := by
  have hs : s.swapEffect = s := by
    unfold State.swapEffect
    rw [hw]
  refine (stepIf_of hu).trans ?_
  unfold State.lineariseAll
  rw [hs]

end

end Sys2Proof.Machine
end



section
/-! PROOFS. The arithmetic of values and variables, and table swaps (07 R166, R171, R173, R176, R182 to R184). -/

namespace Sys2Proof.Machine

open Sys2Proof

set_option Elab.async false

section

/-! ## Saturation and the polynomial (07 R166) -/

/-- A value clamped to `w` bits. -/
def satInt (w : Nat) (v : Int) : Int := max (-2 ^ (w - 1)) (min (2 ^ (w - 1) - 1) v)

theorem satS_eq (w : Nat) (v : Int) : satS w v = (satInt w v, decide (v ≠ satInt w v)) := by
  unfold satS satInt
  rw [Nat.cast_pow]
  have h : (1 : Int) ≤ 2 ^ (w - 1) := one_le_pow₀ (by norm_num)
  push_cast
  generalize (2 : Int) ^ (w - 1) = p at h
  split
  · have : max (-p) (min (p - 1) v) = -p := by omega
    rw [this, decide_eq_true (by omega)]
  · split
    · have : max (-p) (min (p - 1) v) = p - 1 := by omega
      rw [this, decide_eq_true (by omega)]
    · have : max (-p) (min (p - 1) v) = v := by omega
      rw [this, decide_eq_false (by simp)]

theorem Clamped.to_v (x : Clamped) (w : Nat) : (x.to w).v = satInt w x.v := by
  unfold Clamped.to
  rw [satS_eq]

/-- One Horner step (07 R166). -/
def hornerStep (m p q : Int) : Int := satInt 64 (satInt 64 (p * m / 2147483648) + q)

theorem Clamped.step_v (x y : Clamped) (m : Int) : ((x.mul31 m).add y).v = hornerStep m x.v y.v := by
  unfold Clamped.mul31 Clamped.add hornerStep
  rw [Clamped.to_v, Clamped.to_v, asr_eq]
  rfl

def hornerRow (t : List Byte) (tv : Int) (i : Nat) : Int :=
  hornerStep tv (hornerStep tv (hornerStep tv (hornerStep tv 0 (ltC t i 3)) (ltC t i 2)) (ltC t i 1)) (ltC t i 0)

theorem hornerT_v (t : List Byte) (i : Nat) (tv : Int) : (hornerT t i tv).v = hornerRow t tv i := by
  simp only [hornerT, List.foldl, Clamped.step_v]
  rfl

def hornerAll (t : List Byte) (u tv : Int) : Int :=
  let row := hornerRow t tv
  hornerStep u (hornerStep u (hornerStep u (hornerStep u (hornerStep u (hornerStep u 0 (row 5)) (row 4)) (row 3)) (row 2)) (row 1)) (row 0)

theorem hornerU_v (t : List Byte) (u tv : Int) : (hornerU t u tv).v = hornerAll t u tv := by
  simp only [hornerU, List.foldl, Clamped.step_v, hornerT_v]
  rfl

theorem polyValue_v (t : List Byte) (u tv : Int) : (polyValue t u tv).v = satInt 32
    (if 0 ≤ ltExp t then satInt 64 (hornerAll t u tv * 2 ^ (ltExp t).toNat) else hornerAll t u tv / 2 ^ (-ltExp t).toNat) := by
  unfold polyValue
  dsimp only
  rw [Clamped.to_v]
  split
  · rw [Clamped.to_v, asl_eq, hornerU_v]
  · rw [asr_eq, hornerU_v]

theorem regain_within {g low : Nat} (v : Int) (h1 : low ≤ g) (h2 : g ≤ low + 8) : regain g low (asl v 8) = v * 2 ^ (8 - (g - low)) := by
  have hk : (2 : Int) ^ 8 = 2 ^ (8 - (g - low)) * 2 ^ (g - low) := by rw [← pow_add]; congr 1; omega
  unfold regain
  rw [if_neg (by omega), asl_eq, asr_eq, hk, ← Int.mul_assoc, Int.mul_ediv_cancel _ (by positivity)]

/-! ## Status words (07 Table 7-6) -/

theorem withValid_low {f n : Nat} (h : n < 15) : (withValid f).getLsbD n = f.testBit n := by
  unfold withValid
  rw [BitVec.getLsbD_ofNat, decide_eq_true (by omega : n < 16), Bool.true_and]
  split
  · rw [Nat.add_comm, show 0x8000 = 2 ^ 15 from rfl, Nat.testBit_two_pow_add_gt h]
  · rfl

theorem withValid_valid {f : Nat} (h : f < 2 ^ 15) : (withValid f).getLsbD 15 = decide (f &&& invalidating = 0) := by
  have hb : f.testBit 15 = false := Nat.testBit_lt_two_pow h
  unfold withValid
  rw [BitVec.getLsbD_ofNat, decide_eq_true (by omega : 15 < 16), Bool.true_and]
  split
  · next h0 => rw [Nat.add_comm, show 0x8000 = 2 ^ 15 from rfl, Nat.testBit_two_pow_add_eq, hb, decide_eq_true h0]; rfl
  · next h0 => rw [Nat.add_zero, hb, decide_eq_false h0]

/-- A word is valid when none of its invalidating flags is set. -/
theorem withValid_any {f : Nat} (h : f < 2 ^ 15) :
    (withValid f).getLsbD 15 = !((List.range 16).any fun n => (0x09F3).testBit n && (withValid f).getLsbD n) := by
  have hbit (n : Nat) : (f &&& invalidating).testBit n = (f.testBit n && (0x09F3).testBit n) := Nat.testBit_and ..
  have hhigh {n : Nat} (hn : (0x09F3).testBit n = true) : n < 12 := by
    refine Nat.not_le.1 fun hle => ?_
    have hlt : 0x09F3 < 2 ^ n := Nat.lt_of_lt_of_le (by norm_num) (Nat.pow_le_pow_right (by norm_num) hle)
    rw [Nat.testBit_lt_two_pow hlt] at hn
    exact nomatch hn
  rw [withValid_valid h]
  by_cases h0 : f &&& invalidating = 0
  · have hnone : ((List.range 16).any fun n => (0x09F3).testBit n && (withValid f).getLsbD n) = false := by
      refine List.any_eq_false.2 fun n _ hn => ?_
      obtain ⟨h1, h2⟩ := Bool.and_eq_true_iff.1 hn
      rw [withValid_low (by have := hhigh h1; omega)] at h2
      have := hbit n
      rw [h0, Nat.zero_testBit, h1, h2] at this
      exact nomatch this
    rw [decide_eq_true h0, hnone]
    rfl
  · obtain ⟨n, hn⟩ := Nat.exists_testBit_of_ne_zero h0
    rw [hbit] at hn
    obtain ⟨h1, h2⟩ := Bool.and_eq_true_iff.1 hn
    have hlt := hhigh h2
    have hsome : ((List.range 16).any fun n => (0x09F3).testBit n && (withValid f).getLsbD n) = true := by
      refine List.any_eq_true.2 ⟨n, List.mem_range.2 (by omega), ?_⟩
      rw [h2, withValid_low (by omega), h1]
      rfl
    rw [decide_eq_false h0, hsome]
    rfl

/-! ## The root (07 R183) -/

theorem isqrtAux_spec (k r n : Nat) (hr : r * r ≤ n) (hn : n < (r + 2 ^ k) * (r + 2 ^ k)) :
    isqrtAux k r n * isqrtAux k r n ≤ n ∧ n < (isqrtAux k r n + 1) * (isqrtAux k r n + 1) := by
  induction k generalizing r with
  | zero => exact ⟨hr, hn⟩
  | succ k ih =>
    unfold isqrtAux
    dsimp only
    split
    · next h => exact ih _ h (by rw [Nat.add_assoc, ← Nat.two_mul, ← Nat.pow_succ']; exact hn)
    · next h => exact ih _ hr (by omega)

theorem isqrt_spec {n : Nat} (h : n < 2 ^ 64) : isqrt n * isqrt n ≤ n ∧ n < (isqrt n + 1) * (isqrt n + 1) :=
  isqrtAux_spec 32 0 n (Nat.zero_le _) (by rw [Nat.zero_add, ← Nat.pow_add]; exact h)

/-! ## The flags of a variable -/

theorem orFlags_bit (cs : List Chan) (n : Nat) : (orFlags cs).testBit n = cs.any fun c => c.linStatus.getLsbD n := by
  have h (f : Nat) : (cs.foldl (fun f c => f ||| c.linStatus.toNat) f).testBit n = (f.testBit n || cs.any fun c => c.linStatus.getLsbD n) := by
    induction cs generalizing f with
    | nil => simp
    | cons c cs ih =>
      rw [List.foldl_cons, ih, Nat.testBit_or, List.any_cons, Bool.or_assoc]
      rfl
  rw [orFlags, h, Nat.zero_testBit, Bool.false_or]

theorem testBit_flag (b : Bool) (k n : Nat) : (2 ^ k * b2n b).testBit n = (decide (k = n) && b) := by
  cases b
  · simp [b2n]
  · simp [b2n, Nat.testBit_two_pow]

/-- The flags of a variable that OP 0 makes. -/
theorem sumFlags_bit (x : Nat) (sat cut : Bool) (n : Nat) : ((x &&& 0x1FF) ||| (32 * b2n sat) ||| (512 * b2n cut)).testBit n =
    (x.testBit n && decide (n < 9) || (decide (5 = n) && sat) || (decide (9 = n) && cut)) := by
  rw [Nat.testBit_or, Nat.testBit_or, Nat.testBit_and, show 0x1FF = 2 ^ 9 - 1 from rfl, Nat.testBit_two_pow_sub_one,
    show 32 = 2 ^ 5 from rfl, show 512 = 2 ^ 9 from rfl, testBit_flag, testBit_flag]

theorem sumFlags_lt (x : Nat) (sat cut : Bool) : (x &&& 0x1FF) ||| (32 * b2n sat) ||| (512 * b2n cut) < 2 ^ 15 := by
  have hx : x &&& 0x1FF < 2 ^ 9 := Nat.and_lt_two_pow _ (by norm_num)
  have hs : 32 * b2n sat < 2 ^ 9 := by cases sat <;> decide
  have hc : 512 * b2n cut < 2 ^ 10 := by cases cut <;> decide
  refine Nat.or_lt_two_pow (Nat.or_lt_two_pow ?_ ?_) ?_ <;> omega

/-- The flags of a variable over a set of members. -/
theorem setFlags_bits (x : Nat) (part short sat cut : Bool) :
    let f := (x &&& 0x0C) + 1024 * b2n part + 2048 * b2n short + 32 * b2n sat + 512 * b2n cut
    f < 2 ^ 15 ∧ f.testBit 2 = x.testBit 2 ∧ f.testBit 3 = x.testBit 3 ∧ f.testBit 5 = sat ∧ f.testBit 9 = cut ∧ f.testBit 10 = part ∧
      f.testBit 11 = short := by
  intro f
  have h2 : (x &&& 0x0C).testBit 2 = x.testBit 2 := by
    rw [Nat.testBit_and, show Nat.testBit 0x0C 2 = true by decide, Bool.and_true]
  have h3 : (x &&& 0x0C).testBit 3 = x.testBit 3 := by
    rw [Nat.testBit_and, show Nat.testBit 0x0C 3 = true by decide, Bool.and_true]
  have hlt : x &&& 0x0C < 2 ^ 4 := Nat.and_lt_two_pow _ (by norm_num)
  have hle (b : Bool) : b2n b ≤ 1 := by cases b <;> decide
  have hbit {b : Bool} {v : Nat} (h : v = b2n b) : decide (v = 1) = b := by rw [h]; cases b <;> rfl
  rw [← h2, ← h3]
  unfold f
  simp only [Nat.testBit_eq_decide_div_mod_eq]
  generalize x &&& 0x0C = y at hlt ⊢
  have := hle part
  have := hle short
  have := hle sat
  have := hle cut
  refine ⟨by omega, decide_eq_decide.2 (by omega), decide_eq_decide.2 (by omega), hbit (by omega), hbit (by omega), hbit (by omega), hbit (by omega)⟩

/-! ## The end of a variable (07 R183) -/

theorem fitsS_64 (v : Int) : fitsS 64 v = true ↔ -9223372036854775808 ≤ v ∧ v ≤ 9223372036854775807 := by
  unfold fitsS
  rw [satS_eq]
  unfold satInt
  norm_num
  omega

theorem rootOf_none {y : Int} (cutoff : Int) (h : y ≤ 0) : rootOf y cutoff = (0, true) := by
  have hn : ¬ 0 < y := Int.not_lt.2 h
  unfold rootOf
  rw [if_neg hn]
  dsimp only
  split <;> rfl

theorem rootOf_some {y : Int} (cutoff : Int) (h0 : 0 < y) (h : y ≤ 2147483647) :
    ∃ r : Int, 0 < r ∧ r * r ≤ y * 65536 ∧ y * 65536 < (r + 1) * (r + 1) ∧
      rootOf y cutoff = (if r < cutoff then 0 else r, decide (r < cutoff)) := by
  obtain ⟨k, rfl⟩ := Int.eq_ofNat_of_zero_le (Int.le_of_lt h0)
  obtain ⟨h1, h2⟩ := isqrt_spec (n := k * 65536) (by norm_num; omega)
  have hpos : 0 < isqrt (k * 65536) := by
    refine Nat.pos_of_ne_zero fun hz => ?_
    rw [hz] at h2
    omega
  refine ⟨isqrt (k * 65536), by exact_mod_cast hpos, by exact_mod_cast h1, by exact_mod_cast h2, ?_⟩
  unfold rootOf
  dsimp only
  rw [if_pos h0, Int.toNat_natCast]
  split
  · next hc => rw [decide_eq_true hc]
  · next hc =>
    rw [decide_eq_false hc]
    exact congrArg _ (beq_eq_false_iff_ne.2 (by exact_mod_cast Nat.ne_of_gt hpos))

/-- The value of a variable for a sum that an int64 holds. -/
theorem Alm.endVar_eq (a : Alm) (v : Nat) {sum : Int} (h1 : -9223372036854775808 ≤ sum) (h2 : sum ≤ 9223372036854775807) :
    a.endVar v sum = if a.varSqrt v then ((rootOf (satInt 32 (sum / 8388608)) (a.varCutoff v)).1,
        decide (sum / 8388608 ≠ satInt 32 (sum / 8388608)), (rootOf (satInt 32 (sum / 8388608)) (a.varCutoff v)).2)
      else (satInt 32 (sum / 8388608), decide (sum / 8388608 ≠ satInt 32 (sum / 8388608)), false) := by
  unfold Alm.endVar
  dsimp only
  rw [if_pos ((fitsS_64 sum).2 ⟨h1, h2⟩), asr_eq, satS_eq]
  rfl

end


/-! ## The end of a swap (07 R171, R173) -/

section
variable {s : State}

/-- An event for a command that waits for MEAS is on its way to MGMT. -/
theorem State.measEvent_reaches (s : State) (op status : Nat) (res : List Byte) (hu : s.upAt .mgmt = true) {o : Outst} (ho : o ∈ s.mgmt.outst)
    (hop : o.op = op) (hd : o.done = none) (hg : ∃ g, o.got = some g ∧ g ≤ s.now) :
    (s.measEvent op 0 status res).win.onWay 5 (· == .event op status res) = true := by
  obtain ⟨g, hgot, hle⟩ := hg
  have htaken : o ∈ s.takenBy op 0 := by
    refine List.mem_filter.2 ⟨ho, ?_⟩
    rw [hop, hd, hgot, beq_self_eq_true]
    exact decide_eq_true hle
  have hevent : o.event op status res = .event op status res := by
    rw [Outst.event, Outst.answer, if_pos hop, hop]
  have hcome := (s.measEvent_posts op 0 status res).2 hu o htaken
  rw [hevent] at hcome
  generalize (s.measEvent op 0 status res).win = w at hcome
  exact List.any_eq_true.2 ⟨_, hcome, beq_self_eq_true _⟩

def Meas.swapActive (m : Meas) (mask : BitVec 20) : Vector (List Byte) 20 :=
  Vector.ofFn fun c => if mask.getLsbD c.val then m.shadowTable c.val else m.table c.val

def Meas.swapShadow (m : Meas) (mask : BitVec 20) : Vector (List Byte) 20 :=
  Vector.ofFn fun c => if mask.getLsbD c.val then m.table c.val else m.shadowTable c.val

/-- MEAS with the tables of a mask exchanged, and AON's preload store with them. -/
def Meas.swapped (m : Meas) (mask : BitVec 20) : Meas := { m with
  swap := none, tables := m.swapActive mask, shadowTables := m.swapShadow mask
  preload := { m.preload with tables := (m.swapActive mask).toList } }

theorem Meas.swapTables_eq (m : Meas) (mask : BitVec 20) :
    m.swapTables mask = { m with tables := m.swapActive mask, shadowTables := m.swapShadow mask } := rfl

theorem Meas.swapped_eq (m : Meas) (mask : BitVec 20) : m.swapped mask = { m with
    swap := none, tables := (m.swapped mask).tables, shadowTables := (m.swapped mask).shadowTables
    preload := { m.preload with tables := (m.swapped mask).tables.toList } } := by
  unfold Meas.swapped
  generalize m.swapActive mask = x
  generalize m.swapShadow mask = y
  rfl

theorem Meas.table_fin (m : Meas) (c : Fin 20) : m.table c.val = m.tables[c] := by
  simp [Meas.table]

theorem Meas.shadowTable_fin (m : Meas) (c : Fin 20) : m.shadowTable c.val = m.shadowTables[c] := by
  simp [Meas.shadowTable]

theorem Meas.swapped_tables (m : Meas) (mask : BitVec 20) (c : Fin 20) :
    (m.swapped mask).tables[c] = (if mask.getLsbD c.val then m.shadowTables[c] else m.tables[c]) ∧
    (m.swapped mask).shadowTables[c] = if mask.getLsbD c.val then m.tables[c] else m.shadowTables[c] := by
  have h1 : (m.swapActive mask)[c.val] = if mask.getLsbD c.val then m.shadowTable c.val else m.table c.val := by
    simp only [Meas.swapActive, Vector.getElem_ofFn]
  have h2 : (m.swapShadow mask)[c.val] = if mask.getLsbD c.val then m.table c.val else m.shadowTable c.val := by
    simp only [Meas.swapShadow, Vector.getElem_ofFn]
  have ht : (m.swapped mask).tables = m.swapActive mask := rfl
  have hs : (m.swapped mask).shadowTables = m.swapShadow mask := rfl
  simp only [ht, hs, Fin.getElem_fin, h1, h2, Meas.table_fin, Meas.shadowTable_fin, and_self]

/-- The NVM with the tables of some channels saved. -/
def Nvm.saveTables (n : Nvm) (f : Nat → List Byte) (cs : List Nat) : Nvm := cs.foldl (fun n c => n.saveTable c (f c)) n

theorem State.foldl_saveTable (s : State) (f : Nat → List Byte) (cs : List Nat) :
    cs.foldl (fun s c => s.setNvm (s.nvm.saveTable c (f c))) s = s.setNvm (s.nvm.saveTables f cs) := by
  induction cs generalizing s with
  | nil => rfl
  | cons c cs ih => exact ih _

theorem Nvm.saveTables_frame (n : Nvm) (f : Nat → List Byte) (cs : List Nat) : n.saveTables f cs = { n with
    tables := (n.saveTables f cs).tables, bad := (n.saveTables f cs).bad } := by
  induction cs generalizing n with
  | nil => rfl
  | cons c cs ih => exact ih (n.saveTable c (f c))

theorem Nvm.saveTables_tables (n : Nvm) (f : Nat → List Byte) (cs : List Nat) (hnd : cs.Nodup) (k : Nat) (hk : k < n.tables.length) :
    (n.saveTables f cs).tables[k]? = some (if k ∈ cs then (n.tables.getD k ⟨none, none⟩).put (f k) else n.tables.getD k ⟨none, none⟩) := by
  have hget : n.tables[k]? = some (n.tables.getD k ⟨none, none⟩) := by
    rw [List.getD_eq_getElem?_getD, List.getElem?_eq_getElem hk, Option.getD_some]
  induction cs generalizing n with
  | nil => rw [if_neg List.not_mem_nil]; exact hget
  | cons c cs ih =>
    obtain ⟨hc, hcs⟩ := List.nodup_cons.1 hnd
    let n' := n.saveTable c (f c)
    have ht : n'.tables = n.tables.set c ((n.tables.getD c ⟨none, none⟩).put (f c)) := rfl
    have hk' : k < n'.tables.length := by rw [ht, List.length_set]; exact hk
    have hget' : n'.tables[k]? = some (n'.tables.getD k ⟨none, none⟩) := by
      rw [List.getD_eq_getElem?_getD, List.getElem?_eq_getElem hk', Option.getD_some]
    have hrest := ih n' hcs hk' hget'
    refine hrest.trans (congrArg some ?_)
    by_cases he : k = c
    · subst he
      rw [if_neg hc, if_pos List.mem_cons_self, ht, List.getD_eq_getElem?_getD, List.getElem?_set_self hk, Option.getD_some]
    · have hsame : n'.tables.getD k ⟨none, none⟩ = n.tables.getD k ⟨none, none⟩ := by
        rw [ht, List.getD_eq_getElem?_getD, List.getElem?_set_ne (Ne.symm he), ← List.getD_eq_getElem?_getD]
      rw [hsame]
      simp [he]

/-- The channels of a mask. -/
def maskChans (mask : BitVec 20) : List Nat := (List.range 20).filter fun c => mask.getLsbD c

theorem State.setNvm_only (s : State) (n : Nvm) : s.Only [.nvm] (s.setNvm n) :=
  ⟨rfl, fun q hq => by cases q <;> first | exact absurd (by decide) hq | rfl⟩

/-- The swap's effect but for its event. -/
def State.swapCarried (s : State) (w : Swap) : State :=
  (s.setMeas (s.meas.swapped w.mask)).setNvm
    (if w.save then s.nvm.saveTables (s.meas.swapped w.mask).table (maskChans w.mask) else s.nvm)

theorem State.swapEffect_eq {w : Swap} (hw : s.meas.swap = some w) (hr : s.reached w.at_ = true)
    (hp : s.inClosingSpan = false ∨ ∀ c ∈ s.mgmt.inForce.primaryChans, w.mask.getLsbD c = false) :
    s.swapEffect = ((s.swapCarried w).emitApply .meas 3 0).measEvent 0x0302 0 stOk (leBytes 6 s.clock.meridian.toNat) := by
  have hfree : (((List.range 20).any fun c => w.mask.getLsbD c && s.mgmt.inForce.primaryChans.contains c) && s.inClosingSpan) = false := by
    rcases hp with h | h
    · rw [h, Bool.and_false]
    · have hnone : ((List.range 20).any fun c => w.mask.getLsbD c && s.mgmt.inForce.primaryChans.contains c) = false := by
        refine List.any_eq_false.2 fun c _ hc => ?_
        obtain ⟨h1, h2⟩ := Bool.and_eq_true_iff.1 hc
        rw [h c (List.contains_iff_mem.1 h2)] at h1
        exact nomatch h1
      rw [hnone, Bool.false_and]
  unfold State.swapEffect
  rw [hw]
  dsimp only
  rw [hr, hfree, Meas.swapTables_eq, State.foldl_saveTable]
  unfold State.swapCarried Meas.swapped maskChans
  generalize s.meas.swapActive w.mask = x
  generalize s.meas.swapShadow w.mask = y
  cases w.save <;> rfl

theorem State.swapCarried_only (s : State) (w : Swap) : s.Only [.meas, .nvm] (s.swapCarried w) :=
  ((s.setMeas_only _).mono (by simp)).trans ((State.setNvm_only _ _).mono (by simp))

theorem State.swapCarried_nvm (s : State) (w : Swap) : (s.swapCarried w).nvm = { s.nvm with
    tables := (s.swapCarried w).nvm.tables, bad := (s.swapCarried w).nvm.bad } ∧
    (w.save = false → (s.swapCarried w).nvm = s.nvm) ∧
    (w.save = true → s.nvm.tables.length = 20 → ∀ c : Fin 20, w.mask.getLsbD c.val = true →
      (s.swapCarried w).nvm.tables[c.val]? = some ((s.nvm.tables.getD c.val ⟨none, none⟩).put s.meas.shadowTables[c])) := by
  have hn : (s.swapCarried w).nvm = if w.save then s.nvm.saveTables (s.meas.swapped w.mask).table (maskChans w.mask) else s.nvm := rfl
  rw [hn]
  refine ⟨?_, fun h => by rw [h]; rfl, fun h hl c hc => ?_⟩
  · cases w.save
    · rfl
    · exact Nvm.saveTables_frame _ _ _
  · have hmem : c.val ∈ maskChans w.mask := List.mem_filter.2 ⟨List.mem_range.2 c.isLt, hc⟩
    have htab : (s.meas.swapped w.mask).table c.val = s.meas.shadowTables[c] := by
      rw [Meas.table_fin, (Meas.swapped_tables _ _ c).1, hc]
      rfl
    have hnd : (maskChans w.mask).Nodup := List.nodup_range.filter _
    rw [h, if_pos rfl, Nvm.saveTables_tables _ _ _ hnd _ (by rw [hl]; exact c.isLt), if_pos hmem, htab]

theorem State.swapEffect_spec {w : Swap} (hw : s.meas.swap = some w) (hr : s.reached w.at_ = true)
    (hp : s.inClosingSpan = false ∨ ∀ c ∈ s.mgmt.inForce.primaryChans, w.mask.getLsbD c = false) :
    s.Only [.meas, .win, .nvm, .obs] s.swapEffect ∧ s.OnlyTrace s.swapEffect ∧ s.swapEffect.meas = s.meas.swapped w.mask ∧
    s.swapEffect.nvm = (s.swapCarried w).nvm ∧ (∀ k, k ≠ 5 → s.swapEffect.win.mbAt k = s.win.mbAt k) ∧
    (s.upAt .mgmt = true → ∀ o ∈ s.mgmt.outst, o.op = 0x0302 → o.done = none → (∃ g, o.got = some g ∧ g ≤ s.now) →
      s.swapEffect.win.onWay 5 (· == .event 0x0302 stOk (leBytes 6 s.clock.meridian.toNat)) = true) := by
  have heff := State.swapEffect_eq hw hr hp
  have hmeas : (s.swapCarried w).meas = s.meas.swapped w.mask := rfl
  have honly := s.swapCarried_only w
  have hobs : (s.swapCarried w).obs = s.obs := honly.2 .obs (by decide)
  have hwin : (s.swapCarried w).win = s.win := honly.2 .win (by decide)
  have hup : (s.swapCarried w).upAt .mgmt = s.upAt .mgmt := by
    rw [State.upAt, honly.2 .isl (by decide)]
    rfl
  have hm : (s.swapCarried w).mgmt = s.mgmt := honly.2 .mgmt (by decide)
  have hnow : (s.swapCarried w).now = s.now := congrArg Clock.tick (honly.2 .clock (by decide))
  generalize leBytes 6 s.clock.meridian.toNat = res at heff ⊢
  generalize s.swapCarried w = u at heff hmeas honly hobs hwin hup hm hnow ⊢
  rw [heff]
  obtain ⟨o, ho, htr⟩ := u.emit_eq .meas 9 3 [0]
  rw [State.emitApply, ho]
  obtain ⟨hposts, -⟩ := (u.setObs o).measEvent_posts 0x0302 0 stOk res
  have htr' : s.OnlyTrace (u.setObs o) := State.CountersBut.of_obs htr hobs
  refine ⟨((honly.mono (by simp)).trans ((State.setObs_only _ o).mono (by simp))).trans (hposts.only.mono (by simp)), htr'.trans hposts.traced,
    (hposts.only.2 .meas (by decide)).trans hmeas, hposts.only.2 .nvm (by decide), fun k hk => ?_, fun hu x hx hop hd hg => ?_⟩
  · rw [hposts.others k hk]
    exact congrArg (fun w : Window => w.mbAt k) hwin
  · have hu' : (u.setObs o).upAt .mgmt = true := hup.trans hu
    have hx' : x ∈ (u.setObs o).mgmt.outst := hm ▸ hx
    have hg' : ∃ g, x.got = some g ∧ g ≤ (u.setObs o).now := hnow ▸ hg
    exact (u.setObs o).measEvent_reaches 0x0302 stOk res hu' hx' hop hd hg'

end

/-! ## One variable's evaluation (07 R182 to R184) -/

section
variable (s : State) (v : Fin 8)

theorem State.runVar_frame : s.Only [.meas, .obs] (s.runVar v.val) ∧ (s.runVar v.val).meas = { s.meas with vars := (s.runVar v.val).meas.vars } ∧
    (∀ n : Fin 8, n ≠ v → (s.runVar v.val).meas.vars[n] = s.meas.vars[n]) ∧ (s.runVar v.val).meas.vars[v] = s.newVar v.val := by
  have hvars : (s.runVar v.val).meas.vars = s.meas.vars.setIfInBounds v.val (s.newVar v.val) := by rw [s.runVar_eq]; rfl
  refine ⟨?_, ?_, fun n hn => ?_, ?_⟩
  · rw [s.runVar_eq]
    exact ((s.setMeas_only _).mono (by simp)).trans ((State.setObs_only _ _).mono (by simp))
  · rw [hvars, s.runVar_eq]
    rfl
  · rw [hvars]
    exact vector_set_other _ _ fun h => hn (Fin.ext h)
  · rw [hvars]
    exact vector_set_self ..

theorem State.newVar_status (v : Nat) : (s.newVar v).status = withValid (s.evalVar v).2.1 := by
  unfold State.newVar
  dsimp only
  cases (s.evalVar v).1 with
  | none => cases (s.meas.var v).lastValid <;> rfl
  | some y => rfl

theorem State.newVar_some {v : Nat} {y : Int} {f : Nat} {st : Count48} (h : s.evalVar v = (some y, f, st)) :
    (s.newVar v).value = y ∧ (s.newVar v).stamp = st ∧
    (s.newVar v).lastValid = if (s.newVar v).status.getLsbD 15 then some ((s.newVar v).value, (s.newVar v).stamp) else (s.meas.var v).lastValid := by
  unfold State.newVar
  rw [h]
  exact ⟨rfl, rfl, rfl⟩

theorem State.newVar_none {v : Nat} {f : Nat} {st : Count48} (h : s.evalVar v = (none, f, st)) :
    ((s.newVar v).value, (s.newVar v).stamp) = (s.meas.var v).lastValid.getD (0, 0) ∧
    (s.newVar v).lastValid = (s.meas.var v).lastValid := by
  unfold State.newVar
  rw [h]
  dsimp only [Option.elim]
  cases hl : (s.meas.var v).lastValid with
  | none => exact ⟨rfl, rfl⟩
  | some x => exact ⟨rfl, rfl⟩

/-- The members of a variable that its value takes. -/
def State.usedChans (v : Nat) : List Chan :=
  let cs := (s.mgmt.inForce.members v).map s.meas.chan
  if s.mgmt.inForce.varOp v = 0 then cs else cs.filter fun c => c.linStatus.getLsbD 15

/-- The sum of a variable that weighs its members (07 R182). -/
def State.weighedSum (v : Nat) : Int := s.mgmt.inForce.varOffset v * 8388608 + ((List.range 4).map fun k =>
  if s.mgmt.inForce.varCh v k < 20 then s.mgmt.inForce.varCoef v k * (s.meas.chan (s.mgmt.inForce.varCh v k)).lin else 0).sum

/-- The sum of a variable over a set of members (07 R182). -/
def State.setSum (v : Nat) : Int :=
  let used := s.usedChans v
  s.mgmt.inForce.varOffset v * 8388608 + s.mgmt.inForce.varCoef v 0 *
    (if s.mgmt.inForce.varOp v = 1 then (used.map (·.lin)).sum / (used.length : Int)
     else if s.mgmt.inForce.varOp v = 2 then ((used.map (·.lin)).min?).getD 0 else ((used.map (·.lin)).max?).getD 0)

/-- The flags of a set before its value: the members' OVR and settling, and whether one is left out (07 Table 7-7). -/
def State.setBase (v : Nat) : Nat :=
  (orFlags (s.usedChans v) &&& 0x0C) + 1024 * b2n ((s.usedChans v).length != ((s.mgmt.inForce.members v).map s.meas.chan).length)

variable {s} {v : Nat}

theorem State.evalVar_weighed (h : s.mgmt.inForce.varOp v = 0) : ∃ st, s.evalVar v = (some (s.mgmt.inForce.endVar v (s.weighedSum v)).1,
    (orFlags (s.usedChans v) &&& 0x1FF) ||| (32 * b2n (s.mgmt.inForce.endVar v (s.weighedSum v)).2.1) |||
      (512 * b2n (s.mgmt.inForce.endVar v (s.weighedSum v)).2.2), st) := by
  have hu : s.usedChans v = (s.mgmt.inForce.members v).map s.meas.chan := if_pos h
  have ho : asl (s.mgmt.inForce.varOffset v) 23 = s.mgmt.inForce.varOffset v * 8388608 := asl_eq ..
  unfold State.evalVar
  dsimp only
  rw [if_pos h, hu, ho]
  exact ⟨_, rfl⟩

theorem State.evalVar_set (h : s.mgmt.inForce.varOp v ≠ 0) (hm : max 1 (s.mgmt.inForce.varMinvalid v) ≤ (s.usedChans v).length) :
    ∃ st, s.evalVar v = (some (s.mgmt.inForce.endVar v (s.setSum v)).1, s.setBase v + 2048 * b2n false +
      32 * b2n (s.mgmt.inForce.endVar v (s.setSum v)).2.1 + 512 * b2n (s.mgmt.inForce.endVar v (s.setSum v)).2.2, st) := by
  have hu : s.usedChans v = ((s.mgmt.inForce.members v).map s.meas.chan).filter fun c => isValid c.linStatus := if_neg h
  have ho : asl (s.mgmt.inForce.varOffset v) 23 = s.mgmt.inForce.varOffset v * 8388608 := asl_eq ..
  unfold State.evalVar State.setSum State.setBase
  dsimp only
  rw [if_neg h, ho, ← hu, if_neg (Nat.not_lt.2 hm)]
  exact ⟨_, rfl⟩

theorem State.evalVar_short (h : s.mgmt.inForce.varOp v ≠ 0) (hm : (s.usedChans v).length < max 1 (s.mgmt.inForce.varMinvalid v)) :
    s.evalVar v = (none, s.setBase v + 2048 * b2n true + 32 * b2n false + 512 * b2n false, 0) := by
  have hu : s.usedChans v = ((s.mgmt.inForce.members v).map s.meas.chan).filter fun c => isValid c.linStatus := if_neg h
  unfold State.evalVar State.setBase
  dsimp only
  rw [if_neg h, ← hu, if_pos hm]
  rfl

/-- What an evaluation of a sum gives: its value, its flags and the last valid value (07 R183). -/
def State.EvaluatesTo (s : State) (v : Nat) (sum : Int) (more : Bool) : Prop :=
  let x := s.newVar v
  let a := s.mgmt.inForce
  let y := max (-2147483648) (min 2147483647 (sum / 8388608))
  (a.varSqrt v = false → x.value = y ∧ x.status.getLsbD 9 = false) ∧
  (a.varSqrt v = true → y ≤ 0 → x.value = 0 ∧ x.status.getLsbD 9 = true) ∧
  (a.varSqrt v = true → 0 < y → ∃ r : Int, 0 < r ∧ r * r ≤ y * 65536 ∧ y * 65536 < (r + 1) * (r + 1) ∧
    x.value = (if r < a.varCutoff v then 0 else r) ∧ x.status.getLsbD 9 = decide (r < a.varCutoff v)) ∧
  (x.status.getLsbD 5 = (decide (sum / 8388608 ≠ y) || more)) ∧
  x.lastValid = if x.status.getLsbD 15 then some (x.value, x.stamp) else (s.meas.var v).lastValid

theorem satInt_32 (v : Int) : satInt 32 v = max (-2147483648) (min 2147483647 v) := by
  unfold satInt
  norm_num

theorem State.evaluatesTo_of {sum : Int} {more : Bool} {f : Nat} {st : Count48} (he : s.evalVar v = (some (s.mgmt.inForce.endVar v sum).1, f, st))
    (h5 : f.testBit 5 = ((s.mgmt.inForce.endVar v sum).2.1 || more)) (h9 : f.testBit 9 = (s.mgmt.inForce.endVar v sum).2.2)
    (h1 : -9223372036854775808 ≤ sum) (h2 : sum ≤ 9223372036854775807) : s.EvaluatesTo v sum more := by
  obtain ⟨hv, -, hl⟩ := State.newVar_some s he
  have hst : (s.newVar v).status = withValid f := by rw [State.newVar_status, he]
  have h5' : (s.newVar v).status.getLsbD 5 = ((s.mgmt.inForce.endVar v sum).2.1 || more) := by rw [hst, withValid_low (by decide), h5]
  have h9' : (s.newVar v).status.getLsbD 9 = (s.mgmt.inForce.endVar v sum).2.2 := by rw [hst, withValid_low (by decide), h9]
  unfold State.EvaluatesTo
  dsimp only
  rw [h5', h9', hv]
  rw [hv] at hl
  rw [Alm.endVar_eq _ _ h1 h2, satInt_32] at hl ⊢
  have hmax : max (-2147483648) (min 2147483647 (sum / 8388608)) ≤ 2147483647 := by omega
  generalize max (-2147483648) (min 2147483647 (sum / 8388608)) = y at hmax hl ⊢
  refine ⟨fun h => ?_, fun h hy => ?_, fun h hy => ?_, ?_, hl⟩
  · rw [h]
    exact ⟨rfl, rfl⟩
  · rw [h, rootOf_none _ hy]
    exact ⟨rfl, rfl⟩
  · obtain ⟨r, hr0, hr1, hr2, hr⟩ := rootOf_some (s.mgmt.inForce.varCutoff v) hy hmax
    refine ⟨r, hr0, hr1, hr2, ?_⟩
    rw [h, hr]
    exact ⟨rfl, rfl⟩
  · split <;> rfl

/-- A variable that weighs its members (07 R182). -/
theorem State.newVar_weighed (h : s.mgmt.inForce.varOp v = 0) :
    (s.newVar v).status.getLsbD 15 = !((List.range 16).any fun n => (0x09F3).testBit n && (s.newVar v).status.getLsbD n) ∧
    (-9223372036854775808 ≤ s.weighedSum v → s.weighedSum v ≤ 9223372036854775807 →
      s.EvaluatesTo v (s.weighedSum v) ((s.usedChans v).any fun c => c.linStatus.getLsbD 5)) ∧
    ∀ n, n < 9 → n ≠ 5 → (s.newVar v).status.getLsbD n = (s.usedChans v).any fun c => c.linStatus.getLsbD n := by
  obtain ⟨st, he⟩ := State.evalVar_weighed h
  have hst := State.newVar_status s v
  rw [he] at hst
  refine ⟨?_, fun h1 h2 => State.evaluatesTo_of he ?_ ?_ h1 h2, fun n hn h5 => ?_⟩
  · rw [hst]
    exact withValid_any (sumFlags_lt ..)
  · rw [sumFlags_bit, orFlags_bit]
    simp [Bool.or_comm]
  · rw [sumFlags_bit]
    simp
  · rw [hst, withValid_low (by omega), sumFlags_bit, orFlags_bit]
    simp [hn, Ne.symm h5, show 9 ≠ n by omega]

/-- The flags of a variable over a set (07 Table 7-7). -/
theorem State.newVar_setFlags {short sat cut : Bool} (hst : (s.newVar v).status =
      withValid (s.setBase v + 2048 * b2n short + 32 * b2n sat + 512 * b2n cut)) :
    (s.newVar v).status.getLsbD 15 = (!((List.range 16).any fun n => (0x09F3).testBit n && (s.newVar v).status.getLsbD n)) ∧
    (s.newVar v).status.getLsbD 11 = short ∧
    (s.newVar v).status.getLsbD 10 = ((s.usedChans v).length != ((s.mgmt.inForce.members v).map s.meas.chan).length) ∧
    ∀ n, n = 2 ∨ n = 3 → (s.newVar v).status.getLsbD n = (s.usedChans v).any fun c => c.linStatus.getLsbD n := by
  obtain ⟨hlt, h2, h3, -, -, h10, h11⟩ := setFlags_bits (orFlags (s.usedChans v))
    ((s.usedChans v).length != ((s.mgmt.inForce.members v).map s.meas.chan).length) short sat cut
  have hlow {n : Nat} {b : Bool} (hn : n < 15) (hb : (s.setBase v + 2048 * b2n short + 32 * b2n sat + 512 * b2n cut).testBit n = b) :
      (s.newVar v).status.getLsbD n = b := by rw [hst, withValid_low hn, hb]
  refine ⟨by rw [hst]; exact withValid_any hlt, hlow (by decide) h11, hlow (by decide) h10, fun n hn => ?_⟩
  rcases hn with rfl | rfl
  · exact hlow (by decide) (h2.trans (orFlags_bit ..))
  · exact hlow (by decide) (h3.trans (orFlags_bit ..))

/-- The flags of a variable over a set do not depend on how many of it there are. -/
theorem State.newVar_set_status (h : s.mgmt.inForce.varOp v ≠ 0) : ∃ sat cut, (s.newVar v).status = withValid (s.setBase v +
    2048 * b2n (decide ((s.usedChans v).length < max 1 (s.mgmt.inForce.varMinvalid v))) + 32 * b2n sat + 512 * b2n cut) := by
  have hst := State.newVar_status s v
  by_cases hm : (s.usedChans v).length < max 1 (s.mgmt.inForce.varMinvalid v)
  · rw [State.evalVar_short h hm] at hst
    rw [decide_eq_true hm]
    exact ⟨_, _, hst⟩
  · obtain ⟨st, he⟩ := State.evalVar_set h (Nat.not_lt.1 hm)
    rw [he] at hst
    rw [decide_eq_false hm]
    exact ⟨_, _, hst⟩

/-- A variable over enough members of its set (07 R183). -/
theorem State.newVar_set (h : s.mgmt.inForce.varOp v ≠ 0) (hm : max 1 (s.mgmt.inForce.varMinvalid v) ≤ (s.usedChans v).length)
    (h1 : -9223372036854775808 ≤ s.setSum v) (h2 : s.setSum v ≤ 9223372036854775807) : s.EvaluatesTo v (s.setSum v) false := by
  obtain ⟨st, he⟩ := State.evalVar_set h hm
  obtain ⟨-, -, -, h5, h9, -, -⟩ := setFlags_bits (orFlags (s.usedChans v))
    ((s.usedChans v).length != ((s.mgmt.inForce.members v).map s.meas.chan).length) false
    (s.mgmt.inForce.endVar v (s.setSum v)).2.1 (s.mgmt.inForce.endVar v (s.setSum v)).2.2
  exact State.evaluatesTo_of he (by rw [Bool.or_false]; exact h5) h9 h1 h2

end

/-! ## One result -/

section
variable {s : State} {r : Result} {ch : Fin 20}

theorem exec_linearisation_one (hu : s.measUp = true) (hw : s.meas.swap = none) (hr : s.meas.results = [r]) (ht : r.tick < s.now) :
    exec .linearisation s = .next ((s.setMeas { s.meas with results := [] }).engine r) := by
  have h1 : ([r].filter fun r => decide (r.tick < s.now)) = [r] := by rw [List.filter_singleton, decide_eq_true ht]; rfl
  have h2 : ([r].filter fun r => decide (s.now ≤ r.tick)) = [] := by
    rw [List.filter_singleton, decide_eq_false (Nat.not_le.2 ht)]; rfl
  rw [exec_linearisation hu hw, hr, h1, h2]
  rfl

theorem State.engine_open (hc : r.chan = ch.val) (he : s.mgmt.inForce.chEn ch.val = true) (hv : s.mgmt.inForce.varsAfter ch.val = [])
    (ho : r.closing = false) : s.engine r = s.lineariseOne r := by
  have hm : (s.lineariseOne r).mgmt = s.mgmt := (s.lineariseOne_linearises r).only.2 .mgmt (by decide)
  unfold State.engine
  rw [hc, he, if_pos rfl, ho]
  show ((s.lineariseOne r).mgmt.inForce.varsAfter ch.val).foldl State.runVar (s.lineariseOne r) = _
  rw [hm, hv]
  rfl

theorem State.engine_closing (hc : r.chan = ch.val) (he : s.mgmt.inForce.chEn ch.val = true) (hv : s.mgmt.inForce.varsAfter ch.val = [])
    (ho : r.closing = true) : s.engine r = (s.lineariseOne r).noteClosing ch.val r.run := by
  have hm : ((s.lineariseOne r).noteClosing ch.val r.run).mgmt = s.mgmt :=
    ((s.lineariseOne_linearises r).trans (State.noteClosing_linearises ..)).only.2 .mgmt (by decide)
  unfold State.engine
  rw [hc, he, if_pos rfl, ho]
  show (((s.lineariseOne r).noteClosing ch.val r.run).mgmt.inForce.varsAfter ch.val).foldl State.runVar
    ((s.lineariseOne r).noteClosing ch.val r.run) = _
  rw [hm, hv]
  rfl

theorem State.lineariseOne_chans (hc : r.chan = ch.val) : (s.lineariseOne r).meas.chans[ch] = s.linearised r ∧
    (∀ c : Fin 20, c ≠ ch → (s.lineariseOne r).meas.chans[c] = s.meas.chans[c]) ∧ (s.lineariseOne r).meas.vars = s.meas.vars ∧
    (s.lineariseOne r).loop = s.loop := by
  have hchans : (s.lineariseOne r).meas.chans = s.meas.chans.setIfInBounds ch.val (s.linearised r) := by
    rw [s.lineariseOne_eq, hc]
    rfl
  refine ⟨?_, fun c hne => ?_, ?_, ?_⟩
  · rw [hchans]
    exact vector_set_self ..
  · rw [hchans]
    exact vector_set_other _ _ fun h => hne (Fin.ext h)
  · rw [s.lineariseOne_eq]
    rfl
  · rw [s.lineariseOne_eq]
    rfl

theorem State.runVars_chans (s : State) (vs : List Nat) : (vs.foldl State.runVar s).meas.chans = s.meas.chans ∧
    (vs.foldl State.runVar s).loop = s.loop := by
  induction vs generalizing s with
  | nil => exact ⟨rfl, rfl⟩
  | cons v vs ih =>
    obtain ⟨h1, h2⟩ := ih (s.runVar v)
    have h : (s.runVar v).meas.chans = s.meas.chans ∧ (s.runVar v).loop = s.loop := by rw [s.runVar_eq]; exact ⟨rfl, rfl⟩
    exact ⟨h1.trans h.1, h2.trans h.2⟩

theorem State.noteClosing_chans (s : State) (c : Nat) (run : Nat × Nat) : (s.noteClosing c run).meas.chans = s.meas.chans := by
  unfold State.noteClosing
  dsimp only
  split
  · rw [State.postFeed_eq]
    exact (State.runVars_chans _ _).1
  · rfl

/-- A run of one channel posts PV (07 R174, R182). -/
theorem State.noteClosing_posts (s : State) {c : Nat} (run : Nat × Nat) (h : s.mgmt.inForce.primaryChans = [c]) : (s.noteClosing c run).loop =
    { s.loop with
      record := ((s.noteClosing c run).newFeed :: s.loop.record).take 128
      feed := if s.loopUp && !s.loop.replaying then some (s.noteClosing c run).newFeed else s.loop.feed
      todo := if s.loopUp && !s.loop.replaying then s.loop.todo else
        (s.loop.todo ++ [(s.noteClosing c run).newFeed]).drop ((s.loop.todo ++ [(s.noteClosing c run).newFeed]).length - 128) } := by
  have hall : s.mgmt.inForce.primaryChans.all (s.meas.seenOf run ++ [c]).contains = true := by
    rw [h]
    simp
  have hform : ∃ u : State, s.noteClosing c run = u.postFeed ∧ s.Linearises u ∧ u.loop = s.loop := by
    unfold State.noteClosing
    dsimp only
    rw [if_pos hall]
    exact ⟨_, rfl, (State.Linearises.setMeas s s.meas.chans s.meas.vars _ _).trans (State.runVars_linearises _ _), (State.runVars_chans _ _).2⟩
  obtain ⟨u, hu, hlin, hl⟩ := hform
  have hfeed : u.postFeed.newFeed = u.newFeed := by rw [u.postFeed_eq]; rfl
  have hup : u.loopUp = s.loopUp := by
    unfold State.loopUp State.upAt
    rw [hlin.only.2 .isl (by decide), hlin.only.2 .clock (by decide)]
  rw [hu, hfeed, u.postFeed_eq, hl, hup]
  rfl

/-- With LT_FMT 0 the value is the scaled code in Q15.16 (07 R166). -/
theorem linearise_plain {t : List Byte} (h : ltFmt t = 0) (res : Int) (g : Nat) (vt : Int) :
    (linearise t res g g vt).v = satInt 32 (res * 256 * ltK t / 8388608) / 32768 := by
  have hx : regain g g (asl res 8) = res * 256 := by
    rw [regain_within res (Nat.le_refl g) (Nat.le_add_right g 8), Nat.sub_self]
    rfl
  unfold linearise
  dsimp only
  rw [if_pos h, hx, Clamped.to_v, asr_eq, asr_eq]
  rfl

/-- With LT_FMT 1 the value is the polynomial of the prescaled code and the temperature (07 R166). -/
theorem linearise_poly {t : List Byte} (h : ltFmt t = 1) (res : Int) {g low : Nat} (h1 : low ≤ g) (h2 : g ≤ low + 8) (vt : Int) :
    (linearise t res g low vt).v = (polyValue t (satInt 32 (res * 2 ^ (8 - (g - low)) * ltK t / 8388608))
      (if ltSrc t = 31 then 0 else satInt 32 (vt * 2 ^ ltShift t))).v := by
  unfold linearise
  dsimp only
  rw [if_neg (by rw [h]; decide), regain_within res h1 h2]
  dsimp only
  rw [Clamped.to_v, asr_eq]
  congr 2
  split
  · rfl
  · rw [Clamped.to_v, asl_eq]

/-- What the table's source gives (07 R167). -/
theorem State.sourceOf_some {src : Fin 20} (hf : ltFmt (s.meas.table ch.val) = 1) (hs : ltSrc (s.meas.table ch.val) = src.val)
    (hl : s.meas.chans[src].hasLin = true) (ht : s.meas.chans[src].linTick < s.now) :
    s.sourceOf ch.val = some (s.meas.chans[src].lin, s.meas.chans[src].linStatus) ∧
    s.sourceBad ch.val = !s.meas.chans[src].linStatus.getLsbD 15 := by
  have hsrc : tableSource (s.meas.table ch.val) = some src.val := by
    unfold tableSource
    rw [show leAt (s.meas.table ch.val) 2 1 = src.val from hs, if_pos ⟨hf, src.isLt⟩]
  have he : (s.meas.chan src.val).earlier s.now = some (s.meas.chans[src].lin, s.meas.chans[src].linStatus) := by
    unfold Chan.earlier
    rw [Meas.chan_fin, hl, decide_eq_true ht]
    rfl
  have h1 : s.sourceOf ch.val = some (s.meas.chans[src].lin, s.meas.chans[src].linStatus) := by
    unfold State.sourceOf
    rw [hsrc]
    exact he
  refine ⟨h1, ?_⟩
  unfold State.sourceBad
  rw [hsrc, h1]
  rfl

theorem State.sourceOf_none (hs : ltSrc (s.meas.table ch.val) = 31) : s.sourceOf ch.val = none ∧ s.sourceBad ch.val = false := by
  have hsrc : tableSource (s.meas.table ch.val) = none := by
    unfold tableSource
    rw [show leAt (s.meas.table ch.val) 2 1 = 31 from hs, if_neg fun h => absurd h.2 (by decide)]
  unfold State.sourceBad State.sourceOf
  rw [hsrc]
  exact ⟨rfl, rfl⟩

theorem State.linStatus_bad (s : State) (r : Result) : (s.linStatus r).getLsbD 8 = s.sourceBad r.chan := by
  have hle (b : Bool) : b2n b ≤ 1 := by cases b <;> decide
  have hmod : r.tags.toNat % 32 < 32 := Nat.mod_lt _ (by decide)
  unfold State.linStatus
  dsimp only
  rw [withValid_low (by decide), Nat.testBit_eq_decide_div_mod_eq]
  have h1 := hle (s.linValue r).sat
  have h2 := hle (s.meas.chan r.chan).sensorOpen
  have h3 := hle (decide (asr r.res 8 < s.mgmt.inForce.rngLo r.chan ∨ s.mgmt.inForce.rngHi r.chan < asr r.res 8))
  generalize b2n (s.linValue r).sat = x1 at h1 ⊢
  generalize b2n (s.meas.chan r.chan).sensorOpen = x2 at h2 ⊢
  generalize b2n (decide (asr r.res 8 < s.mgmt.inForce.rngLo r.chan ∨ s.mgmt.inForce.rngHi r.chan < asr r.res 8)) = x3 at h3 ⊢
  cases s.sourceBad r.chan
  · exact decide_eq_false (by rw [show b2n false = 0 from rfl]; omega)
  · exact decide_eq_true (by rw [show b2n true = 1 from rfl]; omega)

/-! ### The range (07 R176) -/

/-- What an autoranging channel decides on a result: whether it waits for RCHG, its results since, a lower and a higher gain. -/
structure RangeView where
  waits : Bool
  since : Nat
  high : Bool
  low : Bool
  free : Bool

def Chan.rangeView (c : Chan) (a : Alm) (ch : Nat) (res : Int) (tags : BitVec 8) : RangeView :=
  let ovr := tags.getLsbD 0
  let since := if tags.getLsbD 3 then 1 else min 4 (c.sinceChg + 1)
  let waits := c.awaitRchg && !tags.getLsbD 3
  let high := (ovr || decide (7549747 < res.natAbs)) && decide (a.arGmin ch < c.gain)
  { waits, since, high
    low := !high && decide (res.natAbs ≤ 1677721) && decide (c.gain < a.arGmax ch)
    free := !waits && (!tags.getLsbD 1 || ovr) && (decide (4 ≤ since) || ovr && high) }

theorem tags_bit (tags : BitVec 8) {n : Nat} (h : n < 5) : (tags.toNat % 32).testBit n = tags.getLsbD n := by
  rw [show 32 = 2 ^ 5 from rfl, Nat.testBit_mod_two_pow, decide_eq_true h, Bool.true_and]
  rfl

theorem Chan.range_on (c : Chan) {a : Alm} {ch : Nat} (h : a.arEn ch = true) (res : Int) (tags : BitVec 8) (now : Nat) :
    let w := c.rangeView a ch res tags
    c.range a ch res (tags.toNat % 32) now = ({ c with
      awaitRchg := w.waits || w.free && (w.high || w.low), sinceChg := w.since
      pendGain := if w.free && w.high then some (c.gain - 1, now + 2) else if w.free && w.low then some (c.gain + 1, now + 2)
        else c.pendGain }, w.free && (w.high || w.low)) := by
  unfold Chan.range Chan.rangeView
  dsimp only
  rw [h, tags_bit tags (by decide), tags_bit tags (by decide), tags_bit tags (by decide)]
  generalize tags.getLsbD 0 = ovr
  generalize tags.getLsbD 1 = settle
  generalize tags.getLsbD 3 = rchg
  generalize ((ovr || decide (7549747 < res.natAbs)) && decide (a.arGmin ch < c.gain)) = high
  generalize decide (res.natAbs ≤ 1677721) = small
  generalize decide (c.gain < a.arGmax ch) = room
  have hlt (n : Nat) : decide (n < 4) = !decide (4 ≤ n) := by
    by_cases hn : n < 4
    · rw [decide_eq_true hn, decide_eq_false (by omega)]; rfl
    · rw [decide_eq_false hn, decide_eq_true (by omega)]; rfl
  rw [hlt]
  generalize (if rchg then 1 else min 4 (c.sinceChg + 1)) = since
  generalize decide (4 ≤ since) = late
  generalize c.awaitRchg = waiting
  cases waiting <;> cases rchg <;> cases settle <;> cases ovr <;> cases late <;> cases high <;> cases small <;> cases room <;> rfl

/-! ### The cases of O44 -/

/-- The state whose one waiting result has been taken. -/
def State.resultTaken (s : State) : State := s.setMeas { s.meas with results := [] }

theorem linearisation_frame (hu : s.measUp = true) (hw : s.meas.swap = none) : ∃ t, exec .linearisation s = .next t ∧
    s.Only [.meas, .loop, .obs] t ∧ s.CountersBut [.linSat, .rangeChg] t ∧
    t.meas = { s.meas with
      results := s.meas.results.filter fun r => decide (s.now ≤ r.tick), chans := t.meas.chans, vars := t.meas.vars
      closingSeen := t.meas.closingSeen, closeAt := t.meas.closeAt } ∧
    t.loop = { s.loop with feed := t.loop.feed, record := t.loop.record, todo := t.loop.todo } := by
  have hex := exec_linearisation hu hw
  generalize hm : ({ s.meas with results := s.meas.results.filter fun r => decide (s.now ≤ r.tick) } : Meas) = m at hex
  have hlin : (s.setMeas m).Linearises ((s.meas.results.filter fun r => decide (r.tick < s.now)).foldl State.engine (s.setMeas m)) :=
    List.foldlRecOn (motive := (s.setMeas m).Linearises) _ _ (.refl _) fun t ht r _ => ht.trans (t.engine_linearises r)
  refine ⟨_, hex, ((s.setMeas_only m).mono (by simp)).trans hlin.only, hlin.counters, ?_, hlin.loop⟩
  rw [hlin.meas, show (s.setMeas m).meas = m from rfl, ← hm]

/-- One result that does not close its run. -/
theorem linearisation_open (hu : s.measUp = true) (hw : s.meas.swap = none) (hr : s.meas.results = [r]) (ht : r.tick < s.now)
    (hc : r.chan = ch.val) (ho : r.closing = false) (he : s.mgmt.inForce.chEn ch.val = true) (hv : s.mgmt.inForce.varsAfter ch.val = []) :
    exec .linearisation s = .next (s.resultTaken.lineariseOne r) :=
  (exec_linearisation_one hu hw hr ht).trans (congrArg Host.Outcome.next (State.engine_open (s := s.resultTaken) hc he hv ho))

theorem linearisation_closing (hu : s.measUp = true) (hw : s.meas.swap = none) (hr : s.meas.results = [r]) (ht : r.tick < s.now)
    (hc : r.chan = ch.val) (ho : r.closing = true) (he : s.mgmt.inForce.chEn ch.val = true) (hv : s.mgmt.inForce.varsAfter ch.val = []) :
    exec .linearisation s = .next ((s.resultTaken.lineariseOne r).noteClosing ch.val r.run) :=
  (exec_linearisation_one hu hw hr ht).trans (congrArg Host.Outcome.next (State.engine_closing (s := s.resultTaken) hc he hv ho))

/-- The value of one result: LT_FMT 0, with the result's stamp, and PV where its run closes with it (07 R166, R174). -/
theorem linearisation_value (hu : s.measUp = true) (hw : s.meas.swap = none) (hr : s.meas.results = [r]) (ht : r.tick < s.now)
    (hc : r.chan = ch.val) (he : s.mgmt.inForce.chEn ch.val = true) (hv : s.mgmt.inForce.varsAfter ch.val = []) :
    ∃ t, exec .linearisation s = .next t ∧ t.meas.chans[ch] = s.resultTaken.linearised r ∧
      (∀ c : Fin 20, c ≠ ch → t.meas.chans[c] = s.meas.chans[c]) ∧ (r.closing = false → t.meas.vars = s.meas.vars ∧ t.loop = s.loop) ∧
      (r.closing = true → s.mgmt.inForce.primaryChans = [ch.val] → t.loop = { s.loop with
        record := (t.newFeed :: s.loop.record).take 128
        feed := if s.loopUp && !s.loop.replaying then some t.newFeed else s.loop.feed
        todo := if s.loopUp && !s.loop.replaying then s.loop.todo else
          (s.loop.todo ++ [t.newFeed]).drop ((s.loop.todo ++ [t.newFeed]).length - 128) }) ∧ t.now = s.now := by
  obtain ⟨h1, h2, h3, h4⟩ := State.lineariseOne_chans (s := s.resultTaken) hc
  have hlin := s.resultTaken.lineariseOne_linearises r
  cases ho : r.closing
  · exact ⟨_, linearisation_open hu hw hr ht hc ho he hv, h1, h2, fun _ => ⟨h3, h4⟩, nofun, congrArg Clock.tick (hlin.only.2 .clock (by decide))⟩
  · have hnote := (s.resultTaken.lineariseOne r).noteClosing_linearises ch.val r.run
    have hch := (s.resultTaken.lineariseOne r).noteClosing_chans ch.val r.run
    have hmg : (s.resultTaken.lineariseOne r).mgmt = s.mgmt := hlin.only.2 .mgmt (by decide)
    have hup : (s.resultTaken.lineariseOne r).loopUp = s.loopUp := by
      unfold State.loopUp State.upAt
      rw [hlin.only.2 .isl (by decide), hlin.only.2 .clock (by decide)]
      rfl
    refine ⟨_, linearisation_closing hu hw hr ht hc ho he hv, by rw [hch]; exact h1, fun c hne => by rw [hch]; exact h2 c hne, nofun,
      fun _ hp => ?_, congrArg Clock.tick ((hlin.trans hnote).only.2 .clock (by decide))⟩
    have hpost := (s.resultTaken.lineariseOne r).noteClosing_posts r.run (c := ch.val) (by rw [hmg]; exact hp)
    rw [h4, hup] at hpost
    exact hpost

theorem State.linValue_plain (s : State) {r : Result} {ch : Fin 20} (hc : r.chan = ch.val) (hf : ltFmt s.meas.tables[ch] = 0)
    (hg : r.gain = s.mgmt.inForce.gMin ch.val) : (s.linValue r).v = satInt 32 (r.res * 256 * ltK s.meas.tables[ch] / 8388608) / 32768 := by
  unfold State.linValue
  rw [hc, Meas.table_fin, ← hg]
  exact linearise_plain hf ..

theorem State.linValue_poly (s : State) {r : Result} {ch : Fin 20} {tv : Int} (hc : r.chan = ch.val) (hf : ltFmt s.meas.tables[ch] = 1)
    (h1 : s.mgmt.inForce.gMin ch.val ≤ r.gain) (h2 : r.gain ≤ s.mgmt.inForce.gMin ch.val + 8)
    (ht : (if ltSrc s.meas.tables[ch] = 31 then 0 else satInt 32 ((s.sourceOf ch.val).elim 0 (·.1) * 2 ^ ltShift s.meas.tables[ch])) = tv) :
    (s.linValue r).v = satInt 32 (if 0 ≤ ltExp s.meas.tables[ch] then
        satInt 64 (hornerAll s.meas.tables[ch] (satInt 32 (r.res * 2 ^ (8 - (r.gain - s.mgmt.inForce.gMin ch.val)) *
          ltK s.meas.tables[ch] / 8388608)) tv * 2 ^ (ltExp s.meas.tables[ch]).toNat)
      else hornerAll s.meas.tables[ch] (satInt 32 (r.res * 2 ^ (8 - (r.gain - s.mgmt.inForce.gMin ch.val)) *
          ltK s.meas.tables[ch] / 8388608)) tv / 2 ^ (-ltExp s.meas.tables[ch]).toNat) := by
  subst ht
  unfold State.linValue
  rw [hc, Meas.table_fin, linearise_poly hf _ h1 h2, polyValue_v]

/-- What a result's table takes from its source, and what its status says of it (07 R167, R168). -/
theorem State.source_spec (s : State) {ch src : Fin 20} {tv : Int} (hf : ltFmt s.meas.tables[ch] = 1)
    (h : ltSrc s.meas.tables[ch] = 31 ∧ tv = 0 ∨ ltSrc s.meas.tables[ch] = src.val ∧ src ≠ ch ∧ s.meas.chans[src].hasLin = true ∧
      s.meas.chans[src].linTick < s.now ∧ tv = satInt 32 (s.meas.chans[src].lin * 2 ^ ltShift s.meas.tables[ch])) :
    (if ltSrc s.meas.tables[ch] = 31 then 0 else satInt 32 ((s.sourceOf ch.val).elim 0 (·.1) * 2 ^ ltShift s.meas.tables[ch])) = tv ∧
    s.sourceBad ch.val = (ltSrc s.meas.tables[ch] != 31 && !s.meas.chans[src].linStatus.getLsbD 15) := by
  rcases h with ⟨hs, htv⟩ | ⟨hs, -, hl, hlt, htv⟩
  · have hn := State.sourceOf_none (s := s) (ch := ch) (by rw [Meas.table_fin]; exact hs)
    rw [hn.2, hs, htv]
    exact ⟨rfl, rfl⟩
  · obtain ⟨hn, hb⟩ := State.sourceOf_some (s := s) (ch := ch) (by rw [Meas.table_fin]; exact hf) (by rw [Meas.table_fin]; exact hs) hl hlt
    have hne : ltSrc s.meas.tables[ch] ≠ 31 := by rw [hs]; exact Nat.ne_of_lt (Nat.lt_trans src.isLt (by decide))
    rw [hb, hn, if_neg hne, htv, bne_iff_ne.2 hne, Bool.true_and]
    exact ⟨rfl, rfl⟩

end

section
variable {s : State} {r : Result} {ch : Fin 20}

theorem State.linearised_range (s : State) (r : Result) : (s.linearised r).gain = (s.rangeOn r).1.gain ∧
    (s.linearised r).sinceChg = (s.rangeOn r).1.sinceChg ∧ (s.linearised r).awaitRchg = (s.rangeOn r).1.awaitRchg ∧
    (s.linearised r).pendGain = (s.rangeOn r).1.pendGain := ⟨rfl, rfl, rfl, rfl⟩

theorem State.linObs_changed (s : State) (r : Result) : (s.linObs r).live.getD 9 0 =
    if (s.rangeOn r).2 then min (s.obs.live.getD 9 0 + 1) 0xFFFFFFFF else s.obs.live.getD 9 0 := by
  have hsat : (if (s.linValue r).sat then s.obs.count .linSat 1 else s.obs).live.getD 9 0 = s.obs.live.getD 9 0 := by
    split
    · exact Obs.count_other _ (d := .rangeChg) 1 (by decide)
    · rfl
  unfold State.linObs
  dsimp only
  rw [← hsat]
  generalize (if (s.linValue r).sat then s.obs.count .linSat 1 else s.obs) = o
  split
  · exact Obs.count_self ..
  · rfl

end

section
variable {s : State} {r : Result} {ch : Fin 20}

/-- A result that does not close its run touches MEAS and the counters alone; its table gives the value and its range the gain. -/
theorem linearisation_polynomial (hu : s.measUp = true) (hw : s.meas.swap = none) (hr : s.meas.results = [r]) (ht : r.tick < s.now)
    (hc : r.chan = ch.val) (ho : r.closing = false) (he : s.mgmt.inForce.chEn ch.val = true) (hv : s.mgmt.inForce.varsAfter ch.val = []) :
    ∃ t, exec .linearisation s = .next t ∧ s.Only [.meas, .obs] t ∧ t.meas.chans[ch] = s.resultTaken.linearised r ∧
      t.obs = s.resultTaken.linObs r := by
  obtain ⟨h1, -, -, -⟩ := State.lineariseOne_chans (s := s.resultTaken) hc
  refine ⟨_, linearisation_open hu hw hr ht hc ho he hv, ?_, h1, ?_⟩
  · rw [State.lineariseOne_eq]
    exact (((s.setMeas_only _).mono (by simp)).trans ((State.setMeas_only _ _).mono (by simp))).trans ((State.setObs_only _ _).mono (by simp))
  · rw [State.lineariseOne_eq]
    rfl

theorem State.rangeOn_view (s : State) {r : Result} {ch : Fin 20} (hc : r.chan = ch.val) (ha : s.mgmt.inForce.arEn ch.val = true) :
    let c := s.meas.chans[ch]
    let w := c.rangeView s.mgmt.inForce ch.val r.res r.tags
    (s.linearised r).gain = c.gain ∧ (s.linearised r).sinceChg = w.since ∧
    (s.linearised r).awaitRchg = (w.waits || w.free && (w.high || w.low)) ∧
    (s.linearised r).pendGain = (if w.free && w.high then some (c.gain - 1, s.now + 2) else if w.free && w.low then some (c.gain + 1, s.now + 2)
      else c.pendGain) ∧
    (s.linObs r).live.getD 9 0 = if w.free && (w.high || w.low) then min (s.obs.live.getD 9 0 + 1) 0xFFFFFFFF else s.obs.live.getD 9 0 := by
  intro c w
  obtain ⟨h1, h2, h3, h4⟩ := State.linearised_range s r
  have hon : s.rangeOn r = c.range s.mgmt.inForce ch.val r.res (r.tags.toNat % 32) s.now := by
    unfold State.rangeOn
    rw [hc, Meas.chan_fin]
  rw [h1, h2, h3, h4, State.linObs_changed, hon, c.range_on ha]
  exact ⟨rfl, rfl, rfl, rfl, rfl⟩

theorem Meas.var_fin (m : Meas) (v : Fin 8) : m.var v.val = m.vars[v] := by
  simp [Meas.var]

theorem State.usedChans_fewer (s : State) (v : Nat) : ((s.usedChans v).length != ((s.mgmt.inForce.members v).map s.meas.chan).length) =
    decide ((s.usedChans v).length < ((s.mgmt.inForce.members v).map s.meas.chan).length) := by
  have hle : (s.usedChans v).length ≤ ((s.mgmt.inForce.members v).map s.meas.chan).length := by
    unfold State.usedChans
    dsimp only
    split
    · exact Nat.le_refl _
    · exact List.length_filter_le ..
  by_cases he : (s.usedChans v).length = ((s.mgmt.inForce.members v).map s.meas.chan).length
  · rw [he, bne_self_eq_false, decide_eq_false (Nat.lt_irrefl _)]
  · rw [bne_iff_ne.2 he, decide_eq_true (by omega)]

/-- A variable and its flags, whatever its OP. -/
theorem State.newVar_valid (s : State) (v : Nat) :
    (s.newVar v).status.getLsbD 15 = !((List.range 16).any fun n => (0x09F3).testBit n && (s.newVar v).status.getLsbD n) := by
  by_cases h : s.mgmt.inForce.varOp v = 0
  · exact (State.newVar_weighed h).1
  · obtain ⟨sat, cut, hst⟩ := State.newVar_set_status h
    exact (State.newVar_setFlags hst).1

theorem State.rangeOn_off (s : State) {r : Result} {ch : Fin 20} (hc : r.chan = ch.val) (ha : s.mgmt.inForce.arEn ch.val = false) :
    (s.linearised r).gain = s.meas.chans[ch].gain ∧ (s.linearised r).pendGain = s.meas.chans[ch].pendGain := by
  obtain ⟨h1, -, -, h4⟩ := State.linearised_range s r
  have hon : s.rangeOn r = (s.meas.chans[ch], false) := by
    unfold State.rangeOn Chan.range
    rw [hc, Meas.chan_fin, ha]
    rfl
  rw [h1, h4, hon]
  exact ⟨rfl, rfl⟩

end

/-- Settles O44: a result by its channel's table and range, a swap by the tables of its mask, a variable by its sum. -/
theorem resultsAreLinearised : Obligations.ResultsAreLinearised := by
  refine ⟨⟨fun s hu hw => linearisation_frame hu hw, fun s r ch hu hw hr ht hc he hf hg hv => ?_, fun s w hu hw hr hp => ?_⟩,
    fun s r ch hu hw hr ht hc ho he hv => ?_, fun s v => ?_⟩
  · intro u clamped
    obtain ⟨t, hex, h1, h2, h3, h4, hnow⟩ := linearisation_value hu hw hr ht hc he hv
    have hval := s.resultTaken.linValue_plain hc hf hg
    refine ⟨t, hex, ?_, by rw [h1]; rfl, by rw [h1]; rfl, h2, h3, fun hcl hprim => ?_⟩
    · have hclamp : clamped = satInt 32 u := by
        rw [satInt_32]
        unfold clamped
        omega
      rw [h1, hclamp]
      exact hval
    · have hfeed : t.newFeed = ⟨(t.meas.var 0).value, (t.meas.var 0).status, (t.meas.var 0).stamp, s.now⟩ := by rw [← hnow]; rfl
      have h := h4 hcl hprim
      rw [hfeed] at h
      exact h
  · obtain ⟨h1, h2, h3, h4, h5, h6⟩ := State.swapEffect_spec hw hr hp
    obtain ⟨n1, n2, n3⟩ := s.swapCarried_nvm w
    refine ⟨_, stepIf_of hu, h1, h2, ?_, fun c => ?_, by rw [h4]; exact n1, fun hs => by rw [h4]; exact n2 hs,
      fun hs hl c hc => by rw [h4]; exact n3 hs hl c hc, h5, h6⟩
    · rw [h3]
      exact s.meas.swapped_eq w.mask
    · rw [h3]
      exact s.meas.swapped_tables w.mask c
  · intro a T c sat lowest
    obtain ⟨t, hex, honly, hch, hobs⟩ := linearisation_polynomial hu hw hr ht hc ho he hv
    refine ⟨t, hex, honly, fun src tv hf hsrc h1 h2 => ?_, fun ha => ?_, fun ha => ?_⟩
    · intro u step row p
      obtain ⟨hs1, hs2⟩ := s.resultTaken.source_spec hf hsrc
      have hv := s.resultTaken.linValue_poly hc hf h1 h2 hs1
      have hb := s.resultTaken.linStatus_bad r
      rw [hc, hs2] at hb
      rw [hch]
      exact ⟨hv, rfl, rfl, rfl, hb⟩
    · intro ovr waits since high low free y
      obtain ⟨g1, g2, g3, g4, g5⟩ := s.resultTaken.rangeOn_view hc ha
      have hy : y = s.resultTaken.linearised r := hch
      rw [hy, hobs]
      exact ⟨g1, g2, g3, g4, g5⟩
    · rw [hch]
      exact s.resultTaken.rangeOn_off hc ha
  · intro a cs used off t x some_ flag valid evaluates
    obtain ⟨f1, f2, f3, f4⟩ := s.runVar_frame v
    have hx : x = s.newVar v.val := f4
    clear_value x
    subst hx
    have hev (sum : Int) {more : Bool} (hmore : more = (decide (a.varOp v.val = 0) && some_ fun c => c.linStatus.getLsbD 5))
        (h : -9223372036854775808 ≤ sum → sum ≤ 9223372036854775807 → s.EvaluatesTo v.val sum more) : evaluates sum := fun h1 h2 => by
      have := h h1 h2
      rw [State.EvaluatesTo, hmore, Meas.var_fin] at this
      exact this
    refine ⟨f1, f2, f3, s.newVar_valid v.val, fun h => ?_, fun h hm => ?_, fun h => ?_, fun h hm => ?_⟩
    · obtain ⟨-, h2, h3⟩ := State.newVar_weighed h
      exact ⟨hev _ (by rw [decide_eq_true h]; rfl) h2, h3⟩
    · obtain ⟨sat, cut, hst⟩ := State.newVar_set_status h
      obtain ⟨-, h11, -, -⟩ := State.newVar_setFlags hst
      exact ⟨hev _ (by rw [decide_eq_false h]; rfl) (State.newVar_set h hm), h11.trans (decide_eq_false (Nat.not_lt.2 hm))⟩
    · obtain ⟨sat, cut, hst⟩ := State.newVar_set_status h
      obtain ⟨-, -, h10, h23⟩ := State.newVar_setFlags hst
      exact ⟨h10.trans (State.usedChans_fewer s v.val), h23⟩
    · obtain ⟨sat, cut, hst⟩ := State.newVar_set_status h
      obtain ⟨-, h11, -, -⟩ := State.newVar_setFlags hst
      have hnone := State.newVar_none s (State.evalVar_short h hm)
      rw [Meas.var_fin] at hnone
      exact ⟨h11.trans (decide_eq_true hm), hnone⟩

end Sys2Proof.Machine
end



section
/-! PROOFS. The tap drain, the streams and the relay channel (06 R160, R161, R163; 11 R274; 15 R369). -/

namespace Sys2Proof.Machine

open Sys2Proof

set_option Elab.async false

section
variable {s : State} {e : QEntry} {k : Fin 4} {b : Nat}

theorem Mgmt.stream_fin (m : Mgmt) (k : Fin 4) : m.stream k.val = m.streams[k] := by
  simp [Mgmt.stream]

theorem Mgmt.setStream_fin (m : Mgmt) (k : Fin 4) (x : Stream) : m.setStream k.val x = { m with streams := m.streams.set k.val x } := by
  unfold Mgmt.setStream
  rw [vector_setIfInBounds_fin]

/-! ## The drain -/

/-- DB_QUEUE for the commits of an earlier tick (06 R160). -/
def State.queueRung (s : State) : State := match s.meas.qRing with
  | some t => if t < s.now then (s.ring 2).setMeas { s.meas with qRing := none } else s
  | none => s

theorem State.queueRung_none (h : s.meas.qRing = none) : s.queueRung = s := by
  unfold State.queueRung
  rw [h]

theorem State.queueRung_later (h : ∀ n, s.meas.qRing = some n → s.now ≤ n) : s.queueRung = s := by
  unfold State.queueRung
  split
  · next n hn => exact if_neg (Nat.not_lt.2 (h n hn))
  · rfl

theorem State.queueRung_due {n : Nat} (hn : s.meas.qRing = some n) (hlt : n < s.now) :
    s.queueRung = (s.setWin { s.win with db := s.win.db ||| 0x4 }).setMeas { s.meas with qRing := none } := by
  unfold State.queueRung
  rw [hn]
  exact if_pos hlt

theorem State.tapDrain_eq (s : State) : s.tapDrain =
    if s.queueRung.mgmt.inForce.queueStream && s.queueRung.mgmtUp && s.queueRung.mgmt.drained != some s.queueRung.now then
      if s.queueRung.qReady = [] then s.queueRung.setMgmt { s.queueRung.mgmt with oldStreams := [] }
      else s.queueRung.drainToken.foldl State.fileEntry s.queueRung.passDrain
    else s.queueRung := by
  have h : s.tapDrain = (fun s : State => if s.mgmt.inForce.queueStream && s.mgmtUp && s.mgmt.drained != some s.now then
      match s.qReady with
      | [] => s.setMgmt { s.mgmt with oldStreams := [] }
      | _ => s.drainToken.foldl State.fileEntry s.passDrain
    else s) s.queueRung := rfl
  rw [h]
  dsimp only
  cases s.queueRung.qReady <;> rfl

theorem exec_tapDrain_off (hp : s.clock.powered = true) (hq : s.mgmt.inForce.queueStream = false) :
    exec .tapDrain s = .next s.queueRung := by
  have hm : s.queueRung.mgmt = s.mgmt := by
    unfold State.queueRung
    split
    · split <;> rfl
    · rfl
  refine (stepIf_of hp).trans (congrArg Host.Outcome.next ?_)
  rw [s.tapDrain_eq, hm, hq]
  rfl

theorem drain_open (hu : s.mgmtUp = true) (hq : s.mgmt.inForce.queueStream = true) (hd : s.mgmt.drained ≠ some s.now) :
    (s.mgmt.inForce.queueStream && s.mgmtUp && s.mgmt.drained != some s.now) = true := by
  rw [hu, hq, bne_iff_ne.2 hd]
  rfl

theorem exec_tapDrain_on (hu : s.mgmtUp = true) (hq : s.mgmt.inForce.queueStream = true) (hr : s.meas.qRing = none)
    (hd : s.mgmt.drained ≠ some s.now) : exec .tapDrain s = .next (if s.qReady = [] then s.setMgmt { s.mgmt with oldStreams := [] }
      else s.drainToken.foldl State.fileEntry s.passDrain) := by
  have hp : s.clock.powered = true := (Bool.and_eq_true_iff.1 hu).1
  refine (stepIf_of hp).trans (congrArg Host.Outcome.next ?_)
  rw [s.tapDrain_eq, State.queueRung_none hr, drain_open hu hq hd]
  rfl

/-- The state that one entry has left. -/
def State.drained (s : State) : State :=
  (s.setMeas { s.meas with queue := [], qovf := false }).setMgmt { s.mgmt with drained := some s.now }

theorem exec_tapDrain_one (hu : s.mgmtUp = true) (hq : s.mgmt.inForce.queueStream = true) (hr : s.meas.qRing = none)
    (hd : s.mgmt.drained ≠ some s.now) (he : s.meas.queue = [e]) (hc : e.commit < s.now) :
    exec .tapDrain s = .next (s.drained.fileEntry e) := by
  have hready : s.qReady = [e] := by
    unfold State.qReady
    rw [he, List.filter_singleton, decide_eq_true hc]
    rfl
  have htoken : s.drainToken = [e] := by
    unfold State.drainToken
    rw [if_pos (drain_open hu hq hd), hready]
    rfl
  have hpass : s.passDrain = s.drained := by
    unfold State.passDrain State.drained Meas.qDrop
    rw [htoken, he]
    cases s.meas.qovf <;> rfl
  rw [exec_tapDrain_on hu hq hr hd, hready, if_neg (List.cons_ne_nil _ _), htoken, hpass]
  rfl

theorem Mgmt.fieldsOf_eq (m : Mgmt) (e : QEntry) :
    m.fieldsOf e = ((m.oldStreams.find? fun o => decide (e.commit < o.1)).map (·.2)).getD m.inForce := by
  unfold Mgmt.fieldsOf
  cases m.oldStreams.find? fun o => decide (e.commit < o.1) <;> rfl

theorem State.fileEntry_unbound (h : (s.mgmt.fieldsOf e).streamOf e.chan.toNat = none) : s.fileEntry e = s.count .qunbound := by
  unfold State.fileEntry
  rw [h]

theorem State.fileEntry_opens (h : (s.mgmt.fieldsOf e).streamOf e.chan.toNat = some k.val) (hb : s.mgmt.streams[k].buf = none) :
    s.fileEntry e = s.openBuffer k.val e := by
  unfold State.fileEntry
  rw [h]
  dsimp only
  unfold State.fileInto
  rw [Mgmt.stream_fin]
  dsimp only
  rw [hb]

/-- The place in its ring that a stream's next buffer has. -/
def Stream.place (x : Stream) (fs : List Int) : Nat :=
  if x.fields.getD 2 0 = fs.getD 2 0 ∧ x.fields.getD 3 0 = fs.getD 3 0 then x.ring else 0

/-- The buffer at a place of a stream's ring. -/
def ringBuf (ring : List Nat) (place : Nat) : Nat := ring.getD (place % max 1 ring.length) 0

theorem State.openBuffer_free (hf : (s.win.ownAt (ringBuf ((s.mgmt.fieldsOf e).streamRange k.val)
      (s.mgmt.streams[k].place ((s.mgmt.fieldsOf e).streamFields k.val)))).own = .free) :
    let r := (s.mgmt.fieldsOf e).streamRange k.val
    let fs := (s.mgmt.fieldsOf e).streamFields k.val
    let x := s.mgmt.streams[k]
    s.openBuffer k.val e = (s.setWin (s.win.setOwner (ringBuf r (x.place fs)) .device 0x10)).setMgmt { s.mgmt with
      streams := s.mgmt.streams.set k.val { x with
        buf := some (ringBuf r (x.place fs)), entries := [e], firstTick := e.commit, ring := (x.place fs + 1) % max 1 r.length, drops := 0
        bufDrops := x.drops, fields := fs } } := by
  intro r fs x
  unfold State.openBuffer
  dsimp only
  rw [Mgmt.stream_fin, ← Mgmt.setStream_fin]
  exact if_pos hf

theorem State.openBuffer_taken (hf : (s.win.ownAt (ringBuf ((s.mgmt.fieldsOf e).streamRange k.val)
      (s.mgmt.streams[k].place ((s.mgmt.fieldsOf e).streamFields k.val)))).own ≠ .free) :
    s.openBuffer k.val e = s.setMgmt { s.mgmt with
      streams := s.mgmt.streams.set k.val { s.mgmt.streams[k] with drops := min (s.mgmt.streams[k].drops + 1) 0xFFFFFFFF } } := by
  unfold State.openBuffer
  dsimp only
  rw [Mgmt.stream_fin, ← Mgmt.setStream_fin]
  exact if_neg hf

/-! ## The flush -/

theorem Stream.bytes_eq (x : Stream) (k : Nat) : x.bytes k = leBytes 1 k ++ leBytes 1 x.entries.length ++ leBytes 2 x.seqNo ++
    leBytes 6 ((x.entries.head?.map (·.stamp.toNat)).getD 0) ++ zeros 2 ++ leBytes 4 x.bufDrops ++
    x.entries.flatMap fun e => leBytes 8 e.word := by
  unfold Stream.bytes
  cases x.entries <;> rfl

theorem Stream.bytes_length (x : Stream) (k : Nat) : (x.bytes k).length = 16 + 8 * x.entries.length := by
  have h (es : List QEntry) : (es.flatMap fun e => leBytes 8 e.word).length = 8 * es.length := by
    induction es with
    | nil => rfl
    | cons e es ih => rw [List.flatMap_cons, List.length_append, ih, leBytes_length, List.length_cons]; omega
  rw [x.bytes_eq]
  simp only [List.length_append, leBytes_length, h, zeros, List.length_replicate]

/-- MGMT with a stream's buffer handed over. -/
def Mgmt.flushed (m : Mgmt) (k : Fin 4) : Mgmt := { m with streams := m.streams.set k.val { m.streams[k] with
  buf := none, entries := [], seqNo := (m.streams[k].seqNo + 1) % 65536, bufDrops := 0 } }

/-- The window with a stream's bytes in its buffer. -/
def Window.filled (w : Window) (b : Nat) (bs : List Byte) : Window := { w with mem := cellsWrite w.mem (bufAddr b) bs }

theorem State.handOver_eq (hb : s.mgmt.streams[k].buf = some b) (ho : (s.win.ownAt b).own = .device) : s.handOver k.val =
    if s.mgmt.streams[k].fields.getD 1 0 == 1 then
      ((s.setWin (s.win.filled b (s.mgmt.streams[k].bytes k.val))).setMgmt (s.mgmt.flushed k)).setFab
        { s.fab with relayOut := s.fab.relayOut ++ [(b, s.now)] }
    else ((s.setWin { (s.win.filled b (s.mgmt.streams[k].bytes k.val)).setOwner b .host 0x10 with
      db := s.win.db ||| BitVec.twoPow 32 (3 + k.val) }).setMgmt (s.mgmt.flushed k)) := by
  unfold State.handOver State.devWrite
  rw [Mgmt.stream_fin]
  dsimp only
  rw [hb]
  dsimp only
  rw [if_pos ho]
  unfold Mgmt.flushed
  rw [← Mgmt.setStream_fin]
  rfl

theorem exec_streamFlush (hu : s.mgmtUp = true) (hb : s.mgmt.streams[k].buf = some b)
    (hf : s.mgmt.streams[k].fields.getD 4 0 ≤ ((s.now - s.mgmt.streams[k].firstTick : Nat) : Int)) :
    exec (.streamFlush k) s = .next (s.handOver k.val) := by
  have hfl : s.mgmt.streams[k].flush ≤ s.now - s.mgmt.streams[k].firstTick := by
    unfold Stream.flush
    omega
  refine stepIf_of ?_
  rw [Mgmt.stream_fin, hu, hb, decide_eq_true hfl]
  rfl

theorem streamFlush_spec (hu : s.mgmtUp = true) (hb : s.mgmt.streams[k].buf = some b) (hlt : b < 64) (hm : s.memoryOk)
    (ho : (s.win.ownAt b).own = .device)
    (hf : s.mgmt.streams[k].fields.getD 4 0 ≤ ((s.now - s.mgmt.streams[k].firstTick : Nat) : Int)) :
    let bytes := s.mgmt.streams[k].bytes k.val
    let fabric := s.mgmt.streams[k].fields.getD 1 0 == 1
    ∃ t, exec (.streamFlush k) s = .next t ∧ s.Only [.mgmt, .win, .fab] t ∧ t.mgmt = s.mgmt.flushed k ∧
      t.win = { s.win with
        mem := t.win.mem, own := t.win.own, db := if fabric then s.win.db else s.win.db ||| BitVec.twoPow 32 (3 + k.val) } ∧
      t.fab = { s.fab with relayOut := if fabric then s.fab.relayOut ++ [(b, s.now)] else s.fab.relayOut } ∧
      t.bufRead b bytes.length = bytes ∧
      (∀ a, a < 256 * b ∨ 256 * b + bytes.length ≤ a → cellRead t.win.mem a = cellRead s.win.mem a) ∧
      t.win.ownAt b = (if fabric then s.win.ownAt b else ⟨.host, (s.win.ownAt b).gen + 1, 0x10⟩) ∧
      ∀ n, n ≠ b → t.win.ownAt n = s.win.ownAt n := by
  intro bytes fabric
  have hread : cellsRead (cellsWrite s.win.mem (bufAddr b) bytes) (bufAddr b) bytes.length = bytes := cellsRead_cellsWrite _ _ hm
  have helse : ∀ a, a < 256 * b ∨ 256 * b + bytes.length ≤ a → cellRead (cellsWrite s.win.mem (bufAddr b) bytes) a = cellRead s.win.mem a := by
    intro a ha
    rw [cellRead_cellsWrite _ _ _ hm, if_neg]
    unfold bufAddr
    omega
  refine ⟨_, exec_streamFlush hu hb hf, ?_⟩
  rw [State.handOver_eq hb ho]
  generalize hbs : s.mgmt.streams[k].bytes k.val = bs
  generalize s.mgmt.flushed k = m
  have hbs' : bytes = bs := hbs
  have hfab : (s.mgmt.streams[k].fields.getD 1 0 == 1) = fabric := rfl
  clear_value bytes fabric
  subst hbs'
  rw [hfab]
  cases fabric
  · exact ⟨((State.setWin_only _ _).mono (by simp)).trans ((State.setMgmt_only _ _).mono (by simp)), rfl, rfl, rfl, hread, helse,
      Window.setOwner_self (s.win.filled b bytes) _ _ hlt, fun n hn => Window.setOwner_other (s.win.filled b bytes) _ _ hn⟩
  · exact ⟨(((State.setWin_only _ _).mono (by simp)).trans ((State.setMgmt_only _ _).mono (by simp))).trans
      ((State.setFab_only _ _).mono (by simp)), rfl, rfl, rfl, hread, helse, rfl, fun n _ => rfl⟩

end

/-- Settles O45: an entry by the stream of its fields, a flush by the buffer it hands over. -/
theorem theTapFillsStreams : Obligations.TheTapFillsStreams := by
  refine ⟨fun s hp hq => ?_, fun s hu hq hr hd hn => ?_, fun s e hu hq hr hd he hc => ?_, fun s k b hu hb hlt hm ho _ => ?_,
    fun s b posted es hu hr => ?_⟩
  · refine ⟨_, exec_tapDrain_off hp hq, ?_, fun ⟨n, hn, hlt⟩ => ?_, fun h => State.queueRung_later h⟩
    · by_cases h : ∃ n, s.meas.qRing = some n ∧ n < s.now
      · obtain ⟨n, hn, hlt⟩ := h
        rw [State.queueRung_due hn hlt]
        exact ((State.setWin_only _ _).mono (by simp)).trans ((State.setMeas_only _ _).mono (by simp))
      · rw [State.queueRung_later fun n hn => Nat.not_lt.1 fun hlt => h ⟨n, hn, hlt⟩]
        exact .refl _ s
    · rw [State.queueRung_due hn hlt]
      exact ⟨rfl, rfl⟩
  · rw [exec_tapDrain_on hu hq hr hd, if_pos hn]
    rfl
  · intro a fields taken
    have hex := exec_tapDrain_one hu hq hr hd he hc
    have ha : s.drained.mgmt.fieldsOf e = a := s.mgmt.fieldsOf_eq e
    have honly : s.Only [.meas, .mgmt] s.drained := ((s.setMeas_only _).mono (by simp)).trans ((State.setMgmt_only _ _).mono (by simp))
    refine ⟨fun hs => ?_, fun k hs hbuf => ?_⟩
    · rw [State.fileEntry_unbound (s := s.drained) (by rw [ha]; exact hs)] at hex
      exact ⟨_, hex, (honly.mono (by simp)).trans ((State.setObs_only _ _).mono (by simp)), rfl, rfl,
        s.countN_counters .qunbound 1, Obs.count_self ..⟩
    · intro x ring place b hb
      rw [State.fileEntry_opens (s := s.drained) (k := k) (by rw [ha]; exact hs) hbuf] at hex
      refine ⟨fun hf => ?_, fun hf => ?_⟩
      · rw [State.openBuffer_free (s := s.drained) (k := k) (by rw [ha]; exact hf), ha] at hex
        exact ⟨_, hex, ((honly.mono (by simp)).trans ((State.setWin_only _ _).mono (by simp))).trans ((State.setMgmt_only _ _).mono (by simp)),
          rfl, rfl, Window.setOwner_self _ _ _ hb, fun n hn => Window.setOwner_other _ _ _ hn, rfl⟩
      · rw [State.openBuffer_taken (s := s.drained) (k := k) (by rw [ha]; exact hf)] at hex
        exact ⟨_, hex, honly.trans ((State.setMgmt_only _ _).mono (by simp)), rfl, rfl⟩
  · intro x hfl bytes fabric
    have hbytes : bytes = x.bytes k.val := (x.bytes_eq k.val).symm
    obtain ⟨t, hex, honly, h⟩ := streamFlush_spec hu hb hlt hm ho hfl
    rw [hbytes]
    exact ⟨t, hex, honly, h⟩
  · refine ⟨fun h => ?_, fun h => ?_⟩
    · unfold State.relayTick
      rw [hr]
      dsimp only
      rw [hu, decide_eq_true h]
      rfl
    · unfold State.relayTick
      rw [hr]
      dsimp only
      rw [hu, decide_eq_false (Nat.not_lt.2 h)]
      rfl

end Sys2Proof.Machine
end



section
/-! PROOFS. Loop updates and feeds (08 R187 to R190; 01 R19, R23; 13 R333, R334). -/

namespace Sys2Proof.Machine

open Sys2Proof

set_option Elab.async false

section
variable {s : State} {f : Feed}

/-! ## Fields of another kind -/

theorem assocGet_filter_of {l : List (Nat × Int)} {p : Nat × Int → Bool} {id : Nat} (h : ∀ e ∈ l, e.1 = id → p e = true) :
    assocGet (l.filter p) id = assocGet l id := by
  induction l with
  | nil => rfl
  | cons e l ih =>
    obtain ⟨k, v⟩ := e
    have hrest := ih fun e he => h e (List.mem_cons_of_mem _ he)
    by_cases hk : k = id
    · rw [List.filter_cons, if_pos (h _ List.mem_cons_self hk), assocGet, assocGet, if_pos hk, if_pos hk]
    · rw [assocGet, if_neg hk, List.filter_cons]
      split
      · rw [assocGet, if_neg hk, hrest]
      · exact hrest

theorem assocGet_foldl_put (es l : List (Nat × Int)) {id : Nat} (h : ∀ e ∈ es, e.1 ≠ id) :
    assocGet (es.foldl (fun l e => assocPut l e.1 e.2) l) id = assocGet l id := by
  induction es generalizing l with
  | nil => rfl
  | cons e es ih =>
    rw [List.foldl_cons, ih _ fun e he => h e (List.mem_cons_of_mem _ he), assocGet_assocPut,
      if_neg (Ne.symm (h e List.mem_cons_self))]

/-- A token of one kind leaves the fields of the others (01 R23). -/
theorem Alm.takeKind_val (a b : Alm) {k : Kind} {id : Nat} {r : FieldRow} (hr : fieldRow id = some r) (hk : (r.kind == k) = false) :
    (a.takeKind b k).val id = a.val id := by
  have hno (e : Nat × Int) (he : e.1 = id) : (fieldRow e.1).elim false (fun r => r.kind == k) = false := by rw [he, hr]; exact hk
  unfold Alm.val Alm.takeKind
  dsimp only
  rw [assocGet_foldl_put, assocGet_filter_of]
  · intro e _ he
    rw [he, hr]
    simp only [hk, Bool.not_false]
  · intro e he hid
    have := (List.mem_filter.1 he).2
    rw [hid, hr] at this
    simp only [hk] at this
    exact nomatch this

theorem Alm.takeKind_primary (a b : Alm) : (a.takeKind b .loop).primary = a.primary := by
  unfold Alm.primary Alm.nat
  rw [Alm.takeKind_val a b (id := fid 1 0 7) rfl rfl]

/-! ## The loop token (01 R23, 08 R190) -/

theorem State.refreshed_interrupted (s : State) : s.refreshed.interrupted = (s.loop.interrupted && s.primaryRuns) := by
  unfold State.refreshed LoopOut.stages
  cases s.primaryRuns
  · rw [Bool.and_false]
    rfl
  · rw [Bool.and_true]
    rfl

theorem State.applyLoop_none (h : s.mgmt.pendLoop = none) : s.applyLoop = s := by
  unfold State.applyLoop
  rw [h]
  rfl

/-- A loop token that LOOP has received comes into force, and the selection goes by it. -/
theorem State.applyLoop_due {tok : ApplyTok} (h : s.mgmt.pendLoop = some tok) (hp : tok.posted < s.now) :
    s.Only [.loop, .mgmt, .obs] s.applyLoop ∧ s.OnlyTrace s.applyLoop ∧
    s.applyLoop.mgmt = { s.mgmt with inForce := s.mgmt.inForce.takeKind tok.alm .loop, pendLoop := none } ∧
    ∃ u : State, u.loop = s.loop ∧ u.meas = s.meas ∧ u.clock = s.clock ∧ u.mgmt = s.applyLoop.mgmt ∧ s.applyLoop.loop = u.refreshed := by
  obtain ⟨o, ho, htr⟩ := (s.setMgmt { s.mgmt with inForce := s.mgmt.inForce.takeKind tok.alm .loop, pendLoop := none }).emit_eq .loop 9 1 [0]
  let u := (s.setMgmt { s.mgmt with inForce := s.mgmt.inForce.takeKind tok.alm .loop, pendLoop := none }).setObs o
  have htake : s.takeLoopToken = u := by
    unfold State.takeLoopToken
    rw [h]
    exact (if_pos hp).trans ho
  obtain ⟨o', ho', htr'⟩ := (u.setLoop u.refreshed).loopTrace_eq s.loop
  have happ : s.applyLoop = (u.setLoop u.refreshed).setObs o' := by
    unfold State.applyLoop
    rw [h, htake, State.refreshLoop_eq]
    exact ho'
  have h1 : s.Only [.loop, .mgmt, .obs] u := ((State.setMgmt_only _ _).mono (by simp)).trans ((State.setObs_only _ o).mono (by simp))
  have h2 : u.Only [.loop, .mgmt, .obs] ((u.setLoop u.refreshed).setObs o') :=
    ((State.setLoop_only _ _).mono (by simp)).trans ((State.setObs_only _ o').mono (by simp))
  rw [happ]
  exact ⟨h1.trans h2, State.CountersBut.trans htr htr', rfl, u, rfl, rfl, rfl, rfl, rfl⟩

/-- A loop token does not change the running of PRIMARY. -/
theorem State.applyLoop_primary {u : State} {tok : ApplyTok} (hm : u.meas = s.meas)
    (hg : u.mgmt = { s.mgmt with inForce := s.mgmt.inForce.takeKind tok.alm .loop, pendLoop := none }) : u.primaryRuns = s.primaryRuns := by
  unfold State.primaryRuns
  rw [hm, hg, Alm.takeKind_primary]

/-- The loop after an apply point (08 R193). -/
theorem State.applyLoop_loop {tok : ApplyTok} (h : s.mgmt.pendLoop = some tok) (hp : tok.posted < s.now) : s.applyLoop.loop = { s.loop with
    interrupted := s.loop.interrupted && s.primaryRuns, src := s.applyLoop.loop.src, cmd := s.applyLoop.loop.cmd
    lim := s.applyLoop.loop.lim, shaped := s.applyLoop.loop.shaped, trim := s.applyLoop.loop.trim } := by
  obtain ⟨-, -, hg, u, hl, hm, -, hu, ha⟩ := State.applyLoop_due h hp
  have hframe := u.refreshed_frame
  rw [u.refreshed_interrupted, hl, State.applyLoop_primary hm (hu.trans hg)] at hframe
  rw [ha]
  exact hframe

/-! ## One update (08 R187 to R190) -/

theorem classify_usable {st : BitVec 16} {pf : Nat} (h : st.toNat &&& 0x09F2 = 0 ∨ (st.getLsbD 1 = false ∧ pf = 2)) :
    classify st pf = .usable := by
  unfold classify
  by_cases hu : st.toNat &&& (invalidating - 1) = 0
  · rw [if_pos hu]
  · obtain ⟨h1, h2⟩ := h.resolve_left hu
    rw [if_neg hu, h1, h2]
    rfl

theorem classify_settling {st : BitVec 16} (pf : Nat) (hu : ¬ st.toNat &&& (invalidating - 1) = 0) (h : st.getLsbD 1 = true) : classify st pf = .settling := by
  unfold classify
  rw [if_neg hu, if_pos h]

theorem classify_failed {st : BitVec 16} {pf : Nat} (hu : ¬ st.toNat &&& (invalidating - 1) = 0) (h : st.getLsbD 1 = false) (hp : pf ≤ 1) :
    classify st pf = if pf = 0 then .failAlarm else .failHold := by
  unfold classify
  rw [if_neg hu, h]
  split
  · next h0 => exact nomatch h0
  · split
    · rfl
    · next h0 => exact if_pos (show pf = 1 by omega)

theorem damp_eq (y : Int) (valid : Bool) (alpha : Nat) (pv : Int) : damp y valid alpha pv =
    (if valid then y else pv * 16777216) + (pv * 16777216 - (if valid then y else pv * 16777216)) * alpha / 16777216 := by
  unfold damp
  dsimp only
  rw [asl_eq, asr_eq]
  rfl

/-- The code of a damped PV before its limits (08 R189). -/
def codeOf (a : Alm) (pvd : Int) : Int :=
  40000 + if a.urv < a.lrv then 160000 * (a.lrv - pvd) / (a.lrv - a.urv) else 160000 * (pvd - a.lrv) / (a.urv - a.lrv)

theorem mapCode_eq (a : Alm) (pvd : Int) : mapCode a pvd =
    (if codeOf a pvd < a.satLo then a.satLo else if a.satHi < codeOf a pvd then a.satHi else codeOf a pvd,
      decide (codeOf a pvd < a.satLo ∨ a.satHi < codeOf a pvd)) := by
  have hc : mapCode a pvd = if codeOf a pvd < a.satLo then (a.satLo, true) else if a.satHi < codeOf a pvd then (a.satHi, true)
      else (codeOf a pvd, false) := by
    unfold mapCode codeOf
    by_cases h : a.urv < a.lrv
    · have hn : a.urv - a.lrv < 0 := by omega
      simp only [h, hn, if_true, floorDiv, Int.neg_sub, Int.toNat_of_nonneg (show 0 ≤ a.lrv - a.urv by omega)]
    · have hn : ¬ a.urv - a.lrv < 0 := by omega
      simp only [h, hn, if_false, floorDiv, Int.toNat_of_nonneg (show 0 ≤ a.urv - a.lrv by omega)]
  rw [hc]
  split
  · next h => rw [decide_eq_true (.inl h)]
  · next h =>
    split
    · next h' => rw [decide_eq_true (.inr h')]
    · next h' => rw [decide_eq_false (not_or.2 ⟨h, h'⟩)]

theorem State.compute_usable (u : Nat) (h : classify f.status s.mgmt.inForce.pvFail = .usable) :
    let y := damp s.loop.yl s.loop.ylValid s.alphaNow f.pv
    let c := mapCode s.mgmt.inForce (y / 16777216)
    s.compute f u = (s.setLoop { s.loop with yl := y, ylValid := true }, ⟨f, .usable, c.1, y, c.2, u⟩) := by
  intro y c
  unfold State.compute
  dsimp only
  rw [h]
  dsimp only
  rw [asr_eq]
  rfl

theorem State.compute_other (u : Nat) {k : PvClass} (h : classify f.status s.mgmt.inForce.pvFail = k) (hk : k ≠ .usable) :
    s.compute f u = (s, ⟨f, k, s.loop.normal, s.loop.yl, s.loop.sat, u⟩) := by
  unfold State.compute
  dsimp only
  rw [h]
  cases k with
  | usable => exact absurd rfl hk
  | settling => rfl
  | failAlarm => rfl
  | failHold => rfl

/-! ## Feeds -/

/-- The state whose feed LOOP has taken. -/
def State.feedTaken (s : State) : State := s.setLoop { s.loop with feed := none }

theorem exec_loopUpdate (hf : s.loop.feed = some f) (ok : Bool) : exec (.loopUpdate ok) s =
    if s.parityArmed .meas .loop then
      stepIf (s.loopUp && decide (f.posted + 1 ≤ s.now)) s (s.feedTaken.parityError .meas .loop ok)
    else if ok then stepIf (s.loopUp && !s.loop.replaying && decide (f.posted + 2 ≤ s.now)) s
      ((s.feedTaken.applyLoop.compute f (s.now + 5)).1.schedule (s.now + 5) (.update (s.feedTaken.applyLoop.compute f (s.now + 5)).2))
    else stepIf (s.loopUp && decide (f.posted + 1 ≤ s.now)) s (s.feedTaken.parityError .meas .loop false) := by
  show execLoopUpdate ok s = _
  unfold execLoopUpdate
  rw [hf]
  rfl

theorem State.parityError_unarmed (h : s.parityArmed .meas .loop = false) (real : Bool) : s.parityError .meas .loop real =
    s.setFaults (s.report 0x0C 0x20 0x30).faults := by
  unfold State.parityError State.parityErrorAt
  dsimp only
  rw [h]
  rfl

theorem State.parityError_armed (h : s.parityArmed .meas .loop = true) (real : Bool) : s.parityError .meas .loop real =
    s.setFaults { s.faults.useArmed 0x0C with
      reports := s.faults.reports ++ [⟨0x0C, 0x20, 0x30, true, real, 0, s.now, s.clock.meridian, false⟩] } := by
  unfold State.parityError State.parityErrorAt
  dsimp only
  rw [h]
  cases real <;> rfl

end

/-- Settles O46: a feed by its parity, an update by the class of its PV. -/
theorem loopUpdatesSetTheCode : Obligations.LoopUpdatesSetTheCode := by
  intro s f hf free
  have hfree : free = s.feedTaken := rfl
  refine ⟨fun hu hp ha => ?_, fun ok hu hp ha => ?_, fun hu hr hp ha => ?_⟩
  · have hex := exec_loopUpdate hf false
    rw [ha, hu, decide_eq_true hp, State.parityError_unarmed (s := s.feedTaken) ha] at hex
    exact hex
  · have hex := exec_loopUpdate hf ok
    rw [ha, hu, decide_eq_true hp, State.parityError_armed (s := s.feedTaken) ha] at hex
    exact hex
  · intro w a l usable y y' c code sat after u
    have hex : exec (.loopUpdate true) s = .next ((w.compute f (s.now + 5)).1.schedule (s.now + 5) (.update (w.compute f (s.now + 5)).2)) := by
      have hex := exec_loopUpdate hf true
      rw [ha, hu, hr, decide_eq_true hp] at hex
      exact hex
    refine ⟨fun hn => State.applyLoop_none hn, fun tok ht hpt => ?_, fun h => ?_, fun h1 h2 => ?_, fun h1 h2 h3 => ?_⟩
    · obtain ⟨h1, h2, h3, -⟩ := State.applyLoop_due (s := free) ht hpt
      exact ⟨h1, h2, h3, State.applyLoop_loop (s := free) ht hpt⟩
    · rw [hex, State.compute_usable _ (classify_usable h), mapCode_eq, damp_eq]
      rfl
    · rw [hex, State.compute_other _ (classify_settling _ h1 h2) nofun]
      rfl
    · have hc := classify_failed h1 h2 h3
      rw [hex, State.compute_other _ hc (by split <;> exact nofun)]
      rfl

end Sys2Proof.Machine
end



section
/-! PROOFS. Holds, the hold limit and the replay of recorded feeds (08 R191, R194, R197 to R199, R201). -/

namespace Sys2Proof.Machine

open Sys2Proof

set_option Elab.async false

section
variable {s : State}

/-! ## The selection (08 R191, R192) -/

/-- No source above the software alarm is in force. -/
def LoopOut.Quiet (l : LoopOut) : Prop := l.multidrop = false ∧ l.hwAlarm = false ∧ l.auxAlarm = false ∧ ∀ n, l.miswire ≠ .folded n

/-- No source above a hold is in force. -/
def LoopOut.Unforced (l : LoopOut) : Prop := l.Quiet ∧ l.swAlarm = false ∧ l.fixed = none ∧ l.startup = false

theorem State.selectCode_quiet (h : s.loop.Quiet) : s.selectCode =
    if s.loop.swAlarm then (5, alarmLevel s.mgmt.inForce s.mgmt.inForce.almDirHigh)
    else s.loop.fixed.elim (if s.loop.startup then (0, 35000)
      else if s.loop.holding || !s.primaryRuns then (2, s.loop.cLast)
      else if s.loop.interrupted then
        if s.mgmt.inForce.holdTrack && s.loop.usable == 2 then (3, s.loop.track s.mgmt.inForce s.now) else (2, s.loop.cLast)
      else (1, s.loop.normal)) fun x => (4, x.1) := by
  obtain ⟨h1, h2, h3, h4⟩ := h
  unfold State.selectCode
  dsimp only
  rw [h1, h2, h3]
  split
  · next n hn => exact absurd hn (h4 n)
  · cases s.loop.fixed <;> rfl

theorem State.selectCode_unforced (h : s.loop.Unforced) : s.selectCode =
    if s.loop.holding || !s.primaryRuns then (2, s.loop.cLast)
    else if s.loop.interrupted then
      if s.mgmt.inForce.holdTrack && s.loop.usable == 2 then (3, s.loop.track s.mgmt.inForce s.now) else (2, s.loop.cLast)
    else (1, s.loop.normal) := by
  obtain ⟨hq, h1, h2, h3⟩ := h
  rw [State.selectCode_quiet hq, h1, h2, h3]
  rfl

/-- What the selection goes by, apart from what it writes. -/
theorem State.refreshed_selects (s : State) : (s.refreshed.src, s.refreshed.cmd) =
    (s.setLoop { s.loop with interrupted := s.loop.interrupted && s.primaryRuns }).selectCode := by
  unfold State.refreshed
  cases s.primaryRuns
  · rw [Bool.and_false]
    rfl
  · rw [Bool.and_true]
    rfl

theorem State.refreshed_held (h : s.loop.Unforced) (hh : s.loop.holding = true) : s.refreshed.src = 2 ∧ s.refreshed.cmd = s.loop.cLast := by
  have hsel := s.refreshed_selects
  rw [State.selectCode_unforced (s := s.setLoop { s.loop with interrupted := s.loop.interrupted && s.primaryRuns }) h] at hsel
  rw [show (s.setLoop { s.loop with interrupted := s.loop.interrupted && s.primaryRuns }).loop.holding = true from hh, Bool.true_or] at hsel
  exact ⟨congrArg Prod.fst hsel, congrArg Prod.snd hsel⟩

/-- The selection under an interruption (08 R197). -/
theorem State.refreshed_interrupts (h : s.loop.Unforced) (hr : s.primaryRuns = true) (hi : s.loop.interrupted = true) :
    (s.refreshed.src, s.refreshed.cmd) = if s.loop.holding then (2, s.loop.cLast)
      else if s.mgmt.inForce.holdTrack && s.loop.usable == 2 then (3, s.loop.track s.mgmt.inForce s.now) else (2, s.loop.cLast) := by
  have hsel := s.refreshed_selects
  rw [State.selectCode_unforced (s := s.setLoop { s.loop with interrupted := s.loop.interrupted && s.primaryRuns }) h] at hsel
  refine hsel.trans ?_
  show (if s.loop.holding || !s.primaryRuns then _ else if s.loop.interrupted && s.primaryRuns then _ else _) = _
  rw [hr, hi, Bool.not_true, Bool.or_false]
  rfl

/-- The software alarm passes the limiter where it is new (08 R194). -/
theorem State.refreshed_alarm (h : s.loop.Quiet) (ha : s.loop.swAlarm = true) :
    s.refreshed.src = 5 ∧ s.refreshed.cmd = alarmLevel s.mgmt.inForce s.mgmt.inForce.almDirHigh ∧
    (s.loop.prevSrc ≠ 5 → s.refreshed.lim = s.refreshed.cmd) := by
  have hsel : (s.setLoop { s.loop with interrupted := s.loop.interrupted && s.primaryRuns }).selectCode =
      (5, alarmLevel s.mgmt.inForce s.mgmt.inForce.almDirHigh) := by
    rw [State.selectCode_quiet (s := s.setLoop { s.loop with interrupted := s.loop.interrupted && s.primaryRuns }) h]
    exact if_pos ha
  have hpair := s.refreshed_selects.trans hsel
  refine ⟨congrArg Prod.fst hpair, congrArg Prod.snd hpair, fun hp => ?_⟩
  have hcmd : s.refreshed.cmd = alarmLevel s.mgmt.inForce s.mgmt.inForce.almDirHigh := congrArg Prod.snd hpair
  obtain ⟨l, hl, hlp⟩ : ∃ l : LoopOut, s.refreshed = l.stages 5 (alarmLevel s.mgmt.inForce s.mgmt.inForce.almDirHigh) s.mgmt.inForce.slew ∧
      l.prevSrc = s.loop.prevSrc := by
    have hform : s.refreshed = ({ s.loop with interrupted := s.loop.interrupted && s.primaryRuns } : LoopOut).stages
        (s.setLoop { s.loop with interrupted := s.loop.interrupted && s.primaryRuns }).selectCode.1
        (s.setLoop { s.loop with interrupted := s.loop.interrupted && s.primaryRuns }).selectCode.2 s.mgmt.inForce.slew := by
      unfold State.refreshed
      cases s.primaryRuns
      · rw [Bool.and_false]
        rfl
      · rw [Bool.and_true]
        rfl
    rw [hsel] at hform
    exact ⟨_, hform, rfl⟩
  have hby : ((5 : Nat) != l.prevSrc && ((5 : Nat) == 5 || (5 : Nat) == 6 || (5 : Nat) == 8)) = true := by
    rw [hlp, bne_iff_ne.2 (Ne.symm hp)]
    rfl
  rw [hcmd, hl]
  unfold LoopOut.stages
  dsimp only
  exact if_pos hby

/-! ## A new loop state that is selected and traced at once -/

theorem State.traced_loop (s : State) (m : LoopOut) : ∃ t, (s.setLoop m).refreshLoop.loopTrace s.loop = t ∧ s.Only [.loop, .obs] t ∧ s.OnlyTrace t ∧
    t.loop = (s.setLoop m).refreshed := by
  obtain ⟨o, ho, htr⟩ := (s.setLoop (s.setLoop m).refreshed).loopTrace_eq s.loop
  refine ⟨_, rfl, ?_⟩
  rw [State.refreshLoop_eq]
  have he : ((s.setLoop m).setLoop (s.setLoop m).refreshed).loopTrace s.loop = (s.setLoop (s.setLoop m).refreshed).setObs o := ho
  rw [he]
  exact ⟨((s.setLoop_only _).mono (by simp)).trans ((State.setObs_only _ o).mono (by simp)), htr, rfl⟩

/-- The loop keeps what the selection does not write, where PRIMARY runs. -/
theorem State.refreshed_kept (m : LoopOut) (hr : s.primaryRuns = true) : (s.setLoop m).refreshed = { m with
    src := (s.setLoop m).refreshed.src, cmd := (s.setLoop m).refreshed.cmd, lim := (s.setLoop m).refreshed.lim
    shaped := (s.setLoop m).refreshed.shaped, trim := (s.setLoop m).refreshed.trim } := by
  have hf := (s.setLoop m).refreshed_frame
  have hi := (s.setLoop m).refreshed_interrupted
  rw [show (s.setLoop m).primaryRuns = true from hr, Bool.and_true] at hi
  rw [hi] at hf
  exact hf

/-! ## The steps -/

/-- The loop from tick D on (08 R197, R198). -/
def State.interruptedLoop (s : State) : LoopOut :=
  let l := s.loop
  let d := l.uUpd + l.duMax + l.g
  { l with interrupted := true, dTick := d, holdCount := if l.failHold then l.holdCount else s.now - d }

theorem exec_interruption (hp : s.clock.powered = true) (hu : s.loop.hadUpdate = true) (hi : s.loop.interrupted = false)
    (hr : s.primaryRuns = true) (hd : s.loop.uUpd + s.loop.duMax + s.loop.g ≤ s.now) :
    exec .interruption s = .next ((s.setLoop s.interruptedLoop).refreshLoop.loopTrace s.loop) :=
  stepIf_of (by rw [hp, hu, hi, hr, decide_eq_true hd]; rfl)

theorem exec_holdLimitExpiry (hp : s.clock.powered = true) (hi : s.loop.interrupted = true ∨ s.loop.failHold = true)
    (hr : s.primaryRuns = true) (hl : s.loop.holdLim = false) (hc : s.mgmt.inForce.holdLimit ≤ s.loop.holdCount) :
    exec .holdLimitExpiry s = .next ((s.setLoop { s.loop with swAlarm := true, holdLim := true }).refreshLoop.loopTrace s.loop) :=
  stepIf_of (by rw [hp, Bool.or_eq_true_iff.2 hi, hr, hl, decide_eq_true hc]; rfl)

theorem exec_holdUpdate (hu : s.loopUp = true) (hh : s.loop.hadUpdate = true)
    (hi : s.loop.holding = true ∨ s.loop.interrupted = true ∨ s.primaryRuns = false) (hm : (s.now - s.loop.newestA) % 500 = 0)
    (hn : s.now - s.loop.newestA ≠ 0) : exec .holdUpdate s = .next s.applyLoop := by
  have hheld : (s.loop.holding || s.loop.interrupted || !s.primaryRuns) = true := by
    rcases hi with h | h | h
    · rw [h]; rfl
    · rw [h, Bool.or_true]; rfl
    · rw [h, Bool.not_false, Bool.or_true]
  show execHoldUpdate s = _
  refine stepIf_of ?_
  rw [hu, hh, hheld, beq_iff_eq.2 hm, bne_iff_ne.2 hn]
  rfl

theorem exec_feedReplay_done (hu : s.loopUp = true) (hr : s.loop.replaying = true) (ht : s.loop.todo = []) :
    exec .feedReplay s = .next (s.setLoop { s.loop with replaying := false }) := by
  show execFeedReplay s = _
  unfold execFeedReplay
  dsimp only
  rw [ht]
  exact stepIf_of (by rw [hu, hr]; rfl)

/-- An update writes LOOP's damping state alone, and does not see the replay. -/
theorem State.compute_replay (s : State) (f : Feed) (fs : List Feed) (n u : Nat) :
    (s.setLoop { s.loop with todo := fs, replayNext := n }).compute f u = (s.setLoop { s.loop with
      todo := fs, replayNext := n, yl := (s.compute f u).1.loop.yl, ylValid := (s.compute f u).1.loop.ylValid }, (s.compute f u).2) := by
  by_cases hk : classify f.status s.mgmt.inForce.pvFail = .usable
  · rw [State.compute_usable (s := s) u hk, State.compute_usable (s := s.setLoop { s.loop with todo := fs, replayNext := n }) u hk]
    rfl
  · rw [State.compute_other (s := s) u rfl hk, State.compute_other (s := s.setLoop { s.loop with todo := fs, replayNext := n }) u rfl hk]
    rfl

theorem exec_feedReplay_next {f : Feed} {fs : List Feed} (hu : s.loopUp = true) (hr : s.loop.replaying = true) (hp : s.mgmt.pendLoop = none)
    (ht : s.loop.todo = f :: fs) (hn : s.loop.replayNext ≤ s.now) :
    let r := s.compute f (f.posted + 7)
    let on : LoopOut := { s.loop with todo := fs, replayNext := s.now + 3, yl := r.1.loop.yl, ylValid := r.1.loop.ylValid }
    exec .feedReplay s = .next (s.setLoop (if fs = [] then { on with sched := s.loop.sched ++ [⟨s.now + 5, .update r.2⟩], replaying := false }
      else { on with skipped := s.loop.skipped ++ [r.2] })) := by
  intro r on
  have happ : (s.setLoop { s.loop with todo := fs, replayNext := s.now + 3 }).applyLoop = s.setLoop { s.loop with todo := fs, replayNext := s.now + 3 } :=
    State.applyLoop_none hp
  show execFeedReplay s = _
  unfold execFeedReplay
  dsimp only
  rw [ht]
  dsimp only
  rw [happ, s.compute_replay f fs (s.now + 3) (f.posted + 7)]
  refine (stepIf_of (by rw [hu, hr, decide_eq_true hn]; rfl)).trans ?_
  cases fs with
  | nil => rfl
  | cons g gs => rfl

end

/-- Settles O47: each step by the loop that it leaves, whose source the selection gives. -/
theorem holdsAlarmsAndReplays : Obligations.HoldsAlarmsAndReplays := by
  intro s hp l a d quiet unforced only
  refine ⟨fun hu hi hr hd => ?_, fun hi hr hl hc => ?_, fun hu hh hi hm hn => ⟨fun hpend => ?_, fun tok ht hpt => ?_⟩,
    fun hu hr hpend => ⟨fun ht => exec_feedReplay_done hu hr ht, fun f fs ht hn => exec_feedReplay_next hu hr hpend ht hn⟩⟩
  · obtain ⟨t, ht, honly, htr, hl⟩ := s.traced_loop s.interruptedLoop
    have hk := State.refreshed_kept (s := s) s.interruptedLoop hr
    refine ⟨t, (exec_interruption hp hu hi hr hd).trans (congrArg _ ht), honly, ⟨htr, by rw [hl]; exact hk⟩, fun hf h => ?_, fun hf h1 h2 h3 => ?_⟩
    · have hsel := State.refreshed_interrupts (s := s.setLoop s.interruptedLoop) hf hr rfl
      have h2 : (if l.holding then ((2 : Nat), l.cLast)
          else if a.holdTrack && l.usable == 2 then (3, s.interruptedLoop.track a s.now) else (2, l.cLast)) = (2, l.cLast) := by
        rcases h with h | h | h
        · rw [h]; rfl
        · rw [h, Bool.false_and]
          exact ite_self _
        · rw [beq_eq_false_iff_ne.2 h, Bool.and_false]
          exact ite_self _
      have hpair := hsel.trans h2
      rw [hl]
      exact ⟨congrArg Prod.fst hpair, congrArg Prod.snd hpair⟩
    · have hsel := State.refreshed_interrupts (s := s.setLoop s.interruptedLoop) hf hr rfl
      rw [hl]
      refine (congrArg Prod.fst hsel).trans ?_
      have h1' : (s.setLoop s.interruptedLoop).loop.holding = false := h1
      have h2' : (s.setLoop s.interruptedLoop).mgmt.inForce.holdTrack = true := h2
      have h3' : (s.setLoop s.interruptedLoop).loop.usable = 2 := h3
      rw [h1', h2', h3']
      rfl
  · obtain ⟨t, ht, honly, htr, hloop⟩ := s.traced_loop { s.loop with swAlarm := true, holdLim := true }
    have hk := State.refreshed_kept (s := s) { s.loop with swAlarm := true, holdLim := true } hr
    refine ⟨t, (exec_holdLimitExpiry hp hi hr hl hc).trans (congrArg _ ht), honly, ⟨htr, by rw [hloop]; exact hk⟩, fun hq => ?_⟩
    rw [hloop]
    exact State.refreshed_alarm (s := s.setLoop { s.loop with swAlarm := true, holdLim := true }) hq rfl
  · rw [exec_holdUpdate hu hh hi hm hn, State.applyLoop_none hpend]
  · obtain ⟨h1, h2, h3, u, hul, -, -, -, hau⟩ := State.applyLoop_due ht hpt
    refine ⟨_, exec_holdUpdate hu hh hi hm hn, h1, ⟨h2, State.applyLoop_loop ht hpt⟩, h3, fun hf hhold => ?_⟩
    have hheld := State.refreshed_held (s := u) (by rw [hul]; exact hf) (by rw [hul]; exact hhold)
    rw [hau]
    rw [hul] at hheld
    exact hheld

end Sys2Proof.Machine
end



section
/-! PROOFS. The line modem's ports: what a step of one port changes; energy blocks, the qualifier window and sync (09 R224 to R228). -/

namespace Sys2Proof.Machine

open Sys2Proof

set_option Elab.async false

section
variable {s : State} {pt : Port}

/-! ## A port and its state at a boundary -/

theorem Pair.put_put {α : Type} (q : Pair α) (p : Port) (x y : α) : (q.put p x).put p y = q.put p y := by cases p <;> rfl

theorem State.setPort_only (s : State) (pt : Port) (x : PortSt) : s.Only [.ports] (s.setPort pt x) :=
  ⟨rfl, fun q hq => by cases q <;> first | exact absurd (by decide) hq | rfl⟩

theorem State.setDecoder_only (s : State) (js : List CodeJob) : s.Only [.decoder] { s with decoder := js } :=
  ⟨rfl, fun q hq => by cases q <;> first | exact absurd (by decide) hq | rfl⟩

theorem State.setPort_setPort (s : State) (pt : Port) (x y : PortSt) : (s.setPort pt x).setPort pt y = s.setPort pt y := by
  unfold State.setPort
  dsimp only
  rw [Pair.put_put]

theorem PortSt.settle_of {x : PortSt} (h : x.rx ≠ .payload) (now : Nat) : x.settle now = x := if_neg fun hp => h hp.1

theorem PortSt.settle_rx (x : PortSt) (now : Nat) : x.settle now = { x with rx := (x.settle now).rx } := by
  unfold PortSt.settle
  split <;> rfl

theorem State.port_setPort (s : State) (pt : Port) (x : PortSt) : (s.setPort pt x).port pt = x.settle s.now := by
  unfold State.port State.setPort
  dsimp only
  rw [Pair.at_put_same]
  rfl

/-- A port settles once. -/
theorem State.port_settle (s : State) (pt : Port) : (s.port pt).settle s.now = s.port pt := by
  show ((s.ports.at pt).settle s.now).settle s.now = (s.ports.at pt).settle s.now
  unfold PortSt.settle
  by_cases h : (s.ports.at pt).rx = .payload ∧ (s.ports.at pt).complete (5 + (s.ports.at pt).paySyms) ≤ s.now
  · rw [if_pos h]
    exact if_neg fun hp => nomatch hp.1
  · rw [if_neg h, if_neg h]

/-- What settles a port is its state and the boundary of its last symbol. -/
theorem PortSt.settle_congr {x y : PortSt} {now : Nat} (h : x.settle now = x) (hr : y.rx = x.rx) (hn : y.nStar = x.nStar)
    (hp : y.paySyms = x.paySyms) : y.settle now = y := by
  unfold PortSt.settle at h ⊢
  unfold PortSt.complete at h ⊢
  rw [hr, hn, hp]
  by_cases hc : x.rx = .payload ∧ afterSample (x.nStar + 288 * (5 + x.paySyms) + 255) ≤ now
  · rw [if_pos hc] at h
    have := congrArg PortSt.rx h
    rw [hc.1] at this
    exact nomatch this
  · exact if_neg hc

theorem State.emitModem_eq (s : State) (pt : Port) (ev hdr : Nat) : ∃ o, s.emitModem pt ev hdr = s.setObs o ∧ s.OnlyTrace (s.setObs o) := by
  unfold State.emitModem
  exact s.emit_eq ..

/-! ## Discarding and opening -/

/-- The decoder keeps the jobs of the other port. -/
theorem keepWhole_others (pt : Port) (js : List CodeJob) :
    (keepWhole pt js).1.filter (fun j => j.port ≠ pt) = js.filter fun j => j.port ≠ pt := by
  induction js with
  | nil => rfl
  | cons j js ih =>
    unfold keepWhole
    rcases hk : keepWhole pt js with ⟨ks, seen⟩
    rw [hk] at ih
    dsimp only at ih ⊢
    by_cases hp : j.port ≠ pt
    · rw [if_pos hp, List.filter_cons, List.filter_cons, ih]
    · rw [if_neg hp]
      have hdrop (l : List CodeJob) : (j :: l).filter (fun j => decide (j.port ≠ pt)) = l.filter fun j => decide (j.port ≠ pt) := by
        rw [List.filter_cons, decide_eq_false hp]
        rfl
      split
      · rw [hdrop, hdrop, ih]
      · rw [hdrop, ih]

/-- A port without the packet that it was receiving. -/
def State.discarded (s : State) (pt : Port) : PortSt := { s.port pt with
  seg := none, hdrLlr := [], llrs := [], taps := [], syms := 0, hdr := none, cwLeft := 0, paySyms := 0
  bits := if (keepWhole pt s.decoder).2 then (s.port pt).bits else [] }

theorem State.discardPacket_eq (s : State) (pt : Port) :
    s.discardPacket pt = { s.setPort pt (s.discarded pt) with decoder := (keepWhole pt s.decoder).1 } := rfl

theorem State.discardPacket_only (s : State) (pt : Port) : s.Only [.ports, .decoder] (s.discardPacket pt) := by
  rw [s.discardPacket_eq]
  exact ((s.setPort_only pt _).mono (by simp)).trans ((State.setDecoder_only _ _).mono (by simp))

theorem State.discardPacket_port (s : State) (pt : Port) : (s.discardPacket pt).port pt = (s.discarded pt).settle s.now :=
  (s.port_setPort pt (s.discarded pt))

/-- A port with a qualifier window from this boundary on (09 R225). -/
def PortSt.opened (y : PortSt) (now : Nat) : PortSt := { y with
  rx := .qualify, winOpen := 64 * now, winEnd := 64 * now + 864 * 125, winMax := 64 * now + 4608 * 125, strong := 0 }

theorem State.openWindow_eq (s : State) (pt : Port) : ∃ o, s.openWindow pt = (s.setPort pt ((s.port pt).opened s.now)).setObs o ∧
    s.OnlyTrace (s.setObs o) := (s.setPort pt ((s.port pt).opened s.now)).emitModem_eq pt 0 0

theorem State.endWindow_open (h : (s.port pt).windowOver s.now = false) : s.endWindow pt = s := by
  unfold State.endWindow
  rw [h]
  rfl

theorem State.endWindow_over (h : (s.port pt).windowOver s.now = true) : s.endWindow pt =
    (s.setPort pt { s.port pt with rx := .idle }).count (perPort pt .energyNoqualL .energyNoqualS) := by
  unfold State.endWindow
  exact if_pos h

theorem PortSt.windowOver_of {x : PortSt} (h : x.rx ≠ .qualify) (now : Nat) : x.windowOver now = false := by
  unfold PortSt.windowOver
  rw [beq_eq_false_iff_ne.2 h]
  rfl

/-! ## One block (09 R224 to R228) -/

/-- The blocks in a row of at least 4 x E_sync. -/
def PortSt.strongRow (x : PortSt) (now : Nat) (e : Int) : Nat :=
  if 2 * x.eSync ≤ e then (if x.blkTick.isSome ∧ (x.blkTick.getD 0) + 32 = now then x.strong + 1 else 1) else 0

/-- A port that has judged a block. -/
def PortSt.judged (x : PortSt) (now : Nat) (e : Int) : PortSt :=
  { x with blkTick := some now, blocks := (e :: x.blocks).take 2, strong := x.strongRow now e }

theorem State.block_eq (s : State) (pt : Port) (e : Int) (h : (s.port pt).windowOver s.now = false) : s.block pt e =
    let x := s.port pt
    let y := x.judged s.now e
    let t := s.setPort pt y
    if x.rx.holds then
      if 2 ≤ y.strong ∧ s.mgmt.inForce.mdmCapture then
        (((t.discardPacket pt).openWindow pt).count (perPort pt .captureAbortL .captureAbortS)).emitModem pt 4 0
      else t
    else if qualifies e x.pg s.mgmt.inForce.mdmFloorInit s.mgmt.inForce.mdmEnMargin then
      if x.rx = .qualify then s.setPort pt { y with winEnd := min x.winMax (max x.winEnd (64 * s.now + 64 * 125)) }
      else t.openWindow pt
    else t := by
  have hrow : (s.port pt).strongRow s.now e = if 2 * (s.port pt).eSync ≤ e then
      (if (match (s.port pt).blkTick with
        | some t => decide (t + 32 = s.now)
        | none => false) then (s.port pt).strong + 1 else 1) else 0 := by
    unfold PortSt.strongRow
    cases (s.port pt).blkTick with
    | none => rfl
    | some t => simp
  unfold State.block
  dsimp only
  rw [State.endWindow_open h]
  unfold PortSt.judged
  rw [hrow, State.setPort_setPort] <;> rfl

theorem exec_energyBlock {ys : List Int} (ho : s.portOn pt = true) (hm : (s.port pt).rx ≠ .muted) (h32 : s.now % 32 = 0)
    (hb : (s.port pt).blkTick ≠ some s.now) (hy : ys ≠ []) :
    exec (.energyBlock pt ys) s = .next (s.block pt ((ys.map fun y => y * y).sum / (ys.length : Int))) := by
  show execEnergyBlock pt ys s = _
  have hempty : ys.isEmpty = false := by
    cases ys with
    | nil => exact absurd rfl hy
    | cons y ys => rfl
  refine stepIf_of ?_
  rw [ho, bne_iff_ne.2 hm, h32, bne_iff_ne.2 hb, hempty]
  rfl

/-- A packet under capture is abandoned for a new window (09 R228). -/
theorem State.abandoned (s : State) (pt : Port) : let t := (((s.discardPacket pt).openWindow pt).count
      (perPort pt .captureAbortL .captureAbortS)).emitModem pt 4 0
    s.Only [.ports, .decoder, .obs] t ∧ s.CountersBut [perPort pt .captureAbortL .captureAbortS, .trcDrop] t ∧ (t.port pt).rx = .qualify ∧
      (t.port pt).hdr = none ∧ (t.port pt).llrs = [] ∧ (t.port pt).seg = none ∧
      t.decoder.filter (fun j => j.port ≠ pt) = s.decoder.filter fun j => j.port ≠ pt := by
  intro t
  have hd := s.discardPacket_only pt
  have hport := s.discardPacket_port pt
  have hdec : (s.discardPacket pt).decoder = (keepWhole pt s.decoder).1 := rfl
  have hobs : (s.discardPacket pt).obs = s.obs := rfl
  have hnow : (s.discardPacket pt).now = s.now := rfl
  have ht : t = (((s.discardPacket pt).openWindow pt).count (perPort pt .captureAbortL .captureAbortS)).emitModem pt 4 0 := rfl
  clear_value t
  generalize s.discardPacket pt = u at hd hport hdec hobs hnow ht
  obtain ⟨o, ho, htr⟩ := u.openWindow_eq pt
  obtain ⟨o', ho', htr'⟩ := ((u.setPort pt ((u.port pt).opened u.now)).setObs o |>.count (perPort pt .captureAbortL .captureAbortS)).emitModem_eq pt 4 0
  rw [ho, ho'] at ht
  have htport : t.port pt = (u.port pt).opened u.now := by
    rw [ht]
    exact (u.port_setPort pt ((u.port pt).opened u.now)).trans (PortSt.settle_of (show RxState.qualify ≠ .payload from nofun) _)
  have hkept : u.port pt = { s.discarded pt with rx := (u.port pt).rx } := by
    rw [hport]
    exact PortSt.settle_rx _ _
  have hcnt : u.CountersBut [perPort pt .captureAbortL .captureAbortS, .trcDrop] t := by
    rw [ht]
    exact ((htr.mono (by simp)).trans ((State.countN_counters _ (perPort pt .captureAbortL .captureAbortS) 1).mono (by simp))).trans
      (htr'.mono (by simp))
  refine ⟨?_, hcnt.of_obs hobs, ?_, ?_, ?_, ?_, ?_⟩
  · rw [ht]
    exact ((hd.mono (by simp)).trans ((State.setPort_only _ _ _).mono (by simp))).trans ((State.setObs_only _ _).mono (by simp))
  · rw [htport]
    rfl
  · rw [htport, hkept]
    rfl
  · rw [htport, hkept]
    rfl
  · rw [htport, hkept]
    rfl
  · have hdt : t.decoder = u.decoder := by rw [ht]; rfl
    rw [hdt, hdec]
    exact keepWhole_others pt s.decoder

theorem RxState.holds_of {r : RxState} (h : r = .synced ∨ r = .payload) : r.holds = true := by
  rcases h with rfl | rfl <;> rfl

theorem State.block_idle (e : Int) (hr : (s.port pt).rx = .idle) :
    ∃ o, s.block pt e = (s.setPort pt (if qualifies e (s.port pt).pg s.mgmt.inForce.mdmFloorInit s.mgmt.inForce.mdmEnMargin
      then ((s.port pt).judged s.now e).opened s.now else (s.port pt).judged s.now e)).setObs o ∧ s.OnlyTrace (s.setObs o) := by
  have hh : (s.port pt).rx.holds = false := by rw [hr]; rfl
  have hq : (s.port pt).rx ≠ .qualify := by rw [hr]; exact nofun
  have hj : ((s.port pt).judged s.now e).rx ≠ .payload := by rw [show ((s.port pt).judged s.now e).rx = _ from hr]; exact nofun
  rw [s.block_eq pt e (PortSt.windowOver_of hq _)]
  dsimp only
  rw [hh, if_neg Bool.false_ne_true, if_neg hq]
  split
  · obtain ⟨o, ho, htr⟩ := (s.setPort pt ((s.port pt).judged s.now e)).openWindow_eq pt
    rw [s.port_setPort, PortSt.settle_of hj, s.setPort_setPort] at ho
    exact ⟨o, ho, htr⟩
  · exact ⟨s.obs, rfl, .refl _ s⟩

theorem State.block_qualify (e : Int) (hr : (s.port pt).rx = .qualify) (hw : (s.port pt).windowOver s.now = false) :
    s.block pt e = s.setPort pt (if qualifies e (s.port pt).pg s.mgmt.inForce.mdmFloorInit s.mgmt.inForce.mdmEnMargin
      then { (s.port pt).judged s.now e with winEnd := min (s.port pt).winMax (max (s.port pt).winEnd (64 * s.now + 64 * 125)) }
      else (s.port pt).judged s.now e) := by
  have hh : (s.port pt).rx.holds = false := by rw [hr]; rfl
  rw [s.block_eq pt e hw]
  dsimp only
  rw [hh, if_neg Bool.false_ne_true, if_pos hr]
  split <;> rfl

theorem State.block_held (e : Int) (hr : (s.port pt).rx = .synced ∨ (s.port pt).rx = .payload) : s.block pt e =
    if 2 ≤ (s.port pt).strongRow s.now e ∧ s.mgmt.inForce.mdmCapture then
      ((((s.setPort pt ((s.port pt).judged s.now e)).discardPacket pt).openWindow pt).count
        (perPort pt .captureAbortL .captureAbortS)).emitModem pt 4 0
    else s.setPort pt ((s.port pt).judged s.now e) := by
  have hq : (s.port pt).rx ≠ .qualify := by rcases hr with h | h <;> rw [h] <;> exact nofun
  rw [s.block_eq pt e (PortSt.windowOver_of hq _)]
  dsimp only
  rw [RxState.holds_of hr, if_pos rfl]
  rfl

/-- A window that ends is counted before the block that closes with it is judged (09 R225). -/
theorem State.endWindow_port (h : (s.port pt).windowOver s.now = true) : (s.endWindow pt).port pt = { s.port pt with rx := .idle } := by
  rw [State.endWindow_over h]
  exact (s.port_setPort pt _).trans (PortSt.settle_of (show RxState.idle ≠ .payload from nofun) _)

theorem State.block_over (e : Int) (h : (s.port pt).windowOver s.now = true) : s.block pt e = (s.endWindow pt).block pt e := by
  have hidle : (s.endWindow pt).endWindow pt = s.endWindow pt := State.endWindow_open (by
    rw [State.endWindow_port h]
    exact PortSt.windowOver_of (show RxState.idle ≠ .qualify from nofun) _)
  unfold State.block
  rw [hidle]

theorem exec_energyBlock_over {ys : List Int} (ho : s.portOn pt = true) (hm : (s.port pt).rx ≠ .muted) (h32 : s.now % 32 = 0)
    (hb : (s.port pt).blkTick ≠ some s.now) (hy : ys ≠ []) (h : (s.port pt).windowOver s.now = true) :
    exec (.energyBlock pt ys) s = exec (.energyBlock pt ys) (s.endWindow pt) := by
  have hport := State.endWindow_port h
  have ho' : (s.endWindow pt).portOn pt = true := by rw [State.endWindow_over h]; exact ho
  have hnow : (s.endWindow pt).now = s.now := by rw [State.endWindow_over h]; rfl
  rw [exec_energyBlock ho hm h32 hb hy, exec_energyBlock ho' (by rw [hport]; exact nofun) (by rw [hnow]; exact h32)
    (by rw [hport, hnow]; exact hb) hy, State.block_over _ h]

/-! ## Sync (09 R225, R226) -/

theorem exec_sync_none {ys : List Int} (h : (s.port pt).peak s.mgmt.inForce.mdmQThr ys = none) : exec (.sync pt ys) s = .next s := by
  show execSync pt ys s = _
  unfold execSync
  dsimp only
  rw [h]

theorem exec_sync_some {ys : List Int} {n : Nat} (ho : s.portOn pt = true) (hq : (s.port pt).rx = .qualify)
    (hw : (s.port pt).windowOver s.now = false) (h : (s.port pt).peak s.mgmt.inForce.mdmQThr ys = some n)
    (hn : afterSample (n + 543) ≤ s.now) : exec (.sync pt ys) s = .next (((s.discardPacket pt).setPort pt
      { (s.discardPacket pt).port pt with rx := .synced, nStar := n, eSync := (s.port pt).blocks.sum, strong := 0 }).emitModem pt 1 0) := by
  show execSync pt ys s = _
  unfold execSync
  dsimp only
  rw [h]
  exact stepIf_of (by rw [ho, hq, hw, decide_eq_true hn]; rfl)

theorem sync_spec {ys : List Int} {n : Nat} (ho : s.portOn pt = true) (hq : (s.port pt).rx = .qualify)
    (hw : (s.port pt).windowOver s.now = false) (h : (s.port pt).peak s.mgmt.inForce.mdmQThr ys = some n)
    (hn : afterSample (n + 543) ≤ s.now) : ∃ t, exec (.sync pt ys) s = .next t ∧ s.Only [.ports, .decoder, .obs] t ∧ s.OnlyTrace t ∧
      t.ports = s.ports.put pt { s.port pt with
        rx := .synced, nStar := n, eSync := (s.port pt).blocks.sum, strong := 0, seg := none, hdrLlr := [], llrs := [], taps := []
        syms := 0, hdr := none, cwLeft := 0, paySyms := 0, bits := (t.port pt).bits } ∧
      t.decoder.filter (fun j => j.port ≠ pt) = s.decoder.filter fun j => j.port ≠ pt := by
  have hport : (s.discardPacket pt).port pt = s.discarded pt := by
    rw [s.discardPacket_port]
    exact PortSt.settle_of (by rw [show (s.discarded pt).rx = (s.port pt).rx from rfl, hq]; exact nofun) _
  have hex := exec_sync_some ho hq hw h hn
  rw [hport, s.discardPacket_eq] at hex
  have hd := s.discardPacket_only pt
  rw [s.discardPacket_eq] at hd
  generalize hy : ({ s.discarded pt with rx := .synced, nStar := n, eSync := (s.port pt).blocks.sum, strong := 0 } : PortSt) = y at hex
  have hputs : ((s.setPort pt (s.discarded pt)).setPort pt y).ports = s.ports.put pt y := by
    rw [s.setPort_setPort]
    rfl
  have hyport (u : State) (hu : u.ports = s.ports.put pt y) : u.port pt = y := by
    unfold State.port
    rw [hu, Pair.at_put_same]
    exact PortSt.settle_of (by rw [← hy]; exact nofun) _
  obtain ⟨o, ho', htr⟩ := (({ s.setPort pt (s.discarded pt) with decoder := (keepWhole pt s.decoder).1 } : State).setPort pt y).emitModem_eq pt 1 0
  rw [ho'] at hex
  refine ⟨_, hex, ((hd.mono (by simp)).trans ((State.setPort_only _ _ _).mono (by simp))).trans ((State.setObs_only _ _).mono (by simp)), htr,
    ?_, keepWhole_others pt s.decoder⟩
  rw [hyport ((({ s.setPort pt (s.discarded pt) with decoder := (keepWhole pt s.decoder).1 } : State).setPort pt y).setObs o) hputs]
  refine hputs.trans ?_
  rw [← hy]
  rfl

end

/-- Settles O48: a block by what it judges, sync by the peak, the window's end by its count. -/
theorem energyOpensAWindowForSync : Obligations.EnergyOpensAWindowForSync := by
  intro s pt ho x a becomes opened
  refine ⟨fun ys hm h32 hb hy => ?_, fun ys hq hw => ?_, fun hw => ?_⟩
  · intro e strong seen ok
    have hex := exec_energyBlock ho hm h32 hb hy
    refine ⟨fun hr => ?_, fun hr hw => ?_, fun hw u hu => ?_, fun hr h => ?_, fun hr h1 h2 => ?_⟩
    · obtain ⟨o, he, htr⟩ := State.block_idle (s := s) (pt := pt) e hr
      rw [he] at hex
      exact ⟨_, hex, ((s.setPort_only _ _).mono (by simp)).trans ((State.setObs_only _ o).mono (by simp)), htr, rfl⟩
    · rw [State.block_qualify (s := s) (pt := pt) _ hr hw] at hex
      exact hex
    · have hu' : s.endWindow pt = u := Host.Outcome.next.inj ((stepIf_of ho).symm.trans hu)
      rw [← hu']
      exact exec_energyBlock_over ho hm h32 hb hy hw
    · rw [State.block_held (s := s) (pt := pt) _ hr, if_neg] at hex
      · exact hex
      · rintro ⟨h1, h2⟩
        rcases h with h | h
        · exact absurd h1 (Nat.not_le.2 h)
        · exact absurd h2 (by rw [show s.mgmt.inForce.mdmCapture = false from h]; exact Bool.false_ne_true)
    · rw [State.block_held (s := s) (pt := pt) _ hr, if_pos ⟨h1, h2⟩] at hex
      obtain ⟨g1, g2, g3⟩ := (s.setPort pt ((s.port pt).judged s.now e)).abandoned pt
      exact ⟨_, hex, ((s.setPort_only _ _).mono (by simp)).trans (g1.mono (by simp)), g2, g3⟩
  · split
    · next n hn => exact fun h => sync_spec ho hq hw hn h
    · next hn => exact exec_sync_none hn
  · refine ⟨_, stepIf_of ho, ?_⟩
    rw [State.endWindow_over hw]
    exact ⟨((State.setPort_only _ _ _).mono (by simp)).trans ((State.setObs_only _ _).mono (by simp)),
      State.countN_counters (s.setPort pt _) _ 1, rfl, Obs.count_self ..⟩

end Sys2Proof.Machine
end



section
/-! PROOFS. Reception: the segments of the DSP core, the header's verdict, the payload and the decoder (09 R214 to R226). -/

namespace Sys2Proof.Machine

open Sys2Proof

set_option Elab.async false

section
variable {s : State} {pt : Port}

/-! ## Segments (09 R223) -/

theorem State.setDspFree_only (s : State) (n : Nat) : s.Only [.dspFree] { s with dspFree := n } :=
  ⟨rfl, fun q hq => by cases q <;> first | exact absurd (by decide) hq | rfl⟩

/-- The end of the segment that is put on the core now, if one may start. -/
def State.bookedEnd (s : State) (y : PortSt) : Option Nat :=
  y.nextSeg.bind fun r => if r.1 ≤ s.now then some (s.dspEnd r.2) else none

theorem State.book_eq (h : (s.port pt).seg = none) : s.book pt = (s.bookedEnd (s.port pt)).elim s fun d =>
    { s.setPort pt { s.port pt with seg := some d } with dspFree := d } := by
  unfold State.book State.bookedEnd
  dsimp only
  rw [h]
  cases (s.port pt).nextSeg with
  | none => rfl
  | some r =>
    show (if r.1 ≤ s.now then _ else _) = _
    by_cases hr : r.1 ≤ s.now
    · rw [if_pos hr, Option.bind_some, if_pos hr]
      rfl
    · rw [if_neg hr, Option.bind_some, if_neg hr]
      rfl

/-- A port as it stands after a step that may put its next segment on the core. -/
def State.Booked (s : State) (pt : Port) (t : State) (y : PortSt) : Prop :=
  t.ports = s.ports.put pt ((s.bookedEnd (y.settle s.now)).elim y fun d => { y.settle s.now with seg := some d }) ∧
  t.dspFree = (s.bookedEnd (y.settle s.now)).getD s.dspFree

theorem PortSt.settle_seg (x : PortSt) (now : Nat) : (x.settle now).seg = x.seg := by
  rw [x.settle_rx]

theorem State.book_booked {u : State} {y : PortSt} {ps : List Part} (h : s.Only ps u) (hc : u.clock = s.clock) (hd : u.dspFree = s.dspFree)
    (hp : u.ports = s.ports.put pt y) (hy : y.seg = none) :
    s.Only (ps ++ [.ports, .dspFree]) (u.book pt) ∧ s.Booked pt (u.book pt) y ∧
    (∀ q : Part, q ≠ .ports → q ≠ .dspFree → q.same u (u.book pt)) := by
  have hnow : u.now = s.now := congrArg Clock.tick hc
  have hport : u.port pt = y.settle s.now := by
    unfold State.port
    rw [hp, Pair.at_put_same, hnow]
  have hend : u.bookedEnd (y.settle s.now) = s.bookedEnd (y.settle s.now) := by
    unfold State.bookedEnd State.dspEnd
    rw [hnow, hd]
  have hb := State.book_eq (s := u) (pt := pt) (by rw [hport, PortSt.settle_seg, hy])
  rw [hport, hend] at hb
  unfold State.Booked
  have honly : ∀ d, u.Only [.ports, .dspFree] { u.setPort pt { y.settle s.now with seg := some d } with dspFree := d } := fun d =>
    ((u.setPort_only pt _).mono (by simp)).trans ((State.setDspFree_only _ d).mono (by simp))
  rw [hb]
  cases s.bookedEnd (y.settle s.now) with
  | none => exact ⟨h.mono fun q hq => List.mem_append_left _ hq, ⟨hp, hd⟩, fun q _ _ => by cases q <;> rfl⟩
  | some d =>
    refine ⟨(h.mono fun q hq => List.mem_append_left _ hq).trans ((honly d).mono fun q hq => List.mem_append_right _ hq), ⟨?_, rfl⟩, fun q h1 h2 => (honly d).2 q (by simp [h1, h2])⟩
    show u.ports.put pt _ = _
    rw [hp, Pair.put_put]
    rfl

/-- The state whose segment has ended. -/
def State.segEnded (s : State) (pt : Port) : State := s.setPort pt { s.port pt with seg := none }

theorem State.segEnded_port (s : State) (pt : Port) : (s.segEnded pt).port pt = { s.port pt with seg := none } := by
  unfold State.segEnded
  rw [s.port_setPort]
  exact PortSt.settle_congr (s.port_settle pt) rfl rfl rfl

theorem State.segEnded_pgOf (s : State) (pt : Port) : (s.segEnded pt).pgOf pt = s.pgOf pt := by
  have h : ((s.segEnded pt).ports.at pt).pg = (s.ports.at pt).pg := by
    unfold State.segEnded State.setPort State.port
    rw [(s.ports.at pt).settle_rx]
    dsimp only
    rw [Pair.at_put_same]
  unfold State.pgOf
  rw [h]

theorem State.endSeg_eq (s : State) (pt : Port) (f : State → State) : s.endSeg pt f = (f (s.segEnded pt)).book pt := rfl

theorem PortSt.segDone_of {x : PortSt} {d now : Nat} (h : x.seg = some d) (hd : d ≤ now) : x.segDone now = true := by
  unfold PortSt.segDone
  rw [h]
  exact decide_eq_true hd

/-- A segment that leaves its port as `y`. -/
theorem State.endSeg_port {f : State → State} {y : PortSt} (hf : f (s.segEnded pt) = (s.segEnded pt).setPort pt y) (hy : y.seg = none) :
    s.Only [.ports, .dspFree] (s.endSeg pt f) ∧ s.Booked pt (s.endSeg pt f) y := by
  have hput : s.setPort pt y = (s.segEnded pt).setPort pt y := (s.setPort_setPort pt _ y).symm
  obtain ⟨h1, h2, -⟩ := State.book_booked (s := s) (pt := pt) (u := s.setPort pt y) (y := y) (s.setPort_only pt y) rfl rfl rfl hy
  rw [s.endSeg_eq, hf, ← hput]
  exact ⟨h1.mono (by simp), h2⟩

/-! ## Training and header symbols -/

theorem modeDecision_spec {d : Nat} {y0 y1 : List Cplx} (ho : s.portOn pt = true) (hr : (s.port pt).rx = .synced)
    (hs : (s.port pt).seg = some d) (hd : d ≤ s.now) (ht : (s.port pt).taps = []) (h0 : y0.length = 64) (h1 : y1.length = 64) :
    ∃ t, exec (.modeDecision pt y0 y1) s = .next t ∧ s.Only [.ports, .dspFree] t ∧ s.Booked pt t { s.port pt with
      seg := none, mode := decideMode y0 y1, taps := tapsOf (decideMode y0 y1) y0 y1, drift := 0
      scale := llrScale (tapsOf (decideMode y0 y1) y0 y1) (s.pgOf pt), syms := 0, hdrLlr := [] } := by
  have hex : exec (.modeDecision pt y0 y1) s = .next (s.endSeg pt fun s => s.trained pt y0 y1) := by
    show execModeDecision pt y0 y1 s = _
    exact stepIf_of (by rw [ho, hr, ht, beq_iff_eq.2 h0, beq_iff_eq.2 h1, PortSt.segDone_of hs hd]; rfl)
  refine ⟨_, hex, State.endSeg_port ?_ rfl⟩
  show (s.segEnded pt).trained pt y0 y1 = _
  unfold State.trained
  rw [s.segEnded_port, s.segEnded_pgOf]

theorem symbolDemod_header {d : Nat} {y : List Cplx} (ho : s.portOn pt = true) (hr : (s.port pt).rx = .synced)
    (hs : (s.port pt).seg = some d) (hd : d ≤ s.now) (hy : y.length = 64) (ht : (s.port pt).taps ≠ []) (h2 : (s.port pt).syms < 2) :
    ∃ t, exec (.symbolDemod pt y) s = .next t ∧ s.Only [.ports, .dspFree] t ∧ s.Booked pt t { s.port pt with
      seg := none, syms := (s.port pt).syms + 1
      hdrLlr := (s.port pt).hdrLlr ++ headerDemod (s.port pt).taps y (s.pgOf pt) (s.port pt).syms } := by
  have hex : exec (.symbolDemod pt y) s = .next (s.endSeg pt fun s => s.headerSym pt y) := by
    show execSymbolDemod pt y s = _
    unfold execSymbolDemod
    dsimp only
    rw [if_pos ⟨hr, h2⟩]
    exact stepIf_of (by rw [ho, beq_iff_eq.2 hy, List.isEmpty_eq_false_iff.2 ht, PortSt.segDone_of hs hd]; rfl)
  refine ⟨_, hex, State.endSeg_port ?_ rfl⟩
  show (s.segEnded pt).headerSym pt y = _
  unfold State.headerSym
  rw [s.segEnded_port, s.segEnded_pgOf]

/-! ## The header's verdict (09 R226) -/

theorem exec_headerVerdict {d : Nat} (ho : s.portOn pt = true) (hr : (s.port pt).rx = .synced) (hs : (s.port pt).seg = some d) (hd : d ≤ s.now)
    (h2 : (s.port pt).syms = 2) : exec (.headerVerdict pt) s = .next (((s.segEnded pt).verdict pt).book pt) := by
  show execHeaderVerdict pt s = _
  exact stepIf_of (by rw [ho, hr, h2, PortSt.segDone_of hs hd]; rfl)

theorem State.segEnded_headerBits (s : State) (pt : Port) : (s.segEnded pt).headerBits pt = s.headerBits pt := by
  unfold State.headerBits
  rw [s.segEnded_port, s.segEnded_pgOf]

theorem State.verdict_some {f : Frame} (h : headerFrame (s.headerBits pt) (s.port pt).mode = some f) (hf : f.len ≠ 0) :
    (s.segEnded pt).verdict pt = ((s.segEnded pt).setPort pt { s.port pt with
      seg := none, rx := .payload, hdr := some f, llrs := [], cwLeft := (s.port pt).mode.codewords f.len.toNat
      paySyms := (s.port pt).mode.paySyms f.len.toNat }).emitModem pt 2 (s.headerBits pt) := by
  unfold State.verdict
  rw [s.segEnded_port, s.segEnded_headerBits]
  dsimp only
  rw [h]
  exact if_neg hf

theorem headerVerdict_payload {d : Nat} {f : Frame} (ho : s.portOn pt = true) (hr : (s.port pt).rx = .synced) (hs : (s.port pt).seg = some d)
    (hd : d ≤ s.now) (h2 : (s.port pt).syms = 2) (h : headerFrame (s.headerBits pt) (s.port pt).mode = some f) (hf : f.len ≠ 0) :
    ∃ t, exec (.headerVerdict pt) s = .next t ∧ s.Only [.ports, .dspFree, .obs] t ∧ s.OnlyTrace t ∧ s.Booked pt t { s.port pt with
      seg := none, rx := .payload, hdr := some f, llrs := [], cwLeft := (s.port pt).mode.codewords f.len.toNat
      paySyms := (s.port pt).mode.paySyms f.len.toNat } := by
  have hex := exec_headerVerdict ho hr hs hd h2
  rw [State.verdict_some h hf] at hex
  generalize hy : ({ s.port pt with
    seg := none, rx := .payload, hdr := some f, llrs := [], cwLeft := (s.port pt).mode.codewords f.len.toNat
    paySyms := (s.port pt).mode.paySyms f.len.toNat } : PortSt) = y at hex ⊢
  have hseg : y.seg = none := by rw [← hy]
  rw [show (s.segEnded pt).setPort pt y = s.setPort pt y from s.setPort_setPort pt _ y] at hex
  obtain ⟨o, he, htr⟩ := (s.setPort pt y).emitModem_eq pt 2 (s.headerBits pt)
  rw [he] at hex
  have honly : s.Only [.ports, .obs] ((s.setPort pt y).setObs o) :=
    ((s.setPort_only pt y).mono (by simp)).trans ((State.setObs_only _ o).mono (by simp))
  obtain ⟨h1, h2, h3⟩ := State.book_booked (s := s) (pt := pt) (y := y) honly rfl rfl rfl hseg
  have hobs : (((s.setPort pt y).setObs o).book pt).obs = o := h3 .obs nofun nofun
  have htr' : s.OnlyTrace (((s.setPort pt y).setObs o).book pt) := by
    have : s.OnlyTrace (s.setObs o) := htr
    unfold State.OnlyTrace State.CountersBut at this ⊢
    rw [hobs]
    exact this
  exact ⟨_, hex, h1.mono (by simp), htr', h2⟩

/-- A port that is idle after its packet was discarded. -/
def State.discardedIdle (s : State) (pt : Port) : State :=
  (s.discardPacket pt).setPort pt { (s.discardPacket pt).port pt with rx := .idle }

theorem State.discardedIdle_spec (s : State) (pt : Port) : s.Only [.ports, .decoder] (s.discardedIdle pt) ∧
    ((s.discardedIdle pt).port pt).rx = .idle ∧ ((s.discardedIdle pt).port pt).hdr = none ∧ ((s.discardedIdle pt).port pt).seg = none := by
  have hp : (s.discardedIdle pt).port pt = { (s.discardPacket pt).port pt with rx := .idle } := by
    unfold State.discardedIdle
    rw [State.port_setPort]
    exact PortSt.settle_of (show RxState.idle ≠ .payload from nofun) _
  have hd : (s.discardPacket pt).port pt = { s.discarded pt with rx := ((s.discardPacket pt).port pt).rx } := by
    rw [s.discardPacket_port]
    exact PortSt.settle_rx _ _
  refine ⟨(s.discardPacket_only pt).trans ((State.setPort_only _ _ _).mono (by simp)), ?_, ?_, ?_⟩
  · rw [hp]
  · rw [hp, hd]
    rfl
  · rw [hp, hd]
    rfl

/-- An idle port asks the core for nothing. -/
theorem State.book_idle (h1 : (s.port pt).rx = .idle) (h2 : (s.port pt).hdr = none) (h3 : (s.port pt).seg = none) : s.book pt = s := by
  rw [State.book_eq h3]
  have hn : (s.port pt).nextSeg = none := by
    unfold PortSt.nextSeg
    rw [h1, h2]
    rfl
  unfold State.bookedEnd
  rw [hn]
  rfl

theorem State.port_congr {u : State} (hp : u.ports = s.ports) (hc : u.clock = s.clock) : u.port pt = s.port pt := by
  have hnow : u.now = s.now := congrArg Clock.tick hc
  unfold State.port
  rw [hp, hnow]

theorem State.verdict_none (h : headerFrame (s.headerBits pt) (s.port pt).mode = none) : (s.segEnded pt).verdict pt =
    (((s.segEnded pt).discardedIdle pt).count (perPort pt .falseSyncL .falseSyncS)).emitModem pt 3 0 := by
  unfold State.verdict
  rw [s.segEnded_port, s.segEnded_headerBits]
  dsimp only
  rw [h]
  rfl

theorem headerVerdict_false {d : Nat} (ho : s.portOn pt = true) (hr : (s.port pt).rx = .synced) (hs : (s.port pt).seg = some d)
    (hd : d ≤ s.now) (h2 : (s.port pt).syms = 2) (h : headerFrame (s.headerBits pt) (s.port pt).mode = none) :
    ∃ t, exec (.headerVerdict pt) s = .next t ∧ s.Only [.ports, .decoder, .obs] t ∧
      s.CountersBut [perPort pt .falseSyncL .falseSyncS, .trcDrop] t ∧ (t.port pt).rx = .idle ∧ (t.port pt).hdr = none := by
  have hex := exec_headerVerdict ho hr hs hd h2
  rw [State.verdict_none h] at hex
  obtain ⟨h1, g1, g2, g3⟩ := (s.segEnded pt).discardedIdle_spec pt
  have honly : s.Only [.ports, .decoder] ((s.segEnded pt).discardedIdle pt) := ((s.setPort_only pt _).mono (by simp)).trans h1
  generalize (s.segEnded pt).discardedIdle pt = u at hex g1 g2 g3 honly
  obtain ⟨o, he, htr⟩ := (u.count (perPort pt .falseSyncL .falseSyncS)).emitModem_eq pt 3 0
  have hport : ((u.count (perPort pt .falseSyncL .falseSyncS)).setObs o).port pt = u.port pt := rfl
  rw [he, State.book_idle (by rw [hport]; exact g1) (by rw [hport]; exact g2) (by rw [hport]; exact g3)] at hex
  have hcnt : u.CountersBut [perPort pt .falseSyncL .falseSyncS, .trcDrop] ((u.count (perPort pt .falseSyncL .falseSyncS)).setObs o) :=
    ((u.countN_counters _ 1).mono (by simp)).trans (htr.mono (by simp))
  exact ⟨_, hex, (honly.mono (by simp)).trans ((State.setObs_only _ o).mono (by simp)), hcnt.of_obs (honly.2 .obs (by decide)), g1, g2⟩

/-! ## Frames handed to the fabric (10 R239, R240) -/

/-- What a delivery leaves of the fabric. -/
def State.deliveredFab (s : State) (pt : Port) (f : Frame) : Fabric :=
  if frameValid f then { s.fab with
    delivered := (s.fab.delivered.filter fun d => d.port ≠ pt || d.at_ == s.now) ++ [⟨pt, f, s.now, true, s.routes⟩] }
  else s.fab

theorem State.deliver_spec (s : State) (pt : Port) (f : Frame) : s.Only [.fab, .obs] (s.deliver pt f) ∧ s.CountersBut [.frameBad] (s.deliver pt f) ∧
    (s.deliver pt f).fab = s.deliveredFab pt f := by
  unfold State.deliver State.deliveredFab
  split
  · exact ⟨(State.setFab_only _ _).mono (by simp), .refl _ s, rfl⟩
  · exact ⟨(State.setObs_only _ _).mono (by simp), s.countN_counters .frameBad 1, rfl⟩

theorem State.deliveredFab_congr {u : State} (hf : u.fab = s.fab) (hc : u.clock = s.clock) (hm : u.mgmt = s.mgmt) (pt : Port) (f : Frame) :
    u.deliveredFab pt f = s.deliveredFab pt f := by
  have hnow : u.now = s.now := congrArg Clock.tick hc
  unfold State.deliveredFab State.routes
  rw [hf, hnow, hm]

theorem State.verdict_empty {f : Frame} (h : headerFrame (s.headerBits pt) (s.port pt).mode = some f) (hf : f.len = 0) :
    (s.segEnded pt).verdict pt = ((((s.segEnded pt).discardedIdle pt).emitModem pt 2 (s.headerBits pt)).count
      (perPort pt .rxOkL .rxOkS)).deliver pt f := by
  unfold State.verdict
  rw [s.segEnded_port, s.segEnded_headerBits]
  dsimp only
  rw [h]
  exact if_pos hf

theorem headerVerdict_delivered {d : Nat} {f : Frame} (ho : s.portOn pt = true) (hr : (s.port pt).rx = .synced) (hs : (s.port pt).seg = some d)
    (hd : d ≤ s.now) (h2 : (s.port pt).syms = 2) (h : headerFrame (s.headerBits pt) (s.port pt).mode = some f) (hf : f.len = 0) :
    ∃ t, exec (.headerVerdict pt) s = .next t ∧ s.Only [.ports, .decoder, .fab, .obs] t ∧
      s.CountersBut [perPort pt .rxOkL .rxOkS, .frameBad, .trcDrop] t ∧ (t.port pt).rx = .idle ∧ t.fab = s.deliveredFab pt f := by
  have hex := exec_headerVerdict ho hr hs hd h2
  rw [State.verdict_empty h hf] at hex
  obtain ⟨h1, g1, g2, g3⟩ := (s.segEnded pt).discardedIdle_spec pt
  have honly : s.Only [.ports, .decoder] ((s.segEnded pt).discardedIdle pt) := ((s.setPort_only pt _).mono (by simp)).trans h1
  generalize (s.segEnded pt).discardedIdle pt = u at hex g1 g2 g3 honly
  obtain ⟨o, he, htr⟩ := u.emitModem_eq pt 2 (s.headerBits pt)
  rw [he] at hex
  have hcnt : u.CountersBut [perPort pt .rxOkL .rxOkS, .frameBad, .trcDrop] ((u.setObs o).count (perPort pt .rxOkL .rxOkS)) :=
    (htr.mono (by simp)).trans ((State.countN_counters (u.setObs o) _ 1).mono (by simp))
  have hv : u.Only [.obs] ((u.setObs o).count (perPort pt .rxOkL .rxOkS)) := u.setObs_only _
  generalize (u.setObs o).count (perPort pt .rxOkL .rxOkS) = v at hex hcnt hv
  obtain ⟨d1, d2, d3⟩ := v.deliver_spec pt f
  have hport : (v.deliver pt f).port pt = u.port pt :=
    State.port_congr ((d1.2 .ports (by decide)).trans (hv.2 .ports (by decide))) ((d1.2 .clock (by decide)).trans (hv.2 .clock (by decide)))
  rw [State.book_idle (by rw [hport]; exact g1) (by rw [hport]; exact g2) (by rw [hport]; exact g3)] at hex
  refine ⟨_, hex, ((honly.mono (by simp)).trans (hv.mono (by simp))).trans (d1.mono (by simp)),
    (hcnt.trans (d2.mono (by simp))).of_obs (honly.2 .obs (by decide)), by rw [hport]; exact g1, d3.trans ?_⟩
  have hsv : s.Only [.ports, .decoder, .obs] v := (honly.mono (by simp)).trans (hv.mono (by simp))
  exact State.deliveredFab_congr (hsv.2 .fab (by decide)) (hsv.2 .clock (by decide)) (hsv.2 .mgmt (by decide)) pt f

/-! ## Payload symbols (09 R217, R222) -/

/-- The soft values of the payload with a symbol's. -/
def State.withSymbol (s : State) (pt : Port) (y : List Cplx) : List Int :=
  (s.port pt).llrs ++ (s.port pt).mode.demod (s.port pt).scale (s.port pt).taps y (s.pgOf pt)

/-- A port after a payload symbol: its window, its taps, and the codeword that it may have completed. -/
def State.paid (s : State) (pt : Port) (y : List Cplx) (h : Frame) : PortSt :=
  let x := s.port pt
  let full := decide (1152 ≤ (s.withSymbol pt y).length)
  let ramp := Config.rampOf (x.mode.products x.taps y (s.pgOf pt))
  let move := windowMove (x.drift + ramp.2)
  { x with
    seg := none, syms := x.syms + 1, taps := turnTaps ramp.1 (ramp.2 + 256 * move) x.taps
    drift := x.drift + ramp.2 + 256 * move, nStar := ((x.nStar : Int) + move).toNat
    llrs := if full then (s.withSymbol pt y).drop 1152 else s.withSymbol pt y, cwLeft := if full then x.cwLeft - 1 else x.cwLeft
    hdr := if full && x.cwLeft == 1 then none else some h }

/-- The codeword that a symbol completes. -/
def State.codewords (s : State) (pt : Port) (y : List Cplx) (h : Frame) : List CodeJob :=
  if decide (1152 ≤ (s.withSymbol pt y).length) then
    [⟨pt, (s.port pt).mode, (s.withSymbol pt y).take 1152, s.now, (s.port pt).cwLeft == 1, h, (s.port pt).complete (4 + (s.port pt).syms)⟩]
  else []

theorem State.paySymbol_eq {y : List Cplx} {h : Frame} (hh : (s.port pt).hdr = some h) :
    (s.segEnded pt).paySymbol pt y = { s.setPort pt (s.paid pt y h) with decoder := s.decoder ++ s.codewords pt y h } := by
  have hw : (s.port pt).llrs ++ (s.port pt).mode.demod (s.port pt).scale (s.port pt).taps y (s.pgOf pt) = s.withSymbol pt y := rfl
  have hput (z : PortSt) : (s.segEnded pt).setPort pt z = s.setPort pt z := s.setPort_setPort pt _ z
  unfold State.paySymbol State.paid State.codewords
  rw [s.segEnded_port, s.segEnded_pgOf]
  dsimp only
  rw [hw, hh]
  by_cases hl : (s.withSymbol pt y).length < 1152
  · rw [if_pos hl, decide_eq_false (Nat.not_le.2 hl), hput]
    simp only [Bool.false_eq_true, if_false, Bool.false_and, List.append_nil]
    rfl
  · rw [if_neg hl, decide_eq_true (Nat.not_lt.1 hl)]
    dsimp only
    rw [hput]
    by_cases hc : (s.port pt).cwLeft = 1
    · rw [if_pos hc, hc]
      rfl
    · rw [if_neg hc, beq_eq_false_iff_ne.2 hc]
      rfl

theorem symbolDemod_payload {d : Nat} {y : List Cplx} {h : Frame} (ho : s.portOn pt = true) (hr : (s.port pt).rx ≠ .synced)
    (hs : (s.port pt).seg = some d) (hd : d ≤ s.now) (hy : y.length = 64) (ht : (s.port pt).taps ≠ []) (hh : (s.port pt).hdr = some h)
    (hc : 0 < (s.port pt).cwLeft) : ∃ t, exec (.symbolDemod pt y) s = .next t ∧ s.Only [.ports, .decoder, .dspFree] t ∧
      s.Booked pt t (s.paid pt y h) ∧ t.decoder = s.decoder ++ s.codewords pt y h := by
  have hex : exec (.symbolDemod pt y) s = .next (s.endSeg pt fun s => s.paySymbol pt y) := by
    show execSymbolDemod pt y s = _
    unfold execSymbolDemod
    dsimp only
    rw [if_neg fun h => hr h.1]
    exact stepIf_of (by
      rw [ho, beq_iff_eq.2 hy, List.isEmpty_eq_false_iff.2 ht, PortSt.segDone_of hs hd, bne_iff_ne.2 hr, hh, decide_eq_true hc]; rfl)
  rw [s.endSeg_eq, State.paySymbol_eq hh] at hex
  have hseg : (s.paid pt y h).seg = none := rfl
  generalize s.paid pt y h = z at hex hseg ⊢
  generalize s.codewords pt y h = js at hex ⊢
  have honly : s.Only [.ports, .decoder] { s.setPort pt z with decoder := s.decoder ++ js } :=
    ((s.setPort_only pt z).mono (by simp)).trans ((State.setDecoder_only _ _).mono (by simp))
  obtain ⟨h1, h2, h3⟩ := State.book_booked (s := s) (pt := pt) (y := z) honly rfl rfl rfl hseg
  exact ⟨_, hex, h1.mono (by simp), h2, h3 .decoder nofun nofun⟩

/-! ## The decoder (09 R222, R223, R226) -/

/-- The state after a codeword's decoding: the packet's bits, and the decoder without the job. -/
def State.decoded (s : State) (j : CodeJob) (bits : List Bool) : State :=
  { s.setPort j.port { s.port j.port with bits := if j.last then [] else bits } with
    decoder := s.decoder.erase j, decFree := max j.ready s.decFree + 448 }

theorem exec_codewordDecode {j : CodeJob} (hu : s.loopUp = true) (hj : firstJob s.decoder = some j)
    (ht : max j.ready s.decFree + 448 ≤ s.now) :
    let bits := (s.port j.port).bits ++ (j.mode.decode j.llrs).take j.mode.infoBits
    exec .codewordDecode s = .next (if j.last then (s.decoded j bits).packetDone j bits else s.decoded j bits) := by
  intro bits
  show execCodewordDecode s = _
  unfold execCodewordDecode
  rw [hj]
  exact stepIf_of (by rw [hu, decide_eq_true ht]; rfl)

theorem State.decoded_only (s : State) (j : CodeJob) (bits : List Bool) : s.Only [.ports, .decoder, .decFree] (s.decoded j bits) := by
  have h : (s.setPort j.port { s.port j.port with bits := if j.last then [] else bits }).Only [.decoder, .decFree] (s.decoded j bits) :=
    ⟨rfl, fun q hq => by cases q <;> first | exact absurd (by decide) hq | rfl⟩
  exact ((s.setPort_only _ _).mono (by simp)).trans (h.mono (by simp))

/-- A packet that passes its CRC-32 is delivered and counted, another one is counted (09 R214, R226). -/
theorem State.packetDone_spec (s : State) (j : CodeJob) (bits : List Bool) : let n := j.hdr.len.toNat
    let bytes := bitsBytes (n + 4) bits
    s.Only [.fab, .obs] (s.packetDone j bits) ∧
    (crc32 (bytes.take n) = leAt bytes n 4 → (s.packetDone j bits).fab = s.deliveredFab j.port { j.hdr with payload := bytes.take n } ∧
      s.CountersBut [perPort j.port .rxOkL .rxOkS, .frameBad, .trcDrop] (s.packetDone j bits)) ∧
    (¬ crc32 (bytes.take n) = leAt bytes n 4 → (s.packetDone j bits).fab = s.fab ∧
      s.CountersBut [perPort j.port .rxCrcFailL .rxCrcFailS, .trcDrop] (s.packetDone j bits)) := by
  intro n bytes
  have hdone : s.packetDone j bits = if crc32 (bytes.take n) = leAt bytes n 4 then
      ((s.count (perPort j.port .rxOkL .rxOkS)).emitModem j.port 5 (headerWord j.hdr)).deliver j.port { j.hdr with payload := bytes.take n }
    else (s.count (perPort j.port .rxCrcFailL .rxCrcFailS)).emitModem j.port 6 (headerWord j.hdr) := rfl
  have hmsg (c : Ctr) (ev : Nat) : s.Only [.obs] ((s.count c).emitModem j.port ev (headerWord j.hdr)) ∧
      s.CountersBut [c, .trcDrop] ((s.count c).emitModem j.port ev (headerWord j.hdr)) := by
    obtain ⟨o, ho, htr⟩ := (s.count c).emitModem_eq j.port ev (headerWord j.hdr)
    rw [ho]
    exact ⟨s.setObs_only o, ((s.countN_counters c 1).mono (by simp)).trans (htr.mono (by simp))⟩
  rw [hdone]
  by_cases hg : crc32 (bytes.take n) = leAt bytes n 4
  · rw [if_pos hg]
    obtain ⟨h1, h2⟩ := hmsg (perPort j.port .rxOkL .rxOkS) 5
    generalize (s.count (perPort j.port .rxOkL .rxOkS)).emitModem j.port 5 (headerWord j.hdr) = v at h1 h2
    obtain ⟨d1, d2, d3⟩ := v.deliver_spec j.port { j.hdr with payload := bytes.take n }
    refine ⟨(h1.mono (by simp)).trans d1, fun _ => ⟨d3.trans ?_, (h2.mono (by simp)).trans (d2.mono (by simp))⟩, fun hn => absurd hg hn⟩
    exact State.deliveredFab_congr (h1.2 .fab (by decide)) (h1.2 .clock (by decide)) (h1.2 .mgmt (by decide)) _ _
  · rw [if_neg hg]
    obtain ⟨h1, h2⟩ := hmsg (perPort j.port .rxCrcFailL .rxCrcFailS) 6
    exact ⟨h1.mono (by simp), fun hp => absurd hp hg, fun _ => ⟨h1.2 .fab (by decide), h2⟩⟩

theorem codewordDecode_spec {j : CodeJob} (hu : s.loopUp = true) (hj : firstJob s.decoder = some j) (hp : j.port = pt)
    (ht : max j.ready s.decFree + 448 ≤ s.now) :
    let bits := (s.port pt).bits ++ (j.mode.decode j.llrs).take j.mode.infoBits
    let n := j.hdr.len.toNat
    let bytes := bitsBytes (n + 4) bits
    ∃ t, exec .codewordDecode s = .next t ∧ s.Only [.ports, .decoder, .decFree, .fab, .obs] t ∧ t.decoder = s.decoder.erase j ∧
      t.decFree = max j.ready s.decFree + 448 ∧ t.ports = s.ports.put pt { s.port pt with bits := if j.last then [] else bits } ∧
      (j.last = false → t.fab = s.fab ∧ t.obs = s.obs) ∧
      (j.last = true → crc32 (bytes.take n) = leAt bytes n 4 → t.fab = s.deliveredFab pt { j.hdr with payload := bytes.take n } ∧
        s.CountersBut [perPort pt .rxOkL .rxOkS, .frameBad, .trcDrop] t) ∧
      (j.last = true → ¬ crc32 (bytes.take n) = leAt bytes n 4 → t.fab = s.fab ∧
        s.CountersBut [perPort pt .rxCrcFailL .rxCrcFailS, .trcDrop] t) := by
  subst hp
  intro bits n bytes
  have hex := exec_codewordDecode hu hj ht
  have honly := s.decoded_only j bits
  have hdec : (s.decoded j bits).decoder = s.decoder.erase j ∧ (s.decoded j bits).decFree = max j.ready s.decFree + 448 ∧
    (s.decoded j bits).ports = s.ports.put j.port { s.port j.port with bits := if j.last then [] else bits } := ⟨rfl, rfl, rfl⟩
  cases hl : j.last
  · rw [hl] at hex hdec
    exact ⟨_, hex, honly.mono (by simp), hdec.1, hdec.2.1, hdec.2.2, fun _ => ⟨rfl, rfl⟩, nofun, nofun⟩
  · obtain ⟨p1, p2, p3⟩ := (s.decoded j bits).packetDone_spec j bits
    have hfab : ∀ f, (s.decoded j bits).deliveredFab j.port f = s.deliveredFab j.port f := fun f =>
      State.deliveredFab_congr (honly.2 .fab (by decide)) (honly.2 .clock (by decide)) (honly.2 .mgmt (by decide)) _ _
    have hobs : (s.decoded j bits).obs = s.obs := honly.2 .obs (by decide)
    rw [hl] at hex hdec
    refine ⟨_, hex, (honly.mono (by simp)).trans (p1.mono (by simp)), (p1.2 .decoder (by decide)).trans hdec.1,
      (p1.2 .decFree (by decide)).trans hdec.2.1, (p1.2 .ports (by decide)).trans hdec.2.2, nofun, fun _ hg => ?_, fun _ hg => ?_⟩
    · exact ⟨(p2 hg).1.trans (hfab _), (p2 hg).2.of_obs hobs⟩
    · exact ⟨(p3 hg).1, (p3 hg).2.of_obs hobs⟩

end

/-- Settles O49: each step of a reception by the port that it leaves, whose next segment goes on the core. -/
theorem packetsAreReceived : Obligations.PacketsAreReceived := by
  intro s pt x busy books delivers
  have hbooks {t : State} {y : PortSt} (h : s.Booked pt t y) : books t y := by
    unfold State.Booked State.bookedEnd at h
    simp only [books]
    split
    · next r len hn =>
      rw [hn, Option.bind_some] at h
      split
      · next hr =>
        rw [if_pos hr] at h
        exact h
      · next hr =>
        rw [if_neg hr] at h
        exact h
    · next hn =>
      rw [hn] at h
      exact h
  refine ⟨fun d ho hr hs hd => ⟨fun y0 y1 ht h0 h1 => ?_, fun y hy ht h2 => ?_, fun h2 => ?_⟩, fun d y h ho hr hs hd hy ht hh hc => ?_,
    fun j hu hj hp ht => codewordDecode_spec hu hj hp ht⟩
  · obtain ⟨t, h1, h2, h3⟩ := modeDecision_spec ho hr hs hd ht h0 h1
    exact ⟨t, h1, h2, hbooks h3⟩
  · obtain ⟨t, h1, h2, h3⟩ := symbolDemod_header ho hr hs hd hy ht h2
    exact ⟨t, h1, h2, hbooks h3⟩
  · split
    · next hn => exact headerVerdict_false ho hr hs hd h2 hn
    · next f hf =>
      by_cases hl : f.len = 0
      · obtain ⟨t, h1, h⟩ := headerVerdict_delivered ho hr hs hd h2 hf hl
        exact ⟨t, h1, by rw [if_pos hl]; exact h⟩
      · obtain ⟨t, h1, g1, g2, g3⟩ := headerVerdict_payload ho hr hs hd h2 hf hl
        exact ⟨t, h1, by rw [if_neg hl]; exact ⟨g1, g2, hbooks g3⟩⟩
  · intro all full ramp drift move
    obtain ⟨t, h1, h2, h3, h4⟩ := symbolDemod_payload ho hr hs hd hy ht hh hc
    exact ⟨t, h1, h2, hbooks h3, h4⟩

end Sys2Proof.Machine
end



section
/-! PROOFS. Transmission, the noise floor and the idle line (09 R226, R229 to R234; 10 R242, R243, R245, R251, R252). -/

namespace Sys2Proof.Machine

open Sys2Proof

set_option Elab.async false

section
variable {s : State} {pt : Port} {j : TxJob}

/-! ## Transmit samples (09 R231, R233) -/

/-- Three times the amplitude in the units of the port's DAC. -/
def topOf (pt : Port) (amp : Nat) : Int := if pt = .loop then 60 * (amp : Int) else 3 * (amp : Int)

theorem State.lineFloor_loop (s : State) :
    s.lineFloor .loop = max (-512) (-((s.loop.shaped - 10 * (s.energy.drawUa : Int) - 1000) / 25)) := rfl

theorem State.clipOf_some (h : (s.port pt).tx.isSome = true) : s.clipOf pt =
    (max (-(topOf pt (s.port pt).amp)) (s.lineFloor pt),
      if pt = .loop then min (topOf pt (s.port pt).amp) 511 else topOf pt (s.port pt).amp) := by
  have hn : (s.port pt).tx.isNone = false := by
    cases ht : (s.port pt).tx with
    | none => rw [ht] at h; exact nomatch h
    | some j => rfl
  have hloop (n : Nat) : 3 * ((20 * n : Nat) : Int) = 60 * (n : Int) := by omega
  unfold State.clipOf PortSt.dacAmp topOf
  dsimp only
  rw [hn]
  cases pt with
  | loop =>
    dsimp only
    rw [hloop]
    rfl
  | spur => rfl

theorem clampI_mem {lo hi : Int} (h : lo ≤ hi) (v : Int) : lo ≤ clampI lo hi v ∧ clampI lo hi v ≤ hi := by
  unfold clampI
  split
  · exact ⟨Int.le_refl _, h⟩
  · split <;> omega

/-- The samples of a packet stay within its limits where no FSK is sent. -/
theorem State.dacOf_clipped (ht : (s.port pt).tx.isSome = true) (hc : (s.clipOf pt).1 ≤ (s.clipOf pt).2)
    (hf : pt = .spur ∨ s.fsk.sendEnd = none) {v : Int} (hv : v = (s.dacOf pt).1 ∨ v = (s.dacOf pt).2) :
    (s.clipOf pt).1 ≤ v ∧ v ≤ (s.clipOf pt).2 := by
  have hclip := State.clipOf_some ht
  unfold State.dacOf at hv
  dsimp only at hv
  rw [ht] at hv
  generalize hk : s.clipOf pt = k at hv hc hclip ⊢
  generalize (s.port pt).packetSample pt = f at hv
  generalize 2 * (s.now - (s.port pt).txStart) = d at hv
  have h1 := clampI_mem hc (f d)
  have h2 := clampI_mem hc (f (d + 1))
  simp only [if_true] at hv
  cases pt with
  | spur =>
    rcases hv with rfl | rfl
    · exact h1
    · exact h2
  | loop =>
    have hsend : s.fsk.sendEnd = none := hf.resolve_left nofun
    have hwave : s.fsk.wave s.now = (0, 0) := by
      unfold Fsk.wave
      rw [hsend]
      rfl
    rw [hwave] at hv
    simp only [true_or, if_true, Int.add_zero] at hv
    have hlo : s.lineFloor .loop ≤ k.1 := by rw [hclip]; exact Int.le_max_right _ _
    have hhi : k.2 ≤ 511 := by rw [hclip]; exact Int.min_le_right _ _
    rcases hv with rfl | rfl
    · omega
    · omega

/-- The loop port's samples stay within ten bits and above the least current. -/
theorem State.dacOf_loop (ht : (s.port .loop).tx.isSome = true) {v : Int} (hv : v = (s.dacOf .loop).1 ∨ v = (s.dacOf .loop).2) :
    (s.lineFloor .loop ≤ v ∨ v = 511) ∧ v ≤ 511 := by
  unfold State.dacOf at hv
  dsimp only at hv
  rw [ht] at hv
  simp only [true_or, if_true] at hv
  rcases hv with rfl | rfl
  · omega
  · omega

/-- A packet that may start has room for its samples (09 R231). -/
theorem State.clipOf_room (ht : (s.port pt).tx.isSome = true) (ha : (s.port pt).amp = s.txAmp pt) (hp : 0 < s.txAmp pt) :
    (s.clipOf pt).1 ≤ (s.clipOf pt).2 := by
  rw [State.clipOf_some ht]
  unfold topOf
  cases pt with
  | spur =>
    show max (-(3 * ((s.port .spur).amp : Int))) (-(3 * ((s.port .spur).amp : Int))) ≤ 3 * ((s.port .spur).amp : Int)
    omega
  | loop =>
    have hsteps : 0 < s.txSteps := hp
    have hfree : 1500 ≤ s.loop.shaped - 10 * (s.energy.drawUa : Int) - 1000 := by
      unfold State.txSteps floorDiv at hsteps
      dsimp only at hsteps
      by_cases hf : s.mgmt.inForce.fskEn = true
      · rw [hf] at hsteps
        simp only [if_true] at hsteps
        omega
      · rw [if_neg hf] at hsteps
        omega
    rw [ha, State.lineFloor_loop]
    show max (-(60 * ((s.txAmp .loop : Nat) : Int))) (max (-512) _) ≤ min (60 * ((s.txAmp .loop : Nat) : Int)) 511
    omega

/-! ## The start of a packet -/

/-- The port after its transmit samples. -/
def State.driven (s : State) (pt : Port) : PortSt :=
  { s.port pt with clipLo := (s.clipOf pt).1, clipHi := (s.clipOf pt).2, dac := s.dacOf pt }

theorem State.drivePort_eq (s : State) (pt : Port) : s.drivePort pt = s.setPort pt (s.driven pt) := rfl

/-- The state whose port has abandoned what it was receiving (09 R226). -/
def State.freedRx (s : State) (pt : Port) : State :=
  if (s.port pt).rx.holds then (s.discardPacket pt).count (perPort pt .rxAbandonL .rxAbandonS) else s

/-- The port with a packet under way. -/
def State.sending (s : State) (pt : Port) (j : TxJob) : PortSt := { s.port pt with
  rx := .muted, tx := some j, txSyms := packetSymbols j.frame, txStart := s.now
  txEnd := s.now + airtime j.frame.mode j.frame.payload.length, amp := s.txAmp pt }

theorem State.startPacket_eq (s : State) (pt : Port) (j : TxJob) : ∃ o, s.startPacket pt j =
    (((s.freedRx pt).setPort pt ((s.freedRx pt).setPort pt ((s.freedRx pt).sending pt j) |>.driven pt)).setFab { s.fab with
      pubSeq := if j.rank = 3 then s.fab.pubSeq + 1 else s.fab.pubSeq }).setObs o ∧ (s.freedRx pt).OnlyTrace ((s.freedRx pt).setObs o) := by
  have hfab : (s.freedRx pt).fab = s.fab := by
    unfold State.freedRx
    split <;> rfl
  obtain ⟨o, ho, htr⟩ := (((s.freedRx pt).setPort pt ((s.freedRx pt).setPort pt ((s.freedRx pt).sending pt j) |>.driven pt)).setFab { s.fab with
      pubSeq := if j.rank = 3 then s.fab.pubSeq + 1 else s.fab.pubSeq }).emitModem_eq pt 7 (headerWord j.frame)
  refine ⟨o, ?_, htr⟩
  rw [← ho]
  have hstart : s.startPacket pt j = (if j.rank = 3 then
      (((s.freedRx pt).setPort pt ((s.freedRx pt).sending pt j)).drivePort pt).setFab { (s.freedRx pt).fab with pubSeq := (s.freedRx pt).fab.pubSeq + 1 }
      else ((s.freedRx pt).setPort pt ((s.freedRx pt).sending pt j)).drivePort pt).emitModem pt 7 (headerWord j.frame) := rfl
  rw [hstart, State.drivePort_eq, State.setPort_setPort, hfab]
  split
  · rfl
  · have hsame (u : State) (h : u.fab = s.fab) : u.setFab { s.fab with pubSeq := s.fab.pubSeq } = u := by rw [← h]; rfl
    rw [hsame ((s.freedRx pt).setPort pt _) hfab]

theorem State.freedRx_spec (s : State) (pt : Port) : s.Only [.ports, .decoder, .obs] (s.freedRx pt) ∧
    s.CountersBut [perPort pt .rxAbandonL .rxAbandonS] (s.freedRx pt) ∧
    (s.freedRx pt).decoder.filter (fun j => j.port ≠ pt) = s.decoder.filter (fun j => j.port ≠ pt) ∧
    (∀ y, ((s.freedRx pt).setPort pt y).ports = s.ports.put pt y) ∧ ((s.port pt).rx.holds = false → s.freedRx pt = s) ∧
    ((s.port pt).rx.holds = true → ((s.freedRx pt).port pt).hdr = none ∧ ((s.freedRx pt).port pt).llrs = [] ∧
      ((s.freedRx pt).port pt).taps = [] ∧ ((s.freedRx pt).port pt).seg = none ∧
      (s.freedRx pt).obs = s.obs.count (perPort pt .rxAbandonL .rxAbandonS) 1) ∧
    ((s.freedRx pt).port pt).txReq = (s.port pt).txReq := by
  cases hh : (s.port pt).rx.holds
  · have hs : s.freedRx pt = s := by
      unfold State.freedRx
      rw [hh]
      rfl
    rw [hs]
    exact ⟨.refl _ s, .refl _ s, rfl, fun _ => rfl, fun _ => rfl, nofun, rfl⟩
  · have hs : s.freedRx pt = (s.discardPacket pt).count (perPort pt .rxAbandonL .rxAbandonS) := by
      unfold State.freedRx
      rw [hh]
      rfl
    have hp : (s.freedRx pt).port pt = { s.discarded pt with rx := ((s.discarded pt).settle s.now).rx } := by
      rw [hs]
      exact (s.discardPacket_port pt).trans (PortSt.settle_rx _ _)
    rw [hp, hs]
    refine ⟨((s.discardPacket_only pt).mono (by simp)).trans ((State.setObs_only _ _).mono (by simp)),
      (State.countN_counters (s.discardPacket pt) _ 1).of_obs rfl, keepWhole_others pt s.decoder, fun y => ?_, nofun,
      fun _ => ⟨rfl, rfl, rfl, rfl, rfl⟩, rfl⟩
    exact Pair.put_put s.ports pt (s.discarded pt) y

/-- The state whose port has a packet under way, before its first samples. -/
def State.begun (s : State) (pt : Port) (j : TxJob) : State := (s.freedRx pt).setPort pt ((s.freedRx pt).sending pt j)

theorem State.freedRx_txAmp (s : State) (pt : Port) : (s.freedRx pt).txAmp pt = s.txAmp pt := by
  obtain ⟨f1, -⟩ := s.freedRx_spec pt
  unfold State.txAmp State.txSteps
  rw [f1.2 .mgmt (by decide), f1.2 .loop (by decide), f1.2 .energy (by decide)]

theorem State.begun_port (s : State) (pt : Port) (j : TxJob) : (s.begun pt j).port pt = { (s.freedRx pt).port pt with
    rx := .muted, tx := some j, txSyms := packetSymbols j.frame, txStart := s.now
    txEnd := s.now + airtime j.frame.mode j.frame.payload.length, amp := s.txAmp pt } := by
  have hnow : (s.freedRx pt).now = s.now := congrArg Clock.tick ((s.freedRx_spec pt).1.2 .clock (by decide))
  refine ((s.freedRx pt).port_setPort pt _).trans ((PortSt.settle_of (show RxState.muted ≠ .payload from nofun) _).trans ?_)
  unfold State.sending
  rw [s.freedRx_txAmp, hnow]

theorem State.started_port (s : State) (pt : Port) (j : TxJob) : (s.startPacket pt j).port pt = (s.begun pt j).driven pt := by
  obtain ⟨o, ho, -⟩ := s.startPacket_eq pt j
  rw [ho]
  refine ((s.freedRx pt).port_setPort pt _).trans (PortSt.settle_of ?_ _)
  show ((s.begun pt j).port pt).rx ≠ .payload
  rw [s.begun_port]
  exact (show RxState.muted ≠ .payload from nofun)

/-- A packet starts: what its port takes, and what was being received goes (09 R226, R231). -/
theorem State.startPacket_spec (s : State) (pt : Port) (j : TxJob) :
    let t := s.startPacket pt j
    s.Only [.ports, .decoder, .fab, .obs] t ∧ s.CountersBut [perPort pt .rxAbandonL .rxAbandonS, .trcDrop] t ∧
    t.fab = { s.fab with pubSeq := if j.rank = 3 then s.fab.pubSeq + 1 else s.fab.pubSeq } ∧
    t.decoder.filter (fun j => j.port ≠ pt) = s.decoder.filter (fun j => j.port ≠ pt) ∧
    t.ports = s.ports.put pt ((s.begun pt j).driven pt) ∧
    ((s.port pt).rx.holds = false → s.OnlyTrace t ∧ t.decoder = s.decoder) ∧
    ((s.port pt).rx.holds = true → t.obs.live.getD (perPort pt .rxAbandonL .rxAbandonS).idx 0 =
      min (s.obs.live.getD (perPort pt .rxAbandonL .rxAbandonS).idx 0 + 1) 0xFFFFFFFF) := by
  intro t
  obtain ⟨o, ho, htr⟩ := s.startPacket_eq pt j
  obtain ⟨f1, f2, f3, f4, f5, f6, -⟩ := s.freedRx_spec pt
  have ht : t = _ := ho
  rw [show ((s.freedRx pt).setPort pt ((s.freedRx pt).sending pt j)).driven pt = (s.begun pt j).driven pt from rfl] at ht
  clear_value t
  have hputs := f4 ((s.begun pt j).driven pt)
  generalize (s.begun pt j).driven pt = z at ht hputs ⊢
  have hfree : (s.port pt).rx.holds = false → s.OnlyTrace ((s.freedRx pt).setObs o) ∧ (s.freedRx pt).decoder = s.decoder := fun hh => by
    rw [f5 hh] at htr ⊢
    exact ⟨htr, rfl⟩
  have hcount : (s.port pt).rx.holds = true → (s.freedRx pt).obs = s.obs.count (perPort pt .rxAbandonL .rxAbandonS) 1 := fun hh =>
    (f6 hh).2.2.2.2
  generalize s.freedRx pt = r at ht htr f1 f2 f3 hputs hfree hcount
  subst ht
  refine ⟨(((f1.mono (by simp)).trans ((State.setPort_only _ _ _).mono (by simp))).trans ((State.setFab_only _ _).mono (by simp))).trans
    ((State.setObs_only _ _).mono (by simp)), (f2.mono (by simp)).trans (htr.mono (by simp)), rfl, f3, hputs, hfree, fun hh => ?_⟩
  refine (htr.2 _ (by cases pt <;> decide)).trans ?_
  rw [hcount hh]
  exact Obs.count_self ..

/-- The samples of a packet that starts stay within its limits (09 R231, R233). -/
theorem State.started_samples (s : State) (pt : Port) (j : TxJob) (hp : 0 < s.txAmp pt) :
    let z := (s.begun pt j).driven pt
    z.clipLo = max (-(topOf pt (s.txAmp pt))) (if pt = .loop then s.lineFloor .loop else -(topOf pt (s.txAmp pt))) ∧
    z.clipHi = (if pt = .loop then min (topOf pt (s.txAmp pt)) 511 else topOf pt (s.txAmp pt)) ∧
    (pt = .spur ∨ s.fsk.sendEnd = none → ∀ v, v = z.dac.1 ∨ v = z.dac.2 → z.clipLo ≤ v ∧ v ≤ z.clipHi) ∧
    (pt = .loop → ∀ v, v = z.dac.1 ∨ v = z.dac.2 → (s.lineFloor .loop ≤ v ∨ v = 511) ∧ v ≤ 511) := by
  intro z
  have hport := s.begun_port pt j
  obtain ⟨f1, -⟩ := s.freedRx_spec pt
  have hfsk : (s.begun pt j).fsk = s.fsk := f1.2 .fsk (by decide)
  have hloop : (s.begun pt j).loop = s.loop := f1.2 .loop (by decide)
  have hen : (s.begun pt j).energy = s.energy := f1.2 .energy (by decide)
  have hmg : (s.begun pt j).mgmt = s.mgmt := f1.2 .mgmt (by decide)
  have hz : z.clipLo = ((s.begun pt j).clipOf pt).1 ∧ z.clipHi = ((s.begun pt j).clipOf pt).2 ∧ z.dac = (s.begun pt j).dacOf pt := ⟨rfl, rfl, rfl⟩
  clear_value z
  generalize s.begun pt j = u at *
  have htx : (u.port pt).tx.isSome = true := by rw [hport]; rfl
  have hamp : (u.port pt).amp = s.txAmp pt := by rw [hport]
  have hua : u.txAmp pt = s.txAmp pt := by
    unfold State.txAmp State.txSteps
    rw [hloop, hen, hmg]
  have hfloor : u.lineFloor .loop = s.lineFloor .loop := by rw [State.lineFloor_loop, State.lineFloor_loop, hloop, hen]
  have hclip := State.clipOf_some htx
  have hroom := State.clipOf_room htx (hamp.trans hua.symm) (by rw [hua]; exact hp)
  have hlow : u.lineFloor pt = if pt = .loop then s.lineFloor .loop else -(topOf pt (s.txAmp pt)) := by
    cases pt with
    | loop => exact hfloor
    | spur =>
      show -(3 * ((u.port .spur).amp : Int)) = _
      rw [hamp]
      rfl
  rw [hamp, hlow] at hclip
  obtain ⟨z1, z2, z3⟩ := hz
  rw [z1, z2, z3]
  refine ⟨congrArg Prod.fst hclip, congrArg Prod.snd hclip, fun hq v hv => State.dacOf_clipped htx hroom (by rw [hfsk]; exact hq) hv, fun hl v hv => ?_⟩
  subst hl
  rw [← hfloor]
  exact State.dacOf_loop htx hv

/-- The state whose port has no request waiting. -/
def State.emptied (s : State) (pt : Port) : State := s.setPort pt { s.port pt with txReq := [] }

theorem State.emptied_port (s : State) (pt : Port) : (s.emptied pt).port pt = { s.port pt with txReq := [] } :=
  (s.port_setPort pt _).trans (PortSt.settle_congr (s.port_settle pt) rfl rfl rfl)

theorem exec_packetTransmitStart (ho : s.portOn pt = true) (hq : (s.port pt).txReq = [j]) (ha : j.at_ ≤ s.now) :
    exec (.packetTransmitStart pt) s = .next (if s.muteReq j then (s.emptied pt).silenced j
      else if (s.port pt).tx.isSome || s.txHeld pt then (s.emptied pt).meetBusy pt j
      else if s.txAmp pt = 0 then ((s.emptied pt).count .txLowcur).meetBusy pt j
      else (s.emptied pt).startPacket pt j) := by
  have h1 : ([j].filter fun j => decide (j.at_ ≤ s.now)) = [j] := by rw [List.filter_singleton, decide_eq_true ha]; rfl
  have h2 : ([j].filter fun j => decide (s.now < j.at_)) = [] := by rw [List.filter_singleton, decide_eq_false (Nat.not_lt.2 ha)]; rfl
  have he : s.setPort pt { s.port pt with txReq := [] } = s.emptied pt := rfl
  show execPacketTransmitStart pt s = _
  unfold execPacketTransmitStart
  dsimp only
  rw [hq, h1, h2, he, List.filter_singleton, List.filter_singleton]
  generalize s.emptied pt = u
  cases s.muteReq j
  · show (stepIf (s.portOn pt) s _) = _
    refine (stepIf_of ho).trans (congrArg Host.Outcome.next ?_)
    have her : [j].erase j = [] := by simp
    split
    · rfl
    · split
      · rfl
      · show (u.startPacket pt j).meetBusies pt ([j].erase j) = _
        rw [her]
        rfl
  · exact stepIf_of ho

/-- What a request that meets a busy port leaves (10 Table 10-4). -/
theorem State.meetBusy_spec (s : State) (pt : Port) (j : TxJob) : let x := s.port pt
    s.Only [.ports, .fab, .obs] (s.meetBusy pt j) ∧ s.CountersBut [.bcnLate, .pubSkip] (s.meetBusy pt j) ∧
    (s.meetBusy pt j).ports = (if j.rank = 4 then s.ports.put pt { x with
      txReq := { j with at_ := (if x.tx.isSome then x.txEnd else s.now) + 1125 } :: x.txReq } else s.ports) ∧
    (s.meetBusy pt j).fab = if j.rank = 3 then j.buf.elim s.fab fun b => { s.fab with pubQueue := (b, 0) :: s.fab.pubQueue }
      else if j.rank = 1 ∨ j.rank = 2 ∨ j.rank = 4 then s.fab
      else { s.fab with fwd := s.fab.fwd.put pt (⟨j.frame, 0⟩ :: s.fab.fwd.at pt) } := by
  intro x
  unfold State.meetBusy
  by_cases h1 : j.rank = 1
  · rw [if_pos h1, h1]
    exact ⟨(State.setObs_only _ _).mono (by simp), (s.countN_counters .bcnLate 1).mono (by simp), rfl, rfl⟩
  by_cases h2 : j.rank = 2
  · rw [if_neg h1, if_pos h2, h2]
    exact ⟨(State.Only.refl [] s).mono (by simp), .refl _ s, rfl, rfl⟩
  by_cases h3 : j.rank = 3
  · rw [if_neg h1, if_neg h2, if_pos h3, h3]
    have hskip : s.Only [.ports, .fab, .obs] (s.count .pubSkip) ∧ s.CountersBut [.bcnLate, .pubSkip] (s.count .pubSkip) :=
      ⟨(State.setObs_only _ _).mono (by simp), (s.countN_counters .pubSkip 1).mono (by simp)⟩
    cases j.buf with
    | none => exact ⟨hskip.1, hskip.2, rfl, rfl⟩
    | some b => exact ⟨hskip.1.trans ((State.setFab_only _ _).mono (by simp)), hskip.2, rfl, rfl⟩
  by_cases h4 : j.rank = 4
  · rw [if_neg h1, if_neg h2, if_neg h3, if_pos h4, h4]
    exact ⟨(State.setPort_only _ _ _).mono (by simp), .refl _ s, rfl, rfl⟩
  · rw [if_neg h1, if_neg h2, if_neg h3, if_neg h4, if_neg h4, if_neg h3, if_neg (by rintro (h | h | h) <;> contradiction)]
    exact ⟨(State.setFab_only _ _).mono (by simp), .refl _ s, rfl, rfl⟩

theorem State.silenced_eq (s : State) (j : TxJob) : s.silenced j =
    if j.rank = 3 then s.setFab (j.buf.elim s.fab fun b => { s.fab with pubQueue := (b, 0) :: s.fab.pubQueue }) else s := by
  unfold State.silenced
  split
  · next b h3 hb => rw [h3, hb]; rfl
  · next h =>
    by_cases h3 : j.rank = 3
    · rw [if_pos h3]
      cases hb : j.buf with
      | none => rfl
      | some b => exact absurd hb (h b h3)
    · exact (if_neg h3).symm

/-! ## The end of a packet (10 R245, 09 Table 9-8) -/

/-- A port after its packet's last sample. -/
def State.ended (s : State) (pt : Port) : PortSt :=
  { s.port pt with tx := none, txSyms := [], amp := 0, lastTx := (s.port pt).txEnd }

theorem State.ended_driven (s : State) (pt : Port) : let u := s.setPort pt (s.ended pt)
    u.driven pt = { s.port pt with
      tx := none, txSyms := [], amp := 0, clipLo := 0, clipHi := 0, lastTx := (s.port pt).txEnd, dac := u.dacOf pt } ∧
    (pt = .spur ∨ s.fsk.sendEnd = none → u.dacOf pt = (0, 0)) := by
  intro u
  have hp : u.port pt = s.ended pt := (s.port_setPort pt _).trans (PortSt.settle_congr (s.port_settle pt) rfl rfl rfl)
  have hclip : u.clipOf pt = (0, 0) := by
    unfold State.clipOf
    rw [hp]
    rfl
  refine ⟨?_, fun hq => ?_⟩
  · unfold State.driven
    rw [hclip, hp]
    rfl
  · unfold State.dacOf
    rw [hp]
    cases pt with
    | spur => rfl
    | loop =>
      have hs : u.fsk.sendEnd = none := hq.resolve_left nofun
      dsimp only
      rw [hs]
      rfl

/-- A session that no longer holds a buffer. -/
def Fabric.released (f : Fabric) (j : TxJob) : Fabric := j.ses.elim f fun n =>
  if (f.sess n).buf = j.buf then f.setSess n { f.sess n with buf := none } else f

theorem Fabric.released_frame (f : Fabric) (j : TxJob) : f.released j = { f with sessions := (f.released j).sessions } := by
  unfold Fabric.released
  cases j.ses with
  | none => rfl
  | some n =>
    dsimp only [Option.elim]
    split <;> rfl

/-- The window after the buffer of a packet has been freed. -/
def Window.freedBuf (w : Window) (j : TxJob) : Window := j.buf.elim w fun b =>
  if (w.ownAt b).own = .device then w.setOwner b .free 0x20 else w

theorem exec_packetTransmitEnd (hu : s.loopUp = true) (ht : (s.port pt).tx = some j) (he : (s.port pt).txEnd ≤ s.now) :
    exec (.packetTransmitEnd pt) s = .next (((((s.setPort pt (s.ended pt)).drivePort pt).count (perPort pt .txPktL .txPktS)).setWin
      (s.win.freedBuf j)).setFab (s.fab.released j)) := by
  have hw (u : State) (hu : u.win = s.win) : (match j.buf with
      | some b => u.freeBuf b
      | none => u) = u.setWin (s.win.freedBuf j) := by
    rw [← hu]
    unfold Window.freedBuf State.freeBuf
    cases j.buf with
    | none => rfl
    | some b =>
      dsimp only [Option.elim]
      split <;> rfl
  have hf (u : State) (hu : u.fab = s.fab) : (match j.ses with
      | some n => if (u.fab.sess n).buf = j.buf then u.setFab (u.fab.setSess n { u.fab.sess n with buf := none }) else u
      | none => u) = u.setFab (s.fab.released j) := by
    rw [← hu]
    unfold Fabric.released
    cases j.ses with
    | none => rfl
    | some n =>
      dsimp only [Option.elim]
      split <;> rfl
  have hd := s.ended_driven pt
  show execPacketTransmitEnd pt s = _
  unfold execPacketTransmitEnd
  dsimp only
  rw [ht]
  refine (stepIf_of (by rw [hu, decide_eq_true he]; rfl)).trans (congrArg Host.Outcome.next ?_)
  refine (hf _ ?_).trans (congrArg (fun u => State.setFab u (s.fab.released j)) (hw _ rfl))
  exact (congrArg State.fab (hw (((s.setPort pt (s.ended pt)).drivePort pt).count (perPort pt .txPktL .txPktS)) rfl)).trans rfl

theorem Window.freedBuf_spec (w : Window) (j : TxJob) : w.freedBuf j = { w with own := (w.freedBuf j).own } ∧ (j.buf = none → w.freedBuf j = w) ∧
    (∀ b, j.buf = some b → b < 64 → (w.ownAt b).own = .device → (w.freedBuf j).ownAt b = ⟨.free, (w.ownAt b).gen + 1, 0x20⟩) ∧
    ∀ n, j.buf ≠ some n → (w.freedBuf j).ownAt n = w.ownAt n := by
  unfold Window.freedBuf
  cases hb : j.buf with
  | none => exact ⟨rfl, fun _ => rfl, nofun, fun _ _ => rfl⟩
  | some b =>
    dsimp only [Option.elim]
    refine ⟨by split <;> rfl, nofun, fun c hc hlt ho => ?_, fun n hn => ?_⟩
    · obtain rfl := Option.some.inj hc
      rw [if_pos ho]
      exact Window.setOwner_self _ _ _ hlt
    · split
      · exact Window.setOwner_other _ _ _ fun h => hn (congrArg some h.symm)
      · rfl

theorem packetTransmitEnd_spec (hu : s.loopUp = true) (ht : (s.port pt).tx = some j) (he : (s.port pt).txEnd ≤ s.now) :
    ∃ t, exec (.packetTransmitEnd pt) s = .next t ∧ s.Only [.ports, .win, .fab, .obs] t ∧ s.CountersBut [perPort pt .txPktL .txPktS] t ∧
      t.ports = s.ports.put pt { s.port pt with
        tx := none, txSyms := [], amp := 0, clipLo := 0, clipHi := 0, lastTx := (s.port pt).txEnd, dac := (t.port pt).dac } ∧
      (pt = .spur ∨ s.fsk.sendEnd = none → (t.port pt).dac = (0, 0)) ∧ t.win = s.win.freedBuf j ∧ t.fab = s.fab.released j := by
  have hex := exec_packetTransmitEnd hu ht he
  obtain ⟨hd, hdac⟩ := s.ended_driven pt
  rw [State.drivePort_eq, s.setPort_setPort, hd] at hex
  generalize (s.setPort pt (s.ended pt)).dacOf pt = dac at hex hdac
  generalize hy : ({ s.port pt with
    tx := none, txSyms := [], amp := 0, clipLo := 0, clipHi := 0, lastTx := (s.port pt).txEnd, dac := dac } : PortSt) = y at hex
  have hport : (s.setPort pt y).port pt = y :=
    (s.port_setPort pt y).trans (PortSt.settle_congr (s.port_settle pt) (hy ▸ rfl) (hy ▸ rfl) (hy ▸ rfl))
  have hyd : y.dac = dac := hy ▸ rfl
  refine ⟨_, hex, ?_, State.countN_counters (s.setPort pt y) _ 1, ?_, fun hq => ?_, rfl, rfl⟩
  · exact (((s.setPort_only pt y).mono (by simp)).trans ((State.setObs_only _ _).mono (by simp))).trans
      (((State.setWin_only _ _).mono (by simp)).trans ((State.setFab_only _ _).mono (by simp)))
  · show s.ports.put pt y = s.ports.put pt { s.port pt with
        tx := none, txSyms := [], amp := 0, clipLo := 0, clipHi := 0, lastTx := (s.port pt).txEnd, dac := ((s.setPort pt y).port pt).dac }
    rw [hport, hyd, hy]
  · show ((s.setPort pt y).port pt).dac = _
    rw [hport, hyd]
    exact hdac hq

/-! ## A request that a port takes -/

theorem State.emptied_only (s : State) (pt : Port) : s.Only [.ports] (s.emptied pt) := s.setPort_only _ _

theorem State.emptied_amp (s : State) (pt : Port) : (s.emptied pt).txAmp pt = s.txAmp pt := by cases pt <;> rfl

/-- The port of a packet that starts, but for its samples. -/
theorem State.transmit_port (s : State) (pt : Port) (j : TxJob) : let z := ((s.emptied pt).startPacket pt j).port pt
    z.txReq = [] ∧ z.rx = .muted ∧ z.tx = some j ∧ z.txSyms = packetSymbols j.frame ∧ z.txStart = s.now ∧
    z.txEnd = s.now + airtime j.frame.mode j.frame.payload.length ∧ z.amp = s.txAmp pt ∧
    ((s.port pt).rx.holds = false → z = { s.port pt with
      txReq := [], rx := .muted, tx := some j, txSyms := z.txSyms, txStart := z.txStart, txEnd := z.txEnd, amp := z.amp
      clipLo := z.clipLo, clipHi := z.clipHi, dac := z.dac }) ∧
    ((s.port pt).rx.holds = true → z.hdr = none ∧ z.llrs = [] ∧ z.taps = [] ∧ z.seg = none) := by
  intro z
  obtain ⟨-, -, -, -, f5, f6, f7⟩ := (s.emptied pt).freedRx_spec pt
  have hz : z = ((s.emptied pt).begun pt j).driven pt := (s.emptied pt).started_port pt j
  have hb := (s.emptied pt).begun_port pt j
  rw [s.emptied_amp] at hb
  rw [s.emptied_port] at f5 f6 f7
  have hdr : z = { ((s.emptied pt).begun pt j).port pt with clipLo := z.clipLo, clipHi := z.clipHi, dac := z.dac } := by rw [hz]; rfl
  have hfree : (s.port pt).rx.holds = false → ((s.emptied pt).freedRx pt).port pt = { s.port pt with txReq := [] } := fun hh => by
    rw [f5 hh, s.emptied_port]
  have hheld : (s.port pt).rx.holds = true → (((s.emptied pt).freedRx pt).port pt).hdr = none ∧ (((s.emptied pt).freedRx pt).port pt).llrs = [] ∧
      (((s.emptied pt).freedRx pt).port pt).taps = [] ∧ (((s.emptied pt).freedRx pt).port pt).seg = none := fun hh => by
    obtain ⟨a1, a2, a3, a4, -⟩ := f6 hh
    exact ⟨a1, a2, a3, a4⟩
  rw [hb] at hdr
  generalize ((s.emptied pt).freedRx pt).port pt = y at hdr f7 hfree hheld
  have hnow : (s.emptied pt).now = s.now := rfl
  rw [hnow] at hdr
  clear_value z
  refine ⟨by rw [hdr]; exact f7, by rw [hdr], by rw [hdr], by rw [hdr], by rw [hdr], by rw [hdr], by rw [hdr], fun hh => ?_, fun hh => ?_⟩
  · rw [hfree hh] at hdr
    rw [hdr]
  · rw [hdr]
    exact hheld hh

theorem State.transmit_spec (s : State) (pt : Port) (j : TxJob) : let t := (s.emptied pt).startPacket pt j
    s.Only [.ports, .decoder, .fab, .obs] t ∧ s.CountersBut [perPort pt .rxAbandonL .rxAbandonS, .trcDrop] t ∧
    t.fab = { s.fab with pubSeq := if j.rank = 3 then s.fab.pubSeq + 1 else s.fab.pubSeq } ∧
    t.decoder.filter (fun j => j.port ≠ pt) = s.decoder.filter (fun j => j.port ≠ pt) ∧ t.ports = s.ports.put pt (t.port pt) ∧
    ((s.port pt).rx.holds = false → s.OnlyTrace t ∧ t.decoder = s.decoder) ∧
    ((s.port pt).rx.holds = true → t.obs.live.getD (perPort pt .rxAbandonL .rxAbandonS).idx 0 =
      min (s.obs.live.getD (perPort pt .rxAbandonL .rxAbandonS).idx 0 + 1) 0xFFFFFFFF) := by
  intro t
  obtain ⟨h1, h2, h3, h4, h5, h6, h7⟩ := (s.emptied pt).startPacket_spec pt j
  rw [s.emptied_port] at h6 h7
  rw [← (s.emptied pt).started_port pt j] at h5
  exact ⟨((s.emptied_only pt).mono (by simp)).trans h1, h2, h3, h4, h5.trans (Pair.put_put s.ports pt _ _), h6, h7⟩

theorem State.transmit_samples (s : State) (pt : Port) (j : TxJob) (hp : 0 < s.txAmp pt) :
    let z := ((s.emptied pt).startPacket pt j).port pt
    z.clipLo = max (-(topOf pt (s.txAmp pt))) (if pt = .loop then s.lineFloor .loop else -(topOf pt (s.txAmp pt))) ∧
    z.clipHi = (if pt = .loop then min (topOf pt (s.txAmp pt)) 511 else topOf pt (s.txAmp pt)) ∧
    (pt = .spur ∨ s.fsk.sendEnd = none → ∀ v, v = z.dac.1 ∨ v = z.dac.2 → z.clipLo ≤ v ∧ v ≤ z.clipHi) ∧
    (pt = .loop → ∀ v, v = z.dac.1 ∨ v = z.dac.2 → (s.lineFloor .loop ≤ v ∨ v = 511) ∧ v ≤ 511) := by
  intro z
  have h := (s.emptied pt).started_samples pt j (by rw [s.emptied_amp]; exact hp)
  rw [← (s.emptied pt).started_port pt j, s.emptied_amp] at h
  exact h

/-- A request that meets a busy port, COMPLY or no current (10 Table 10-4). -/
theorem State.refused_spec (s : State) (pt : Port) (j : TxJob) : ∃ t,
    (if (s.port pt).tx.isSome || s.txHeld pt then (s.emptied pt).meetBusy pt j
      else ((s.emptied pt).count .txLowcur).meetBusy pt j) = t ∧ s.Only [.ports, .fab, .obs] t ∧
    s.CountersBut ([.bcnLate, .pubSkip] ++ if (s.port pt).tx = none ∧ s.txHeld pt = false then [.txLowcur] else []) t ∧
    t.ports = s.ports.put pt { s.port pt with txReq := if j.rank = 4 then
      [{ j with at_ := (if (s.port pt).tx.isSome then (s.port pt).txEnd else s.now) + 1125 }] else [] } ∧
    t.fab = if j.rank = 3 then j.buf.elim s.fab fun b => { s.fab with pubQueue := (b, 0) :: s.fab.pubQueue }
      else if j.rank = 1 ∨ j.rank = 2 ∨ j.rank = 4 then s.fab
      else { s.fab with fwd := s.fab.fwd.put pt (⟨j.frame, 0⟩ :: s.fab.fwd.at pt) } := by
  have hmeet (u : State) (hu : s.Only [.ports, .obs] u) (hp : u.ports = (s.emptied pt).ports) : s.Only [.ports, .fab, .obs] (u.meetBusy pt j) ∧
      (u.meetBusy pt j).ports = s.ports.put pt { s.port pt with txReq := if j.rank = 4 then
        [{ j with at_ := (if (s.port pt).tx.isSome then (s.port pt).txEnd else s.now) + 1125 }] else [] } ∧
      (u.meetBusy pt j).fab = if j.rank = 3 then j.buf.elim s.fab fun b => { s.fab with pubQueue := (b, 0) :: s.fab.pubQueue }
        else if j.rank = 1 ∨ j.rank = 2 ∨ j.rank = 4 then s.fab
        else { s.fab with fwd := s.fab.fwd.put pt (⟨j.frame, 0⟩ :: s.fab.fwd.at pt) } := by
    obtain ⟨m1, -, m3, m4⟩ := u.meetBusy_spec pt j
    have hport : u.port pt = { s.port pt with txReq := [] } := by
      rw [← s.emptied_port]
      exact State.port_congr hp (hu.2 .clock (by decide))
    have hnow : u.now = s.now := congrArg Clock.tick (hu.2 .clock (by decide))
    have hfab : u.fab = s.fab := hu.2 .fab (by decide)
    rw [hport, hnow, hp] at m3
    rw [hfab] at m4
    refine ⟨(hu.mono (by simp)).trans m1, m3.trans ?_, m4⟩
    split
    · exact Pair.put_put s.ports pt _ _
    · rfl
  have hempty := s.emptied_only pt
  refine ⟨_, rfl, ?_⟩
  by_cases hb : ((s.port pt).tx.isSome || s.txHeld pt) = true
  · rw [if_pos hb]
    obtain ⟨m1, m2, m3⟩ := hmeet (s.emptied pt) (hempty.mono (by simp)) rfl
    exact ⟨m1, ((s.emptied pt).meetBusy_spec pt j).2.1.mono (by simp), m2, m3⟩
  · rw [if_neg hb]
    obtain ⟨m1, m2, m3⟩ := hmeet ((s.emptied pt).count .txLowcur)
      ((hempty.mono (by simp)).trans ((State.setObs_only _ _).mono (by simp))) rfl
    have hfree : (s.port pt).tx = none ∧ s.txHeld pt = false := by
      cases htx : (s.port pt).tx with
      | none => exact ⟨rfl, Bool.eq_false_of_not_eq_true fun hh => hb (by rw [hh, Bool.or_true])⟩
      | some k => exact absurd (by rw [htx]; rfl) hb
    rw [if_pos hfree]
    exact ⟨m1, ((State.countN_counters (s.emptied pt) .txLowcur 1).mono (by simp)).trans
      ((((s.emptied pt).count .txLowcur).meetBusy_spec pt j).2.1.mono (by simp)), m2, m3⟩

end

/-! ## Fields that a line token brings (01 R23, 09 R234) -/

section

/-- Entries in the order of their keys. -/
def Sorted (l : List (Nat × Int)) : Prop := l.Pairwise fun x y => x.1 < y.1

theorem mem_assocPut {l : List (Nat × Int)} {k : Nat} {v : Int} {e : Nat × Int} (h : e ∈ assocPut l k v) : e = (k, v) ∨ e ∈ l := by
  induction l with
  | nil => exact .inl (List.mem_singleton.1 h)
  | cons x l ih =>
    obtain ⟨a, w⟩ := x
    unfold assocPut at h
    split at h
    · exact (List.mem_cons.1 h)
    · split at h
      · exact (List.mem_cons.1 h).imp id (List.mem_cons_of_mem _)
      · rcases List.mem_cons.1 h with rfl | h
        · exact .inr List.mem_cons_self
        · exact (ih h).imp id (List.mem_cons_of_mem _)

theorem Sorted.put {l : List (Nat × Int)} (h : Sorted l) (k : Nat) (v : Int) : Sorted (assocPut l k v) := by
  induction l with
  | nil => exact List.pairwise_singleton _ _
  | cons x l ih =>
    obtain ⟨a, w⟩ := x
    obtain ⟨h1, h2⟩ := List.pairwise_cons.1 h
    unfold assocPut
    split
    · next hlt =>
      refine List.pairwise_cons.2 ⟨fun e he => ?_, h⟩
      rcases List.mem_cons.1 he with rfl | he
      · exact hlt
      · exact Nat.lt_trans hlt (h1 e he)
    · split
      · next hk => exact List.pairwise_cons.2 ⟨fun e he => by have := h1 e he; exact hk ▸ this, h2⟩
      · refine List.pairwise_cons.2 ⟨fun e he => ?_, ih h2⟩
        rcases mem_assocPut he with rfl | he
        · show a < k
          omega
        · exact h1 e he

theorem assocPut_cons (a : Nat) (w : Int) (l : List (Nat × Int)) (k : Nat) (v : Int) : assocPut ((a, w) :: l) k v =
    if k < a then (k, v) :: (a, w) :: l else if k = a then (k, v) :: l else (a, w) :: assocPut l k v := rfl

theorem assocGet_none {l : List (Nat × Int)} {id : Nat} (h : ∀ e ∈ l, e.1 ≠ id) : assocGet l id = none := by
  induction l with
  | nil => rfl
  | cons e l ih =>
    obtain ⟨k, v⟩ := e
    rw [assocGet, if_neg (h (k, v) List.mem_cons_self)]
    exact ih fun e he => h e (List.mem_cons_of_mem _ he)

/-- Entries of the kept keys are put among the kept ones. -/
theorem filter_assocPut {l : List (Nat × Int)} (p : Nat → Bool) {k : Nat} (v : Int) (hp : p k = true) (h : Sorted l) :
    (assocPut l k v).filter (fun e => p e.1) = assocPut (l.filter fun e => p e.1) k v := by
  induction l with
  | nil => simp [assocPut, hp]
  | cons x l ih =>
    obtain ⟨a, w⟩ := x
    obtain ⟨h1, h2⟩ := List.pairwise_cons.1 h
    have hall (hlt : k < a) : assocPut (l.filter fun e => p e.1) k v = (k, v) :: l.filter fun e => p e.1 := by
      cases hf : l.filter fun e => p e.1 with
      | nil => rfl
      | cons y ys =>
        have hy : y ∈ l := (List.mem_filter.1 (hf ▸ List.mem_cons_self)).1
        unfold assocPut
        exact if_pos (Nat.lt_trans hlt (h1 y hy))
    rw [assocPut_cons]
    by_cases hlt : k < a
    · rw [if_pos hlt, List.filter_cons, if_pos hp, List.filter_cons]
      cases p a
      · exact (hall hlt).symm
      · exact (if_pos hlt).symm
    · rw [if_neg hlt]
      by_cases hk : k = a
      · subst hk
        rw [if_pos rfl, List.filter_cons, if_pos hp, List.filter_cons, if_pos hp, assocPut_cons, if_neg hlt, if_pos rfl]
      · rw [if_neg hk, List.filter_cons, List.filter_cons, ih h2]
        cases p a
        · rfl
        · exact ((if_neg hlt).trans (if_neg hk)).symm

/-- Entries of the kept keys, put in order, are the kept ones. -/
theorem filter_foldl_put (p : Nat → Bool) (es : List (Nat × Int)) {l : List (Nat × Int)} (hl : Sorted l) (hp : ∀ e ∈ es, p e.1 = true) :
    (es.foldl (fun l e => assocPut l e.1 e.2) l).filter (fun e => p e.1) =
      es.foldl (fun l e => assocPut l e.1 e.2) (l.filter fun e => p e.1) := by
  induction es generalizing l with
  | nil => rfl
  | cons e es ih =>
    rw [List.foldl_cons, List.foldl_cons, ih (hl.put _ _) fun x hx => hp x (List.mem_cons_of_mem _ hx),
      filter_assocPut p e.2 (hp e List.mem_cons_self) hl]

theorem assocPut_last {l : List (Nat × Int)} {k : Nat} (v : Int) (h : ∀ e ∈ l, e.1 < k) : assocPut l k v = l ++ [(k, v)] := by
  induction l with
  | nil => rfl
  | cons x l ih =>
    obtain ⟨a, w⟩ := x
    have ha : a < k := h (a, w) List.mem_cons_self
    rw [assocPut_cons, if_neg (by omega), if_neg (by omega), ih fun e he => h e (List.mem_cons_of_mem _ he)]
    rfl

/-- Ordered entries put one after the other stand in their order. -/
theorem foldl_put_sorted (es acc : List (Nat × Int)) (h : Sorted (acc ++ es)) :
    es.foldl (fun l e => assocPut l e.1 e.2) acc = acc ++ es := by
  induction es generalizing acc with
  | nil => exact (List.append_nil _).symm
  | cons e es ih =>
    have hput : assocPut acc e.1 e.2 = acc ++ [e] := assocPut_last _ fun x hx =>
      (List.pairwise_append.1 h).2.2 x hx e List.mem_cons_self
    rw [List.foldl_cons, hput, ih (acc ++ [e]) (by rw [List.append_assoc]; exact h), List.append_assoc]
    rfl

/-- The value that ordered entries give a key, else what was there. -/
theorem assocGet_foldl_sorted (es l : List (Nat × Int)) (h : Sorted es) (id : Nat) :
    assocGet (es.foldl (fun l e => assocPut l e.1 e.2) l) id = (assocGet es id).elim (assocGet l id) some := by
  induction es generalizing l with
  | nil => rfl
  | cons e es ih =>
    obtain ⟨k, v⟩ := e
    obtain ⟨h1, h2⟩ := List.pairwise_cons.1 h
    rw [List.foldl_cons, ih _ h2, assocGet_assocPut]
    by_cases hk : id = k
    · subst hk
      have hno : assocGet es id = none := assocGet_none fun e he => Nat.ne_of_gt (h1 e he)
      rw [hno, assocGet, if_pos rfl, if_pos rfl]
      rfl
    · rw [if_neg hk, assocGet, if_neg (Ne.symm hk)]

/-- Which entries of a line token are taken. -/
def takesLine (ok : Nat → Bool) (id : Nat) : Bool := ok id && (fieldRow id).elim false fun r => r.kind == .line

theorem Alm.takeLine_eq (a b : Alm) (ok : Nat → Bool) : a.takeLine b ok =
    ⟨(b.vals.filter fun e => takesLine ok e.1).foldl (fun l e => assocPut l e.1 e.2) (a.vals.filter fun e => !takesLine ok e.1)⟩ := by
  unfold Alm.takeLine
  dsimp only
  refine congrArg Alm.mk (congrArg₂ (fun l es : List (Nat × Int) => es.foldl (fun l e => assocPut l e.1 e.2) l)
    (List.filter_congr fun e _ => ?_) (List.filter_congr fun e _ => ?_))
  · unfold takesLine
    cases fieldRow e.1 <;> rfl
  · unfold takesLine
    cases fieldRow e.1 <;> rfl

theorem Alm.wf_sorted {a : Alm} (h : a.wf = true) : Sorted a.vals := by
  unfold Alm.wf at h
  unfold Sorted
  exact of_decide_eq_true (Bool.and_eq_true_iff.1 h).1

/-- A line token's fields take effect as their lines allow (01 R23). -/
theorem Alm.takeLine_val (a : Alm) {b : Alm} (hb : b.wf = true) (ok : Nat → Bool) {id : Nat} {r : FieldRow} (hr : fieldRow id = some r) :
    (a.takeLine b ok).val id = if r.kind = .line ∧ ok id = true then b.val id else a.val id := by
  have htake : takesLine ok id = (ok id && (r.kind == .line)) := by
    unfold takesLine
    rw [hr]
    rfl
  have hsorted : Sorted (b.vals.filter fun e => takesLine ok e.1) := List.Pairwise.filter _ (Alm.wf_sorted hb)
  rw [Alm.takeLine_eq]
  unfold Alm.val
  dsimp only
  rw [assocGet_foldl_sorted _ _ hsorted]
  by_cases h : r.kind = .line ∧ ok id = true
  · have ht : takesLine ok id = true := by rw [htake, h.1, h.2]; rfl
    have h1 : assocGet (b.vals.filter fun e => takesLine ok e.1) id = assocGet b.vals id :=
      assocGet_filter_of fun e _ he => by rw [he, ht]
    have h2 : assocGet (a.vals.filter fun e => !takesLine ok e.1) id = none := assocGet_none fun e he hid => by
      have := (List.mem_filter.1 he).2
      rw [hid, ht] at this
      exact nomatch this
    rw [if_pos h, h1, h2]
    cases assocGet b.vals id <;> rfl
  · have ht : takesLine ok id = false := by
      rw [htake, Bool.and_eq_false_iff]
      by_cases hk : r.kind = .line
      · exact .inl (Bool.eq_false_of_not_eq_true fun ho => h ⟨hk, ho⟩)
      · exact .inr (beq_eq_false_iff_ne.2 hk)
    have h1 : assocGet (b.vals.filter fun e => takesLine ok e.1) id = none := assocGet_none fun e he hid => by
      have := (List.mem_filter.1 he).2
      rw [hid, ht] at this
      exact nomatch this
    have h2 : assocGet (a.vals.filter fun e => !takesLine ok e.1) id = assocGet a.vals id :=
      assocGet_filter_of fun e _ he => by rw [he, ht]; rfl
    rw [if_neg h, h1, h2]
    rfl

/-- With every line idle no field of the token is left. -/
theorem Alm.takeLine_all {a b : Alm} (ha : a.wf = true) (hb : b.wf = true) {ok : Nat → Bool} (h : ∀ id, ok id = true) :
    (a.takeLine b ok).differKind b .line = false := by
  have hsorted : Sorted (b.vals.filter fun e => takesLine ok e.1) := List.Pairwise.filter _ (Alm.wf_sorted hb)
  have hnone : (a.vals.filter fun e => !takesLine ok e.1).filter (fun e => takesLine ok e.1) = [] :=
    List.filter_eq_nil_iff.2 fun e he ht => by
      have := (List.mem_filter.1 he).2
      rw [ht] at this
      exact nomatch this
  unfold Alm.differKind
  dsimp only
  have hline (e : Nat × Int) : takesLine ok e.1 = (fieldRow e.1).elim false fun r => r.kind == .line := by
    unfold takesLine
    rw [h, Bool.true_and]
  refine bne_eq_false_iff_eq.2 ((List.filter_congr (q := fun e => takesLine ok e.1) fun e _ => ?_).trans (Eq.trans ?_
    (List.filter_congr (p := fun e => takesLine ok e.1) fun e _ => ?_)))
  · rw [hline]
    cases fieldRow e.1 <;> rfl
  · rw [Alm.takeLine_eq]
    dsimp only
    rw [filter_foldl_put (takesLine ok) _ (List.Pairwise.filter _ (Alm.wf_sorted ha)) fun e he => (List.mem_filter.1 he).2, hnone,
      foldl_put_sorted _ [] hsorted, List.nil_append]
  · rw [hline]
    cases fieldRow e.1 <;> rfl

end

/-! ## The idle line -/

section
variable {s : State}

theorem State.freshFloor_only (s : State) (pt : Port) (old : Alm) : s.Only [.ports] (s.freshFloor pt old) := by
  unfold State.freshFloor
  split
  · exact s.setPort_only _ _
  · exact .refl _ s

theorem State.afterLine_only (s : State) (old : Alm) : s.Only [.ports, .fsk] (s.afterLine old) := by
  have h : s.Only [.ports] ((s.freshFloor .loop old).freshFloor .spur old) := (s.freshFloor_only _ _).trans (State.freshFloor_only _ _ _)
  have hring (u : State) : u.Only [.fsk] { u with fsk := { u.fsk with ring := 0 } } :=
    ⟨rfl, fun q hq => by cases q <;> first | exact absurd (by decide) hq | rfl⟩
  unfold State.afterLine
  exact iteInduction (motive := fun t => s.Only [.ports, .fsk] t) (fun _ => (h.mono (by simp)).trans ((hring _).mono (by simp)))
    fun _ => h.mono (by simp)

/-- The fields in force after a line token. -/
def State.lineFields (s : State) (tok : ApplyTok) : Alm := s.mgmt.inForce.takeLine tok.alm s.fieldIdle

theorem idleLineApply_spec {tok : ApplyTok} (hu : s.loopUp = true) (hp : s.mgmt.pendLine = some tok) (ht : tok.posted < s.now) :
    ∃ t, exec .idleLineApply s = .next t ∧ s.Only [.mgmt, .ports, .fab, .fsk, .obs] t ∧ s.OnlyTrace t ∧
      t.mgmt = { s.mgmt with
        inForce := s.lineFields tok, pendLine := if (s.lineFields tok).differKind tok.alm .line then some tok else none } ∧
      t.fab = if s.fab.assigned && s.fieldIdle (fid 9 0 0) then { s.fab with dup := false, assigned := false } else s.fab := by
  have hex : exec .idleLineApply s = .next (s.lineApply tok) := by
    show execIdleLineApply s = _
    unfold execIdleLineApply
    rw [hp]
    exact stepIf_of (by rw [hu, decide_eq_true ht]; rfl)
  refine ⟨_, hex, ?_⟩
  let m : Mgmt := { s.mgmt with
    inForce := s.lineFields tok, pendLine := if (s.lineFields tok).differKind tok.alm .line then some tok else none }
  have hm : ({ s.mgmt with inForce := s.lineFields tok, pendLine := if (s.lineFields tok).differKind tok.alm .line then some tok else none }
    : Mgmt) = m := rfl
  have hform : s.lineApply tok = (fun u : State => if (s.lineFields tok).differKind tok.alm .line then u else u.emitApply .loop 2 0)
      (if ((s.setMgmt m).afterLine s.mgmt.inForce).fab.assigned && s.fieldIdle (fid 9 0 0) then
        ((s.setMgmt m).afterLine s.mgmt.inForce).setFab { ((s.setMgmt m).afterLine s.mgmt.inForce).fab with dup := false, assigned := false }
      else (s.setMgmt m).afterLine s.mgmt.inForce) := rfl
  have ha := (s.setMgmt m).afterLine_only s.mgmt.inForce
  have honly : s.Only [.mgmt, .ports, .fsk] ((s.setMgmt m).afterLine s.mgmt.inForce) :=
    ((State.setMgmt_only _ _).mono (by simp)).trans (ha.mono (by simp))
  have hmg : ((s.setMgmt m).afterLine s.mgmt.inForce).mgmt = m := ha.2 .mgmt (by decide)
  rw [hform, hm]
  clear_value m
  generalize (s.setMgmt m).afterLine s.mgmt.inForce = v at honly hmg
  have hvf : v.fab = s.fab := honly.2 .fab (by decide)
  have hvo : v.obs = s.obs := honly.2 .obs (by decide)
  rw [hvf]
  obtain ⟨w, hw, h1, h2, h3, h4⟩ : ∃ w : State, w = (if s.fab.assigned && s.fieldIdle (fid 9 0 0) then
      v.setFab { s.fab with dup := false, assigned := false } else v) ∧ v.Only [.fab] w ∧ w.obs = v.obs ∧ w.mgmt = v.mgmt ∧
      w.fab = if s.fab.assigned && s.fieldIdle (fid 9 0 0) then { s.fab with dup := false, assigned := false } else s.fab := by
    refine ⟨_, rfl, ?_⟩
    split
    · exact ⟨State.setFab_only _ _, rfl, rfl, rfl⟩
    · exact ⟨.refl _ v, rfl, rfl, hvf⟩
  rw [← hw]
  have hall : s.Only [.mgmt, .ports, .fab, .fsk, .obs] w := (honly.mono (by simp)).trans (h1.mono (by simp))
  dsimp only
  split
  · have htr : s.OnlyTrace w := State.CountersBut.of_obs (.refl _ w) (h2.trans hvo)
    exact ⟨hall, htr, h3.trans hmg, h4⟩
  · obtain ⟨o, ho, htr⟩ := w.emit_eq .loop 9 2 [0]
    rw [State.emitApply, ho]
    exact ⟨hall.trans ((State.setObs_only _ o).mono (by simp)), State.CountersBut.of_obs htr (h2.trans hvo), h3.trans hmg, h4⟩

end

/-- Settles O50: a packet's start by what the port takes, a busy port by the request's kind, the idle line by its token. -/
theorem portsTransmitAndRest : Obligations.PortsTransmitAndRest := by
  intro s pt x becomes
  refine ⟨fun j ho hq ha => ?_, fun j hu ht he => ?_, fun hu hm ht hl => ?_, fun powers ho hi hp hl => ?_, fun tok hu hp ht hw hwt => ?_⟩
  · intro amp silent queued
    have hex := exec_packetTransmitStart ho hq ha
    have hqueued : queued = j.buf.elim s.fab fun b => { s.fab with pubQueue := (b, 0) :: s.fab.pubQueue } := by
      simp only [queued] <;> cases j.buf <;> rfl
    have hmute : s.muteReq j = true ↔ silent := by
      unfold State.muteReq
      simp [silent]
    refine ⟨fun hs => ?_, fun hs htx hh hamp => ?_, fun hs hb => ?_⟩
    · rw [hmute.2 hs, if_pos rfl, State.silenced_eq] at hex
      rw [hqueued]
      refine hex.trans ?_
      split <;> rfl
    · intro top low
      rw [if_neg (fun h => hs (hmute.1 h)), if_neg (by rw [show (s.port pt).tx = none from htx, hh]; exact Bool.false_ne_true),
        if_neg (Nat.ne_of_gt hamp)] at hex
      have htop : top = topOf pt amp := by
        simp only [top, topOf] <;> cases pt <;> rfl
      have hlow : low = if pt = .loop then s.lineFloor .loop else -(topOf pt amp) := by
        simp only [low, htop] <;> cases pt <;> rfl
      obtain ⟨h1, h2, h3, h4, h5, h6, h7⟩ := s.transmit_spec pt j
      obtain ⟨z1, z2, z3, z4, z5, z6, z7, z8, z9⟩ := s.transmit_port pt j
      obtain ⟨c1, c2, c3, c4⟩ := s.transmit_samples pt j hamp
      rw [htop, hlow]
      refine ⟨_, hex, h1, h2, h3, h4, h5, z1, z2, z3, z4, z5, z6, z7, c1, c2, c3, fun hl v hv => ?_, fun hh => ⟨(h6 hh).1, (h6 hh).2, z8 hh⟩,
        fun hh => ?_⟩
      · rw [if_pos hl]
        exact c4 hl v hv
      · obtain ⟨g1, g2, g3, g4⟩ := z9 hh
        exact ⟨g1, g2, g3, g4, h7 hh⟩
    · rw [if_neg (fun h => hs (hmute.1 h))] at hex
      obtain ⟨t, ht, h⟩ := s.refused_spec pt j
      rw [hqueued]
      refine ⟨t, hex.trans (congrArg Host.Outcome.next (Eq.trans ?_ ht)), h⟩
      by_cases hbusy : ((s.port pt).tx.isSome || s.txHeld pt) = true
      · rw [if_pos hbusy, if_pos hbusy]
      · have hzero : s.txAmp pt = 0 := by
          rcases hb with hb | hb | hb
          · exact absurd (by rw [show (s.port pt).tx.isSome = true from hb]; rfl) hbusy
          · exact absurd (by rw [hb, Bool.or_true]) hbusy
          · exact hb
        rw [if_neg hbusy, if_neg hbusy, if_pos hzero]
  · obtain ⟨t, h1, h2, h3, h4, h5, h6, h7⟩ := packetTransmitEnd_spec hu ht he
    obtain ⟨w1, w2, w3, w4⟩ := s.win.freedBuf_spec j
    exact ⟨t, h1, h2, h3, h4, h5, by rw [h6]; exact w1, by rw [h7]; exact s.fab.released_frame j, fun hb => by rw [h6]; exact w2 hb,
      fun b hb hlt hd => by rw [h6]; exact w3 b hb hlt hd, fun n hn => by rw [h6]; exact w4 n hn⟩
  · show execMuteEnd pt s = _
    exact stepIf_of (by rw [hu, show (s.port pt).rx = .muted from hm, show (s.port pt).tx = none from ht, decide_eq_true hl]; rfl)
  · have hlen : (powers.all fun l => l.length == 64) = true := List.all_eq_true.2 fun l h => beq_iff_eq.2 (hl l h)
    refine ⟨?_, rfl⟩
    show execNoiseFloorUpdate pt powers s = _
    exact stepIf_of (by rw [ho, decide_eq_true hi, beq_iff_eq.2 hp, hlen]; rfl)
  · obtain ⟨t, h1, h2, h3, h4, h5⟩ := idleLineApply_spec hu hp ht
    refine ⟨t, h1, h2, h3, by rw [h4], fun id r hr => ?_, fun hi has => ?_, fun h => ?_, fun hall => ?_⟩
    · rw [h4]
      exact Alm.takeLine_val _ hwt _ hr
    · rw [h5, hi, has]
      rfl
    · rw [h5, if_neg]
      rcases h with h | h
      · rw [h, Bool.and_false]
        exact Bool.false_ne_true
      · rw [h]
        exact Bool.false_ne_true
    · rw [h4]
      dsimp only
      rw [State.lineFields, Alm.takeLine_all hw hwt hall]
      rfl

end Sys2Proof.Machine
end



section
/-! PROOFS. The legacy FSK layer (09 R236 to R238). -/

namespace Sys2Proof.Machine

open Sys2Proof

set_option Elab.async false

/-! ## The bits of an octet -/

theorem natBits_eq (n v : Nat) : natBits n v = (List.range n).map v.testBit := by
  induction n generalizing v with
  | zero => rfl
  | succ n ih =>
    rw [List.range_succ_eq_map, List.map_cons, List.map_map, natBits, ih]
    refine congrArg₂ List.cons (by rw [Nat.testBit_zero]; rfl) (List.map_congr_left fun i _ => ?_)
    rw [Function.comp_apply, Nat.succ_eq_add_one, Nat.testBit_add_one]

theorem natBits_length (n v : Nat) : (natBits n v).length = n := by rw [natBits_eq, List.length_map, List.length_range]

/-- A chain of exclusive ors is the parity of the ones. -/
theorem foldl_bne_parity (bs : List Bool) (a : Bool) : bs.foldl (fun a x => a != x) a = (a != (bs.countP id % 2 == 1)) := by
  induction bs generalizing a with
  | nil => cases a <;> rfl
  | cons b bs ih =>
    rw [List.foldl_cons, ih, List.countP_cons]
    have h2 : bs.countP id % 2 = 0 ∨ bs.countP id % 2 = 1 := by omega
    cases b
    · cases a <;> simp
    · rcases h2 with h | h <;> cases a <;> simp [h, Nat.add_mod]

/-- Data with the inverse of their parity hold an odd number of ones. -/
theorem odd_parity (d : List Bool) : (false :: d ++ [!(d.foldl (fun a x => a != x) false)]).countP id % 2 = 1 := by
  rw [foldl_bne_parity, List.cons_append, List.countP_cons_of_neg (by simp), List.countP_append]
  have h2 : d.countP id % 2 = 0 ∨ d.countP id % 2 = 1 := by omega
  rcases h2 with h | h <;> simp [h, Nat.add_mod]

theorem fskFrame_spec (b : Byte) : (fskFrame b).length = 11 ∧ (fskFrame b)[0]? = some false ∧ (fskFrame b)[10]? = some true ∧
    (∀ i, i < 8 → (fskFrame b)[i + 1]? = some (b.getLsbD i)) ∧ ((fskFrame b).take 10).countP id % 2 = 1 := by
  have hd : (natBits 8 b.toNat).length = 8 := natBits_length 8 _
  have e : fskFrame b = (false :: natBits 8 b.toNat ++ [!((natBits 8 b.toNat).foldl (fun a x => a != x) false)]) ++ [true] := by
    simp [fskFrame]
  have hl : (false :: natBits 8 b.toNat ++ [!((natBits 8 b.toNat).foldl (fun a x => a != x) false)]).length = 10 := by simp [hd]
  refine ⟨by rw [e, List.length_append, hl]; rfl, rfl, ?_, fun i hi => ?_, ?_⟩
  · rw [e, List.getElem?_append_right (by omega), hl]
    rfl
  · rw [e, List.getElem?_append_left (by omega), List.cons_append, List.getElem?_cons_succ,
      List.getElem?_append_left (by omega), natBits_eq, List.getElem?_map, List.getElem?_range hi]
    rfl
  · rw [e, List.take_append_of_le_length (by omega), List.take_of_length_le (by omega)]
    exact odd_parity _

theorem fskBits_spec (os : List Byte) : (fskBits os).length = 2 + 11 * os.length ∧ (fskBits os)[0]? = some true ∧
    (fskBits os).getLast? = some true := by
  have h : (os.flatMap fskFrame).length = 11 * os.length := by
    induction os with
    | nil => rfl
    | cons b os ih => rw [List.flatMap_cons, List.length_append, ih, (fskFrame_spec b).1, List.length_cons]; omega
  refine ⟨?_, rfl, ?_⟩
  · unfold fskBits
    rw [List.length_append, List.length_cons, h]
    simp only [List.length_cons, List.length_nil]
    omega
  · unfold fskBits
    rw [List.getLast?_append]
    rfl

/-- The status bits of an octet, bit by bit. -/
theorem octetStatus_eq (o : FskOctet) : octetStatus o =
    BitVec.ofNat 8 (b2n (((List.range 9).countP fun i => o.bits.getLsbD (i + 1)) % 2 == 0) + 2 * b2n (!o.bits.getLsbD 10) +
      4 * b2n (decide (2 ≤ o.idle))) := by
  have h : (natBits 9 (o.bits.toNat / 2)).countP id = (List.range 9).countP fun i => o.bits.getLsbD (i + 1) := by
    rw [natBits_eq, List.countP_map]
    refine congrArg (fun f => (List.range 9).countP f) (funext fun i => ?_)
    rw [Function.comp_apply, id, ← Nat.testBit_add_one]
    rfl
  unfold octetStatus
  rw [h]

section
variable {s : State} {p : Packet}

/-! ## FSK_PASS and its event -/

/-- The parameters of FSK_PASS are octets, or the layer is off. -/
theorem fskPass_spec (h1 : 1 ≤ (s.paramsOf 0x0508 p).length) (h2 : (s.paramsOf 0x0508 p).length ≤ 248)
    (h : s.Takes 0x0508 p 0 [.loop]) (hw : s.NoneWaits 0x0508) :
    if s.mgmt.inForce.fskEn = true then
      s.Begins (s.postReq 3 0x0508 (.fskPass (s.paramsOf 0x0508 p))) (.fskPass p) 0x0508 p 0 (some .loop) []
    else s.Declines (.fskPass p) 0x0508 p stNotPermitted := by
  have hlen : (decide (1 ≤ (s.paramsOf 0x0508 p).length) && decide ((s.paramsOf 0x0508 p).length ≤ 248)) = true := by
    simp [h1, h2]
  have hm : (s.taken 0x0508 p).mgmt.inForce = s.mgmt.inForce := by rw [State.taken_mgmt]
  split_ifs with he
  · exact h.begins rfl (shell_plain h (fun l => 1 ≤ l && l ≤ 248) fun _ => hw) rfl hlen (ho := if_neg (by rw [hm, he]; decide))
  · rw [State.Declines, s.started_of p rfl]
    exact h.reports rfl (shell_plain h (fun l => 1 ≤ l && l ≤ 248) fun _ => hw) rfl hlen (if_pos (by rw [hm]; simpa using he))

theorem State.loopReq_fskPass (s : State) (os : List Byte) : s.Only [.fsk, .mgmt] (s.loopReq (.fskPass os)) ∧
    (s.loopReq (.fskPass os)).fsk = { s.fsk with tx := some (os, s.now) } := by
  have hg := s.gotReq_only 0x0508
  have hf : (s.gotReq 0x0508).fsk = s.fsk := hg.2 .fsk (by simp)
  have hn : (s.gotReq 0x0508).now = s.now := congrArg Clock.tick (hg.2 .clock (by simp))
  refine ⟨(hg.mono (by simp)).trans ⟨rfl, fun q hq => by cases q <;> first | rfl | simp at hq⟩, ?_⟩
  show ({ (s.gotReq 0x0508).fsk with tx := some (os, (s.gotReq 0x0508).now) } : Fsk) = _
  rw [hf, hn]

/-- The event of an opcode reaches MGMT with each outstanding command of it that was taken. -/
def State.Reported (s t : State) (op status : Nat) (res : List Byte) : Prop :=
  t.mgmt = { s.mgmt with events := t.mgmt.events } ∧ ∃ l, t.mgmt.events = s.mgmt.events ++ l ∧
    ∀ o ∈ s.mgmt.outst, o.op = op → o.done = none → (∃ g, o.got = some g ∧ g ≤ s.now) → (op, status, res, s.now) ∈ l

theorem State.loopEvent_reported (s : State) (op status : Nat) (res : List Byte) : s.Only [.mgmt] (s.loopEvent op status res) ∧
    s.Reported (s.loopEvent op status res) op status res := by
  refine ⟨s.setMgmt_only _, rfl, _, rfl, fun o ho hop hd ⟨g, hg, hgn⟩ => List.mem_map.2 ⟨o, List.mem_filter.2 ⟨ho, ?_⟩, ?_⟩⟩
  · rw [hop, hd, hg]
    simpa using hgn
  · unfold Outst.answer
    rw [if_pos hop, hop]

theorem State.Reported.of {t u : State} {op status : Nat} {res : List Byte} (h : t.Reported u op status res) (hm : t.mgmt = s.mgmt)
    (hn : t.now = s.now) : s.Reported u op status res := by
  unfold State.Reported at h ⊢
  rwa [hm, hn] at h

/-! ## Transmission -/

/-- The FSK layer as it begins to send octets at tick `now`. -/
def Fsk.begun (f : Fsk) (os : List Byte) (now : Nat) : Fsk := { f with
  tx := none, send := fskBits os, sendStart := now, sendEnd := some (now + bitTicks (2 + 11 * os.length)), phase := 0, muted := true }

theorem fskTransmitStart_spec {os : List Byte} {since : Nat} (htx : s.fsk.tx = some (os, since)) (hon : s.fskOn = true)
    (hcd : s.fsk.cd = false) (hse : s.fsk.sendEnd = none) : ∃ t k, exec .fskTransmitStart s = .next t ∧
      s.Only [.free, .mgmt, .fsk, .ports] t ∧ k < 3 ∧ t.fsk = s.fsk.begun os s.now ∧
      t.ports = s.ports.put .loop { s.port .loop with
        clipLo := (t.port .loop).clipLo, clipHi := (t.port .loop).clipHi, dac := (t.port .loop).dac } ∧
      s.Reported t 0x0508 stOk (leBytes 6 (s.clock.meridian + BitVec.ofNat 48 (416 + k)).toNat) := by
  have hk : (Config.freeBits 2 s.free).toNat % 3 < 3 := Nat.mod_lt _ (by decide)
  generalize hku : (Config.freeBits 2 s.free).toNat % 3 = k at hk
  obtain ⟨t, ht⟩ : ∃ t : State, t = { s.drawn (s.free + 1) with fsk := s.fsk.begun os s.now } := ⟨_, rfl⟩
  have htf : s.Only [.free, .fsk] t := by
    rw [ht]
    exact ((s.drawn_only _).mono (by simp)).trans ⟨rfl, fun q hq => by cases q <;> first | rfl | simp at hq⟩
  obtain ⟨hre, hrep⟩ := (t.drivePort .loop).loopEvent_reported 0x0508 stOk (leBytes 6 (s.clock.meridian + BitVec.ofNat 48 (416 + k)).toNat)
  have hdr : t.Only [.ports] (t.drivePort .loop) := t.setPort_only _ _
  have hport : t.port .loop = s.port .loop := State.port_congr (htf.2 .ports (by simp)) (htf.2 .clock (by simp))
  have hfsk : t.fsk = s.fsk.begun os s.now := by rw [ht]
  have hex : exec .fskTransmitStart s = .next ((t.drivePort .loop).loopEvent 0x0508 stOk
      (leBytes 6 (s.clock.meridian + BitVec.ofNat 48 (416 + k)).toNat)) := by
    show execFskTransmitStart s = _
    unfold execFskTransmitStart
    rw [htx]
    dsimp only
    rw [hon, hcd, hse, State.draw_eq, hku, ht]
    rfl
  refine ⟨_, k, hex, ?_, hk, (hre.2 .fsk (by simp)).trans ((hdr.2 .fsk (by simp)).trans hfsk), ?_,
    hrep.of ((hdr.2 .mgmt (by simp)).trans (htf.2 .mgmt (by simp)))
      (congrArg Clock.tick ((hdr.2 .clock (by simp)).trans (htf.2 .clock (by simp))))⟩
  · exact ((htf.mono (by simp)).trans (hdr.mono (by simp))).trans (hre.mono (by simp))
  · have hp : ((t.drivePort .loop).loopEvent 0x0508 stOk (leBytes 6 (s.clock.meridian + BitVec.ofNat 48 (416 + k)).toNat)).port .loop =
        (t.driven .loop).settle t.now :=
      (State.port_congr (hre.2 .ports (by simp)) (hre.2 .clock (by simp))).trans (t.port_setPort _ _)
    have hs (x : PortSt) (n : Nat) : (x.settle n).clipLo = x.clipLo ∧ (x.settle n).clipHi = x.clipHi ∧ (x.settle n).dac = x.dac := by
      unfold PortSt.settle
      split <;> exact ⟨rfl, rfl, rfl⟩
    obtain ⟨h1, h2, h3⟩ := hs (t.driven .loop) t.now
    rw [hp, h1, h2, h3, hre.2 .ports (by simp), ← hport]
    show t.ports.put .loop (t.driven .loop) = _
    rw [htf.2 .ports (by simp)]
    rfl

theorem fskPassTimeout_spec {os : List Byte} {since : Nat} (htx : s.fsk.tx = some (os, since)) (hup : s.loopUp = true)
    (hcd : s.fsk.cd = true) (hlate : 500000 ≤ s.now - since) : ∃ t, exec .fskPassTimeout s = .next t ∧ s.Only [.mgmt, .fsk] t ∧
      t.fsk = { s.fsk with tx := none } ∧ s.Reported t 0x0508 stBusy [] := by
  obtain ⟨hre, hrep⟩ := ({ s with fsk := { s.fsk with tx := none } } : State).loopEvent_reported 0x0508 stBusy []
  have ho : s.Only [.fsk] ({ s with fsk := { s.fsk with tx := none } } : State) :=
    ⟨rfl, fun q hq => by cases q <;> first | rfl | simp at hq⟩
  refine ⟨_, ?_, (ho.mono (by simp)).trans (hre.mono (by simp)), hre.2 .fsk (by simp), hrep.of rfl rfl⟩
  show execFskPassTimeout s = _
  unfold execFskPassTimeout
  rw [htx]
  refine stepIf_of ?_
  rw [hup, hcd, decide_eq_true hlate]
  rfl

/-! ## Reception -/

theorem Fsk.bytes_length {f : Fsk} (flags : Nat) (h : f.octets.length ≤ 120) : (f.bytes flags).length = 256 := by
  have hf : (f.octets.flatMap fun o => [o.1, o.2]).length = 2 * f.octets.length := by
    induction f.octets with
    | nil => rfl
    | cons o os ih => rw [List.flatMap_cons, List.length_append, ih, List.length_cons]; simp only [List.length_cons, List.length_nil]; omega
  unfold Fsk.bytes padTo zeros
  simp only [List.length_append, leBytes_length, List.length_take, List.length_replicate, hf]
  omega

/-- What a parity error of LOOP's that is armed leaves in the collector (13 R333). -/
def State.relayFault (s : State) : Faults := { s.faults.useArmed 0x0B with
  reports := s.faults.reports ++ [⟨0x0B, 0x10, 0x20, true, false, 0, s.now, s.clock.meridian, false⟩] }

/-- Bytes that LOOP's relay writes into a buffer on the device's side: they stand in it, or an armed access discards them. -/
theorem State.relayWrite_eq {b : Nat} (bs : List Byte) (ho : (s.win.ownAt b).own = .device) : s.relayWrite b bs =
    if s.parityArmed .loop .mgmt then s.setFaults s.relayFault else s.setWin (s.win.filled b bs) := by
  unfold State.relayWrite
  split_ifs with h
  · unfold State.parityError State.parityErrorAt
    rw [h]
    dsimp only [if_true]
    rfl
  · unfold State.devWrite
    rw [if_pos ho]
    rfl

/-- A buffer handed to the host with the bytes of the octets in it. -/
def State.Hands (s t : State) (f : Fsk) (b flags : Nat) : Prop :=
  t.fsk = { f with buf := none, octets := [], bufDrops := 0 } ∧
  t.win = { s.win with mem := t.win.mem, own := t.win.own, db := s.win.db ||| 0x80 } ∧
  t.win.ownAt b = ⟨.host, (s.win.ownAt b).gen + 1, 0x20⟩ ∧ (∀ n, n ≠ b → t.win.ownAt n = s.win.ownAt n) ∧
  (s.parityArmed .loop .mgmt = true → t.win.mem = s.win.mem ∧ t.faults = s.relayFault) ∧
  (s.parityArmed .loop .mgmt = false → t.faults = s.faults ∧
    (∀ i, i < (f.bytes flags).length → cellRead t.win.mem (256 * b + i) = (f.bytes flags).getD i 0) ∧
    ∀ c, c < 256 * b ∨ 256 * b + (f.bytes flags).length ≤ c → cellRead t.win.mem c = cellRead s.win.mem c)

theorem State.fskHandOver_hands {b : Nat} (flags : Nat) (hb : s.fsk.buf = some b) (hlt : b < 64) (hm : s.memoryOk)
    (ho : (s.win.ownAt b).own = .device) :
    s.Only [.fsk, .win, .faults] (s.fskHandOver flags) ∧ s.Hands (s.fskHandOver flags) s.fsk b flags := by
  have e : s.fskHandOver flags = ({ (s.relayWrite b (s.fsk.bytes flags)).setOwner b .host 0x20 with
      fsk := { (s.relayWrite b (s.fsk.bytes flags)).fsk with buf := none, octets := [], bufDrops := 0 } } : State).ring 7 := by
    unfold State.fskHandOver
    rw [hb]
    rfl
  rw [e, State.relayWrite_eq _ ho]
  generalize hbs : s.fsk.bytes flags = bs
  unfold State.Hands
  rw [hbs]
  cases hp : s.parityArmed .loop .mgmt
  · rw [if_neg Bool.false_ne_true]
    refine ⟨⟨rfl, fun q hq => by cases q <;> first | rfl | simp at hq⟩, rfl, rfl, Window.setOwner_self (s.win.filled b bs) _ _ hlt,
      fun n hn => Window.setOwner_other (s.win.filled b bs) _ _ hn, fun h => absurd h Bool.false_ne_true, fun _ => ⟨rfl, ?_, ?_⟩⟩
    · intro i hi
      show cellRead (cellsWrite s.win.mem (bufAddr b) bs) _ = _
      rw [cellRead_cellsWrite _ _ _ hm, if_pos (by unfold bufAddr; omega)]
      congr 1
      unfold bufAddr
      omega
    · intro c hc
      show cellRead (cellsWrite s.win.mem (bufAddr b) bs) _ = _
      rw [cellRead_cellsWrite _ _ _ hm, if_neg (by unfold bufAddr; omega)]
  · rw [if_pos rfl]
    exact ⟨⟨rfl, fun q hq => by cases q <;> first | rfl | simp at hq⟩, rfl, rfl, Window.setOwner_self s.win _ _ hlt,
      fun n hn => Window.setOwner_other s.win _ _ hn, fun _ => ⟨rfl, rfl⟩, fun h => absurd h (by decide)⟩

theorem fskCarrierOff_spec (hup : s.loopUp = true) (hcd : s.fsk.cd = true) :
    (s.fsk.buf = none → exec .fskCarrierOff s = .next { s with fsk := { s.fsk with cd := false, cdTick := s.now } }) ∧
      ∀ b, s.fsk.buf = some b → b < 64 → s.memoryOk → (s.win.ownAt b).own = .device → ∃ t, exec .fskCarrierOff s = .next t ∧
        s.Only [.fsk, .win, .faults] t ∧ s.Hands t { s.fsk with cd := false, cdTick := s.now } b 1 := by
  have hex : exec .fskCarrierOff s =
      .next (({ s with fsk := { s.fsk with cd := false, cdTick := s.now } } : State).fskHandOver 1) :=
    stepIf_of (by rw [hup, hcd]; rfl)
  have ho : s.Only [.fsk] ({ s with fsk := { s.fsk with cd := false, cdTick := s.now } } : State) :=
    ⟨rfl, fun q hq => by cases q <;> first | rfl | simp at hq⟩
  refine ⟨fun hb => ?_, fun b hb hlt hm hd => ?_⟩
  · rw [hex]
    unfold State.fskHandOver
    dsimp only
    rw [hb]
  · obtain ⟨h1, h2⟩ := ({ s with fsk := { s.fsk with cd := false, cdTick := s.now } } : State).fskHandOver_hands 1 hb hlt hm hd
    exact ⟨_, hex, (ho.mono (by simp)).trans h1, h2⟩

/-- An octet joins the open buffer. -/
def Fsk.joined (f : Fsk) (o : FskOctet) : Fsk := { f with octets := f.octets ++ [(octetData o, octetStatus o)] }

theorem exec_fskOctetReceive {o : FskOctet} (hon : s.fskOn = true) (hcd : s.fsk.cd = true) (hm : s.fsk.stillMuted s.now = false)
    (hz : o.bits.getLsbD 0 = false) : exec (.fskOctetReceive o) s = .next (s.fskTake o) :=
  stepIf_of (by rw [hon, hcd, hm, hz]; rfl)

/-- The counted state, in which an octet is taken. -/
theorem State.counted_octet (s : State) : s.Only [.obs] (s.count .fskOctets) ∧ s.CountersBut [.fskOctets] (s.count .fskOctets) :=
  ⟨s.setObs_only _, s.countN_counters .fskOctets 1⟩

theorem State.fskTake_open {o : FskOctet} {k : Nat} (hb : s.fsk.buf = some k) : s.fskTake o =
    if s.fsk.octets.length < 119 then { s.count .fskOctets with fsk := s.fsk.joined o }
    else ({ s.count .fskOctets with fsk := s.fsk.joined o } : State).fskHandOver 2 := by
  have hl : (s.fsk.joined o).octets.length = s.fsk.octets.length + 1 := List.length_append
  unfold State.fskTake
  dsimp only
  rw [show (s.count .fskOctets).fsk = s.fsk from rfl, hb]
  dsimp only
  rw [← hb]
  refine if_congr ?_ rfl rfl
  show (s.fsk.joined o).octets.length < 120 ↔ _
  omega

theorem State.fskTake_none {o : FskOctet} (hb : s.fsk.buf = none) : s.fskTake o = (s.count .fskOctets).fskOpen o := by
  unfold State.fskTake
  dsimp only
  rw [show (s.count .fskOctets).fsk = s.fsk from rfl, hb]

theorem fskOctet_joins {o : FskOctet} {k : Nat} (hb : s.fsk.buf = some k) (hl : s.fsk.octets.length < 119) :
    s.Only [.fsk, .obs] (s.fskTake o) ∧ s.CountersBut [.fskOctets] (s.fskTake o) ∧ (s.fskTake o).fsk = s.fsk.joined o := by
  obtain ⟨hob, hct⟩ := s.counted_octet
  rw [State.fskTake_open hb, if_pos hl]
  exact ⟨(hob.mono (by simp)).trans ⟨rfl, fun q hq => by cases q <;> first | rfl | simp at hq⟩, hct.to_obs rfl, rfl⟩

theorem fskOctet_hands {o : FskOctet} {k : Nat} (hb : s.fsk.buf = some k) (hl : s.fsk.octets.length = 119) (hlt : k < 64)
    (hm : s.memoryOk) (ho : (s.win.ownAt k).own = .device) : s.Only [.fsk, .win, .faults, .obs] (s.fskTake o) ∧
      s.CountersBut [.fskOctets] (s.fskTake o) ∧ s.Hands (s.fskTake o) (s.fsk.joined o) k 2 := by
  obtain ⟨hob, hct⟩ := s.counted_octet
  have hj : (s.count .fskOctets).Only [.fsk] ({ s.count .fskOctets with fsk := s.fsk.joined o } : State) :=
    ⟨rfl, fun q hq => by cases q <;> first | rfl | simp at hq⟩
  obtain ⟨h1, h2⟩ := ({ s.count .fskOctets with fsk := s.fsk.joined o } : State).fskHandOver_hands 2 hb hlt hm ho
  rw [State.fskTake_open hb, if_neg (by omega)]
  exact ⟨((hob.mono (by simp)).trans (hj.mono (by simp))).trans (h1.mono (by simp)), hct.to_obs (h1.2 .obs (by simp)), h2⟩

/-! ## The ring of the FSK range -/

/-- The range of FSK's buffers, and the place of it that is `i` on from the next one. -/
def State.fskRange (s : State) : List Nat := bufRange s.mgmt.inForce.fskBufFirst s.mgmt.inForce.fskBufCount

def State.fskPlace (s : State) (i : Nat) : Nat := s.fskRange.getD ((s.fsk.ring + i) % s.fskRange.length) 0

theorem bufRange_lt {first count b : Nat} (h : b ∈ bufRange first count) : b < 64 := by
  obtain ⟨i, -, rfl⟩ := List.mem_map.1 h
  exact Nat.mod_lt _ (by decide)

theorem State.fskPlace_mem (s : State) {i : Nat} (h : i < s.fskRange.length) : s.fskPlace i ∈ s.fskRange := by
  have hlt : (s.fsk.ring + i) % s.fskRange.length < s.fskRange.length := Nat.mod_lt _ (by omega)
  unfold State.fskPlace
  rw [List.getD_eq_getElem _ _ hlt]
  exact List.getElem_mem hlt

theorem State.fskFree_eq (s : State) : s.fskFree = ((List.range s.fskRange.length).map fun i =>
    (s.fskPlace i, (s.fsk.ring + i + 1) % s.fskRange.length)).find? fun e => (s.win.ownAt e.1).own == .free := by
  unfold State.fskFree
  dsimp only
  refine congrArg (List.find? _) (List.map_congr_left fun i hi => ?_)
  have hpos : 1 ≤ s.fskRange.length := by have := List.mem_range.1 hi; unfold State.fskRange; omega
  unfold State.fskPlace
  unfold State.fskRange at hpos ⊢
  rw [Nat.max_eq_right hpos]

theorem State.fskFree_first {i : Nat} (hi : i < s.fskRange.length) (hf : (s.win.ownAt (s.fskPlace i)).own = .free)
    (hn : ∀ j, j < i → (s.win.ownAt (s.fskPlace j)).own ≠ .free) :
    s.fskFree = some (s.fskPlace i, (s.fsk.ring + i + 1) % s.fskRange.length) := by
  rw [s.fskFree_eq, List.find?_eq_some_iff_getElem]
  refine ⟨by rw [beq_iff_eq]; exact hf, i, by simpa using hi, by simp, fun j hj => ?_⟩
  rw [List.getElem_map, List.getElem_range]
  simpa using hn j hj

theorem State.fskFree_none (h : ∀ b ∈ s.fskRange, (s.win.ownAt b).own ≠ .free) : s.fskFree = none := by
  rw [s.fskFree_eq, List.find?_eq_none]
  intro e he
  obtain ⟨i, hi, rfl⟩ := List.mem_map.1 he
  simpa using h _ (s.fskPlace_mem (List.mem_range.1 hi))

theorem fskOctet_opens {o : FskOctet} {i : Nat} (hb : s.fsk.buf = none) (hi : i < s.fskRange.length)
    (hf : (s.win.ownAt (s.fskPlace i)).own = .free) (hn : ∀ j, j < i → (s.win.ownAt (s.fskPlace j)).own ≠ .free) :
    let t := s.fskTake o
    s.Only [.fsk, .win, .obs] t ∧ s.CountersBut [.fskOctets] t ∧
      t.fsk = { s.fsk with
        buf := some (s.fskPlace i), octets := [(octetData o, octetStatus o)], stamp := o.start
        ring := (s.fsk.ring + i + 1) % s.fskRange.length, bufDrops := s.fsk.drops, drops := 0 } ∧
      t.win = { s.win with own := t.win.own } ∧
      t.win.ownAt (s.fskPlace i) = ⟨.device, (s.win.ownAt (s.fskPlace i)).gen + 1, 0x20⟩ ∧
      ∀ n, n ≠ s.fskPlace i → t.win.ownAt n = s.win.ownAt n := by
  obtain ⟨hob, hct⟩ := s.counted_octet
  have hfree : (s.count .fskOctets).fskFree = _ := State.fskFree_first (s := s.count .fskOctets) hi hf hn
  have hlt : s.fskPlace i < 64 := bufRange_lt (s.fskPlace_mem hi)
  have e : s.fskTake o = { (s.count .fskOctets).setOwner (s.fskPlace i) .device 0x20 with fsk := { s.fsk with
      buf := some (s.fskPlace i), octets := [(octetData o, octetStatus o)], stamp := o.start
      ring := (s.fsk.ring + i + 1) % s.fskRange.length, bufDrops := s.fsk.drops, drops := 0 } } := by
    rw [State.fskTake_none hb]
    unfold State.fskOpen
    rw [hfree]
    rfl
  rw [e]
  exact ⟨(hob.mono (by simp)).trans ⟨rfl, fun q hq => by cases q <;> first | rfl | simp at hq⟩, hct.to_obs rfl, rfl, rfl,
    Window.setOwner_self s.win _ _ hlt, fun n h => Window.setOwner_other s.win _ _ h⟩

theorem fskOctet_drops {o : FskOctet} (hb : s.fsk.buf = none) (h : ∀ b ∈ s.fskRange, (s.win.ownAt b).own ≠ .free) :
    s.Only [.fsk, .obs] (s.fskTake o) ∧ s.CountersBut [.fskOctets, .fskDrops] (s.fskTake o) ∧
      (s.fskTake o).fsk = { s.fsk with drops := min (s.fsk.drops + 1) 0xFFFFFFFF } := by
  obtain ⟨hob, hct⟩ := s.counted_octet
  have hfree : (s.count .fskOctets).fskFree = none := State.fskFree_none (s := s.count .fskOctets) h
  obtain ⟨u, hu⟩ : ∃ u : State, u = { s.count .fskOctets with fsk := { s.fsk with drops := min (s.fsk.drops + 1) 0xFFFFFFFF } } := ⟨_, rfl⟩
  have hou : s.Only [.fsk, .obs] u := by
    rw [hu]
    exact (hob.mono (by simp)).trans ⟨rfl, fun q hq => by cases q <;> first | rfl | simp at hq⟩
  have e : s.fskTake o = u.count .fskDrops := by
    rw [State.fskTake_none hb]
    unfold State.fskOpen
    rw [hfree, hu]
    rfl
  have hcu : s.CountersBut [.fskOctets] u := hct.to_obs (by rw [hu])
  rw [e]
  exact ⟨hou.trans ((u.setObs_only _).mono (by simp)), (hcu.mono (by simp)).trans ((u.countN_counters .fskDrops 1).mono (by simp)),
    by rw [hu]; rfl⟩

end

/-- Settles O51: octets are bits with parity, a start is one event, and a received octet meets an open, a FREE or no buffer. -/
theorem fskPassesAndReceivesOctets : Obligations.FskPassesAndReceivesOctets := by
  refine ⟨fun s p => ⟨fun h1 h2 h hw => fskPass_spec h1 h2 h hw, s.loopReq_fskPass⟩, fun s => ?_⟩
  intro put ended hands
  refine ⟨fun os since htx => ⟨fun hon hcd hse => fskTransmitStart_spec htx hon hcd hse, fun hup hcd hlate =>
      fskPassTimeout_spec htx hup hcd hlate⟩, fskFrame_spec, fskBits_spec, fun hon hcd => stepIf_of (by rw [hon, hcd]; rfl),
    fun hup hcd => ?_, fun o hon hcd hm hz => ?_⟩
  · obtain ⟨h1, h2⟩ := fskCarrierOff_spec hup hcd
    exact ⟨h1, fun b hb hlt hm _ ho => h2 b hb hlt hm ho⟩
  · intro d ones st range place more
    have hmore : s.fsk.joined o = more := by
      unfold Fsk.joined
      rw [octetStatus_eq]
      rfl
    have hst : octetStatus o = st := octetStatus_eq o
    have hex := exec_fskOctetReceive hon hcd hm hz
    refine ⟨fun k hb hl => ?_, fun k hb hl hlt hmem ho => ?_, fun hb i hi hf hn => ?_, fun hb h => ?_⟩
    · obtain ⟨h1, h2, h3⟩ := fskOctet_joins (o := o) hb hl
      exact ⟨_, hex, h1, h2, h3.trans hmore⟩
    · obtain ⟨h1, h2, h3⟩ := fskOctet_hands (o := o) hb hl hlt hmem ho
      rw [hmore] at h3
      exact ⟨_, hex, h1, h2, h3⟩
    · obtain ⟨h1, h2, h3, h4⟩ := fskOctet_opens (o := o) hb hi hf hn
      rw [hst] at h3
      exact ⟨_, hex, h1, h2, h3, h4⟩
    · obtain ⟨h1, h2, h3⟩ := fskOctet_drops (o := o) hb h
      exact ⟨_, hex, h1, h2, h3⟩

end Sys2Proof.Machine
end



section
/-! PROOFS. CMD and POLL frames and their sessions (10 R244, R245, R248, R249; 11 R287, R288). -/

namespace Sys2Proof.Machine

open Sys2Proof

set_option Elab.async false

section
variable {s t u v : State} {pt : Port} {f : Frame} {d n b : Nat}

/-! ## Sessions -/

theorem Fabric.setSess_setSess (f : Fabric) (n : Nat) (x y : Session) : (f.setSess n x).setSess n y = f.setSess n y := by
  unfold Fabric.setSess
  congr 1
  ext i hi
  by_cases h : n = i
  · subst h
    simp
  · simp [Vector.getElem_setIfInBounds_ne, h]

theorem Fabric.sess_fin (f : Fabric) (n : Fin 16) : f.sess n.val = f.sessions[n] := by
  simp [Fabric.sess, Vector.getD]

theorem Fabric.setSess_fin (f : Fabric) (n : Fin 16) (x : Session) : f.setSess n.val x = { f with sessions := f.sessions.set n.val x } := by
  unfold Fabric.setSess
  congr 1
  ext i hi
  rw [Vector.getElem_setIfInBounds, Vector.getElem_set]

theorem Fabric.sessOf_lt {f : Fabric} {a : BitVec 12} (h : f.sessOf a = some n) : n < 16 :=
  List.mem_range.1 (List.mem_of_find?_eq_some h)

/-- A buffer that a session may hold is set FREE. -/
def State.freeOpt (s : State) : Option Nat → State
  | none => s
  | some k => s.freeBuf k

theorem State.freeBuf_eq (s : State) (b : Nat) : ∃ own, s.freeBuf b = s.setWin { s.win with own := own } := by
  unfold State.freeBuf
  split_ifs
  · exact ⟨_, rfl⟩
  · exact ⟨s.win.own, rfl⟩

/-- What freeing changes is the ownership words', and follows from the window alone. -/
theorem State.freeOpt_eq (s : State) (b : Option Nat) : ∃ own, ∀ t : State, t.win = s.win →
    t.freeOpt b = t.setWin { s.win with own := own } := by
  cases b with
  | none => exact ⟨s.win.own, fun t h => by rw [← h]; rfl⟩
  | some k =>
    obtain ⟨own, ho⟩ := s.freeBuf_eq k
    refine ⟨own, fun t h => ?_⟩
    have hw := congrArg State.win ho
    have e (t : State) : t.freeBuf k = t.setWin (t.freeBuf k).win := by
      unfold State.freeBuf
      split_ifs <;> rfl
    have hf : (t.freeBuf k).win = (s.freeBuf k).win := by
      unfold State.freeBuf
      rw [h]
      split_ifs
      · unfold State.setOwner
        rw [State.setWin_win, State.setWin_win, h]
      · exact h
    exact (e t).trans (by rw [hf, hw]; rfl)

/-! ## A received frame -/

/-- Taking a frame marks it as handled and changes nothing else. -/
theorem State.takeFrame_eq {route : Bool} (h : s.takeFrame pt f route = some (u, d)) : s.portOn pt = true ∧ ∃ fab, u = s.setFab fab := by
  unfold State.takeFrame at h
  split at h
  · cases h
  next hc =>
    refine ⟨by simp at hc; exact hc.1, ?_⟩
    split at h
    · cases h
      exact ⟨s.fab, rfl⟩
    · split at h
      · cases h
        exact ⟨_, rfl⟩
      · cases h

theorem State.loopUp_of_portOn (h : s.portOn pt = true) : s.loopUp = true := by
  unfold State.portOn State.fabricOn at h
  simp only [Bool.and_eq_true] at h
  exact h.1.1

theorem State.onFrame_takes {typ : Nat → Bool} {act : State → Nat → State} (hty : typ f.typ.toNat = true) (hv : frameValid f = true)
    (ht : s.takeFrame pt f false = some (u, d)) : s.onFrame pt f typ act = .next (act u d) := by
  unfold State.onFrame
  rw [hty, ht, hv]
  rfl

/-! ## The relay of a CMD to MGMT (10 R244; 11 R287, R288) -/

theorem mkNotice_fields {b src : Nat} (hb : b < 64) (hs : src < 256) (len hint tag : Nat) :
    nbBuf (mkNotice b len src hint tag) = b ∧ nbSrc (mkNotice b len src hint tag) = src := by
  refine ⟨nbBuf_mkNotice hb .., ?_⟩
  unfold nbSrc mkNotice
  rw [BitVec.toNat_ofNat]
  omega

theorem State.relayBuf_lt (h : s.relayBuf = some b) : b < 64 ∧ (s.win.ownAt b).own = .free :=
  ⟨bufRange_lt (List.mem_of_find?_eq_some h), by simpa using List.find?_some h⟩

/-- The state with a CMD's bytes in its buffer, on the device's side. -/
def State.copied (s : State) (b : Nat) (bs : List Byte) : State :=
  if s.parityArmed .loop .mgmt then (s.setOwner b .device 0x20).setFaults s.relayFault
  else (s.setOwner b .device 0x20).setWin ((s.win.setOwner b .device 0x20).filled b bs)

theorem State.relay_copied (bs : List Byte) (h : b < 64) : (s.setOwner b .device 0x20).relayWrite b bs = s.copied b bs :=
  State.relayWrite_eq bs (by rw [State.setOwner, State.setWin_win, Window.setOwner_self _ _ _ h])

/-- The collector where the access to the buffer was armed. -/
def State.relayChecked (s t : State) : Prop := t.faults = if s.parityArmed .loop .mgmt then s.relayFault else s.faults

/-- What the copy of a CMD changes. -/
theorem State.copied_spec (bs : List Byte) (h : b < 64) : s.Only [.win, .faults] (s.copied b bs) ∧
    s.relayChecked (s.copied b bs) ∧ (s.copied b bs).win = { s.win with mem := (s.copied b bs).win.mem, own := (s.copied b bs).win.own } ∧
    (s.copied b bs).win.ownAt b = ⟨.device, (s.win.ownAt b).gen + 1, 0x20⟩ ∧
    ∀ k, k ≠ b → (s.copied b bs).win.ownAt k = s.win.ownAt k := by
  have h1 := Window.setOwner_self s.win .device 0x20 h
  have h2 (k : Nat) (hk : k ≠ b) := Window.setOwner_other s.win .device 0x20 hk
  unfold State.relayChecked State.copied
  cases s.parityArmed .loop .mgmt
  · exact ⟨⟨rfl, fun q hq => by cases q <;> first | rfl | simp at hq⟩, rfl, rfl, h1, h2⟩
  · exact ⟨⟨rfl, fun q hq => by cases q <;> first | rfl | simp at hq⟩, rfl, rfl, h1, h2⟩

theorem State.copied_mem (bs : List Byte) (hm : s.memoryOk) :
    (s.parityArmed .loop .mgmt = false → (s.copied b bs).bufRead b bs.length = bs) ∧
      ∀ a, s.parityArmed .loop .mgmt = true ∨ a < 256 * b ∨ 256 * b + bs.length ≤ a →
        cellRead (s.copied b bs).win.mem a = cellRead s.win.mem a := by
  unfold State.copied
  cases s.parityArmed .loop .mgmt
  · refine ⟨fun _ => cellsRead_cellsWrite _ _ hm, fun a ha => ?_⟩
    have ha' := ha.resolve_left Bool.false_ne_true
    show cellRead (cellsWrite s.win.mem (bufAddr b) bs) a = _
    rw [cellRead_cellsWrite _ _ _ hm, if_neg (by unfold bufAddr; omega)]
  · exact ⟨fun h => absurd h (by decide), fun _ _ => rfl⟩

/-- A CMD whose notice stands on MB2. -/
def State.PostsCmd (v t : State) (f : Frame) (b src : Nat) : Prop :=
  v.Only [.win, .fab, .faults, .obs] t ∧ v.OnlyTrace t ∧ v.relayChecked t ∧
    t.win = { v.win with
      mem := t.win.mem, own := t.win.own, mb := t.win.mb, crossSince := t.win.crossSince, crossRaised := t.win.crossRaised
      idb := t.win.idb } ∧
    (v.parityArmed .loop .mgmt = false → t.bufRead b f.payload.length = f.payload) ∧
    (∀ a, v.parityArmed .loop .mgmt = true ∨ a < 256 * b ∨ 256 * b + f.payload.length ≤ a →
      cellRead t.win.mem a = cellRead v.win.mem a) ∧
    t.win.ownAt b = ⟨.device, (v.win.ownAt b).gen + 1, 0x20⟩ ∧ (∀ k, k ≠ b → t.win.ownAt k = v.win.ownAt k) ∧
    (t.win.mbAt 2).notice = mkNotice b f.payload.length src (leAt f.payload 0 2) (leAt f.payload 2 1) ∧
    (t.win.mbAt 2).pending = true ∧ (∀ k, k ≠ 2 → t.win.mbAt k = v.win.mbAt k) ∧
    ∀ i, mbFrom 2 ≠ some i → mbTo 2 ≠ some i → t.win.idb.at i = v.win.idb.at i

/-- The copied CMD with its notice in the queue of MB2. -/
def State.queuedCmd (s : State) (f : Frame) (b src : Nat) : State :=
  (s.copied b f.payload).setFab { s.fab with
    mb2Wait := [(mkNotice b f.payload.length src (leAt f.payload 0 2) (leAt f.payload 2 1), f.src)] }

theorem State.relayCmd_eq {src : Nat} (hb : s.relayBuf = some b) (hw : s.fab.mb2Wait = []) :
    s.relayCmd f src = some (s.queuedCmd f b src).postMb2 := by
  have hlt := (State.relayBuf_lt hb).1
  have hf : (s.copied b f.payload).fab = s.fab := (State.copied_spec f.payload hlt).1.2 .fab (by simp)
  unfold State.relayCmd
  rw [hb]
  dsimp only
  rw [State.relay_copied _ hlt, hf, hw]
  rfl

theorem State.relayCmd_none {src : Nat} (hb : s.relayBuf = none) : s.relayCmd f src = none := by
  unfold State.relayCmd
  rw [hb]

/-- The copy with its notice taken from the queue again. -/
theorem State.queuedCmd_taken {src : Nat} (hw : s.fab.mb2Wait = []) (hlt : b < 64) :
    (s.queuedCmd f b src).setFab { (s.queuedCmd f b src).fab with mb2Wait := [] } = s.copied b f.payload := by
  have hf : (s.copied b f.payload).fab = s.fab := (State.copied_spec f.payload hlt).1.2 .fab (by simp)
  unfold State.queuedCmd State.setFab
  dsimp only
  rw [← hw, ← hf]

theorem State.upFlags_of (h : s.Only [.win, .faults] t) : t.loopUp = s.loopUp ∧ t.mgmtDown = s.mgmtDown := by
  have hi : t.isl = s.isl := h.2 .isl (by simp)
  have hr : t.ready = s.ready := h.2 .ready (by simp)
  have hc : t.clock = s.clock := h.2 .clock (by simp)
  unfold State.loopUp State.mgmtDown State.mgmtUp State.upAt
  rw [hi, hr, hc]
  exact ⟨rfl, rfl⟩

/-- A CMD that MB2 takes (10 R244). -/
theorem State.relayCmd_posts {src : Nat} (hs : src < 256) (hb : s.relayBuf = some b) (hw : s.fab.mb2Wait = [])
    (hup : s.loopUp = true) (hd : s.mgmtDown = false) (hp : (s.win.mbAt 2).pending = false) (hm : s.memoryOk) :
    ∃ t, s.relayCmd f src = some t ∧ s.PostsCmd t f b src ∧
      t.fab = if src = 0x90 then { s.fab with bcastFrom := f.src } else s.fab := by
  have hlt := (State.relayBuf_lt hb).1
  obtain ⟨hc1, hc2, hc3, hc4, hc5⟩ := State.copied_spec (s := s) f.payload hlt
  obtain ⟨hm1, hm2⟩ := State.copied_mem (s := s) (b := b) f.payload hm
  have hfab : (s.copied b f.payload).fab = s.fab := hc1.2 .fab (by simp)
  have hmb (k : Nat) : (s.copied b f.payload).win.mbAt k = s.win.mbAt k := by rw [hc3]; rfl
  obtain ⟨hu, hmd⟩ := State.upFlags_of hc1
  obtain ⟨hnb, hns⟩ := mkNotice_fields hlt hs f.payload.length (leAt f.payload 0 2) (leAt f.payload 2 1)
  have htk := State.queuedCmd_taken (s := s) (f := f) (src := src) hw hlt
  have hidb : (s.copied b f.payload).win.idb = s.win.idb := by rw [hc3]
  generalize hww : mkNotice b f.payload.length src (leAt f.payload 0 2) (leAt f.payload 2 1) = w at hns
  generalize hcc : s.copied b f.payload = c at *
  obtain ⟨e, he⟩ : ∃ e : State, e = if src = 0x90 then c.setFab { c.fab with bcastFrom := f.src } else c := ⟨_, rfl⟩
  have hpost : (s.queuedCmd f b src).postMb2 = e.postMb 2 w false := by
    have hq : (s.queuedCmd f b src).fab.mb2Wait = [(w, f.src)] := by rw [← hww]; rfl
    have hloop : (s.queuedCmd f b src).loopUp = true := by
      unfold State.queuedCmd
      rw [hcc]
      exact hu.trans hup
    have hdown : (s.queuedCmd f b src).mgmtDown = false := by
      unfold State.queuedCmd
      rw [hcc]
      exact hmd.trans hd
    have hpend : ((s.queuedCmd f b src).win.mbAt 2).pending = false := by
      unfold State.queuedCmd
      rw [hcc]
      exact (congrArg Mailbox.pending (hmb 2)).trans hp
    unfold State.postMb2
    rw [hq]
    dsimp only
    rw [hloop, hdown, hpend, hns, htk, he]
    rfl
  have hew : e.win = c.win := by rw [he]; split <;> rfl
  have hef : e.fab = if src = 0x90 then { s.fab with bcastFrom := f.src } else s.fab := by
    rw [he, ← hfab]
    split <;> rfl
  have heo : c.Only [.fab] e := by
    rw [he]
    split
    · exact c.setFab_only _
    · exact .refl _ c
  obtain ⟨o, hpe, htr⟩ := e.postMb_eq 2 w false .packet
  obtain ⟨h1, h2, -, h4⟩ := e.postedWin_fields w false .packet (show 2 < 8 by omega)
  have hrest := e.postedWin_rest 2 w false .packet
  have hobs : e.obs = s.obs := (heo.2 .obs (by simp)).trans (hc1.2 .obs (by simp))
  refine ⟨_, State.relayCmd_eq hb hw, ?_⟩
  rw [hpost, hpe]
  have hp1 : (e.postedMb 2 w false .packet).notice = w ∧ (e.postedMb 2 w false .packet).pending = true := ⟨rfl, rfl⟩
  generalize e.postedWin 2 w false .packet = x at *
  have hxm : x.mem = c.win.mem := by rw [hrest, hew]
  have hxo (k : Nat) : x.ownAt k = c.win.ownAt k := by rw [hrest, hew]; rfl
  refine ⟨⟨?_, ?_, (heo.2 .faults (by simp)).trans hc2, ?_, fun h => ?_, fun a ha => ?_, (hxo b).trans hc4,
    fun k hk => (hxo k).trans (hc5 k hk), ?_, ?_, fun k hk => ?_, fun i hf ht => ?_⟩, hef⟩
  · exact (((hc1.mono (by simp)).trans (heo.mono (by simp))).trans ((e.setWin_only x).mono (by simp))).trans
      (((e.setWin x).setObs_only o).mono (by simp))
  · exact (htr.of_obs hobs).to_obs rfl
  · show x = _
    rw [hrest, hew, hc3]
    rfl
  · show cellsRead x.mem _ _ = _
    rw [hxm]
    exact hm1 h
  · show cellRead x.mem a = _
    rw [hxm]
    exact hm2 a ha
  · exact (congrArg Mailbox.notice h1).trans (hp1.1.trans hww.symm)
  · exact (congrArg Mailbox.pending h1).trans hp1.2
  · exact (h2 k hk).trans (by rw [hew]; exact hmb k)
  · exact (h4 i hf ht).trans (by rw [hew, hidb])

/-- A session whose command could not be posted (11 R288). -/
def Session.failed (y : Session) (n : Nat) : Session := { y with
  running := false, seq := (y.before.getD (none, none, 0)).1, cur := (y.before.getD (none, none, 0)).2.1
  curAt := (y.before.getD (none, none, 0)).2.2, before := none
  due := y.due.map fun d => { d with fixed := some (replyBytes y.op y.tag.toNat stIslandDown (0x80 + n) 0 false []) } }

theorem sessionOf_mk (h : n < 16) : sessionOf (BitVec.ofNat 8 (0x80 + n)) = some n := by
  unfold sessionOf
  rw [BitVec.toNat_ofNat, Nat.mod_eq_of_lt (by omega), if_pos ⟨by omega, by omega⟩, Nat.add_sub_cancel_left]

/-- A CMD whose post fails (11 R288). -/
theorem State.relayCmd_fails (hn : n < 16) (hb : s.relayBuf = some b) (hw : s.fab.mb2Wait = []) (hup : s.loopUp = true)
    (hd : s.mgmtDown = true) : ∃ t, s.relayCmd f (0x80 + n) = some t ∧ s.Only [.win, .fab, .faults] t ∧ s.relayChecked t ∧
      t.win.ownAt b = ⟨.free, (s.win.ownAt b).gen + 2, 0x20⟩ ∧ (∀ k, k ≠ b → t.win.ownAt k = s.win.ownAt k) ∧
      t.win = { s.win with mem := t.win.mem, own := t.win.own } ∧ t.fab = s.fab.setSess n ((s.fab.sess n).failed n) := by
  have hlt := (State.relayBuf_lt hb).1
  obtain ⟨hc1, hc2, hc3, hc4, hc5⟩ := State.copied_spec (s := s) f.payload hlt
  have hfab : (s.copied b f.payload).fab = s.fab := hc1.2 .fab (by simp)
  obtain ⟨hu, hmd⟩ := State.upFlags_of hc1
  obtain ⟨hnb, hns⟩ := mkNotice_fields (src := 0x80 + n) hlt (by omega) f.payload.length (leAt f.payload 0 2) (leAt f.payload 2 1)
  have htk := State.queuedCmd_taken (s := s) (f := f) (src := 0x80 + n) hw hlt
  generalize hww : mkNotice b f.payload.length (0x80 + n) (leAt f.payload 0 2) (leAt f.payload 2 1) = w at hns hnb
  generalize hcc : s.copied b f.payload = c at *
  have hfree : c.freeBuf b = c.setOwner b .free 0x20 := if_pos (by rw [hc4])
  have hpost : (s.queuedCmd f b (0x80 + n)).postMb2 =
      (c.setOwner b .free 0x20).setFab (s.fab.setSess n ((s.fab.sess n).failed n)) := by
    have hq : (s.queuedCmd f b (0x80 + n)).fab.mb2Wait = [(w, f.src)] := by rw [← hww]; rfl
    have hloop : (s.queuedCmd f b (0x80 + n)).loopUp = true := by
      unfold State.queuedCmd
      rw [hcc]
      exact hu.trans hup
    have hdown : (s.queuedCmd f b (0x80 + n)).mgmtDown = true := by
      unfold State.queuedCmd
      rw [hcc]
      exact hmd.trans hd
    have hf' : (c.setOwner b .free 0x20).fab = s.fab := hfab
    unfold State.postMb2
    rw [hq]
    dsimp only
    rw [hloop, hdown, htk]
    unfold State.postFailed
    rw [hns, hnb, hfree, sessionOf_mk hn]
    dsimp only
    rw [hf']
    rfl
  refine ⟨_, State.relayCmd_eq hb hw, ?_⟩
  rw [hpost]
  refine ⟨((hc1.mono (by simp)).trans ((c.setWin_only _).mono (by simp))).trans ((State.setFab_only _ _).mono (by simp)), hc2, ?_,
    fun k hk => (Window.setOwner_other c.win _ _ hk).trans (hc5 k hk), ?_, rfl⟩
  · refine (Window.setOwner_self c.win .free 0x20 hlt).trans ?_
    rw [hc4]
    congr 1
    exact BitVec.add_assoc _ 1 1
  · show c.win.setOwner b .free 0x20 = _
    rw [hc3]
    rfl

/-! ## A CMD in its session (10 R249) -/

/-- The state with a session of its own. -/
def State.gives (s : State) (n : Nat) (x : Session) : State := s.setFab (s.fab.setSess n x)

theorem State.gives_gives (s : State) (n : Nat) (x y : Session) : (s.gives n x).gives n y = s.gives n y := by
  unfold State.gives
  rw [State.setFab_fab, Fabric.setSess_setSess]
  rfl

/-- The reply of a frame is due at its turnaround. -/
def frameDue (f : Frame) (pt : Port) (d : Nat) (poll : Bool) (fixed : Option (List Byte)) : Due := ⟨d + 1000, f.seq, pt, poll, fixed⟩

/-- A session whose new command is under way. -/
def Session.taken (x : Session) (f : Frame) (pt : Port) (d now : Nat) : Session := { x with
  last := now, before := some (x.seq, x.cur, x.curAt), seq := some f.seq, running := true, cur := none, op := leAt f.payload 0 2
  tag := byteAt f.payload 2, due := some (frameDue f pt d false none), buf := none }

/-- A CMD in a session that does not run it: a repeat, a CMD while one runs, or one that finds no buffer. -/
theorem State.sessionCmd_answers {x : Session} (hx : s.fab.sess n = x) :
    (x.seq = some f.seq → s.sessionCmd pt d f n = s.gives n { x with due := some (frameDue f pt d true none) }) ∧
      (x.seq ≠ some f.seq → x.running = true → s.sessionCmd pt d f n = s.gives n { x with
        due := some (frameDue f pt d false (some (replyBytes (leAt f.payload 0 2) (byteAt f.payload 2).toNat stBusy (0x80 + n) 0 false []))) }) := by
  subst hx
  refine ⟨fun h => ?_, fun h hr => ?_⟩
  · unfold State.sessionCmd
    dsimp only
    rw [if_pos h]
    rfl
  · unfold State.sessionCmd
    dsimp only
    rw [if_neg h, if_pos hr]
    rfl

/-- A CMD in a session that takes it, up to its relay. -/
theorem State.sessionCmd_relays {x : Session} {own : Vector OwnWord 64} (hx : s.fab.sess n = x) (hseq : x.seq ≠ some f.seq)
    (hr : x.running = false) (ho : s.freeOpt x.buf = s.setWin { s.win with own := own }) : s.sessionCmd pt d f n =
      (((s.setWin { s.win with own := own }).gives n { x with
        before := some (x.seq, x.cur, x.curAt), seq := some f.seq, running := true, cur := none, op := leAt f.payload 0 2
        tag := byteAt f.payload 2, due := some (frameDue f pt d false none), buf := none }).relayCmd f (0x80 + n)).getD (s.count .fabRxfull) := by
  subst hx
  unfold State.sessionCmd
  dsimp only
  rw [if_neg hseq, if_neg (by rw [hr]; decide), ← ho]
  unfold frameDue
  generalize (s.fab.sess n).buf = bo
  cases bo with
  | none =>
    show _ = Option.getD ((s.setFab (s.fab.setSess n _)).relayCmd f (0x80 + n)) _
    generalize State.relayCmd _ f (0x80 + n) = r
    cases r <;> rfl
  | some k =>
    show _ = Option.getD (((s.freeBuf k).setFab ((s.freeBuf k).fab.setSess n _)).relayCmd f (0x80 + n)) _
    generalize State.relayCmd _ f (0x80 + n) = r
    cases r <;> rfl

theorem State.PostsCmd.of_setFab {src : Nat} {fab : Fabric} (h : (v.setFab fab).PostsCmd t f b src) : v.PostsCmd t f b src := by
  obtain ⟨h1, h2, h⟩ := h
  exact ⟨((v.setFab_only fab).mono (by simp)).trans h1, h2.of_obs rfl, h⟩

/-! ## A CMD frame -/

/-- The frame is not a FAB_ASSIGN that gives the device's address to another. -/
def State.NoClash (s : State) (f : Frame) : Prop := ∀ v a, assignOf f = some (v, a) → s.assignClash v a = false

theorem State.cmdFrame_of (h : u.NoClash f) :
    (u.cmdConsumed f = .no → u.cmdFrame pt d f = u) ∧
      (u.cmdConsumed f = .broadcast → u.cmdFrame pt d f = (u.relayCmd f 0x90).getD (u.count .fabRxfull)) ∧
      ∀ n, u.cmdConsumed f = .session → u.fab.sessOf f.src = some n →
        u.cmdFrame pt d f = (u.gives n { u.fab.sess n with last := u.now }).sessionCmd pt d f n := by
  have e : u.cmdFrame pt d f = (match u.cmdConsumed f with
      | .no => u
      | .broadcast => (u.relayCmd f 0x90).getD (u.count .fabRxfull)
      | .session => match u.openSession f.src true with
        | (t, some n) => t.sessionCmd pt d f n
        | (t, none) => (t.count .sessBusy).looseReply pt d f stBusy) := by
    unfold State.cmdFrame
    cases ha : assignOf f with
    | none => rfl
    | some p =>
      dsimp only
      rw [h p.1 p.2 ha]
      rfl
  refine ⟨fun hc => ?_, fun hc => ?_, fun n hc hn => ?_⟩
  · rw [e, hc]
  · rw [e, hc]
  · rw [e, hc]
    dsimp only
    unfold State.openSession
    rw [hn]
    rfl

/-- A CMD that its session takes, at its relay (10 R249). -/
theorem State.cmdFrame_relays {x : Session} (h : u.NoClash f) (hc : u.cmdConsumed f = .session) (hn : u.fab.sessOf f.src = some n)
    (hx : u.fab.sess n = x) (hseq : x.seq ≠ some f.seq) (hr : x.running = false) : ∃ own,
      u.freeOpt x.buf = u.setWin { u.win with own := own } ∧
      u.cmdFrame pt d f = (((u.setWin { u.win with own := own }).gives n (x.taken f pt d u.now)).relayCmd f (0x80 + n)).getD
        ((u.gives n { x with last := u.now }).count .fabRxfull) := by
  obtain ⟨own, ho⟩ := u.freeOpt_eq x.buf
  refine ⟨own, ho u rfl, ?_⟩
  rw [((State.cmdFrame_of h).2.2 n hc hn), hx]
  have hself : (u.gives n { x with last := u.now }).fab.sess n = { x with last := u.now } :=
    Fabric.setSess_self _ _ (Fabric.sessOf_lt hn)
  rw [State.sessionCmd_relays hself hseq hr (ho _ rfl)]
  have hg (y : Session) : ((u.gives n { x with last := u.now }).setWin { u.win with own := own }).gives n y =
      (u.setWin { u.win with own := own }).gives n y := by
    unfold State.gives
    exact congrArg (u.setWin { u.win with own := own }).setFab (Fabric.setSess_setSess ..)
  show Option.getD ((((u.gives n { x with last := u.now }).setWin { u.win with own := own }).gives n _).relayCmd f (0x80 + n)) _ = _
  rw [hg]
  rfl

/-- A CMD in a session, where it reaches MB2, where it finds MGMT down, and where it finds no buffer. -/
theorem State.cmdFrame_session {x : Session} (h : u.NoClash f) (hc : u.cmdConsumed f = .session) (hn : u.fab.sessOf f.src = some n)
    (hx : u.fab.sess n = x) (hseq : x.seq ≠ some f.seq) (hr : x.running = false) (hup : u.loopUp = true) (hv : v = u.freeOpt x.buf) :
    (∃ own, v = u.setWin { u.win with own := own }) ∧
    (v.relayBuf = none → u.cmdFrame pt d f = (u.gives n { x with last := u.now }).count .fabRxfull) ∧
    ∀ b, v.relayBuf = some b → u.fab.mb2Wait = [] →
      (u.mgmtDown = false → (u.win.mbAt 2).pending = false → u.memoryOk → v.PostsCmd (u.cmdFrame pt d f) f b (0x80 + n) ∧
        (u.cmdFrame pt d f).fab = u.fab.setSess n (x.taken f pt d u.now)) ∧
      (u.mgmtDown = true → u.Only [.win, .fab, .faults] (u.cmdFrame pt d f) ∧ u.relayChecked (u.cmdFrame pt d f) ∧
        (u.cmdFrame pt d f).win.ownAt b = ⟨.free, (v.win.ownAt b).gen + 2, 0x20⟩ ∧
        (∀ k, k ≠ b → (u.cmdFrame pt d f).win.ownAt k = v.win.ownAt k) ∧
        (u.cmdFrame pt d f).win = { u.win with mem := (u.cmdFrame pt d f).win.mem, own := (u.cmdFrame pt d f).win.own } ∧
        (u.cmdFrame pt d f).fab = u.fab.setSess n ((x.taken f pt d u.now).failed n)) := by
  obtain ⟨own, ho, he⟩ := State.cmdFrame_relays (pt := pt) (d := d) h hc hn hx hseq hr
  have hlt := Fabric.sessOf_lt hn
  rw [ho] at hv
  subst hv
  refine ⟨⟨own, rfl⟩, fun hb => ?_, fun b hb hw => ⟨fun hd hp hm => ?_, fun hd => ?_⟩⟩
  · rw [he, State.relayCmd_none (s := (u.setWin { u.win with own := own }).gives n (x.taken f pt d u.now)) hb]
    rfl
  · obtain ⟨t, ht, hpost, hfab⟩ := State.relayCmd_posts (f := f) (src := 0x80 + n)
      (s := (u.setWin { u.win with own := own }).gives n (x.taken f pt d u.now)) (by omega) hb hw hup hd hp hm
    rw [he, ht]
    exact ⟨hpost.of_setFab, hfab.trans (if_neg (by omega))⟩
  · obtain ⟨t, ht, h1, h2, h3, h4, h5, h6⟩ := State.relayCmd_fails (f := f)
      (s := (u.setWin { u.win with own := own }).gives n (x.taken f pt d u.now)) hlt hb hw hup hd
    rw [he, ht]
    have hs : ((u.setWin { u.win with own := own }).gives n (x.taken f pt d u.now)).fab.sess n = x.taken f pt d u.now :=
      Fabric.setSess_self _ _ hlt
    rw [hs] at h6
    refine ⟨?_, h2, h3, h4, h5, h6.trans (Fabric.setSess_setSess ..)⟩
    exact (((u.setWin_only _).mono (by simp)).trans ((State.setFab_only _ _).mono (by simp))).trans h1

/-! ## A POLL frame -/

theorem State.pollFrame_ignored (h : f.dest ≠ u.ownAddr ∨ nodeOf f.dest = 0 ∨ nodeOf f.dest = 63 ∨ u.fab.dup = true) (ht : f.typ = 2) :
    u.pollFrame pt d f = u := by
  refine if_pos ?_
  by_cases h0 : nodeOf f.dest = 0
  · exact .inr (.inl h0)
  by_cases h63 : nodeOf f.dest = 63
  · exact .inr (.inr h63)
  refine .inl ?_
  have h' : f.dest ≠ u.ownAddr ∨ u.fab.dup = true := by
    rcases h with h | h | h | h
    · exact .inl h
    · exact absurd h h0
    · exact absurd h h63
    · exact .inr h
  unfold State.consumes State.toAll
  rcases h' with h | h
  · simp [h, h0, h63]
  · simp [h, ht]

theorem State.pollFrame_taken (ht : f.typ = 2) (hd : f.dest = u.ownAddr) (h0 : nodeOf f.dest ≠ 0) (h63 : nodeOf f.dest ≠ 63)
    (hu : u.fab.dup = false) : (∀ n, (u.openSession f.src true).2 = some n →
      u.pollFrame pt d f = (u.openSession f.src true).1.setDue n (frameDue f pt d true none)) ∧
    ((u.openSession f.src true).2 = none →
      u.pollFrame pt d f = ((u.openSession f.src true).1.count .sessBusy).looseReply pt d f stBusy) := by
  have hc : ¬ ((!u.consumes f) = true ∨ nodeOf f.dest = 0 ∨ nodeOf f.dest = 63) := by
    have : u.consumes f = true := by simp [State.consumes, hd, hu, ht, hostType]
    simp [this, h0, h63]
  generalize ho : u.openSession f.src true = r
  obtain ⟨t, o⟩ := r
  refine ⟨fun n hn => (if_neg hc).trans ?_, fun hn => (if_neg hc).trans ?_⟩
  · cases hn
    rw [ho]
    rfl
  · cases hn
    rw [ho]

/-- A POLL asks for its session's current reply. -/
theorem State.pollFrame_asks (ht : f.typ = 2) (hd : f.dest = u.ownAddr) (h0 : nodeOf f.dest ≠ 0) (h63 : nodeOf f.dest ≠ 63)
    (hu : u.fab.dup = false) (hn : u.fab.sessOf f.src = some n) : u.pollFrame pt d f =
      u.gives n { u.fab.sess n with last := u.now, due := some (frameDue f pt d true none) } := by
  have ho : u.openSession f.src true = (u.gives n { u.fab.sess n with last := u.now }, some n) := by
    unfold State.openSession
    rw [hn]
    rfl
  rw [(State.pollFrame_taken ht hd h0 h63 hu).1 n (by rw [ho]), ho]
  unfold State.setDue
  have hs : (u.gives n { u.fab.sess n with last := u.now }).fab.sess n = { u.fab.sess n with last := u.now } :=
    Fabric.setSess_self _ _ (Fabric.sessOf_lt hn)
  rw [hs]
  exact State.gives_gives ..

/-- A session that a frame opens, with the reply that a POLL asks for. -/
def Session.fresh (a : BitVec 12) (now : Nat) : Session := { Session.reset with opened := true, addr := a, last := now }

def Session.polled (f : Frame) (pt : Port) (d now : Nat) : Session := { Session.fresh f.src now with
  due := some (frameDue f pt d true none) }

/-- A POLL from a new address that gets a session. -/
theorem State.pollFrame_opens (ht : f.typ = 2) (hd : f.dest = u.ownAddr) (h0 : nodeOf f.dest ≠ 0) (h63 : nodeOf f.dest ≠ 63)
    (hu : u.fab.dup = false) (hlt : n < 16)
    (ho : u.openSession f.src true = (t.setFab (t.fab.setSess n (Session.fresh f.src u.now)), some n)) :
    u.pollFrame pt d f = t.setFab (t.fab.setSess n (Session.polled f pt d u.now)) := by
  rw [(State.pollFrame_taken ht hd h0 h63 hu).1 n (by rw [ho]), ho]
  unfold State.setDue
  have hs : (t.setFab (t.fab.setSess n (Session.fresh f.src u.now))).fab.sess n = Session.fresh f.src u.now :=
    Fabric.setSess_self _ _ hlt
  rw [hs]
  exact State.gives_gives ..

/-- The first place of the table that is free. -/
theorem Fabric.firstFree {g : Fabric} {n : Fin 16} (hn : g.sessions[n].opened = false)
    (hm : ∀ m : Fin 16, m < n → g.sessions[m].opened = true) : (List.range 16).find? (fun n => !(g.sess n).opened) = some n.val := by
  rw [List.find?_range_eq_some]
  refine ⟨by rw [g.sess_fin, hn]; rfl, List.mem_range.2 n.isLt, fun j hj => ?_⟩
  have := hm ⟨j, by omega⟩ hj
  rw [← g.sess_fin] at this
  simpa using this

theorem Fabric.noneFree {g : Fabric} (h : ∀ m : Fin 16, g.sessions[m].opened = true) :
    (List.range 16).find? (fun n => !(g.sess n).opened) = none := by
  rw [List.find?_eq_none]
  intro j hj
  have := h ⟨j, List.mem_range.1 hj⟩
  rw [← g.sess_fin] at this
  simpa using this

/-- The session used less recently of two, as the eviction compares them. -/
def Fabric.older (g : Fabric) : Option Nat → Nat → Option Nat
  | none, n => some n
  | some b, n => if (g.sess n).last < (g.sess b).last then some n else some b

theorem Fabric.evictable_eq (g : Fabric) (now : Nat) : g.evictable now =
    ((List.range 16).filter fun n => !(g.sess n).running && decide (500000 ≤ now - (g.sess n).last)).foldl g.older none := by
  unfold Fabric.evictable
  refine congrArg (fun h => List.foldl h none _) (funext fun b => funext fun n => ?_)
  cases b <;> rfl

/-- A strict minimum that the list holds, or that stands already, comes out. -/
theorem Fabric.foldl_older {g : Fabric} {n : Nat} (l : List Nat) (best : Option Nat) (hl : n ∈ l ∨ best = some n)
    (hb : ∀ b, best = some b → b ≠ n → (g.sess n).last < (g.sess b).last)
    (hm : ∀ m ∈ l, m ≠ n → (g.sess n).last < (g.sess m).last) : l.foldl g.older best = some n := by
  induction l generalizing best with
  | nil => exact hl.resolve_left (by simp)
  | cons a l ih =>
    have ha := hm a List.mem_cons_self
    have htail : ∀ m ∈ l, m ≠ n → (g.sess n).last < (g.sess m).last := fun m h => hm m (List.mem_cons_of_mem _ h)
    have takesA : (n ∈ l ∨ some a = some n) ∧ (∀ b, some a = some b → b ≠ n → (g.sess n).last < (g.sess b).last) ∨ n ≠ a ∧ n ∉ l := by
      by_cases h : n ∈ l ∨ n = a
      · refine .inl ⟨h.imp id fun e => by rw [e], fun b e hne => ?_⟩
        cases e
        exact ha hne
      · exact .inr ⟨fun e => h (.inr e), fun e => h (.inl e)⟩
    rw [List.foldl_cons]
    cases best with
    | none =>
      have hmem : n = a ∨ n ∈ l := List.mem_cons.1 (hl.resolve_right (by simp))
      obtain ⟨h1, h2⟩ := takesA.resolve_right fun h => hmem.elim h.1 h.2
      exact ih _ h1 h2 htail
    | some b =>
      show l.foldl g.older (if (g.sess a).last < (g.sess b).last then some a else some b) = some n
      split_ifs with hab
      · refine (takesA.elim (fun h => ih _ h.1 h.2 htail) fun h => ?_)
        have hbn : b = n := by
          rcases hl with hl | hl
          · exact absurd (List.mem_cons.1 hl) fun e => e.elim h.1 h.2
          · simpa using hl
        have := ha fun e => h.1 e.symm
        rw [hbn] at hab
        omega
      · refine ih _ ?_ hb htail
        by_cases hbn : b = n
        · exact .inr (by rw [hbn])
        · have hlt := hb b rfl hbn
          refine .inl ((List.mem_cons.1 (hl.resolve_right fun e => hbn (by simpa using e))).resolve_left fun e => ?_)
          rw [e] at hlt
          exact hab hlt

/-- The session that is evicted. -/
theorem Fabric.evicts {g : Fabric} {now : Nat} {n : Fin 16} (hr : g.sessions[n].running = false) (hi : 500000 ≤ now - g.sessions[n].last)
    (hm : ∀ m : Fin 16, m ≠ n → g.sessions[m].running = false → g.sessions[n].last < g.sessions[m].last) :
    g.evictable now = some n.val := by
  rw [g.evictable_eq]
  refine Fabric.foldl_older _ _ (.inl (List.mem_filter.2 ⟨List.mem_range.2 n.isLt, ?_⟩)) (fun b h => nomatch h) fun m hmem hne => ?_
  · rw [g.sess_fin, hr, decide_eq_true hi]
    rfl
  · obtain ⟨hlt, hp⟩ := List.mem_filter.1 hmem
    have hlt' := List.mem_range.1 hlt
    have h := hm ⟨m, hlt'⟩ (fun e => hne (congrArg Fin.val e))
    rw [← g.sess_fin, ← g.sess_fin] at h
    refine h ?_
    simp only [Bool.and_eq_true, Bool.not_eq_true'] at hp
    exact hp.1

theorem Fabric.evicts_none {g : Fabric} {now : Nat}
    (h : ∀ m : Fin 16, g.sessions[m].running = true ∨ now - g.sessions[m].last < 500000) : g.evictable now = none := by
  have hf : ((List.range 16).filter fun n => !(g.sess n).running && decide (500000 ≤ now - (g.sess n).last)) = [] := by
    rw [List.filter_eq_nil_iff]
    intro m hm
    have hx := h ⟨m, List.mem_range.1 hm⟩
    rw [← g.sess_fin] at hx
    rcases hx with hx | hx
    · simp [show (g.sess m).running = true from hx]
    · simp [show ¬ 500000 ≤ now - (g.sess m).last from Nat.not_le.2 hx]
  rw [g.evictable_eq, hf]
  rfl

theorem State.openSession_free {m : Nat} (hn : u.fab.sessOf f.src = none)
    (hf : (List.range 16).find? (fun n => !(u.fab.sess n).opened) = some m) :
    u.openSession f.src true = (u.setFab (u.fab.setSess m (Session.fresh f.src u.now)), some m) := by
  unfold State.openSession
  rw [hn]
  dsimp only
  rw [hf]
  rfl

theorem State.openSession_full (hn : u.fab.sessOf f.src = none) (hf : (List.range 16).find? (fun n => !(u.fab.sess n).opened) = none) :
    (∀ m, u.fab.evictable u.now = some m → u.openSession f.src true =
      ((u.closeSession m).setFab ((u.closeSession m).fab.setSess m (Session.fresh f.src (u.closeSession m).now)), some m)) ∧
      (u.fab.evictable u.now = none → u.openSession f.src true = (u, none)) := by
  refine ⟨fun m h => ?_, fun h => ?_⟩
  · unfold State.openSession
    rw [hn]
    dsimp only
    rw [hf]
    dsimp only
    rw [h]
    rfl
  · unfold State.openSession
    rw [hn]
    dsimp only
    rw [hf]
    dsimp only
    rw [h]

/-- What the close of a session changes. -/
theorem State.closeSession_spec (s : State) (n : Nat) : s.Only [.win, .mgmt, .fab] (s.closeSession n) ∧
    (s.closeSession n).fab = s.fab.setSess n Session.reset ∧ (s.closeSession n).mgmt = { s.mgmt with
      assemblies := s.mgmt.assemblies.filter fun a => a.src ≠ BitVec.ofNat 8 (0x80 + n)
      kept := s.mgmt.kept.filter fun k => k.src ≠ BitVec.ofNat 8 (0x80 + n) } := by
  obtain ⟨own, ho⟩ := s.freeOpt_eq (s.fab.sess n).buf
  obtain ⟨t, ht, he⟩ : ∃ t : State, t = s.setWin { s.win with own := own } ∧ s.closeSession n =
      (t.setMgmt { t.mgmt with
        assemblies := t.mgmt.assemblies.filter fun a => a.src ≠ BitVec.ofNat 8 (0x80 + n)
        kept := t.mgmt.kept.filter fun k => k.src ≠ BitVec.ofNat 8 (0x80 + n) }).setFab (t.fab.setSess n Session.reset) := by
    refine ⟨_, ho s rfl, ?_⟩
    unfold State.closeSession
    generalize (s.fab.sess n).buf = bo
    cases bo <;> rfl
  rw [he, ht]
  exact ⟨(((s.setWin_only _).mono (by simp)).trans ((State.setMgmt_only _ _).mono (by simp))).trans
    ((State.setFab_only _ _).mono (by simp)), rfl, rfl⟩

/-- A POLL from a new address, where a place of the table is free, where one is evicted, and where none is. -/
theorem State.pollFrame_fresh {m : Fin 16} (ht : f.typ = 2) (hd : f.dest = u.ownAddr) (h0 : nodeOf f.dest ≠ 0)
    (h63 : nodeOf f.dest ≠ 63) (hu : u.fab.dup = false) (hn : u.fab.sessOf f.src = none)
    (hf : u.fab.sessions[m].opened = false) (hm : ∀ j : Fin 16, j < m → u.fab.sessions[j].opened = true) :
    u.pollFrame pt d f = u.setFab { u.fab with sessions := u.fab.sessions.set m.val (Session.polled f pt d u.now) } := by
  rw [State.pollFrame_opens ht hd h0 h63 hu m.isLt (State.openSession_free hn (Fabric.firstFree hf hm)), Fabric.setSess_fin]

theorem State.pollFrame_evicts {m : Fin 16} (ht : f.typ = 2) (hd : f.dest = u.ownAddr) (h0 : nodeOf f.dest ≠ 0)
    (h63 : nodeOf f.dest ≠ 63) (hu : u.fab.dup = false) (hn : u.fab.sessOf f.src = none)
    (hall : ∀ j : Fin 16, u.fab.sessions[j].opened = true) (he : u.fab.evictable u.now = some m.val) :
    let t := u.pollFrame pt d f
    u.Only [.win, .mgmt, .fab] t ∧ t.fab = { u.fab with sessions := u.fab.sessions.set m.val (Session.polled f pt d u.now) } ∧
      t.mgmt = { u.mgmt with
        assemblies := u.mgmt.assemblies.filter fun a => a.src ≠ BitVec.ofNat 8 (0x80 + m.val)
        kept := u.mgmt.kept.filter fun k => k.src ≠ BitVec.ofNat 8 (0x80 + m.val) } := by
  intro t
  obtain ⟨h1, h2, h3⟩ := u.closeSession_spec m.val
  have hnow : (u.closeSession m.val).now = u.now := congrArg Clock.tick (h1.2 .clock (by simp))
  have ho := (State.openSession_full hn (Fabric.noneFree hall)).1 m.val he
  rw [hnow] at ho
  have e : t = _ := State.pollFrame_opens (pt := pt) (d := d) ht hd h0 h63 hu m.isLt ho
  rw [h2, Fabric.setSess_setSess, Fabric.setSess_fin] at e
  rw [e]
  exact ⟨h1.trans ((State.setFab_only _ _).mono (by simp)), rfl, h3⟩

theorem State.pollFrame_busy (ht : f.typ = 2) (hd : f.dest = u.ownAddr) (h0 : nodeOf f.dest ≠ 0)
    (h63 : nodeOf f.dest ≠ 63) (hu : u.fab.dup = false) (hn : u.fab.sessOf f.src = none)
    (hall : ∀ j : Fin 16, u.fab.sessions[j].opened = true) (he : u.fab.evictable u.now = none) :
    let t := u.pollFrame pt d f
    ∃ r : Byte, u.Only [.free, .ports, .obs] t ∧ u.CountersBut [.sessBusy] t ∧
      t.ports = u.ports.put pt { u.port pt with txReq := (u.port pt).txReq ++
        [⟨u.mkFrame f.src 4 f.seq (replyBytes 0 0 stBusy r.toNat 0 false []) u.txMode, max (d + 1000) (u.now + 200), 4, none, none⟩] } := by
  intro t
  have ho := (State.openSession_full hn (Fabric.noneFree hall)).2 he
  have e : t = (u.count .sessBusy).looseReply pt d f stBusy :=
    ((State.pollFrame_taken (pt := pt) (d := d) ht hd h0 h63 hu).2 (by rw [ho])).trans (by rw [ho])
  have hl : (u.count .sessBusy).looseReply pt d f stBusy = ((u.count .sessBusy).drawn (u.free + 1)).request pt
      ⟨u.mkFrame f.src 4 f.seq (replyBytes 0 0 stBusy (Config.freeBits 8 u.free).toNat 0 false []) u.txMode,
        max (d + 1000) (u.now + 200), 4, none, none⟩ := by
    unfold State.looseReply
    rw [State.draw_eq]
    dsimp only
    rw [show ((u.count .sessBusy).drawn ((u.count .sessBusy).free + 1)).fab.dup = false from hu, ht]
    rfl
  rw [e, hl]
  refine ⟨_, ?_, (u.countN_counters .sessBusy 1).to_obs rfl, rfl⟩
  exact (((u.setObs_only _).mono (by simp)).trans ((State.drawn_only _ _).mono (by simp))).trans
    ((State.setPort_only _ _ _).mono (by simp))

/-! ## CMD_FRAME, clause by clause -/

/-- A broadcast (10 R244). -/
theorem State.cmdFrame_broadcast (h : u.NoClash f) (hc : u.cmdConsumed f = .broadcast) (hup : u.loopUp = true) :
    (u.relayBuf = none → u.Only [.obs] (u.cmdFrame pt d f) ∧ u.CountersBut [.fabRxfull] (u.cmdFrame pt d f)) ∧
      ∀ b, u.relayBuf = some b → u.mgmtDown = false → u.fab.mb2Wait = [] → (u.win.mbAt 2).pending = false → u.memoryOk →
        u.PostsCmd (u.cmdFrame pt d f) f b 0x90 ∧ (u.cmdFrame pt d f).fab = { u.fab with bcastFrom := f.src } := by
  rw [(State.cmdFrame_of h).2.1 hc]
  refine ⟨fun hb => ?_, fun b hb hd hw hp hm => ?_⟩
  · rw [State.relayCmd_none hb]
    exact ⟨u.setObs_only _, u.countN_counters .fabRxfull 1⟩
  · obtain ⟨t, ht, hpost, hfab⟩ := State.relayCmd_posts (f := f) (src := 0x90) (by omega) hb hw hup hd hp hm
    rw [ht]
    exact ⟨hpost, hfab⟩

/-- A CMD that its session answers without running it. -/
theorem State.cmdFrame_answers {x : Session} (h : u.NoClash f) (hc : u.cmdConsumed f = .session) (hn : u.fab.sessOf f.src = some n)
    (hx : u.fab.sess n = x) :
    (x.seq = some f.seq → u.cmdFrame pt d f = u.gives n { x with last := u.now, due := some (frameDue f pt d true none) }) ∧
      (x.seq ≠ some f.seq → x.running = true → u.cmdFrame pt d f = u.gives n { x with
        last := u.now, due := some (frameDue f pt d false
          (some (replyBytes (leAt f.payload 0 2) (byteAt f.payload 2).toNat stBusy (0x80 + n) 0 false []))) }) := by
  have hself : (u.gives n { x with last := u.now }).fab.sess n = { x with last := u.now } :=
    Fabric.setSess_self _ _ (Fabric.sessOf_lt hn)
  obtain ⟨h1, h2⟩ := State.sessionCmd_answers (f := f) (pt := pt) (d := d) hself
  rw [(State.cmdFrame_of h).2.2 n hc hn, hx]
  exact ⟨fun hs => (h1 hs).trans (State.gives_gives ..), fun hs hr => (h2 hs hr).trans (State.gives_gives ..)⟩

end

/-- What the collector finds of a copy follows from its state, the islands' and the clock. -/
theorem State.relayChecked_of {s u v : State} (hf : v.faults = u.faults) (hi : v.isl = u.isl) (hk : v.clock = s.clock) (hu : u.clock = s.clock) :
    (if v.parityArmed .loop .mgmt then v.relayFault else v.faults) = if u.parityArmed .loop .mgmt then { v.faults.useArmed 0x0B with
      reports := v.faults.reports ++ [⟨0x0B, 0x10, 0x20, true, false, 0, s.now, s.clock.meridian, false⟩] } else v.faults := by
  have hp : v.parityArmed .loop .mgmt = u.parityArmed .loop .mgmt := by
    unfold State.parityArmed State.shadowOf State.now
    rw [hf, hi, hk, hu]
  rw [hp]
  unfold State.relayFault State.now
  rw [hk]

/-- The frames of one type that a port hands over. -/
theorem exec_cmdFrame {s u : State} {pt : Port} {f : Frame} {d : Nat} (hv : frameValid f = true) (ht : s.takeFrame pt f false = some (u, d))
    (hty : f.typ = 3) : exec (.cmdFrame pt f) s = .next (u.cmdFrame pt d f) := State.onFrame_takes (typ := (· == 3)) (act := fun s d => s.cmdFrame pt d f) (by rw [hty]; rfl) hv ht

theorem exec_pollFrame {s u : State} {pt : Port} {f : Frame} {d : Nat} (hv : frameValid f = true) (ht : s.takeFrame pt f false = some (u, d))
    (hty : f.typ = 2) : exec (.pollFrame pt f) s = .next (u.pollFrame pt d f) := State.onFrame_takes (typ := (· == 2)) (act := fun s d => s.pollFrame pt d f) (by rw [hty]; rfl) hv ht

/-- Settles O52: a frame is taken once, a CMD then goes by its session or as a broadcast, and a POLL opens what it needs. -/
theorem hostFramesOpenTheirReplies : Obligations.HostFramesOpenTheirReplies := by
  refine ⟨fun s u pt f d hv ht => ?_, fun s u pt f d hv ht hty hd h0 h63 hu hn => ?_⟩
  · intro gives due op tag armed checked posts
    obtain ⟨hon, fab, hus⟩ := State.takeFrame_eq ht
    have hup : u.loopUp = true := by rw [hus]; exact State.loopUp_of_portOn hon
    have hclk : u.clock = s.clock := by rw [hus]; rfl
    have hnow : u.now = s.now := congrArg Clock.tick hclk
    have hchk {v t : State} (hc : v.relayChecked t) (hf : v.faults = u.faults) (hi : v.isl = u.isl) (hk : v.clock = u.clock) : checked v t :=
      hc.trans (State.relayChecked_of hf hi (hk.trans hclk) hclk)
    refine ⟨fun hty hcl => ⟨fun hc => ?_, fun hc => ?_, fun n hc hn => ?_⟩, fun hty => ⟨fun h => ?_, fun n hd h0 h63 hu hn => ?_⟩⟩
    · rw [exec_cmdFrame hv ht hty, (State.cmdFrame_of hcl).1 hc]
    · obtain ⟨h1, h2⟩ := State.cmdFrame_broadcast (pt := pt) (d := d) hcl hc hup
      refine ⟨fun hb => ⟨_, exec_cmdFrame hv ht hty, h1 hb⟩, fun b hb hd hw hp hm => ?_⟩
      obtain ⟨⟨p1, p2, p3, p4⟩, hfab⟩ := h2 b hb hd hw hp hm
      exact ⟨_, exec_cmdFrame hv ht hty, ⟨p1, p2, hchk p3 rfl rfl rfl, p4⟩, hfab⟩
    · intro x v next
      have hvo : v = u.freeOpt x.buf := by
        show (match x.buf with
          | some k => u.freeBuf k
          | none => u) = _
        cases x.buf <;> rfl
      obtain ⟨h1, h2⟩ := State.cmdFrame_answers (pt := pt) (d := d) hcl hc hn rfl
      refine ⟨fun hs => ?_, fun hs hr => ?_, fun hs hr hb => ?_, fun b hs hr hb hw hm => ⟨fun hd hp => ?_, fun hd => ?_⟩⟩
      · rw [exec_cmdFrame hv ht hty, h1 hs, hnow]
        rfl
      · rw [exec_cmdFrame hv ht hty, h2 hs hr, hnow]
        rfl
      · obtain ⟨-, k1, -⟩ := State.cmdFrame_session (pt := pt) (d := d) hcl hc hn rfl hs hr hup hvo
        refine ⟨_, exec_cmdFrame hv ht hty, ?_⟩
        rw [k1 hb, hnow]
        exact ⟨((u.setFab_only _).mono (by simp)).trans ((State.setObs_only _ _).mono (by simp)),
          (State.countN_counters _ .fabRxfull 1).of_obs rfl, rfl⟩
      · obtain ⟨⟨own, ho⟩, -, k2⟩ := State.cmdFrame_session (pt := pt) (d := d) hcl hc hn rfl hs hr hup hvo
        obtain ⟨⟨p1, p2, p3, p4, p5, p6, p7⟩, hfab⟩ := (k2 b hb hw).1 hd hp hm
        have hv' : v.faults = u.faults ∧ v.isl = u.isl ∧ v.clock = u.clock := by rw [ho]; exact ⟨rfl, rfl, rfl⟩
        have harm : v.parityArmed .loop .mgmt = armed := by rw [ho]; rfl
        rw [harm] at p5 p6
        rw [hnow] at hfab
        exact ⟨_, exec_cmdFrame hv ht hty, ⟨p1, p2, hchk p3 hv'.1 hv'.2.1 hv'.2.2, p4, p5, p6, p7⟩, hfab⟩
      · obtain ⟨-, -, k2⟩ := State.cmdFrame_session (pt := pt) (d := d) hcl hc hn rfl hs hr hup hvo
        obtain ⟨q1, q2, q3, q4, q5, q6⟩ := (k2 b hb hw).2 hd
        rw [hnow] at q6
        exact ⟨_, exec_cmdFrame hv ht hty, q1, hchk q2 rfl rfl rfl, q3, q4, q5, q6⟩
    · rw [exec_pollFrame hv ht hty, State.pollFrame_ignored h hty]
    · rw [exec_pollFrame hv ht hty, State.pollFrame_asks hty hd h0 h63 hu hn, hnow]
      rfl
  · intro fresh
    obtain ⟨-, fab, rfl⟩ := State.takeFrame_eq ht
    refine ⟨fun n hf hm => ?_, fun hall => ⟨fun n hr hi hm => ?_, fun h => ?_⟩⟩
    · rw [exec_pollFrame hv ht hty, State.pollFrame_fresh hty hd h0 h63 hu hn hf hm]
      rfl
    · obtain ⟨h1, h2, h3⟩ := State.pollFrame_evicts (pt := pt) (d := d) hty hd h0 h63 hu hn hall (Fabric.evicts hr hi hm)
      exact ⟨_, exec_pollFrame hv ht hty, h1, h2, h3⟩
    · obtain ⟨r, h1, h2, h3⟩ := State.pollFrame_busy (pt := pt) (d := d) hty hd h0 h63 hu hn hall (Fabric.evicts_none h)
      exact ⟨_, r, exec_pollFrame hv ht hty, h1, h2, h3⟩

end Sys2Proof.Machine
end



section
/-! PROOFS. Replies at turnaround and the close of sessions (10 R245, R248, R249, R252). -/

namespace Sys2Proof.Machine

open Sys2Proof

set_option Elab.async false

section
variable {s : State} {ses : Fin 16} {d : Due}

/-- The source of a REPLY: a FAB_ASSIGN's comes from the new address. -/
def State.replySrc (s : State) (x : Session) : BitVec 12 :=
  if x.op = 0x0501 then BitVec.ofNat 12 s.mgmt.committed.fabAddr else s.ownAddr

/-- The REPLY of a session. -/
def State.replyFrame (s : State) (x : Session) (d : Due) (bs : List Byte) : Frame :=
  { s.mkFrame x.addr 4 d.seq bs s.txMode with src := s.replySrc x }

theorem replyTurnaround_spec (hon : s.fabricOn = true) (hd : (s.fab.sess ses.val).due = some d) (hat : d.at_ ≤ s.now) :
    let x := s.fab.sess ses.val
    let t := s.gives ses.val { x with due := none }
    exec (.replyTurnaround ses) s = .next (if s.fab.dup then t else
      t.request d.port ⟨s.replyFrame x d (x.answer ses.val d).1, s.now, 4, some ses.val, (x.answer ses.val d).2⟩) := by
  intro x t
  show execReplyTurnaround ses s = _
  unfold execReplyTurnaround
  dsimp only
  rw [hd]
  dsimp only
  rw [hon, decide_eq_true hat]
  have hf (bs : List Byte) : (if x.op = 0x0501 then
        { s.mkFrame x.addr 4 d.seq bs s.txMode with src := BitVec.ofNat 12 s.mgmt.committed.fabAddr }
      else s.mkFrame x.addr 4 d.seq bs s.txMode) = s.replyFrame x d bs := by
    unfold State.replyFrame State.replySrc
    split_ifs <;> rfl
  exact congrArg (fun f => Host.Outcome.next (if s.fab.dup then t else t.request d.port ⟨f, s.now, 4, some ses.val, (x.answer ses.val d).2⟩))
    (hf _)

/-- The close of a session leaves the window but for its buffer. -/
theorem State.closeSession_win (s : State) (n : Nat) : (s.closeSession n).win = (s.freeOpt (s.fab.sess n).buf).win := by
  unfold State.closeSession
  generalize (s.fab.sess n).buf = bo
  cases bo <;> rfl

theorem State.freeOpt_win (s : State) (bo : Option Nat) : let w := (s.freeOpt bo).win
    w = { s.win with own := w.own } ∧ (bo = none → w = s.win) ∧
      (∀ b, bo = some b → b < 64 → (s.win.ownAt b).own = .device → w.ownAt b = ⟨.free, (s.win.ownAt b).gen + 1, 0x20⟩) ∧
      ∀ b, bo ≠ some b → w.ownAt b = s.win.ownAt b := by
  intro w
  obtain ⟨own, ho⟩ := s.freeOpt_eq bo
  have hw : w = { s.win with own := own } := congrArg State.win (ho s rfl)
  refine ⟨by rw [hw], fun h => ?_, fun b h hlt hd => ?_, fun b h => ?_⟩
  · subst h
    rfl
  · subst h
    show (s.freeBuf b).win.ownAt b = _
    rw [State.freeBuf, if_pos hd]
    exact Window.setOwner_self _ _ _ hlt
  · cases bo with
    | none => rfl
    | some k =>
      show (s.freeBuf k).win.ownAt b = _
      unfold State.freeBuf
      split_ifs
      · exact Window.setOwner_other _ _ _ fun e => h (by rw [e])
      · rfl

end

/-- Settles O53: one request carries the answer as the session stands; a close resets the session and frees its buffer. -/
theorem repliesAndSessionsEnd : Obligations.RepliesAndSessionsEnd := by
  intro s ses n x without
  have hx : s.fab.sess ses.val = x := s.fab.sess_fin ses
  have hwo : s.fab.setSess ses.val { x with due := none } = without := s.fab.setSess_fin ses _
  refine ⟨fun d hon hd hat => ?_, fun hup ho hr hi => ?_⟩
  · intro pending answer src f
    have hex := replyTurnaround_spec hon (hx ▸ hd) hat
    have ha : x.answer ses.val d = answer := by
      unfold Session.answer
      show _ = (match d.fixed, x.cur with
        | some bs, _ => (bs, none)
        | none, some bs => if d.poll = true ∨ x.curAt + 200 ≤ d.at_ then (bs, x.buf) else (pending, none)
        | none, none => if d.poll = true ∧ x.running = false then ([], none) else (pending, none))
      cases d.fixed with
      | some bs => rfl
      | none =>
        cases x.cur with
        | some bs => exact if_congr (by simp) rfl rfl
        | none => exact if_congr (by simp) rfl rfl
    rw [hx] at hex
    dsimp only at hex
    rw [ha] at hex
    refine ⟨fun hdup => ?_, fun hdup => ?_⟩
    · rw [hex, hdup, if_pos rfl]
      exact congrArg (fun g => Host.Outcome.next (s.setFab g)) hwo
    · rw [hex, hdup, if_neg Bool.false_ne_true]
      exact congrArg (fun g => Host.Outcome.next ((s.setFab g).request d.port ⟨f, s.now, 4, some n, answer.2⟩)) hwo
  · obtain ⟨h1, h2, h3⟩ := s.closeSession_spec ses.val
    have hw := s.freeOpt_win x.buf
    have hcw := s.closeSession_win ses.val
    rw [hx] at hcw
    dsimp only at hw
    rw [← hcw] at hw
    refine ⟨_, stepIf_of ?_, h1, h2.trans (s.fab.setSess_fin ses _), h3, hw⟩
    rw [hx, hup, ho, hr, decide_eq_true hi]
    rfl

end Sys2Proof.Machine
end



section
/-! PROOFS. The compass sweep, publish slots, duplicate addresses, bearings and forwarding (10 R246, R250, R252 to R255). -/

namespace Sys2Proof.Machine

open Sys2Proof

set_option Elab.async false

section
variable {s t u v : State} {pt q : Port} {f : Frame} {a8 d : Nat}

/-! ## Frames that are asked of a port -/

theorem State.request_eq (s : State) (pt : Port) (j : TxJob) :
    s.request pt j = { s with ports := s.ports.put pt { s.port pt with txReq := (s.port pt).txReq ++ [j] } } := rfl

/-- A REPLY outside a session (10 R248, R255). -/
theorem State.looseReply_spec (s : State) (pt : Port) (d : Nat) (f : Frame) (status : Nat) (hu : s.fab.dup = false) : ∃ r : Byte,
    s.Only [.free, .ports] (s.looseReply pt d f status) ∧ (s.looseReply pt d f status).ports = s.ports.put pt { s.port pt with
      txReq := (s.port pt).txReq ++ [⟨s.mkFrame f.src 4 f.seq (replyBytes (if f.typ = 3 then leAt f.payload 0 2 else 0)
        (if f.typ = 3 then leAt f.payload 2 1 else 0) status r.toNat 0 false []) s.txMode, max (d + 1000) (s.now + 200), 4, none, none⟩] } := by
  refine ⟨Config.freeBits 8 s.free, ?_⟩
  unfold State.looseReply
  rw [State.draw_eq]
  dsimp only
  rw [show (s.drawn (s.free + 1)).fab.dup = false from hu]
  exact ⟨((s.drawn_only _).mono (by simp)).trans ((State.setPort_only _ _ _).mono (by simp)), rfl⟩

/-! ## The compass sweep -/

/-- A SWEEP names the device. -/
def State.swept (s : State) (f : Frame) : Prop :=
  if nodeOf f.dest = 0 then s.unassigned = true ∨ s.fab.dup = true
  else f.dest = s.ownAddr ∨ (nodeOf f.dest = 63 ∧ segOf f.dest = segOf s.ownAddr)

theorem State.consumes_sweep (ht : f.typ = 6) : s.consumes f = true ↔ s.swept f := by
  unfold State.consumes State.swept State.toAll
  by_cases h0 : nodeOf f.dest = 0
  · by_cases he : f.dest = s.ownAddr
    · have hu : s.unassigned = true := by rw [State.unassigned, ← he, h0]; rfl
      simp [he, hu, ht, hostType]
    · simp [h0, he, ht, hostType]
  · simp [h0, ht, hostType]

/-- A SWEEP that has its session, by its fields. -/
theorem State.answerSweep_spec (v : State) (pt : Port) (f : Frame) (a8 : Nat) :
    let plen := leAt f.payload 0 1
    let ofs := leAt f.payload 2 3
    let m := modeOfCode (leAt f.payload 1 1)
    let inOrder := plen ≤ 64 ∧ leAt f.payload 1 1 ≤ 2 ∧ airtime f.mode 16 + 1000 ≤ ofs
    let hit := Config.uid.toNat / 2 ^ (64 - plen) = leAt f.payload 8 8 / 2 ^ (64 - plen)
    (¬ inOrder → v.answerSweep pt f a8 = v.count .frameBad) ∧ (inOrder → ¬ hit → v.answerSweep pt f a8 = v) ∧
      (inOrder → hit → ∃ j, v.Only [.free, .fab] (v.answerSweep pt f a8) ∧ j < 16 ∧
        (v.answerSweep pt f a8).fab = { v.fab with sweep := v.fab.sweep ++
          [(max (v.tickOf ((a8 + 4) / 8 + ofs + j * (airtime m 8 + 1125))) (v.now + 200), pt,
            v.mkFrame f.src 7 f.seq (leBytes 8 Config.uid.toNat) m)] }) := by
  intro plen ofs m inOrder hit
  have hbad : (64 < plen ∨ 2 < leAt f.payload 1 1 ∨ ofs < airtime f.mode 16 + 1000) ↔ ¬ inOrder := by
    simp only [inOrder, not_and_or, not_le]
  refine ⟨fun h => if_pos (hbad.2 h), fun h hh => ?_, fun h hh => ⟨(Config.freeBits 4 v.free).toNat, ?_⟩⟩
  · exact (if_neg fun hb => hbad.1 hb h).trans (if_pos hh)
  · have e : v.answerSweep pt f a8 = (v.drawn (v.free + 1)).setFab { v.fab with sweep := v.fab.sweep ++
        [(max (v.tickOf ((a8 + 4) / 8 + ofs + (Config.freeBits 4 v.free).toNat * (airtime m 8 + 1125))) (v.now + 200), pt,
          v.mkFrame f.src 7 f.seq (leBytes 8 Config.uid.toNat) m)] } :=
      (if_neg fun hb => hbad.1 hb h).trans (if_neg (not_not.2 hh))
    rw [e]
    exact ⟨((v.drawn_only _).mono (by simp)).trans ((State.setFab_only _ _).mono (by simp)), (Config.freeBits 4 v.free).isLt, rfl⟩

theorem State.sweepFrame_opens {n : Nat} (h : u.consumes f = true) (ho : u.openSession f.src false = (v, some n)) :
    u.sweepFrame pt d f a8 = v.answerSweep pt f a8 := by
  unfold State.sweepFrame
  rw [h, ho]
  rfl

/-- A session that stands is left as it is by a frame that is no CMD or POLL, and a free place is taken. -/
theorem State.openSession_kept {n : Nat} (h : u.fab.sessOf f.src = some n) : u.openSession f.src false = (u, some n) := by
  unfold State.openSession
  rw [h]
  rfl

theorem State.openSession_new {m : Nat} (use : Bool) (hn : u.fab.sessOf f.src = none)
    (hf : (List.range 16).find? (fun n => !(u.fab.sess n).opened) = some m) :
    u.openSession f.src use = (u.setFab (u.fab.setSess m (Session.fresh f.src u.now)), some m) := by
  unfold State.openSession
  rw [hn]
  dsimp only
  rw [hf]
  rfl

theorem exec_sweepFrame (hv : frameValid f = true) (ht : s.takeFrame pt f false = some (u, d)) (hty : f.typ = 6) :
    exec (.sweepFrame pt f a8) s = .next (u.sweepFrame pt d f a8) :=
  State.onFrame_takes (typ := (· == 6)) (act := fun s d => s.sweepFrame pt d f a8) (by rw [hty]; rfl) hv ht

theorem exec_sweepReplySlot {e : Nat × Port × Frame} (hon : s.fabricOn = true)
    (he : s.fab.sweep.filter (fun x => decide (x.1 ≤ s.now)) = [e]) :
    exec .sweepReplySlot s = .next ((s.setFab { s.fab with sweep := s.fab.sweep.filter fun x => decide (s.now < x.1) }).sendSweep e) := by
  have hany : s.fab.sweep.any (fun x => decide (x.1 ≤ s.now)) = true := by
    rw [List.any_eq_true]
    have hm : e ∈ s.fab.sweep.filter (fun x => decide (x.1 ≤ s.now)) := by rw [he]; exact List.mem_singleton_self e
    exact ⟨e, (List.mem_filter.1 hm).1, (List.mem_filter.1 hm).2⟩
  have hrest : s.fab.sweep.filter (fun x => !decide (x.1 ≤ s.now)) = s.fab.sweep.filter fun x => decide (s.now < x.1) :=
    List.filter_congr fun x _ => by rw [← decide_not, decide_eq_decide, Nat.not_le]
  show execSweepReplySlot s = _
  unfold execSweepReplySlot
  dsimp only
  rw [hon, hany, he, hrest]
  rfl

/-! ## Publish slots -/

theorem State.bufRead_getD_one (s : State) (b : Nat) : (s.bufRead b 2).getD 1 0 = cellRead s.win.mem (256 * b + 1) := by
  unfold State.bufRead cellsRead bufAddr
  rw [Nat.mul_comm]
  rfl

theorem State.requestNow_eq (s : State) (pt : Port) (j : TxJob) : s.requestNow pt j = ({ s with
    dspFree := if (s.port pt).synthed.any (fun t => decide (t ≤ j.at_ + 8 ∧ j.at_ ≤ t + 8)) then s.dspFree else max s.now s.dspFree + 100 } :
      State).request pt j := by
  unfold State.requestNow
  split_ifs <;> rfl

theorem publishSlot_spec {n : Fin 4} {c : Nat} (hc : s.slotCount n.val = some c) (hon : s.portOn .loop = true) (hl : s.fab.locked = true)
    (hu : s.unassigned = false) (hd : s.fab.dup = false) (hp : s.fab.pubDone.getD n.val none ≠ some c) :
    let served : Fabric := { s.fab with pubDone := s.fab.pubDone.set n.val (some c) }
    (s.fab.pubQueue = [] → exec (.publishSlot n) s = .next (s.setFab served)) ∧
      ∀ b since bs, s.fab.pubQueue = (b, since) :: bs → exec (.publishSlot n) s =
        .next ((s.setFab { served with pubQueue := bs }).requestNow .loop
          ⟨s.mkFrame (BitVec.ofNat 12 s.mgmt.inForce.pubDest) 5 s.fab.pubSeq
            (s.bufRead b (16 + 8 * (cellRead s.win.mem (256 * b + 1)).toNat)) (modeOfCode (s.mgmt.inForce.pubMode n.val)),
            max s.now (since + 200), 3, none, some b⟩) := by
  intro served
  have hdue : (s.portOn .loop && s.fab.locked && !s.unassigned && !s.fab.dup && s.fab.pubDone.getD n.val none != some c) = true := by
    rw [hon, hl, hu, hd]
    simpa using hp
  refine ⟨fun hq => ?_, fun b since bs hq => ?_⟩
  · show execPublishSlot n s = _
    unfold execPublishSlot
    rw [hc]
    dsimp only
    rw [hq]
    dsimp only
    refine (stepIf_of hdue).trans ?_
    rw [← hq]
  · show execPublishSlot n s = _
    unfold execPublishSlot
    rw [hc]
    dsimp only
    rw [hq]
    dsimp only
    rw [State.bufRead_getD_one]
    exact stepIf_of hdue

/-! ## Device frames -/

theorem exec_deviceFrameReceive (hv : frameValid f = true) (hty : deviceType f.typ.toNat = true)
    (ht : s.takeFrame pt f false = some (u, d)) :
    exec (.deviceFrameReceive pt f) s = .next (if !u.unassigned && f.src == u.ownAddr then u.setDup else u) :=
  State.onFrame_takes (act := fun s _ => if !s.unassigned && f.src == s.ownAddr then s.setDup else s) hty hv ht

/-! ## Forwarding -/

theorem exec_frameForward (hv : frameValid f = true) (hr : s.routes = true) (ht : s.takeFrame pt f true = some (u, d)) :
    exec (.frameForward pt f) s = .next (u.routeFrame pt d f) := by
  show execFrameForward pt f s = _
  unfold execFrameForward
  rw [hr, hv, ht]
  rfl

/-- Where a frame that another device shall have goes (10 R254). -/
theorem State.routeFrame_eq (ht : f.typ ≠ 1) (hc : u.consumesAlone f = false) :
    (u.exitOf (segOf f.dest) = none → u.routeFrame pt d f = (u.count .fwdNobearing).noRoute d f) ∧
      (u.exitOf (segOf f.dest) = some pt → u.routeFrame pt d f = u) ∧
      ∀ p, u.exitOf (segOf f.dest) = some p → p ≠ pt →
        (f.hop = 7 → u.routeFrame pt d f = (u.count .fwdHops).noRoute d f) ∧
        (f.hop ≠ 7 → 8 ≤ (u.fab.fwd.at p).length → u.routeFrame pt d f = u.count .fwdQfull) ∧
        (f.hop ≠ 7 → (u.fab.fwd.at p).length < 8 → u.routeFrame pt d f = u.synth.setFab { u.fab with
          fwd := u.fab.fwd.put p (u.fab.fwd.at p ++ [⟨{ f with hop := f.hop + 1 }, d⟩]) }) := by
  have hn : ¬ (f.typ = 1 ∨ u.consumesAlone f = true) := by rw [hc]; simpa using ht
  unfold State.routeFrame
  rw [if_neg hn]
  refine ⟨fun h => by rw [h], fun h => ?_, fun p h hp => ?_⟩
  · rw [h]
    exact if_pos rfl
  · rw [h]
    dsimp only
    rw [if_neg hp]
    exact ⟨fun hh => if_pos hh, fun hh hl => by rw [if_neg hh, if_pos hl], fun hh hl => by rw [if_neg hh, if_neg (Nat.not_le.2 hl)]⟩

/-- A frame dropped for want of a way, other than a CMD or a POLL, is only counted. -/
theorem State.noRoute_counts (h2 : f.typ ≠ 2) (h3 : f.typ ≠ 3) : s.noRoute d f = s := if_neg fun h => h.elim h2 h3

/-- A CMD or a POLL without a way is answered toward its sender (10 R255). -/
theorem State.noRoute_answers (h : f.typ = 2 ∨ f.typ = 3) (hq : s.exitOf (segOf f.src) = some q) (hu : s.fab.dup = false) : ∃ r : Byte,
    let bytes := if f.typ = 3 then replyBytes (leAt f.payload 0 2) (leAt f.payload 2 1) stNoRoute r.toNat 0 false []
      else replyBytes 0 0 stNoRoute r.toNat 0 false []
    s.Only [.free, .ports] (s.noRoute d f) ∧ (s.noRoute d f).ports = s.ports.put q { s.port q with txReq := (s.port q).txReq ++
      [⟨s.mkFrame f.src 4 f.seq bytes s.txMode, max (d + 1000) (s.now + 200), 4, none, none⟩] } := by
  obtain ⟨r, h1, h2⟩ := s.looseReply_spec q d f stNoRoute hu
  have e : s.noRoute d f = s.looseReply q d f stNoRoute := by
    unfold State.noRoute
    rw [if_pos h, hq]
  refine ⟨r, ?_⟩
  intro bytes
  have hb : replyBytes (if f.typ = 3 then leAt f.payload 0 2 else 0) (if f.typ = 3 then leAt f.payload 2 1 else 0) stNoRoute r.toNat 0 false [] =
      bytes := by
    show _ = if f.typ = 3 then _ else _
    split_ifs <;> rfl
  rw [hb] at h2
  rw [e]
  exact ⟨h1, h2⟩

/-- The answer to a CMD or POLL without a way, where the drop was counted first. -/
theorem State.noRoute_counted {c : Ctr} (hc : c = .fwdNobearing ∨ c = .fwdHops) (h : f.typ = 2 ∨ f.typ = 3)
    (hq : u.exitOf (segOf f.src) = some q) (hu : u.fab.dup = false) : ∃ r : Byte,
    let t := (u.count c).noRoute d f
    let bytes := if f.typ = 3 then replyBytes (leAt f.payload 0 2) (leAt f.payload 2 1) stNoRoute r.toNat 0 false []
      else replyBytes 0 0 stNoRoute r.toNat 0 false []
    u.Only [.free, .ports, .obs] t ∧ u.CountersBut [.fwdNobearing, .fwdHops] t ∧
      t.ports = u.ports.put q { u.port q with txReq := (u.port q).txReq ++
        [⟨u.mkFrame f.src 4 f.seq bytes u.txMode, max (d + 1000) (u.now + 200), 4, none, none⟩] } := by
  obtain ⟨r, h1, h2⟩ := State.noRoute_answers (s := u.count c) (d := d) h hq hu
  have hct : u.CountersBut [.fwdNobearing, .fwdHops] (u.count c) :=
    (u.countN_counters c 1).mono (by rcases hc with rfl | rfl <;> simp)
  exact ⟨r, ((u.setObs_only _).mono (by simp)).trans (h1.mono (by simp)), hct.to_obs (h1.2 .obs (by simp)), h2⟩

/-- A counter that the device counts up by one. -/
theorem State.count_spec (s : State) (c : Ctr) : s.Only [.obs] (s.count c) ∧ s.CountersBut [c] (s.count c) ∧
    (s.count c).obs.live.getD c.idx 0 = min (s.obs.live.getD c.idx 0 + 1) 0xFFFFFFFF :=
  ⟨s.setObs_only _, s.countN_counters c 1, Obs.count_self ..⟩

/-- The handling of a SWEEP that opens, or has, its session. -/
theorem sweepFrame_spec (hv : frameValid f = true) (hty : f.typ = 6) (ht : s.takeFrame pt f false = some (u, d))
    (hs : u.swept f) (ho : ((∃ n, u.fab.sessOf f.src = some n) ∧ v = u) ∨
      ∃ n : Fin 16, u.fab.sessOf f.src = none ∧ u.fab.sessions[n].opened = false ∧
        (∀ m : Fin 16, m < n → u.fab.sessions[m].opened = true) ∧ v = { u with fab := { u.fab with
          sessions := u.fab.sessions.set n.val { Session.reset with opened := true, addr := f.src, last := s.now } } }) :
    exec (.sweepFrame pt f a8) s = .next (v.answerSweep pt f a8) ∧ v.now = s.now := by
  obtain ⟨-, fab, hus⟩ := State.takeFrame_eq ht
  have hnow : u.now = s.now := by rw [hus]; rfl
  rw [exec_sweepFrame hv ht hty]
  obtain ⟨⟨n, hn⟩, rfl⟩ | ⟨n, hn, hf, hm, rfl⟩ := ho
  · rw [State.sweepFrame_opens (State.consumes_sweep hty |>.2 hs) (State.openSession_kept hn)]
    exact ⟨rfl, hnow⟩
  · rw [State.sweepFrame_opens (State.consumes_sweep hty |>.2 hs) (State.openSession_new false hn (Fabric.firstFree hf hm)),
      Fabric.setSess_fin, hnow]
    exact ⟨rfl, hnow⟩

end

/-- Settles O54: a SWEEP by its fields once its session stands; slots, device frames and forwarding by their one equation each. -/
theorem sweepsPublishingAndForwarding : Obligations.SweepsPublishingAndForwarding := by
  refine ⟨fun s => ?_, fun s pt f => ⟨fun u d hv hty ht => ⟨fun hu hs hd => ?_, fun h => ?_⟩, fun u d hv hr ht hw => ?_,
    fun u d hv hr ht h1 hc => ?_, fun i is hon hq hrx htx hd => ?_⟩⟩
  · intro asked
    refine ⟨fun u pt f a8 d hv hty ht => ?_, fun e hon he => ?_, fun n c hc hon hl hu hd hp => ?_⟩
    · intro plen ofs m mine inOrder matches_ opens
      refine ⟨fun h => ?_, fun v ho => ⟨fun hm hb => ?_, fun hm hi hh => ?_, fun hm hi hh => ?_⟩⟩
      · rw [exec_sweepFrame hv ht hty]
        have hc : u.consumes f = false := by
          rw [← Bool.not_eq_true, State.consumes_sweep hty]
          exact h
        unfold State.sweepFrame
        rw [hc]
        rfl
      all_goals
        obtain ⟨hex, hnow⟩ := sweepFrame_spec (a8 := a8) hv hty ht hm ho
        obtain ⟨k1, k2, k3⟩ := v.answerSweep_spec pt f a8
      · rw [k1 hb] at hex
        exact ⟨_, hex, v.setObs_only _, v.countN_counters .frameBad 1⟩
      · rw [hex, k2 hi hh]
      · obtain ⟨j, h1, h2, h3⟩ := k3 hi hh
        rw [hnow] at h3
        exact ⟨_, j, hex, h1, h2, h3⟩
    · intro rest
      rw [exec_sweepReplySlot hon he]
      unfold State.sendSweep
      rfl
    · intro served
      obtain ⟨k1, k2⟩ := publishSlot_spec hc hon hl hu hd hp
      refine ⟨k1, fun b since bs hq => ?_⟩
      intro bytes f start made
      rw [k2 b since bs hq, State.requestNow_eq]
      rfl
  · rw [exec_deviceFrameReceive hv hty ht, hu, hs, beq_self_eq_true]
    unfold State.setDup
    rw [hd]
    rfl
  · rw [exec_deviceFrameReceive hv hty ht]
    rcases h with h | h | h
    · rw [h]
      rfl
    · rw [beq_false_of_ne h, Bool.and_false]
      rfl
    · have hsd : u.setDup = u := if_pos h
      rw [hsd, ite_self]
  · rw [exec_frameForward hv hr ht]
    exact congrArg Host.Outcome.next (if_pos hw)
  · obtain ⟨-, fab, hus⟩ := State.takeFrame_eq ht
    have hnow : u.now = s.now := by rw [hus]; rfl
    have hdsp : u.dspFree = s.dspFree := by rw [hus]; rfl
    have hex := exec_frameForward hv hr ht
    obtain ⟨k1, k2, k3⟩ := State.routeFrame_eq (pt := pt) (d := d) h1 hc
    refine ⟨fun p hp hne hh hl => ?_, fun hp => ?_, fun hp h2 h3 => ?_, fun p hp hne hh h2 h3 => ?_, fun q h23 hx hq hu => ?_,
      fun p hp hne hh hl => ?_⟩
    · rw [hex, (k3 p hp hne).2.2 hh hl, ← hnow, ← hdsp]
      rfl
    · rw [hex, k2 hp]
    · rw [k1 hp, State.noRoute_counts h2 h3] at hex
      exact ⟨_, hex, u.count_spec .fwdNobearing⟩
    · rw [(k3 p hp hne).1 hh, State.noRoute_counts h2 h3] at hex
      exact ⟨_, hex, u.count_spec .fwdHops⟩
    · obtain ⟨c, hcc, hrt⟩ : ∃ c : Ctr, (c = .fwdNobearing ∨ c = .fwdHops) ∧ u.routeFrame pt d f = (u.count c).noRoute d f := by
        by_cases hn : u.exitOf (segOf f.dest) = none
        · exact ⟨_, .inl rfl, k1 hn⟩
        · obtain ⟨p, hp⟩ := Option.ne_none_iff_exists'.1 hn
          obtain ⟨hne, hh⟩ := hx.resolve_left hn
          exact ⟨_, .inr rfl, (k3 p hp fun e => hne (by rw [hp, e])).1 hh⟩
      obtain ⟨r, g1, g2, g3⟩ := State.noRoute_counted (d := d) hcc h23 hq hu
      rw [hrt] at hex
      rw [hnow] at g3
      exact ⟨_, r, hex, g1, g2, g3⟩
    · rw [(k3 p hp hne).2.1 hh hl] at hex
      exact ⟨_, hex, u.count_spec .fwdQfull⟩
  · show execForwardTransmit pt s = _
    unfold execForwardTransmit
    rw [hq]
    dsimp only
    refine stepIf_of ?_
    rw [hon, hrx, htx, decide_eq_true hd]
    rfl

end Sys2Proof.Machine
end



section
/-! PROOFS. Beacons and fabric time (10 R256 to R260). -/

namespace Sys2Proof.Machine

open Sys2Proof

set_option Elab.async false

section
variable {s t u v : State} {pt : Port} {f : Frame} {a8 d : Nat}

/-! ## The session of a beacon -/

/-- A beacon names the device. -/
def State.hails (s : State) (f : Frame) : Prop := f.dest = s.ownAddr ∨ (nodeOf f.dest = 63 ∧ segOf f.dest = segOf s.ownAddr) ∨
  (nodeOf f.dest = 0 ∧ (s.unassigned = true ∨ s.fab.dup = true))

theorem State.consumes_beacon (ht : f.typ = 1) : s.consumes f = true ↔ s.hails f := by
  unfold State.consumes State.hails State.toAll
  simp [ht, hostType, or_assoc]

theorem exec_beaconAccept (hv : frameValid f = true) (hty : f.typ = 1) (ht : s.takeFrame pt f false = some (v, d)) :
    exec (.beaconAccept pt f a8) s = .next (if (v.beaconSession pt d f).acceptsBeacon pt f then (v.beaconSession pt d f).beacon pt f a8
      else v.beaconSession pt d f) :=
  State.onFrame_takes (typ := (· == 1)) (act := fun s d => let s := s.beaconSession pt d f
    if s.acceptsBeacon pt f then s.beacon pt f a8 else s) (by rw [hty]; rfl) hv ht

theorem State.beaconSession_of (ht : f.typ = 1) (hnow : v.now = s.now)
    (h : ¬ v.hails f ∧ u = v ∨ v.hails f ∧ (∃ n, v.fab.sessOf f.src = some n) ∧ u = v ∨
      v.hails f ∧ ∃ n : Fin 16, v.fab.sessOf f.src = none ∧ v.fab.sessions[n].opened = false ∧
        (∀ m : Fin 16, m < n → v.fab.sessions[m].opened = true) ∧ u = { v with fab := { v.fab with
          sessions := v.fab.sessions.set n.val { Session.reset with opened := true, addr := f.src, last := s.now } } }) :
    v.beaconSession pt d f = u := by
  unfold State.beaconSession
  obtain ⟨hm, rfl⟩ | ⟨hm, ⟨n, hn⟩, rfl⟩ | ⟨hm, n, hn, hf, hb, rfl⟩ := h
  · have hc : u.consumes f = false := by rw [← Bool.not_eq_true, State.consumes_beacon ht]; exact hm
    rw [hc]
    rfl
  · rw [(State.consumes_beacon ht).2 hm, State.openSession_kept hn]
    rfl
  · rw [(State.consumes_beacon ht).2 hm, State.openSession_new false hn (Fabric.firstFree hf hb), Fabric.setSess_fin, hnow]
    rfl

/-- A beacon that finds the table of sessions full is answered ST_BUSY, unless DUP_ADDR silences the device. -/
theorem State.beaconSession_busy (ht : f.typ = 1) (hm : v.hails f) (hn : v.fab.sessOf f.src = none)
    (hall : ∀ m : Fin 16, v.fab.sessions[m].opened = true)
    (hidle : ∀ m : Fin 16, v.fab.sessions[m].running = true ∨ v.now - v.fab.sessions[m].last < 500000) : ∃ r : Byte,
      let t := v.beaconSession pt d f
      v.Only [.free, .ports, .obs] t ∧ v.CountersBut [.sessBusy] t ∧
        t.ports = if v.fab.dup then v.ports else v.ports.put pt { v.port pt with txReq := (v.port pt).txReq ++
          [⟨v.mkFrame f.src 4 f.seq (replyBytes 0 0 stBusy r.toNat 0 false []) v.txMode, max (d + 1000) (v.now + 200), 4, none, none⟩] } := by
  have ho : v.openSession f.src false = (v, none) := by
    unfold State.openSession
    rw [hn]
    dsimp only
    rw [Fabric.noneFree hall]
    dsimp only
    rw [Fabric.evicts_none hidle]
  have e : v.beaconSession pt d f = (v.count .sessBusy).looseReply pt d f stBusy := by
    unfold State.beaconSession
    rw [(State.consumes_beacon ht).2 hm, ho]
    rfl
  have hct := v.countN_counters .sessBusy 1
  have hco : v.Only [.free, .ports, .obs] (v.count .sessBusy) := (v.setObs_only _).mono (by simp)
  rw [e]
  cases hd : v.fab.dup
  · obtain ⟨r, h1, h2⟩ := (v.count .sessBusy).looseReply_spec pt d f stBusy hd
    rw [ht] at h2
    exact ⟨r, hco.trans (h1.mono (by simp)), hct.to_obs (h1.2 .obs (by simp)), h2⟩
  · have hl : (v.count .sessBusy).looseReply pt d f stBusy = (v.count .sessBusy).drawn (v.free + 1) := by
      unfold State.looseReply
      rw [State.draw_eq]
      exact if_pos hd
    rw [hl]
    exact ⟨0, hco.trans ((State.drawn_only _ _).mono (by simp)), hct.to_obs rfl, rfl⟩

/-- What decides on a beacon besides the frame. -/
theorem State.acceptsBeacon_congr (hm : u.mgmt = v.mgmt) (hf : u.fab = v.fab) (hc : u.clock = v.clock) :
    u.acceptsBeacon pt f = v.acceptsBeacon pt f := by
  unfold State.acceptsBeacon State.beaconPort State.routes State.exitOf State.now
  rw [hm, hf, hc]

/-! ## An accepted beacon -/

/-- What R257 makes of e, by its cases: the time is set, it is near and the count slews or stands, or the state is lost. -/
theorem beaconAct_cases (locked full : Bool) (e : Int) :
    (full = true → (locked = false ∨ 512 ≤ e.natAbs) → beaconAct locked full e = (3, true)) ∧
      (locked = true → e.natAbs < 512 → (4 ≤ e → beaconAct locked full e = (2, true)) ∧ (e < -4 → beaconAct locked full e = (1, true)) ∧
        (-4 ≤ e → e < 4 → beaconAct locked full e = (0, true))) ∧
      (full = false → ¬ (locked = true ∧ e.natAbs < 512) → beaconAct locked full e = (0, false)) := by
  refine ⟨fun hf h => if_pos (by simpa [hf] using h), fun hl hn => ?_, fun hf h => ?_⟩
  · have h1 : ¬ (full && (!locked || decide (512 ≤ e.natAbs))) = true := by simp [hl, Nat.not_le.2 hn]
    have h2 : beaconAct locked full e = if 4 ≤ e then (2, true) else if e < -4 then (1, true) else (0, true) :=
      (if_neg h1).trans ((if_neg (by simp [hl])).trans (if_neg (Nat.not_le.2 hn)))
    rw [h2]
    exact ⟨fun h => if_pos h, fun h => (if_neg (by omega)).trans (if_pos h), fun ha hb => (if_neg (by omega)).trans (if_neg (by omega))⟩
  · refine (if_neg (by simp [hf])).trans ?_
    cases hl : locked
    · rfl
    · exact (if_neg (by simp)).trans (if_pos (by have := not_and.1 h hl; omega))

/-- The clock after an accepted beacon. -/
def State.beaconClock (s : State) (act : Nat) (e : Int) : Clock :=
  if act = 3 then { s.clock with timeSet := some (s.clock.meridian + 1 - BitVec.ofInt 48 ((e + 4) / 8)), slew := none }
  else if act = 0 then s.clock
  else { s.clock with slew := some (act == 1) }

/-- The fabric after an accepted beacon. -/
def State.beaconFab (s : State) (pt : Port) (f : Frame) (a8 : Nat) (locked : Bool) : Fabric := { s.fab with
  locked := locked, hop := f.hop, err := beaconErr f a8, bcnTick := some s.now
  relay := if s.routes && f.hop != 7 then
    some (s.noSooner (s.tickOf ((a8 + 4) / 8 + hopLatency f)), otherPort pt, relayFrame f) else s.fab.relay
  event := if (f.len != 0) && (leAt f.payload 7 1) % 2 == 1 then some (BitVec.ofNat 48 (leAt f.payload 8 6)) else s.fab.event
  bcnSeqs := (f.seq, s.now) :: s.fab.bcnSeqs.filter fun b => decide (s.now - b.2 < 500000) }

theorem State.beacon_spec {act : Nat} {locked : Bool} (ha : beaconAct s.fab.locked (f.len != 0) (beaconErr f a8) = (act, locked)) :
    let t := s.beacon pt f a8
    s.Only [.clock, .fab, .obs] t ∧ s.CountersBut [.timeSet, .trcDrop] t ∧ t.fab = s.beaconFab pt f a8 locked ∧
      t.clock = s.beaconClock act (beaconErr f a8) ∧
      (act = 3 → t.obs.live.getD Ctr.timeSet.idx 0 = min (s.obs.live.getD Ctr.timeSet.idx 0 + 1) 0xFFFFFFFF) := by
  obtain ⟨m, hm⟩ : ∃ m : State, m = { s with clock := s.beaconClock act (beaconErr f a8), fab := s.beaconFab pt f a8 locked } := ⟨_, rfl⟩
  obtain ⟨c, hc⟩ : ∃ c : State, c = if act = 3 then m.count .timeSet else m := ⟨_, rfl⟩
  have e : s.beacon pt f a8 = c.emit .loop 0xC (act + 4 * b2n locked + 256 * f.hop.toNat) [unsignedOf 32 (beaconErr f a8)] := by
    unfold State.beacon
    dsimp only
    rw [ha, hc, hm]
    rfl
  obtain ⟨o, ho, htr⟩ := c.emit_eq .loop 0xC (act + 4 * b2n locked + 256 * f.hop.toNat) [unsignedOf 32 (beaconErr f a8)]
  have hmo : s.Only [.clock, .fab, .obs] m := by
    rw [hm]
    exact ⟨rfl, fun q hq => by cases q <;> first | rfl | simp at hq⟩
  have hmobs : m.obs = s.obs := by rw [hm]
  have hco : m.Only [.obs] c ∧ m.CountersBut [.timeSet] c ∧
      (act = 3 → c.obs.live.getD Ctr.timeSet.idx 0 = min (m.obs.live.getD Ctr.timeSet.idx 0 + 1) 0xFFFFFFFF) := by
    rw [hc]
    split_ifs with h3
    · obtain ⟨h1, h2, h4⟩ := m.count_spec .timeSet
      exact ⟨h1, h2, fun _ => h4⟩
    · exact ⟨.refl _ m, .refl _ m, fun h => absurd h h3⟩
  intro t
  have et : t = c.setObs o := e.trans ho
  rw [et]
  refine ⟨(hmo.trans (hco.1.mono (by simp))).trans ((c.setObs_only o).mono (by simp)),
    ((hco.2.1.of_obs hmobs).mono (by simp)).trans (htr.mono (by simp)), ?_, ?_, fun h3 => ?_⟩
  · exact (hco.1.2 .fab (by simp)).trans (by rw [hm])
  · exact (hco.1.2 .clock (by simp)).trans (by rw [hm])
  · have hk : (c.setObs o).obs.live.getD Ctr.timeSet.idx 0 = c.obs.live.getD Ctr.timeSet.idx 0 := htr.2 .timeSet (by decide)
    rw [hk, hco.2.2 h3, hmobs]

theorem exec_beaconTimeout {n : Nat} (hup : s.loopUp = true) (hl : s.fab.locked = true) (hb : s.fab.bcnTick = some n)
    (h : s.mgmt.inForce.fabBcnTimeout ≤ s.now - n) : exec .beaconTimeout s = .next (s.setFab { s.fab with locked := false }) := by
  show execBeaconTimeout s = _
  unfold execBeaconTimeout
  rw [hb]
  refine stepIf_of ?_
  rw [hup, hl]
  exact decide_eq_true h

theorem exec_beaconRelay {n : Nat} (hon : s.fabricOn = true) (hr : s.fab.relay = some (n, pt, f)) (hn : n ≤ s.now) :
    exec .beaconRelay s = .next (if n = s.now then (s.setFab { s.fab with relay := none }).request pt ⟨f, n, 1, none, none⟩
      else (s.setFab { s.fab with relay := none }).count .bcnLate) := by
  show execBeaconRelay s = _
  unfold execBeaconRelay
  rw [hr]
  refine stepIf_of ?_
  rw [hon, decide_eq_true hn]
  rfl

end

/-- Settles O55: a beacon's session, then the one act that e decides; its relay and its timeout are one step each. -/
theorem beaconsKeepFabricTime : Obligations.BeaconsKeepFabricTime := by
  intro s
  refine ⟨fun v pt f a8 d hv hty ht => ?_, fun n hup hl hb h => exec_beaconTimeout hup hl hb h, fun n pt f hon hr => ⟨fun hn => ?_, fun hn => ?_⟩⟩
  · intro mine
    obtain ⟨-, fab, hvs⟩ := State.takeFrame_eq ht
    have hnow : v.now = s.now := by rw [hvs]; rfl
    have hex := exec_beaconAccept (a8 := a8) hv hty ht
    refine ⟨fun hm hn hall hidle hacc => ?_, fun u hu => ?_⟩
    · obtain ⟨r, h1, h2, h3⟩ := State.beaconSession_busy (pt := pt) (d := d) hty hm hn hall hidle
      rw [State.acceptsBeacon_congr (h1.2 .mgmt (by simp)) (h1.2 .fab (by simp)) (h1.2 .clock (by simp)), hacc,
        if_neg Bool.false_ne_true] at hex
      rw [hnow] at h3
      exact ⟨_, r, hex, h1, h2, h3⟩
    · rw [State.beaconSession_of (pt := pt) (d := d) hty hnow hu] at hex
      have hun : u.now = s.now := by
        obtain ⟨-, rfl⟩ | ⟨-, -, rfl⟩ | ⟨-, n, -, -, -, rfl⟩ := hu
        · exact hnow
        · exact hnow
        · exact hnow
      refine ⟨fun hacc => by rw [hex, hacc]; rfl, fun hacc => ?_⟩
      intro full b e sets near
      rw [hacc, if_pos rfl] at hex
      have he : beaconErr f a8 = e := rfl
      clear_value e
      have hfull : (f.len != 0) = true ↔ full := bne_iff_ne
      obtain ⟨c1, c2, c3⟩ := beaconAct_cases u.fab.locked (f.len != 0) e
      obtain ⟨act, locked, ha⟩ : ∃ act locked, beaconAct u.fab.locked (f.len != 0) e = (act, locked) := ⟨_, _, rfl⟩
      obtain ⟨h1, h2, h3, h4, h5⟩ := State.beacon_spec (pt := pt) (a8 := a8) (he.symm ▸ ha)
      rw [he] at h4
      have hlk : (u.beacon pt f a8).fab.locked = locked := by rw [h3]; rfl
      refine ⟨_, hex, h1, h2, ?_, fun hs => ?_, fun hnr h => ?_, fun hnr h => ?_, fun hnr ha' hb' => ?_, fun hnf hnn => ?_, ?_, fun h => ?_,
        fun hr hh => ?_⟩
      · rw [h3]
        unfold State.beaconFab
        rw [he, hun]
      · rw [c1 (hfull.2 hs.1) hs.2, Prod.mk.injEq] at ha
        obtain ⟨rfl, rfl⟩ := ha
        exact ⟨h4, hlk, h5 rfl⟩
      · rw [(c2 hnr.1 hnr.2).1 h, Prod.mk.injEq] at ha
        obtain ⟨rfl, rfl⟩ := ha
        exact ⟨h4, hlk⟩
      · rw [(c2 hnr.1 hnr.2).2.1 h, Prod.mk.injEq] at ha
        obtain ⟨rfl, rfl⟩ := ha
        exact ⟨h4, hlk⟩
      · rw [(c2 hnr.1 hnr.2).2.2 ha' hb', Prod.mk.injEq] at ha
        obtain ⟨rfl, rfl⟩ := ha
        exact ⟨h4, hlk⟩
      · rw [c3 (by rw [← Bool.not_eq_true, hfull]; exact hnf) hnn, Prod.mk.injEq] at ha
        obtain ⟨rfl, rfl⟩ := ha
        exact ⟨h4, hlk⟩
      · rw [h3]
        exact if_congr (by simp) rfl rfl
      · rw [h3]
        refine if_neg ?_
        rcases h with h | h
        · simp [h]
        · simp [h]
      · rw [h3]
        refine (if_pos (by rw [hr]; exact bne_iff_ne.2 hh)).trans ?_
        unfold State.noSooner
        rw [hun]
  · rw [exec_beaconRelay hon hr (Nat.le_of_eq hn), if_pos hn]
    rfl
  · obtain ⟨h1, h2, h3⟩ := (s.setFab { s.fab with relay := none }).count_spec .bcnLate
    refine ⟨_, (exec_beaconRelay hon hr hn.le).trans (by rw [if_neg (Nat.ne_of_lt hn)]), ((s.setFab_only _).mono (by simp)).trans (h1.mono (by simp)),
      h2.of_obs rfl, rfl, h3⟩

end Sys2Proof.Machine
end



section
/-! PROOFS. Reports that become faults, and their reactions (13 R314 to R330, R335, R338). -/

namespace Sys2Proof.Machine

open Sys2Proof

set_option Elab.async false

section
variable {s t u : State} {f : Fault0} {e : LogEntry}

/-! ## The resets of a reaction -/

/-- What the resets of a reaction leave alone, and what they bring. -/
structure State.Resets (is : List Island) (s t : State) : Prop where
  same : t.pending = s.pending ∧ t.nvm = s.nvm ∧ t.clock = s.clock ∧ t.faults = s.faults
  low : t.pins.faultLow = s.pins.faultLow
  down : ∀ i ∈ is, (t.isl.at i).down = true
  others : ∀ i, i ∉ is → t.isl.at i = s.isl.at i
  alarms : ∀ n b, (⟨n, .hwAlarm b⟩ ∈ t.loop.sched ↔ ⟨n, .hwAlarm b⟩ ∈ s.loop.sched) ∧
    (⟨n, .auxAlarm b⟩ ∈ t.loop.sched ↔ ⟨n, .auxAlarm b⟩ ∈ s.loop.sched)

theorem State.Resets.refl (s : State) : s.Resets [] s :=
  ⟨⟨rfl, rfl, rfl, rfl⟩, rfl, fun _ h => (nomatch h), fun _ _ => rfl, fun _ _ => ⟨Iff.rfl, Iff.rfl⟩⟩

theorem State.Resets.cons {i : Island} {is : List Island} (h : s.Resets [i] t) (k : t.Resets is u) : s.Resets (i :: is) u := by
  obtain ⟨⟨a1, a2, a3, a4⟩, al, ad, ao, aa⟩ := h
  obtain ⟨⟨b1, b2, b3, b4⟩, bl, bd, bo, ba⟩ := k
  refine ⟨⟨b1.trans a1, b2.trans a2, b3.trans a3, b4.trans a4⟩, bl.trans al, fun j hj => ?_, fun j hj => ?_, fun n b => ?_⟩
  · by_cases hm : j ∈ is
    · exact bd j hm
    · rw [bo j hm]
      exact ad j (by simpa [hm] using hj)
  · rw [List.mem_cons, not_or] at hj
    exact (bo j hj.2).trans (ao j (by simpa using hj.1))
  · exact ⟨(ba n b).1.trans (aa n b).1, (ba n b).2.trans (aa n b).2⟩

theorem State.fence_alarms (s : State) (i : Island) (n : Nat) (b : Bool) :
    (⟨n, .hwAlarm b⟩ ∈ (s.fence i).loop.sched ↔ ⟨n, .hwAlarm b⟩ ∈ s.loop.sched) ∧
      (⟨n, .auxAlarm b⟩ ∈ (s.fence i).loop.sched ↔ ⟨n, .auxAlarm b⟩ ∈ s.loop.sched) := by
  cases i with
  | mgmt => exact ⟨Iff.rfl, Iff.rfl⟩
  | aon => exact ⟨Iff.rfl, Iff.rfl⟩
  | meas =>
    have h : s.fenceMeas.loop = s.loop := by
      obtain ⟨m, hm, -⟩ := s.fenceMeas_eq
      rw [hm]
    show (_ ∈ s.fenceMeas.loop.sched ↔ _) ∧ (_ ∈ s.fenceMeas.loop.sched ↔ _)
    rw [h]
    exact ⟨Iff.rfl, Iff.rfl⟩
  | loop =>
    show (_ ∈ s.fenceLoop.loop.sched ↔ _) ∧ (_ ∈ s.fenceLoop.loop.sched ↔ _)
    have hif (v : State) (c : Bool) (m : Mgmt) : ∃ m', (if c = true then v.setMgmt m else v) = v.setMgmt m' := by
      cases c
      · exact ⟨v.mgmt, rfl⟩
      · exact ⟨m, rfl⟩
    unfold State.fenceLoop
    dsimp only
    obtain ⟨m1, h1⟩ := hif s s.fsk.tx.isSome (s.mgmt.cancel 0x0508)
    rw [h1]
    generalize List.any _ _ = c2
    obtain ⟨m2, h2⟩ := hif (s.setMgmt m1) c2 (s.setMgmt m1).mgmt.cancelFix
    rw [h2]
    obtain ⟨g, k, hk, -⟩ := ((s.setMgmt m1).setMgmt m2).forgetLoop_eq
    rw [hk]
    simp [State.setMgmt]

theorem State.assertReset_resets (s : State) (i : Island) (origin : Byte) : s.Resets [i] (s.assertReset i origin false) := by
  by_cases hx : ((s.isl.at i).down && !(s.isl.at i).dead) = true
  · have hd : (s.isl.at i).down = true := by
      rw [Bool.and_eq_true] at hx
      exact hx.1
    have ht : ∃ o, s.assertReset i origin false = s.setIsl i { s.isl.at i with origin := o } := by
      unfold State.assertReset
      dsimp only
      rw [if_pos hx]
      split
      · exact ⟨_, rfl⟩
      · exact ⟨(s.isl.at i).origin, by cases i <;> rfl⟩
    obtain ⟨o, ho⟩ := ht
    rw [ho]
    refine ⟨⟨rfl, rfl, rfl, rfl⟩, rfl, fun j hj => ?_, fun j hj => ?_, fun _ _ => ⟨Iff.rfl, Iff.rfl⟩⟩
    · rw [List.mem_singleton] at hj
      subst hj
      exact (congrArg Isl.down (Quad.at_put_same ..)).trans hd
    · exact Quad.at_put_ne _ _ (by simpa using hj)
  · obtain ⟨y, o, hy, hyd⟩ : ∃ y o, s.assertReset i origin false = ((s.fence i).setIsl i y).setObs o ∧ y.down = true := by
      unfold State.assertReset
      dsimp only
      rw [if_neg hx]
      obtain ⟨o, ho, -⟩ := State.emit_eq ((s.fence i).setIsl i { s.isl.at i with
        up := false, down := true, resetAt := some s.now, released := false, checked := false, stopped := false, supply := false
        shadow := true, shadowEnd := none, origin := origin, dead := false, wdtFired := false }) .aon 0xA ((srcOf i).toNat + 256 * 0) []
      exact ⟨_, o, ho, rfl⟩
    have hf := s.fence_fenced i
    have hisl : (s.fence i).isl = s.isl := hf.only.2 .isl (by simp)
    rw [hy]
    refine ⟨⟨hf.only.1, hf.only.2 .nvm (by simp), hf.only.2 .clock (by simp), hf.only.2 .faults (by simp)⟩, ?_, fun j hj => ?_,
      fun j hj => ?_, fun n b => s.fence_alarms i n b⟩
    · show (s.fence i).pins.faultLow = _
      by_cases hi : i = .aon
      · rw [hi]
        rfl
      · rw [hf.pins hi]
    · rw [List.mem_singleton] at hj
      subst hj
      exact (congrArg Isl.down (Quad.at_put_same ..)).trans hyd
    · show ((s.fence i).isl.put i y).at j = _
      rw [Quad.at_put_ne _ _ (by simpa using hj), hisl]

theorem State.carryResets_resets (s : State) (react det cause : Nat) :
    s.Resets (reactIslands react det cause) (s.carryResets react det cause) := by
  unfold State.carryResets
  generalize reactIslands react det cause = is
  induction is generalizing s with
  | nil => exact .refl s
  | cons i is ih => exact (s.assertReset_resets i _).cons (ih _)

/-! ## The entry of a report -/

/-- The class at which a fault is handled before escalation. -/
def State.cfgOf (s : State) (f : Fault0) : Nat := max (s.classOf f.det f.cause) f.atLeast

/-- The open fault of a class, CORR or CONT, that is not acknowledged. -/
def State.rival (s : State) (c : Nat) : Option Open :=
  if c = 0 ∨ c = 1 then s.faults.opens.find? fun o => o.cls == c && !o.acked else none

/-- The rivals that raise a fault by one class, and by a second one. -/
def State.first (s : State) (f : Fault0) : Option Open := s.rival (s.cfgOf f)

def State.second (s : State) (f : Fault0) : Option Open := if (s.first f).isSome then s.rival (s.cfgOf f + 1) else none

def State.clsOf (s : State) (f : Fault0) : Nat := s.cfgOf f + b2n (s.first f).isSome + b2n (s.second f).isSome

/-- The ORIGIN of a fault that no shadow covers: its rival's detector. -/
def originOf : Option Open → Byte
  | some o => BitVec.ofNat 8 o.det.toNat
  | none => 0xFF

def State.entryOf (s : State) (f : Fault0) (conseq : Bool) (origin : Byte) (cls : Nat) (esc : Bool) : LogEntry :=
  ⟨BitVec.ofNat 6 f.det, cls, s.classOf f.det f.cause, f.inj, f.real, conseq, esc, conseq, false, false, min f.count 255, f.stamp,
    BitVec.ofNat 16 f.cause, origin, f.island, s.faults.lseq⟩

/-- The entry of a fault that no shadow covers. -/
def State.openEntry (s : State) (f : Fault0) : LogEntry :=
  s.entryOf f false (originOf ((s.second f).or (s.first f))) (s.clsOf f) (s.first f).isSome

theorem State.rival_eq (s : State) (c : Nat) : (if (false || decide (2 ≤ c)) = true then none else
    s.faults.opens.find? fun o => o.cls == c && !o.acked) = s.rival c := by
  unfold State.rival
  by_cases h : c = 0 ∨ c = 1
  · rw [if_pos h, if_neg (by simp; omega)]
  · rw [if_neg h, if_pos (by simp; omega)]

theorem State.escalated_eq (s : State) (f : Fault0) : ((s.second f).or (s.first f)).isSome = (s.first f).isSome := by
  unfold State.second
  cases h : s.first f with
  | none => rfl
  | some o => cases s.rival (s.cfgOf f + 1) <;> rfl

/-- A fault of another detector than the newest entry's, which no shadow covers, gets an entry of its own and is raised (13 R328, R330). -/
theorem State.handleFault_open (hs : s.shadowOf f.det f.cause = none)
    (h : ∀ x, s.faults.log.head? = some x → x.det ≠ BitVec.ofNat 6 f.det) :
    s.handleFault f = (s.filed (s.openEntry f)).raise f (s.clsOf f) s.faults.lseq := by
  unfold State.handleFault
  extract_lets cfg shadow conseq rival first second older cls e s' same more n t
  have hsh : shadow = none := hs
  have hcs : conseq = false := by
    show shadow.isSome = false
    rw [hsh]
    rfl
  have hrv (c : Nat) : rival c = s.rival c := by
    show (if (conseq || decide (2 ≤ c)) = true then _ else _) = _
    rw [hcs]
    exact s.rival_eq c
  have hfirst : first = s.first f := hrv _
  have hsecond : second = s.second f := by
    show (if first.isSome = true then rival (cfg + 1) else none) = _
    rw [hfirst, hrv]
    rfl
  have hcls : cls = s.clsOf f := by
    show cfg + b2n first.isSome + b2n second.isSome = _
    rw [hfirst, hsecond]
    rfl
  have hold : older = (s.second f).or (s.first f) := by
    show second.or first = _
    rw [hfirst, hsecond]
  have he : e = s.openEntry f := by
    simp only [e, hcls, hcs, hsh, hold]
    unfold State.openEntry State.entryOf
    rw [← s.escalated_eq f]
    cases (s.second f).or (s.first f) <;> rfl
  have hs' : s' = s := by
    show (if conseq = true then _ else _) = _
    rw [hcs]
    rfl
  have hsame : same = none := by
    have hd : e.det = BitVec.ofNat 6 f.det := rfl
    simp only [same, hs']
    split
    · rfl
    next x xs hx =>
      have hdet : (x.det == e.det) = false := beq_false_of_ne (hd ▸ h x (by rw [hx]; rfl))
      simp [hdet]
  have ht : t = s.filed (s.openEntry f) := by
    show ((s'.logEntry e).emitFault e).fatalLogged cls = _
    rw [hs', he, hcls]
    rfl
  have hn : n = s.faults.lseq := by
    show s'.faults.lseq = _
    rw [hs']
  clear_value same t n
  subst hsame
  dsimp only
  rw [hcs, ht, hcls, hn]
  rfl

/-- A fault that a shadow covers is logged as CONSEQUENTIAL (13 R330). -/
theorem State.handleFault_shadowed {origin : Byte} (hs : s.shadowOf f.det f.cause = some origin)
    (h : ∀ x, s.faults.log.head? = some x → x.det ≠ BitVec.ofNat 6 f.det) :
    s.handleFault f = (s.count .fltConseq).filed (s.entryOf f true origin (s.cfgOf f) false) := by
  unfold State.handleFault
  extract_lets cfg shadow conseq rival first second older cls e s' same more n t
  have hsh : shadow = some origin := hs
  have hcs : conseq = true := by
    show shadow.isSome = true
    rw [hsh]
    rfl
  have hfirst : first = none := by
    show (if (conseq || decide (2 ≤ cfg)) = true then none else _) = _
    rw [hcs]
    rfl
  have hsecond : second = none := by
    show (if first.isSome = true then rival (cfg + 1) else none) = _
    rw [hfirst]
    rfl
  have hcls : cls = s.cfgOf f := by
    show cfg + b2n first.isSome + b2n second.isSome = _
    rw [hfirst, hsecond]
    rfl
  have hold : older = none := by
    show second.or first = _
    rw [hfirst, hsecond]
    rfl
  have he : e = s.entryOf f true origin (s.cfgOf f) false := by
    simp only [e, hcls, hcs, hsh, hold]
    rfl
  have hs' : s' = s.count .fltConseq := by
    show (if conseq = true then _ else _) = _
    rw [hcs]
    rfl
  have hsame : same = none := by
    have hd : e.det = BitVec.ofNat 6 f.det := rfl
    simp only [same, hs']
    split
    · rfl
    next x xs hx =>
      have hdet : (x.det == e.det) = false := beq_false_of_ne (hd ▸ h x (by rw [show s.faults.log = _ from hx]; rfl))
      simp [hdet]
  have ht : t = (s.count .fltConseq).filed (s.entryOf f true origin (s.cfgOf f) false) := by
    show ((s'.logEntry e).emitFault e).fatalLogged cls = _
    rw [hs', he, hcls]
    rfl
  clear_value same t n
  subst hsame
  dsimp only
  rw [hcs, ht]
  rfl

/-- The collector with a new entry in a log that has room. -/
def Faults.logged (g : Faults) (e : LogEntry) : Faults := { g with
  log := e :: g.log, lseq := g.lseq + 1, fatalSeen := g.fatalSeen || e.cls == 2 }

theorem State.filed_eq (he : e.lseq = s.faults.lseq) (hl : s.faults.log.length < 16) : ∃ o, s.OnlyTrace (s.setObs o) ∧
    s.filed e = (((s.setNvm (s.nvm.logFault e)).setFaults (s.faults.logged e)).ring 9).setObs o := by
  have hee : { e with lseq := s.faults.lseq } = e := by rw [← he]
  have hlog : s.logEntry e = ((s.setNvm (s.nvm.logFault e)).setFaults { s.faults with log := e :: s.faults.log, lseq := s.faults.lseq + 1 }).ring 9 := by
    unfold State.logEntry
    extract_lets s1 full l s2
    have hfull : full = false := decide_eq_false (Nat.not_le.2 hl)
    have h2 : s2 = s1 := if_neg (by rw [hfull]; decide)
    have hll : l = s.faults.log := if_neg (by rw [hfull]; decide)
    clear_value s2 l
    subst h2 hll
    show (((s.setNvm (s.nvm.logFault { e with lseq := s.faults.lseq })).setFaults { s.faults with
      log := { e with lseq := s.faults.lseq } :: s.faults.log, lseq := s.faults.lseq + 1 }).ring 9) = _
    rw [hee]
  obtain ⟨o, ho, htr⟩ := (s.logEntry e).emit_eq .aon 3 (e.det.toNat * 1024 + e.cls * 256 + e.flags)
    [e.cause.toNat * 65536 + e.island.toNat * 256 + e.origin.toNat]
  refine ⟨o, (htr.of_obs (by rw [hlog]; rfl)).to_obs rfl, ?_⟩
  unfold State.filed
  rw [show (s.logEntry e).emitFault e = _ from ho, hlog]
  unfold State.fatalLogged
  split_ifs with h2
  · have : (s.faults.logged e).fatalSeen = true := by
      show (s.faults.fatalSeen || e.cls == 2) = true
      rw [h2, Bool.or_comm]
      rfl
    show _ = ((((s.setNvm _).setFaults { s.faults.logged e with fatalSeen := (s.faults.logged e).fatalSeen }).ring 9).setObs o)
    rw [this]
    rfl
  · have : (s.faults.logged e).fatalSeen = s.faults.fatalSeen := by
      show (s.faults.fatalSeen || e.cls == 2) = _
      rw [beq_false_of_ne h2, Bool.or_false]
    show _ = ((((s.setNvm _).setFaults { s.faults.logged e with fatalSeen := (s.faults.logged e).fatalSeen }).ring 9).setObs o)
    rw [this]
    rfl

/-! ## What a class brings -/

/-- The open record of a fault. -/
def State.openOf (s : State) (f : Fault0) (cls : Nat) (n : BitVec 16) : Open := {
  det := BitVec.ofNat 6 f.det, cause := BitVec.ofNat 16 f.cause, island := f.island, cls := cls
  react := s.mgmt.inForce.frReact f.det, host := s.mgmt.inForce.frAckHost f.det || cls == 2, acked := false, reacted := false
  alarm := false, aux := f.det == 0x15, grace := if cls = 1 then some (s.now + s.mgmt.inForce.fltGrace) else none, at_ := s.now, lseq := n }

/-- A fault that is open, and counted or shown on FAULT_N. -/
def State.shown (s : State) (f : Fault0) (cls : Nat) (n : BitVec 16) : State :=
  let t := s.setFaults { s.faults with opens := s.faults.opens ++ [s.openOf f cls n] }
  if cls = 0 then t.count .fltCorr else t.faultLow

/-- SUP_AUX commands its low alarm (13 R324). -/
def State.auxShown (s : State) (det : Nat) : State :=
  if det = 0x15 then (s.setFaults s.faults.showAlarms).schedule (s.now + 5) (.auxAlarm true) else s

theorem State.raise_low {cls : Nat} {n : BitVec 16} (h : cls ≠ 2) : s.raise f cls n = (s.shown f cls n).auxShown f.det := if_neg h

theorem State.shown_corr (s : State) (f : Fault0) (n : BitVec 16) : let t := s.shown f 0 n
    s.Only [.faults, .obs] t ∧ t.faults = { s.faults with opens := s.faults.opens ++ [s.openOf f 0 n] } ∧ s.CountersBut [.fltCorr] t :=
  ⟨((s.setFaults_only _).mono (by simp)).trans ((State.setObs_only _ _).mono (by simp)), rfl, (s.countN_counters .fltCorr 1).to_obs rfl⟩

theorem State.shown_cont (s : State) (f : Fault0) (n : BitVec 16) : let t := s.shown f 1 n
    s.Only [.faults, .pins] t ∧ t.faults = { s.faults with opens := s.faults.opens ++ [s.openOf f 1 n], lowUntil := s.now + 500 } ∧
      t.pins = { s.pins with faultLow := true } :=
  ⟨⟨rfl, fun q hq => by cases q <;> first | exact absurd (by decide) hq | rfl⟩, rfl, rfl⟩

theorem State.auxShown_spec (s : State) (det : Nat) : let t := s.auxShown det
    s.Only [.faults, .loop] t ∧ t.faults = { s.faults with log := t.faults.log } ∧
      (det ≠ 0x15 → t.faults.log = s.faults.log ∧ t.loop = s.loop) ∧
      (det = 0x15 → t.loop = { s.loop with sched := s.loop.sched ++ [⟨s.now + 5, .auxAlarm true⟩] } ∧
        t.faults.log = s.faults.log.map fun e => { e with alarm := t.faults.alarmed e.lseq }) := by
  unfold State.auxShown
  split_ifs with ha
  · exact ⟨((s.setFaults_only _).mono (by simp)).trans ((State.setLoop_only _ _).mono (by simp)), rfl, fun h => absurd ha h,
      fun _ => ⟨rfl, rfl⟩⟩
  · exact ⟨.refl _ s, rfl, fun _ => ⟨rfl, rfl⟩, fun h => absurd h ha⟩

/-- What a CORR or a CONT fault brings (13 R316, R324, R325). -/
theorem State.raise_spec {cls : Nat} {n : BitVec 16} (h : cls ≤ 1) : let t := s.raise f cls n
    s.Only [.faults, .pins, .loop, .obs] t ∧ t.faults.opens = s.faults.opens ++ [s.openOf f cls n] ∧
      (t.faults.reports = s.faults.reports ∧ t.faults.lseq = s.faults.lseq ∧ t.faults.fatalSeen = s.faults.fatalSeen) ∧
      (f.det ≠ 0x15 → t.faults.log = s.faults.log ∧ t.loop = s.loop) ∧
      (f.det = 0x15 → t.loop = { s.loop with sched := s.loop.sched ++ [⟨s.now + 5, .auxAlarm true⟩] } ∧
        t.faults.log = s.faults.log.map fun e => { e with alarm := t.faults.alarmed e.lseq }) ∧
      (cls = 0 → s.CountersBut [.fltCorr] t ∧ t.pins = s.pins ∧ t.faults.lowUntil = s.faults.lowUntil) ∧
      (cls = 1 → t.obs = s.obs ∧ t.pins = { s.pins with faultLow := true } ∧ t.faults.lowUntil = s.now + 500) := by
  intro t
  have ht : t = (s.shown f cls n).auxShown f.det := State.raise_low (by omega)
  obtain ⟨a1, a2, a3, a4⟩ := (s.shown f cls n).auxShown_spec f.det
  rw [← ht] at a1 a2 a3 a4
  clear_value t
  obtain rfl | rfl : cls = 0 ∨ cls = 1 := by omega
  · obtain ⟨b1, b2, b3⟩ := s.shown_corr f n
    have hn : (s.shown f 0 n).now = s.now := congrArg Clock.tick (b1.2 .clock (by simp))
    generalize s.shown f 0 n = v at *
    have hlog : v.faults.log = s.faults.log := by rw [b2]
    rw [hlog, b1.2 .loop (by simp)] at a3 a4
    rw [hn] at a4
    exact ⟨(b1.mono (by simp)).trans (a1.mono (by simp)), by rw [a2, b2], by rw [a2, b2]; exact ⟨rfl, rfl, rfl⟩, a3, a4,
      fun _ => ⟨b3.to_obs (a1.2 .obs (by simp)), (a1.2 .pins (by simp)).trans (b1.2 .pins (by simp)), by rw [a2, b2]⟩,
      fun h => absurd h (by decide)⟩
  · obtain ⟨b1, b2, b3⟩ := s.shown_cont f n
    have hn : (s.shown f 1 n).now = s.now := congrArg Clock.tick (b1.2 .clock (by simp))
    generalize s.shown f 1 n = v at *
    have hlog : v.faults.log = s.faults.log := by rw [b2]
    rw [hlog, b1.2 .loop (by simp)] at a3 a4
    rw [hn] at a4
    exact ⟨(b1.mono (by simp)).trans (a1.mono (by simp)), by rw [a2, b2], by rw [a2, b2]; exact ⟨rfl, rfl, rfl⟩, a3, a4,
      fun h => absurd h (by decide),
      fun _ => ⟨(a1.2 .obs (by simp)).trans (b1.2 .obs (by simp)), (a1.2 .pins (by simp)).trans b3, by rw [a2, b2]⟩⟩

/-! ## A FATAL fault -/

/-- What no reaction changes of a log entry. -/
def LogEntry.still (e : LogEntry) : LogEntry := { e with reacted := false, alarm := false }

def Faults.stills (g : Faults) : List LogEntry := g.log.map LogEntry.still

theorem Faults.showAlarms_stills (g : Faults) : g.showAlarms.stills = g.stills := by
  simp only [Faults.stills, Faults.showAlarms, List.map_map]
  rfl

theorem Faults.editLog_stills (g : Faults) (n : BitVec 16) : (g.editLog n fun e => { e with reacted := true }).stills = g.stills := by
  simp only [Faults.stills, Faults.editLog, List.map_map]
  refine List.map_congr_left fun e _ => ?_
  dsimp only [Function.comp_apply]
  split <;> rfl

/-- What is left of a fault on its way to its reaction: the log but for REACTED and ALARM, and FATAL_SEEN. -/
def State.LogStays (s t : State) : Prop := t.faults.stills = s.faults.stills ∧ t.faults.fatalSeen = s.faults.fatalSeen

theorem State.carryOut_stays (s : State) (n : BitVec 16) (det cause react : Nat) (alarm : Bool) :
    s.LogStays (s.carryOut n det cause react alarm) := by
  have hf := s.carryOut_faults n det cause react alarm
  refine ⟨?_, by rw [hf]; rfl⟩
  rw [hf, Faults.showAlarms_stills]
  exact Faults.editLog_stills _ n

theorem State.closeWindows_stays (s : State) (isls : List Island) : s.LogStays (s.closeWindows isls) := by
  unfold State.closeWindows
  extract_lets hit close src g
  have hfold : (List.foldl (fun f (o : Open) => f.editLog o.lseq fun e => { e with reacted := true }) g (s.faults.opens.filter hit)).stills =
      g.stills ∧ (List.foldl (fun f (o : Open) => f.editLog o.lseq fun e => { e with reacted := true }) g
        (s.faults.opens.filter hit)).fatalSeen = g.fatalSeen :=
    List.foldlRecOn (motive := fun g' : Faults => g'.stills = g.stills ∧ g'.fatalSeen = g.fatalSeen) _ _ ⟨rfl, rfl⟩
      fun g' h' o _ => ⟨(g'.editLog_stills o.lseq).trans h'.1, h'.2⟩
  exact ⟨(Faults.showAlarms_stills _).trans hfold.1, hfold.2⟩

theorem State.auxShown_stays (s : State) (det : Nat) : s.LogStays (s.auxShown det) := by
  unfold State.auxShown
  split_ifs
  · exact ⟨Faults.showAlarms_stills _, rfl⟩
  · exact ⟨rfl, rfl⟩

/-- The reaction of a FATAL fault, before its entry waits for the snapshot. -/
def State.struckBy (s : State) (f : Fault0) (n : BitVec 16) : State :=
  ((((s.shown f 2 n).auxShown f.det).closeWindows (reactIslands (s.mgmt.inForce.frReact f.det) f.det f.cause)).carryOut n f.det f.cause
    (s.mgmt.inForce.frReact f.det) true)

theorem State.raise_fatal (s : State) (f : Fault0) (n : BitVec 16) : ∃ w, s.raise f 2 n = (s.struckBy f n).setFaults {
    (s.struckBy f n).faults with snapWait := w } ∧ ∀ e, (s.struckBy f n).faults.log.find? (fun e => e.lseq == n) = some e →
      w = (s.struckBy f n).faults.snapWait ++ [e] := by
  have e : s.raise f 2 n = (match (s.struckBy f n).faults.log.find? fun e => e.lseq == n with
      | some e => (s.struckBy f n).setFaults { (s.struckBy f n).faults with snapWait := (s.struckBy f n).faults.snapWait ++ [e] }
      | none => s.struckBy f n) := by
    unfold State.raise
    rw [if_pos rfl]
    rfl
  rw [e]
  cases h : (s.struckBy f n).faults.log.find? fun e => e.lseq == n with
  | none => exact ⟨_, rfl, fun e he => nomatch he⟩
  | some x => exact ⟨_, rfl, fun e he => by cases he; rfl⟩

theorem State.raise_stays (s : State) (f : Fault0) (n : BitVec 16) : s.LogStays (s.raise f 2 n) := by
  obtain ⟨w, hw, -⟩ := s.raise_fatal f n
  have h1 := (s.shown f 2 n).auxShown_stays f.det
  have h2 := ((s.shown f 2 n).auxShown f.det).closeWindows_stays (reactIslands (s.mgmt.inForce.frReact f.det) f.det f.cause)
  have h3 := (((s.shown f 2 n).auxShown f.det).closeWindows (reactIslands (s.mgmt.inForce.frReact f.det) f.det f.cause)).carryOut_stays
    n f.det f.cause (s.mgmt.inForce.frReact f.det) true
  rw [hw]
  exact ⟨h3.1.trans (h2.1.trans h1.1), h3.2.trans (h2.2.trans h1.2)⟩

/-- Without a CONT fault no window closes. -/
theorem State.closeWindows_eq (isls : List Island) (h : ∀ o ∈ s.faults.opens, o.cls ≠ 1) :
    s.closeWindows isls = s.setFaults s.faults.showAlarms := by
  unfold State.closeWindows
  extract_lets hit close src g
  have hh : ∀ o ∈ s.faults.opens, hit o = false := fun o ho => by simp [hit, h o ho]
  have hf : s.faults.opens.filter hit = [] := List.filter_eq_nil_iff.2 fun o ho => by rw [hh o ho]; decide
  have hg : g = s.faults := by
    have hm : s.faults.opens.map close = s.faults.opens :=
      (List.map_congr_left (g := id) fun o ho => if_neg (by rw [hh o ho]; decide)).trans (List.map_id _)
    show ({ s.faults with opens := s.faults.opens.map close } : Faults) = _
    rw [hm]
  rw [hf, hg]
  rfl

/-- The reaction of a fault, with its alarm or without: its resets, its marks, and the alarm's command. -/
theorem State.carryOut_spec (s : State) (n : BitVec 16) (det cause react : Nat) (alarm : Bool) :
    let t := s.carryOut n det cause react alarm
    ∃ u, s.Resets (reactIslands react det cause) u ∧ t = { u with faults := t.faults, loop := t.loop } ∧
      t.loop = if alarm then { u.loop with sched := u.loop.sched ++ [⟨s.now + 5, .hwAlarm true⟩] } else u.loop := by
  intro t
  have hr := s.carryResets_resets react det cause
  refine ⟨_, hr, ?_⟩
  have hn : (s.carryResets react det cause).now = s.now := congrArg Clock.tick hr.same.2.2.1
  cases alarm
  · exact ⟨rfl, rfl⟩
  · refine ⟨rfl, ?_⟩
    show ({ (s.carryResets react det cause).loop with
      sched := (s.carryResets react det cause).loop.sched ++ [⟨(s.carryResets react det cause).now + 5, .hwAlarm true⟩] } : LoopOut) = _
    rw [hn]
    rfl

/-- The state of a FATAL fault before its reaction, where it is the only one. -/
theorem State.auxShown_alone {n : BitVec 16} (ho : s.faults.opens = []) (hl : s.faults.log = [e]) :
    let t := (s.shown f 2 n).auxShown f.det
    s.Only [.faults, .pins, .loop] t ∧ t.pins.faultLow = true ∧ (f.det = 0x15 → ⟨s.now + 5, .auxAlarm true⟩ ∈ t.loop.sched) ∧
      ∃ b, t.faults = { s.faults with opens := [s.openOf f 2 n], log := [{ e with alarm := b }], lowUntil := s.now + 500 } := by
  intro t
  have e1 : t = (s.shown f 2 n).auxShown f.det := rfl
  unfold State.auxShown at e1
  split_ifs at e1 with hd
  · rw [e1]
    refine ⟨⟨rfl, fun q hq => by cases q <;> first | rfl | simp at hq⟩, rfl,
      fun _ => List.mem_append_right _ (List.mem_singleton_self _), (s.shown f 2 n).faults.alarmed e.lseq, ?_⟩
    show ({ s.faults with opens := s.faults.opens ++ [s.openOf f 2 n], lowUntil := s.now + 500, log := s.faults.log.map fun e => { e with
      alarm := (s.shown f 2 n).faults.alarmed e.lseq } } : Faults) = _
    rw [ho, hl]
    rfl
  · rw [e1]
    refine ⟨⟨rfl, fun q hq => by cases q <;> first | rfl | simp at hq⟩, rfl, fun h => absurd h hd, e.alarm, ?_⟩
    show ({ s.faults with opens := s.faults.opens ++ [s.openOf f 2 n], lowUntil := s.now + 500 } : Faults) = _
    rw [ho, ← hl]
    rfl

/-- The one entry of a log is marked REACTED. -/
theorem Faults.marked_alone {g : Faults} {x : LogEntry} {n : BitVec 16} (h : g.log = [x]) (hx : x.lseq = n) :
    ∃ l, (g.editLog n fun e => { e with reacted := true }).showAlarms.log = [l] ∧ (l.cls = x.cls ∧ l.reacted = true ∧ l.lseq = n) := by
  have he : (g.editLog n fun e => { e with reacted := true }).log = [{ x with reacted := true }] := by
    show g.log.map _ = _
    rw [h]
    exact congrArg (fun y => [y]) (if_pos hx)
  refine ⟨{ x with reacted := true, alarm := (g.editLog n fun e => { e with reacted := true }).alarmed x.lseq }, ?_, rfl, rfl, hx⟩
  show List.map _ (g.editLog n fun e => { e with reacted := true }).log = _
  rw [he]
  rfl

/-- What a FATAL fault brings where it is the only one (13 R322, R323, R325, R338). -/
theorem State.raise_alone {n : BitVec 16} (hdet : f.det < 64) (ho : s.faults.opens = []) (hl : s.faults.log = [e]) (hn : e.lseq = n) :
    let t := s.raise f 2 n
    t.pending = s.pending ∧ t.nvm = s.nvm ∧ t.clock = s.clock ∧ t.pins.faultLow = true ∧ t.faults.fatalSeen = s.faults.fatalSeen ∧
      t.faults.lowUntil = s.now + 500 ∧ (∃ o, t.faults.opens = [o] ∧ o.det = BitVec.ofNat 6 f.det ∧ o.cls = 2 ∧ o.reacted = true ∧
        o.alarm = true ∧ o.aux = (f.det == 0x15)) ∧
      (f.det = 0x15 → ⟨s.now + 5, .auxAlarm true⟩ ∈ t.loop.sched) ∧
      (∃ x, t.faults.log = [x] ∧ t.faults.snapWait = s.faults.snapWait ++ [x] ∧ x.cls = e.cls ∧ x.reacted = true) ∧
      ⟨s.now + 5, .hwAlarm true⟩ ∈ t.loop.sched ∧
      (∀ i ∈ reactIslands (s.mgmt.inForce.frReact f.det) f.det f.cause, (t.isl.at i).down = true) ∧
      ∀ i, i ∉ reactIslands (s.mgmt.inForce.frReact f.det) f.det f.cause → t.isl.at i = s.isl.at i := by
  intro t
  obtain ⟨h1, h2, h3, b, h4⟩ := State.auxShown_alone (s := s) (f := f) (n := n) ho hl
  obtain ⟨w, hw, hsnap⟩ := s.raise_fatal f n
  have hst : s.struckBy f n = (((s.shown f 2 n).auxShown f.det).closeWindows
    (reactIslands (s.mgmt.inForce.frReact f.det) f.det f.cause)).carryOut n f.det f.cause (s.mgmt.inForce.frReact f.det) true := rfl
  generalize (s.shown f 2 n).auxShown f.det = x at h1 h2 h3 h4 hst
  rw [State.closeWindows_eq _ (by rw [h4]; intro o hm; rw [List.mem_singleton] at hm; rw [hm]; exact (by decide : (2 : Nat) ≠ 1))] at hst
  have hxn : x.now = s.now := congrArg Clock.tick (h1.2 .clock (by simp))
  have hf := (x.setFaults x.faults.showAlarms).carryOut_faults n f.det f.cause (s.mgmt.inForce.frReact f.det) true
  obtain ⟨u, hr, hc, hcl⟩ := (x.setFaults x.faults.showAlarms).carryOut_spec n f.det f.cause (s.mgmt.inForce.frReact f.det) true
  rw [← hst] at hf hc hcl
  generalize s.struckBy f n = y at hf hc hcl hw hsnap
  rw [if_pos rfl, show (x.setFaults x.faults.showAlarms).now = s.now from hxn] at hcl
  obtain ⟨⟨r1, r2, r3, -⟩, rl, rd, ro, ra⟩ := hr
  obtain ⟨o, hoo, hod⟩ : ∃ o, y.faults.opens = [o] ∧ (o.det = BitVec.ofNat 6 f.det ∧ o.cls = 2 ∧ o.reacted = true ∧ o.alarm = true ∧
      o.aux = (f.det == 0x15)) := by
    refine ⟨(s.openOf f 2 n).carried n f.det true, by rw [hf, State.setFaults_faults, h4]; rfl, ?_⟩
    have hm : (s.openOf f 2 n).lseq = n ∧ (s.openOf f 2 n).det.toNat = f.det := ⟨rfl, by
      show (BitVec.ofNat 6 f.det).toNat = f.det
      rw [BitVec.toNat_ofNat]
      omega⟩
    unfold Open.carried
    rw [if_pos hm]
    exact ⟨rfl, rfl, rfl, rfl, rfl⟩
  obtain ⟨l, hll, hlc⟩ : ∃ l, y.faults.log = [l] ∧ (l.cls = e.cls ∧ l.reacted = true ∧ l.lseq = n) := by
    rw [hf, State.setFaults_faults]
    refine Faults.marked_alone (x := { e with alarm := x.faults.alarmed e.lseq }) ?_ hn
    show x.faults.log.map (fun e => { e with alarm := x.faults.alarmed e.lseq }) = _
    rw [show x.faults.log = [{ e with alarm := b }] from by rw [h4]]
    rfl
  have ht : t = y.setFaults { y.faults with snapWait := w } := hw
  have hww : w = y.faults.snapWait ++ [l] := hsnap l (by rw [hll]; exact List.find?_cons_of_pos (by rw [hlc.2.2]; exact beq_self_eq_true n))
  have hpn : y.pending = u.pending ∧ y.nvm = u.nvm ∧ y.clock = u.clock ∧ y.pins = u.pins ∧ y.isl = u.isl := by
    rw [hc]
    exact ⟨rfl, rfl, rfl, rfl, rfl⟩
  obtain ⟨y1, y2, y3, y4, y5⟩ := hpn
  rw [ht]
  refine ⟨y1.trans (r1.trans h1.1), y2.trans (r2.trans (h1.2 .nvm (by simp))), y3.trans (r3.trans (h1.2 .clock (by simp))), ?_, ?_, ?_,
    ⟨o, hoo, hod⟩, fun hd => ?_, ⟨l, hll, ?_, hlc.1, hlc.2.1⟩, ?_, fun i hi => ?_, fun i hi => ?_⟩
  · show y.pins.faultLow = true
    rw [y4, rl]
    exact h2
  · show y.faults.fatalSeen = _
    rw [hf, State.setFaults_faults, h4]
    rfl
  · show y.faults.lowUntil = _
    rw [hf, State.setFaults_faults, h4]
    rfl
  · show _ ∈ y.loop.sched
    rw [hcl]
    exact List.mem_append_left _ ((ra _ _).2.2 (h3 hd))
  · show w = _
    rw [hww, hf, State.setFaults_faults, h4]
    rfl
  · show _ ∈ y.loop.sched
    rw [hcl]
    exact List.mem_append_right _ (List.mem_singleton_self _)
  · show (y.isl.at i).down = true
    rw [y5]
    exact rd i hi
  · show y.isl.at i = _
    rw [y5, ro i hi]
    show x.isl.at i = _
    rw [h1.2 .isl (by simp)]

/-! ## A report of its own -/

section
variable {r : Report}

/-- The state in which the one report is consumed. -/
def State.consuming (s : State) : State := s.setFaults { s.faults with reports := [] }

theorem Report.alone_det (r : Report) : BitVec.ofNat 6 r.alone.det = r.det := by simp [Report.alone]

theorem Report.alone_cause (r : Report) : BitVec.ofNat 16 r.alone.cause = r.cause := by simp [Report.alone]

theorem Report.alone_entry (s : State) (r : Report) (conseq : Bool) (origin : Byte) (cls : Nat) (esc : Bool) :
    s.consuming.entryOf r.alone conseq origin cls esc = ⟨r.det, cls, s.classOf r.det.toNat r.cause.toNat, r.inj, r.real, conseq, esc, conseq,
      false, false, 1, r.stamp, r.cause, origin, r.island, s.faults.lseq⟩ := by
  unfold State.entryOf
  rw [r.alone_det, r.alone_cause]
  rfl

theorem Report.alone_det_iff (r : Report) : r.alone.det = 0x15 ↔ r.det = 0x15 := by
  rw [← BitVec.toNat_inj]
  rfl

theorem Report.alone_open (s : State) (r : Report) {cls : Nat} (h : cls ≤ 1) (n : BitVec 16) : s.openOf r.alone cls n =
    ⟨r.det, r.cause, r.island, cls, s.mgmt.inForce.frReact r.det.toNat, s.mgmt.inForce.frAckHost r.det.toNat, false, false, false,
      decide (r.det = 0x15), if cls = 1 then some (s.now + s.mgmt.inForce.fltGrace) else none, s.now, n⟩ := by
  have hhost : (s.mgmt.inForce.frAckHost r.alone.det || cls == 2) = s.mgmt.inForce.frAckHost r.det.toNat := by
    rw [beq_false_of_ne (by omega), Bool.or_false]
    rfl
  have haux : (r.alone.det == 0x15) = decide (r.det = 0x15) := by
    rw [beq_eq_decide]
    exact decide_eq_decide.2 r.alone_det_iff
  unfold State.openOf
  rw [r.alone_det, r.alone_cause, hhost, haux]
  rfl

/-- The log, the window and the NVM with one more entry. -/
def State.Logs (s t : State) (e : LogEntry) : Prop := t.faults.log = e :: s.faults.log ∧ t.faults.lseq = s.faults.lseq + 1 ∧
  t.faults.reports = [] ∧ t.win = { s.win with db := s.win.db ||| 0x200 } ∧ t.nvm = s.nvm.logFault e

theorem State.filed_logs (he : e.lseq = s.faults.lseq) (hl : s.faults.log.length < 16) : let t := s.consuming.filed e
    s.Only [.win, .faults, .nvm, .obs] t ∧ s.OnlyTrace t ∧ s.Logs t e ∧ t.faults.opens = s.faults.opens ∧
      t.faults.fatalSeen = (s.faults.fatalSeen || e.cls == 2) ∧ t.faults.lowUntil = s.faults.lowUntil ∧
      t.faults.snapWait = s.faults.snapWait := by
  intro t
  obtain ⟨o, ho, ht⟩ := State.filed_eq (s := s.consuming) he hl
  have e1 : t = _ := ht
  rw [e1]
  have honly : s.Only [.win, .faults, .nvm, .obs] ((((s.consuming.setNvm (s.consuming.nvm.logFault e)).setFaults
      (s.consuming.faults.logged e)).ring 9).setObs o) :=
    ((((s.setFaults_only _).mono (by simp)).trans ((State.setNvm_only _ _).mono (by simp))).trans
      ((State.setFaults_only _ _).mono (by simp))).trans (((State.setWin_only _ _).mono (by simp)).trans
        ((State.setObs_only _ o).mono (by simp)))
  exact ⟨honly, (ho.of_obs rfl).to_obs rfl, ⟨rfl, rfl, rfl, rfl, rfl⟩, rfl, rfl, rfl, rfl⟩

theorem exec_faultReport_open (hp : s.clock.powered = true) (hr : s.faults.reports = [r]) (hdue : r.aon = true ∨ r.posted < s.now)
    (hh : ∀ x, s.faults.log.head? = some x → x.det ≠ r.det) (hs : s.shadowOf r.det.toNat r.cause.toNat = none) :
    exec (.faultReport []) s = .next ((s.consuming.filed (s.consuming.openEntry r.alone)).raise r.alone (s.consuming.clsOf r.alone) s.faults.lseq) := by
  rw [exec_faultReport_one hp hr hdue]
  exact congrArg Host.Outcome.next (State.handleFault_open (s := s.consuming) hs (by rw [r.alone_det]; exact hh))

/-- A CORR or CONT fault that no shadow covers. -/
theorem faultReport_low (hp : s.clock.powered = true) (hr : s.faults.reports = [r]) (hdue : r.aon = true ∨ r.posted < s.now)
    (hh : ∀ x, s.faults.log.head? = some x → x.det ≠ r.det) (hl : s.faults.log.length < 16)
    (hs : s.shadowOf r.det.toNat r.cause.toNat = none) (hc : s.consuming.clsOf r.alone ≤ 1) :
    let e := s.consuming.openEntry r.alone
    let cls := s.consuming.clsOf r.alone
    ∃ t, exec (.faultReport []) s = .next t ∧ s.Only [.win, .faults, .pins, .nvm, .loop, .obs] t ∧
      (r.det ≠ 0x15 → s.Logs t e ∧ t.loop = s.loop) ∧
      (r.det = 0x15 → t.loop = { s.loop with sched := s.loop.sched ++ [⟨s.now + 5, .auxAlarm true⟩] } ∧ t.nvm = s.nvm.logFault e ∧
        ∃ es, t.faults.log = { e with alarm := true } :: es) ∧
      t.faults.opens = s.faults.opens ++ [s.openOf r.alone cls s.faults.lseq] ∧
      (cls = 0 → s.CountersBut [.fltCorr, .trcDrop] t ∧ t.pins = s.pins ∧ t.faults.lowUntil = s.faults.lowUntil) ∧
      (cls = 1 → s.OnlyTrace t ∧ t.pins = { s.pins with faultLow := true } ∧ t.faults.lowUntil = s.now + 500) := by
  intro e cls
  have hex := exec_faultReport_open hp hr hdue hh hs
  obtain ⟨f1, f2, ⟨f3, f4, f5, f6, f7⟩, f8, -, f9, -⟩ := State.filed_logs (s := s) (e := e) rfl hl
  obtain ⟨g1, g2, ⟨g3, g4, -⟩, g5, g6, g7, g8⟩ := (s.consuming.filed e).raise_spec (f := r.alone) (n := s.faults.lseq) hc
  have hnow : (s.consuming.filed e).now = s.now := congrArg Clock.tick (f1.2 .clock (by simp))
  have hopen : (s.consuming.filed e).openOf r.alone cls s.faults.lseq = s.openOf r.alone cls s.faults.lseq := by
    unfold State.openOf
    rw [hnow, f1.2 .mgmt (by simp)]
  have hdet := r.alone_det_iff
  have hwin : ((s.consuming.filed e).raise r.alone cls s.faults.lseq).win = (s.consuming.filed e).win := g1.2 .win (by simp)
  have hnvm : ((s.consuming.filed e).raise r.alone cls s.faults.lseq).nvm = (s.consuming.filed e).nvm := g1.2 .nvm (by simp)
  generalize (s.consuming.filed e).raise r.alone cls s.faults.lseq = t at hex g1 g2 g3 g4 g5 g6 g7 g8 hwin hnvm
  rw [hopen, f8] at g2
  refine ⟨t, hex, (f1.mono (by simp)).trans (g1.mono (by simp)), fun hd => ?_, fun hd => ?_, g2, fun h0 => ?_, fun h1 => ?_⟩
  · obtain ⟨k1, k2⟩ := g5 fun h => hd (hdet.1 h)
    exact ⟨⟨k1.trans f3, g4.trans f4, g3.trans f5, hwin.trans f6, hnvm.trans f7⟩, k2.trans (f1.2 .loop (by simp))⟩
  · obtain ⟨k1, k2⟩ := g6 (hdet.2 hd)
    rw [f1.2 .loop (by simp), hnow] at k1
    refine ⟨k1, hnvm.trans f7, s.faults.log.map fun x => { x with alarm := t.faults.alarmed x.lseq }, ?_⟩
    have ha : t.faults.alarmed e.lseq = true := by
      unfold Faults.alarmed
      rw [g2, List.any_append, Bool.or_eq_true]
      refine .inr ?_
      have haux : (s.openOf r.alone cls s.faults.lseq).aux = true := beq_iff_eq.2 (hdet.2 hd)
      simp only [List.any_cons, List.any_nil, haux, Bool.or_true, Bool.and_true, Bool.or_false]
      exact beq_self_eq_true _
    rw [k2, f3, List.map_cons, ha]
  · obtain ⟨k1, k2, k3⟩ := g7 h0
    exact ⟨(f2.mono (by simp)).trans (k1.mono (by simp)), k2.trans (f1.2 .pins (by simp)), k3.trans f9⟩
  · obtain ⟨k1, k2, k3⟩ := g8 h1
    rw [f1.2 .pins (by simp)] at k2
    rw [hnow] at k3
    exact ⟨f2.to_obs k1, k2, k3⟩

/-- A FATAL fault that no shadow covers. -/
theorem faultReport_fatal (hp : s.clock.powered = true) (hr : s.faults.reports = [r]) (hdue : r.aon = true ∨ r.posted < s.now)
    (hh : ∀ x, s.faults.log.head? = some x → x.det ≠ r.det) (hl : s.faults.log.length < 16)
    (hs : s.shadowOf r.det.toNat r.cause.toNat = none) (hc : s.consuming.clsOf r.alone = 2) :
    ∃ t e es, exec (.faultReport []) s = .next t ∧ t.faults.log = e :: es ∧ e.still = (s.consuming.openEntry r.alone).still ∧
      t.faults.fatalSeen = true ∧ es.map (·.lseq) = s.faults.log.map (·.lseq) := by
  have hex := exec_faultReport_open hp hr hdue hh hs
  obtain ⟨-, -, ⟨f3, -⟩, -, f5, -⟩ := State.filed_logs (s := s) (e := s.consuming.openEntry r.alone) rfl hl
  rw [hc] at hex
  obtain ⟨k1, k2⟩ := (s.consuming.filed (s.consuming.openEntry r.alone)).raise_stays r.alone s.faults.lseq
  generalize (s.consuming.filed (s.consuming.openEntry r.alone)).raise r.alone 2 s.faults.lseq = t at hex k1 k2
  have hcls : (s.consuming.openEntry r.alone).cls = 2 := hc
  rw [f5, hcls] at k2
  unfold Faults.stills at k1
  rw [f3, List.map_cons, List.map_eq_cons_iff] at k1
  obtain ⟨e, es, he, h1, h2⟩ := k1
  refine ⟨t, e, es, hex, he, h1, k2.trans (Bool.or_true _), ?_⟩
  have h3 := congrArg (List.map LogEntry.lseq) h2
  rwa [List.map_map, List.map_map] at h3

/-- A fault that a shadow covers. -/
theorem faultReport_shadowed {origin : Byte} (hp : s.clock.powered = true) (hr : s.faults.reports = [r])
    (hdue : r.aon = true ∨ r.posted < s.now) (hh : ∀ x, s.faults.log.head? = some x → x.det ≠ r.det) (hl : s.faults.log.length < 16)
    (hs : s.shadowOf r.det.toNat r.cause.toNat = some origin) :
    ∃ t, exec (.faultReport []) s = .next t ∧ s.Only [.win, .faults, .nvm, .obs] t ∧
      s.Logs t (s.consuming.entryOf r.alone true origin (s.consuming.cfgOf r.alone) false) ∧ t.faults.opens = s.faults.opens ∧
      t.faults.fatalSeen = (s.faults.fatalSeen || s.consuming.cfgOf r.alone == 2) ∧ s.CountersBut [.fltConseq, .trcDrop] t := by
  obtain ⟨f1, f2, f3, f4, f5, -⟩ := State.filed_logs (s := s.count .fltConseq)
    (e := s.consuming.entryOf r.alone true origin (s.consuming.cfgOf r.alone) false) rfl hl
  have hex := (exec_faultReport_one hp hr hdue).trans (congrArg Host.Outcome.next
    (State.handleFault_shadowed (s := s.consuming) (f := r.alone) (origin := origin) hs (by rw [r.alone_det]; exact hh)))
  exact ⟨_, hex, ((s.setObs_only _).mono (by simp)).trans f1, f3, f4, f5,
    ((s.countN_counters .fltConseq 1).mono (by simp)).trans (f2.mono (by simp))⟩

/-- The only fault, and FATAL. -/
theorem faultReport_alone (hp : s.clock.powered = true) (hr : s.faults.reports = [r]) (hdue : r.aon = true ∨ r.posted < s.now)
    (hlog : s.faults.log = []) (hs : s.shadowOf r.det.toNat r.cause.toNat = none)
    (hcfg : s.consuming.cfgOf r.alone = 2) : exec (.faultReport []) s =
      .next ((s.consuming.filed (s.consuming.openEntry r.alone)).raise r.alone 2 s.faults.lseq) ∧
      (s.consuming.openEntry r.alone).cls = 2 := by
  have hc : s.consuming.clsOf r.alone = 2 := by
    have h1 : s.consuming.first r.alone = none := by
      unfold State.first State.rival
      rw [hcfg]
      rfl
    unfold State.clsOf State.second
    rw [h1, hcfg]
    rfl
  have hex := exec_faultReport_open hp hr hdue (by rw [hlog]; exact fun x hx => nomatch hx) hs
  rw [hc] at hex
  exact ⟨hex, hc⟩

end

end

/-- Settles O56: a report's entry and class are its rivals' affair; what the class brings is `raise`, a FATAL reaction its resets. -/
theorem reportsBecomeFaults : Obligations.ReportsBecomeFaults := by
  refine ⟨fun s r hp hr hdue hh hl => ?_, fun s r hp hr hdue hlog hop hs hcfg => ?_, fun s e es hp hw => ?_⟩
  · intro cfg rival first second cls aux entry logs opened origin
    have hent (c : Bool) (o : Byte) (k : Nat) (b : Bool) : s.consuming.entryOf r.alone c o k b = entry c o k b := Report.alone_entry s r c o k b
    have horg : originOf ((s.consuming.second r.alone).or (s.consuming.first r.alone)) = origin := by
      show _ = (match second.or first with
        | some o => BitVec.ofNat 8 o.det.toNat
        | none => 0xFF)
      have h1 : s.consuming.first r.alone = first := rfl
      have h2 : s.consuming.second r.alone = second := rfl
      rw [h1, h2]
      cases second.or first <;> rfl
    have hopn : s.consuming.openEntry r.alone = entry false origin cls first.isSome := by
      rw [← hent, ← horg]
      rfl
    have hcls : s.consuming.clsOf r.alone = cls := rfl
    have hauxd : aux = true ↔ r.det = 0x15 := decide_eq_true_iff
    refine ⟨fun hs hc => ?_, fun hs hc => ?_, fun o hs => ?_⟩
    · obtain ⟨t, h1, h2, h3, h4, h5, h6, h7⟩ := faultReport_low hp hr hdue hh hl hs hc
      rw [hopn] at h3 h4
      refine ⟨t, h1, h2, fun ha => h3 fun h => ?_, fun ha => h4 (hauxd.1 ha), ?_, h6, h7⟩
      · rw [hauxd.2 h] at ha
        cases ha
      · rw [h5, hcls, Report.alone_open s r hc]
    · obtain ⟨t, e, es, h1, h2, h3, h4, h5⟩ := faultReport_fatal hp hr hdue hh hl hs hc
      rw [hopn] at h3
      have hcl : e.cls = cls := congrArg LogEntry.cls h3
      exact ⟨t, e, es, h1, h2, congrArg LogEntry.det h3, congrArg LogEntry.lseq h3, hcl.trans hc, congrArg LogEntry.escalated h3,
        congrArg LogEntry.origin h3, h4, h5⟩
    · obtain ⟨t, h1, h2, h3, h4, h5, h6⟩ := faultReport_shadowed hp hr hdue hh hl hs
      rw [hent] at h3
      exact ⟨t, h1, h2, h3, h4, h5, h6⟩
  · obtain ⟨hex, hc⟩ := faultReport_alone hp hr hdue hlog hs hcfg
    obtain ⟨f1, f2, ⟨f3, f4, f5, f6, f7⟩, f8, f9, f10, f11⟩ := State.filed_logs (s := s) (e := s.consuming.openEntry r.alone) rfl
      (by rw [hlog]; decide)
    obtain ⟨g1, g2, g3, g4, g5, g6, ⟨o, g7, gd, gc, gr, ga, gx⟩, g8, ⟨x, g9, g10, g11, g12⟩, g13, g14, g15⟩ :=
      (s.consuming.filed (s.consuming.openEntry r.alone)).raise_alone (f := r.alone) (e := s.consuming.openEntry r.alone)
        (n := s.faults.lseq) (r.det.isLt) (f8.trans hop) (by rw [f3, hlog]) rfl
    have hnow : (s.consuming.filed (s.consuming.openEntry r.alone)).now = s.now := congrArg Clock.tick (f1.2 .clock (by simp))
    have hmg : (s.consuming.filed (s.consuming.openEntry r.alone)).mgmt = s.mgmt := f1.2 .mgmt (by simp)
    have hil : (s.consuming.filed (s.consuming.openEntry r.alone)).isl = s.isl := f1.2 .isl (by simp)
    have hdet := r.alone_det_iff
    rw [hnow] at g6 g8 g13
    rw [hmg] at g14 g15
    refine ⟨_, hex, g1.trans f1.1, ⟨_, g2.trans f7, r.alone_det, hc, rfl⟩, g3.trans (f1.2 .clock (by simp)), g4,
      g5.trans (f9.trans (by rw [hc]; exact Bool.or_true _)), g6, ⟨o, g7, gd.trans r.alone_det, gc, gr, ga, gx.trans ?_⟩,
      fun h => g8 (hdet.2 h), ⟨x, g9, ?_, g11.trans hc, g12⟩, g13, g14, fun i hi => (g15 i hi).trans (by rw [hil])⟩
    · rw [beq_eq_decide]
      exact decide_eq_decide.2 hdet
    · rw [g10, f11]
  · show execSnapshotWrite s = _
    unfold execSnapshotWrite
    rw [hw]
    exact stepIf_of hp

end Sys2Proof.Machine
end



section
/-! PROOFS. Grace windows, acknowledgements, FAULT_N, injection and the end of shadows (13 R317, R318, R322, R324, R325, R330 to R337). -/

namespace Sys2Proof.Machine

open Sys2Proof

set_option Elab.async false

section
variable {s t u : State} {o p : Open} {n : Nat}

/-! ## A boundary's windows and acknowledgements -/

/-- A reaction's state: what it leaves alone, the islands that it resets, and its alarm. -/
structure State.Reacts (s t : State) (o : Open) (alarm : Bool) : Prop where
  same : t.pending = s.pending ∧ t.nvm = s.nvm ∧ t.clock = s.clock
  commanded : alarm = true → ⟨s.now + 5, .hwAlarm true⟩ ∈ t.loop.sched
  silent : alarm = false → ⟨s.now + 5, .hwAlarm true⟩ ∈ t.loop.sched → ⟨s.now + 5, .hwAlarm true⟩ ∈ s.loop.sched
  down : ∀ i ∈ reactIslands o.react o.det.toNat o.cause.toNat, (t.isl.at i).down = true
  others : ∀ i, i ∉ reactIslands o.react o.det.toNat o.cause.toNat → t.isl.at i = s.isl.at i

theorem State.carryOut_reacts (s : State) (k : BitVec 16) (o : Open) (alarm : Bool) :
    s.Reacts (s.carryOut k o.det.toNat o.cause.toNat o.react alarm) o alarm := by
  obtain ⟨u, ⟨⟨r1, r2, r3, -⟩, -, rd, ro, ra⟩, hc, hl⟩ := s.carryOut_spec k o.det.toNat o.cause.toNat o.react alarm
  generalize s.carryOut k o.det.toNat o.cause.toNat o.react alarm = t at hc hl
  refine ⟨?_, fun h => ?_, fun h hm => ?_, fun i hi => ?_, fun i hi => ?_⟩
  · rw [hc]
    exact ⟨r1, r2, r3⟩
  · rw [hl, h]
    exact List.mem_append_right _ (List.mem_singleton_self _)
  · rw [hl, h] at hm
    exact (ra _ _).1.1 hm
  · rw [hc]
    exact rd i hi
  · rw [hc]
    exact ro i hi

/-- Changes of the collector before a reaction, and after it. -/
theorem State.Reacts.of_setFaults {alarm : Bool} {f : Faults} (h : (s.setFaults f).Reacts t o alarm) : s.Reacts t o alarm :=
  ⟨h.same, h.commanded, h.silent, h.down, h.others⟩

theorem State.Reacts.setFaults {alarm : Bool} (h : s.Reacts t o alarm) (g : Faults) : s.Reacts (t.setFaults g) o alarm :=
  ⟨h.same, h.commanded, h.silent, h.down, h.others⟩

/-- The collector at a boundary without acknowledgements and clearings. -/
theorem State.takeAcks_none (ha : s.faults.acks = []) (hc : s.faults.clears = []) : s.takeAcks = s := by
  unfold State.takeAcks
  rw [ha]
  dsimp only [List.foldl_nil]
  show List.foldl State.clearLog _ s.faults.clears = s
  rw [hc]
  show s.setFaults { s.faults with acks := [], clears := [] } = s
  have h : ({ s.faults with acks := [], clears := [] } : Faults) = s.faults := by
    rw [← ha]
    conv_lhs => rw [show ([] : List Nat) = s.faults.clears from hc.symm]
  rw [h]
  rfl

/-- One acknowledgement, where nothing is to be cleared. -/
theorem State.takeAcks_one {det : BitVec 6} {host : Bool} (ha : s.faults.acks = [(det, host, n)])
    (hk : ∀ v : State, v = (if host then (s.setFaults { s.faults with acks := [] }).hostAck det.toNat
      else (s.setFaults { s.faults with acks := [] }).autoAck det.toNat) → v.faults.clears = []) :
    s.takeAcks = (if host then (s.setFaults { s.faults with acks := [] }).hostAck det.toNat
      else (s.setFaults { s.faults with acks := [] }).autoAck det.toNat) := by
  unfold State.takeAcks
  rw [ha, List.foldl_cons, List.foldl_nil]
  dsimp only
  generalize hv : (if host then (s.setFaults { s.faults with acks := [] }).hostAck det.toNat
    else (s.setFaults { s.faults with acks := [] }).autoAck det.toNat) = v at hk ⊢
  have hcl := hk v rfl
  rw [hcl]
  show v.setFaults { v.faults with clears := [] } = v
  rw [← hcl]
  rfl

theorem State.endCollect_idle (hg : s.graceDue = []) : s.endCollect = s.takeAcks := by
  unfold State.endCollect State.endWindows
  rw [hg]
  rfl

/-! ## FLT_ACK (13 R317, R324) -/

/-- An open fault acknowledged by the host: its window and its alarm are gone. -/
def Open.cleared (o : Open) : Open := { o with acked := true, grace := none, alarm := false }

/-- The fault's reaction is ordered by its acknowledgement: an AUTO one in its window. -/
def Open.Ordered (o : Open) : Prop := o.cls = 1 ∧ o.host = false ∧ o.acked = false ∧ o.reacted = false

/-- The collector with a detector's one fault, first of the open ones, acknowledged by the host. -/
def Faults.hostAcked (g : Faults) (o : Open) (ps : List Open) : Faults :=
  (({ g with opens := o.cleared :: ps } : Faults).ackLog [o.lseq]).showAlarms

/-- The open faults that stay after an acknowledgement. -/
def State.pruned (s : State) : State := s.setFaults s.faults.prune

theorem State.hostAck_eq {ps : List Open} (ho : s.faults.opens = o :: ps) (hp : ∀ p ∈ ps, p.det ≠ o.det) :
    let u := s.setFaults (s.faults.hostAcked o ps)
    (¬ o.Ordered → s.hostAck o.det.toNat = if o.alarm then u.pruned.settleAlarm else u.pruned) ∧
      (o.Ordered → s.hostAck o.det.toNat = if o.alarm then
        (u.carryOut o.lseq o.det.toNat o.cause.toNat o.react false).pruned.settleAlarm
        else (u.carryOut o.lseq o.det.toNat o.cause.toNat o.react false).pruned) := by
  intro u
  unfold State.hostAck
  extract_lets hit os wasAlarm order clear src f u' v w
  have hho : hit o = true := beq_self_eq_true _
  have hhp : ∀ p ∈ ps, hit p = false := fun p hm => beq_false_of_ne fun e => hp p hm (BitVec.eq_of_toNat_eq e)
  have hos : os = [o] := by
    show s.faults.opens.filter hit = _
    rw [ho, List.filter_cons_of_pos hho, List.filter_eq_nil_iff.2 fun p hm => by rw [hhp p hm]; decide]
  have hf : f = { s.faults with opens := o.cleared :: ps } := by
    have hm : s.faults.opens.map clear = o.cleared :: ps := by
      rw [ho, List.map_cons]
      exact congrArg₂ List.cons (if_pos hho) ((List.map_congr_left (g := id) fun p hm => if_neg (by rw [hhp p hm]; decide)).trans (List.map_id _))
    show ({ s.faults with opens := s.faults.opens.map clear } : Faults) = _
    rw [hm]
  have hu : u' = u := by
    show s.setFaults (f.ackLog (os.map (·.lseq))).showAlarms = _
    rw [hf, hos]
    rfl
  have hwas : wasAlarm = o.alarm := by
    show os.any (·.alarm) = _
    rw [hos]
    exact Bool.or_false _
  refine ⟨fun hn => ?_, fun hy => ?_⟩
  · have hord : order = [] := by
      show os.filter _ = []
      rw [hos, List.filter_cons_of_neg]
      · rfl
      · simpa [Open.Ordered, and_assoc] using hn
    have hw : w = u.pruned := by
      have hv : v = u := by
        show order.foldl _ u' = _
        rw [hord, hu]
        rfl
      show v.setFaults v.faults.prune = _
      rw [hv]
      rfl
    rw [hwas, hw]
  · have hord : order = [o] := by
      show os.filter _ = [o]
      rw [hos, List.filter_cons_of_pos]
      · rfl
      · simpa [Open.Ordered, and_assoc] using hy
    have hw : w = (u.carryOut o.lseq o.det.toNat o.cause.toNat o.react false).pruned := by
      have hv : v = u.carryOut o.lseq o.det.toNat o.cause.toNat o.react false := by
        show order.foldl _ u' = _
        rw [hord, hu]
        rfl
      show v.setFaults v.faults.prune = _
      rw [hv]
      rfl
    rw [hwas, hw]

/-- What the host's acknowledgement leaves in the collector. -/
theorem Faults.hostAcked_spec (g : Faults) (o : Open) (ps : List Open) :
    g.hostAcked o ps = { g with opens := o.cleared :: ps, log := (g.hostAcked o ps).log } ∧
      (g.hostAcked o []).log = g.log.map fun e => { e with acked := e.acked || e.lseq == o.lseq, alarm := o.aux && o.lseq == e.lseq } := by
  refine ⟨rfl, ?_⟩
  show List.map _ (List.map _ g.log) = _
  rw [List.map_map]
  refine List.map_congr_left fun e _ => ?_
  rw [Function.comp_apply]
  have ha (k : BitVec 16) : (({ g with opens := [o.cleared] } : Faults).ackLog [o.lseq]).alarmed k = (o.aux && o.lseq == k) := by
    show List.any [o.cleared] _ = _
    simp [Open.cleared, Bool.and_comm]
  by_cases h : e.lseq = o.lseq
  · rw [if_pos h]
    simp only [ha, h, beq_self_eq_true, Bool.or_true]
  · rw [if_neg h]
    simp only [ha, beq_false_of_ne h, Bool.or_false]

/-- The faults that an acknowledgement of the first one leaves open. -/
theorem Faults.prune_cons (o : Open) (ps : List Open) (g : Faults) (h : g.opens = o :: ps) :
    g.prune.opens = (if (!o.acked || o.alarm || o.aux) = true then [o] else []) ++ ps.filter fun p => !p.acked || p.alarm || p.aux := by
  show g.opens.filter _ = _
  rw [h, List.filter_cons]
  split_ifs <;> rfl

/-! ## The firmware's acknowledgement (13 R317) -/

/-- The collector with its one open fault acknowledged by the firmware. -/
def Faults.autoAcked (g : Faults) (o : Open) : Faults := ({ g with opens := [{ o with acked := true }] } : Faults).ackLog [o.lseq]

theorem State.autoAck_eq (ho : s.faults.opens = [o]) (ha : o.acked = false) :
    let u := s.setFaults (s.faults.autoAcked o)
    (o.host = false → o.cls = 1 → o.reacted = false → s.autoAck o.det.toNat =
      (u.carryOut o.lseq o.det.toNat o.cause.toNat o.react (reactAlarm o)).pruned) ∧
    (o.host = false → o.cls = 0 ∨ (o.cls = 1 ∧ o.reacted = true) → s.autoAck o.det.toNat = u.pruned) ∧
    (o.host = true ∨ o.cls = 2 → s.autoAck o.det.toNat = s) := by
  intro u
  unfold State.autoAck
  extract_lets hit os src f u' v
  have hhit (b : Bool) (h : (!o.host && decide (o.cls < 2)) = b) : hit o = b := by
    show (o.det.toNat == o.det.toNat && !o.host && !o.acked && decide (o.cls < 2)) = b
    rw [beq_self_eq_true, ha, Bool.true_and, Bool.not_false, Bool.and_true, h]
  have htaken (h : hit o = true) : os = [o] ∧ u' = u := by
    have hos : os = [o] := by
      show s.faults.opens.filter hit = _
      rw [ho, List.filter_cons_of_pos h]
      rfl
    refine ⟨hos, ?_⟩
    have hm : (s.faults.opens.map fun o => if hit o then { o with acked := true } else o) = [{ o with acked := true }] := by
      rw [ho]
      exact congrArg (fun x => [x]) (if_pos h)
    show s.setFaults (({ s.faults with opens := s.faults.opens.map fun o => if hit o then { o with acked := true } else o } : Faults).ackLog
      (os.map (·.lseq))) = _
    rw [hm, hos]
    rfl
  refine ⟨fun hh hc hr => ?_, fun hh hc => ?_, fun h => ?_⟩
  · obtain ⟨hos, hu⟩ := htaken (hhit true (by rw [hh, hc]; rfl))
    have hord : os.filter (fun o => o.cls == 1 && !o.reacted) = [o] := by
      rw [hos, List.filter_cons_of_pos (by rw [hc, hr]; rfl)]
      rfl
    have hv : v = u.carryOut o.lseq o.det.toNat o.cause.toNat o.react (reactAlarm o) := by
      show (os.filter fun o => o.cls == 1 && !o.reacted).foldl _ u' = _
      rw [hord, hu]
      rfl
    rw [hv]
    rfl
  · obtain ⟨hos, hu⟩ := htaken (hhit true (by rcases hc with hc | ⟨hc, -⟩ <;> rw [hh, hc] <;> rfl))
    have hord : os.filter (fun o => o.cls == 1 && !o.reacted) = [] := by
      rw [hos, List.filter_cons_of_neg]
      · rfl
      · rcases hc with hc | ⟨-, hr⟩
        · rw [hc]
          exact Bool.false_ne_true
        · rw [hr, Bool.not_true, Bool.and_false]
          decide
    have hv : v = u := by
      show (os.filter fun o => o.cls == 1 && !o.reacted).foldl _ u' = _
      rw [hord, hu]
      rfl
    rw [hv]
    rfl
  · have hn : hit o = false := by
      refine hhit false ?_
      rcases h with h | h
      · rw [h]
        rfl
      · rw [h, show decide (2 < 2) = false from rfl, Bool.and_false]
    have hos : os = [] := by
      show s.faults.opens.filter hit = _
      rw [ho, List.filter_cons_of_neg (by rw [hn]; decide)]
      rfl
    have hm : (s.faults.opens.map fun o => if hit o then { o with acked := true } else o) = s.faults.opens := by
      rw [ho]
      exact congrArg (fun x => [x]) (if_neg (by rw [hn]; decide))
    have hu : u' = s := by
      show s.setFaults (({ s.faults with opens := s.faults.opens.map fun o => if hit o then { o with acked := true } else o } : Faults).ackLog
        (os.map (·.lseq))) = _
      rw [hm, hos]
      rfl
    have hv : v = s := by
      show (os.filter fun o => o.cls == 1 && !o.reacted).foldl _ u' = _
      rw [hos, hu]
      rfl
    rw [hv]
    have hp : s.faults.prune = s.faults := by
      have hf : s.faults.opens.filter (fun o => !o.acked || o.alarm || o.aux) = s.faults.opens := by
        rw [ho, List.filter_cons_of_pos (by rw [ha]; rfl)]
        rfl
      unfold Faults.prune
      rw [hf]
    rw [hp]
    rfl

/-- The one open fault after its reaction. -/
theorem State.carryOut_opens {x : Open} {alarm : Bool} {cause react : Nat} (ho : s.faults.opens = [x]) :
    (s.carryOut x.lseq x.det.toNat cause react alarm).faults.opens =
      [{ x with reacted := true, grace := none, alarm := x.alarm || alarm }] := by
  rw [State.carryOut_faults]
  show List.map _ s.faults.opens = _
  rw [ho]
  exact congrArg (fun x => [x]) (if_pos ⟨rfl, rfl⟩)

theorem State.carryOut_queues (s : State) (k : BitVec 16) (det cause react : Nat) (alarm : Bool) :
    (s.carryOut k det cause react alarm).faults.acks = s.faults.acks ∧ (s.carryOut k det cause react alarm).faults.clears = s.faults.clears := by
  rw [State.carryOut_faults]
  exact ⟨rfl, rfl⟩

/-! ## GRACE_EXPIRY, clause by clause -/

theorem State.graceDue_one (ho : s.faults.opens = [o]) (ha : o.acked = false) (hr : o.reacted = false) {g : Nat} (hg : o.grace = some g) :
    (g ≤ s.now → s.graceDue = [o]) ∧ (s.now < g → s.graceDue = []) := by
  unfold State.graceDue
  rw [ho]
  refine ⟨fun h => ?_, fun h => ?_⟩
  · rw [List.filter_cons_of_pos]
    · rfl
    · rw [ha, hr, hg]
      exact decide_eq_true h
  · rw [List.filter_cons_of_neg]
    · rfl
    · rw [ha, hr, hg]
      simpa using h

/-- The end of a window (13 R318). -/
theorem graceExpiry_ends {g : Nat} (hp : s.clock.powered = true) (hak : s.faults.acks = []) (hcl : s.faults.clears = [])
    (ho : s.faults.opens = [o]) (ha : o.acked = false) (hr : o.reacted = false) (hg : o.grace = some g) (h : g ≤ s.now) :
    ∃ t, exec .graceExpiry s = .next t ∧ s.Reacts t o (reactAlarm o) ∧
      t.faults.opens = [{ o with reacted := true, grace := none, alarm := o.alarm || reactAlarm o }] := by
  have hq := s.carryOut_queues o.lseq o.det.toNat o.cause.toNat o.react (reactAlarm o)
  have he : s.endCollect = s.carryOut o.lseq o.det.toNat o.cause.toNat o.react (reactAlarm o) := by
    unfold State.endCollect State.endWindows
    rw [(State.graceDue_one ho ha hr hg).1 h]
    exact State.takeAcks_none (hq.1.trans hak) (hq.2.trans hcl)
  exact ⟨_, (exec_graceExpiry hp).trans (by rw [he]), s.carryOut_reacts _ _ _, State.carryOut_opens ho⟩

theorem State.endCollect_same (hak : s.faults.acks = []) (hcl : s.faults.clears = []) (hg : s.graceDue = []) :
    s.endCollect = s := by
  rw [State.endCollect_idle hg, State.takeAcks_none hak hcl]

/-- The boundary of one acknowledgement by the host. -/
theorem graceExpiry_host (hp : s.clock.powered = true) (hg : s.graceDue = []) (hak : s.faults.acks = [(o.det, true, n)])
    (hcl : s.faults.clears = []) : exec .graceExpiry s = .next ((s.setFaults { s.faults with acks := [] }).hostAck o.det.toNat) := by
  have h := State.takeAcks_one hak fun v hv => by
    rw [hv, if_pos rfl]
    exact ((State.hostAck_ackedOf _ _).2).trans hcl
  rw [exec_graceExpiry hp, State.endCollect_idle hg, h, if_pos rfl]

/-- The boundary of one acknowledgement by the firmware. -/
theorem graceExpiry_auto (hp : s.clock.powered = true) (hg : s.graceDue = []) (hak : s.faults.acks = [(o.det, false, n)])
    (hcl : ((s.setFaults { s.faults with acks := [] }).autoAck o.det.toNat).faults.clears = []) :
    exec .graceExpiry s = .next ((s.setFaults { s.faults with acks := [] }).autoAck o.det.toNat) := by
  have h := State.takeAcks_one hak fun v hv => by
    rw [hv, if_neg Bool.false_ne_true]
    exact hcl
  rw [exec_graceExpiry hp, State.endCollect_idle hg, h, if_neg Bool.false_ne_true]

/-- The state whose acknowledgements have been taken from the queue. -/
def State.takenAcks (s : State) : State := s.setFaults { s.faults with acks := [] }

/-- FLT_ACK of a fault whose reaction it does not order (13 R317, R324). -/
theorem graceExpiry_acked (hp : s.clock.powered = true) (hg : s.graceDue = []) (hak : s.faults.acks = [(o.det, true, n)])
    (hcl : s.faults.clears = []) (ho : s.faults.opens = [o]) (hn : ¬ o.Ordered) : ∃ t, exec .graceExpiry s = .next t ∧
      s.Only [.faults, .loop] t ∧ t.faults.opens = (if o.aux then [o.cleared] else []) ∧ t.faults.acks = [] ∧
      t.faults.reports = s.faults.reports ∧ t.faults.log = (s.faults.log.map fun e => { e with
        acked := e.acked || e.lseq == o.lseq, alarm := o.aux && o.lseq == e.lseq }) ∧
      t.loop = if o.alarm then { s.loop with sched := s.loop.sched ++ [⟨s.now + 5, .hwAlarm false⟩] } else s.loop := by
  have hex := graceExpiry_host hp hg hak hcl
  rw [show (s.setFaults { s.faults with acks := [] }) = s.takenAcks from rfl,
    (State.hostAck_eq (s := s.takenAcks) (ps := []) ho (fun p hm => nomatch hm)).1 hn] at hex
  obtain ⟨w, hw⟩ : ∃ w, w = (s.takenAcks.setFaults (s.takenAcks.faults.hostAcked o [])).pruned := ⟨_, rfl⟩
  obtain ⟨f1, f2⟩ := s.takenAcks.faults.hostAcked_spec o []
  have hop : w.faults.opens = (if o.aux then [o.cleared] else []) := by
    rw [hw]
    show (s.takenAcks.faults.hostAcked o []).prune.opens = _
    rw [Faults.prune_cons o.cleared [] _ (by rw [f1])]
    exact List.append_nil _
  have hlog : w.faults.log = (s.faults.log.map fun e => { e with acked := e.acked || e.lseq == o.lseq, alarm := o.aux && o.lseq == e.lseq }) := by
    rw [hw]
    exact f2
  have hwo : s.Only [.faults] w := by
    rw [hw]
    exact ((s.setFaults_only _).trans (State.setFaults_only _ _)).trans (State.setFaults_only _ _)
  have hrest : w.faults.acks = [] ∧ w.faults.reports = s.faults.reports := by
    rw [hw]
    exact ⟨rfl, rfl⟩
  rw [← hw] at hex
  cases ha : o.alarm
  · rw [ha, if_neg Bool.false_ne_true] at hex
    exact ⟨w, hex, hwo.mono (by simp), hop, hrest.1, hrest.2, hlog, hwo.2 .loop (by simp)⟩
  · rw [ha, if_pos rfl] at hex
    have hset : w.settleAlarm = w.schedule (w.now + 5) (.hwAlarm false) := by
      refine if_neg ?_
      rw [hop]
      split_ifs
      · exact Bool.false_ne_true
      · exact Bool.false_ne_true
    rw [hset] at hex
    refine ⟨_, hex, (hwo.mono (by simp)).trans ((State.setLoop_only _ _).mono (by simp)), hop, hrest.1, hrest.2, hlog, ?_⟩
    show ({ w.loop with sched := w.loop.sched ++ [⟨w.now + 5, .hwAlarm false⟩] } : LoopOut) = _
    rw [hwo.2 .loop (by simp), State.now, hwo.2 .clock (by simp)]
    rfl

/-- FLT_ACK of an AUTO fault in its window: its reaction is ordered, without an alarm. -/
theorem graceExpiry_ordered (hp : s.clock.powered = true) (hg : s.graceDue = []) (hak : s.faults.acks = [(o.det, true, n)])
    (hcl : s.faults.clears = []) (ho : s.faults.opens = [o]) (hy : o.Ordered) (ha : o.alarm = false) (hx : o.aux = false) :
    ∃ t, exec .graceExpiry s = .next t ∧ s.Reacts t o false ∧ t.faults.opens = [] := by
  have hex := graceExpiry_host hp hg hak hcl
  rw [show (s.setFaults { s.faults with acks := [] }) = s.takenAcks from rfl,
    (State.hostAck_eq (s := s.takenAcks) (ps := []) ho (fun p hm => nomatch hm)).2 hy, ha, if_neg Bool.false_ne_true] at hex
  refine ⟨_, hex, (State.carryOut_reacts _ _ _ _).of_setFaults.of_setFaults.setFaults _, ?_⟩
  have hcar := State.carryOut_opens (s := s.takenAcks.setFaults (s.takenAcks.faults.hostAcked o [])) (x := o.cleared) (alarm := false)
    (cause := o.cause.toNat) (react := o.react) rfl
  refine (Faults.prune_cons _ [] _ hcar).trans ?_
  show (if (o.aux) = true then _ else []) ++ [] = []
  rw [hx]
  rfl

/-- FLT_ACK where another fault's alarm stands: the alarm is not withdrawn. -/
theorem graceExpiry_other (hp : s.clock.powered = true) (hg : s.graceDue = []) (hak : s.faults.acks = [(o.det, true, n)])
    (hcl : s.faults.clears = []) (ho : s.faults.opens = [o, p]) (hne : p.det ≠ o.det) (hpa : p.alarm = true) (hn : ¬ o.Ordered) :
    ∃ t, exec .graceExpiry s = .next t ∧ s.Only [.faults] t ∧ t.faults.opens = (if o.aux then [o.cleared] else []) ++ [p] := by
  have hex := graceExpiry_host hp hg hak hcl
  rw [show (s.setFaults { s.faults with acks := [] }) = s.takenAcks from rfl,
    (State.hostAck_eq (s := s.takenAcks) (ps := [p]) ho (fun q hm => by rw [List.mem_singleton.1 hm]; exact hne)).1 hn] at hex
  obtain ⟨w, hw⟩ : ∃ w, w = (s.takenAcks.setFaults (s.takenAcks.faults.hostAcked o [p])).pruned := ⟨_, rfl⟩
  have hop : w.faults.opens = (if o.aux then [o.cleared] else []) ++ [p] := by
    rw [hw]
    show (s.takenAcks.faults.hostAcked o [p]).prune.opens = _
    rw [Faults.prune_cons o.cleared [p] _ rfl, List.filter_cons_of_pos (by rw [hpa, Bool.or_true]; rfl)]
    rfl
  have hset : w.settleAlarm = w := by
    refine if_pos ?_
    rw [hop, List.any_append, Bool.or_eq_true]
    exact .inr (by simp [hpa])
  rw [← hw, hset, ite_self] at hex
  refine ⟨w, hex, ?_, hop⟩
  rw [hw]
  exact ((s.setFaults_only _).trans (State.setFaults_only _ _)).trans (State.setFaults_only _ _)

/-- AUTO_ACK in a window: the fault's reaction is carried out. -/
theorem graceExpiry_autoReacts (hp : s.clock.powered = true) (hg : s.graceDue = []) (hak : s.faults.acks = [(o.det, false, n)])
    (hcl : s.faults.clears = []) (ho : s.faults.opens = [o]) (ha : o.acked = false) (hh : o.host = false) (hc : o.cls = 1)
    (hr : o.reacted = false) : ∃ t, exec .graceExpiry s = .next t ∧ s.Reacts t o (reactAlarm o) ∧
      t.faults.opens = (if o.alarm ∨ reactAlarm o ∨ o.aux then
        [{ o with acked := true, reacted := true, grace := none, alarm := o.alarm || reactAlarm o }] else []) := by
  have he := (State.autoAck_eq (s := s.takenAcks) ho ha).1 hh hc hr
  obtain ⟨v, hv⟩ : ∃ v, v = (s.takenAcks.setFaults (s.takenAcks.faults.autoAcked o)).carryOut o.lseq o.det.toNat o.cause.toNat o.react
    (reactAlarm o) := ⟨_, rfl⟩
  have hq := (s.takenAcks.setFaults (s.takenAcks.faults.autoAcked o)).carryOut_queues o.lseq o.det.toNat o.cause.toNat o.react (reactAlarm o)
  have hcar := State.carryOut_opens (s := s.takenAcks.setFaults (s.takenAcks.faults.autoAcked o)) (x := { o with acked := true })
    (alarm := reactAlarm o) (cause := o.cause.toNat) (react := o.react) rfl
  have hrx := (s.takenAcks.setFaults (s.takenAcks.faults.autoAcked o)).carryOut_reacts o.lseq o (reactAlarm o)
  dsimp only at hcar
  rw [← hv] at he hq hcar hrx
  have hex := graceExpiry_auto hp hg hak (by
    rw [show (s.setFaults { s.faults with acks := [] }) = s.takenAcks from rfl, he]
    exact hq.2.trans hcl)
  rw [show (s.setFaults { s.faults with acks := [] }) = s.takenAcks from rfl, he] at hex
  refine ⟨_, hex, hrx.of_setFaults.of_setFaults.setFaults _, (Faults.prune_cons _ [] _ hcar).trans ?_⟩
  rw [List.filter_nil, List.append_nil]
  exact if_congr (by simp [or_assoc]) rfl rfl

/-- AUTO_ACK of a fault whose reaction is done, or that has none. -/
theorem graceExpiry_autoCloses (hp : s.clock.powered = true) (hg : s.graceDue = []) (hak : s.faults.acks = [(o.det, false, n)])
    (hcl : s.faults.clears = []) (ho : s.faults.opens = [o]) (ha : o.acked = false) (hh : o.host = false)
    (hc : o.cls = 0 ∨ (o.cls = 1 ∧ o.reacted = true)) : ∃ t, exec .graceExpiry s = .next t ∧ s.Only [.faults] t ∧
      t.faults.opens = (if o.alarm ∨ o.aux then [{ o with acked := true }] else []) ∧
      t.faults.log = s.faults.log.map fun e => if e.lseq = o.lseq then { e with acked := true } else e := by
  have he := (State.autoAck_eq (s := s.takenAcks) ho ha).2.1 hh hc
  have hex := graceExpiry_auto hp hg hak (by
    rw [show (s.setFaults { s.faults with acks := [] }) = s.takenAcks from rfl, he]
    exact hcl)
  rw [show (s.setFaults { s.faults with acks := [] }) = s.takenAcks from rfl, he] at hex
  refine ⟨_, hex, ((s.setFaults_only _).trans (State.setFaults_only _ _)).trans (State.setFaults_only _ _), ?_, rfl⟩
  refine (Faults.prune_cons { o with acked := true } [] (s.takenAcks.faults.autoAcked o) rfl).trans ?_
  rw [List.filter_nil, List.append_nil]
  exact if_congr (by simp) rfl rfl

/-- AUTO_ACK of a fault that the host acknowledges. -/
theorem graceExpiry_autoKept (hp : s.clock.powered = true) (hg : s.graceDue = []) (hak : s.faults.acks = [(o.det, false, n)])
    (hcl : s.faults.clears = []) (ho : s.faults.opens = [o]) (ha : o.acked = false) (hh : o.host = true ∨ o.cls = 2) :
    exec .graceExpiry s = .next s.takenAcks := by
  have he := (State.autoAck_eq (s := s.takenAcks) ho ha).2.2 hh
  have hex := graceExpiry_auto hp hg hak (by
    rw [show (s.setFaults { s.faults with acks := [] }) = s.takenAcks from rfl, he]
    exact hcl)
  rwa [show (s.setFaults { s.faults with acks := [] }) = s.takenAcks from rfl, he] at hex

/-- FLT_CLEAR (13 R337). -/
theorem graceExpiry_clears {scope : Nat} (hp : s.clock.powered = true) (hak : s.faults.acks = []) (hcl : s.faults.clears = [scope])
    (hg : s.graceDue = []) : exec .graceExpiry s = .next { s with
      faults := { s.faults with
        clears := [], log := s.faults.log.filter fun e => s.faults.opens.any fun o => o.lseq == e.lseq, fatalSeen := false }
      nvm := if scope = 1 then { s.nvm with snap := [] } else s.nvm } := by
  have h : s.takeAcks = (s.setFaults { s.faults with clears := [] }).clearLog scope := by
    unfold State.takeAcks
    rw [hak]
    dsimp only [List.foldl_nil]
    rw [show (s.setFaults { s.faults with acks := [] }).faults.clears = [scope] from hcl]
    have hf : ({ s.faults with acks := [], clears := [] } : Faults) = { s.faults with clears := [] } := by rw [← hak]
    show (s.setFaults { s.faults with acks := [], clears := [] }).clearLog scope = _
    rw [hf]
  rw [exec_graceExpiry hp, State.endCollect_idle hg, h]
  unfold State.clearLog
  split_ifs <;> rfl

/-! ## FAULT_N (13 R325) -/

theorem exec_faultNRelease (hp : s.clock.powered = true) (hak : s.faults.acks = []) (hcl : s.faults.clears = []) (hg : s.graceDue = []) :
    exec .faultNRelease s = .next (if s.pins.faultLow then s.freeFaultN else s) := by
  show stepIf s.clock.powered s (if s.endCollect.pins.faultLow then s.endCollect.freeFaultN else s.endCollect) = _
  rw [State.endCollect_same hak hcl hg]
  exact stepIf_of hp

theorem State.faultNFree_of (hb : s.faults.bootHold = false) (hr : s.pins.inReset = false) (hl : s.faults.lowUntil ≤ s.now)
    (ho : ∀ o ∈ s.faults.opens, o.cls = 0) : s.faultNFree = true := by
  have hany : (s.faults.opens.any fun o => decide (1 ≤ o.cls)) = false :=
    List.any_eq_false.2 fun o hm => by rw [ho o hm]; decide
  unfold State.faultNFree
  rw [hb, hr, decide_eq_true hl, hany]
  rfl

theorem State.faultNFree_not (h : s.faults.bootHold = true ∨ s.now < s.faults.lowUntil ∨ ∃ o ∈ s.faults.opens, 1 ≤ o.cls) :
    s.faultNFree = false := by
  unfold State.faultNFree
  rcases h with h | h | ⟨o, hm, hc⟩
  · rw [h]
    rfl
  · rw [decide_eq_false (Nat.not_le.2 h), Bool.and_false]
    rfl
  · have hany : (s.faults.opens.any fun o => decide (1 ≤ o.cls)) = true := List.any_eq_true.2 ⟨o, hm, decide_eq_true hc⟩
    rw [hany, Bool.not_true, Bool.and_false]

/-! ## Injection (13 R332 to R334) -/

/-- A fault's class changes nothing of the armed detectors. -/
theorem State.raise_armed (s : State) (f : Fault0) (cls : Nat) (k : BitVec 16) :
    s.LogStays (s.raise f cls k) ∧ (s.raise f cls k).faults.armed = s.faults.armed := by
  have hshown : (s.shown f cls k).faults.armed = s.faults.armed ∧ s.LogStays (s.shown f cls k) := by
    unfold State.shown
    dsimp only
    split_ifs
    · exact ⟨rfl, rfl, rfl⟩
    · exact ⟨rfl, rfl, rfl⟩
  have haux (v : State) : (v.auxShown f.det).faults.armed = v.faults.armed := by
    rw [(v.auxShown_spec f.det).2.1]
  by_cases hc : cls = 2
  · subst hc
    refine ⟨s.raise_stays f k, ?_⟩
    obtain ⟨w, hw, -⟩ := s.raise_fatal f k
    have hclose (v : State) (is : List Island) : (v.closeWindows is).faults.armed = v.faults.armed := by
      unfold State.closeWindows
      extract_lets hit close src g
      exact List.foldlRecOn (motive := fun g' : Faults => g'.armed = v.faults.armed) _ _ rfl fun g' h' o _ => h'
    rw [hw]
    show (s.struckBy f k).faults.armed = _
    unfold State.struckBy
    rw [State.carryOut_faults]
    exact (hclose _ _).trans ((haux _).trans hshown.1)
  · rw [State.raise_low hc]
    obtain ⟨a1, a2⟩ := (s.shown f cls k).auxShown_stays f.det
    exact ⟨⟨a1.trans hshown.2.1, a2.trans hshown.2.2⟩, (haux _).trans hshown.1⟩

theorem checkAccess_armed {a : Access} (h10 : 0x0A ≤ a.det.toNat) (h14 : a.det.toNat ≤ 0x0E) (hn : 0 < n)
    (ha : s.faults.armed = [(a.det, n)]) (hs : s.shadowOf a.det.toNat a.cause.toNat = none) :
    s.checkAccess a = (s.setFaults { s.faults with armed := if n = 1 then [] else [(a.det, n - 1)] }).accReport a a.det.toNat true
      (a.err != .none) 0 := by
  have hrow : ∃ r, detRow a.det.toNat = some r ∧ r.inj = true := by
    generalize a.det.toNat = d at h10 h14
    interval_cases d <;> exact ⟨_, rfl, rfl⟩
  obtain ⟨r, hr, hinj⟩ := hrow
  have hst : s.struck a = s := by
    unfold State.struck
    have h2 : ∃ k, a.det.toNat / 2 = k + 5 := ⟨a.det.toNat / 2 - 5, by omega⟩
    obtain ⟨k, hk⟩ := h2
    rw [hk]
    cases a.err <;> rfl
  have hpair : eccPair a.det.toNat = none := if_neg (by omega)
  have harm : s.faults.armedFor a.det.toNat = n := by
    unfold Faults.armedFor
    rw [ha, List.find?_cons_of_pos (by simp)]
  have huse : s.faults.useArmed a.det.toNat = { s.faults with armed := if n = 1 then [] else [(a.det, n - 1)] } := by
    have : ((s.faults.armed.map fun x => if x.1.toNat = a.det.toNat then (x.1, x.2 - 1) else x).filter fun x => x.2 ≠ 0) =
        if n = 1 then [] else [(a.det, n - 1)] := by
      rw [ha, List.map_cons, if_pos rfl, List.map_nil, List.filter_cons]
      by_cases h1 : n = 1
      · rw [if_pos h1, h1]
        rfl
      · rw [if_neg h1, if_pos (by simpa using (by omega : n - 1 ≠ 0))]
        rfl
    unfold Faults.useArmed
    rw [this]
  unfold State.checkAccess
  dsimp only
  rw [hst, hpair]
  dsimp only
  rw [hr]
  dsimp only
  have hcond : (r.inj && (decide (0 < s.faults.armedFor a.det.toNat) && (s.shadowOf a.det.toNat a.cause.toNat).isNone)) = true := by
    rw [hinj, harm, hs, decide_eq_true hn]
    rfl
  rw [if_pos hcond, huse]

/-- An armed access is used up, and its report becomes the one entry of the log (13 R332, R334). -/
theorem faultReport_injected {a : Access} (hp : s.clock.powered = true) (h10 : 0x0A ≤ a.det.toNat) (h14 : a.det.toNat ≤ 0x0E) (hn : 0 < n)
    (ha : s.faults.armed = [(a.det, n)]) (hr : s.faults.reports = []) (hl : s.faults.log = [])
    (h0 : 0 < s.now) (hs : s.shadowOf a.det.toNat a.cause.toNat = none) : ∃ t e, exec (.faultReport [a]) s = .next t ∧
      t.faults.armed = (if n = 1 then [] else [(a.det, n - 1)]) ∧ t.faults.log = [e] ∧ e.det = a.det ∧ e.cause = a.cause ∧
      e.inj = true ∧ e.real = (a.err != .none) ∧ e.tick = s.clock.prev := by
  obtain ⟨r, hrr⟩ : ∃ r : Report, r = ⟨a.det, a.cause, a.island, true, a.err != .none, 0, s.now - 1, s.clock.prev, aonDet a.det.toNat⟩ := ⟨_, rfl⟩
  obtain ⟨v, hv⟩ : ∃ v : State, v = s.setFaults { s.faults with armed := if n = 1 then [] else [(a.det, n - 1)], reports := [r] } := ⟨_, rfl⟩
  have hca : s.checkAccess a = v := by
    rw [checkAccess_armed h10 h14 hn ha hs, hv, hrr]
    unfold State.accReport
    rw [show (s.setFaults { s.faults with armed := if n = 1 then [] else [(a.det, n - 1)] }).faults.reports = [] from hr,
      BitVec.ofNat_toNat, BitVec.setWidth_eq]
    rfl
  have hvr : v.faults.reports = [r] := by rw [hv]; rfl
  have hvl : v.faults.log = [] := by rw [hv]; exact hl
  have hvs : v.shadowOf r.det.toNat r.cause.toNat = none := by rw [hv, hrr]; exact hs
  have hex : exec (.faultReport [a]) s = .next v.collect := by
    show stepIf s.clock.powered s ([a].foldl State.checkAccess s).collect = _
    rw [List.foldl_cons, List.foldl_nil, hca]
    exact stepIf_of hp
  rw [State.collect_one hvr (.inr (by rw [hrr, hv]; show s.now - 1 < s.now; omega))] at hex
  have hho := State.handleFault_open (s := v.consuming) (f := r.alone) hvs (by
    show ∀ x, v.faults.log.head? = some x → _
    rw [hvl]
    exact fun x hx => nomatch hx)
  obtain ⟨-, -, ⟨f3, -⟩, -⟩ := State.filed_logs (s := v) (e := v.consuming.openEntry r.alone) rfl (by rw [hvl]; decide)
  obtain ⟨⟨k1, -⟩, k2⟩ := (v.consuming.filed (v.consuming.openEntry r.alone)).raise_armed r.alone (v.consuming.clsOf r.alone) v.faults.lseq
  have harmed : (v.consuming.filed (v.consuming.openEntry r.alone)).faults.armed = v.faults.armed := by
    obtain ⟨o, -, ho⟩ := State.filed_eq (s := v.consuming) (e := v.consuming.openEntry r.alone) rfl (by
      show v.faults.log.length < 16
      rw [hvl]
      decide)
    rw [ho]
    rfl
  rw [show (v.setFaults { v.faults with reports := [] }) = v.consuming from rfl, hho] at hex
  have hex' : exec (.faultReport [a]) s = .next ((v.consuming.filed (v.consuming.openEntry r.alone)).raise r.alone
    (v.consuming.clsOf r.alone) v.faults.lseq) := hex
  clear hex
  generalize ((v.consuming.filed (v.consuming.openEntry r.alone)).raise r.alone (v.consuming.clsOf r.alone) v.faults.lseq) = t
    at hex' k1 k2
  unfold Faults.stills at k1
  rw [f3, hvl, List.map_singleton, List.map_eq_cons_iff] at k1
  obtain ⟨e, es, he, h1, h2⟩ := k1
  rw [List.map_eq_nil_iff] at h2
  rw [h2] at he
  refine ⟨t, e, hex', k2.trans (harmed.trans (by rw [hv]; rfl)), he, ?_, ?_, ?_, ?_, ?_⟩
  · exact (congrArg LogEntry.det h1).trans (r.alone_det.trans (by rw [hrr]))
  · exact (congrArg LogEntry.cause h1).trans (r.alone_cause.trans (by rw [hrr]))
  · exact (congrArg LogEntry.inj h1).trans (by rw [hrr]; rfl)
  · exact (congrArg LogEntry.real h1).trans (by rw [hrr]; rfl)
  · exact (congrArg LogEntry.tick h1).trans (by rw [hrr]; rfl)

/-! ## Double-bit errors (01 R12; 11 R279) -/

/-- A word of an island's SRAM that delivers no data. -/
def State.lostWord (s : State) (i : Island) (a : Access) : State := s.setIsl i { s.isl.at i with
  lostWords := a.cause :: (s.isl.at i).lostWords.filter (· ≠ a.cause) }

/-- The number of an island's SRAM detectors. -/
def sramNo : Island → Nat
  | .mgmt => 0
  | .loop => 1
  | .meas => 2
  | .aon => 3

theorem State.struck_sram {a : Access} {i : Island} (he : a.err = .double) (hd : a.det.toNat / 2 = sramNo i) :
    s.struck a = if i = .mgmt then (s.lostWord .mgmt a).loseWindowWord a.cause.toNat else s.lostWord i a := by
  unfold State.struck
  rw [he, hd]
  cases i <;> rfl

theorem State.loseWindowWord_spec {w : Nat} (h : w < 4096) (hm : s.memoryOk) :
    let bs := leBytes 4 (Config.freeBits 32 s.free).toNat
    s.Only [.free, .win] (s.loseWindowWord w) ∧ (∀ j, j < 4 → cellRead (s.loseWindowWord w).win.mem (4 * w + j) = bs.getD j 0) ∧
      ∀ c, c < 4 * w ∨ 4 * w + 4 ≤ c → cellRead (s.loseWindowWord w).win.mem c = cellRead s.win.mem c := by
  intro bs
  have e : s.loseWindowWord w = (s.drawn (s.free + 1)).winWrite (4 * w) bs := if_pos h
  have hl : bs.length = 4 := leBytes_length ..
  rw [e]
  refine ⟨((s.drawn_only _).mono (by simp)).trans ((State.setWin_only _ _).mono (by simp)), fun j hj => ?_, fun c hc => ?_⟩
  · show cellRead (cellsWrite s.win.mem (4 * w) bs) _ = _
    rw [cellRead_cellsWrite _ _ _ hm, if_pos (by omega)]
    congr 1
    omega
  · show cellRead (cellsWrite s.win.mem (4 * w) bs) _ = _
    rw [cellRead_cellsWrite _ _ _ hm, if_neg (by omega)]

/-! ## The end of a shadow (13 R330, R331) -/

theorem State.report_foldl (s : State) (cs : List (Nat × Nat × Byte)) :
    cs.foldl (fun s c => s.report c.1 c.2.1 c.2.2) s = s.setFaults { s.faults with reports := s.faults.reports ++ cs.map fun c =>
      ⟨BitVec.ofNat 6 c.1, BitVec.ofNat 16 c.2.1, c.2.2, false, false, 0, s.now, s.clock.meridian, aonDet c.1⟩ } := by
  induction cs generalizing s with
  | nil =>
    rw [List.foldl_nil, List.map_nil, List.append_nil]
    rfl
  | cons c cs ih =>
    rw [List.foldl_cons, ih, List.map_cons, List.append_cons s.faults.reports]
    rfl

theorem State.setIsl_only (s : State) (i : Island) (x : Isl) : s.Only [.isl] (s.setIsl i x) :=
  ⟨rfl, fun q hq => by cases q <;> first | exact absurd (by decide) hq | rfl⟩

theorem shadowEnd_spec {i : Island} {holding : List Access} (hp : s.clock.powered = true) (hs : (s.isl.at i).shadow = true)
    (he : (s.isl.at i).shadowEnd = some n) (hn : n ≤ s.now) : ∃ t, exec (.shadowEnd i holding) s = .next t ∧
      s.Only [.isl, .faults, .obs] t ∧ s.OnlyTrace t ∧ t.isl = s.isl.put i { s.isl.at i with
        shadow := false, shadowEnd := none, origin := 0xFF, wdtFired := false, readyFrom := s.now + 64 } ∧
      t.faults = { s.faults with reports := s.faults.reports ++
        ((s.conditions ++ (holding.filter fun a => a.err != .none && !condDets.contains a.det.toNat).map fun a =>
            (a.det.toNat, a.cause.toNat, a.island)).filter fun c => shadows i c.1 c.2.1).map fun c =>
          ⟨BitVec.ofNat 6 c.1, BitVec.ofNat 16 c.2.1, c.2.2, false, false, 0, s.now, s.clock.meridian, aonDet c.1⟩ } := by
  obtain ⟨o, ho, htr⟩ := State.emit_eq (s.setIsl i { s.isl.at i with
    shadow := false, shadowEnd := none, origin := 0xFF, wdtFired := false, readyFrom := s.now + 64 }) .aon 0xA ((srcOf i).toNat + 256 * 3) []
  have hex : exec (.shadowEnd i holding) s = .next _ := stepIf_of (by rw [hp, hs, he]; exact decide_eq_true hn)
  rw [show State.emitIsland (s.setIsl i { s.isl.at i with
    shadow := false, shadowEnd := none, origin := 0xFF, wdtFired := false, readyFrom := s.now + 64 }) i 3 = _ from ho, State.report_foldl] at hex
  refine ⟨_, hex, ?_, (htr.of_obs rfl).to_obs rfl, rfl, rfl⟩
  exact ((s.setIsl_only i _).mono (by simp)).trans
    (((State.setObs_only _ o).mono (by simp)).trans ((State.setFaults_only _ _).mono (by simp)))

theorem exec_injectionArm {d : BitVec 6} {since : Nat} (hp : s.clock.powered = true) (h : s.faults.armReq = [(d, n, since)]) :
    exec .injectionArm s = .next { s with
      faults := { s.faults with armReq := [], armed := (s.faults.armed.filter fun a => a.1 ≠ d) ++ [(d, n)] } } := by
  refine (stepIf_of hp).trans ?_
  unfold State.armDue
  rw [h]
  rfl

/-- What State.conditions names once, under its condition. -/
theorem State.conditions_iffs (s : State) :
    (∀ n : Fin 3, (0x17, n.val, (0x30 : Byte)) ∈ s.conditions ↔ s.energy.railCount.getD n.val 0 = 3) ∧
    (∀ p : Fin 4, (0x1F, p.val, (0x40 : Byte)) ∈ s.conditions ↔ s.win.crossRaised.getD p.val false = true) ∧
    ((0x10, 0, (0x40 : Byte)) ∈ s.conditions ↔ s.clock.lost = true) ∧
    ((0x14, 0, (0x40 : Byte)) ∈ s.conditions ↔ s.energy.lowCount = 9) ∧
    ((0x15, 0, (0x40 : Byte)) ∈ s.conditions ↔ s.energy.auxLost = true) ∧
    ((0x1C, 0, (0x40 : Byte)) ∈ s.conditions ↔ s.energy.tempCount = 9) ∧
    ((0x22, 0, (0x30 : Byte)) ∈ s.conditions ↔ s.meas.round.blankIgnored = true) ∧
    ((0x23, 0, (0x40 : Byte)) ∈ s.conditions ↔ s.loop.complying = true) := by
  have hif (c : Prop) [Decidable c] (x y : Nat × Nat × Byte) : x ∈ (if c then [y] else []) ↔ c ∧ x = y := by
    by_cases h : c
    · rw [if_pos h, List.mem_singleton, and_iff_right h]
    · rw [if_neg h]
      exact ⟨fun k => (nomatch k), fun k => absurd k.1 h⟩
  unfold State.conditions
  simp only [List.mem_append, List.mem_flatMap, List.mem_range, hif, Prod.mk.injEq]
  refine ⟨fun n => ?_, fun p => ?_, ?_, ?_, ?_, ?_, ?_, ?_⟩ <;> simp

/-! ## The obligation -/

/-- Settles O58: each acknowledgement, window and clearing is one pass of the collector, and an injected access is one report. -/
theorem graceWindowsInjectionAndShadowsEnd : Obligations.GraceWindowsInjectionAndShadowsEnd := by
  refine ⟨fun s => ⟨fun o hp hak hcl ho ha hr => ⟨fun g hg h => ?_, fun g hg h => ?_⟩, fun o n hp hg hak hcl =>
    ⟨fun ho hn => graceExpiry_acked hp hg hak hcl ho hn, fun ho hy ha hx => ?_, fun p ho hne hpa _ hn =>
      graceExpiry_other hp hg hak hcl ho hne hpa hn⟩,
    fun o n hp hg hak hcl ho ha => ⟨fun hh hc hr => ?_, fun hh hc => graceExpiry_autoCloses hp hg hak hcl ho ha hh hc,
      fun h => graceExpiry_autoKept hp hg hak hcl ho ha h⟩,
    fun scope hp hak hcl hg => graceExpiry_clears hp hak hcl hg,
    fun det => ⟨fun h => ?_, fun host => rfl⟩, fun scope => rfl,
    fun hp hak hcl hg => ⟨fun hb hr hl ho => ?_, fun h => ?_⟩⟩,
    fun s hp => ⟨fun d n since h => exec_injectionArm hp h, fun a n h10 h14 hn ha hr _ hl h0 hs =>
      faultReport_injected hp h10 h14 hn ha hr hl h0 hs, fun d n => rfl, fun a he => ⟨fun i hd => ⟨fun h => ?_, fun hi h hm => ?_⟩, fun hd => ?_⟩,
      fun i n holding hs he hn => shadowEnd_spec hp hs he hn, s.conditions_iffs⟩⟩
  · obtain ⟨t, hex, ⟨⟨r1, r2, r3⟩, rc, -, rd, ro⟩, hop⟩ := graceExpiry_ends hp hak hcl ho ha hr hg h
    exact ⟨t, hex, r1, r2, r3, hop, rc, rd, ro⟩
  · show stepIf s.clock.powered s s.endCollect = _
    rw [State.endCollect_same hak hcl ((State.graceDue_one ho ha hr hg).2 h)]
    exact stepIf_of hp
  · obtain ⟨t, hex, ⟨⟨r1, r2, r3⟩, -, rs, rd, ro⟩, hop⟩ := graceExpiry_ordered hp hg hak hcl ho hy ha hx
    exact ⟨t, hex, r1, r2, r3, hop, rs rfl, rd, ro⟩
  · obtain ⟨t, hex, ⟨⟨r1, r2, r3⟩, rc, -, rd, ro⟩, hop⟩ := graceExpiry_autoReacts hp hg hak hcl ho ha hh hc hr
    exact ⟨t, hex, r1, r2, r3, hop, rc, rd, ro⟩
  · exact stepIf_of h
  · rw [exec_faultNRelease hp hak hcl hg]
    unfold State.freeFaultN
    rw [if_pos (State.faultNFree_of hb hr hl ho)]
    by_cases hf : s.pins.faultLow = true
    · rw [if_pos hf]
      rfl
    · rw [if_neg hf]
      have : ({ s.pins with faultLow := false } : Pins) = s.pins := by
        rw [← Bool.eq_false_iff.2 hf]
      rw [this]
  · rw [exec_faultNRelease hp hak hcl hg]
    unfold State.freeFaultN
    rw [State.faultNFree_not h, if_neg Bool.false_ne_true, ite_self]
  · have h' := State.struck_sram (s := s) he (i := i) (by cases i <;> exact hd)
    rw [h']
    by_cases hi : i = .mgmt
    · rw [if_pos hi, hi]
      have hw : ¬ a.cause.toNat < 4096 := by
        rcases h with h | h
        · exact absurd hi h
        · omega
      exact if_neg hw
    · rw [if_neg hi]
      rfl
  · subst hi
    have h' : s.struck a = (s.lostWord .mgmt a).loseWindowWord a.cause.toNat :=
      (State.struck_sram (s := s) he (i := .mgmt) hd).trans (if_pos rfl)
    rw [h']
    exact ⟨_, rfl, State.loseWindowWord_spec (s := s.lostWord .mgmt a) h hm⟩
  · unfold State.struck
    rw [he, hd]
    rfl

end
end Sys2Proof.Machine
end



section
/-! PROOFS. Trials that commit or revert, update sessions, the OEM digest and trace SYNC (14 R346, R352, R353, R357 to R361; 15 R375, R376). -/

namespace Sys2Proof.Machine

open Sys2Proof

set_option Elab.async false

section
variable {s t u : State} {i : Island}

/-! ## Slot directories (14 R352) -/

/-- The page that an island's next directory takes. -/
def Nvm.nextPage (n : Nvm) (i : Island) : Nat :=
  let r := n.dirRecs.at i
  if (r.b.map (·.1)).getD 0 < (r.a.map (·.1)).getD 0 then (dirPages i).2 else (dirPages i).1

theorem Nvm.nextPage_eq (n : Nvm) (i : Island) :
    n.nextPage i = if (n.dirRecs.at i).second then (dirPages i).2 else (dirPages i).1 := by
  unfold Nvm.nextPage Alternate.second
  simp only [decide_eq_true_eq]

/-- The NVM holds a directory for an island in the older of its pages; of the rest nothing but the fuses may differ. -/
def Nvm.Holds (n : Nvm) (i : Island) (e : SlotDir) (n' : Nvm) : Prop :=
  n' = { n with
    dirs := n.dirs.put i e, dirRecs := n.dirRecs.put i ((n.dirRecs.at i).put e), bad := n.bad.filter (· ≠ n.nextPage i), fuses := n'.fuses }

theorem Nvm.putDir_holds (n : Nvm) (i : Island) (e : SlotDir) : n.Holds i e (n.putDir i e) ∧ (n.putDir i e).fuses = n.fuses := by
  have hb : (n.bad.filter fun g => !([n.nextPage i].contains g)) = n.bad.filter (· ≠ n.nextPage i) :=
    List.filter_congr fun g _ => by by_cases h : g = n.nextPage i <;> simp [h]
  refine ⟨?_, rfl⟩
  unfold Nvm.Holds
  rw [← hb, n.nextPage_eq i]
  rfl

/-! ## Activation (14 R357, R358) -/

/-- No reset makes an image verified. -/
theorem State.fence_verified (s : State) (i j : Island) (h : s.mgmt.verified.at j = false) : (s.fence i).mgmt.verified.at j = false := by
  cases i with
  | mgmt => cases j <;> rfl
  | aon => exact h
  | meas =>
    show s.fenceMeas.mgmt.verified.at j = false
    unfold State.fenceMeas
    dsimp only
    split_ifs <;> exact h
  | loop =>
    have hm (u : State) (b : Bool) (g : Mgmt → Mgmt) (hg : ∀ m, (g m).verified = m.verified) :
        ∃ m, (if b = true then u.setMgmt (g u.mgmt) else u) = u.setMgmt m ∧ m.verified = u.mgmt.verified := by
      cases b
      · exact ⟨u.mgmt, rfl, rfl⟩
      · exact ⟨_, rfl, hg _⟩
    show s.fenceLoop.mgmt.verified.at j = false
    unfold State.fenceLoop
    dsimp only
    obtain ⟨m, he, hc⟩ := hm s s.fsk.tx.isSome (fun m => m.cancel 0x0508) fun _ => rfl
    rw [he]
    obtain ⟨n, he', hc'⟩ := hm (s.setMgmt m) _ Mgmt.cancelFix fun _ => rfl
    rw [he']
    obtain ⟨f, k, hfk, -⟩ := ((s.setMgmt m).setMgmt n).forgetLoop_eq
    rw [hfk]
    show n.verified.at j = false
    rw [hc', show (s.setMgmt m).mgmt.verified = _ from hc]
    exact h

theorem State.assertReset_verified (s : State) (i j : Island) (h : s.mgmt.verified.at j = false) :
    (s.assertReset i 0xFE false).mgmt.verified.at j = false := by
  have hm (t : State) (k : Nat) : (t.emitIsland i k).mgmt = t.mgmt := by
    obtain ⟨o, ho, -⟩ := State.emit_eq t .aon 0xA ((srcOf i).toNat + 256 * k) []
    show (t.emit .aon 0xA ((srcOf i).toNat + 256 * k) []).mgmt = _
    rw [ho]
    rfl
  unfold State.assertReset
  dsimp only
  by_cases hd : ((s.isl.at i).down && !(s.isl.at i).dead) = true
  · rw [if_pos hd, if_neg (fun k => absurd k.2.2 (by decide))]
    exact h
  · rw [if_neg hd, hm]
    exact s.fence_verified i j h

/-- An island that runs resets with the origin of a command. -/
theorem State.assertReset_running (hd : (s.isl.at i).down = false) :
    ((s.assertReset i 0xFE false).isl.at i).origin = 0xFE ∧ ((s.assertReset i 0xFE false).isl.at i).resetAt = some s.now := by
  obtain ⟨o, ho, -⟩ := State.emit_eq ((s.fence i).setIsl i { s.isl.at i with
    up := false, down := true, resetAt := some s.now, released := false, checked := false, stopped := false, supply := false
    shadow := true, shadowEnd := none, origin := 0xFE, dead := false, wdtFired := false }) .aon 0xA ((srcOf i).toNat + 256 * 0) []
  have e : s.assertReset i 0xFE false = _ := (if_neg (by rw [hd]; exact Bool.false_ne_true)).trans ho
  rw [e]
  show (((s.fence i).isl.put i _).at i).origin = _ ∧ (((s.fence i).isl.put i _).at i).resetAt = _
  rw [Quad.at_put_same]
  exact ⟨rfl, rfl⟩

/-- The guarantees of 01 R26 and R27 end at a boundary, under a condition (14 R361). -/
def State.breaks (s : State) (c : Bool) : State := if c then { s with clock := { s.clock with broken := some s.now } } else s

theorem State.breaks_spec (s : State) (c : Bool) : let t := s.breaks c
    t.pending = s.pending ∧ t.mgmt = s.mgmt ∧ t.isl = s.isl ∧ t.now = s.now ∧ t.nvm = s.nvm ∧
      t.clock = { s.clock with broken := if c then some s.now else s.clock.broken } := by
  cases c <;> exact ⟨rfl, rfl, rfl, rfl, rfl, rfl⟩

/-- The directory once the READY slot is active in TRIAL. -/
def SlotDir.tried (d : SlotDir) : SlotDir :=
  { (d.setInactive { d.inactive with st := .trial }) with activeB := !d.activeB, actTick := none }

/-- The state of an activation before its island's reset, but for the guarantees. -/
def State.activates (s : State) (i : Island) (o : Obs) (m : Mgmt) : State :=
  (((s.setDir i (s.nvm.dirs.at i).tried).setIsl i
    { s.isl.at i with actAt := some s.now }).setObs o).setMgmt m

/-- Whether an activation changes the arithmetic of MEAS or LOOP. -/
def State.newArith (s : State) (i : Island) : Bool :=
  (i == .meas || i == .loop) && (s.nvm.dirs.at i).active.arith != (s.nvm.dirs.at i).inactive.arith

theorem State.newArith_iff : s.newArith i = true ↔ (i = .meas ∨ i = .loop) ∧ (s.nvm.dirs.at i).active.arith ≠ (s.nvm.dirs.at i).inactive.arith := by
  unfold State.newArith
  rw [Bool.and_eq_true, Bool.or_eq_true, beq_iff_eq, beq_iff_eq, bne_iff_ne]

/-- When an activation is carried out (14 R357, R358). -/
def State.actsAt (s : State) (i : Island) (n : Nat) : Prop :=
  let x := s.isl.at i
  (x.down = true ∧ x.resetAt = some s.now ∧ x.origin.toNat < 0x40 ∧ x.supply = false) ∨
    (x.down = false ∧ (0 < ahead n s.clock.prev.toNat ∨ (x.shadow = false ∧ x.readyFrom ≤ s.now)))

theorem exec_activation {n : Nat} (hp : s.clock.powered = true) (hn : (s.nvm.dirs.at i).actTick = some n) (hr : s.reached n = true)
    (h : s.actsAt i n) : ∃ o m, exec (.activation i) s = .next (((s.activates i o m).breaks (s.newArith i)).assertReset i 0xFE false) ∧
      m.verified = s.mgmt.verified.put i false := by
  obtain ⟨o, ho, -⟩ := State.emit_eq ((s.setDir i { ((s.nvm.dirs.at i).setInactive { (s.nvm.dirs.at i).inactive with st := .trial }) with
    activeB := !(s.nvm.dirs.at i).activeB, actTick := none }).setIsl i { s.isl.at i with actAt := some s.now }) .aon 0xA
    ((srcOf i).toNat + 256 * 4) []
  have hex : exec (.activation i) s = .next _ := stepIf_of (by
    rw [hp, hn]
    dsimp only
    rw [hr]
    rcases h with ⟨h1, h2, h3, h4⟩ | ⟨h1, h2 | ⟨h2, h3⟩⟩
    · simp [h1, h2, h3, h4]
    · simp [h1, h2]
    · simp [h1, h2, h3])
  rw [show State.emitIsland _ i 4 = _ from ho] at hex
  exact ⟨o, _, hex, rfl⟩

/-- The clock where an activation ends the guarantees, or keeps them. -/
def State.clockAfter (s : State) (i : Island) : Clock :=
  let d := s.nvm.dirs.at i
  { s.clock with broken := if (i = .meas ∨ i = .loop) ∧ d.active.arith ≠ d.inactive.arith then some s.now else s.clock.broken }

theorem State.clockAfter_eq : s.clockAfter i = { s.clock with broken := if s.newArith i then some s.now else s.clock.broken } := by
  unfold State.clockAfter
  dsimp only
  by_cases h : s.newArith i = true
  · rw [if_pos h, if_pos (State.newArith_iff.1 h)]
  · rw [if_neg h, if_neg (fun k => h (State.newArith_iff.2 k))]

theorem State.activates_nvm (s : State) (i : Island) (o : Obs) (m : Mgmt) :
    (s.activates i o m).nvm = s.nvm.putDir i (s.nvm.dirs.at i).tried := by
  unfold State.activates State.setDir
  generalize s.nvm.putDir i _ = n
  rfl

theorem State.activates_rest (s : State) (i : Island) (o : Obs) (m : Mgmt) :
    (s.activates i o m).clock = s.clock ∧ (s.activates i o m).pending = s.pending ∧ (s.activates i o m).mgmt = m ∧
      (s.activates i o m).isl = s.isl.put i { s.isl.at i with actAt := some s.now } := by
  unfold State.activates State.setDir
  generalize s.nvm.putDir i _ = n
  exact ⟨rfl, rfl, rfl, rfl⟩

/-- What an activation leaves, whatever its island's reset does. -/
theorem State.activates_spec {o : Obs} {m : Mgmt} {d : SlotDir} (hd : d = s.nvm.dirs.at i) (ht : t = (s.activates i o m).breaks (s.newArith i)) :
    t.pending = s.pending ∧ t.mgmt = m ∧ t.isl = s.isl.put i { s.isl.at i with actAt := some s.now } ∧ t.now = s.now ∧
      t.nvm = s.nvm.putDir i d.tried ∧
      t.clock = s.clockAfter i := by
  obtain ⟨a1, a2, a3, a4⟩ := s.activates_rest i o m
  have a5 := s.activates_nvm i o m
  have a6 : s.clockAfter i = { s.clock with broken := if s.newArith i then some s.clock.tick else s.clock.broken } := State.clockAfter_eq
  rw [hd]
  generalize s.activates i o m = w at ht a1 a2 a3 a4 a5
  obtain ⟨h1, h2, h3, h4, h5, h6⟩ := w.breaks_spec (s.newArith i)
  rw [← ht] at h1 h2 h3 h4 h5 h6
  refine ⟨h1.trans a2, h2.trans a3, h3.trans a4, h4.trans (congrArg Clock.tick a1), h5.trans a5, h6.trans ?_⟩
  rw [a6, a1, show w.now = s.clock.tick from congrArg Clock.tick a1]

/-- The READY slot in TRIAL, of an island that runs and of one that a fault reaction has just reset. -/
def State.Tried (s t : State) (i : Island) : Prop :=
  let d := s.nvm.dirs.at i
  exec (.activation i) s = .next t ∧ t.pending = s.pending ∧ t.nvm.fuses = s.nvm.fuses ∧
    s.nvm.Holds i d.tried t.nvm ∧
    t.mgmt.verified.at i = false ∧
    t.clock = s.clockAfter i

theorem activation_tried {n : Nat} (hp : s.clock.powered = true) (hn : (s.nvm.dirs.at i).actTick = some n) (hr : s.reached n = true)
    (h : s.actsAt i n) : ∃ v : State, s.Tried (v.assertReset i 0xFE false) i ∧ v.isl = s.isl.put i { s.isl.at i with actAt := some s.now } ∧
      v.now = s.now := by
  obtain ⟨o, m, hex, hm⟩ := exec_activation hp hn hr h
  obtain ⟨a1, a2, a3, a4, a5, a6⟩ := State.activates_spec (s := s) (i := i) (o := o) (m := m) rfl rfl
  obtain ⟨⟨r1, r2, r3, -⟩, -, -, -, -⟩ := ((s.activates i o m).breaks (s.newArith i)).assertReset_resets i 0xFE
  refine ⟨(s.activates i o m).breaks (s.newArith i), ⟨hex, r1.trans a1, ?_, ?_, ?_, r3.trans a6⟩, a3, a4⟩
  · rw [r2, a5]
    exact (s.nvm.putDir_holds i _).2
  · rw [r2, a5]
    exact (s.nvm.putDir_holds i _).1
  · refine State.assertReset_verified _ i i ?_
    rw [a2, hm, Quad.at_put_same]

theorem activation_running {n : Nat} (hp : s.clock.powered = true) (hn : (s.nvm.dirs.at i).actTick = some n) (hr : s.reached n = true)
    (hd : (s.isl.at i).down = false) (h : 0 < ahead n s.clock.prev.toNat ∨ ((s.isl.at i).shadow = false ∧ (s.isl.at i).readyFrom ≤ s.now)) :
    ∃ t, s.Tried t i ∧ (t.isl.at i).down = true ∧ (t.isl.at i).origin = 0xFE ∧ (t.isl.at i).resetAt = some s.now ∧
      ∀ j, j ≠ i → t.isl.at j = s.isl.at j := by
  obtain ⟨v, hv, hi, hw⟩ := activation_tried hp hn hr (.inr ⟨hd, h⟩)
  obtain ⟨-, -, rd, ro, -⟩ := v.assertReset_resets i 0xFE
  have hx : (v.isl.at i).down = false := by
    rw [hi, Quad.at_put_same]
    exact hd
  obtain ⟨h1, h2⟩ := State.assertReset_running hx
  refine ⟨_, hv, rd i (List.mem_singleton_self i), h1, h2.trans (by rw [hw]), fun j hj => ?_⟩
  rw [ro j (by simpa using hj), hi]
  exact Quad.at_put_ne _ _ hj

theorem activation_fault {n : Nat} (hp : s.clock.powered = true) (hn : (s.nvm.dirs.at i).actTick = some n) (hr : s.reached n = true)
    (hd : (s.isl.at i).down = true) (hx : (s.isl.at i).dead = false) (ha : (s.isl.at i).resetAt = some s.now)
    (ho : (s.isl.at i).origin.toNat < 0x40) (hs : (s.isl.at i).supply = false) :
    ∃ t, s.Tried t i ∧ t.isl = s.isl.put i { s.isl.at i with actAt := some s.now } := by
  obtain ⟨v, hv, hi, -⟩ := activation_tried hp hn hr (.inl ⟨hd, ha, ho, hs⟩)
  have e : v.assertReset i 0xFE false = v := by
    unfold State.assertReset
    dsimp only
    rw [hi, Quad.at_put_same]
    dsimp only
    rw [hd, hx, if_pos (by decide), if_neg (fun k => absurd k.2.2 (by decide))]
  rw [e] at hv
  exact ⟨v, hv, hi⟩

/-! ## Commit and revert (14 R359, R360) -/

theorem trialCommit_spec (hp : s.clock.powered = true) (ht : (s.nvm.dirs.at i).active.st = .trial) (hu : (s.isl.at i).up = true)
    (hn : 500000 ≤ s.now - (s.isl.at i).upAt) : let d := s.nvm.dirs.at i
    ∃ t, exec (.trialCommit i) s = .next t ∧ s.Only [.nvm, .energy, .obs] t ∧ s.OnlyTrace t ∧
      s.nvm.Holds i (d.setActive { d.active with st := .committed }) t.nvm ∧
      t.nvm.fuses = s.nvm.fuses.put i (min 63 (max (s.nvm.fuses.at i) (secVersion d.active.version))) ∧
      t.energy = { s.energy with reserved := s.energy.reserved.filter fun e => e.1 ≠ commitKey i } := by
  intro d
  obtain ⟨e, he⟩ : ∃ e, e = d.setActive { d.active with st := .committed } := ⟨_, rfl⟩
  obtain ⟨h1, h2⟩ := s.nvm.putDir_holds i e
  obtain ⟨n, hnv⟩ : ∃ n : Nvm, n = { s.nvm.putDir i e with
    fuses := s.nvm.fuses.put i (min 63 (max (s.nvm.fuses.at i) (secVersion d.active.version))) } := ⟨_, rfl⟩
  obtain ⟨o, ho, htr⟩ := State.emit_eq (s.setNvm n) .aon 0xA ((srcOf i).toNat + 256 * 5) []
  have hex : exec (.trialCommit i) s = .next ((State.emitIsland (s.setNvm n) i 5).releaseCommit i) := by
    rw [hnv, he]
    exact stepIf_of (by rw [hp, ht, hu, decide_eq_true hn]; rfl)
  rw [show State.emitIsland (s.setNvm n) i 5 = _ from ho] at hex
  rw [← he]
  refine ⟨_, hex, ?_, (htr.of_obs rfl).to_obs rfl, ?_, ?_, rfl⟩
  · exact ((s.setNvm_only n).mono (by simp)).trans (((State.setObs_only _ o).mono (by simp)).trans ((State.setEnergy_only _ _).mono (by simp)))
  · show s.nvm.Holds i e n
    rw [hnv]
    unfold Nvm.Holds at h1 ⊢
    exact congrArg (fun m : Nvm => { m with fuses := s.nvm.fuses.put i (min 63 (max (s.nvm.fuses.at i) (secVersion d.active.version))) }) h1
  · show n.fuses = _
    rw [hnv]

theorem trialRevert_spec (hp : s.clock.powered = true) (ht : (s.nvm.dirs.at i).active.st = .trial) (hx : (s.isl.at i).dead = false)
    (hd : (s.isl.at i).down = true) (h : ((s.isl.at i).origin.toNat < 0x40 ∧ (s.isl.at i).origin ≠ 0x1D ∧ (s.isl.at i).supply = false ∧
      (s.isl.at i).resetAt ≠ (s.isl.at i).actAt) ∨ ∃ r, (s.isl.at i).resetAt = some r ∧ s.upLimit i ≤ s.now - r) :
    let d := s.nvm.dirs.at i
    ∃ t, exec (.trialRevert i) s = .next t ∧
      s.Only [.nvm, .isl, .mgmt, .energy, .obs] t ∧ s.CountersBut [.updRevert, .trcDrop] t ∧ t.nvm.fuses = s.nvm.fuses ∧
      t.mgmt = { s.mgmt with verified := s.mgmt.verified.put i false } ∧
      s.nvm.Holds i { (d.setActive { d.active with st := .failed }) with activeB := !d.activeB } t.nvm ∧
      t.energy = { s.energy with reserved := s.energy.reserved.filter fun e => e.1 ≠ commitKey i } ∧
      (t.isl.at i).released = false ∧ (t.isl.at i).down = true ∧ ∀ j, j ≠ i → t.isl.at j = s.isl.at j := by
  intro d
  obtain ⟨e, he⟩ : ∃ e : SlotDir, e = { (d.setActive { d.active with st := .failed }) with activeB := !d.activeB } := ⟨_, rfl⟩
  obtain ⟨h1, h2⟩ := s.nvm.putDir_holds i e
  obtain ⟨x, hex, hrel, hdown⟩ : ∃ x : Isl, exec (.trialRevert i) s = .next ((((((s.setDir i e).setIsl i x).count .updRevert).emitIsland i 6).releaseCommit i).unverify i) ∧
      x.released = false ∧ x.down = true := by
    rw [he]
    refine ⟨_, stepIf_of ?_, rfl, hd⟩
    rw [hp, ht, hx, hd]
    rcases h with ⟨o1, o2, o3, o4⟩ | ⟨r, o1, o2⟩
    · rw [decide_eq_true o1, bne_iff_ne.2 o2, o3, bne_iff_ne.2 o4]
      rfl
    · rw [o1]
      dsimp only
      rw [decide_eq_true o2, Bool.and_true, Bool.or_true]
      rfl
  rw [← he]
  obtain ⟨c1, c2, -⟩ := State.count_spec ((s.setDir i e).setIsl i x) .updRevert
  obtain ⟨o, ho, htr⟩ := State.emit_eq (((s.setDir i e).setIsl i x).count .updRevert) .aon 0xA ((srcOf i).toNat + 256 * 6) []
  rw [show State.emitIsland (((s.setDir i e).setIsl i x).count .updRevert) i 6 = _ from ho] at hex
  refine ⟨_, hex, ?_, ?_, h2, rfl, h1, rfl, ?_, ?_, fun j hj => Quad.at_put_ne _ _ hj⟩
  · exact ((s.setNvm_only _).mono (by simp)).trans (((State.setIsl_only _ i x).mono (by simp)).trans ((c1.mono (by simp)).trans
      (((State.setObs_only _ o).mono (by simp)).trans (((State.setEnergy_only _ _).mono (by simp)).trans ((State.setMgmt_only _ _).mono (by simp))))))
  · exact ((c2.of_obs (s := s) rfl).mono (by simp)).trans ((htr.to_obs rfl).mono (by simp))
  · show ((s.isl.put i x).at i).released = false
    rw [Quad.at_put_same]
    exact hrel
  · show ((s.isl.put i x).at i).down = true
    rw [Quad.at_put_same]
    exact hdown

/-! ## The OEM digest and trace SYNC (14 R346; 15 R375) -/

theorem oemDigestFuse_refused {digest : List Byte} {auth : Bool} (h : auth = false ∨ s.pins.testMode = false ∨ (∃ old, s.nvm.oem = some old) ∨
    ∃ i, s.oemSigned digest i = false) : exec (.oemDigestFuse digest auth) s = .next s := by
  refine stepIf_not ?_
  rcases h with h | h | ⟨old, h⟩ | ⟨i, h⟩
  · simp [h]
  · simp [h]
  · simp [h]
  · have : [Island.mgmt, .loop, .meas, .aon].all (s.oemSigned digest) = false :=
      List.all_eq_false.2 ⟨i, by cases i <;> decide, by rw [h]; exact Bool.false_ne_true⟩
    rw [this, Bool.and_false]

/-- The first word of a SYNC: its type and two words, the stamp, and the count's upper 16 bits (15 Table 15-5). -/
theorem syncHead_fields (c : Count48) : let w := traceHead 1 2 c (c.toNat / 4294967296)
    w.toNat / 268435456 = 1 ∧ w.toNat % 65536 = c.toNat / 4294967296 ∧ w.toNat / 65536 % 1024 = c.toNat % 1024 := by
  intro w
  have hd : c.toNat / 4294967296 < 65536 := by
    have := c.isLt
    omega
  have hb : c.toNat % 1024 < 1024 := Nat.mod_lt _ (by decide)
  have hw : w.toNat = 335544320 + c.toNat % 1024 * 65536 + c.toNat / 4294967296 := by
    show (BitVec.ofNat 32 _).toNat = _
    rw [BitVec.toNat_ofNat, Nat.mod_eq_of_lt hd]
    generalize c.toNat / 4294967296 = d at hd ⊢
    generalize c.toNat % 1024 = b at hb ⊢
    omega
  rw [hw]
  generalize c.toNat / 4294967296 = d at hd ⊢
  generalize c.toNat % 1024 = b at hb ⊢
  omega

theorem State.setPins_only (s : State) (p : Pins) : s.Only [.pins] (s.setPins p) :=
  ⟨rfl, fun q hq => by cases q <;> first | exact absurd (by decide) hq | rfl⟩

theorem traceSync_spec (hp : s.clock.powered = true) (hr : s.pins.inReset = false) (ho : s.obs.on = true) (hd : s.obs.syncDue = true)
    (hf : s.obs.slotFree = true) (hl : ∀ n, s.obs.lastSync = some n → n + 64 ≤ s.now) : ∃ t, exec .traceSync s = .next t ∧ s.Only [.obs, .pins] t ∧
      t.obs = { s.obs with
        sending := [s.clock.meridian.setWidth 32], slotFree := false, syncDue := false, lastSync := some s.now, dropDue := true } ∧
      t.pins = { s.pins with trcMark := true, trcWord := traceHead 1 2 s.clock.meridian (s.clock.meridian.toNat / 4294967296) } := by
  have hs : slotOk s.obs.lastSync s.now = true := by
    cases h : s.obs.lastSync with
    | none => rfl
    | some n => exact decide_eq_true (hl n h)
  have hw : BitVec.ofNat 32 (s.clock.meridian.toNat % 4294967296) = s.clock.meridian.setWidth 32 := by
    apply BitVec.eq_of_toNat_eq
    rw [BitVec.toNat_ofNat, BitVec.toNat_setWidth]
    omega
  refine ⟨_, stepIf_of (by rw [hp, hr, ho, hd, hf, hs]; rfl), ((State.setObs_only _ _).mono (by simp)).trans ((State.setPins_only _ _).mono (by simp)), ?_, rfl⟩
  rw [← hw]
  rfl

/-! ## The obligation -/

/-- Settles O60: a directory goes to its older page, and the island's reset keeps what the activation has written. -/
theorem trialsCommitOrRevertAndSessionsEnd : Obligations.TrialsCommitOrRevertAndSessionsEnd := by
  refine ⟨fun s i hp => ⟨fun n hn hr hd h => activation_running hp hn hr hd h, fun n hn hr hd hx ha ho hs => activation_fault hp hn hr hd hx ha ho hs,
    fun ht hu hn => trialCommit_spec hp ht hu hn, fun ht hx hd h => trialRevert_spec hp ht hx hd h⟩,
    fun s => ⟨fun u hu hn => ?_, fun digest => ⟨fun hp ht ho hl hs => ?_, oemDigestFuse_refused (.inl rfl), fun h auth => oemDigestFuse_refused (.inr (.inl h)),
      fun old auth h => oemDigestFuse_refused (.inr (.inr (.inl ⟨old, h⟩))), fun h auth => oemDigestFuse_refused (.inr (.inr (.inr h)))⟩,
      fun hp hr ho hd hf hl => ?_⟩⟩
  · show execUpdSessionTimeout s = _
    unfold execUpdSessionTimeout
    rw [hu]
    exact stepIf_of (decide_eq_true hn)
  · refine stepIf_of ?_
    have : [Island.mgmt, .loop, .meas, .aon].all (s.oemSigned digest) = true := List.all_eq_true.2 fun j _ => hs j
    rw [hp, ht, ho, hl, this]
    rfl
  · obtain ⟨t, hex, h1, h2, h3⟩ := traceSync_spec hp hr ho hd hf hl
    obtain ⟨f1, f2, f3⟩ := syncHead_fields s.clock.meridian
    refine ⟨t, hex, h1, h2, ?_, ?_, ?_, ?_⟩
    · rw [h3]
    · rw [h3]
      exact f1
    · rw [h3]
      exact f2
    · rw [h3]
      exact f3

end
end Sys2Proof.Machine
end



section
/-! PROOFS. Islands that come up again: the release of a reset, the notices and buffers that each island finds, its service (03 Table 3-10;
08 R201; 11 R286, R289, R295; 13 R329, R330, R339, R340). -/

namespace Sys2Proof.Machine

open Sys2Proof

set_option Elab.async false

section
variable {s t u v : State} {w w' w'' : Window} {i : Island}

/-! ## Notices that nobody has acknowledged (11 R289) -/

/-- The notice of mailbox `k` is unacknowledged and names buffer `b`. -/
def Window.Names (w : Window) (k b : Nat) : Prop :=
  (w.mbAt k).unanswered = true ∧ nbLen (w.mbAt k).notice ≠ 0 ∧ nbBuf (w.mbAt k).notice = b

/-- The unacknowledged notices of mailboxes `ks` are withdrawn, and the buffers of those of `fs` become FREE. -/
structure Window.Clears (ks fs : List Nat) (w w' : Window) : Prop where
  rest : w' = { w with own := w'.own, mb := w'.mb, crossSince := w'.crossSince, crossRaised := w'.crossRaised }
  others : ∀ k, k ∉ ks → w'.mbAt k = w.mbAt k
  gone : ∀ k ∈ ks, (w.mbAt k).unanswered = true → (w'.mbAt k).pending = false
  freed : ∀ b, b < 64 → (∃ k ∈ fs, w.Names k b) → (w'.ownAt b).own = .free ∧ (w'.ownAt b).last = 0x10
  kept : ∀ b, (¬ ∃ k ∈ fs, w.Names k b) → w'.ownAt b = w.ownAt b

theorem Window.Clears.cons {k : Nat} {ks fs gs : List Nat} (h : Window.Clears [k] fs w w') (g : Window.Clears ks gs w' w'') (hk : k ∉ ks)
    (hs : ∀ j ∈ gs, j ∈ ks) : Window.Clears (k :: ks) (fs ++ gs) w w'' := by
  have hmb (j : Nat) (hj : j ∈ ks) : w'.mbAt j = w.mbAt j := h.others j (by
    rw [List.mem_singleton]
    exact fun e => hk (e ▸ hj))
  have hnm (j b : Nat) (hj : j ∈ gs) : w'.Names j b ↔ w.Names j b := by
    unfold Window.Names
    rw [hmb j (hs j hj)]
  refine ⟨by rw [g.rest, h.rest], fun j hj => ?_, fun j hj hu => ?_, fun b hb hn => ?_, fun b hn => ?_⟩
  · rw [List.mem_cons, not_or] at hj
    exact (g.others j hj.2).trans (h.others j (by simpa using hj.1))
  · rcases List.mem_cons.1 hj with rfl | hj
    · rw [g.others j hk]
      exact h.gone j (List.mem_singleton_self j) hu
    · exact g.gone j hj (by rw [hmb j hj]; exact hu)
  · by_cases hg : ∃ j ∈ gs, w'.Names j b
    · exact g.freed b hb hg
    · rw [g.kept b hg]
      obtain ⟨j, hj, hnj⟩ := hn
      rcases List.mem_append.1 hj with hj | hj
      · exact h.freed b hb ⟨j, hj, hnj⟩
      · exact absurd ⟨j, hj, (hnm j b hj).2 hnj⟩ hg
  · rw [g.kept b (fun ⟨j, hj, hnj⟩ => hn ⟨j, List.mem_append_right _ hj, (hnm j b hj).1 hnj⟩)]
    exact h.kept b fun ⟨j, hj, hnj⟩ => hn ⟨j, List.mem_append_left _ hj, hnj⟩

/-- No notice to withdraw. -/
theorem Window.Clears.none {k : Nat} {fs : List Nat} (hu : (w.mbAt k).unanswered = false) (hf : ∀ j ∈ fs, j = k) : Window.Clears [k] fs w w :=
  ⟨rfl, fun _ _ => rfl, fun j hj h => by
    rw [List.mem_singleton.1 hj, hu] at h
    exact absurd h Bool.false_ne_true, fun b _ ⟨j, hj, h, _⟩ => by
    rw [hf j hj, hu] at h
    exact absurd h Bool.false_ne_true, fun _ _ => rfl⟩

theorem State.withdraw_clears {k : Nat} (hk : k < 8) (s : State) : ∃ w, s.withdraw k = s.setWin w ∧ Window.Clears [k] [] s.win w := by
  refine ⟨s.win.putMb k { s.win.mbAt k with pending := false, held := false, ack := none, lost := false } s.now, rfl,
    ?_, fun j hj => s.win.putMb_other _ _ (by simpa using hj), fun j hj _ => ?_, fun _ _ ⟨_, hj, _⟩ => (nomatch hj),
    fun b _ => s.win.putMb_ownAt ..⟩
  · have hr := s.win.putMb_rest k { s.win.mbAt k with pending := false, held := false, ack := none, lost := false } s.now
    generalize s.win.putMb k _ s.now = x at hr ⊢
    rw [hr]
  · rw [List.mem_singleton.1 hj, s.win.putMb_self _ _ hk]

theorem State.withdrawFree_clears {k : Nat} (hk : k < 8) (s : State) : ∃ w, s.withdrawFree k = s.setWin w ∧ Window.Clears [k] [k] s.win w := by
  by_cases hu : (s.win.mbAt k).unanswered = true
  · obtain ⟨w, hw, hc⟩ := s.withdraw_clears hk
    have e : s.withdrawFree k = if nbLen (s.win.mbAt k).notice = 0 then s.withdraw k
        else (s.withdraw k).setOwner (nbBuf (s.win.mbAt k).notice) .free 0x10 := if_pos hu
    by_cases hl : nbLen (s.win.mbAt k).notice = 0
    · refine ⟨w, (e.trans (if_pos hl)).trans hw, hc.rest, hc.others, hc.gone, fun b _ ⟨j, hj, h⟩ => ?_, fun b _ =>
        hc.kept b fun ⟨j, hj, _⟩ => (nomatch hj)⟩
      rw [List.mem_singleton.1 hj] at h
      exact absurd hl h.2.1
    · refine ⟨w.setOwner (nbBuf (s.win.mbAt k).notice) .free 0x10, (e.trans (if_neg hl)).trans (by rw [hw]; rfl), ?_, hc.others, hc.gone,
        fun b hb ⟨j, hj, h⟩ => ?_, fun b hn => ?_⟩
      · rw [hc.rest]
        rfl
      · rw [List.mem_singleton.1 hj] at h
        rw [← h.2.2, Window.setOwner_self _ _ _ (by rw [h.2.2]; exact hb)]
        exact ⟨rfl, rfl⟩
      · rw [Window.setOwner_other _ _ _ (fun hb => hn ⟨k, List.mem_singleton_self k, hu, hl, hb.symm⟩)]
        exact hc.kept b fun ⟨j, hj, _⟩ => (nomatch hj)
  · rw [Bool.not_eq_true] at hu
    exact ⟨s.win, if_neg (by rw [hu]; exact Bool.false_ne_true), .none hu fun j hj => List.mem_singleton.1 hj⟩

/-! ## What a service leaves alone -/

/-- What an island's service after UP may change, beside the reports that AON owes. -/
structure State.Serves (s t : State) : Prop where
  only : s.Only [.win, .mgmt, .fab, .ready, .loop, .meas, .pins, .energy, .obs] t
  traced : s.OnlyTrace t
  locks : t.win.locks = s.win.locks
  pins : t.pins = { s.pins with exc := t.pins.exc, excDrive := t.pins.excDrive, brk := t.pins.brk }

theorem State.Serves.refl (s : State) : s.Serves s := ⟨.refl _ s, .refl _ s, rfl, rfl⟩

theorem State.Serves.trans (h : s.Serves t) (g : t.Serves u) : s.Serves u :=
  ⟨h.only.trans g.only, h.traced.trans g.traced, g.locks.trans h.locks, by rw [g.pins, h.pins]⟩

/-- A change of nothing that a service does not change, with the counters and the pins as they are. -/
theorem State.Serves.of {ps : List Part} (h : s.Only ps t) (hs : ∀ q ∈ ps, q ∈ [Part.win, .mgmt, .fab, .ready, .loop, .meas, .energy])
    (hl : t.win.locks = s.win.locks) : s.Serves t := by
  have hobs : t.obs = s.obs := h.2 .obs fun hm => absurd (hs _ hm) (by decide)
  have hpins : t.pins = s.pins := h.2 .pins fun hm => absurd (hs _ hm) (by decide)
  refine ⟨h.mono fun q hq => ?_, (State.CountersBut.refl _ s).to_obs hobs, hl, by rw [hpins]⟩
  have := hs q hq
  simp only [List.mem_cons, List.not_mem_nil, or_false] at this ⊢
  tauto

theorem State.Serves.setWin (hl : w.locks = s.win.locks) : s.Serves (s.setWin w) := .of (s.setWin_only w) (by simp) hl

/-! ## UP of MGMT (11 R289, 12 R301) -/

/-- A buffer of the host's commands without a posted reply: `held` are those of a held MB0 notice. -/
def Window.Lost (w : Window) (held : List Nat) (b : Nat) : Prop :=
  (w.ownAt b).own = .device ∧ (w.ownAt b).last = 0x01 ∧ (!held.contains b) = true ∧ (!w.turned.contains b) = true

/-- MGMT returns one buffer to HOST, unless it is not lost. -/
def State.returnBuf (held : List Nat) (s : State) (b : Nat) : State :=
  let o := s.win.ownAt b
  if o.own = .device ∧ o.last = 0x01 ∧ !held.contains b ∧ !s.win.turned.contains b then s.setOwner b .host 0x10 else s

theorem State.returnBuf_fold (held l : List Nat) (hl : l.Nodup) (hb : ∀ b ∈ l, b < 64) (s : State) :
    (∃ own, l.foldl (State.returnBuf held) s = s.setWin { s.win with own := own }) ∧ ∀ b,
      (b ∈ l → s.win.Lost held b → (l.foldl (State.returnBuf held) s).win.ownAt b = ⟨.host, (s.win.ownAt b).gen + 1, 0x10⟩) ∧
      ((b ∉ l ∨ ¬ s.win.Lost held b) → (l.foldl (State.returnBuf held) s).win.ownAt b = s.win.ownAt b) := by
  induction l generalizing s with
  | nil => exact ⟨⟨s.win.own, rfl⟩, fun b => ⟨fun h => (nomatch h), fun _ => rfl⟩⟩
  | cons c l ih =>
    obtain ⟨hc, hl⟩ := List.nodup_cons.1 hl
    obtain ⟨u, hu⟩ : ∃ u, u = State.returnBuf held s c := ⟨_, rfl⟩
    have hstep : (∃ own, u = s.setWin { s.win with own := own }) ∧ (∀ b, b ≠ c → u.win.ownAt b = s.win.ownAt b) ∧
        (s.win.Lost held c → u.win.ownAt c = ⟨.host, (s.win.ownAt c).gen + 1, 0x10⟩) ∧ (¬ s.win.Lost held c → u.win.ownAt c = s.win.ownAt c) := by
      rw [hu]
      by_cases h : s.win.Lost held c
      · have e : State.returnBuf held s c = s.setOwner c .host 0x10 := if_pos h
        rw [e]
        exact ⟨⟨_, rfl⟩, fun b hne => s.win.setOwner_other _ _ hne, fun _ => s.win.setOwner_self _ _ (hb c List.mem_cons_self), fun k => absurd h k⟩
      · have e : State.returnBuf held s c = s := if_neg h
        rw [e]
        exact ⟨⟨s.win.own, rfl⟩, fun _ _ => rfl, fun k => absurd k h, fun _ => rfl⟩
    obtain ⟨⟨own, ho⟩, h1, h2, h3⟩ := hstep
    obtain ⟨⟨own', ho'⟩, hi⟩ := ih hl (fun b hm => hb b (List.mem_cons_of_mem c hm)) u
    have hlost (b : Nat) (hne : b ≠ c) : u.win.Lost held b ↔ s.win.Lost held b := by
      unfold Window.Lost
      rw [h1 b hne, ho]
      exact Iff.rfl
    rw [List.foldl_cons, ← hu]
    refine ⟨⟨own', ho'.trans (by rw [ho]; rfl)⟩, fun b => ?_⟩
    by_cases hbc : b = c
    · subst hbc
      have hsame := (hi b).2 (.inl hc)
      rw [hsame]
      exact ⟨fun _ h => h2 h, fun h => h3 (h.resolve_left (not_not.2 List.mem_cons_self))⟩
    · rw [← h1 b hbc, ← hlost b hbc, List.mem_cons, or_iff_right hbc]
      exact hi b

/-- MGMT's sessions whose command no notice carries end. -/
theorem State.dropRunning_spec (s : State) : ∃ f, s.dropRunning = s.setFab f ∧ ((s.win.mbAt 2).pending = false → s.fab.mb2Wait = [] →
    ∀ n : Fin 16, s.fab.sessions[n].running = true →
      f.sessions[n] = { s.fab.sessions[n] with running := false, seq := none, cur := none }) := by
  refine ⟨_, rfl, fun hp hw n hr => ?_⟩
  rw [hp, hw]
  show (Vector.ofFn _)[n.val] = _
  rw [Vector.getElem_ofFn]
  have hs : s.fab.sess n.val = s.fab.sessions[n] := s.fab.sess_fin n
  rw [hs]
  dsimp only
  rw [hr]
  rfl

/-- The buffer of a held MB0 notice. -/
def Window.heldBufs (w : Window) : List Nat := if (w.mbAt 0).pending && (w.mbAt 0).held then [nbBuf (w.mbAt 0).notice] else []

theorem State.upMgmt_spec (s : State) : let t := s.upMgmt
    s.Only [.win, .fab, .ready] t ∧ s.Serves t ∧ t.ready = true ∧ t.win.db.getLsbD 13 = true ∧
      (∀ k, k = 1 ∨ k = 3 ∨ k = 4 ∨ k = 7 → (s.win.mbAt k).unanswered = true → (t.win.mbAt k).pending = false) ∧
      (∀ b, b < 64 →
        let named := ∃ k ∈ [3, 4, 7], s.win.Names k b
        (named → (t.win.ownAt b).own = .free ∧ (t.win.ownAt b).last = 0x10) ∧
        (¬ named → s.win.Lost s.win.heldBufs b → t.win.ownAt b = ⟨.host, (s.win.ownAt b).gen + 1, 0x10⟩) ∧
        (¬ named → ¬ s.win.Lost s.win.heldBufs b → t.win.ownAt b = s.win.ownAt b)) ∧
      ((s.win.mbAt 2).pending = false → s.fab.mb2Wait = [] → ∀ n : Fin 16, s.fab.sessions[n].running = true →
        t.fab.sessions[n] = { s.fab.sessions[n] with running := false, seq := none, cur := none }) := by
  intro t
  obtain ⟨w1, e1, c1⟩ : ∃ w, (if (s.win.mbAt 1).unanswered then s.withdraw 1 else s) = s.setWin w ∧ Window.Clears [1] [] s.win w := by
    by_cases hu : (s.win.mbAt 1).unanswered = true
    · obtain ⟨w, hw, hc⟩ := s.withdraw_clears (k := 1) (by decide)
      exact ⟨w, (if_pos hu).trans hw, hc⟩
    · exact ⟨s.win, if_neg hu, .none (Bool.eq_false_of_not_eq_true hu) (fun _ h => (nomatch h))⟩
  obtain ⟨w3, e3, c3⟩ := (s.setWin w1).withdrawFree_clears (k := 3) (by decide)
  obtain ⟨w4, e4, c4⟩ := (s.setWin w3).withdrawFree_clears (k := 4) (by decide)
  obtain ⟨w7, e7, c7⟩ := (s.setWin w4).withdrawFree_clears (k := 7) (by decide)
  have hc : Window.Clears [1, 3, 4, 7] [3, 4, 7] s.win w7 :=
    c1.cons (c3.cons (c4.cons c7 (by decide) (by decide)) (by decide) (by decide)) (by decide) (by decide)
  obtain ⟨f, ef, hf⟩ := (s.setWin w7).dropRunning_spec
  obtain ⟨⟨own, eo⟩, ho⟩ := State.returnBuf_fold w7.heldBufs (List.range 64) List.nodup_range (fun b => List.mem_range.1) ((s.setWin w7).setFab f)
  have et : t = ({ (s.setWin { w7 with own := own }).setFab f with ready := true } : State).ring 13 := by
    show ({ ((((if (s.win.mbAt 1).unanswered then s.withdraw 1 else s).withdrawFree 3).withdrawFree 4).withdrawFree 7).dropRunning.returnBufs with
      ready := true } : State).ring 13 = _
    rw [e1, e3, show ((s.setWin w1).setWin w3) = s.setWin w3 from rfl, e4, show ((s.setWin w3).setWin w4) = s.setWin w4 from rfl, e7,
      show ((s.setWin w4).setWin w7) = s.setWin w7 from rfl, ef]
    show ({ (List.range 64).foldl (State.returnBuf w7.heldBufs) ((s.setWin w7).setFab f) with ready := true } : State).ring 13 = _
    rw [eo]
    rfl
  have hw : t.win = { w7 with own := own, db := w7.db ||| BitVec.twoPow 32 13 } := by rw [et]; rfl
  have hown (b : Nat) : t.win.ownAt b = ((List.range 64).foldl (State.returnBuf w7.heldBufs) ((s.setWin w7).setFab f)).win.ownAt b := by
    rw [hw, eo]
    rfl
  have hmb (k : Nat) : t.win.mbAt k = w7.mbAt k := by rw [hw]; rfl
  have hheld : w7.heldBufs = s.win.heldBufs := by
    unfold Window.heldBufs
    rw [hc.others 0 (by decide)]
  have hlost (b : Nat) (hn : ¬ ∃ k ∈ [3, 4, 7], s.win.Names k b) : w7.Lost w7.heldBufs b ↔ s.win.Lost s.win.heldBufs b := by
    unfold Window.Lost
    rw [hc.kept b hn, hheld, hc.rest]
  have honly : s.Only [.win, .fab, .ready] t := by
    rw [et]
    exact ⟨rfl, fun q hq => by cases q <;> first | exact absurd (by decide) hq | rfl⟩
  refine ⟨honly, .of honly (by decide) (by rw [hw, hc.rest]), by rw [et]; rfl, ?_, fun k hk hu => ?_, fun b hb => ⟨fun hn => ?_, fun hn hl => ?_, fun hn hl => ?_⟩,
    fun hp hm n hr => ?_⟩
  · rw [hw]
    simp
  · rw [hmb]
    exact hc.gone k (by simpa using hk) hu
  · obtain ⟨h1, h2⟩ := hc.freed b hb hn
    have hnl : ¬ w7.Lost w7.heldBufs b := fun h => absurd (h1.symm.trans h.1) (by decide)
    rw [hown, (ho b).2 (.inr hnl)]
    exact ⟨h1, h2⟩
  · rw [hown, (ho b).1 (List.mem_range.2 hb) ((hlost b hn).2 hl)]
    show (⟨_, (w7.ownAt b).gen + 1, _⟩ : OwnWord) = _
    rw [hc.kept b hn]
  · rw [hown, (ho b).2 (.inr fun h => hl ((hlost b hn).1 h))]
    exact hc.kept b hn
  · rw [et]
    exact hf (by show (w7.mbAt 2).pending = false; rw [hc.others 2 (by decide)]; exact hp) hm n hr

/-! ## UP of LOOP (08 R201, 11 R288, 13 R341) -/

/-- Buffers of the device become FREE. -/
structure Window.FreedBy (bs : List Nat) (w w' : Window) : Prop where
  rest : w' = { w with own := w'.own }
  freed : ∀ b, b < 64 → b ∈ bs → (w.ownAt b).own = .device → w'.ownAt b = ⟨.free, (w.ownAt b).gen + 1, 0x20⟩
  kept : ∀ b, (b ∉ bs ∨ (w.ownAt b).own ≠ .device) → w'.ownAt b = w.ownAt b

theorem State.freeBuf_freed (s : State) (b : Nat) : ∃ w, s.freeBuf b = s.setWin w ∧ Window.FreedBy [b] s.win w := by
  by_cases h : (s.win.ownAt b).own = .device
  · refine ⟨s.win.setOwner b .free 0x20, if_pos h, rfl, fun c hc hm _ => ?_, fun c hc => s.win.setOwner_other _ _ ?_⟩
    · rw [List.mem_singleton] at hm
      subst hm
      exact s.win.setOwner_self _ _ hc
    · rintro rfl
      rcases hc with hc | hc
      · exact hc (List.mem_singleton_self c)
      · exact hc h
  · refine ⟨s.win, if_neg h, rfl, fun c _ hm hd => ?_, fun _ _ => rfl⟩
    rw [List.mem_singleton] at hm
    exact absurd (hm ▸ hd) h

theorem Window.FreedBy.trans {bs cs : List Nat} (h : Window.FreedBy bs w w') (g : Window.FreedBy cs w' w'') : Window.FreedBy (bs ++ cs) w w'' := by
  refine ⟨by rw [g.rest, h.rest], fun b hb hm hd => ?_, fun b hb => ?_⟩
  · by_cases hbs : b ∈ bs
    · have hw := h.freed b hb hbs hd
      rw [g.kept b (.inr (by rw [hw]; exact fun h => (nomatch h))), hw]
    · have hw := h.kept b (.inl hbs)
      rw [g.freed b hb ((List.mem_append.1 hm).resolve_left hbs) (by rw [hw]; exact hd), hw]
  · have hw : w'.ownAt b = w.ownAt b := h.kept b (hb.imp_left fun hn hm => hn (List.mem_append_left _ hm))
    rw [g.kept b (by rw [hw]; exact hb.imp_left fun hn hm => hn (List.mem_append_right _ hm)), hw]

theorem State.freeBuf_fold (bs : List Nat) (s : State) : ∃ w, bs.foldl State.freeBuf s = s.setWin w ∧ Window.FreedBy bs s.win w := by
  induction bs generalizing s with
  | nil => exact ⟨s.win, rfl, rfl, fun _ _ h => (nomatch h), fun _ _ => rfl⟩
  | cons b bs ih =>
    obtain ⟨w, hw, hf⟩ := s.freeBuf_freed b
    obtain ⟨w', hw', hf'⟩ := ih (s.setWin w)
    refine ⟨w', ?_, hf.trans hf'⟩
    rw [List.foldl_cons, hw, hw']
    rfl

/-- What the replies that MGMT kept leave of the window: the ownership words, the locks, and every mailbox but MB3. -/
structure Window.Replied (w w' : Window) : Prop where
  own : w'.own = w.own
  locks : w'.locks = w.locks
  others : ∀ k, k ≠ 3 → w'.mbAt k = w.mbAt k

theorem State.fabricReply_spec (s : State) (r : ReplyOut) (hu : s.loopUp = true) : s.Only [.win, .obs] (s.fabricReply r) ∧
    s.OnlyTrace (s.fabricReply r) ∧ Window.Replied s.win (s.fabricReply r).win ∧
    ((s.win.mbAt 3).pending = false → s.win.posts.any (fun e => e.1 == 3) = false →
      ((s.fabricReply r).win.mbAt 3).pending = true ∧ ((s.fabricReply r).win.mbAt 3).req = .reply r) := by
  obtain ⟨m, hm⟩ : ∃ m, (if (s.win.ownAt r.buf.toNat).own = .device then s.winWrite (bufAddr r.buf.toNat) r.bytes else s) =
      s.setWin { s.win with mem := m } := by
    split
    · exact ⟨_, rfl⟩
    · exact ⟨s.win.mem, rfl⟩
  have e : s.fabricReply r = (s.setWin { s.win with mem := m }).postReq 3 0 (.reply r) := by
    unfold State.fabricReply
    rw [hm]
    exact if_pos hu
  obtain ⟨hp, -⟩ := (s.setWin { s.win with mem := m }).postReq_posts (k := 3) (by decide) 0 (.reply r)
  rw [e]
  refine ⟨((s.setWin_only _).mono (by simp)).trans hp.only, hp.traced.of_obs rfl, ⟨by rw [hp.win]; rfl, by rw [hp.win]; rfl, fun k hk => hp.others k hk⟩,
    fun h3 hq => ?_⟩
  have hloop : (s.setWin { s.win with mem := m }).reqUp 3 = true := by
    have : s.upAt .loop = true := by
      rw [State.loopUp, Bool.and_eq_true] at hu
      exact hu.2
    show (s.upAt .loop || _) = true
    rw [this]
    rfl
  have hask := State.postReq_asks (s := s.setWin { s.win with mem := m }) (k := 3) (by decide) ⟨hloop, h3, hq⟩ 0 (.reply r)
  exact ⟨hask.pending.1, hask.pending.2.1⟩

theorem State.fabricReply_fold (rs : List ReplyOut) (s : State) (hu : s.loopUp = true) : s.Only [.win, .obs] (rs.foldl State.fabricReply s) ∧
    s.OnlyTrace (rs.foldl State.fabricReply s) ∧ Window.Replied s.win (rs.foldl State.fabricReply s).win := by
  induction rs generalizing s with
  | nil => exact ⟨.refl _ s, .refl _ s, rfl, rfl, fun _ _ => rfl⟩
  | cons r rs ih =>
    obtain ⟨h1, h2, ⟨h3, h4, h5⟩, -⟩ := s.fabricReply_spec r hu
    have hup : (s.fabricReply r).loopUp = true := by
      have hc : (s.fabricReply r).clock = s.clock := h1.2 .clock (by decide)
      have hi : (s.fabricReply r).isl = s.isl := h1.2 .isl (by decide)
      unfold State.loopUp State.upAt at hu ⊢
      rw [hc, hi]
      exact hu
    obtain ⟨k1, k2, ⟨k3, k4, k5⟩⟩ := ih (s.fabricReply r) hup
    exact ⟨h1.trans k1, h2.trans k2, k3.trans h3, k4.trans h4, fun k hk => (k5 k hk).trans (h5 k hk)⟩

theorem State.unaccept_sessions (s : State) (x : Word64) : ∃ ss, s.unaccept x = s.setFab { s.fab with sessions := ss } := by
  unfold State.unaccept
  split
  · exact ⟨s.fab.sessions, rfl⟩
  · exact ⟨_, rfl⟩

/-- The buffers that LOOP sets FREE at its UP. -/
def State.loopFrees (s : State) : List Nat :=
  (if (s.win.mbAt 2).unanswered then [nbBuf (s.win.mbAt 2).notice] else []) ++ s.fab.lost

theorem State.mem_loopFrees {b : Nat} : b ∈ s.loopFrees ↔ b ∈ s.fab.lost ∨ ((s.win.mbAt 2).unanswered = true ∧ nbBuf (s.win.mbAt 2).notice = b) := by
  unfold State.loopFrees
  rw [List.mem_append, or_comm]
  refine or_congr_right ?_
  by_cases h : (s.win.mbAt 2).unanswered = true
  · rw [if_pos h, List.mem_singleton, and_iff_right h]
    exact eq_comm
  · rw [if_neg h]
    exact ⟨fun k => (nomatch k), fun k => absurd k.1 h⟩

/-- LOOP at its UP, before the replies that MGMT kept. -/
theorem State.upLoop_eq (s : State) : ∃ w w' ss, Window.Clears [2] [] s.win w ∧ Window.FreedBy s.loopFrees w w' ∧
    s.upLoop = s.fab.mb3Wait.foldl State.fabricReply (((s.setWin w').setFab { s.fab with sessions := ss, lost := [], mb3Wait := [] }).setLoop
      { s.loop with yl := s.loop.y, ylValid := s.loop.yValid, replaying := !s.loop.todo.isEmpty, replayNext := s.now }) := by
  obtain ⟨w, v, ss, hv, hc, hf⟩ : ∃ w v ss, (if (s.win.mbAt 2).unanswered then (s.withdraw 2).withdrawCmd (s.win.mbAt 2).notice else s) =
      (s.setWin v).setFab { s.fab with sessions := ss } ∧ Window.Clears [2] [] s.win w ∧
      Window.FreedBy (if (s.win.mbAt 2).unanswered then [nbBuf (s.win.mbAt 2).notice] else []) w v := by
    by_cases hu : (s.win.mbAt 2).unanswered = true
    · obtain ⟨w, hw, hc⟩ := s.withdraw_clears (k := 2) (by decide)
      obtain ⟨v, hv, hf⟩ := (s.setWin w).freeBuf_freed (nbBuf (s.win.mbAt 2).notice)
      obtain ⟨ss, hs⟩ := ((s.setWin w).setWin v).unaccept_sessions (s.win.mbAt 2).notice
      refine ⟨w, v, ss, ?_, hc, ?_⟩
      · rw [if_pos hu, hw]
        unfold State.withdrawCmd
        rw [hv, hs]
        rfl
      · rw [if_pos hu]
        exact hf
    · refine ⟨s.win, s.win, s.fab.sessions, if_neg hu, .none (Bool.eq_false_of_not_eq_true hu) (fun _ h => (nomatch h)), ?_⟩
      rw [if_neg hu]
      exact ⟨rfl, fun _ _ h => (nomatch h), fun _ _ => rfl⟩
  obtain ⟨w', hw', hf'⟩ := State.freeBuf_fold ((s.setWin v).setFab { s.fab with sessions := ss }).fab.lost ((s.setWin v).setFab { s.fab with sessions := ss })
  refine ⟨w, w', ss, hc, hf.trans hf', ?_⟩
  unfold State.upLoop
  dsimp only
  rw [hv]
  rw [hw']
  rfl

theorem State.upLoop_spec (s : State) (hu : s.loopUp = true) : let t := s.upLoop
    s.Only [.win, .fab, .loop, .obs] t ∧ s.Serves t ∧ t.fab.mb2Wait = s.fab.mb2Wait ∧ t.fab.lost = [] ∧ t.fab.mb3Wait = [] ∧
      ((s.win.mbAt 2).unanswered = true → (t.win.mbAt 2).pending = false) ∧
      (∀ b, b < 64 → (b ∈ s.loopFrees → (s.win.ownAt b).own = .device → t.win.ownAt b = ⟨.free, (s.win.ownAt b).gen + 1, 0x20⟩) ∧
        (b ∉ s.loopFrees → t.win.ownAt b = s.win.ownAt b)) ∧
      (∀ r, s.fab.mb3Wait = [r] → (s.win.mbAt 3).pending = false → s.win.posts.any (fun e => e.1 == 3) = false →
        (t.win.mbAt 3).pending = true ∧ (t.win.mbAt 3).req = .reply r) ∧
      t.loop = { s.loop with yl := s.loop.y, ylValid := s.loop.yValid, replaying := !s.loop.todo.isEmpty, replayNext := s.now } := by
  intro t
  obtain ⟨w, w', ss, hc, hf, ht⟩ := s.upLoop_eq
  obtain ⟨u, hue⟩ : ∃ u, u = ((s.setWin w').setFab { s.fab with sessions := ss, lost := [], mb3Wait := [] }).setLoop
      { s.loop with yl := s.loop.y, ylValid := s.loop.yValid, replaying := !s.loop.todo.isEmpty, replayNext := s.now } := ⟨_, rfl⟩
  rw [← hue] at ht
  have hup : u.loopUp = true := by rw [hue]; exact hu
  obtain ⟨h1, h2, ⟨h3, h4, h5⟩⟩ := State.fabricReply_fold s.fab.mb3Wait u hup
  rw [← ht] at h1 h2 h3 h4 h5
  have hfab : t.fab = u.fab := h1.2 .fab (by decide)
  have hloop : t.loop = u.loop := h1.2 .loop (by decide)
  have hpins : t.pins = u.pins := h1.2 .pins (by decide)
  have huonly : s.Only [.win, .fab, .loop, .obs] u := by
    rw [hue]
    exact ⟨rfl, fun q hq => by cases q <;> first | exact absurd (by decide) hq | rfl⟩
  have huwin : u.win = w' := by rw [hue]; rfl
  have hown (b : Nat) : t.win.ownAt b = w'.ownAt b := by
    unfold Window.ownAt
    rw [h3, huwin]
  have hw (b : Nat) : w.ownAt b = s.win.ownAt b := hc.kept b fun ⟨_, hj, _⟩ => (nomatch hj)
  refine ⟨huonly.trans (h1.mono (by simp)), ⟨(huonly.mono (by simp)).trans (h1.mono (by simp)), h2.of_obs (by rw [hue]; rfl), ?_, ?_⟩, ?_, ?_, ?_, fun h => ?_,
    fun b hb => ⟨fun hm hd => ?_, fun hm => ?_⟩, fun r hr hp hq => ?_, hloop.trans (by rw [hue]; rfl)⟩
  · rw [h4, huwin, hf.rest, hc.rest]
  · rw [hpins, hue]
    rfl
  · rw [hfab, hue]
    rfl
  · rw [hfab, hue]
    rfl
  · rw [hfab, hue]
    rfl
  · rw [h5 2 (by decide), huwin, hf.rest]
    exact hc.gone 2 (List.mem_singleton_self 2) h
  · rw [hown, hf.freed b hb hm (by rw [hw]; exact hd), hw]
  · rw [hown, hf.kept b (.inl hm), hw]
  · obtain ⟨-, -, -, hr'⟩ := u.fabricReply_spec r hup
    have e : t = u.fabricReply r := ht.trans (by rw [hr]; rfl)
    rw [e]
    refine hr' ?_ ?_
    · rw [huwin, hf.rest]
      show (w.mbAt 3).pending = false
      rw [hc.others 3 (by decide)]
      exact hp
    · rw [huwin, hf.rest, hc.rest]
      exact hq

/-! ## The almanac of a start -/

theorem State.startAlm_spec (s : State) : let t := s.startAlm
    s.Only [.mgmt, .meas, .energy, .loop] t ∧ t.mgmt.toLoad = s.mgmt.toLoad ∧ t.loop = { s.loop with duMax := t.loop.duMax, g := t.loop.g } := by
  intro t
  cases h : s.savedAlm.compile (s.newLevel .mgmt) s.meas.inService s.sources with
  | ok x =>
    obtain ⟨h1, h2, -, -, -, -, -, -, -, -, -, h3, -⟩ := s.loadAlm_spec s.savedAlm x.1 x.2
    have e : t = s.loadAlm s.savedAlm x.1 x.2 := State.startAlm_ok h
    rw [e]
    exact ⟨h1, h2, by rw [h3]⟩
  | error x =>
    have e : t = _ := State.startAlm_error h
    rw [e]
    exact ⟨((State.setMgmt_only _ _).mono (by simp)).trans ((State.setMeas_only _ _).mono (by simp)), rfl, rfl⟩

theorem State.loadOnce_loads (s : State) : s.Only [.mgmt, .meas, .energy, .loop] s.loadOnce ∧ s.loadOnce.mgmt.toLoad = false ∧
    s.loadOnce.loop = { s.loop with duMax := s.loadOnce.loop.duMax, g := s.loadOnce.loop.g } := by
  cases hl : s.mgmt.toLoad with
  | false =>
    rw [State.loadOnce_done hl]
    exact ⟨.refl _ s, hl, rfl⟩
  | true =>
    obtain ⟨v, hv⟩ : ∃ v, v = s.setMgmt { s.mgmt with toLoad := false } := ⟨_, rfl⟩
    obtain ⟨h1, h2, h3⟩ := v.startAlm_spec
    rw [State.loadOnce_due hl, ← hv]
    have ho : s.Only [.mgmt] v := by
      rw [hv]
      exact s.setMgmt_only _
    refine ⟨(ho.mono (by simp)).trans h1, h2.trans (by rw [hv]; rfl), h3.trans ?_⟩
    rw [show v.loop = s.loop from ho.2 .loop (by decide)]

theorem State.loadOnce_spec (s : State) : let t := s.loadOnce
    s.Only [.mgmt, .meas, .energy, .loop] t ∧ s.Serves t ∧ t.mgmt.toLoad = false ∧ t.loop = { s.loop with duMax := t.loop.duMax, g := t.loop.g } := by
  intro t
  obtain ⟨h1, h2, h3⟩ := s.loadOnce_loads
  have hw : t.win = s.win := h1.2 .win (by decide)
  exact ⟨h1, .of h1 (by simp) (by rw [hw]), h2, h3⟩

/-! ## UP of MEAS (13 R340) -/

/-- A channel at the rejoin: its decimator as its last result would have left it. -/
theorem State.rejoinChan_spec {c : Nat} {p : PreChan} (hp : s.meas.preload.chans[c]? = some p) :
    let a := s.mgmt.inForce
    let g := if a.arEn c then p.gain else a.fixedGain c
    let m := s.meas.map
    let at_ : Nat × Nat := s.meas.round.rejoinAt
    let next := at_.1 * m.nc c + ((m.samplePos (a.excModeInUse c == 3) c).filter fun t => decide (t.1 < at_.2)).length
    let k := next - (p.bound.1 * m.nc c + p.bound.2 + 1) - (if m.interleaved c then 4 else 0)
    let n := a.fOsr c
    let cube (j : Nat) : Int := p.zLast * (j * (j + 1) * (j + 2) / 6 : Nat)
    let b := (3 + k / n) * n
    let y := s.rejoinChan c
    y.gain = g ∧ y.zLast = p.zLast ∧ y.zh = p.zh ∧ y.nh = p.nh ∧ y.lastBound = p.bound ∧ y.settle = 0 ∧ y.flushed = false ∧
      y.deferAcc = decide (0 < k % n) ∧ y.i1 = wrap64 (p.zLast * (3 * n + k : Nat)) ∧
      y.i2 = wrap64 (p.zLast * ((3 * n + k) * (3 * n + k + 1) / 2 : Nat)) ∧ y.i3 = wrap64 (cube (3 * n + k)) ∧
      y.d1 = wrap64 (cube b) ∧ y.d2 = wrap64 (cube b - cube (b - n)) ∧
      y.d3 = wrap64 (cube b - 2 * cube (b - n) + cube (b - 2 * n)) ∧
      y.prevRev = some ⟨p.zLast, g, if a.arEn c then a.arGmax c else g, false⟩ ∧ y.prevNorm = y.prevRev ∧
      (m.interleaved c = false → y.deskew = []) := by
  unfold State.rejoinChan
  dsimp only
  rw [List.getD_eq_getElem?_getD, hp]
  generalize s.meas.round.rejoinAt = at_
  obtain ⟨r, pos⟩ := at_
  exact ⟨rfl, rfl, rfl, rfl, rfl, rfl, rfl, rfl, rfl, rfl, rfl, rfl, rfl, rfl, rfl, rfl, fun h => if_neg (by
    rw [h]
    exact Bool.false_ne_true)⟩

/-- MEAS at its UP, before the sequencer drives and a missed token is posted again. -/
def State.measBack (s : State) : State := if s.meas.round.on then s.rejoinMeas else s.startMeas

theorem State.measBack_spec (s : State) : let t := s.measBack
    s.Only [.meas] t ∧ t.meas.queue = [] ∧ t.meas.map = s.meas.map ∧ t.meas.round.startAt = some s.now ∧ t.meas.cal = s.nvm.calBlock ∧
      t.meas.vars = Vector.replicate 8 Var.reset ∧
      (s.meas.round.on = false → t.meas.round.on = true ∧ t.meas.round.due = true ∧ t.meas.round.pos = 0) ∧
      (s.meas.round.on = true → t.meas.round = { s.meas.round with startAt := some s.now, passed := 0, freezes := [] } ∧
        t.meas.sxItem = s.meas.preload.sxItem ∧ t.meas.chans = Vector.ofFn fun c : Fin 20 => s.measBase.rejoinChan c.val) := by
  intro t
  by_cases h : s.meas.round.on = true
  · have e : t = s.rejoinMeas := if_pos h
    rw [e]
    exact ⟨s.setMeas_only _, rfl, rfl, rfl, rfl, rfl, fun k => absurd (h.symm.trans k) (by decide), fun _ => ⟨rfl, rfl, rfl⟩⟩
  · have e : t = s.startMeas := if_neg h
    rw [e]
    exact ⟨s.setMeas_only _, rfl, rfl, rfl, rfl, rfl, fun _ => ⟨rfl, rfl, rfl⟩, fun k => absurd k h⟩

theorem State.upMeas_eq (s : State) : ∃ w, Window.Clears [5] [5] s.win w ∧ s.upMeas = (s.setWin w).measBack.driveExc.repostMeas := by
  obtain ⟨w, hw, hc⟩ := s.withdrawFree_clears (k := 5) (by decide)
  refine ⟨w, hc, ?_⟩
  unfold State.upMeas State.measBack
  rw [hw]

theorem State.driveExc_serves (s : State) : s.Serves s.driveExc := by
  have h := s.driveExc_only
  have hobs : s.driveExc.obs = s.obs := h.2 .obs (by decide)
  have hw : s.driveExc.win = s.win := h.2 .win (by decide)
  exact ⟨h.mono (by simp), (State.CountersBut.refl _ s).to_obs hobs, by rw [hw], s.driveExc_frame.1⟩

theorem State.upMeas_spec (s : State) : let t := s.upMeas
    s.Only [.win, .meas, .pins, .mgmt] t ∧ s.Serves t ∧ t.meas.queue = [] ∧ t.meas.map = s.meas.map ∧ t.meas.round.startAt = some s.now ∧
      t.meas.cal = s.nvm.calBlock ∧ (∀ v : Fin 8, t.meas.vars[v] = Var.reset) ∧
      ((s.win.mbAt 5).unanswered = true → (t.win.mbAt 5).pending = false) ∧
      t.mgmt = { s.mgmt with pendMeas := s.mgmt.pendMeas.map fun k => if k.missed then { k with posted := s.now, missed := false } else k } ∧
      (s.meas.round.on = false → t.meas.round.on = true ∧ t.meas.round.due = true ∧ t.meas.round.pos = 0) ∧
      (s.meas.round.on = true → t.meas.round = { s.meas.round with startAt := some s.now, passed := 0, freezes := [] } ∧
        t.meas.sxItem = s.meas.preload.sxItem ∧ ∃ u : State, u.mgmt = s.mgmt ∧ u.meas.preload = s.meas.preload ∧ u.meas.map = s.meas.map ∧
          u.meas.round = s.meas.round ∧ ∀ c : Fin 20, t.meas.chans[c] = u.rejoinChan c.val) := by
  intro t
  obtain ⟨w, hc, ht⟩ := s.upMeas_eq
  obtain ⟨b1, b2, b3, b4, b5, b6, b7, b8⟩ := (s.setWin w).measBack_spec
  obtain ⟨u, hu⟩ : ∃ u, u = (s.setWin w).measBack := ⟨_, rfl⟩
  rw [← hu] at ht b1 b2 b3 b4 b5 b6 b7 b8
  have hd := u.driveExc_only
  obtain ⟨-, hm⟩ := u.driveExc_frame
  have hmeas : t.meas = u.driveExc.meas := by rw [show t = _ from ht]; rfl
  have humgmt : u.driveExc.mgmt = s.mgmt := (hd.2 .mgmt (by decide)).trans (b1.2 .mgmt (by decide))
  have hclock : u.driveExc.clock = s.clock := (hd.2 .clock (by decide)).trans (b1.2 .clock (by decide))
  have hwin : t.win = w := by
    rw [show t = _ from ht]
    exact (hd.2 .win (by decide)).trans (b1.2 .win (by decide))
  have hrepost (v : State) : v.Only [.mgmt] v.repostMeas := v.setMgmt_only _
  have hs1 : s.Serves (s.setWin w) := .setWin (by rw [hc.rest])
  have hs2 : (s.setWin w).Serves u := .of b1 (by simp) (by rw [show u.win = w from b1.2 .win (by decide)]; rfl)
  have hs3 : u.driveExc.Serves u.driveExc.repostMeas := .of (hrepost _) (by simp) rfl
  refine ⟨?_, ?_, ?_, ?_, ?_, ?_, fun v => ?_, fun h => ?_, ?_, fun h => ?_, fun h => ?_⟩
  · rw [show t = _ from ht]
    exact ((s.setWin_only w).mono (by simp)).trans ((b1.mono (by simp)).trans ((hd.mono (by simp)).trans ((hrepost _).mono (by simp))))
  · rw [show t = _ from ht]
    exact hs1.trans (hs2.trans (u.driveExc_serves.trans hs3))
  · rw [hmeas, hm]
    exact b2
  · rw [hmeas, hm]
    exact b3
  · rw [hmeas, hm]
    exact b4
  · rw [hmeas, hm]
    exact b5
  · rw [hmeas, hm]
    show u.meas.vars[v.val] = _
    rw [b6, Vector.getElem_replicate]
  · rw [hwin]
    exact hc.gone 5 (List.mem_singleton_self 5) h
  · rw [show t = _ from ht]
    show ({ u.driveExc.mgmt with pendMeas := u.driveExc.mgmt.pendMeas.map fun k =>
      if k.missed then { k with posted := u.driveExc.clock.tick, missed := false } else k } : Mgmt) = _
    rw [humgmt, hclock]
    rfl
  · rw [hmeas, hm]
    exact b7 h
  · obtain ⟨c1, c2, c3⟩ := b8 h
    rw [hmeas, hm]
    refine ⟨c1, c2, (s.setWin w).measBase, rfl, rfl, rfl, rfl, fun c => ?_⟩
    show u.meas.chans[c.val] = _
    rw [c3, Vector.getElem_ofFn]

/-! ## UP -/

/-- AON's report of an UP that a command has waited for. -/
theorem State.oweUp_spec (s : State) (i : Island) : let t := s.oweUp i
    s.Only [.faults, .win, .obs] t ∧ s.OnlyTrace t ∧ t.faults = { s.faults with owed := s.faults.owed.filter (· ≠ i) } ∧
      t.win = { s.win with
        mb := t.win.mb, crossSince := t.win.crossSince, crossRaised := t.win.crossRaised, idb := t.win.idb, posts := t.win.posts } ∧
      (∀ k, k ≠ 6 → t.win.mbAt k = s.win.mbAt k) ∧ (i ∉ s.faults.owed → t = s) := by
  intro t
  by_cases h : i ∈ s.faults.owed
  · obtain ⟨u, hu⟩ : ∃ u, u = s.setFaults { s.faults with owed := s.faults.owed.filter (· != i) } := ⟨_, rfl⟩
    have e : t = u.postReq 6 0 (.islandUp i) := (if_pos (List.contains_iff_mem.2 h)).trans (by rw [hu])
    obtain ⟨⟨p1, p2, p3, p4, -⟩, -⟩ := u.postReq_posts (k := 6) (by decide) 0 (.islandUp i)
    rw [← e] at p1 p2 p3 p4
    have hw : u.win = s.win := by rw [hu]; rfl
    have hf : t.faults = u.faults := p1.2 .faults (by decide)
    refine ⟨?_, p2.of_obs (by rw [hu]; rfl), ?_, by rw [p3, hw], fun k hk => by rw [p4 k hk, hw], fun hn => absurd h hn⟩
    · exact Only.trans (by rw [hu]; exact (s.setFaults_only _).mono (by simp)) (p1.mono (by simp))
    · rw [hf, hu]
      have hfil : (s.faults.owed.filter (· != i)) = s.faults.owed.filter (· ≠ i) :=
        List.filter_congr fun j _ => by by_cases hj : j = i <;> simp [hj]
      rw [hfil]
      rfl
  · have e : t = s := if_neg (by rw [List.contains_iff_mem]; exact h)
    have hfil : s.faults.owed.filter (· ≠ i) = s.faults.owed := List.filter_eq_self.2 fun j hj => by
      rw [decide_eq_true_iff]
      rintro rfl
      exact h hj
    rw [e, hfil]
    exact ⟨.refl _ s, .refl _ s, rfl, rfl, fun _ _ => rfl, fun _ => rfl⟩

/-- The state of an island at its UP, before its service. -/
def State.risen (s : State) (i : Island) (o : Obs) : State :=
  (((s.setIsl i ((s.isl.at i).setUp s.now)).setObs o).setWin { s.win with locks := s.win.locks.map fun o => if o = srcOf i then 0 else o }).setPins
    { s.pins with started := s.pins.started.put i true }

theorem exec_islandUp (hp : s.clock.powered = true) (hd : (s.isl.at i).down = true) (hr : (s.isl.at i).released = true)
    (hx : (s.isl.at i).dead = false) (hi : i = .aon ∨ s.pins.inReset = false) : ∃ o, s.OnlyTrace (s.setObs o) ∧
      exec (.islandUp i) s = .next ((if i = .loop then ((s.risen i o).serve i).loadOnce else (s.risen i o).serve i).oweUp i) := by
  obtain ⟨o, ho, htr⟩ := State.emit_eq (s.setIsl i ((s.isl.at i).setUp s.now)) .aon 0xA ((srcOf i).toNat + 256 * 2) []
  have hex : exec (.islandUp i) s = .next _ := stepIf_of (by
    rw [hp, hd, hr, hx]
    rcases hi with rfl | hi
    · rfl
    · rw [hi, Bool.not_false, Bool.or_true]
      rfl)
  rw [show State.emitIsland (s.setIsl i ((s.isl.at i).setUp s.now)) i 2 = _ from ho] at hex
  exact ⟨o, htr.of_obs rfl, hex⟩

/-- An island's service, with the almanac of a start that LOOP's UP loads. -/
def State.served (s : State) (i : Island) : State := if i = .loop then (s.serve i).loadOnce else s.serve i

theorem State.served_serves (s : State) (i : Island) (hu : i = .loop → s.loopUp = true) : s.Serves (s.served i) ∧
    (i ≠ .meas → (s.served i).pins = s.pins) ∧ (i ≠ .loop → (s.served i).energy = s.energy) := by
  cases i with
  | mgmt =>
    obtain ⟨h1, h2, -⟩ := s.upMgmt_spec
    exact ⟨h2, fun _ => h1.2 .pins (by decide), fun _ => h1.2 .energy (by decide)⟩
  | loop =>
    obtain ⟨h1, h2, -⟩ := s.upLoop_spec (hu rfl)
    obtain ⟨g1, g2, -⟩ := s.upLoop.loadOnce_spec
    exact ⟨h2.trans g2, fun _ => (g1.2 .pins (by decide)).trans (h1.2 .pins (by decide)), fun h => absurd rfl h⟩
  | meas =>
    obtain ⟨h1, h2, -⟩ := s.upMeas_spec
    exact ⟨h2, fun h => absurd rfl h, fun _ => h1.2 .energy (by decide)⟩
  | aon =>
    obtain ⟨w, hw, hc⟩ := s.withdrawFree_clears (k := 6) (by decide)
    have e : s.served .aon = s.setWin w := hw
    rw [e]
    exact ⟨.setWin (by rw [hc.rest]), fun _ => rfl, fun _ => rfl⟩

theorem Window.lost_iff {b : Nat} : w.Lost w.heldBufs b ↔ (w.ownAt b).own = .device ∧ (w.ownAt b).last = 0x01 ∧
    ¬ ((w.mbAt 0).pending = true ∧ (w.mbAt 0).held = true ∧ nbBuf (w.mbAt 0).notice = b) ∧ w.turned.contains b = false := by
  have hh : (!w.heldBufs.contains b) = true ↔ ¬ ((w.mbAt 0).pending = true ∧ (w.mbAt 0).held = true ∧ nbBuf (w.mbAt 0).notice = b) := by
    rw [Bool.not_eq_true', ← Bool.not_eq_true, not_iff_not, List.contains_iff_mem]
    unfold Window.heldBufs
    by_cases h : ((w.mbAt 0).pending && (w.mbAt 0).held) = true
    · rw [if_pos h, List.mem_singleton]
      rw [Bool.and_eq_true] at h
      rw [and_iff_right h.1, and_iff_right h.2]
      exact eq_comm
    · rw [if_neg h]
      rw [Bool.and_eq_true] at h
      exact ⟨fun k => (nomatch k), fun k => absurd ⟨k.1, k.2.1⟩ h⟩
  unfold Window.Lost
  rw [hh, Bool.not_eq_true']

/-! ## The release of a reset (13 R339; 03 Table 3-10) -/

theorem State.toCheck_iff : s.toCheck i = true ↔ (i = .loop ∨ i = .meas) ∧ s.booted = true ∧ (s.isl.at i).down = true ∧ (s.isl.at i).dead = false ∧
    (s.isl.at i).released = false ∧ (s.isl.at i).stopped = false ∧ (s.isl.at i).resetAt = none ∧ (s.isl.at i).checked = false := by
  unfold State.toCheck
  simp only [Bool.and_eq_true, Bool.or_eq_true, beq_iff_eq, Bool.not_eq_true', Option.isNone_iff_eq_none, and_assoc]

theorem State.aonSwitch_aon (h : s.aonSwitch i = true) : i = .aon := by
  unfold State.aonSwitch at h
  simp only [Bool.and_eq_true, beq_iff_eq] at h
  exact h.1.1.1.1.1

theorem release_switch {ok : Bool} (hp : s.clock.powered = true) (h : s.aonSwitch i = true) : exec (.islandResetRelease i ok) s = .next
    (if s.digestOk i ok then s.setIsl .aon { s.isl.at i with nvmFw := true } else s.imageFault .aon) := by
  show execIslandResetRelease i ok s = _
  unfold execIslandResetRelease
  dsimp only
  rw [if_pos h]
  exact stepIf_of hp

theorem release_check {ok : Bool} (hp : s.clock.powered = true) (h : s.toCheck i = true) : exec (.islandResetRelease i ok) s = .next
    (if s.digestOk i ok then s.setIsl i { s.isl.at i with checked := true } else s.imageFault i) := by
  have hs : ¬ s.aonSwitch i = true := fun k => by
    rw [State.aonSwitch_aon k] at h
    exact absurd (State.toCheck_iff.1 h).1 (by decide)
  show execIslandResetRelease i ok s = _
  unfold execIslandResetRelease
  dsimp only
  rw [if_neg hs, if_pos h]
  exact stepIf_of hp

/-- The state at which an island's reset is released: MEAS finds the almanac of a start loaded. -/
def State.atRelease (s : State) (i : Island) : State := if i = .meas then s.loadOnce else s

theorem State.atRelease_only (s : State) (i : Island) : s.Only [.mgmt, .meas, .energy, .loop] (s.atRelease i) := by
  unfold State.atRelease
  split
  · exact s.loadOnce_spec.1
  · exact .refl _ s

theorem release_spec {ok : Bool} (hp : s.clock.powered = true) (hs : s.aonSwitch i = false) (hc : s.toCheck i = false) (hm : s.mayRelease i = true) :
    ((s.isl.at i).checked = true ∨ s.digestOk i ok = true → ∃ t, exec (.islandResetRelease i ok) s = .next t ∧ (s.atRelease i).Only [.isl, .obs] t ∧
      (s.atRelease i).OnlyTrace t ∧ t.isl = s.isl.put i { s.isl.at i with released := true, lostWords := [] }) ∧
    ((s.isl.at i).checked = false → s.digestOk i ok = false → ∃ t, exec (.islandResetRelease i ok) s = .next t ∧
      (s.atRelease i).Only [.isl, .faults, .obs] t ∧ (s.atRelease i).OnlyTrace t ∧
      t.isl = s.isl.put i { s.isl.at i with dead := true } ∧ t.faults = (s.report 0x1D (srcOf i).toNat (srcOf i)).faults) := by
  obtain ⟨w, hw⟩ : ∃ w, w = s.atRelease i := ⟨_, rfl⟩
  obtain ⟨o, ho, htr⟩ := State.emit_eq w .aon 0xA ((srcOf i).toNat + 256 * 1) []
  have honly : s.Only [.mgmt, .meas, .energy, .loop] w := by
    rw [hw]
    exact s.atRelease_only i
  have hisl : w.isl = s.isl := honly.2 .isl (by decide)
  have hfaults : w.faults = s.faults := honly.2 .faults (by decide)
  have hclock : w.clock = s.clock := honly.2 .clock (by decide)
  have hex : exec (.islandResetRelease i ok) s = .next (if (s.isl.at i).checked || s.digestOk i ok then
      (w.setObs o).setIsl i { s.isl.at i with released := true, lostWords := [] } else (w.setObs o).imageFault i) := by
    show execIslandResetRelease i ok s = _
    unfold execIslandResetRelease
    dsimp only
    rw [if_neg (by rw [hs]; exact Bool.false_ne_true), if_neg (by rw [hc]; exact Bool.false_ne_true)]
    rw [show State.emitIsland (if i = .meas then s.loadOnce else s) i 1 = w.setObs o by rw [← ho, hw]; rfl]
    exact stepIf_of (by rw [hp, hm]; rfl)
  rw [← hw]
  refine ⟨fun h => ⟨_, hex.trans (congrArg _ (if_pos ?_)), ?_, (htr.to_obs rfl), ?_⟩, fun h1 h2 => ⟨_, hex.trans (congrArg _ (if_neg ?_)), ?_, (htr.to_obs rfl), ?_, ?_⟩⟩
  · rw [Bool.or_eq_true]
    exact h
  · exact ((w.setObs_only o).mono (by simp)).trans ((State.setIsl_only _ i _).mono (by simp))
  · show w.isl.put i _ = _
    rw [hisl]
  · rw [h1, h2]
    exact Bool.false_ne_true
  · exact ((w.setObs_only o).mono (by simp)).trans (((State.setIsl_only _ i _).mono (by simp)).trans ((State.setFaults_only _ _).mono (by simp)))
  · show w.isl.put i { w.isl.at i with dead := true } = _
    rw [hisl]
  · exact State.report_faults_congr (s := s) hfaults hclock _ _ _

theorem State.mayRelease_loop (h : s.mayRelease .loop = true) (hr : s.isl.loop.resetAt = none) : s.isl.loop.checked = true ∧
    (s.isl.meas.checked = true ∨ s.isl.meas.dead = true) ∧ (s.isl.aon.nvmFw = true ∨ s.isl.aon.dead = true) := by
  unfold State.mayRelease at h
  dsimp only [Quad.at] at h
  rw [hr] at h
  simp only [Bool.and_eq_true, Bool.or_eq_true, Option.isSome_none, Bool.false_eq_true, false_or] at h
  obtain ⟨-, -, ⟨hc, hm⟩, ha⟩ := h
  exact ⟨hc, hm, ha⟩

theorem State.mayRelease_meas (h : s.mayRelease .meas = true) (hr : s.isl.meas.resetAt = none) : s.isl.meas.checked = true ∧
    (s.isl.loop.released = true ∨ s.isl.loop.up = true ∨ s.isl.loop.dead = true) := by
  unfold State.mayRelease at h
  dsimp only [Quad.at] at h
  rw [hr] at h
  simp only [Bool.and_eq_true, Bool.or_eq_true, Option.isSome_none, Bool.false_eq_true, false_or, or_assoc] at h
  obtain ⟨-, -, hc, hm⟩ := h
  exact ⟨hc, hm⟩

/-! ## The obligation -/

/-- The state after an island's UP. -/
def State.upAgain (s : State) (i : Island) (o : Obs) : State := ((s.risen i o).served i).oweUp i

theorem State.risen_loopUp {o : Obs} (hp : s.clock.powered = true) : (s.risen .loop o).loopUp = true := by
  show (s.clock.powered && _) = true
  rw [hp]
  rfl

theorem State.risen_only (s : State) (i : Island) (o : Obs) : s.Only [.isl, .obs, .win, .pins] (s.risen i o) :=
  ((s.setIsl_only i _).mono (by simp)).trans
    (((State.setObs_only _ o).mono (by simp)).trans (((State.setWin_only _ _).mono (by simp)).trans ((State.setPins_only _ _).mono (by simp))))

theorem State.upAgain_general {o : Obs} (hp : s.clock.powered = true) (ho : s.OnlyTrace (s.setObs o)) : let t := s.upAgain i o
    s.Only [.isl, .win, .mgmt, .fab, .ready, .loop, .meas, .pins, .energy, .faults, .obs] t ∧ s.OnlyTrace t ∧
      t.isl = s.isl.put i ((s.isl.at i).setUp s.now) ∧ (∀ k : Fin 8, t.win.locks[k] = if s.win.locks[k] = srcOf i then 0 else s.win.locks[k]) ∧
      t.faults = { s.faults with owed := s.faults.owed.filter (· ≠ i) } ∧
      t.pins = { s.pins with started := s.pins.started.put i true, exc := t.pins.exc, excDrive := t.pins.excDrive, brk := t.pins.brk } ∧
      (i ≠ .meas → t.pins = { s.pins with started := s.pins.started.put i true }) ∧ (i ≠ .loop → t.energy = s.energy) := by
  intro t
  obtain ⟨⟨v1, v2, v3, v4⟩, v5, v6⟩ := (s.risen i o).served_serves i (fun h => by
    subst h
    exact State.risen_loopUp hp)
  obtain ⟨t1, t2, t3, t4, -, -⟩ := ((s.risen i o).served i).oweUp_spec i
  have hr := s.risen_only i o
  have hf : ((s.risen i o).served i).faults = s.faults := (v1.2 .faults (by decide)).trans (hr.2 .faults (by decide))
  have hpins : t.pins = ((s.risen i o).served i).pins := t1.2 .pins (by decide)
  refine ⟨(hr.mono (by simp)).trans ((v1.mono (by simp)).trans (t1.mono (by simp))), (ho.to_obs rfl).trans (v2.trans t2),
    (t1.2 .isl (by decide)).trans (v1.2 .isl (by decide)), fun k => ?_, t3.trans (by rw [hf]), ?_, fun h => hpins.trans (v5 h),
    fun h => (t1.2 .energy (by decide)).trans (v6 h)⟩
  · have hl : t.win.locks = ((s.risen i o).served i).win.locks := by
      rw [show t.win = _ from t4]
    rw [hl, v3]
    exact Vector.getElem_map ..
  · rw [hpins, v4]
    rfl

theorem State.upAgain_mgmt (s : State) (o : Obs) : let t := s.upAgain .mgmt o
    t.ready = true ∧ t.win.db.getLsbD 13 = true ∧ t.mgmt = s.mgmt ∧ t.loop = s.loop ∧ t.meas = s.meas ∧
      (∀ k, k = 1 ∨ k = 3 ∨ k = 4 ∨ k = 7 → (s.win.mbAt k).unanswered = true → (t.win.mbAt k).pending = false) ∧
      (∀ b, b < 64 →
        let named := ∃ k, (k = 3 ∨ k = 4 ∨ k = 7) ∧ s.win.Names k b
        let held := (s.win.mbAt 0).pending = true ∧ (s.win.mbAt 0).held = true ∧ nbBuf (s.win.mbAt 0).notice = b
        let lost := (s.win.ownAt b).own = .device ∧ (s.win.ownAt b).last = 0x01 ∧ ¬ held ∧ s.win.turned.contains b = false
        (named → (t.win.ownAt b).own = .free ∧ (t.win.ownAt b).last = 0x10) ∧
        (¬ named → lost → t.win.ownAt b = ⟨.host, (s.win.ownAt b).gen + 1, 0x10⟩) ∧
        (¬ named → ¬ lost → t.win.ownAt b = s.win.ownAt b)) ∧
      (∀ n : Fin 16, s.fab.sessions[n].running = true → (s.win.mbAt 2).pending = false → s.fab.mb2Wait = [] →
        t.fab.sessions[n] = { s.fab.sessions[n] with running := false, seq := none, cur := none }) := by
  intro t
  obtain ⟨m1, -, m3, m4, m5, m6, m7⟩ := (s.risen .mgmt o).upMgmt_spec
  obtain ⟨u, hu⟩ : ∃ u, u = (s.risen .mgmt o).upMgmt := ⟨_, rfl⟩
  rw [← hu] at m1 m3 m4 m5 m6 m7
  obtain ⟨t1, -, -, t4, t5, -⟩ := u.oweUp_spec .mgmt
  have ht : t = u.oweUp .mgmt := by rw [hu]; rfl
  rw [← ht] at t1 t4 t5
  have hown (b : Nat) : t.win.ownAt b = u.win.ownAt b := by
    have : t.win.own = u.win.own := by rw [t4]
    unfold Window.ownAt
    rw [this]
  have hnamed (b : Nat) : (∃ k, (k = 3 ∨ k = 4 ∨ k = 7) ∧ s.win.Names k b) ↔ ∃ k ∈ [3, 4, 7], s.win.Names k b := by simp
  refine ⟨(t1.2 .ready (by decide)).trans m3, ?_, (t1.2 .mgmt (by decide)).trans (m1.2 .mgmt (by decide)),
    (t1.2 .loop (by decide)).trans (m1.2 .loop (by decide)), (t1.2 .meas (by decide)).trans (m1.2 .meas (by decide)), fun k hk hu => ?_,
    fun b hb => ?_, fun n hr hp hw => ?_⟩
  · have : t.win.db = u.win.db := by rw [t4]
    rw [this]
    exact m4
  · rw [t5 k (by omega)]
    exact m5 k hk hu
  · obtain ⟨n1, n2, n3⟩ := m6 b hb
    rw [hown]
    exact ⟨fun h => n1 ((hnamed b).1 h), fun h k => n2 (fun g => h ((hnamed b).2 g)) (Window.lost_iff.2 k),
      fun h k => n3 (fun g => h ((hnamed b).2 g)) (fun g => k (Window.lost_iff.1 g))⟩
  · rw [show t.fab = _ from t1.2 .fab (by decide)]
    exact m7 hp hw n hr

theorem State.upAgain_meas (s : State) (o : Obs) : let t := s.upAgain .meas o
    t.ready = s.ready ∧ t.loop = s.loop ∧ t.fab = s.fab ∧ t.meas.queue = [] ∧ t.meas.map = s.meas.map ∧
      t.meas.round.startAt = some s.now ∧ t.meas.cal = s.nvm.calBlock ∧ (∀ v : Fin 8, t.meas.vars[v] = Var.reset) ∧
      ((s.win.mbAt 5).unanswered = true → (t.win.mbAt 5).pending = false) ∧
      t.mgmt = { s.mgmt with pendMeas := s.mgmt.pendMeas.map fun k => if k.missed then { k with posted := s.now, missed := false } else k } ∧
      (s.meas.round.on = false → t.meas.round.on = true ∧ t.meas.round.due = true ∧ t.meas.round.pos = 0) ∧
      (s.meas.round.on = true → t.meas.round = { s.meas.round with startAt := some s.now, passed := 0, freezes := [] } ∧
        t.meas.sxItem = s.meas.preload.sxItem ∧ ∃ u : State, u.mgmt = s.mgmt ∧ u.meas.preload = s.meas.preload ∧ u.meas.map = s.meas.map ∧
          u.meas.round = s.meas.round ∧ ∀ c : Fin 20, t.meas.chans[c] = u.rejoinChan c.val) := by
  intro t
  obtain ⟨m1, -, m3, m4, m5, m6, m7, m8, m9, m10, m11⟩ := (s.risen .meas o).upMeas_spec
  obtain ⟨u, hu⟩ : ∃ u, u = (s.risen .meas o).upMeas := ⟨_, rfl⟩
  rw [← hu] at m1 m3 m4 m5 m6 m7 m8 m9 m10 m11
  obtain ⟨t1, -, -, -, t5, -⟩ := u.oweUp_spec .meas
  have ht : t = u.oweUp .meas := by rw [hu]; rfl
  rw [← ht] at t1 t5
  have hmeas : t.meas = u.meas := t1.2 .meas (by decide)
  rw [hmeas]
  refine ⟨(t1.2 .ready (by decide)).trans (m1.2 .ready (by decide)), (t1.2 .loop (by decide)).trans (m1.2 .loop (by decide)),
    (t1.2 .fab (by decide)).trans (m1.2 .fab (by decide)), m3, m4, m5, m6, m7, fun h => ?_, (t1.2 .mgmt (by decide)).trans m9, m10, m11⟩
  rw [t5 5 (by decide)]
  exact m8 h

theorem State.upAgain_aon (s : State) (o : Obs) : let t := s.upAgain .aon o
    t.ready = s.ready ∧ t.loop = s.loop ∧ t.meas = s.meas ∧ t.fab = s.fab ∧ t.mgmt = s.mgmt ∧
      (.aon ∉ s.faults.owed → (s.win.mbAt 6).unanswered = true → (t.win.mbAt 6).pending = false) := by
  intro t
  obtain ⟨w, hw, hc⟩ := (s.risen .aon o).withdrawFree_clears (k := 6) (by decide)
  obtain ⟨u, hu⟩ : ∃ u, u = (s.risen .aon o).withdrawFree 6 := ⟨_, rfl⟩
  have hr : s.Only [.isl, .obs, .win, .pins] u := by
    rw [hu, hw]
    exact (s.risen_only .aon o).trans ((State.setWin_only _ w).mono (by simp))
  have huw : u.win = w := by
    rw [hu, hw]
    rfl
  obtain ⟨t1, -, -, -, -, t6⟩ := u.oweUp_spec .aon
  have ht : t = u.oweUp .aon := by rw [hu]; rfl
  rw [← ht] at t1 t6
  refine ⟨(t1.2 .ready (by decide)).trans (hr.2 .ready (by decide)), (t1.2 .loop (by decide)).trans (hr.2 .loop (by decide)),
    (t1.2 .meas (by decide)).trans (hr.2 .meas (by decide)), (t1.2 .fab (by decide)).trans (hr.2 .fab (by decide)),
    (t1.2 .mgmt (by decide)).trans (hr.2 .mgmt (by decide)), fun h hu => ?_⟩
  have ho : u.faults = s.faults := hr.2 .faults (by decide)
  rw [t6 (by rw [ho]; exact h), huw]
  exact hc.gone 6 (List.mem_singleton_self 6) hu

theorem State.upAgain_loop {o : Obs} (hp : s.clock.powered = true) : let t := s.upAgain .loop o
    t.ready = s.ready ∧ t.fab.mb2Wait = s.fab.mb2Wait ∧ t.fab.lost = [] ∧ t.fab.mb3Wait = [] ∧ t.mgmt.toLoad = false ∧
      ((s.win.mbAt 2).unanswered = true → (t.win.mbAt 2).pending = false) ∧
      (∀ b, b < 64 →
        let gone := b ∈ s.fab.lost ∨ ((s.win.mbAt 2).unanswered = true ∧ nbBuf (s.win.mbAt 2).notice = b)
        (gone → (s.win.ownAt b).own = .device → t.win.ownAt b = ⟨.free, (s.win.ownAt b).gen + 1, 0x20⟩) ∧
        (¬ gone → t.win.ownAt b = s.win.ownAt b)) ∧
      (∀ r, s.fab.mb3Wait = [r] → (s.win.mbAt 3).pending = false → s.win.posts.any (fun e => e.1 == 3) = false →
        (t.win.mbAt 3).pending = true ∧ (t.win.mbAt 3).req = .reply r) ∧
      t.loop = { s.loop with
        yl := s.loop.y, ylValid := s.loop.yValid, replaying := !s.loop.todo.isEmpty, replayNext := s.now
        duMax := t.loop.duMax, g := t.loop.g } ∧
      (s.mgmt.toLoad = false → t.meas = s.meas ∧ t.energy = s.energy ∧ t.loop.duMax = s.loop.duMax ∧ t.loop.g = s.loop.g) := by
  intro t
  obtain ⟨l1, -, l3, l4, l5, l6, l7, l8, l9⟩ := (s.risen .loop o).upLoop_spec (State.risen_loopUp hp)
  obtain ⟨u, hu⟩ : ∃ u, u = (s.risen .loop o).upLoop := ⟨_, rfl⟩
  rw [← hu] at l1 l3 l4 l5 l6 l7 l8 l9
  obtain ⟨a1, -, a3, a4⟩ := u.loadOnce_spec
  obtain ⟨t1, -, -, t4, t5, -⟩ := u.loadOnce.oweUp_spec .loop
  have ht : t = u.loadOnce.oweUp .loop := by rw [hu]; rfl
  rw [← ht] at t1 t4 t5
  have hwin : u.loadOnce.win = u.win := a1.2 .win (by decide)
  have hfab : t.fab = u.fab := (t1.2 .fab (by decide)).trans (a1.2 .fab (by decide))
  have hloop : t.loop = u.loadOnce.loop := t1.2 .loop (by decide)
  have hown (b : Nat) : t.win.ownAt b = u.win.ownAt b := by
    rw [t4, ← hwin]
    rfl
  have hmb (k : Nat) (hk : k ≠ 6) : t.win.mbAt k = u.win.mbAt k := by rw [t5 k hk, hwin]
  have hfrees (b : Nat) : (b ∈ s.fab.lost ∨ ((s.win.mbAt 2).unanswered = true ∧ nbBuf (s.win.mbAt 2).notice = b)) ↔ b ∈ (s.risen .loop o).loopFrees :=
    (State.mem_loopFrees (s := s.risen .loop o)).symm
  refine ⟨(t1.2 .ready (by decide)).trans ((a1.2 .ready (by decide)).trans (l1.2 .ready (by decide))), by rw [hfab]; exact l3, by rw [hfab]; exact l4,
    by rw [hfab]; exact l5, ?_, fun h => ?_, fun b hb => ⟨fun h hd => ?_, fun h => ?_⟩, fun r hr h3 hq => ?_, ?_, fun h => ?_⟩
  · rw [show t.mgmt = _ from t1.2 .mgmt (by decide)]
    exact a3
  · rw [hmb 2 (by decide)]
    exact l6 h
  · rw [hown]
    exact (l7 b hb).1 ((hfrees b).1 h) hd
  · rw [hown]
    exact (l7 b hb).2 (fun k => h ((hfrees b).2 k))
  · rw [hmb 3 (by decide)]
    exact l8 r hr h3 hq
  · rw [hloop, a4, l9]
    rfl
  · have hm : u.mgmt.toLoad = false := by
      rw [show u.mgmt = _ from l1.2 .mgmt (by decide)]
      exact h
    rw [hloop, State.loadOnce_done hm, l9]
    rw [State.loadOnce_done hm] at t1
    exact ⟨(t1.2 .meas (by decide)).trans (l1.2 .meas (by decide)), (t1.2 .energy (by decide)).trans (l1.2 .energy (by decide)), rfl, rfl⟩

/-- Settles O59: an UP is its island's service between the run state that it sets and the report that AON owes. -/
theorem islandsComeUpAgain : Obligations.IslandsComeUpAgain := by
  intro s i x
  refine ⟨fun ok hp hs => ⟨fun h => ?_, fun h => ?_⟩, fun ok hp hc => ⟨fun h => ?_, fun h => ?_⟩, fun ok hm hp hs hc => release_spec hp hs hc hm,
    fun hi hb hd hx hr hs ha hc => State.toCheck_iff.2 ⟨hi, hb, hd, hx, hr, hs, ha, hc⟩, ?_, ?_, State.loadOnce_done, s.loadOnce_spec.2.2.1,
    fun hp hd hr hx hi => ?_⟩
  · rw [release_switch hp hs, if_pos h]
    rfl
  · rw [release_switch hp hs, h, if_neg Bool.false_ne_true]
    have := State.aonSwitch_aon hs
    subst this
    rfl
  · rw [release_check hp hc, if_pos h]
    rfl
  · rw [release_check hp hc, h, if_neg Bool.false_ne_true]
    rfl
  · rintro rfl hr hm
    exact State.mayRelease_loop hm hr
  · rintro rfl hr hm
    exact State.mayRelease_meas hm hr
  · obtain ⟨o, ho, hex⟩ := exec_islandUp hp hd hr hx hi
    obtain ⟨g1, g2, g3, g4, g5, g6, g7, g8⟩ := State.upAgain_general (i := i) hp ho
    refine ⟨s.upAgain i o, hex, g1, g2, g3, g4, g5, g6, g7, g8, ?_, ?_, ?_, ?_⟩
    · rintro rfl
      obtain ⟨m1, m2, m3, m4, m5, m6, m7, m8⟩ := s.upAgain_mgmt o
      exact ⟨m1, m2, by rw [m3], m4, m5, m6, m7, m8⟩
    · rintro rfl
      exact State.upAgain_loop hp
    · rintro rfl
      obtain ⟨m1, m2, m3, m4, m5, m6, m7, m8, m9, m10, m11, m12⟩ := s.upAgain_meas o
      refine ⟨m1, m2, m3, m4, m5, m6, m7, m8, m9, m10, m11, fun h => ⟨(m12 h).1, (m12 h).2.1, fun c p hc => ?_⟩⟩
      obtain ⟨u, u1, u2, u3, u4, u5⟩ := (m12 h).2.2
      have hj := u.rejoinChan_spec (c := c.val) (p := p) (by rw [u2]; exact hc)
      rw [← u5 c, u1, u3, u4] at hj
      exact hj
    · rintro rfl
      exact s.upAgain_aon o

end
end Sys2Proof.Machine
end

section
/-! PROOFS. A step, and the state at reset. -/

namespace Sys2Proof.Machine

open Sys2Proof

set_option Elab.async false

/-- Settles O15: it is how a step is defined. -/
theorem stepRunsTheFrontCommand : Obligations.StepRunsTheFrontCommand := fun _ _ _ => rfl

/-- Settles O16: a step of an empty queue is the state itself. -/
theorem emptyQueueIdles : Obligations.EmptyQueueIdles := by
  intro s h
  simp only [step, h]

/-- Settles O17: the state at reset is written out, and each field is read off. -/
theorem resetIsSafe : Obligations.ResetIsSafe := by
  refine ⟨⟨rfl, fun i => ?_, Nat.zero_le _, Nat.zero_le _⟩, rfl, rfl, rfl, rfl, rfl, rfl, rfl⟩
  cases i <;> exact ⟨rfl, rfl⟩

end Sys2Proof.Machine
end


section
/-! PROOFS. What a tick boundary brings (O36). Each operation of the tick is held against the few values that the statement speaks of;
where an operation may change one of them, the value is named. -/

namespace Sys2Proof.Machine

open Sys2Proof

set_option Elab.async false

/-- The figures of the supply that a tick moves in its supply stage alone. -/
def Energy.steady (e : Energy) :=
  ((e.season, e.aux, e.auxNext, e.toWinter, e.resAvg), (e.lowCount, e.buckCount, e.buck), (e.below85, e.below86, e.vres90, e.vres110))

/-- What the pins' synchronisers hold. -/
def Pins.inputs (p : Pins) := (p.gpioIn, p.rstN, p.blank)

/-- The source that is selected, the commanded code and the code that leaves the limiter. -/
def LoopOut.selected (l : LoopOut) := (l.src, l.cmd, l.lim)

theorem Pins.read_inputs {p q : Pins} (i : TickIn) (h : p.inputs = q.inputs) : (p.read i).inputs = (q.read i).inputs := by
  simp only [Pins.inputs, Prod.mk.injEq] at h
  obtain ⟨-, hrst, hblank⟩ := h
  simp only [Pins.read, Pins.inputs, hrst, hblank]

/-- The values that the statement of a tick speaks of. -/
inductive Held where
  | pending | boot | clock | nvm | inputs | energy | selected | inForce | up

/-- One of these values is the same in two states. -/
def Held.same (s t : State) : Held → Prop
  | .pending => t.pending = s.pending
  | .boot => t.boot = s.boot
  | .clock => t.clock = s.clock
  | .nvm => t.nvm = s.nvm
  | .inputs => t.pins.inputs = s.pins.inputs
  | .energy => t.energy.steady = s.energy.steady
  | .selected => t.loop.selected = s.loop.selected
  | .inForce => t.mgmt.inForce = s.mgmt.inForce
  | .up => t.isl.aon.up = s.isl.aon.up

/-- An operation leaves all of these values but the listed ones. -/
structure State.Spares (xs : List Held) (s t : State) : Prop where
  kept : ∀ q : Held, q ∉ xs → q.same s t

/-- These values, read off a state. -/
def State.sight (s : State) :=
  ((s.pending, s.boot, s.clock, s.nvm), (s.pins.inputs, s.energy.steady, s.loop.selected, s.mgmt.inForce, s.isl.aon.up))

theorem Mgmt.failFirst_inForce (m : Mgmt) (op status : Nat) : (m.failFirst op status).inForce = m.inForce := by
  unfold Mgmt.failFirst
  split <;> rfl

theorem LoopOut.made_selected (l : LoopOut) (x : Update) (multidrop : Bool) (duMax g now : Nat) :
    (l.made x multidrop duMax g now).selected = l.selected := by
  unfold LoopOut.made
  cases x.cls <;> rfl

theorem LoopOut.foldl_made_selected (l : LoopOut) (xs : List Update) (multidrop : Bool) (duMax g now : Nat) :
    (xs.foldl (fun l x => l.made x multidrop duMax g now) l).selected = l.selected :=
  foldl_keeps (p := LoopOut.selected) (fun l x => l.made_selected x multidrop duMax g now) xs l

theorem Isl.beat_up (x : Isl) (b : Bool) (now : Nat) : (x.beat b now).up = x.up := by
  unfold Isl.beat
  split <;> rfl

theorem Energy.endBoost_steady (e : Energy) (now : Nat) : (e.endBoost now).steady = e.steady := by
  unfold Energy.endBoost
  split
  · split <;> rfl
  · rfl

namespace State.Spares
variable {xs : List Held} {s x t u : State}

theorem refl (xs : List Held) (s : State) : s.Spares xs s := ⟨fun q _ => by cases q <;> rfl⟩

theorem trans (h : s.Spares xs t) (k : t.Spares xs u) : s.Spares xs u := by
  refine ⟨fun q hq => ?_⟩
  have h' := h.kept q hq
  have k' := k.kept q hq
  cases q <;> exact Eq.trans k' h'

theorem mono {ys : List Held} (h : s.Spares xs t) (hs : ∀ q ∈ xs, q ∈ ys) : s.Spares ys t :=
  ⟨fun q hq => h.kept q fun hx => hq (hs q hx)⟩

/-- What changes no value but a listed one. -/
theorem but {p : Held} (h : s.Spares xs x) (hp : p ∈ xs) (k : ∀ q : Held, q ≠ p → q.same x t) : s.Spares xs t :=
  h.trans ⟨fun q hq => k q fun e => hq (e ▸ hp)⟩

theorem same (h : s.Spares xs x) (e : t.sight = x.sight) : s.Spares xs t := by
  simp only [State.sight, Prod.mk.injEq] at e
  obtain ⟨⟨hp, hb, hc, hn⟩, hi, he, hl, hf, hu⟩ := e
  refine h.trans ⟨fun q _ => ?_⟩
  cases q
  case pending => exact hp
  case boot => exact hb
  case clock => exact hc
  case nvm => exact hn
  case inputs => exact hi
  case energy => exact he
  case selected => exact hl
  case inForce => exact hf
  case up => exact hu

theorem setWin {w} (h : s.Spares xs x) : s.Spares xs (x.setWin w) := h.same rfl
theorem setFab {f} (h : s.Spares xs x) : s.Spares xs (x.setFab f) := h.same rfl
theorem setObs {o} (h : s.Spares xs x) : s.Spares xs (x.setObs o) := h.same rfl
theorem setMeas {m} (h : s.Spares xs x) : s.Spares xs (x.setMeas m) := h.same rfl
theorem setFaults {f} (h : s.Spares xs x) : s.Spares xs (x.setFaults f) := h.same rfl
theorem setPort {p y} (h : s.Spares xs x) : s.Spares xs (x.setPort p y) := h.same rfl
theorem winWrite {a bs} (h : s.Spares xs x) : s.Spares xs (x.winWrite a bs) := h.same rfl
theorem draw {w} (h : s.Spares xs x) : s.Spares xs (x.draw w).2 := h.same rfl

theorem setMgmt {m : Mgmt} (h : s.Spares xs x) (e : m.inForce = x.mgmt.inForce := by rfl) : s.Spares xs (x.setMgmt m) :=
  h.same (by simp [State.sight, e])

theorem setLoop {l : LoopOut} (h : s.Spares xs x) (e : l.selected = x.loop.selected := by rfl) : s.Spares xs (x.setLoop l) :=
  h.same (by simp [State.sight, e])

theorem setEnergy {n : Energy} (h : s.Spares xs x) (e : n.steady = x.energy.steady := by rfl) : s.Spares xs (x.setEnergy n) :=
  h.same (by simp [State.sight, e])

theorem setPins {p : Pins} (h : s.Spares xs x) (e : p.inputs = x.pins.inputs := by rfl) : s.Spares xs (x.setPins p) :=
  h.same (by simp [State.sight, e])

theorem setIsl {i y} (h : s.Spares xs x) (hu : Held.up ∈ xs) : s.Spares xs (x.setIsl i y) :=
  h.but hu fun q hq => by cases q <;> first | exact absurd rfl hq | rfl

theorem setInForce {m} (h : s.Spares xs x) (hf : Held.inForce ∈ xs) : s.Spares xs (x.setMgmt m) :=
  h.but hf fun q hq => by cases q <;> first | exact absurd rfl hq | rfl

theorem setSelected {l} (h : s.Spares xs x) (hl : Held.selected ∈ xs) : s.Spares xs (x.setLoop l) :=
  h.but hl fun q hq => by cases q <;> first | exact absurd rfl hq | rfl

theorem setSteady {n} (h : s.Spares xs x) (he : Held.energy ∈ xs) : s.Spares xs (x.setEnergy n) :=
  h.but he fun q hq => by cases q <;> first | exact absurd rfl hq | rfl

theorem setNvm {n} (h : s.Spares xs x) (hn : Held.nvm ∈ xs) : s.Spares xs (x.setNvm n) :=
  h.but hn fun q hq => by cases q <;> first | exact absurd rfl hq | rfl

theorem ite {p : Prop} [Decidable p] {a b : State} (h : s.Spares xs a) (k : s.Spares xs b) : s.Spares xs (if p then a else b) := by
  split <;> assumption

theorem foldl {α : Type} {f : State → α → State} {l : List α} (hf : ∀ y a, s.Spares xs y → s.Spares xs (f y a)) (h : s.Spares xs x) :
    s.Spares xs (l.foldl f x) := by
  induction l generalizing x with
  | nil => exact h
  | cons a l ih => exact ih (hf x a h)

theorem foldl_fst {α β : Type} {f : State × β → α → State × β} {l : List α} {y : State × β}
    (hf : ∀ y a, s.Spares xs y.1 → s.Spares xs (f y a).1) (h : s.Spares xs y.1) : s.Spares xs (l.foldl f y).1 := by
  induction l generalizing y with
  | nil => exact h
  | cons a l ih => exact ih (hf y a h)

theorem foldr {α : Type} {f : α → State → State} {l : List α} (hf : ∀ a y, s.Spares xs y → s.Spares xs (f a y)) (h : s.Spares xs x) :
    s.Spares xs (l.foldr f x) := by
  induction l with
  | nil => exact h
  | cons a l ih => exact hf a _ ih

theorem updateRegister (h : s.Spares xs x) : s.Spares xs x.updateRegister := h.same rfl

/-! ## One rule per operation, in the order of the model's files -/

theorem countN {c' n} (h : s.Spares xs x) : s.Spares xs (x.countN c' n) := h.setObs

theorem count {c'} (h : s.Spares xs x) : s.Spares xs (x.count c') := h.countN

theorem traceLost {typ} (h : s.Spares xs x) : s.Spares xs (x.traceLost typ) := .ite h.setObs.count h

theorem emit {i typ hdr more} (h : s.Spares xs x) : s.Spares xs (x.emit i typ hdr more) := by
  unfold State.emit
  extract_lets q m src
  exact .ite h.setObs h.traceLost

theorem emitEnergy (h : s.Spares xs x) : s.Spares xs x.emitEnergy := h.emit

theorem emitIsland {i ev} (h : s.Spares xs x) : s.Spares xs (x.emitIsland i ev) := h.emit

theorem emitMailbox {mb ack held refused src n code} (h : s.Spares xs x) : s.Spares xs (x.emitMailbox mb ack held refused src n code) :=
  h.emit

theorem emitApply {i kind round} (h : s.Spares xs x) : s.Spares xs (x.emitApply i kind round) := h.emit

theorem emitSeq {q ev} (h : s.Spares xs x) : s.Spares xs (x.emitSeq q ev) := h.emit

theorem emitSlice {sl ev w} (h : s.Spares xs x) : s.Spares xs (x.emitSlice sl ev w) := h.emit

theorem emitResult {e dropped} (h : s.Spares xs x) : s.Spares xs (x.emitResult e dropped) := h.emit

theorem ring {bit} (h : s.Spares xs x) : s.Spares xs (x.ring bit) := h.setWin

theorem report {det cause isl} (h : s.Spares xs x) : s.Spares xs (x.report det cause isl) := h.setFaults

theorem setOwner {n o src} (h : s.Spares xs x) : s.Spares xs (x.setOwner n o src) := h.setWin

theorem devWrite {n bs writer} (h : s.Spares xs x) : s.Spares xs (x.devWrite n bs writer) := .ite h.winWrite h.count.report

theorem postMb {k n held r} (h : s.Spares xs x) : s.Spares xs (x.postMb k n held r) :=
  .emitMailbox h.setWin

theorem postReq {k op r} (h : s.Spares xs x) : s.Spares xs (x.postReq k op r) := .ite h (.ite h.setWin h.postMb)

theorem failPost {r} (h : s.Spares xs x) : s.Spares xs (x.failPost r) := by
  unfold State.failPost
  split
  · exact h.setFab
  · split
    · exact h.setMgmt (Mgmt.failFirst_inForce ..)
    · exact h

theorem postWaiting {k} (h : s.Spares xs x) : s.Spares xs (x.postWaiting k) := by
  unfold State.postWaiting
  split
  · exact h
  · split
    · exact .foldl (fun _ _ hy => hy.failPost) h.setWin
    · split
      · exact h
      · exact .postMb h.setWin

theorem ackEffect {k code src} (h : s.Spares xs x) : s.Spares xs (x.ackEffect k code src) := by
  unfold State.ackEffect
  extract_lets m m' s1 s2
  have hs1 : s.Spares xs s1 := h.setWin
  have hs2 : s.Spares xs s2 := .ite hs1.ring hs1
  exact hs2.emitMailbox

theorem takeReq {k code} (h : s.Spares xs x) : s.Spares xs (x.takeReq k code) := by
  unfold State.takeReq
  extract_lets src src
  exact h.setWin

theorem fenceMeas (h : s.Spares xs x) : s.Spares xs x.fenceMeas := by
  unfold State.fenceMeas
  extract_lets m coming s1 pins s2
  have hs1 : s.Spares xs s1 := .ite h.setMgmt h
  exact hs1.setPins.setWin.setMeas

theorem unaccept {w} (h : s.Spares xs x) : s.Spares xs (x.unaccept w) := by
  unfold State.unaccept
  split
  · exact h
  · exact h.setFab

theorem forgetLoop (h : s.Spares xs x) : s.Spares xs x.forgetLoop := by
  unfold State.forgetLoop
  extract_lets bufs s1 src src2
  have hs1 : s.Spares xs s1 := .foldl (fun _ _ hy => hy.unaccept) h
  exact hs1.same rfl

theorem fenceLoop (h : s.Spares xs x) : s.Spares xs x.fenceLoop := by
  unfold State.fenceLoop
  extract_lets lost held feeds s1 s2 stays again s3 src
  have hs1 : s.Spares xs s1 := .ite h.setMgmt h
  have hs2 : s.Spares xs s2 := .ite hs1.setMgmt hs1
  have hs3 : s.Spares xs s3 := hs2.forgetLoop
  exact hs3.same rfl

theorem fenceMgmt (h : s.Spares xs x) : s.Spares xs x.fenceMgmt := h.same rfl

theorem fenceAon (h : s.Spares xs x) : s.Spares xs x.fenceAon := h.setObs.setPins.setWin

theorem fence {a} (h : s.Spares xs x) : s.Spares xs (x.fence a) := by
  unfold State.fence
  split
  · exact h.fenceMeas
  · exact h.fenceLoop
  · exact h.fenceMgmt
  · exact h.fenceAon

theorem assertReset {i origin stop} (hu : Held.up ∈ xs) (h : s.Spares xs x) : s.Spares xs (x.assertReset i origin stop) := by
  unfold State.assertReset
  extract_lets x1 x'
  exact .ite (.ite (h.setIsl hu) h) (h.fence.setIsl hu).emitIsland

theorem askReset {i} (h : s.Spares xs x) : s.Spares xs (x.askReset i) := h.setFaults

theorem takeResets (hu : Held.up ∈ xs) (h : s.Spares xs x) : s.Spares xs x.takeResets :=
  .foldl (fun _ _ hy => hy.assertReset hu) h.setFaults

theorem carryResets {react det cause} (hu : Held.up ∈ xs) (h : s.Spares xs x) : s.Spares xs (x.carryResets react det cause) :=
  .foldl (fun _ _ hy => hy.assertReset hu) h

theorem schedule {t' a} (h : s.Spares xs x) : s.Spares xs (x.schedule t' a) := h.setLoop

theorem commandAlarm (h : s.Spares xs x) : s.Spares xs x.commandAlarm := h.schedule

theorem settleAlarm (h : s.Spares xs x) : s.Spares xs x.settleAlarm := .ite h h.schedule

theorem carryOut {n det cause react alarm} (hu : Held.up ∈ xs) (h : s.Spares xs x) : s.Spares xs (x.carryOut n det cause react alarm) := by
  unfold State.carryOut
  extract_lets s1 mark f s2
  have hs1 : s.Spares xs s1 := h.carryResets hu
  have hs2 : s.Spares xs s2 := hs1.setFaults
  exact .ite hs2.commandAlarm hs2

theorem parityErrorAt {sender receiver real posted stamp} (h : s.Spares xs x) :
    s.Spares xs (x.parityErrorAt sender receiver real posted stamp) := by
  unfold State.parityErrorAt
  extract_lets d inj s1 src
  have hs1 : s.Spares xs s1 := .ite h.setFaults h
  exact hs1.setFaults

theorem parityError {sender receiver real} (h : s.Spares xs x) : s.Spares xs (x.parityError sender receiver real) := h.parityErrorAt

theorem postReply {buf bytes} (h : s.Spares xs x) : s.Spares xs (x.postReply buf bytes) := by
  unfold State.postReply
  split
  · extract_lets s1 s2 s3
    have hs1 : s.Spares xs s1 := h.winWrite
    have hs2 : s.Spares xs s2 := hs1.setOwner
    have hs3 : s.Spares xs s3 := hs2.postMb
    exact hs3.ring
  · exact h.devWrite

theorem postNext (h : s.Spares xs x) : s.Spares xs x.postNext := by
  unfold State.postNext
  split
  · exact h
  · split
    · exact h
    · exact h.setMgmt.postReply

theorem freeBuf {b} (h : s.Spares xs x) : s.Spares xs (x.freeBuf b) := .ite h.setOwner h

theorem gotReply {n r} (h : s.Spares xs x) : s.Spares xs (x.gotReply n r) := by
  unfold State.gotReply
  extract_lets x1 s1
  have hs1 : s.Spares xs s1 := by
    unfold s1
    split
    · exact .ite h h.freeBuf
    · exact h
  exact .ite hs1.setFab hs1.freeBuf

theorem outstDone {op status res} (h : s.Spares xs x) : s.Spares xs (x.outstDone op status res) := by
  unfold State.outstDone
  extract_lets mark src
  exact h.setMgmt

theorem endWindows (hu : Held.up ∈ xs) (h : s.Spares xs x) : s.Spares xs x.endWindows := .foldl (fun _ _ hy => hy.carryOut hu) h

theorem autoAck {det} (hu : Held.up ∈ xs) (h : s.Spares xs x) : s.Spares xs (x.autoAck det) := by
  unfold State.autoAck
  extract_lets hit os f f2 s1 s2
  have hs1 : s.Spares xs s1 := h.setFaults
  have hs2 : s.Spares xs s2 := .foldl (fun _ _ hy => hy.carryOut hu) hs1
  exact hs2.setFaults

theorem hostAck {det} (hu : Held.up ∈ xs) (h : s.Spares xs x) : s.Spares xs (x.hostAck det) := by
  unfold State.hostAck
  extract_lets hit os wasAlarm order clear f f2 s1 s2 s3
  have hs1 : s.Spares xs s1 := h.setFaults
  have hs2 : s.Spares xs s2 := .foldl (fun _ _ hy => hy.carryOut hu) hs1
  have hs3 : s.Spares xs s3 := hs2.setFaults
  exact .ite hs3.settleAlarm hs3

theorem clearLog {scope} (hn : Held.nvm ∈ xs) (h : s.Spares xs x) : s.Spares xs (x.clearLog scope) := by
  unfold State.clearLog
  extract_lets f s1
  have hs1 : s.Spares xs s1 := h.setFaults
  exact .ite (hs1.setNvm hn) hs1

theorem takeAcks (hu : Held.up ∈ xs) (hn : Held.nvm ∈ xs) (h : s.Spares xs x) : s.Spares xs x.takeAcks := by
  unfold State.takeAcks
  extract_lets src t src2
  have ht : s.Spares xs t := .foldl (fun _ _ hy => .ite (hy.hostAck hu) (hy.autoAck hu)) h.setFaults
  exact .foldl (fun _ _ hy => hy.clearLog hn) ht.setFaults

theorem endCollect (hu : Held.up ∈ xs) (hn : Held.nvm ∈ xs) (h : s.Spares xs x) : s.Spares xs x.endCollect :=
  (h.endWindows hu).takeAcks hu hn

theorem armDue (h : s.Spares xs x) : s.Spares xs x.armDue := h.setFaults

theorem postFailed {w} (h : s.Spares xs x) : s.Spares xs (x.postFailed w) := by
  unfold State.postFailed
  extract_lets s1
  have hs1 : s.Spares xs s1 := h.freeBuf
  split
  · exact hs1
  · extract_lets x1 bytes
    split
    · exact hs1.setFab

theorem postMb2 (h : s.Spares xs x) : s.Spares xs x.postMb2 := by
  unfold State.postMb2
  split
  · exact h
  · extract_lets src t src2 t2
    have ht : s.Spares xs t := h.setFab
    have ht2 : s.Spares xs t2 := .ite ht.setFab ht
    exact .ite h (.ite ht.postFailed (.ite h ht2.postMb))

theorem afterAck {k} (h : s.Spares xs x) : s.Spares xs (x.afterAck k) := .ite h.postMb2 h.postWaiting

theorem lateAcks (h : s.Spares xs x) : s.Spares xs x.lateAcks := by
  unfold State.lateAcks
  refine .foldl (fun y a hy => ?_) ?_
  · split
    · exact .ite hy.ackEffect.afterAck hy
    · exact hy
  · exact h

theorem trigger {q} (h : s.Spares xs x) : s.Spares xs (x.trigger q).1 := by
  unfold State.trigger
  extract_lets m fresh
  have hfresh : s.Spares xs fresh.1 := by
    unfold fresh
    dsimp only
    split
    · exact .emitSeq (.count h.setMeas)
    · exact .emitSeq h.setMeas
  clear_value fresh
  split
  · split
    · exact h
    · exact hfresh
  · exact hfresh

theorem discardTriggers {q} (h : s.Spares xs x) : s.Spares xs (x.discardTriggers q) := by
  unfold State.discardTriggers
  extract_lets m x1
  split
  · exact .count h.setMeas
  · exact .count h.setMeas
  · exact h

theorem capture {a} (h : s.Spares xs x) : s.Spares xs (x.capture a) := (h.draw (w := 256)).setMgmt

theorem attestTick (h : s.Spares xs x) : s.Spares xs x.attestTick := by
  unfold State.attestTick
  split
  · exact h
  · split
    · exact h
    · split
      · exact .ite h.capture h
      · extract_lets n src
        exact .ite h.setMgmt.outstDone h.setMgmt

theorem sarCheck {sl nth c'} (h : s.Spares xs x) : s.Spares xs (x.sarCheck sl nth c') := by
  unfold State.sarCheck
  split
  · extract_lets x1 x2
    exact .count h.setMeas
  · exact h

theorem calOffGain {sl tick p n} (h : s.Spares xs x) : s.Spares xs (x.calOffGain sl tick p n) := by
  unfold State.calOffGain
  extract_lets mOff mGain x1 y y2
  split
  · exact .ite (.emitSlice h.setMeas) (.emitSlice (.count h.setMeas))

theorem calSkew {sl tick u' d} (h : s.Spares xs x) : s.Spares xs (x.calSkew sl tick u' d) := by
  unfold State.calSkew
  extract_lets k x1 y y2
  exact .ite (.emitSlice h.setMeas) (.emitSlice (.count h.setMeas))

theorem calibrate {sl tick cv} (h : s.Spares xs x) : s.Spares xs (x.calibrate sl tick cv) := by
  unfold State.calibrate
  extract_lets v y put s'
  have hput (z : Slice) : s.Spares xs (put z) := h.setMeas
  have hs' : s.Spares xs s' := by
    unfold s'
    clear_value put
    split_ifs
    · exact hput _
    · split
      · exact (hput _).calOffGain
      · exact hput _
    · exact hput _
    · split
      · exact (hput _).calSkew
      · exact hput _
  exact hs'.setMeas

theorem feedChan {ch f} (h : s.Spares xs x) : s.Spares xs (x.feedChan ch f) := by
  unfold State.feedChan
  extract_lets m a
  split
  · split
    · exact h.setMeas
    · extract_lets r2 src
      exact h.setMeas

theorem enter {p ch half idx r reused} (h : s.Spares xs x) : s.Spares xs (x.enter p ch half idx r reused) := by
  unfold State.enter
  extract_lets a c1 c2 s1 f s2
  have hs1 : s.Spares xs s1 := h.setMeas
  have hs2 : s.Spares xs s2 := hs1.setMeas
  split
  · split
    · exact hs1.setMeas
    · split
      · split
        · extract_lets ovr
          exact hs2.feedChan
  · split
    · split
      · extract_lets e es s3
        have hs3 : s.Spares xs s3 := hs1.setMeas
        split
        · exact hs3
        · exact hs3.feedChan
    · exact hs1.feedChan

theorem correctOne {p} (h : s.Spares xs x) : s.Spares xs (x.correctOne p) := by
  unfold State.correctOne
  split
  · split
    · exact h.sarCheck.enter
  · exact h.enter
  · split
    · extract_lets s1
      have hs1 : s.Spares xs s1 := h.sarCheck
      exact hs1.setMeas
  · exact h.sarCheck.calibrate
  · exact h

theorem commit {e} (h : s.Spares xs x) : s.Spares xs (x.commit e) := by
  unfold State.commit
  extract_lets m m'
  exact .ite h.setMeas.emitResult (h.setMeas.count.emitResult)

theorem commitAll {es} (h : s.Spares xs x) : s.Spares xs (x.commitAll es) := .foldl (fun _ _ hy => hy.commit) h

theorem correct (h : s.Spares xs x) : s.Spares xs x.correct := by
  unfold State.correct
  extract_lets old ps src s1 s2 new due src2 s3
  have hs1 : s.Spares xs s1 := h.setMeas
  have hs2 : s.Spares xs s2 := .foldl (fun _ _ hy => hy.correctOne) hs1
  have hs3 : s.Spares xs s3 := hs2.setMeas
  exact hs3.commitAll

theorem passDrain (h : s.Spares xs x) : s.Spares xs x.passDrain := h.setMeas.setMgmt

theorem gotReq {op} (h : s.Spares xs x) : s.Spares xs (x.gotReq op) := by
  unfold State.gotReq
  split
  · exact h
  · exact h.setMgmt

theorem measEvent {op lag status res} (h : s.Spares xs x) : s.Spares xs (x.measEvent op lag status res) := by
  unfold State.measEvent
  refine .foldl (fun y a hy => ?_) ?_
  · split
    · exact hy.postReq
  · exact h

theorem loopEvent {op status res} (h : s.Spares xs x) : s.Spares xs (x.loopEvent op status res) := h.setMgmt

theorem loopReq {a} (h : s.Spares xs x) : s.Spares xs (x.loopReq a) := by
  unfold State.loopReq
  split
  · split
    · exact h.gotReply
    · exact h
  · exact h.gotReq.schedule
  · exact h.gotReq.schedule
  · extract_lets t src
    have ht : s.Spares xs t := h.gotReq
    exact ht.same rfl
  · exact h

theorem trigReq {mask} (h : s.Spares xs x) : s.Spares xs (x.trigReq mask) := by
  unfold State.trigReq
  dsimp only
  refine .measEvent (.gotReq (State.Spares.foldl_fst (fun y q hy => ?_) h))
  split
  · exact hy.trigger
  · exact hy.draw (w := 8)

theorem measReq {r} (h : s.Spares xs x) : s.Spares xs (x.measReq r) := by
  unfold State.measReq
  split
  · dsimp only
    exact .ite (.gotReq h.setMeas) (.ite (.gotReq h.setMeas) h.trigReq)
  · exact .gotReq h.setMeas
  · exact .gotReq h.setMeas
  · exact .ite (.gotReq h.setMeas) h
  · exact h

theorem owe {i} (h : s.Spares xs x) : s.Spares xs (x.owe i) := .ite h h.setFaults

theorem aonReq {a} (h : s.Spares xs x) : s.Spares xs (x.aonReq a) := by
  unfold State.aonReq
  split
  · exact h.setFaults
  · exact h.setFaults
  · exact h.setFaults
  · exact h.setObs
  · exact h.gotReq.owe.askReset
  · exact h.gotReq.owe
  · exact h

theorem reportUp {i} (h : s.Spares xs x) : s.Spares xs (x.reportUp i) := by
  unfold State.reportUp
  extract_lets mine mark src
  exact h.setMgmt

theorem mgmtReq {a} (h : s.Spares xs x) : s.Spares xs (x.mgmtReq a) := by
  unfold State.mgmtReq
  split
  · exact h.outstDone
  · exact h.reportUp
  · exact h

theorem takeMb {k up} {act : State → Req → State} (hact : ∀ y r, s.Spares xs y → s.Spares xs (act y r)) (h : s.Spares xs x) :
    s.Spares xs (x.takeMb k up act) :=
  .ite (hact _ _ h.takeReq) h

theorem takeMb4 (h : s.Spares xs x) : s.Spares xs x.takeMb4 := .takeMb (fun _ _ hy => hy.measReq) h

theorem takeEvents (h : s.Spares xs x) : s.Spares xs x.takeEvents := by
  unfold State.takeEvents
  split
  · extract_lets due src
    exact .foldl (fun _ _ hy => hy.outstDone) h.setMgmt
  · exact h

theorem takeNotices (h : s.Spares xs x) : s.Spares xs x.takeNotices := by
  unfold State.takeNotices
  extract_lets s1 s2 s3
  have hs1 : s.Spares xs s1 := .takeMb (fun _ _ hy => hy.loopReq) h
  have hs2 : s.Spares xs s2 := .ite hs1 hs1.takeMb4
  have hs3 : s.Spares xs s3 := .takeEvents (.takeMb (fun _ _ hy => hy.mgmtReq) hs2)
  exact .takeMb (fun _ _ hy => hy.aonReq) (.takeMb (fun _ _ hy => hy.mgmtReq) hs3)

theorem refreshLoop (hl : Held.selected ∈ xs) (h : s.Spares xs x) : s.Spares xs x.refreshLoop := by
  rw [State.refreshLoop_eq]
  exact h.setSelected hl

theorem loopTrace {old} (h : s.Spares xs x) : s.Spares xs (x.loopTrace old) := by
  unfold State.loopTrace
  extract_lets l changed
  exact .ite h.emit h

theorem stopSeq {q} (h : s.Spares xs x) : s.Spares xs (x.stopSeq q) := by
  unfold State.stopSeq
  extract_lets s1 src s2 src2 m
  have hs1 : s.Spares xs s1 := h.discardTriggers
  have hs2 : s.Spares xs s2 := .ite hs1.setLoop hs1
  exact hs2.setMeas

theorem auxCheck (h : s.Spares xs x) : s.Spares xs x.auxCheck := by
  unfold State.auxCheck
  split
  · extract_lets on mask s' src s'2
    have hs' : s.Spares xs s' := by
      unfold s'
      refine .foldl (fun y a hy => ?_) ?_
      · extract_lets s1 src2
        have hs1 : s.Spares xs s1 := .ite hy.stopSeq hy
        exact hs1.setMeas
      · exact h
    have hs'2 : s.Spares xs s'2 := hs'.setEnergy
    exact .ite hs'2 hs'2.report
  · exact h.setEnergy

theorem bufferCheck {ready} (h : s.Spares xs x) : s.Spares xs (x.bufferCheck ready) := by
  unfold State.bufferCheck
  extract_lets soon
  refine .foldl (fun y a hy => ?_) ?_
  · extract_lets x1
    split
    · extract_lets early
      exact .ite hy.setMeas hy
    · exact hy
  · exact h

theorem visit (h : s.Spares xs x) : s.Spares xs x.visit := h.setMeas

theorem driveExc (h : s.Spares xs x) : s.Spares xs x.driveExc := by
  unfold State.driveExc
  extract_lets soon us dwell src t src2
  have ht : s.Spares xs t := h.setPins
  exact .ite ht.setMeas ht

theorem earlyLoop (hf : Held.inForce ∈ xs) (h : s.Spares xs x) : s.Spares xs x.earlyLoop := by
  unfold State.earlyLoop
  split
  · split
    · extract_lets a src
      exact (h.setInForce hf).emitApply.schedule
    · exact h
  · exact h

theorem applyEv {e} (h : s.Spares xs x) : s.Spares xs (x.applyEv e) := by
  unfold State.applyEv
  extract_lets l md m l2
  split
  · exact h.setLoop ((LoopOut.made_selected ..).trans (LoopOut.foldl_made_selected ..))
  · exact h.setLoop
  · exact h.setLoop
  · exact h.setLoop.loopEvent
  · exact h.setLoop.loopEvent
  · exact h.setLoop

theorem applyDue (h : s.Spares xs x) : s.Spares xs x.applyDue := by
  unfold State.applyDue
  extract_lets due src
  exact .foldl (fun _ _ hy => hy.applyEv) h.setLoop

theorem countHold (h : s.Spares xs x) : s.Spares xs x.countHold := by
  unfold State.countHold
  extract_lets l
  exact .ite h.setLoop h

theorem loopTick (hl : Held.selected ∈ xs) (hf : Held.inForce ∈ xs) (h : s.Spares xs x) : s.Spares xs x.loopTick := by
  unfold State.loopTick
  extract_lets old s1 src s2
  have hs1 : s.Spares xs s1 := h.countHold.applyDue.earlyLoop hf
  exact ((hs1.setSelected hl).refreshLoop hl).loopTrace

theorem book {pt} (h : s.Spares xs x) : s.Spares xs (x.book pt) := by
  unfold State.book
  extract_lets x1
  split
  · split
    · extract_lets src
      have hsrc : s.Spares xs src := h.setPort
      exact hsrc.same rfl
    · exact h
  · exact h

theorem synth (h : s.Spares xs x) : s.Spares xs x.synth := h.same rfl

theorem drivePort {pt} (h : s.Spares xs x) : s.Spares xs (x.drivePort pt) := by
  unfold State.drivePort
  split
  · exact h.setPort

theorem meetBusy {pt j} (h : s.Spares xs x) : s.Spares xs (x.meetBusy pt j) := by
  unfold State.meetBusy
  split
  · exact h.count
  · split
    · exact h
    · split
      · extract_lets s1 src
        have hs1 : s.Spares xs s1 := h.count
        split
        · exact hs1.setFab
        · exact hs1
      · split
        · extract_lets x1 free
          exact h.setPort
        · exact h.setFab

theorem meetBusies {pt js} (h : s.Spares xs x) : s.Spares xs (x.meetBusies pt js) := .foldr (fun _ _ hy => hy.meetBusy) h

theorem missed {pt} (h : s.Spares xs x) : s.Spares xs (x.missed pt) := by
  unfold State.missed
  extract_lets x1 late
  exact .ite h.setPort.meetBusies h

theorem synthTick {pt} (h : s.Spares xs x) : s.Spares xs (x.synthTick pt) := by
  unfold State.synthTick
  extract_lets new x1 s1 s2
  have hs1 : s.Spares xs s1 := h.setPort
  have hs2 : s.Spares xs s2 := .ite hs1.synth hs1
  exact .foldl (fun _ _ hy => hy.synth) hs2

theorem quietTick {pt} (h : s.Spares xs x) : s.Spares xs (x.quietTick pt) := by
  unfold State.quietTick
  extract_lets x1 quiet b k done
  exact h.setPort

theorem portTick {pt} (h : s.Spares xs x) : s.Spares xs (x.portTick pt) := by
  unfold State.portTick
  extract_lets s1 s2 s3 s4
  have hs1 : s.Spares xs s1 := h.missed
  have hs2 : s.Spares xs s2 := hs1.setPort
  have hs3 : s.Spares xs s3 := .ite hs2.book hs2
  have hs4 : s.Spares xs s4 := by
    unfold s4
    split
    · exact hs3.same rfl
    · exact hs3
  exact hs4.synthTick.drivePort.quietTick

theorem flushTick (hu : Held.up ∈ xs) (hn : Held.nvm ∈ xs) (h : s.Spares xs x) : s.Spares xs x.flushTick := by
  unfold State.flushTick
  extract_lets s1 s2
  have hs1 : s.Spares xs s1 := .ite h (h.endCollect hu hn)
  have hs2 : s.Spares xs s2 := .ite hs1 hs1.armDue
  exact .ite hs2.correct hs2

theorem measTick {sampled passed was} (h : s.Spares xs x) : s.Spares xs (x.measTick sampled passed was) := h.setMeas

theorem traceSwitch (h : s.Spares xs x) : s.Spares xs x.traceSwitch := by
  unfold State.traceSwitch
  extract_lets on src n s1
  have hs1 : s.Spares xs s1 := h.setObs
  exact .ite h.setObs hs1.countN

theorem enterSeason {x'} (he : Held.energy ∈ xs) (h : s.Spares xs x) : s.Spares xs (x.enterSeason x') :=
  .ite h (h.setSteady he).ring.emitEnergy.updateRegister.traceSwitch

theorem auxLoss (he : Held.energy ∈ xs) (h : s.Spares xs x) : s.Spares xs x.auxLoss :=
  ((h.setSteady he).enterSeason he).auxCheck

theorem extraTick (h : s.Spares xs x) : s.Spares xs x.extraTick := by
  unfold State.extraTick
  extract_lets e
  exact h.setEnergy

theorem auxDetect (he : Held.energy ∈ xs) (h : s.Spares xs x) : s.Spares xs x.auxDetect :=
  ((h.setSteady he).setMeas.setSteady he).enterSeason he

theorem auxTick (he : Held.energy ∈ xs) (h : s.Spares xs x) : s.Spares xs x.auxTick := by
  unfold State.auxTick
  extract_lets src t
  have ht : s.Spares xs t := h.setSteady he
  split
  · exact ht.auxDetect he
  · exact ht.auxLoss he
  · exact .ite (h.enterSeason he) h

theorem supplyTick {i} (he : Held.energy ∈ xs) (h : s.Spares xs x) : s.Spares xs (x.supplyTick i) := by
  unfold State.supplyTick
  extract_lets s1 s2
  have hs1 : s.Spares xs s1 := h.auxTick he
  have hs2 : s.Spares xs s2 := .ite (hs1.enterSeason he) hs1
  exact hs2.setSteady he

theorem clockTick (h : s.Spares xs x) : s.Spares xs x.clockTick := by
  unfold State.clockTick
  extract_lets s1 s2 src
  have hs1 : s.Spares xs s1 := h.setEnergy (Energy.endBoost_steady ..)
  have hs2 : s.Spares xs s2 := hs1.extraTick
  exact .ite hs2 hs2.setEnergy.emitEnergy

theorem powerTick {i} (he : Held.energy ∈ xs) (h : s.Spares xs x) : s.Spares xs (x.powerTick i) := by
  unfold State.powerTick
  extract_lets t
  have ht : s.Spares xs t := (h.supplyTick he).clockTick
  exact .ite ht ht.updateRegister

theorem consumeTrace {m} (h : s.Spares xs x) : s.Spares xs (x.consumeTrace m) := by
  unfold State.consumeTrace
  extract_lets rest used src
  exact .ite h (.ite h.setObs h.traceLost)

theorem fileTrace (h : s.Spares xs x) : s.Spares xs x.fileTrace := .foldl (fun _ _ hy => hy.consumeTrace) h.setObs

theorem traceTick {moved toks} (h : s.Spares xs x) : s.Spares xs (x.traceTick moved toks) := h.setObs.traceSwitch.setObs.setPins

theorem loseMb {k} (h : s.Spares xs x) : s.Spares xs (x.loseMb k) := h.setWin

theorem without_eq {t y} (h : s.Spares xs x) (e : x.without t = some y) : s.Spares xs y := by
  have hsome {p : Prop} [Decidable p] {z : State} (hz : s.Spares xs z) (e : (if p then some z else none) = some y) : s.Spares xs y := by
    split at e
    · cases e; exact hz
    · cases e
  have hdrop {u : Bool} {l : LoopOut} (e : (if x.loop.sched.any (·.crosses u x.now) then some (x.setLoop l) else none) = some y)
      (hl : l.selected = x.loop.selected) :
    s.Spares xs y := hsome (h.setLoop hl) e
  cases t <;> unfold State.without at e <;> dsimp only at e
  case alarm =>
    split at e
    · exact hdrop e rfl
    · cases e
  case dacHold => exact hdrop e rfl
  case feed =>
    split at e
    · exact hsome h.setLoop e
    · cases e
  case relay =>
    split at e
    · exact hsome h.setFab e
    · cases e
  case report =>
    split at e
    · cases e; exact h.setFaults
    · cases e
  case notice => exact hsome h.loseMb e
  case ack =>
    split at e
    · exact hsome h.loseMb e
    · cases e
  case measApply => exact hsome h.setMgmt e
  case loopApply =>
    split at e
    · cases e; exact h.setMgmt
    · exact hsome h.setMgmt e
  case lineApply => exact hsome h.setMgmt e
  case tapDrain =>
    split at e
    · cases e
    · cases e; exact h.passDrain
  case trace =>
    split at e
    · cases e
    · cases e; exact h.setObs

theorem checkCrossing {cr} (h : s.Spares xs x) : s.Spares xs (x.checkCrossing cr) := by
  unfold State.checkCrossing
  refine .ite ?_ h
  split
  · next e => exact .ite (h.without_eq e).parityErrorAt (h.without_eq e).parityError
  · exact h

theorem checkCrossings {real} (h : s.Spares xs x) : s.Spares xs (x.checkCrossings real) := .foldl (fun _ _ hy => hy.checkCrossing) h

theorem beats {b} (h : s.Spares xs x) : s.Spares xs (x.beats b) :=
  h.same (by simp [State.sight, State.beats, Isl.beat_up])

theorem endFsk (h : s.Spares xs x) : s.Spares xs x.endFsk := by
  unfold State.endFsk
  extract_lets ended src
  exact .ite (h.same rfl) h

theorem enterPosts (h : s.Spares xs x) : s.Spares xs x.enterPosts := .foldl (fun _ _ hy => hy.postWaiting) h

theorem relayTick (h : s.Spares xs x) : s.Spares xs x.relayTick := by
  unfold State.relayTick
  split
  · exact .ite h.setFab h
  · exact h

theorem mailTick (h : s.Spares xs x) : s.Spares xs x.mailTick := .ite h h.relayTick.lateAcks.takeNotices.enterPosts.postMb2.postNext

end State.Spares

/-! ## The parts of a boundary -/

section
variable {s a b : State} {i : TickIn}

/-- What a boundary completes of the tick before. -/
theorem State.completed_spares (s : State) : s.Spares [.nvm, .up] s.fileTrace.attestTick.flushTick :=
  .flushTick (by simp) (by simp) (State.Spares.refl _ s).fileTrace.attestTick

theorem State.Spares.setClock {c} {xs : List Held} {x : State} (h : s.Spares xs x) (hc : Held.clock ∈ xs) :
    s.Spares xs { x with clock := c } :=
  h.but hc fun q hq => by cases q <;> first | exact absurd rfl hq | rfl

theorem State.Spares.readPins {x : State} (h : s.Spares [.clock] x) : s.Spares [.clock, .inputs] (x.setPins (x.pins.read i)) ∧
    (x.setPins (x.pins.read i)).pins.inputs = (s.pins.read i).inputs := by
  have hin : x.pins.inputs = s.pins.inputs := h.kept .inputs (by simp)
  refine ⟨(h.mono (by simp)).but (p := .inputs) (by simp) fun q hq => ?_, Pins.read_inputs i hin⟩
  cases q <;> first | exact absurd rfl hq | rfl

theorem State.monitored_spares (s : State) (u v : Bool) : s.Spares [] (s.setLoop { s.loop with comply := s.loop.comply.tick u v }) :=
  (State.Spares.refl _ s).setLoop

/-- A boundary in three parts: what comes before the supply stage, what stands between it and the loop's, and what follows. -/
theorem State.boundary_stages (s : State) (i : TickIn) : ∃ a b, s.fileTrace.attestTick.flushTick.Spares [.clock, .inputs] a ∧
    a.clock = s.fileTrace.attestTick.flushTick.clock.advance ∧ a.pins.inputs = (s.fileTrace.attestTick.flushTick.pins.read i).inputs ∧
    (a.powerTick i).Spares [] b ∧ b.loopTick.Spares [.up] (s.boundary i) := by
  unfold State.boundary
  extract_lets s1 sampled s2 passed was moved s3 s4 s5 toks s6 s7 s8 s9 src s10 s11 s12 src2
  have h4 : s1.Spares [.clock] s4 := .setClock (State.Spares.refl _ s1).visit.setObs (by simp)
  have h45 : s4.Spares [] s5 := (State.Spares.refl _ s4).checkCrossings
  have h6 : s1.Spares [.clock] s6 := (h4.trans (h45.mono (by simp))).setObs
  obtain ⟨h7, hin⟩ : s1.Spares [.clock, .inputs] s7 ∧ s7.pins.inputs = (s1.pins.read i).inputs := h6.readPins
  have h78 : s7.Spares [] s8 := (State.Spares.refl _ s7).measTick.bufferCheck.beats
  have h10 : s9.Spares [] s10 := s9.monitored_spares _ _
  have h11 : s10.loopTick.Spares [.up] s11 := (State.Spares.refl _ s10.loopTick).endFsk.portTick.portTick.mailTick.takeResets (by simp)
  have h12 : s10.loopTick.Spares [.up] s12 := h11.driveExc
  have hclock : s8.clock = s1.clock.advance := calc
    s8.clock = s7.clock := h78.kept .clock (by simp)
    _ = s5.clock := rfl
    _ = s4.clock := h45.kept .clock (by simp)
    _ = s1.clock.advance := rfl
  clear_value s12 s11
  have h13 := (h12.setPins (p := { src2 with gpioDrive := s12.gpioNow })).traceTick (moved := moved) (toks := toks)
  exact ⟨s8, s10, h7.trans (h78.mono (by simp)), hclock, (h78.kept .inputs (by simp)).trans hin, h10, h13⟩

/-- What no stage of a boundary moves, and what one stage moves alone. -/
theorem State.boundary_parts (s : State) (i : TickIn) : ∃ a b, s.Spares [.nvm, .up, .clock, .inputs] a ∧
    a.isl.aon.up = s.fileTrace.attestTick.flushTick.isl.aon.up ∧ (a.powerTick i).Spares [] b ∧ b.loopTick.Spares [.up] (s.boundary i) ∧
    (s.boundary i).nvm = s.fileTrace.attestTick.flushTick.nvm ∧ (s.boundary i).clock = s.clock.advance ∧
    (s.boundary i).pins.inputs = (s.pins.read i).inputs := by
  obtain ⟨a, b, h2, hclock, hin, h3, h5⟩ := s.boundary_stages i
  have h1 := s.completed_spares
  have h4 : b.Spares [.selected, .inForce] b.loopTick := (State.Spares.refl _ _).loopTick (by simp) (by simp)
  have hp : a.Spares [.energy] (a.powerTick i) := (State.Spares.refl _ _).powerTick (by simp)
  have hlast : a.Spares [.energy, .selected, .inForce, .up] (s.boundary i) :=
    (((hp.mono (by simp)).trans (h3.mono (by simp))).trans (h4.mono (by simp))).trans (h5.mono (by simp))
  refine ⟨a, b, (h1.mono (by simp)).trans (h2.mono (by simp)), h2.kept .up (by simp), h3, h5, ?_, ?_, ?_⟩
  · exact (hlast.kept .nvm (by simp)).trans (h2.kept .nvm (by simp))
  · rw [(hlast.kept .clock (by simp)).trans hclock]
    exact congrArg _ (h1.kept .clock (by simp))
  · exact ((hlast.kept .inputs (by simp)).trans hin).trans (Pins.read_inputs i (h1.kept .inputs (by simp)))

/-! ## The supply stage -/

/-- The season of a boundary, by the change of AUX that acts in it and by the comparators of the boundary before (03 R55, R60, R61). -/
def State.tickSeason (s : State) : Season :=
  if s.isl.aon.up = false then s.energy.season
  else if s.energy.auxNext.getD s.energy.aux = true then .summer
  else if s.energy.toWinter = true then .winter
  else if s.energy.auxNext = some false then s.energy.afterAux else s.energy.season

/-- The season once AUX has changed. -/
def State.auxSeason (s : State) : Season :=
  if s.isl.aon.up = false then s.energy.season
  else if s.energy.auxNext.getD s.energy.aux = true then .summer
  else if s.energy.auxNext = some false then s.energy.afterAux else s.energy.season

theorem State.enterSeason_steady (s : State) (x : Season) :
    (s.enterSeason x).energy.steady = { s.energy with season := s.enters x }.steady ∧ (s.enterSeason x).isl = s.isl := by
  obtain ⟨r, o, he, -, -⟩ := s.enterSeason_eq x
  rw [he]
  exact ⟨rfl, rfl⟩

theorem State.auxCheck_steady (s : State) : s.auxCheck.energy.steady = s.energy.steady :=
  ((State.Spares.refl [] s).auxCheck).kept .energy (by simp)

/-- The change of AUX acts (03 R60). -/
theorem State.auxTick_steady (s : State) : (∃ b, s.auxTick.energy.steady =
      { s.energy with aux := s.energy.auxNext.getD s.energy.aux, auxNext := none, season := s.auxSeason, buck := b }.steady) ∧
    s.auxTick.isl.aon.up = s.isl.aon.up := by
  refine ⟨?_, ((State.Spares.refl [.energy] s).auxTick (by simp)).kept .up (by simp)⟩
  unfold State.auxTick State.auxSeason
  extract_lets src t
  cases hn : s.energy.auxNext with
  | none =>
    cases ha : s.energy.aux with
    | false =>
      refine ⟨s.energy.buck, ?_⟩
      simp [Energy.steady, hn, ha, src]
    | true =>
      refine ⟨s.energy.buck, ?_⟩
      show (s.enterSeason .summer).energy.steady = _
      rw [(s.enterSeason_steady .summer).1]
      simp [Energy.steady, hn, ha, State.enters, src]
  | some on =>
    cases on with
    | false =>
      refine ⟨{ t.energy with aux := false }.buckNow, ?_⟩
      show (State.auxCheck _).energy.steady = _
      rw [State.auxCheck_steady, (State.enterSeason_steady _ _).1]
      rfl
    | true =>
      refine ⟨.auxIn, ?_⟩
      show (State.enterSeason _ .summer).energy.steady = _
      rw [(State.enterSeason_steady _ .summer).1]
      rfl

theorem Energy.compare_steady (e : Energy) (i : TickIn) : (e.compare i).steady =
    ((e.season, e.aux, e.auxNext, e.season != .winter && !e.aux && (i.loopBelow85 || i.vresBelow110), e.resAvg),
      (if e.lowCount = 8 then 9 else if i.loopBelow85 && i.vresBelow90 && !e.aux then min 9 (e.lowCount + 1) else 0,
        if e.buckCount = 2 then 3 else if i.buckBelow70 then min 3 (e.buckCount + 1) else 0,
        if e.aux then .auxIn else if i.loopBelow85 && !i.vresBelow90 then .resv else .loopIn),
      i.loopBelow85, i.loopBelow86, i.vresBelow90, i.vresBelow110) := rfl

/-- The supply stage of a boundary. -/
theorem State.supplyTick_steady (s : State) (i : TickIn) : (s.supplyTick i).energy.steady =
    ({ s.energy with aux := s.energy.auxNext.getD s.energy.aux, auxNext := none, season := s.tickSeason }.compare i).steady := by
  obtain ⟨⟨b, he⟩, hup⟩ := s.auxTick_steady
  unfold State.supplyTick
  extract_lets s1 s2
  have he1 : s1.energy.steady = _ := he
  have hup1 : s1.isl.aon.up = s.isl.aon.up := hup
  clear_value s1
  simp only [Energy.steady, Prod.mk.injEq] at he1
  obtain ⟨⟨hseason, haux, hnext, hwinter, hres⟩, ⟨hlow, hbuck, -⟩, -⟩ := he1
  have h2 : s2.energy.steady = { s1.energy with season := s.tickSeason }.steady := by
    have hpick : s2 = s1 ∧ s1.energy.season = s.tickSeason ∨ s2 = s1.enterSeason .winter ∧ s1.enters .winter = s.tickSeason := by
      unfold s2 State.enters State.tickSeason
      rw [hup1, hseason, hwinter, haux]
      unfold State.auxSeason
      cases s.isl.aon.up <;> cases s.energy.auxNext.getD s.energy.aux <;> cases s.energy.toWinter <;> simp
    obtain ⟨h, hs⟩ | ⟨h, hs⟩ := hpick
    · rw [h, ← hs]
    · rw [h, (s1.enterSeason_steady .winter).1, hs]
  clear_value s2
  show (s2.energy.compare i).steady = _
  rw [Energy.compare_steady, Energy.compare_steady]
  simp only [Energy.steady, Prod.mk.injEq] at h2
  obtain ⟨⟨hseason', haux', hnext', -, hres'⟩, ⟨hlow', hbuck', -⟩, -⟩ := h2
  simp only [hseason', haux', hnext', hres', hlow', hbuck', haux, hnext, hres, hlow, hbuck]
  rfl

theorem State.powerTick_steady (s : State) (i : TickIn) : (s.powerTick i).energy.steady =
    ({ s.energy with aux := s.energy.auxNext.getD s.energy.aux, auxNext := none, season := s.tickSeason }.compare i).steady := by
  rw [← s.supplyTick_steady i]
  have h : (s.supplyTick i).Spares [] (s.supplyTick i).clockTick := (State.Spares.refl _ _).clockTick
  have hp : (s.supplyTick i).Spares [] (s.powerTick i) := .ite h h.updateRegister
  exact hp.kept .energy (by simp)

/-! ## The loop's stage -/

theorem trimFill_headD (fill x : Int) (xs : List Int) : (trimFill fill (x :: xs)).headD fill = x := by
  unfold trimFill
  rw [List.reverse_cons, List.dropWhile_append]
  split
  · by_cases hx : x = fill
    · simp [hx]
    · simp [hx]
  · simp

/-- The limited code of the boundary before heads the history (08 R193). -/
theorem LoopOut.push_head (l : LoopOut) : l.push.hist.headD l.push.fill = l.lim := by
  have h : l.push.hist = trimFill l.push.fill (l.lim :: l.hist.take 1532) := rfl
  rw [h, trimFill_headD]

/-- The limited code after a boundary that had `lim` and the source `src` before: within the slew limit of it, or the commanded code
where the source has changed to an alarm or to foldback. -/
structure LoopOut.Limited (l : LoopOut) (src : Nat) (lim slew : Int) : Prop where
  within : (l.src = src ∨ (l.src ≠ 5 ∧ l.src ≠ 6 ∧ l.src ≠ 8)) → (l.lim - lim).natAbs ≤ slew.natAbs
  past : l.src ≠ src → (l.src = 5 ∨ l.src = 6 ∨ l.src = 8) → l.lim = l.cmd

theorem LoopOut.stages_limited (l : LoopOut) (src : Nat) (c slew : Int) :
    (l.stages src c slew).Limited l.prevSrc (l.hist.headD l.fill) slew := by
  unfold LoopOut.stages
  constructor <;> dsimp only
  · intro h
    have hno : (src != l.prevSrc && (src == 5 || src == 6 || src == 8)) = false := by
      obtain h | ⟨h5, h6, h8⟩ := h
      · simp [h]
      · simp [h5, h6, h8]
    rw [hno, if_neg Bool.false_ne_true]
    split <;> omega
  · intro hne h
    rw [if_pos]
    simpa [hne, or_assoc] using h

theorem State.refreshed_limited (s : State) :
    s.refreshed.Limited s.loop.prevSrc (s.loop.hist.headD s.loop.fill) s.mgmt.inForce.slew := by
  unfold State.refreshed
  cases s.primaryRuns
  · exact LoopOut.stages_limited ..
  · exact LoopOut.stages_limited ..

theorem State.loopTick_limited (s : State) : s.loopTick.loop.Limited s.loop.src s.loop.lim s.loopTick.mgmt.inForce.slew := by
  unfold State.loopTick
  extract_lets old s1 src s2
  have h1 : s.Spares [.inForce] s1 := (State.Spares.refl _ s).countHold.applyDue.earlyLoop (by simp)
  have hlim : s1.loop.lim = s.loop.lim := congrArg (fun y => y.2.2) (h1.kept .selected (by simp))
  have hpush : s2.loop.hist.headD s2.loop.fill = s.loop.lim := (LoopOut.push_head s1.loop).trans hlim
  obtain ⟨o, ho, -⟩ := s2.refreshLoop.loopTrace_eq old
  rw [ho, State.refreshLoop_eq, ← hpush]
  exact s2.refreshed_limited

/-! ## AUX lost and found (03 R62) -/

/-- A sequence that has been stopped for want of AUX. -/
def Seq.halted (x : Seq) : Seq := { (if x.running = true then x.stopped else x) with startFrom := none }

theorem Seq.halted_off (x : Seq) : x.halted.running = false ∧ x.halted.startFrom = none := by
  unfold Seq.halted
  cases h : x.running
  · exact ⟨h, rfl⟩
  · exact ⟨rfl, rfl⟩

theorem State.seqHalted_moved (s : State) {q : Nat} (hq : q < 4) : s.SeqsMoved (s.seqHalted q) ∧
    ∀ n, (s.seqHalted q).meas.seq n = if n = q then (s.meas.seq n).halted else s.meas.seq n := by
  unfold State.seqHalted
  extract_lets u src
  have hu : s.SeqsMoved u ∧ u.meas.seq q = (if (s.meas.seq q).running = true then (s.meas.seq q).stopped else s.meas.seq q) ∧
      ∀ n, n ≠ q → u.meas.seq n = s.meas.seq n := by
    unfold u
    cases (s.meas.seq q).running
    · exact ⟨.refl s, rfl, fun _ _ => rfl⟩
    · obtain ⟨hm, hs⟩ := s.stopSeq_moved hq
      exact ⟨hm, (hs q).trans (if_pos rfl), fun n hn => (hs n).trans (if_neg hn)⟩
  obtain ⟨hm, hself, hother⟩ := hu
  refine ⟨hm.trans (u.setSeq_moved q _), fun n => ?_⟩
  show (u.meas.setSeq q { u.meas.seq q with startFrom := none }).seq n = _
  rw [Meas.setSeq_seq _ _ hq]
  by_cases h : n = q
  · rw [if_pos h, if_pos h, h, hself]
    rfl
  · rw [if_neg h, if_neg h, hother n h]

theorem addSeqs_getLsbD (mask : BitVec 4) (on : List Nat) {q : Nat} (hq : q < 4) :
    (addSeqs mask on).getLsbD q = (mask.getLsbD q || decide (q ∈ on)) := by
  unfold addSeqs
  induction on generalizing mask with
  | nil => simp
  | cons x xs ih =>
    rw [List.foldl_cons, ih]
    by_cases h : x = q
    · simp [h, hq]
    · simp [h, Ne.symm h]

theorem Meas.mem_onSeqs {m : Meas} {q : Nat} (hq : q < 4) : decide (q ∈ m.onSeqs) = ((m.seq q).running || (m.seq q).startFrom.isSome) := by
  simp [Meas.onSeqs, hq]

theorem State.report_faults_of {s t : State} {det cause : Nat} {isl : Byte} (hf : t.faults = s.faults) (hc : t.clock = s.clock) :
    (t.report det cause isl).faults = (s.report det cause isl).faults := by
  unfold State.report State.now
  rw [hf, hc]
  rfl

/-- The almanac rests on an AUX that is lost: every sequence stops, and SUP_AUX is raised once. -/
theorem State.auxCheck_blocked (h : s.auxBlocked = true) :
    (∀ q, q < 4 → (s.auxCheck.meas.seq q).running = false ∧ (s.auxCheck.meas.seq q).startFrom = none) ∧ s.auxCheck.energy.auxLost = true ∧
    (∀ q, q < 4 → s.auxCheck.energy.auxStopped.getLsbD q =
      (s.energy.auxStopped.getLsbD q || ((s.meas.seq q).running || (s.meas.seq q).startFrom.isSome))) ∧
    (s.energy.auxLost = true → s.auxCheck.faults = s.faults) ∧
    (s.energy.auxLost = false → s.auxCheck.faults = (s.report 0x15 0 0x40).faults) := by
  rw [State.auxCheck_eq, if_pos h]
  obtain ⟨hm, hs⟩ := State.foldl_seqsMoved (f := State.seqHalted) (g := Seq.halted) (fun u q hq => u.seqHalted_moved hq) s.meas.onSeqs
    (List.nodup_range.filter _) (fun q hq => List.mem_range.1 (List.mem_filter.1 hq).1) s
  have hfaults := hm.only.2 .faults (by simp)
  have hclock := hm.only.2 .clock (by simp)
  generalize s.meas.onSeqs.foldl State.seqHalted s = t at hm hs hfaults hclock
  have hoff (q : Nat) (hq : q < 4) : (t.meas.seq q).running = false ∧ (t.meas.seq q).startFrom = none := by
    rw [hs q]
    by_cases hon : q ∈ s.meas.onSeqs
    · rw [if_pos hon]
      exact Seq.halted_off _
    · rw [if_neg hon]
      have hno := Meas.mem_onSeqs (m := s.meas) hq
      rw [decide_eq_false hon] at hno
      simpa using hno.symm
  have hmask (q : Nat) (hq : q < 4) : (addSeqs s.energy.auxStopped s.meas.onSeqs).getLsbD q =
      (s.energy.auxStopped.getLsbD q || ((s.meas.seq q).running || (s.meas.seq q).startFrom.isSome)) := by
    rw [addSeqs_getLsbD _ _ hq, Meas.mem_onSeqs hq]
  unfold State.auxKnown
  cases s.energy.auxLost
  · refine ⟨hoff, rfl, hmask, fun h => Bool.noConfusion h, fun _ => ?_⟩
    exact State.report_faults_of hfaults hclock
  · exact ⟨hoff, rfl, hmask, fun _ => hfaults, fun h => Bool.noConfusion h⟩

theorem State.auxDetect_restarts (s : State) :
    (∀ q, q < 4 → (s.auxDetect.meas.seq q).startFrom = if s.energy.auxStopped.getLsbD q then some s.now else (s.meas.seq q).startFrom) ∧
    s.auxDetect.energy.auxStopped = 0 ∧ s.auxDetect.energy.auxLost = false := by
  unfold State.auxDetect
  extract_lets src u m src2 v
  obtain ⟨r, o, he, -, -⟩ := v.enterSeason_eq .summer
  rw [he]
  refine ⟨fun q hq => ?_, rfl, rfl⟩
  have hseq := foldl_setSeq (fun x => { x with startFrom := some s.now }) (maskSeqs s.energy.auxStopped.toNat) (List.nodup_range.filter _)
    (fun q hq => (mem_maskSeqs.1 hq).1) s.meas q
  refine (congrArg Seq.startFrom hseq).trans ?_
  simp only [mem_maskSeqs, hq, true_and, BitVec.getLsbD]
  split <;> rfl

/-- AUX has come back: the sequences that it had stopped start again. -/
theorem State.auxTick_returned (h : s.energy.auxNext = some true) :
    (∀ q, q < 4 → (s.auxTick.meas.seq q).startFrom = if s.energy.auxStopped.getLsbD q then some s.now else (s.meas.seq q).startFrom) ∧
    s.auxTick.energy.auxStopped = 0 ∧ s.auxTick.energy.auxLost = false := by
  have ht : s.auxTick = (s.setEnergy { s.energy with auxNext := none }).auxDetect := by
    unfold State.auxTick
    rw [h]
  rw [ht]
  exact State.auxDetect_restarts _

theorem execTickBoundary_eq (hp : s.clock.powered = true) (hr : s.clock.running = true) :
    exec (.tickBoundary i) s = .next (s.boundary i) := by
  show stepIf (s.clock.powered && s.clock.running) s (s.boundary i) = _
  exact stepIf_of (by rw [hp, hr]; rfl)

theorem State.boundary_limited (s : State) (i : TickIn) :
    (s.boundary i).loop.Limited s.loop.src s.loop.lim (s.boundary i).mgmt.inForce.slew := by
  obtain ⟨a, b, ha, -, hp, hb, -⟩ := s.boundary_parts i
  have hstage : a.Spares [.energy] (a.powerTick i) := (State.Spares.refl _ _).powerTick (by simp)
  have hbefore : b.loop.selected = s.loop.selected :=
    (hp.kept .selected (by simp)).trans ((hstage.kept .selected (by simp)).trans (ha.kept .selected (by simp)))
  have hafter : (s.boundary i).loop.selected = b.loopTick.loop.selected := hb.kept .selected (by simp)
  have hslew : (s.boundary i).mgmt.inForce = b.loopTick.mgmt.inForce := hb.kept .inForce (by simp)
  have hl := b.loopTick_limited
  simp only [LoopOut.selected, Prod.mk.injEq] at hbefore hafter
  obtain ⟨hsrc, -, hlim⟩ := hbefore
  obtain ⟨hsrc', hcmd', hlim'⟩ := hafter
  rw [hsrc, hlim] at hl
  rw [hslew]
  refine ⟨?_, ?_⟩ <;> rw [hsrc', hlim']
  · exact hl.within
  · rw [hcmd']
    exact hl.past

theorem State.boundary_steady (s : State) (i : TickIn) : (s.boundary i).energy.steady =
    ({ s.energy with
        aux := s.energy.auxNext.getD s.energy.aux, auxNext := none
        season := if s.fileTrace.attestTick.flushTick.isl.aon.up = false then s.energy.season
          else if s.energy.auxNext.getD s.energy.aux = true then .summer
          else if s.energy.toWinter = true then .winter
          else if s.energy.auxNext = some false then s.energy.afterAux else s.energy.season }.compare i).steady := by
  obtain ⟨a, b, ha, hup, hp, hb, -⟩ := s.boundary_parts i
  have hloop : b.Spares [.selected, .inForce] b.loopTick := (State.Spares.refl _ _).loopTick (by simp) (by simp)
  have he : a.energy.steady = s.energy.steady := ha.kept .energy (by simp)
  rw [← hup]
  refine (hb.kept .energy (by simp)).trans ((hloop.kept .energy (by simp)).trans ((hp.kept .energy (by simp)).trans ?_))
  rw [a.powerTick_steady, Energy.compare_steady, Energy.compare_steady]
  simp only [Energy.steady, Prod.mk.injEq] at he
  obtain ⟨⟨hseason, haux, hnext, hwinter, hres⟩, ⟨hlow, hbuck, -⟩, -⟩ := he
  simp only [State.tickSeason, Energy.afterAux, hseason, haux, hnext, hwinter, hres, hlow, hbuck]

/-! ## The obligation -/

/-- Settles O36: each operation of a boundary leaves the named values but where it is the one that moves them, and AUX, season and
counts follow from the supply stage. -/
theorem tickAdvancesTheCount : Obligations.TickAdvancesTheCount := by
  unfold Obligations.TickAdvancesTheCount
  refine ⟨fun s i hp hr => ⟨s.boundary i, ?_⟩, fun s i hp hr => ?_, fun s => ⟨fun h => s.auxCheck_blocked h, fun h => ?_, fun h => ?_⟩⟩
  · obtain ⟨a, b, ha, -, hp', hb, hnvm, hclock, hin⟩ := s.boundary_parts i
    have hl := s.boundary_limited i
    have h1 : a.Spares [.energy] (a.powerTick i) := (State.Spares.refl _ _).powerTick (by simp)
    have h2 : b.Spares [.selected, .inForce] b.loopTick := (State.Spares.refl _ _).loopTick (by simp) (by simp)
    have h : s.Spares [.nvm, .up, .clock, .inputs, .energy, .selected, .inForce] (s.boundary i) :=
      ((((ha.mono (by simp)).trans (h1.mono (by simp))).trans (hp'.mono (by simp))).trans (h2.mono (by simp))).trans (hb.mono (by simp))
    simp only [Pins.inputs, Prod.mk.injEq] at hin
    obtain ⟨hgpio, hrst, hblank⟩ := hin
    refine ⟨execTickBoundary_eq hp hr, h.kept .pending (by simp), hnvm, h.kept .boot (by simp), ?_, hgpio, hrst, hblank, hl.within, hl.past⟩
    rw [hclock, Clock.advance]
    rcases s.clock.timeSet with - | v
    · rcases s.clock.slew with - | up
      · rfl
      · cases up <;> rfl
    · rfl
  · have he := s.boundary_steady i
    rw [Energy.compare_steady] at he
    simp only [Energy.steady, Prod.mk.injEq] at he
    obtain ⟨⟨hseason, haux, hnext, hwinter, -⟩, ⟨hlow, hbuck, hin⟩, hcmp⟩ := he
    refine ⟨s.boundary i, execTickBoundary_eq hp hr, hseason, haux, hnext, ?_, hlow, hbuck, hin, ?_⟩
    · exact hwinter
    · obtain ⟨h85, h86, h90, h110⟩ := hcmp
      rw [h85, h86, h90, h110]
  · rw [State.auxCheck_eq, h]
    rfl
  · exact State.auxTick_returned h

end

end Sys2Proof.Machine
end
